-- ==== Sys2Proof/Word.lean ====
section
/-! DEFINITION.
The word types of the CX9: 64-bit registers (R11), 128-bit engine registers, bytes, and the sparse stores that hold
registers and addressed memories as plain data. -/
namespace Sys2Proof

/-- A 64-bit unit register (R11). -/
abbrev Word := BitVec 64

/-- A byte of an addressed memory. -/
abbrev Byte := BitVec 8

/-- A 128-bit engine register or a BF128 block (R209, R295). -/
abbrev Quad := BitVec 128

/-- A sparse store: key and value pairs, keys strictly rising, no pair equal to what an unlisted key reads as. -/
abbrev Store (α : Type) := List (Nat × α)

end Sys2Proof
end

