-- ==== Sys2Proof/Syntax.lean ====
section
/-! DEFINITION.
The commands of the block: the ONE inductive Instr, one constructor per row of the opcode table, with the row's
operands. -/
namespace Sys2Proof

/-- Who makes a write or gives a command (R11, R159, R255, R424): the PF and the VFs over PCIe, the management SPI, the
system runtime, the warden, a cue engine's own code in user or system privilege, and a cue with the class and the ring
that it came from. -/
inductive Who where
  | pf
  | vf (k : Nat)
  | mspi
  | runtime
  | warden
  | engine (n : Nat) (sys : Bool)
  | cue (cls ring : Nat) (sys : Bool)
  deriving DecidableEq, Repr

/-- The part of a register that a write addresses (R11). -/
inductive Half where
  | both
  | lo
  | hi
  deriving DecidableEq, Repr

/-- Who issues an HBM request (R287): the delay lines, a model prefetch, the ring engine with RPOP and RPUSH, the cellar's capture,
index and replay, an engine's DMA, a model write-back, CL_MB host access, a read of the cellar window, the patrol scrubber and the
copy of a soft repair. -/
inductive HbmBy where
  | delay
  | model
  | ring
  | cellar
  | dma
  | writeBack
  | bank
  | window (who : Who)
  | scrub
  | repair
  deriving DecidableEq, Repr

/-- What ECC finds as a read of HBM completes (R289): `err` 0 nothing, 1 a corrected and 2 an uncorrectable error, in the row whose
first sector has the offset `row`. -/
structure Ecc where
  err : Nat
  row : Nat
  deriving DecidableEq, Repr

/-- The header of a PTP message (R41): its domain and its sender's port identity. -/
structure PtpHead where
  dom : Nat
  src : Nat
  deriving DecidableEq, Repr

/-- What an Announce says (R41): its interval in Tc, and of its grandmaster the class, accuracy, variance, priority 2 and identity, with
the steps to it. -/
structure PtpAnnounce where
  ivl : Nat
  cls : Nat
  acc : Nat
  var : Nat
  prio2 : Nat
  gm : Nat
  steps : Nat
  deriving DecidableEq, Repr

/-- The commands that the block takes, in the opcode table's order. -/
inductive Instr where
  /-- REGISTER_WRITE (R12). A write to a register field that has no row of its own sets the field according to its access code, subject to privilege and range checks. -/
  | registerWrite (who : Who) (u : Nat) (off : Nat) (h : Half) (v : Word)
  /-- REG_ALIGN (R11). A host access of illegal width or alignment is ignored or reads zero, and it raises CORRECTED REG_ALIGN at the module root. -/
  | regAlign (who : Who) (write : Bool) (u : Nat)
  /-- ENABLE (R22). A write of UNIT_CTRL.ENABLE requests ACTIVE (1) or a return to READY after the kind's ramp-down (0). -/
  | enable (who : Who) (u : Nat) (on : Bool)
  /-- FENCE_REQ (R22). A write of UNIT_CTRL.FENCE_REQ fences the unit, mutes its outputs and clears ENABLE and TEST_REQ. -/
  | fenceReq (who : Who) (u : Nat)
  /-- UNFENCE_REQ (R22). A write of UNIT_CTRL.UNFENCE_REQ starts the unit's unfence self-test. -/
  | unfenceReq (who : Who) (u : Nat)
  /-- SELFTEST_DONE (R367). An unfence self-test completes: on a pass the unit goes to READY, and on a failure it stays FENCED with CONTAINED SELFTEST. -/
  | selftestDone (u : Nat) (pass : Bool)
  /-- POWER_REQ (R341). A write of UNIT_CTRL.POWER_REQ requests the unit's power domain on or off, subject to holds and refusals. -/
  | powerReq (who : Who) (u : Nat) (on : Bool)
  /-- TEST_REQ (R22). A write of UNIT_CTRL.TEST_REQ moves the unit into TEST, or out of it back to READY or ACTIVE. -/
  | testReq (who : Who) (u : Nat) (on : Bool)
  /-- RAMP_DOWN_DONE (R22). A unit's ramp-down completes and the unit reaches READY, or goes on to OFF when power is removed. -/
  | rampDownDone (u : Nat)
  /-- UNIT_FAULT_CLEAR (R19). A W1C write to UNIT_FAULT clears CORRECTED or CONTAINED, and CODE and CLASS read zero once no bit is left set. -/
  | unitFaultClear (who : Who) (u : Nat) (v : Word)
  /-- CNT_CLR (R18). A write of UNIT_FAULT.CNT_CLR clears CORR_CNT. -/
  | cntClr (who : Who) (u : Nat)
  /-- GRP_ADD (R28). A GRP_EDIT with OP 1 adds a member after the limit checks and takes effect at the next Tc. -/
  | grpAdd (who : Who) (g : Nat) (u : Nat)
  /-- GRP_REMOVE (R28). A GRP_EDIT with OP 2 removes a member, or reports NOT_MEMBER. -/
  | grpRemove (who : Who) (g : Nat) (u : Nat)
  /-- GRP_REMOVE_ALL (R28). A GRP_EDIT with OP 3 removes every member and never fails. -/
  | grpRemoveAll (who : Who) (g : Nat) (u : Nat)
  /-- TICK_BOUNDARY (R34). The air-time counter reaches a control-tick boundary, and every per-tick action of the device takes place. -/
  | tickBoundary
  /-- REFCLK_QUALIFY (R36). REFCLK has stayed within ±50 ppm for 10 ms, and the REFCLK check begins. -/
  | refclkQualify
  /-- REFCLK_QUAL_TIMEOUT (R36). REFCLK has not qualified within 100 ms, and start-up halts in collector mode. -/
  | refclkQualTimeout
  /-- REF_LOST (R36). A qualified REFCLK departs beyond ±50 ppm or stops for 1 µs, and FATAL REF_LOST is raised. -/
  | refLost (stopped : Bool)
  /-- TRK_BURST_DECODE (R38). The tracker detects a synchronisation burst and decodes PBCH, which updates qualification and RSRP. -/
  | trkBurstDecode (back : Nat) (sfn : Nat) (crc : Bool) (pci : Nat) (ssb : Nat) (rsrp : Int) (ferr : Int)
  /-- TRK_BURST_MISSED (R38). An expected tracker burst goes undetected, and eight in a row lose the source. -/
  | trkBurstMissed
  /-- PPS_EDGE (R40). A rising edge on PPS_IN applies or counts the time of day and updates PPS qualification. -/
  | ppsEdge (ferr : Int)
  /-- PPS_TIMEOUT (R40). No PPS edge arrives within 1 s + 1 µs, and the PPS source is lost. -/
  | ppsTimeout
  /-- SYNC_TOD_WRITE (R40). A write of SYNC_TOD sets the GPS seconds to apply at the next PPS edge. -/
  | syncTodWrite (who : Who) (h : Half) (v : Word)
  /-- PTP_SYNC_RX (R41). A PTP Sync message is received and timestamped, and the servo updates the phase error and qualification. -/
  | ptpSyncRx (port : Nat) (head : PtpHead) (err : Int) (sec : Nat) (ns : Nat) (ferr : Int)
  /-- PTP_ANNOUNCE_RX (R41). A PTP Announce message is received and enters the alternate BMCA. -/
  | ptpAnnounceRx (port : Nat) (head : PtpHead) (told : PtpAnnounce)
  /-- PTP_ANNOUNCE_TIMEOUT (R41). Three Announce intervals pass without an Announce, and the PTP source is lost. -/
  | ptpAnnounceTimeout
  /-- SYNC_HOLDOFF_EXPIRY (R43). A higher-priority source has stayed qualified for HOLDOFF, and it takes over. -/
  | syncHoldoffExpiry
  /-- RESYNC (R44). A write of SYNC_CTRL.RESYNC returns the sync state to ACQUIRE at the next tick boundary. -/
  | resync (who : Who)
  /-- SYNC_CFG_WRITE (R52). A write of SYNC_CFG enables or disables sources, and an invalid tracker setup refuses TRK_EN with SYNC_CFG. -/
  | syncCfgWrite (who : Who) (h : Half) (v : Word)
  /-- TIME_STEP_APPLY (R48). A decided time step is applied to the counter at the start of the next tick of the old timeline. -/
  | timeStepApply
  /-- OPSEC_SECOND (R50). One powered second passes, and OPSEC counts up and is committed. -/
  | opsecSecond
  /-- SYNC_WALL_WRITE (R51). A write of SYNC_WALL.OFFSET changes the wall offset and writes a TIME-SET record. -/
  | syncWallWrite (who : Who) (h : Half) (v : Word)
  /-- TDD_COMMIT (R69). A write of PB_TDD_SWITCH commits the TDD pattern, which is checked and scheduled. -/
  | tddCommit (who : Who) (n : Nat) (stamp : Word)
  /-- TDD_PATTERN_APPLY (R69). A committed pattern takes effect at the even-frame start, and TDD_RESULT becomes APPLIED. -/
  | tddPatternApply (n : Nat)
  /-- PB_CB_DATA_WRITE (R63). A write of PB_CB_DATA writes codebook weights, is refused for current entries with CB_BUSY, and may autoincrement. -/
  | pbCbDataWrite (who : Who) (n : Nat) (h : Half) (v : Word)
  /-- BEAM_WRITE (R63). A write of PBD_BEAM changes the current beam entries at the Tc of the write. -/
  | beamWrite (who : Who) (m : Nat) (h : Half) (v : Word)
  /-- FBANK_WRITE (R61). A write of PBD_CTRL.FBANK requests a filter-bank switch at the next tick boundary. -/
  | fbankWrite (who : Who) (m : Nat) (bank : Bool)
  /-- FCOEF_WRITE (R61). A write of PBD_FCOEF_DATA loads a coefficient and advances INDEX, and it is ignored with FILT_BUSY on a bank in use. -/
  | fcoefWrite (who : Who) (m : Nat) (h : Half) (v : Word)
  /-- NCO_WRITE (R75). A write of an NCO word requests a retune from the next suitable tick boundary. -/
  | ncoWrite (who : Who) (m : Nat) (tx : Bool) (h : Half) (v : Word)
  /-- RETUNE_START (R75). A retune begins at T0: ramp-down starts and RETUNING is set. -/
  | retuneStart (m : Nat)
  /-- RETUNE_NCO_SWITCH (R75). At T0 + 256 the output is silent, the new NCO words apply and the pipeline is cleared. -/
  | retuneNcoSwitch (m : Nat)
  /-- RETUNE_REFILLED (R75). At T0 + 256 + L the pipeline is refilled, and STAB receives margin unknown. -/
  | retuneRefilled (m : Nat)
  /-- RETUNE_DONE (R75). At T0 + 512 + L the ramp to cold gain ends, RETUNE_DONE is raised and a ramp starts. -/
  | retuneDone (m : Nat)
  /-- EXT_INIT_SETTLED (R67). The initial external entry has settled after its sequence, and the PBD output gate opens. -/
  | extInitSettled (m : Nat)
  /-- PLANNER_SEQ_START (R105). The gain planner starts an RFFE sequence for an entry change, or abandons it with RFFE_LATE. -/
  | plannerSeqStart (m : Nat)
  /-- RXC_OVERRANGE (R82). An RXC overrange sample starts an episode, and sets OVR, the count, the stamp and INPUT_CLIP flags. -/
  | rxcOverrange (k : Nat)
  /-- RXC_OVR_EPISODE_END (R82). 1,024 Tc have passed without overrange, and OVR_NOW clears. -/
  | rxcOvrEpisodeEnd (k : Nat)
  /-- DIRECTION_SEQ_STEP (R70). A timed step of a side's transmit-to-receive or receive-to-transmit switching sequence is reached. -/
  | directionSeqStep (n : Nat)
  /-- BG_CAL_HANDOVER (R83). After 984 ticks one slice returns to service and the next leaves for background calibration. -/
  | bgCalHandover (k : Nat) (corr : Word) (selfOk : Bool)
  /-- CAL_RESTORE_DONE (R90). A channel's calibration restore completes, or falls back to foreground calibration. -/
  | calRestoreDone (u : Nat) (bad : Nat) (trimBad : Bool)
  /-- FOREGROUND_CAL_DONE (R90). A foreground calibration completes, and the channel enters STANDBY. -/
  | foregroundCalDone (u : Nat) (corr : List Word) (bad : Nat)
  /-- RXC_PIPELINE_FILLED (R87). An enabled RXC fills its slice pipeline after 1,024 Tc and enters RX. -/
  | rxcPipelineFilled (k : Nat)
  /-- MUTE_SEQ_STEP (R88). A timed step of a TXC's TX-to-MUTED or MUTED-to-TX sequence is reached. -/
  | muteSeqStep (k : Nat)
  /-- CC_CLK_LOST (R92). The CC converter clock loses lock, which mutes the TXCs, gates the RXCs and fences the CC. -/
  | ccClkLost (c : Nat)
  /-- SY_HOP_GO (R95). A write of SY_HOP.GO starts a warm or cold hop, or queues it. -/
  | syHopGo (who : Who) (k : Nat) (e : Nat)
  /-- SY_HOP_SAVE (R94). A write of SY_HOP.SAVE saves the synthesiser store to the converter calibration store. -/
  | syHopSave (who : Who) (k : Nat)
  /-- SY_CAL_WRITE (R94). A write of the SY calibration store sets a word, or invalidates an entry, and is refused for the entry in use. -/
  | syCalWrite (who : Who) (k : Nat) (second : Bool) (h : Half) (v : Word)
  /-- SY_LOCK_ACQUIRED (R95). A synthesiser locks, which ungates the bound RXCs and returns the bound TXCs to TX. -/
  | syLockAcquired (k : Nat) (band : Nat) (trim : Nat) (lf : Nat)
  /-- SY_CAL_TIMEOUT (R94). A cold hop has not locked within 1 ms, and CONTAINED SY_CAL_FAIL is raised. -/
  | syCalTimeout (k : Nat)
  /-- SY_LOCK_TIMEOUT (R96). Lock has not arrived within LOCK_MAX of a transmit demand, so the cue fails and the SY is fenced. -/
  | syLockTimeout (k : Nat)
  /-- SY_UNLOCK (R97). A LOCKED synthesiser drops lock, which mutes the bound TXCs and gates the bound RXCs. -/
  | syUnlock (k : Nat)
  /-- STB_CFG_WRITE (R101). A write of CC_STB_CFG sets a strobe function, and is refused for strobes bound to a transmitting TXC. -/
  | stbCfgWrite (who : Who) (c : Nat) (i : Nat) (h : Half) (v : Word)
  /-- CC_SEQ_GO (R104). A write of CC_SEQ_GO starts an RFFE sequence on all CCs, holds it or refuses it. -/
  | ccSeqGo (who : Who) (c : Nat) (seq : Nat)
  /-- RFFE_HELD_START (R105). A waiting cue or host RFFE sequence starts when its buses become idle. -/
  | rffeHeldStart (c : Nat)
  /-- RFFE_SEQ_DONE (R104). An RFFE sequence slot ends its last bus park cycle, and its buses go idle. -/
  | rffeSeqDone (c : Nat)
  /-- RFFE_CMD (R106). A write of CC_RFFE_CMD issues one RFFE frame, or queues or refuses it. -/
  | rffeCmd (who : Who) (c : Nat) (h : Half) (v : Word)
  /-- RFFE_FRAME_DONE (R106). A host RFFE frame ends, DONE is set and read data or PERR is reported. -/
  | rffeFrameDone (c : Nat) (data : Nat) (perr : Bool)
  /-- CC_SEQ_DATA_WRITE (R105). A write of CC_SEQ_DATA stores a sequence frame, is ignored with SEQ_BUSY on a running slot, and may autoincrement. -/
  | ccSeqDataWrite (who : Who) (c : Nat) (h : Half) (v : Word)
  /-- RFFE_DIV_WRITE (R103). A write of CC_RFFE DIV rounds and clamps the value, which takes effect when the bus is idle. -/
  | rffeDivWrite (who : Who) (c : Nat) (x : Nat) (d : Nat)
  /-- ORX_RUN_WRITE (R108). A write of ORX_CTRL.RUN starts or stops the dwell table, and is refused for an invalid N_ENT. -/
  | orxRunWrite (who : Who) (o : Nat) (on : Bool)
  /-- ORX_DWELL_ADVANCE (R108). An ORX dwell entry expires, and the switch moves to the next entry at the tick boundary. -/
  | orxDwellAdvance (o : Nat)
  /-- ORX_SETTLE_END (R108). The settling time of a dwell entry ends, and ORX samples become valid. -/
  | orxSettleEnd (o : Nat)
  /-- LANE_BLOCK_END (R120). An adaptation block ends: the lane updates its taps or holds them, and computes r_block. -/
  | laneBlockEnd (i : Nat) (re im : List Int) (pw : Nat)
  /-- LANE_TRACK_WINDOW (R121). A window of 64 ticks ends, and the lane enters TRACK or renews BASE. -/
  | laneTrackWindow (i : Nat)
  /-- LANE_DIVERGE (R134). A lane's fourth consecutive excess tick freezes it, or a fourth divergence within 10 s fences it. -/
  | laneDiverge (i : Nat)
  /-- MODEL_PREFETCH_START (R128). At S − LEAD the prefetch of a model into the shadow buffer begins. -/
  | modelPrefetchStart (i : Nat) (x : Nat)
  /-- MODEL_PREFETCH_DONE (R128). A model prefetch completes, or fails on an uncorrectable error with MODEL_ECC. -/
  | modelPrefetchDone (i : Nat) (ok : Bool)
  /-- MODEL_SWAP_DEADLINE (R130). At S − 2,048 an incomplete prefetch defers the swap and raises MODEL_LATE. -/
  | modelSwapDeadline (i : Nat)
  /-- MODEL_SWAP (R128). At S the new taps apply, the lane enters TRAIN and write-back starts. -/
  | modelSwap (i : Nat)
  /-- MODEL_DEFERRED_SWAP (R130). A deferred swap takes place at C + 2,048. -/
  | modelDeferredSwap (i : Nat)
  /-- MODEL_WRITE_DONE (R129). A write-back or SAVE of a model completes, and the slot is marked VALID. -/
  | modelWriteDone (i : Nat)
  /-- RESUME (R134). A write of LANE_CMD.RESUME moves a FROZEN lane to TRAIN. -/
  | laneResume (who : Who) (i : Nat)
  /-- ZERO (R142). A write of LANE_CMD.ZERO loads zero taps and trains under the cold cap. -/
  | laneZero (who : Who) (i : Nat)
  /-- SAVE (R129). A write of LANE_CMD.SAVE writes the current taps to the slot in use. -/
  | laneSave (who : Who) (i : Nat)
  /-- MB_DATA_WRITE (R127). A write of CL_MB_DATA writes model taps, is ignored with MB_BUSY on slots in use, and may autoincrement. -/
  | mbDataWrite (who : Who) (k : Nat) (h : Half) (v : Word)
  /-- MB_DATA_READ (R127). A read of CL_MB_DATA returns the selected copy, sets RANGE when out of range, and may autoincrement. -/
  | mbDataRead (who : Who) (k : Nat) (h : Half)
  /-- SET_VALID (R127). A CL_MB_CTRL with OP 1 marks a model slot VALID. -/
  | setValid (who : Who) (k : Nat) (slot : Nat)
  /-- CLEAR_VALID (R127). A CL_MB_CTRL with OP 2 clears the VALID bit of a model slot. -/
  | clearValid (who : Who) (k : Nat) (slot : Nat)
  /-- CLEAR_ALL_VALID (R141). A CL_MB_CTRL with OP 3 clears the VALID bits of every slot. -/
  | clearAllValid (who : Who) (k : Nat)
  /-- MB_ACCESS_DONE (R127). A bank access completes, and CL_MB_STAT.BUSY clears. -/
  | mbAccessDone (k : Nat)
  /-- TAP_DATA_WRITE (R142). A write of LANE_TAP_DATA preloads or sets a tap in OFF or HOLD, is otherwise refused, and advances TAP. -/
  | tapDataWrite (who : Who) (i : Nat) (h : Half) (v : Word)
  /-- TAP_DATA_READ (R142). A read of LANE_TAP_DATA returns the current tap and advances TAP. -/
  | tapDataRead (who : Who) (i : Nat)
  /-- DLY_UNDERRUN (R140). The delay line cannot deliver a reference sample in time, so adaptation holds and the cold cap applies. -/
  | dlyUnderrun (i : Nat)
  /-- PROBE_PUBLISH (R137). Every 2 ms the probe publishes LG, MARGIN and ISO_EST over the preceding 16 ms. -/
  | probePublish (m : Nat) (paths : List (Nat × Nat × Nat × Nat)) (gsum : Int) (n : Nat)
  /-- LOOP_POOL_CLOSE (R153). At the last Tc of a tick the pool closes and selection, ceilings and slew form the next command. -/
  | loopPoolClose
  /-- LOOP_DEADLINE (R164). MISS_RUN reaches N_MISS, and the PBD enters LULL with CONTAINED LOOP_DEADLINE. -/
  | loopDeadline (m : Nat)
  /-- PLAUSIBILITY (R166). SUPV_RUN reaches 8, and the PBD enters LULL with CONTAINED PLAUSIBILITY. -/
  | plausibility (m : Nat)
  /-- LULL_DL_CLEAR (R167). CLEAN reaches 64, and the deadline LULL cause clears. -/
  | lullDlClear (m : Nat)
  /-- CLR_PLAUS (R167). A write of CLR_PLAUS clears the plausibility LULL cause, or is refused while SUPV_RUN > 0. -/
  | clrPlaus (who : Who) (m : Nat)
  /-- RAMP_START (R154). A write of LOOP_RAMP.START starts a ramp ceiling from cold gain, for system privilege only. -/
  | rampStart (who : Who) (m : Nat)
  /-- RAMP_STOP (R154). A write of LOOP_RAMP.STOP ends the ramp, for system privilege only. -/
  | rampStop (who : Who) (m : Nat)
  /-- CLIP_BACKOFF_START (R156). A fourth consecutive clipped tick lowers the ALC setpoint by 6 dB. -/
  | clipBackoffStart (m : Nat)
  /-- CLIP_BACKOFF_END (R156). 120 consecutive clean ticks end the clip back-off. -/
  | clipBackoffEnd (m : Nat)
  /-- TUNE_REQ (R161). A write of LOOP_CTRL.TUNE_REQ requests a relay auto-tune from the next tick boundary. -/
  | tuneReq (who : Who) (m : Nat) (l : Nat) (on : Bool)
  /-- AUTOTUNE_DONE (R161). Four consistent relay cycles complete, and KU and TU are reported. -/
  | autotuneDone (m : Nat) (l : Nat)
  /-- AUTOTUNE_ABORT (R161). An auto-tune aborts on override, on timeout after TUNE_MAX cycles, on a kiln stop or on a cancel. -/
  | autotuneAbort (m : Nat) (l : Nat)
  /-- LOOP_REG_WRITE (R157). A write of a loop or PBD loop register is checked for privilege and takes effect at the next tick boundary. -/
  | loopRegWrite (who : Who) (m : Nat) (off : Nat) (h : Half) (v : Word)
  /-- LUT_WRITE (R157). A write of LE_LUT_DATA sets a LUT entry from the next tick boundary, and may autoincrement. -/
  | lutWrite (who : Who) (h : Half) (v : Word)
  /-- LE_PEAK_CLR (R170). A write of LE_PEAK.CLR clears PEAK. -/
  | lePeakClr (who : Who)
  /-- MC_OUTPUT (R174). A chain output instant produces the RMS, peak and envelope readings and their validity.
`i`, `q`: the codes of the slots of a PBD for each sample of the output period; `conv`: 40 converter codes for each 4 Tc of it. -/
  | mcOutput (c : Nat) (i q conv : List (List Int))
  /-- MSYNC_N_EDGE (R184). A falling edge on MSYNC_N triggers a decimator reset 64 Tc later. -/
  | msyncNEdge
  /-- MC_SYNC (R184). A write of MC_CTRL.SYNC triggers a decimator reset. -/
  | mcSync (who : Who) (c : Nat)
  /-- DECIM_RESET_APPLY (R184). A decimator reset clears the state of every running chain that is not exempt. -/
  | decimResetApply
  /-- PEAK_CLR (R175). A write of MC_CTRL.PEAK_CLR sets MC_PEAK_HOLD to 0x8000. -/
  | peakClr (who : Who) (c : Nat)
  /-- MC_CONFIG_WRITE (R182). A write of MC_CFG, MC_TAP or the coefficients applies while the chain is stopped, and is otherwise ignored with COEF_BUSY. -/
  | mcConfigWrite (who : Who) (c : Nat) (off : Nat) (h : Half) (v : Word)
  /-- OSC_BLOCK (R191). An oscillation-detector block ends and is evaluated, and a trip squalls the PBD with OSC.
`slots`: the powers of the 64 sub-bands for each transmit slot; `delay`: Tc from the block's end to the decision, at most 1,024. -/
  | oscBlock (m : Nat) (slots : List (List Nat)) (delay : Nat)
  /-- SQUALL_SEQ_STEP (R188). A timed step of the squall sequence is reached: silence or the switch strobes. -/
  | squallSeqStep (m : Nat)
  /-- EMW_BLOCK (R195). An emission-watch block ends, and N blocks over LIMIT squall with EMISSION.
`bins`: the mean powers by centre frequency in steps of 4.8 MHz from 0; `full`: the power that is 0 dBFS. -/
  | emwBlock (o : Nat) (bins : List Nat) (full : Nat)
  /-- OVERLOAD_TRIP (R196). OVL_RUN reaches 4 + OVL_TICKS, and the PBD is squalled with OVERLOAD. -/
  | overloadTrip (m : Nat)
  /-- SQUALL (R187). A write of PROT_CTRL.SQUALL sets the squall cause HOST. -/
  | squall (who : Who) (m : Nat)
  /-- UNSQUALL (R187). A write of PROT_CTRL.UNSQUALL clears the causes HOST and CUE, for system privilege only. -/
  | unsquall (who : Who) (m : Nat)
  /-- RESTART (R198). A write of PROT_CTRL.RESTART requests a restart attempt, or is refused with RESTART_EARLY. -/
  | restart (who : Who) (m : Nat)
  /-- FL_REDO (R204). A write of PROT_CTRL.FL_REDO repeats first light. -/
  | flRedo (who : Who) (m : Nat)
  /-- MODULE_SQUALL (R190). A write of ROOT_SQUALL.SQUALL sets the module cause HOST. -/
  | moduleSquall (who : Who)
  /-- MODULE_UNSQUALL (R190). A write of ROOT_SQUALL.UNSQUALL clears the module causes HOST and CUE. -/
  | moduleUnsquall (who : Who)
  /-- MUTE_N_LOW (R197). MUTE_N is held low for at least 4 Tc, and the module cause MUTE_N is set. -/
  | muteNLow
  /-- MUTE_N_RELEASE (R197). MUTE_N has been high for 16,384 Tc, and the cause clears at the next tick boundary. -/
  | muteNRelease
  /-- RESTART_DUE (R198). DUE is reached with AUTO_RST = 1, and the runtime issues RESTART as a cue. -/
  | restartDue (m : Nat)
  /-- RESTART_ATTEMPT (R199). A restart attempt takes effect at a tick boundary, clearing the causes and starting from cold gain. -/
  | restartAttempt (m : Nat)
  /-- PROBATION_END (R200). Restart probation completes without a cause, and FAILS is set to zero. -/
  | probationEnd (m : Nat)
  /-- NRG_PL_STALE (R202). No fresh path loss is available for 200 ms, STALE is set and the path loss falls toward PL_MIN. -/
  | nrgPlStale (m : Nat)
  /-- FL_MEASURE_TIMEOUT (R204). MEASURE has run 500 ms without enough publications, and first light fails with FL_TIMEOUT. -/
  | flMeasureTimeout (m : Nat)
  /-- FL_TRAIN_END (R204). Every lane is in TRACK or TRAIN_MAX elapses, and first light goes to RAMP. -/
  | flTrainEnd (m : Nat)
  /-- ADD (R222). The instruction ADD adds two registers modulo 2^64. -/
  | add (n : Nat) (pr : Nat) (wd : Nat) (wa : Nat) (wb : Nat)
  /-- SUB (R222). The instruction SUB subtracts two registers modulo 2^64. -/
  | sub (n : Nat) (pr : Nat) (wd : Nat) (wa : Nat) (wb : Nat)
  /-- AND (R222). The instruction AND forms the bitwise AND of two registers. -/
  | and (n : Nat) (pr : Nat) (wd : Nat) (wa : Nat) (wb : Nat)
  /-- OR (R222). The instruction OR forms the bitwise OR of two registers. -/
  | or (n : Nat) (pr : Nat) (wd : Nat) (wa : Nat) (wb : Nat)
  /-- XOR (R222). The instruction XOR forms the bitwise XOR of two registers. -/
  | xor (n : Nat) (pr : Nat) (wd : Nat) (wa : Nat) (wb : Nat)
  /-- ANDN (R222). The instruction ANDN forms wa & ~wb. -/
  | andn (n : Nat) (pr : Nat) (wd : Nat) (wa : Nat) (wb : Nat)
  /-- SHL (R222). The instruction SHL shifts left by a register amount. -/
  | shl (n : Nat) (pr : Nat) (wd : Nat) (wa : Nat) (wb : Nat)
  /-- SHR (R222). The instruction SHR shifts right logically by a register amount. -/
  | shr (n : Nat) (pr : Nat) (wd : Nat) (wa : Nat) (wb : Nat)
  /-- SAR (R222). The instruction SAR shifts right arithmetically by a register amount. -/
  | sar (n : Nat) (pr : Nat) (wd : Nat) (wa : Nat) (wb : Nat)
  /-- MUL (R222). The instruction MUL gives the low 64 bits of the product. -/
  | mul (n : Nat) (pr : Nat) (wd : Nat) (wa : Nat) (wb : Nat)
  /-- MULH (R222). The instruction MULH gives the high 64 bits of the signed product. -/
  | mulh (n : Nat) (pr : Nat) (wd : Nat) (wa : Nat) (wb : Nat)
  /-- MIN (R222). The instruction MIN gives the signed minimum. -/
  | minS (n : Nat) (pr : Nat) (wd : Nat) (wa : Nat) (wb : Nat)
  /-- MAX (R222). The instruction MAX gives the signed maximum. -/
  | maxS (n : Nat) (pr : Nat) (wd : Nat) (wa : Nat) (wb : Nat)
  /-- MINU (R222). The instruction MINU gives the unsigned minimum. -/
  | minu (n : Nat) (pr : Nat) (wd : Nat) (wa : Nat) (wb : Nat)
  /-- MAXU (R222). The instruction MAXU gives the unsigned maximum. -/
  | maxu (n : Nat) (pr : Nat) (wd : Nat) (wa : Nat) (wb : Nat)
  /-- CLZ (R222). The instruction CLZ counts the leading zeros of wa. -/
  | clz (n : Nat) (pr : Nat) (wd : Nat) (wa : Nat) (wb : Nat)
  /-- POPC (R222). The instruction POPC counts the set bits of wa. -/
  | popc (n : Nat) (pr : Nat) (wd : Nat) (wa : Nat) (wb : Nat)
  /-- EXTR (R222). The instruction EXTR extracts a bit field. -/
  | extr (n : Nat) (pr : Nat) (wd : Nat) (wa : Nat) (wb : Nat)
  /-- MOVQ (R222). The instruction MOVQ copies all 128 bits. -/
  | movq (n : Nat) (pr : Nat) (wd : Nat) (wa : Nat) (wb : Nat)
  /-- AIRADD (R222). The instruction AIRADD adds signed Tc to an air stamp with carries, and raises ILLEGAL on a malformed stamp. -/
  | airadd (n : Nat) (pr : Nat) (wd : Nat) (wa : Nat) (wb : Nat)
  /-- AIRDIF (R222). The instruction AIRDIF gives the signed Tc difference of two air stamps. -/
  | airdif (n : Nat) (pr : Nat) (wd : Nat) (wa : Nat) (wb : Nat)
  /-- HI (R222). The instruction HI moves the upper 64 bits down. -/
  | hiQ (n : Nat) (pr : Nat) (wd : Nat) (wa : Nat) (wb : Nat)
  /-- JOIN (R222). The instruction JOIN joins two 64-bit values into 128 bits. -/
  | join (n : Nat) (pr : Nat) (wd : Nat) (wa : Nat) (wb : Nat)
  /-- CMP_EQ (R222). The instruction CMP.EQ sets a predicate on equality. -/
  | cmpEq (n : Nat) (pr : Nat) (wd : Nat) (wa : Nat) (wb : Nat)
  /-- CMP_NE (R222). The instruction CMP.NE sets a predicate on inequality. -/
  | cmpNe (n : Nat) (pr : Nat) (wd : Nat) (wa : Nat) (wb : Nat)
  /-- CMP_LT (R222). The instruction CMP.LT sets a predicate on signed less-than. -/
  | cmpLt (n : Nat) (pr : Nat) (wd : Nat) (wa : Nat) (wb : Nat)
  /-- CMP_LE (R222). The instruction CMP.LE sets a predicate on signed less-or-equal. -/
  | cmpLe (n : Nat) (pr : Nat) (wd : Nat) (wa : Nat) (wb : Nat)
  /-- CMP_LTU (R222). The instruction CMP.LTU sets a predicate on unsigned less-than. -/
  | cmpLtu (n : Nat) (pr : Nat) (wd : Nat) (wa : Nat) (wb : Nat)
  /-- CMP_LEU (R222). The instruction CMP.LEU sets a predicate on unsigned less-or-equal. -/
  | cmpLeu (n : Nat) (pr : Nat) (wd : Nat) (wa : Nat) (wb : Nat)
  /-- PAND (R222). The instruction PAND forms the AND of two predicates. -/
  | pand (n : Nat) (pr : Nat) (wd : Nat) (wa : Nat) (wb : Nat)
  /-- POR (R222). The instruction POR forms the OR of two predicates. -/
  | por (n : Nat) (pr : Nat) (wd : Nat) (wa : Nat) (wb : Nat)
  /-- PXOR (R222). The instruction PXOR forms the XOR of two predicates. -/
  | pxor (n : Nat) (pr : Nat) (wd : Nat) (wa : Nat) (wb : Nat)
  /-- PANDN (R222). The instruction PANDN forms pa AND NOT pb. -/
  | pandn (n : Nat) (pr : Nat) (wd : Nat) (wa : Nat) (wb : Nat)
  /-- MFS (R211). The instruction MFS reads a special register. -/
  | mfs (n : Nat) (pr : Nat) (wd : Nat) (wa : Nat) (wb : Nat) (k : Nat)
  /-- MTS (R211). The instruction MTS writes a special register, and checks ring ownership for a cursor. -/
  | mts (n : Nat) (pr : Nat) (wd : Nat) (wa : Nat) (wb : Nat) (k : Nat)
  /-- ADDI (R223). The instruction ADDI adds a sign-extended immediate. -/
  | addi (n : Nat) (pr : Nat) (wd : Nat) (wa : Nat) (imm : Nat)
  /-- ANDI (R223). The instruction ANDI ANDs with a sign-extended immediate. -/
  | andi (n : Nat) (pr : Nat) (wd : Nat) (wa : Nat) (imm : Nat)
  /-- ORI (R223). The instruction ORI ORs with a zero-extended immediate. -/
  | ori (n : Nat) (pr : Nat) (wd : Nat) (wa : Nat) (imm : Nat)
  /-- XORI (R223). The instruction XORI XORs with a zero-extended immediate. -/
  | xori (n : Nat) (pr : Nat) (wd : Nat) (wa : Nat) (imm : Nat)
  /-- SHLI (R223). The instruction SHLI shifts left by an immediate. -/
  | shli (n : Nat) (pr : Nat) (wd : Nat) (wa : Nat) (imm : Nat)
  /-- SHRI (R223). The instruction SHRI shifts right logically by an immediate. -/
  | shri (n : Nat) (pr : Nat) (wd : Nat) (wa : Nat) (imm : Nat)
  /-- SARI (R223). The instruction SARI shifts right arithmetically by an immediate. -/
  | sari (n : Nat) (pr : Nat) (wd : Nat) (wa : Nat) (imm : Nat)
  /-- CATI (R223). The instruction CATI shifts left by 13 and inserts an immediate. -/
  | cati (n : Nat) (pr : Nat) (wd : Nat) (wa : Nat) (imm : Nat)
  /-- CMPI (R223). The instruction CMPI compares with an immediate into a predicate. -/
  | cmpi (n : Nat) (pr : Nat) (wd : Nat) (wa : Nat) (imm : Nat)
  /-- LADD (R224). The lane instruction LADD adds modulo the lane width. -/
  | ladd (n : Nat) (pr : Nat) (wd : Nat) (wa : Nat) (wb : Nat) (view : Nat)
  /-- LSUB (R224). The lane instruction LSUB subtracts modulo the lane width. -/
  | lsub (n : Nat) (pr : Nat) (wd : Nat) (wa : Nat) (wb : Nat) (view : Nat)
  /-- LADDS (R224). The lane instruction LADDS adds with saturation. -/
  | ladds (n : Nat) (pr : Nat) (wd : Nat) (wa : Nat) (wb : Nat) (view : Nat)
  /-- LSUBS (R224). The lane instruction LSUBS subtracts with saturation. -/
  | lsubs (n : Nat) (pr : Nat) (wd : Nat) (wa : Nat) (wb : Nat) (view : Nat)
  /-- LMUL (R224). The lane instruction LMUL gives the low bits of the product. -/
  | lmul (n : Nat) (pr : Nat) (wd : Nat) (wa : Nat) (wb : Nat) (view : Nat)
  /-- LMULQ (R224). The lane instruction LMULQ gives a rounded fractional product with saturation. -/
  | lmulq (n : Nat) (pr : Nat) (wd : Nat) (wa : Nat) (wb : Nat) (view : Nat)
  /-- LMIN (R224). The lane instruction LMIN gives the signed minimum per lane. -/
  | lmin (n : Nat) (pr : Nat) (wd : Nat) (wa : Nat) (wb : Nat) (view : Nat)
  /-- LMAX (R224). The lane instruction LMAX gives the signed maximum per lane. -/
  | lmax (n : Nat) (pr : Nat) (wd : Nat) (wa : Nat) (wb : Nat) (view : Nat)
  /-- LSHL (R224). The lane instruction LSHL shifts each lane left. -/
  | lshl (n : Nat) (pr : Nat) (wd : Nat) (wa : Nat) (wb : Nat) (view : Nat)
  /-- LSHR (R224). The lane instruction LSHR shifts each lane right logically. -/
  | lshr (n : Nat) (pr : Nat) (wd : Nat) (wa : Nat) (wb : Nat) (view : Nat)
  /-- LSAR (R224). The lane instruction LSAR shifts each lane right arithmetically. -/
  | lsar (n : Nat) (pr : Nat) (wd : Nat) (wa : Nat) (wb : Nat) (view : Nat)
  /-- LBCST (R224). The lane instruction LBCST broadcasts lane 0. -/
  | lbcst (n : Nat) (pr : Nat) (wd : Nat) (wa : Nat) (wb : Nat) (view : Nat)
  /-- LABS (R224). The lane instruction LABS gives the absolute value with saturation. -/
  | labs (n : Nat) (pr : Nat) (wd : Nat) (wa : Nat) (wb : Nat) (view : Nat)
  /-- CMUL (R224). The complex instruction CMUL multiplies per lane. -/
  | cmul (n : Nat) (pr : Nat) (wd : Nat) (wa : Nat) (wb : Nat)
  /-- CMAC (R224). The complex instruction CMAC multiplies and accumulates per lane. -/
  | cmac (n : Nat) (pr : Nat) (wd : Nat) (wa : Nat) (wb : Nat)
  /-- CMULJ (R224). The complex instruction CMULJ multiplies by the conjugate. -/
  | cmulj (n : Nat) (pr : Nat) (wd : Nat) (wa : Nat) (wb : Nat)
  /-- CMACJ (R224). The complex instruction CMACJ accumulates the product by the conjugate. -/
  | cmacj (n : Nat) (pr : Nat) (wd : Nat) (wa : Nat) (wb : Nat)
  /-- CSCAL (R224). The complex instruction CSCAL scales every lane by lane 0 of wb. -/
  | cscal (n : Nat) (pr : Nat) (wd : Nat) (wa : Nat) (wb : Nat)
  /-- CPOW (R224). The complex instruction CPOW gives the exact power per lane. -/
  | cpow (n : Nat) (pr : Nat) (wd : Nat) (wa : Nat) (wb : Nat)
  /-- CSUM (R224). The complex instruction CSUM sums the lanes with saturation. -/
  | csum (n : Nat) (pr : Nat) (wd : Nat) (wa : Nat) (wb : Nat)
  /-- BFPACK (R225). The instruction BFPACK packs 8 complex samples into a BF128 word with its CRC. -/
  | bfpack (n : Nat) (pr : Nat) (wd : Nat) (wa : Nat) (wb : Nat)
  /-- BFUNLO (R225). The instruction BFUNLO unpacks samples 0 to 3 of a BF128 word. -/
  | bfunlo (n : Nat) (pr : Nat) (wd : Nat) (wa : Nat) (wb : Nat)
  /-- BFUNHI (R225). The instruction BFUNHI unpacks samples 4 to 7 of a BF128 word. -/
  | bfunhi (n : Nat) (pr : Nat) (wd : Nat) (wa : Nat) (wb : Nat)
  /-- BFNORM (R225). The instruction BFNORM repacks a BF128 word with the exponent rule. -/
  | bfnorm (n : Nat) (pr : Nat) (wd : Nat) (wa : Nat) (wb : Nat)
  /-- BFCHK (R225). The instruction BFCHK sets a predicate on the CRC and the exponent validity. -/
  | bfchk (n : Nat) (pr : Nat) (wd : Nat) (wa : Nat) (wb : Nat)
  /-- BFFLAG (R225). The instruction BFFLAG replaces the flags and recomputes the CRC. -/
  | bfflag (n : Nat) (pr : Nat) (wd : Nat) (wa : Nat) (wb : Nat)
  /-- LD (R226). The instruction LD loads 128 bits under the region rules. -/
  | ld (n : Nat) (pr : Nat) (wd : Nat) (wa : Nat) (imm : Nat)
  /-- ST (R226). The instruction ST stores 128 bits under the region rules. -/
  | st (n : Nat) (pr : Nat) (wd : Nat) (wa : Nat) (imm : Nat)
  /-- LDS (R226). The instruction LDS loads 64 bits. -/
  | lds (n : Nat) (pr : Nat) (wd : Nat) (wa : Nat) (imm : Nat)
  /-- STS (R226). The instruction STS stores 64 bits. -/
  | sts (n : Nat) (pr : Nat) (wd : Nat) (wa : Nat) (imm : Nat)
  /-- DMAGO (R227). The instruction DMAGO starts a DMA transfer from a descriptor and returns a tag, or blocks at 16 outstanding. -/
  | dmago (n : Nat) (pr : Nat) (wd : Nat) (wa : Nat) (wb : Nat)
  /-- DMAGO_WAKE (R227). A DMAGO blocked at 16 outstanding transfers issues when one ends. -/
  | dmagoWake (n : Nat)
  /-- DMA_DONE (R227). A DMA transfer ends with success, a storage error or a refused model-slot write. -/
  | dmaDone (n : Nat) (tag : Nat) (data : Nat) (bad : Bool)
  /-- DMAWAIT (R227). The instruction DMAWAIT blocks until the tagged transfer ends. -/
  | dmawait (n : Nat) (pr : Nat) (wd : Nat) (wa : Nat) (wb : Nat)
  /-- DMAWAIT_WAKE (R227). A blocked DMAWAIT returns the result when its transfer ends. -/
  | dmawaitWake (n : Nat)
  /-- DMAPOLL (R227). The instruction DMAPOLL sets a predicate if the tagged transfer has ended. -/
  | dmapoll (n : Nat) (pr : Nat) (wd : Nat) (wa : Nat) (wb : Nat)
  /-- UGET (R228). The instruction UGET starts an atomic 64-bit read of a unit register under the UID mask. -/
  | uget (n : Nat) (pr : Nat) (wd : Nat) (wa : Nat) (wb : Nat)
  /-- UGET_DONE (R228). A UGET's read data returns from the unit after its latency. -/
  | ugetDone (n : Nat)
  /-- UPUT (R228). The instruction UPUT posts a 64-bit unit register write, or blocks when the buffer is full. -/
  | uput (n : Nat) (pr : Nat) (wd : Nat) (wa : Nat) (wb : Nat)
  /-- UPUT_WAKE (R228). A UPUT blocked on a full buffer issues when an entry frees. -/
  | uputWake (n : Nat)
  /-- UPUT_ARRIVE (R228). A posted UPUT reaches its unit and is applied as a class 2 or 3 write. -/
  | uputArrive (n : Nat)
  /-- RPOP_B (R229). The instruction RPOP.b pops a CMD ring entry, blocking while the ring is empty. -/
  | rpopB (n : Nat) (pr : Nat) (wd : Nat) (wa : Nat) (wb : Nat) (cur : Nat)
  /-- RPOP_N (R229). The instruction RPOP.n pops a CMD ring entry, or sets EMPTY. -/
  | rpopN (n : Nat) (pr : Nat) (wd : Nat) (wa : Nat) (wb : Nat) (cur : Nat)
  /-- RPOP_WAKE (R229). A pending RPOP completes when its entry's data arrives or the ring becomes non-empty. -/
  | rpopWake (n : Nat) (host : BitVec 512) (bad : Bool)
  /-- RPUSH_B (R229). The instruction RPUSH.b pushes an entry, blocking while the ring is full. -/
  | rpushB (n : Nat) (pr : Nat) (wd : Nat) (wa : Nat) (wb : Nat) (cur : Nat)
  /-- RPUSH_N (R229). The instruction RPUSH.n pushes an entry, or sets FULL. -/
  | rpushN (n : Nat) (pr : Nat) (wd : Nat) (wa : Nat) (wb : Nat) (cur : Nat)
  /-- RPUSH_WAKE (R229). A blocked RPUSH.b completes when the ring has room. -/
  | rpushWake (n : Nat)
  /-- BR (R230). The instruction BR branches if its predicate is true. -/
  | br (n : Nat) (pr : Nat) (off : Nat)
  /-- CALL (R230). The instruction CALL branches and writes the return address to w31. -/
  | call (n : Nat) (pr : Nat) (off : Nat)
  /-- JR (R230). The instruction JR jumps to a register address. -/
  | jr (n : Nat) (pr : Nat) (wd : Nat) (wa : Nat) (wb : Nat)
  /-- JRL (R230). The instruction JRL jumps to a register address and links through w31. -/
  | jrl (n : Nat) (pr : Nat) (wd : Nat) (wa : Nat) (wb : Nat)
  /-- TRAP (R231). The instruction TRAP raises the TRAP exception. -/
  | trap (n : Nat) (pr : Nat) (wd : Nat) (wa : Nat) (wb : Nat)
  /-- SYSCALL (R231). The instruction SYSCALL raises the SYSCALL exception. -/
  | syscall (n : Nat) (pr : Nat) (wd : Nat) (wa : Nat) (wb : Nat)
  /-- ERET (R231). The instruction ERET returns from an exception to epc with the previous privilege. -/
  | eret (n : Nat) (pr : Nat) (wd : Nat) (wa : Nat) (wb : Nat)
  /-- FENCE (R231). The instruction FENCE blocks until every earlier write, store, push, DMA and arm has taken effect. -/
  | fenceZ (n : Nat) (pr : Nat) (wd : Nat) (wa : Nat) (wb : Nat)
  /-- FENCE_WAKE (R231). A blocked FENCE completes when all earlier operations have taken effect. -/
  | fenceWake (n : Nat)
  /-- KICK (R231). The instruction KICK restarts the watchdog. -/
  | kick (n : Nat) (pr : Nat) (wd : Nat) (wa : Nat) (wb : Nat)
  /-- HALT (R231). The instruction HALT stops the engine, and its unit becomes READY. -/
  | halt (n : Nat) (pr : Nat) (wd : Nat) (wa : Nat) (wb : Nat)
  /-- TRACE (R231). The instruction TRACE writes a tracer entry with a tag. -/
  | trace (n : Nat) (pr : Nat) (wd : Nat) (wa : Nat) (imm : Nat)
  /-- WAITAT (R232). The instruction WAITAT blocks until an air stamp, or returns its lateness at once. -/
  | waitat (n : Nat) (pr : Nat) (wd : Nat) (wa : Nat) (wb : Nat)
  /-- WAITAT_WAKE (R232). A blocked WAITAT resumes at its stamp, or late after a forward time step. -/
  | waitatWake (n : Nat)
  /-- ARM (R233). The instruction ARM allocates a context and arms a cue image, blocking while no context is free. -/
  | arm (n : Nat) (pr : Nat) (wd : Nat) (wa : Nat) (wb : Nat)
  /-- ARM_WAKE (R233). A blocked ARM, ARMP, FIRE or SWAPMODEL completes when a context frees. -/
  | armWake (n : Nat)
  /-- ARMN (R233). The instruction ARMN arms a cue, or returns all ones and sets FULL. -/
  | armn (n : Nat) (pr : Nat) (wd : Nat) (wa : Nat) (wb : Nat)
  /-- ARMP (R233). The instruction ARMP arms a cue with its stamp and first argument replaced. -/
  | armp (n : Nat) (pr : Nat) (wd : Nat) (wa : Nat) (wb : Nat)
  /-- FIRE (R233). The instruction FIRE arms a cue due at once. -/
  | fire (n : Nat) (pr : Nat) (wd : Nat) (wa : Nat) (wb : Nat)
  /-- SWAPMODEL (R233). The instruction SWAPMODEL builds and arms a class 1 SWAPMODEL cue. -/
  | swapmodel (n : Nat) (pr : Nat) (wd : Nat) (wa : Nat) (wb : Nat)
  /-- DISARM (R233). The instruction DISARM frees an owned, unstaged context, or reports it staged or not owned. -/
  | disarm (n : Nat) (pr : Nat) (wd : Nat) (wa : Nat) (wb : Nat)
  /-- ARMC (R233). The instruction ARMC arms a reserved context that system code has written. -/
  | armc (n : Nat) (pr : Nat) (wd : Nat) (wa : Nat) (wb : Nat)
  /-- WATCHDOG_EXPIRY (R236). The engine watchdog reaches LIMIT × 1,024 cycles, and WATCHDOG is raised. -/
  | watchdogExpiry (n : Nat)
  /-- HOST_REQ_TAKE (R237). A pending host START or STOP is taken as HOST_REQ at a user-code boundary, or as REQ at a runtime scheduling point. -/
  | hostReqTake (n : Nat)
  /-- USER_START (R237). A write of CE_USER_CTRL.START requests a user program start, refused on the tracker engine. -/
  | userStart (who : Who) (n : Nat)
  /-- USER_STOP (R237). A write of CE_USER_CTRL.STOP requests a user program stop. -/
  | userStop (who : Who) (n : Nat)
  /-- IMEM_WRITE (R237). A write of CE_IMEM_DATA loads a user instruction word, or is ignored with LOAD_BUSY, and advances ADDR. -/
  | imemWrite (who : Who) (n : Nat) (h : Half) (v : Word)
  /-- IMEM_READ (R239). A read of CE_IMEM_DATA returns an instruction word and advances ADDR. -/
  | imemRead (who : Who) (n : Nat)
  /-- DMEM_WRITE (R237). A write of CE_DMEM_DATA loads a user data word, or is ignored with LOAD_BUSY, and advances ADDR. -/
  | dmemWrite (who : Who) (n : Nat) (h : Half) (v : Word)
  /-- DMEM_READ (R239). A read of CE_DMEM_DATA returns a data word and advances ADDR. -/
  | dmemRead (who : Who) (n : Nat) (h : Half)
  /-- CUE_RING_POP (R244). The ring engine pops a CUE ring entry and arms it, or skips it as refused. -/
  | cueRingPop (host : BitVec 512) (bad : Bool)
  /-- CUE_STAGE (R247). The dispatcher stages one cue per Tc from E − 8,192 into its unit's shadow. -/
  | cueStage
  /-- CUE_SHADOW_ACK (R247). A staging shadow write is acknowledged by its unit, and the cue becomes STAGED. -/
  | cueShadowAck (x : Nat)
  /-- CUE_WAIT (R251). An armed cue reaches E without a slot and enters WAITING. -/
  | cueWait (x : Nat)
  /-- CUE_ISSUE (R248). A WAITING cue takes a freed slot and is written late, or expires beyond its tolerance. -/
  | cueIssue
  /-- CUE_EFFECT (R247). A staged action takes effect at its unit at the exact Tc. -/
  | cueEffect (x : Nat)
  /-- CUE_RETIRE (R249). A DONE context posts its notification and is re-armed by its repeat rule, or freed. -/
  | cueRetire (x : Nat)
  /-- CUE_MARK (R245). The cue action MARK has no effect and marks its stamp. -/
  | cueMark (x : Nat)
  /-- CUE_WRITE (R245). The cue action WRITE makes a masked 64-bit register write. -/
  | cueWrite (x : Nat)
  /-- CUE_ENABLE (R245). The cue action ENABLE sets UNIT_CTRL.ENABLE. -/
  | cueEnable (x : Nat)
  /-- CUE_POWER (R245). The cue action POWER sets UNIT_CTRL.POWER_REQ. -/
  | cuePower (x : Nat)
  /-- CUE_FENCE (R245). The cue action FENCE fences the target. -/
  | cueFence (x : Nat)
  /-- CUE_DIRECTION (R72). The cue action DIRECTION switches a TDD passband's direction, with each part executing late or expiring. -/
  | cueDirection (x : Nat)
  /-- CUE_BEAM (R63). The cue action BEAM changes PBD_BEAM at the stamp. -/
  | cueBeam (x : Nat)
  /-- CUE_FBANK (R61). The cue action FBANK switches the filter bank at the stamp. -/
  | cueFbank (x : Nat)
  /-- CUE_RETUNE (R75). The cue action RETUNE starts a retune with T0 at the stamp, or holds it. -/
  | cueRetune (x : Nat)
  /-- CUE_CAP (R245). The cue action CAP sets the L4 cap and enables L4. -/
  | cueCap (x : Nat)
  /-- CUE_LULL (R245). The cue action LULL lowers the L4 cap to the lull level. -/
  | cueLull (x : Nat)
  /-- CUE_SQUALL (R187). The cue action SQUALL sets the squall cause CUE. -/
  | cueSquall (x : Nat)
  /-- CUE_UNSQUALL (R245). The cue action UNSQUALL clears the causes HOST and CUE, for system privilege only. -/
  | cueUnsquall (x : Nat)
  /-- CUE_RESTART (R245). The cue action RESTART requests a restart attempt. -/
  | cueRestart (x : Nat)
  /-- CUE_SWAPMODEL (R128). The cue action SWAPMODEL swaps the model at a lane or at the lanes of a PBD. -/
  | cueSwapmodel (x : Nat)
  /-- CUE_MSYNC (R184). The cue action MSYNC triggers a decimator reset. -/
  | cueMsync (x : Nat)
  /-- CUE_HOP (R95). The cue action HOP starts a synthesiser hop. -/
  | cueHop (x : Nat)
  /-- CUE_STROBE (R101). The cue action STROBE sets a strobe in CUE function high or low. -/
  | cueStrobe (x : Nat)
  /-- CUE_RFFE (R104). The cue action RFFE starts an RFFE sequence. -/
  | cueRffe (x : Nat)
  /-- CUE_MODSQUALL (R190). The cue action MODSQUALL sets the module cause CUE. -/
  | cueModsquall (x : Nat)
  /-- DSP_CANCEL (R243). A write of DSP_CANCEL frees an ARMED context the writer may cancel. -/
  | dspCancel (who : Who) (x : Nat)
  /-- DSP_PEAK_CLR (R262). A write of DSP_PEAK.CLR clears both dispatcher peaks. -/
  | dspPeakClr (who : Who)
  /-- DOORBELL (R258). A doorbell write moves a ring's producer or consumer index, or sets FAULT. -/
  | doorbell (who : Who) (r : Nat) (v : Nat)
  /-- RING_DESCRIPTOR_WRITE (R262). A write of a ring descriptor configures or enables the ring, or is refused with RING_CFG. -/
  | ringDescriptorWrite (who : Who) (off : Nat) (h : Half) (v : Word)
  /-- FH_TRAINING_DONE (R267). Link, FEC alignment and negotiation complete, and the port goes UP. -/
  | fhTrainingDone (q : Nat)
  /-- FH_TRAIN_TIMEOUT (R267). Training has run 1.5 s without link, so it restarts and TRAIN_FAIL counts. -/
  | fhTrainTimeout (q : Nat)
  /-- FH_FEC_LOSS (R267). FEC alignment has been lost for 1 ms, and the port goes DOWN and retrains. -/
  | fhFecLoss (q : Nat)
  /-- FH_LANE_FAIL (R266). A fronthaul lane fails, and it is replaced by the spare or the port is fenced. -/
  | fhLaneFail (g : Nat) (l : Nat)
  /-- FH_IQ_FRAME_RX (R270). An RoE IQ frame is received and its samples are taken, or it is discarded. -/
  | fhIqFrameRx (q : Nat) (h : Nat) (f : Nat) (fmt16 : Bool) (order : BitVec 32) (bad : Bool) (corr : Nat) (unc : Nat)
  /-- FH_UL_SAMPLE_MISSING (R270). An uplink sample is not there when needed, so it is taken as zero with GAP counted. -/
  | fhUlSampleMissing (h : Nat) (f : Nat)
  /-- FH_OTHER_FRAME_RX (R268). A frame of another kind, including PAUSE, is counted and discarded. -/
  | fhOtherFrameRx (q : Nat) (pause : Bool) (corr : Nat) (unc : Nat)
  /-- HELLO_RX (R274). A HELLO from a head is received, and the head is admitted or refused. -/
  | helloRx (q : Nat) (serial : BitVec 64) (mac : BitVec 48) (ports : Nat) (fmt : Nat) (rates : Nat) (dl : Nat) (ul : Nat) (dmax : Nat)
  /-- STATUS_RX (R275). A head STATUS is received with its time offset and loss counts. -/
  | statusRx (h : Nat) (off : BitVec 32) (lost : Nat) (late : Nat) (mute : Bool)
  /-- BEAT_SEND (R271). Every 1 ms a BEAT is sent to each head. -/
  | beatSend
  /-- HD_LOSS_TIMEOUT (R275). No STATUS has arrived for LOSS, and the head is fenced with HD_LOST. -/
  | hdLossTimeout (h : Nat)
  /-- HD_ADMIT_TIMEOUT (R275). The unfence admission of a head has not completed within 2 s, and HD_LOST is raised. -/
  | hdAdmitTimeout (h : Nat)
  /-- HD_REALIGN_REQ (R280). A write of HD_CTRL.REALIGN requests a realign through the retune sequence. -/
  | hdRealignReq (who : Who) (h : Nat)
  /-- HD_GPIO_WRITE (R282). A write of HD_GPIO sends the output levels to the head in a GPIO message. -/
  | hdGpioWrite (who : Who) (hd : Nat) (h : Half) (v : Word)
  /-- HBM_REQUEST (R288). An HBM request is issued, or waits for an outstanding slot by class priority. -/
  | hbmRequest (by_ : HbmBy) (o : Nat) (wr : Bool)
  /-- HBM_COMPLETE (R289). An HBM request completes with its data checked by SECDED. -/
  | hbmComplete (by_ : HbmBy) (o : Nat) (wr : Bool) (ecc : Ecc)
  /-- SOFT_REPAIR_DONE (R292). A soft repair completes, the pseudo-channel is released and a MEM-REPAIR record is written. -/
  | softRepairDone (i : Nat)
  /-- PATROL_SCRUB (R291). The patrol scrubber reads the next sector and writes corrected data back. -/
  | patrolScrub (i : Nat) (err : Nat) (row : Nat)
  /-- PC_PEAK_CLR (R305). A write of PC_STAT.PEAK_CLR clears PEAK. -/
  | pcPeakClr (who : Who) (i : Nat)
  /-- CELLAR_RUN (R299). A write of CEL_CTRL.RUN starts capture at the next tick boundary, or stops it, or is refused. -/
  | cellarRun (who : Who) (run : Bool)
  /-- FREEZE (R300). A write of CEL_CTRL.FREEZE triggers the cellar. -/
  | celFreeze (who : Who)
  /-- REARM (R299). A write of CEL_CTRL.REARM returns a FROZEN cellar to RUN. -/
  | celRearm (who : Who)
  /-- RPL_START (R302). A write of CEL_CTRL.RPL_START requests a replay, or is refused. -/
  | rplStart (who : Who)
  /-- RPL_STOP (R302). A write of CEL_CTRL.RPL_STOP ends a replay. -/
  | rplStop (who : Who)
  /-- CELLAR_INTERVAL_END (R298). A capture interval ends, and its record is queued for writing. -/
  | cellarIntervalEnd (data : Nat)
  /-- CELLAR_RECORD_WRITTEN (R298). A cellar record's writes complete, and its index entry is written. -/
  | cellarRecordWritten
  /-- REPLAY_BEGIN (R302). A requested replay starts at the first suitable tick boundary. -/
  | replayBegin
  /-- REPLAY_FEED (R302). Every 16,384 Tc one cellar record is fed into the target slot. -/
  | replayFeed
  /-- CEL_SDATA_WRITE (R299). A write of CEL_SDATA sets a stream entry, is refused while capturing, and may autoincrement. -/
  | celSdataWrite (who : Who) (h : Half) (v : Word)
  /-- GO (R311). A write of MON_START.GO starts a single conversion, or is rejected as BUSY. -/
  | monGo (who : Who)
  /-- BURST (R316). A write of MON_START.BURST starts a burst of conversions into the buffer. -/
  | monBurst (who : Who)
  /-- MON_TRIG_SEQ (R312). A write of MON_TRIG.SEQ is a regular trigger: started, held or dropped. -/
  | monTrigSeq (who : Who)
  /-- MON_TRIG_INJ (R313). A write of MON_TRIG.INJ is an urgent trigger for the injected sequence. -/
  | monTrigInj (who : Who)
  /-- MON_TRIG_N_FALL (R313). A qualified falling edge on MON_TRIG_N is an urgent trigger. -/
  | monTrigNFall
  /-- MON_PERIODIC_TIMER (R312). The SEQ_PER timer expires with PER_EN = 1 and gives a regular trigger. -/
  | monPeriodicTimer
  /-- MON_SUPV_REQUEST (R314). The loop engine issues a supervision conversion as a one-entry injected sequence, or drops it. -/
  | monSupvRequest (m : Nat)
  /-- MON_CONVERSION_DONE (R310). A monitor conversion completes and its result goes to its path and the comparators. -/
  | monConversionDone (code : Nat) (ovr : Bool) (under : Bool)
  /-- MON_REF_EN_WRITE (R317). A write of MON_REF_EN switches the reference buffer, and EN = 0 clears WARM at once. -/
  | monRefEnWrite (who : Who) (en : Bool)
  /-- MON_REF_WARM (R317). 2 ms after EN is set the reference is warm, and WARM reads 1. -/
  | monRefWarm
  /-- MON_DATA_READ (R311). A read of MON_DATA clears NEW. -/
  | monDataRead (who : Who) (h : Half)
  /-- MON_BUF_READ (R321). A read of MON_BUF_DATA returns burst samples and advances WORD. -/
  | monBufRead (who : Who) (h : Half)
  /-- MON_SLICE_ROTATE (R309). Every 100 ms the monitor slice out for calibration rotates, and failures are judged. -/
  | monSliceRotate (f : Nat)
  /-- MON_DROP_CLR (R321). A write of MON_DROP.CLR clears the three drop counts. -/
  | monDropClr (who : Who)
  /-- TS_SAMPLE (R324). Every 1 ms a sensor takes a raw sample, and kiln updates its readings and levels. -/
  | tsSample (raws : List (BitVec 16))
  /-- KILN_STEP (R329). A throttle step instant is reached: cellar held, tracers stopped, adaptation halved or the thermal ceiling lowered. -/
  | kilnStep
  /-- THERM_CEIL_RISE (R332). Every 100 ms after the fall below THROTTLE, each thermal ceiling rises 1 dB. -/
  | thermCeilRise
  /-- KILN_ORDERLY_STEP (R337). A timed step of the orderly thermal shutdown is reached. -/
  | kilnOrderlyStep
  /-- KILN_RESUME (R339). A write of KILN_CTRL.RESUME leaves THERMAL_OFF, or is refused with RESUME_HOT. -/
  | kilnResume (who : Who)
  /-- DOMAIN_TRANSITION_DONE (R340). A power-domain transition completes, and the next queued request starts. -/
  | domainTransitionDone (d : Nat)
  /-- DOMAIN_TIMEOUT (R343). A transition exceeds four times its time, so it is abandoned and the domain's units are fenced. -/
  | domainTimeout (d : Nat)
  /-- SWITCHED_RAIL_FAIL (R456). A switched rail sags for 2 µs, and the ON domains it feeds take PWR_FAIL. -/
  | switchedRailFail (r : Nat)
  /-- FAULT_RAISE (R347). A fault is raised at a unit with its code and class, and the reaction of the class follows. -/
  | faultRaise (u : Nat) (code : Nat) (path : Nat)
  /-- SAFE_STATE_STEP (R355). A timed step of the safe-state sequence is reached: ramp-down, silence or strobes low. -/
  | safeStateStep
  /-- SAFE_CLR (R357). A write of FLT_CTRL.SAFE_CLR leaves the legacy safe state, or is refused with CLR_REJ. -/
  | safeClr (who : Who)
  /-- FIRST_CLR (R362). A write of FLT_CTRL.FIRST_CLR clears FLT_FIRST, FLT_NEXT and LOST. -/
  | firstClr (who : Who)
  /-- BIST (R351). A write of FLT_CTRL.BIST by the warden starts a TEST collector phase. -/
  | bistRun (who : Who)
  /-- FAULT_PIN_DRIVE_WRITE (R359). A write of FLT_PIN.DRIVE drives or releases FAULT_N, deferred to the end of the pulse. -/
  | faultPinDriveWrite (who : Who) (on : Bool)
  /-- FAULT_PULSE_END (R359). The 10 µs FAULT_N pulse ends, and the pin follows DRIVE. -/
  | faultPulseEnd
  /-- FLT_INJ_GO (R364). A write of FLT_INJ_GO injects the selected fault, or is refused. -/
  | fltInjGo (who : Who)
  /-- REC_EVENT (R374). An event reaches the recorder and is staged, or lost when the buffer is full. -/
  | recEvent
  /-- REC_WRITE_DONE (R377). An MRAM record or increment write completes, and the next staged event starts. -/
  | recWriteDone
  /-- REC_CLEAR (R382). A write of REC_CTRL.CLEAR by the warden erases the main area and the reserve. -/
  | recClear (who : Who)
  /-- REC_CLEAR_DONE (R382). The MRAM erase completes, and the CLEAR record is written first. -/
  | recClearDone
  /-- TALLY_SWEEP (R385). A write of TALLY_CTRL.SWEEP starts a sweep, or holds or drops it. -/
  | tallySweep (who : Who)
  /-- TALLY_PERIODIC (R385). The PERIOD timer starts a sweep. -/
  | tallyPeriodic
  /-- TALLY_CAPTURE (R385). A sweep captures the next counter with its stamp into the buffer. -/
  | tallyCapture
  /-- TALLY_SWEEP_DONE (R385). A sweep ends, and a held start begins. -/
  | tallySweepDone
  /-- TALLY_CLR (R383). A write of TALLY_CTRL.CLR zeroes every counter in one Tc. -/
  | tallyClr (who : Who)
  /-- TALLY_CCFG_WRITE (R384). A write of TALLY_CCFG configures a counter from the next tick boundary, or sets CFG_REJ. -/
  | tallyCcfgWrite (who : Who) (h : Half) (v : Word)
  /-- TALLY_BUF_READ (R391). A read of TALLY_BUF_HI returns the stamp and advances ENTRY. -/
  | tallyBufRead (who : Who) (h : Half)
  /-- TRACER_CLR (R391). A write of TR_CTRL.CLR resets the tracer pointer and flags while stopped. -/
  | tracerClr (who : Who) (t : Nat)
  /-- NONCE_REQ (R397). A write of WDN_SEC_CTRL.NONCE_REQ draws a fresh nonce. -/
  | nonceReq (who : Who)
  /-- TOKEN_WRITE (R396). A write of WDN_TOK_DATA stores token bytes and may autoincrement. -/
  | tokenWrite (who : Who) (h : Half) (v : Word)
  /-- DEBUG_UNLOCK (R400). An applied DEBUG_UNLOCK change opens the debug port until reset. -/
  | debugUnlock (who : Who)
  /-- KEY_VENDOR (R400). An applied KEY_VENDOR change burns the next VENDOR key slot. -/
  | keyVendor (who : Who)
  /-- KEY_OWNER (R400). An applied KEY_OWNER change installs or replaces the OWNER key. -/
  | keyOwner (who : Who)
  /-- KEY_SITE (R400). An applied KEY_SITE change installs or replaces the SITE key. -/
  | keySite (who : Who)
  /-- LIFECYCLE (R394). An applied LIFECYCLE change silences outputs, burns OTP and resets into the new state. -/
  | lifecycle (mode : Nat)
  /-- LEGACY (R400). An applied LEGACY change burns the next LEGACY bit, pending until read. -/
  | legacyBit (who : Who)
  /-- HARD_REPAIR (R400). An applied HARD_REPAIR change authorises the recorded rows for hard repair. -/
  | hardRepair (who : Who)
  /-- OPEN (R409). A write of WDN_STG_CTRL.OPEN opens a staging session, or answers BUSY. -/
  | stgOpen (who : Who)
  /-- STG_DATA_WRITE (R410). A write of WDN_STG_DATA stores 8 image bytes, erasing each sector at its first write. -/
  | stgDataWrite (who : Who) (h : Half) (v : Word)
  /-- CLOSE (R410). A write of WDN_STG_CTRL.CLOSE starts verification of the staged image. -/
  | stgClose (who : Who)
  /-- STG_VERIFY_DONE (R410). Verification ends as VERIFIED, with the components copied, or REJECTED. -/
  | stgVerifyDone
  /-- ABORT (R419). A write of WDN_STG_CTRL.ABORT ends the session and erases the slot header. -/
  | stgAbort (who : Who)
  /-- STG_SESSION_EXPIRY (R409). A session with no write for 60 s expires and the slot header is erased. -/
  | stgSessionExpiry
  /-- ACTIVATE (R411). A write of WDN_STG_CTRL.ACTIVATE starts a coast to the staged image. -/
  | stgActivate (who : Who)
  /-- COAST_PHASE_DONE (R412). A phase of the activation or fallback coast completes, with the import succeeding or falling back. -/
  | coastPhaseDone (ok : Bool)
  /-- COMMIT (R416). A write of WDN_STG_CTRL.COMMIT commits the probationary image and raises the floor. -/
  | stgCommit (who : Who)
  /-- AUTO_COMMIT (R416). 600 s of probation pass without COMMIT, and the warden commits automatically. -/
  | autoCommit
  /-- REVERT (R416). A write of WDN_STG_CTRL.REVERT returns to the previous image through a second coast. -/
  | stgRevert (who : Who)
  /-- SAVE_SET (R402). A write of WDN_STG_CTRL.SAVE_SET makes the runtime write the settings store. -/
  | saveSet (who : Who)
  /-- SAVE_CAL (R402). A write of WDN_STG_CTRL.SAVE_CAL writes the converter calibration store. -/
  | saveCal (who : Who)
  /-- SAVE_DONE (R402). A settings or calibration save completes. -/
  | saveDone
  /-- PERST_N_ASSERT (R428). PERST_N is asserted: the link goes down, host rings are disabled and PCIe state resets. -/
  | perstNAssert
  /-- PERST_N_RELEASE (R438). PERST_N is released, and link training begins. -/
  | perstNRelease (speed : Nat) (width : Nat)
  /-- FLR_VF (R428). A function-level reset of a VF disables its rings, stops its user programs and clears its MSI-X table. -/
  | flrVf (k : Nat)
  /-- FLR_PF (R428). A function-level reset of the PF acts as PERST_N without link loss and disables all VFs. -/
  | flrPf
  /-- HOST_VEC_WRITE (R425). A write of HOST_VEC shares the vectors among functions, or is refused with REJ. -/
  | hostVecWrite (who : Who) (h : Half) (v : Word)
  /-- HOST_ROUTE_WRITE (R426). A write of HOST_ROUTE sets an interrupt route, or is refused with ROUTE_REJ. -/
  | hostRouteWrite (who : Who) (h : Half) (v : Word)
  /-- MSIX_TABLE_WRITE (R426). A write of an MSI-X table entry, with unmasking sending any pending message. -/
  | msixTableWrite (func : Nat) (j : Nat) (d : Nat) (v : BitVec 32)
  /-- HOST_URST (R436). A write of HOST_URST resets one unit's registers, or is refused by state or UID. -/
  | hostUrst (who : Who) (u : Nat)
  /-- HOST_READ_TIMEOUT (R429). A device read of host memory not completed within 50 ms is treated as an uncorrectable storage error. -/
  | hostReadTimeout (n : Nat) (tag : Nat) (data : Nat)
  /-- PCIE_ERR (R429). The endpoint reports an AER error, and CORRECTED PCIE_ERR is raised at the root. -/
  | pcieErr
  /-- MSPI_READ (R431). A management SPI READ frame returns a unit register with status and CRC. -/
  | mspiRead (u : Nat) (off : Nat) (crc : Nat)
  /-- MSPI_WRITE (R431). A management SPI WRITE frame writes a unit register with the access of the PF. -/
  | mspiWrite (u : Nat) (off : Nat) (v : Word) (crc : Nat)
  /-- MSPI_READ_WIN (R431). A management SPI READ_WIN frame reads 8 bytes of the recorder window. -/
  | mspiReadWin (u : Nat) (off : Nat) (crc : Nat)
  /-- MSPI_ID (R431). A management SPI ID frame returns ROOT_PART. -/
  | mspiId (u : Nat) (off : Nat) (crc : Nat)
  /-- POR_N_ASSERT (R435). POR_N is asserted, and TXCs and strobes are forced quiet within 1 µs. -/
  | porNAssert
  /-- RST_N_ASSERT (R435). RST_N is asserted, and TXCs and strobes are forced quiet within 1 µs. -/
  | rstNAssert
  /-- POR_N_RELEASE (R437). POR_N is released, BOOT_MODE is sampled and start-up begins. -/
  | porNRelease (mode : Nat)
  /-- RST_N_RELEASE (R437). RST_N is released, BOOT_MODE is sampled and start-up begins. -/
  | rstNRelease (mode : Nat)
  /-- VDD_AO_POWER_UP (R50). VDD_AO powers up: PWRCYC counts, OPSEC resumes and a POWER-UP record is written. -/
  | vddAoPowerUp
  /-- VDD_AO_REMOVAL (R455). VDD_AO stays below 0.2 V for 10 ms, which clears the fatal latch. -/
  | vddAoRemoval
  /-- AO_RAIL_DROP (R456). An always-on rail sags for 2 µs, and the keel acts as on POR_N. -/
  | aoRailDrop
  /-- STARTUP_PHASE_DONE (R437). A start-up phase completes and the next begins, or start-up halts. -/
  | startupPhaseDone (fails : List (Nat × Nat × Nat)) (va : Nat) (vb : Nat)
  /-- AO_RAIL_RETURN (R456). 1 ms after a sagged always-on rail returns within its limits, the keel ends the reset it forced and start-up begins with LAST_RESET = 1. -/
  | aoRailReturn (mode : Nat)
  /-- HD_STATUS_STALE (R282). No STATUS has arrived from a head for 1 ms, so HD_STAT.STALE is set and its interrupt cause raised. -/
  | hdStatusStale (h : Nat)
  /-- HD_LATENCY_MEASURED (R275). The latency measurement of an admitted or re-admitted head completes, D_DL and D_UL are set, and the page goes to READY. -/
  | hdLatencyMeasured (h : Nat) (tp : Nat)
  /-- APPLY (R399). A write of WDN_SEC_CTRL.APPLY checks both token buffers, consumes the nonce and either carries out the change or refuses it with TOKEN_BAD and a RESULT code. -/
  | secApply (who : Who)
  /-- MSPI_BAD_CMD (R432). A management SPI frame with an undefined CMD is answered with status BAD_CMD, MSPI_ERR is raised and HOST_MSPI.ERRS counts it. -/
  | mspiBadCmd (cmd : Nat)
  deriving DecidableEq, Repr

end Sys2Proof
end

