-- ==== Sys2Proof/Config.lean ====
section
/-! DEFINITION.
What the spec leaves open: free values, each an opaque constant applied to a plain counter of the state or to the
operands it depends on. No proof can see what they are. -/
namespace Sys2Proof.Machine.Config

/-- Delay of the beginning of a muting's ramp, of which the model takes at most 512 Tc (R88, R188). -/
opaque rampDelay : Nat → Nat

/-- Delay until FAULT_N is low, of which the model takes at most 4,096 Tc (R359). -/
opaque pinDelay : Nat → Nat

/-- Instants of the safe-state sequence within the bounds of R355: ramp-down, silence, strobes. -/
opaque safeDelay : Nat → Nat
opaque safeDelay2 : Nat → Nat
opaque safeDelay3 : Nat → Nat

/-- Direction in which a computed value is rounded to its code, where the spec gives the code but not the rounding. -/
opaque roundUp : Nat → Bool

/-- Time of a foreground calibration, of which the model takes at most 20 ms (R90). -/
opaque calTime : Nat → Nat

/-- VCO band, charge-pump trim and loop-filter state that the cold calibration of a self-test finds (R94, R96). -/
opaque syCal : Nat → Nat

/-- What CC_SEQ_TIME reads where a duration does not fit its 16 bits (R113), by the duration. -/
opaque seqTimeWide : Nat → Nat

/-- A tap component whose update leaves Q1.15, as a code of 16 bits (R120, R124). -/
opaque tapOver : Nat → Nat

/-- KU or TU of an auto-tune where the value does not fit its 16 bits (R161, R169). -/
opaque tuneWide : Nat → Nat

/-- Whether a TXC's sum saturated in the tick that ends: the samples are not modelled (R86). -/
opaque sumClip : Nat → Bool

/-- The tuning word on REF_PDM (R35), as a 16-bit code. -/
opaque pdm : Nat → Nat

/-- Cycles from issue to retirement of an instruction (R386). -/
opaque latency : Nat → Nat

/-- Handler address of the warden firmware (R235, R238). -/
opaque wardenVec : BitVec 64

/-- What an arming instruction gives where R244 refuses its cue (R233, R244). -/
opaque armRefused : Nat → BitVec 64

/-- Which of the free tags a DMA transfer takes (R227). -/
opaque dmaTag : Nat → Nat

/-- How many 32-byte pieces a DMA transfer has written when an error ends it (R227). -/
opaque dmaDone : Nat → Nat

/-- DSP_HORIZON while every duty of the runtime is armed without end (R261). -/
opaque horizonEndless : BitVec 64

/-- The fault code of an FH port whose MODE is invalid (R22, R281). -/
opaque fhCfgCode : Nat

/-- Soft and hard repair resources that the stack reports for a pseudo-channel at training (R292, R305). -/
opaque softLeft : Nat → Nat
opaque hardLeft : Nat → Nat

/-- Tc from an orderly thermal stop's self-refresh to every domain OFF, and from an immediate stop to every domain OFF (R337,
R338). -/
opaque killDelay : Nat → Nat

/-- Cycles or events that a tally counter adds where the model does not hold the occupancy or the event that it counts (R383):
of which a threshold counter takes at most the cycles that pass. -/
opaque tallyCycles : Nat → Nat

/-- UNIT_COLLIDE.OFFSET of a collision on the TDD switch state, which no register holds (R253, R255). -/
opaque collOffset : Nat → Nat

/-- Coefficients of the built-in compensation FIRs, by preset, phase and index, in units of 2^-17 (R473), of which the model takes
those that keep the bounds of R473. -/
opaque chainFir : Nat → Nat → Nat → Int

/-- Hash of the key in VENDOR slot 0, which is burned at manufacture (R395). -/
opaque vendorKey : Nat

/-- The nonce that the warden draws (R397), of which the model takes 256 bits. -/
opaque nonce : Nat → Nat

/-- SHA-384 of a list of bytes, as a little-endian number (R395, R404). -/
opaque sha384 : List Nat → Nat

/-- Verification of an ECDSA P-384 signature r, s over a SHA-384 digest: public key, digest, signature (R395). -/
opaque ecdsaOk : List Nat → Nat → List Nat → Bool

/-- Verification of an ML-DSA-65 signature: public key, message, signature (R395). -/
opaque mldsaOk : List Nat → List Nat → List Nat → Bool

/-- Coefficients of channel-filter bank 0 in the loop tables of the firmware image, by PBD and index (R61). -/
opaque filter0 : Nat → Nat → Nat

/-- What the host's memory had given a DMA transfer that PERST_N ended (R227, R428), little-endian. -/
opaque hostData : Nat → Nat

end Sys2Proof.Machine.Config
end

