-- ==== Sys2Proof/Machine/RegMap.lean ====
section
/-! DEFINITION.
The register map of the unit pages: the header of R18 and the kind registers of every chapter's register
tables, one row per field with its bits, its access code (R12), its reset value and the range of R470.
Reserved bits carry no row: they read as zero and ignore writes (R6).
The field names are those of the manual's tables, register name and field name joined. -/
namespace Sys2Proof.Machine

/-- The access codes of R12. -/
inductive Acc where
  | ro | rw | wo | w1c | rwl
  deriving DecidableEq, Repr

/-- The range of values of a field (R470, R10): none; unsigned with CLAMP; signed with CLAMP; quiet clamp (the table
names clamping as its own reaction, so no CLAMP fault); a dB code whose 0x8000 keeps its no-value meaning. -/
inductive Rng where
  | any
  | u (lo hi : Nat)
  | s (lo hi : Int)
  | q (lo hi : Nat)
  | code8000
  deriving DecidableEq, Repr

/-- A field of a register: byte offset in the unit page and bit range. -/
structure Fld where
  off : Nat
  hi : Nat
  lo : Nat
  deriving DecidableEq, Repr

/-- One row of a register table. The reset value may depend on the unit's UID and on the index in a register array. -/
structure Row where
  hi : Nat
  lo : Nat
  acc : Acc
  rst : Nat → Nat → Nat
  rng : Rng

/-- One register, or an array of `n` registers `stride` bytes apart. -/
structure RegDef where
  off : Nat
  n : Nat
  stride : Nat
  rows : List Row

/-- Tap kind of measurement chain `c` at reset (R17): 0 PBD input, 1 PBD output, 2 RXC wideband, 3 ORX. Spares 0. -/
def mcTapKind (c : Nat) : Nat :=
  if c < 256 then c % 2 else if c < 288 then 2 else if c < 296 then 3 else 0

/-- Tap index of measurement chain `c` at reset (R17). -/
def mcTapIndex (c : Nat) : Nat :=
  if c < 256 then c / 2 else if c < 288 then c - 256 else if c < 296 then c - 288 else 0

/-- Default size of HBM region `i` in 64 MiB units (R285): MODEL, RING, DELAY, SCRATCH, CELLAR. -/
def regionDefaultSize (i : Nat) : Nat :=
  if i = 0 then 16 else if i = 1 then 16 else if i = 2 then 32 else if i = 3 then 128 else 1856

/-- Start of HBM region `i` in 64 MiB units with the default sizes (R285). -/
def regionDefaultBase (i : Nat) : Nat :=
  if i = 0 then 0 else if i = 1 then 16 else if i = 2 then 32 else if i = 3 then 64 else 192

/-- Neighbours of sensor `n` at reset (R323), lowest first. -/
def tsNeighbours (n : Nat) : List Nat :=
  if n < 22 then
    ((if 2 ≤ n then [n - 2] else []) ++ (if 1 ≤ n then [n - 1] else []) ++
      (if n + 1 < 22 then [n + 1] else []) ++ (if n + 2 < 22 then [n + 2] else []))
  else if n < 24 then [45 - n]
  else if n < 40 then (List.range 4).filterMap fun j => if 24 + 4 * ((n - 24) / 4) + j = n then none else some (24 + 4 * ((n - 24) / 4) + j)
  else (List.range 4).filterMap fun j => if 40 + 4 * ((n - 40) / 4) + j = n then none else some (40 + 4 * ((n - 40) / 4) + j)

namespace F

/-! UNIT_ID, +0x000 (R18) -/
def UNIT_ID_UID : Fld := ⟨0x000, 15, 0⟩
def UNIT_ID_KIND : Fld := ⟨0x000, 23, 16⟩
def UNIT_ID_STEPPING : Fld := ⟨0x000, 31, 24⟩
def UNIT_ID_PARENT : Fld := ⟨0x000, 47, 32⟩
/-! UNIT_STATE, +0x008 (R18) -/
def UNIT_STATE_STATE : Fld := ⟨0x008, 3, 0⟩
def UNIT_STATE_PWR : Fld := ⟨0x008, 7, 4⟩
def UNIT_STATE_MEMBERS : Fld := ⟨0x008, 15, 8⟩
def UNIT_STATE_CHANGES : Fld := ⟨0x008, 63, 32⟩
/-! UNIT_CTRL, +0x010 (R18) -/
def UNIT_CTRL_ENABLE : Fld := ⟨0x010, 0, 0⟩
def UNIT_CTRL_FENCE_REQ : Fld := ⟨0x010, 1, 1⟩
def UNIT_CTRL_UNFENCE_REQ : Fld := ⟨0x010, 2, 2⟩
def UNIT_CTRL_POWER_REQ : Fld := ⟨0x010, 3, 3⟩
def UNIT_CTRL_TEST_REQ : Fld := ⟨0x010, 4, 4⟩
/-! UNIT_FAULT, +0x018 (R18) -/
def UNIT_FAULT_CODE : Fld := ⟨0x018, 7, 0⟩
def UNIT_FAULT_CLASS : Fld := ⟨0x018, 9, 8⟩
def UNIT_FAULT_CORRECTED : Fld := ⟨0x018, 16, 16⟩
def UNIT_FAULT_CONTAINED : Fld := ⟨0x018, 17, 17⟩
def UNIT_FAULT_FATAL : Fld := ⟨0x018, 18, 18⟩
def UNIT_FAULT_CORR_CNT : Fld := ⟨0x018, 47, 32⟩
def UNIT_FAULT_CNT_CLR : Fld := ⟨0x018, 48, 48⟩
/-! UNIT_IRQ_EN, +0x020 (R19) -/
def UNIT_IRQ_EN_STATE : Fld := ⟨0x020, 0, 0⟩
def UNIT_IRQ_EN_CORR : Fld := ⟨0x020, 1, 1⟩
def UNIT_IRQ_EN_CONT : Fld := ⟨0x020, 2, 2⟩
def UNIT_IRQ_EN_FATAL : Fld := ⟨0x020, 3, 3⟩
def UNIT_IRQ_EN_COLLIDE : Fld := ⟨0x020, 4, 4⟩
def UNIT_IRQ_EN_KIND_IRQ : Fld := ⟨0x020, 47, 16⟩
/-! UNIT_IRQ_STAT, +0x028 (R19) -/
def UNIT_IRQ_STAT_STATE : Fld := ⟨0x028, 0, 0⟩
def UNIT_IRQ_STAT_CORR : Fld := ⟨0x028, 1, 1⟩
def UNIT_IRQ_STAT_CONT : Fld := ⟨0x028, 2, 2⟩
def UNIT_IRQ_STAT_FATAL : Fld := ⟨0x028, 3, 3⟩
def UNIT_IRQ_STAT_COLLIDE : Fld := ⟨0x028, 4, 4⟩
def UNIT_IRQ_STAT_KIND_IRQ : Fld := ⟨0x028, 47, 16⟩
/-! UNIT_COLLIDE, +0x030 (R20) -/
def UNIT_COLLIDE_COUNT : Fld := ⟨0x030, 31, 0⟩
def UNIT_COLLIDE_OFFSET : Fld := ⟨0x030, 41, 32⟩
/-! UNIT_STAMP, +0x038 (R20) -/
def UNIT_STAMP_STAMP : Fld := ⟨0x038, 63, 0⟩
/-! GRP_EDIT, +0x040 (R29) -/
def GRP_EDIT_UID : Fld := ⟨0x040, 15, 0⟩
def GRP_EDIT_OP : Fld := ⟨0x040, 17, 16⟩
/-! GRP_STAT, +0x048 (R29) -/
def GRP_STAT_DIRECT : Fld := ⟨0x048, 7, 0⟩
def GRP_STAT_DEPTH : Fld := ⟨0x048, 11, 8⟩
def GRP_STAT_RESULT : Fld := ⟨0x048, 19, 16⟩
def GRP_STAT_FLAT : Fld := ⟨0x048, 47, 32⟩
def GRP_STAT_REFUSED : Fld := ⟨0x048, 63, 48⟩
/-! GRP_LIST, +0x100 and on (R29) -/
def GRP_LIST_MEMBER (i : Nat) (j : Nat) : Fld := ⟨0x100 + 0x8 * i, 15 + 16 * j, 0 + 16 * j⟩
/-! ROOT_PART, +0x040 (R32) -/
def ROOT_PART_PART : Fld := ⟨0x040, 31, 0⟩
def ROOT_PART_VARIANT : Fld := ⟨0x040, 47, 32⟩
def ROOT_PART_MODULE_STEP : Fld := ⟨0x040, 55, 48⟩
/-! ROOT_SERIAL, +0x048 (R32) -/
def ROOT_SERIAL_SERIAL : Fld := ⟨0x048, 63, 0⟩
/-! ROOT_WORST, +0x050 (R32) -/
def ROOT_WORST_STATE : Fld := ⟨0x050, 3, 0⟩
def ROOT_WORST_UID : Fld := ⟨0x050, 31, 16⟩
/-! ROOT_SPARE_LANE, +0x080 (R32) -/
def ROOT_SPARE_LANE_LANE (j : Nat) : Fld := ⟨0x080, 4 + 8 * j, 0 + 8 * j⟩
def ROOT_SPARE_LANE_USED (j : Nat) : Fld := ⟨0x080, 7 + 8 * j, 7 + 8 * j⟩
/-! ROOT_SPARE_MC, +0x088 and on (R32) -/
def ROOT_SPARE_MC_CHAIN (i : Nat) (j : Nat) : Fld := ⟨0x088 + 0x8 * i, 8 + 16 * j, 0 + 16 * j⟩
def ROOT_SPARE_MC_USED (i : Nat) (j : Nat) : Fld := ⟨0x088 + 0x8 * i, 15 + 16 * j, 15 + 16 * j⟩
/-! SYNC_CFG, +0x040 (R52) -/
def SYNC_CFG_TRK_EN : Fld := ⟨0x040, 0, 0⟩
def SYNC_CFG_PPS_EN : Fld := ⟨0x040, 1, 1⟩
def SYNC_CFG_PTP_EN : Fld := ⟨0x040, 2, 2⟩
def SYNC_CFG_PRIO_TRK : Fld := ⟨0x040, 9, 8⟩
def SYNC_CFG_PRIO_PPS : Fld := ⟨0x040, 11, 10⟩
def SYNC_CFG_PRIO_PTP : Fld := ⟨0x040, 13, 12⟩
def SYNC_CFG_DISC : Fld := ⟨0x040, 16, 16⟩
def SYNC_CFG_AUTO_RETURN : Fld := ⟨0x040, 17, 17⟩
/-! SYNC_CTRL, +0x048 (R52) -/
def SYNC_CTRL_RESYNC : Fld := ⟨0x048, 0, 0⟩
/-! SYNC_STAT, +0x050 (R52) -/
def SYNC_STAT_STATE : Fld := ⟨0x050, 1, 0⟩
def SYNC_STAT_SOURCE : Fld := ⟨0x050, 5, 4⟩
def SYNC_STAT_EVER_LOCKED : Fld := ⟨0x050, 8, 8⟩
def SYNC_STAT_TDD_OK : Fld := ⟨0x050, 9, 9⟩
def SYNC_STAT_TRK_QUAL : Fld := ⟨0x050, 10, 10⟩
def SYNC_STAT_PPS_QUAL : Fld := ⟨0x050, 11, 11⟩
def SYNC_STAT_PTP_QUAL : Fld := ⟨0x050, 12, 12⟩
def SYNC_STAT_STEPS : Fld := ⟨0x050, 47, 32⟩
/-! SYNC_AIR, +0x058 (R52) -/
def SYNC_AIR_AIR : Fld := ⟨0x058, 63, 0⟩
/-! SYNC_TE, +0x060 (R52) -/
def SYNC_TE_TE_EST : Fld := ⟨0x060, 31, 0⟩
def SYNC_TE_PHASE : Fld := ⟨0x060, 63, 32⟩
/-! SYNC_HO_CFG, +0x068 (R52) -/
def SYNC_HO_CFG_BUDGET : Fld := ⟨0x068, 9, 0⟩
def SYNC_HO_CFG_FREE_LIM : Fld := ⟨0x068, 22, 16⟩
/-! SYNC_OSC, +0x070 (R52) -/
def SYNC_OSC_Y_FLOOR : Fld := ⟨0x070, 15, 0⟩
def SYNC_OSC_DRIFT : Fld := ⟨0x070, 47, 32⟩
/-! SYNC_STEER, +0x078 (R52) -/
def SYNC_STEER_SLEW_MAX : Fld := ⟨0x078, 9, 0⟩
def SYNC_STEER_STEP_LIM : Fld := ⟨0x078, 29, 16⟩
def SYNC_STEER_HOLDOFF : Fld := ⟨0x078, 39, 32⟩
/-! SYNC_REF_ADJ, +0x080 (R52) -/
def SYNC_REF_ADJ_ADJ : Fld := ⟨0x080, 17, 0⟩
/-! SYNC_AIR_OFFSET, +0x088 (R52) -/
def SYNC_AIR_OFFSET_OFFSET : Fld := ⟨0x088, 25, 0⟩
/-! SYNC_TRK_CFG, +0x090 (R52) -/
def SYNC_TRK_CFG_PBD : Fld := ⟨0x090, 15, 0⟩
def SYNC_TRK_CFG_RAT : Fld := ⟨0x090, 16, 16⟩
def SYNC_TRK_CFG_SCS : Fld := ⟨0x090, 17, 17⟩
def SYNC_TRK_CFG_ENGINE : Fld := ⟨0x090, 28, 24⟩
def SYNC_TRK_CFG_PERIOD : Fld := ⟨0x090, 34, 32⟩
def SYNC_TRK_CFG_PCI : Fld := ⟨0x090, 57, 48⟩
def SYNC_TRK_CFG_PCI_ANY : Fld := ⟨0x090, 58, 58⟩
/-! SYNC_TRK_FREQ, +0x098 (R52) -/
def SYNC_TRK_FREQ_OFFSET : Fld := ⟨0x098, 31, 0⟩
/-! SYNC_TRK_STAT, +0x0A0 (R52) -/
def SYNC_TRK_STAT_SFN : Fld := ⟨0x0A0, 9, 0⟩
def SYNC_TRK_STAT_PCI : Fld := ⟨0x0A0, 19, 10⟩
def SYNC_TRK_STAT_CRC_OK : Fld := ⟨0x0A0, 20, 20⟩
def SYNC_TRK_STAT_SSB : Fld := ⟨0x0A0, 29, 24⟩
def SYNC_TRK_STAT_RSRP : Fld := ⟨0x0A0, 47, 32⟩
def SYNC_TRK_STAT_MISSES : Fld := ⟨0x0A0, 63, 48⟩
/-! SYNC_HFN_SEED, +0x0A8 (R52) -/
def SYNC_HFN_SEED_HFN : Fld := ⟨0x0A8, 9, 0⟩
def SYNC_HFN_SEED_EPOCH : Fld := ⟨0x0A8, 28, 10⟩
/-! SYNC_TOD, +0x0B0 (R52) -/
def SYNC_TOD_GPS_SEC : Fld := ⟨0x0B0, 39, 0⟩
def SYNC_TOD_VALID : Fld := ⟨0x0B0, 63, 63⟩
/-! SYNC_PTP_CFG, +0x0B8 (R52) -/
def SYNC_PTP_CFG_PORT : Fld := ⟨0x0B8, 2, 0⟩
def SYNC_PTP_CFG_DOMAIN : Fld := ⟨0x0B8, 15, 8⟩
def SYNC_PTP_CFG_LOCAL_PRIO : Fld := ⟨0x0B8, 23, 16⟩
def SYNC_PTP_CFG_BC_PORTS : Fld := ⟨0x0B8, 31, 24⟩
/-! SYNC_LAST_STEP, +0x0C0 (R52) -/
def SYNC_LAST_STEP_STEP : Fld := ⟨0x0C0, 63, 0⟩
/-! SYNC_STEP_STAMP, +0x0C8 (R52) -/
def SYNC_STEP_STAMP_STAMP : Fld := ⟨0x0C8, 63, 0⟩
/-! SYNC_WALL, +0x0D0 (R52) -/
def SYNC_WALL_OFFSET : Fld := ⟨0x0D0, 47, 0⟩
def SYNC_WALL_SET : Fld := ⟨0x0D0, 63, 63⟩
/-! SYNC_OPSEC, +0x0D8 (R52) -/
def SYNC_OPSEC_OPSEC : Fld := ⟨0x0D8, 39, 0⟩
def SYNC_OPSEC_PWRCYC : Fld := ⟨0x0D8, 63, 40⟩
/-! SYNC_TUNE, +0x0E0 (R52) -/
def SYNC_TUNE_PDM : Fld := ⟨0x0E0, 15, 0⟩
def SYNC_TUNE_FERR : Fld := ⟨0x0E0, 55, 16⟩
/-! SYNC_XCHK, +0x0E8 (R52) -/
def SYNC_XCHK_DIFF : Fld := ⟨0x0E8, 31, 0⟩
def SYNC_XCHK_VALID : Fld := ⟨0x0E8, 32, 32⟩
/-! PB_CFG, +0x040 (R77) -/
def PB_CFG_DUPLEX : Fld := ⟨0x040, 0, 0⟩
def PB_CFG_RATE : Fld := ⟨0x040, 3, 1⟩
def PB_CFG_LAYERS : Fld := ⟨0x040, 11, 8⟩
def PB_CFG_BEAM_DN : Fld := ⟨0x040, 12, 12⟩
def PB_CFG_BEAM_SV : Fld := ⟨0x040, 13, 13⟩
def PB_CFG_MU : Fld := ⟨0x040, 17, 16⟩
def PB_CFG_TAOFS : Fld := ⟨0x040, 19, 18⟩
/-! PB_DN_RX, +0x048 (R77) -/
def PB_DN_RX_CHAN (j : Nat) : Fld := ⟨0x048, 4 + 8 * j, 0 + 8 * j⟩
def PB_DN_RX_V (j : Nat) : Fld := ⟨0x048, 7 + 8 * j, 7 + 8 * j⟩
/-! PB_DN_TX, +0x050 (R77) -/
def PB_DN_TX_CHAN (j : Nat) : Fld := ⟨0x050, 4 + 8 * j, 0 + 8 * j⟩
def PB_DN_TX_V (j : Nat) : Fld := ⟨0x050, 7 + 8 * j, 7 + 8 * j⟩
/-! PB_SV_TX0, +0x058 (R77) -/
def PB_SV_TX0_PORT (j : Nat) : Fld := ⟨0x058, 10 + 16 * j, 0 + 16 * j⟩
def PB_SV_TX0_HEAD (j : Nat) : Fld := ⟨0x058, 14 + 16 * j, 14 + 16 * j⟩
def PB_SV_TX0_V (j : Nat) : Fld := ⟨0x058, 15 + 16 * j, 15 + 16 * j⟩
/-! PB_SV_TX1, +0x060 (R77) -/
def PB_SV_TX1_PORT (j : Nat) : Fld := ⟨0x060, 10 + 16 * j, 0 + 16 * j⟩
def PB_SV_TX1_HEAD (j : Nat) : Fld := ⟨0x060, 14 + 16 * j, 14 + 16 * j⟩
def PB_SV_TX1_V (j : Nat) : Fld := ⟨0x060, 15 + 16 * j, 15 + 16 * j⟩
/-! PB_SV_RX0, +0x068 (R77) -/
def PB_SV_RX0_PORT (j : Nat) : Fld := ⟨0x068, 10 + 16 * j, 0 + 16 * j⟩
def PB_SV_RX0_HEAD (j : Nat) : Fld := ⟨0x068, 14 + 16 * j, 14 + 16 * j⟩
def PB_SV_RX0_V (j : Nat) : Fld := ⟨0x068, 15 + 16 * j, 15 + 16 * j⟩
/-! PB_SV_RX1, +0x070 (R77) -/
def PB_SV_RX1_PORT (j : Nat) : Fld := ⟨0x070, 10 + 16 * j, 0 + 16 * j⟩
def PB_SV_RX1_HEAD (j : Nat) : Fld := ⟨0x070, 14 + 16 * j, 14 + 16 * j⟩
def PB_SV_RX1_V (j : Nat) : Fld := ⟨0x070, 15 + 16 * j, 15 + 16 * j⟩
/-! PB_TDD_P1, +0x078 (R77) -/
def PB_TDD_P1_PERIOD : Fld := ⟨0x078, 3, 0⟩
def PB_TDD_P1_DL_SLOTS : Fld := ⟨0x078, 14, 8⟩
def PB_TDD_P1_DL_SYMS : Fld := ⟨0x078, 19, 16⟩
def PB_TDD_P1_UL_SLOTS : Fld := ⟨0x078, 30, 24⟩
def PB_TDD_P1_UL_SYMS : Fld := ⟨0x078, 35, 32⟩
/-! PB_TDD_P2, +0x080 (R77) -/
def PB_TDD_P2_PERIOD : Fld := ⟨0x080, 3, 0⟩
def PB_TDD_P2_EN : Fld := ⟨0x080, 4, 4⟩
def PB_TDD_P2_DL_SLOTS : Fld := ⟨0x080, 14, 8⟩
def PB_TDD_P2_DL_SYMS : Fld := ⟨0x080, 19, 16⟩
def PB_TDD_P2_UL_SLOTS : Fld := ⟨0x080, 30, 24⟩
def PB_TDD_P2_UL_SYMS : Fld := ⟨0x080, 35, 32⟩
/-! PB_TDD_SWITCH, +0x088 (R77) -/
def PB_TDD_SWITCH_STAMP : Fld := ⟨0x088, 63, 0⟩
/-! PB_STAT, +0x090 (R77) -/
def PB_STAT_TDD_RESULT : Fld := ⟨0x090, 3, 0⟩
def PB_STAT_CB_BUSY : Fld := ⟨0x090, 8, 8⟩
def PB_STAT_CFG_REJ : Fld := ⟨0x090, 9, 9⟩
/-! PB_TDD_APPLIED, +0x098 (R77) -/
def PB_TDD_APPLIED_STAMP : Fld := ⟨0x098, 63, 0⟩
/-! PB_CB_ADDR, +0x0A0 (R77) -/
def PB_CB_ADDR_SIDE : Fld := ⟨0x0A0, 0, 0⟩
def PB_CB_ADDR_ENTRY : Fld := ⟨0x0A0, 11, 2⟩
def PB_CB_ADDR_WORD : Fld := ⟨0x0A0, 13, 12⟩
def PB_CB_ADDR_AUTOINC : Fld := ⟨0x0A0, 14, 14⟩
/-! PB_CB_DATA, +0x0A8 (R77) -/
def PB_CB_DATA_W_EVEN : Fld := ⟨0x0A8, 31, 0⟩
def PB_CB_DATA_W_ODD : Fld := ⟨0x0A8, 63, 32⟩
/-! PBD_NCO_RX, +0x040 (R78) -/
def PBD_NCO_RX_WORD : Fld := ⟨0x040, 47, 0⟩
/-! PBD_NCO_TX, +0x048 (R78) -/
def PBD_NCO_TX_WORD : Fld := ⟨0x048, 47, 0⟩
/-! PBD_CTRL, +0x050 (R78) -/
def PBD_CTRL_CP_ALIGN : Fld := ⟨0x050, 0, 0⟩
def PBD_CTRL_FBANK : Fld := ⟨0x050, 1, 1⟩
def PBD_CTRL_PLAN_EN : Fld := ⟨0x050, 2, 2⟩
/-! PBD_STAT, +0x058 (R78) -/
def PBD_STAT_INPUT_CLIP : Fld := ⟨0x058, 0, 0⟩
def PBD_STAT_CLIP_NOW : Fld := ⟨0x058, 1, 1⟩
def PBD_STAT_PLAN_CLAMP : Fld := ⟨0x058, 2, 2⟩
def PBD_STAT_PLAN_MUTE : Fld := ⟨0x058, 3, 3⟩
def PBD_STAT_RETUNING : Fld := ⟨0x058, 4, 4⟩
def PBD_STAT_GATE : Fld := ⟨0x058, 5, 5⟩
def PBD_STAT_FILT_BUSY : Fld := ⟨0x058, 6, 6⟩
def PBD_STAT_CFG_REJ : Fld := ⟨0x058, 7, 7⟩
def PBD_STAT_BEAM_REJ : Fld := ⟨0x058, 8, 8⟩
def PBD_STAT_FBANK_ACT : Fld := ⟨0x058, 9, 9⟩
def PBD_STAT_LATENCY : Fld := ⟨0x058, 31, 16⟩
def PBD_STAT_CLIP_TICKS : Fld := ⟨0x058, 63, 32⟩
/-! PBD_GAIN, +0x060 (R78) -/
def PBD_GAIN_CMD : Fld := ⟨0x060, 15, 0⟩
def PBD_GAIN_DIG : Fld := ⟨0x060, 31, 16⟩
def PBD_GAIN_EXT : Fld := ⟨0x060, 47, 32⟩
def PBD_GAIN_EXT_IDX : Fld := ⟨0x060, 51, 48⟩
/-! PBD_PLAN, +0x068 (R78) -/
def PBD_PLAN_DG_LO : Fld := ⟨0x068, 15, 0⟩
def PBD_PLAN_DG_HI : Fld := ⟨0x068, 31, 16⟩
def PBD_PLAN_N_EXT : Fld := ⟨0x068, 35, 32⟩
def PBD_PLAN_EXT_INIT : Fld := ⟨0x068, 39, 36⟩
/-! PBD_BEAM, +0x070 (R78) -/
def PBD_BEAM_DN : Fld := ⟨0x070, 9, 0⟩
def PBD_BEAM_SV : Fld := ⟨0x070, 25, 16⟩
/-! PBD_CP_OFS, +0x078 (R78) -/
def PBD_CP_OFS_OFS : Fld := ⟨0x078, 17, 0⟩
/-! PBD_FILT, +0x080 (R78) -/
def PBD_FILT_TAPS0 : Fld := ⟨0x080, 9, 0⟩
def PBD_FILT_TAPS1 : Fld := ⟨0x080, 25, 16⟩
/-! PBD_FCOEF_ADDR, +0x088 (R78) -/
def PBD_FCOEF_ADDR_BANK : Fld := ⟨0x088, 0, 0⟩
def PBD_FCOEF_ADDR_INDEX : Fld := ⟨0x088, 8, 1⟩
/-! PBD_FCOEF_DATA, +0x090 (R78) -/
def PBD_FCOEF_DATA_COEF : Fld := ⟨0x090, 17, 0⟩
/-! PBD_EXT, +0x0A0 and on (R78) -/
def PBD_EXT_GAIN (i : Nat) : Fld := ⟨0x0A0 + 0x8 * i, 15, 0⟩
def PBD_EXT_SEQ (i : Nat) : Fld := ⟨0x0A0 + 0x8 * i, 23, 16⟩
def PBD_EXT_SETTLE (i : Nat) : Fld := ⟨0x0A0 + 0x8 * i, 37, 24⟩
/-! RXC_CFG, +0x040 (R109) -/
def RXC_CFG_SY : Fld := ⟨0x040, 2, 0⟩
def RXC_CFG_SY_EN : Fld := ⟨0x040, 3, 3⟩
def RXC_CFG_BG_HOLD : Fld := ⟨0x040, 4, 4⟩
/-! RXC_STAT, +0x048 (R109) -/
def RXC_STAT_CH_STATE : Fld := ⟨0x048, 2, 0⟩
def RXC_STAT_OVR : Fld := ⟨0x048, 8, 8⟩
def RXC_STAT_OVR_NOW : Fld := ⟨0x048, 9, 9⟩
def RXC_STAT_CAL_FROZEN : Fld := ⟨0x048, 10, 10⟩
def RXC_STAT_SY_WAIT : Fld := ⟨0x048, 11, 11⟩
def RXC_STAT_WEIGHT : Fld := ⟨0x048, 19, 16⟩
/-! RXC_OVR_CNT, +0x050 (R109) -/
def RXC_OVR_CNT_COUNT : Fld := ⟨0x050, 31, 0⟩
/-! RXC_OVR_STAMP, +0x058 (R109) -/
def RXC_OVR_STAMP_STAMP : Fld := ⟨0x058, 63, 0⟩
/-! RXC_SLICE, +0x060 (R109) -/
def RXC_SLICE_OUT : Fld := ⟨0x060, 4, 0⟩
def RXC_SLICE_FAILED : Fld := ⟨0x060, 32, 16⟩
def RXC_SLICE_ROT : Fld := ⟨0x060, 63, 48⟩
/-! RXC_CAL_ADDR, +0x068 (R109) -/
def RXC_CAL_ADDR_SLICE : Fld := ⟨0x068, 4, 0⟩
/-! RXC_CAL_DATA, +0x070 (R109) -/
def RXC_CAL_DATA_OFFSET : Fld := ⟨0x070, 15, 0⟩
def RXC_CAL_DATA_GAIN : Fld := ⟨0x070, 31, 16⟩
def RXC_CAL_DATA_SKEW : Fld := ⟨0x070, 47, 32⟩
/-! TXC_CFG, +0x040 (R110) -/
def TXC_CFG_SY : Fld := ⟨0x040, 2, 0⟩
def TXC_CFG_SY_EN : Fld := ⟨0x040, 3, 3⟩
/-! TXC_STAT, +0x048 (R110) -/
def TXC_STAT_CH_STATE : Fld := ⟨0x048, 2, 0⟩
def TXC_STAT_OCLIP : Fld := ⟨0x048, 8, 8⟩
def TXC_STAT_GATE : Fld := ⟨0x048, 9, 9⟩
def TXC_STAT_SY_WAIT : Fld := ⟨0x048, 10, 10⟩
def TXC_STAT_LOCK_FAIL : Fld := ⟨0x048, 11, 11⟩
def TXC_STAT_MUTE_SRC : Fld := ⟨0x048, 21, 16⟩
def TXC_STAT_WEIGHT : Fld := ⟨0x048, 27, 24⟩
/-! TXC_OCLIP_CNT, +0x050 (R110) -/
def TXC_OCLIP_CNT_TICKS : Fld := ⟨0x050, 31, 0⟩
/-! SY_CFG, +0x040 (R111) -/
def SY_CFG_LOCK_MAX : Fld := ⟨0x040, 8, 0⟩
/-! SY_HOP, +0x048 (R111) -/
def SY_HOP_ENTRY : Fld := ⟨0x048, 11, 0⟩
def SY_HOP_GO : Fld := ⟨0x048, 16, 16⟩
def SY_HOP_SAVE : Fld := ⟨0x048, 17, 17⟩
/-! SY_STAT, +0x050 (R111) -/
def SY_STAT_STATE : Fld := ⟨0x050, 1, 0⟩
def SY_STAT_QUEUED : Fld := ⟨0x050, 2, 2⟩
def SY_STAT_CAL_BUSY : Fld := ⟨0x050, 3, 3⟩
def SY_STAT_ENTRY : Fld := ⟨0x050, 27, 16⟩
def SY_STAT_UNLOCKS : Fld := ⟨0x050, 47, 32⟩
/-! SY_FREQ, +0x058 (R111) -/
def SY_FREQ_WORD : Fld := ⟨0x058, 31, 0⟩
/-! SY_CAL_ADDR, +0x060 (R111) -/
def SY_CAL_ADDR_ENTRY : Fld := ⟨0x060, 11, 0⟩
def SY_CAL_ADDR_AUTOINC : Fld := ⟨0x060, 16, 16⟩
/-! SY_CAL_DATA0, +0x068 (R111) -/
def SY_CAL_DATA0_WORD : Fld := ⟨0x068, 31, 0⟩
/-! SY_CAL_DATA1, +0x070 (R111) -/
def SY_CAL_DATA1_VCO_BAND : Fld := ⟨0x070, 7, 0⟩
def SY_CAL_DATA1_CP_TRIM : Fld := ⟨0x070, 13, 8⟩
def SY_CAL_DATA1_LF_STATE : Fld := ⟨0x070, 31, 16⟩
def SY_CAL_DATA1_TEMP : Fld := ⟨0x070, 39, 32⟩
def SY_CAL_DATA1_VALID : Fld := ⟨0x070, 63, 63⟩
/-! ORX_CTRL, +0x040 (R112) -/
def ORX_CTRL_RUN : Fld := ⟨0x040, 0, 0⟩
def ORX_CTRL_N_ENT : Fld := ⟨0x040, 12, 8⟩
/-! ORX_SW, +0x048 (R112) -/
def ORX_SW_STB (j : Nat) : Fld := ⟨0x048, 6 + 8 * j, 0 + 8 * j⟩
def ORX_SW_V (j : Nat) : Fld := ⟨0x048, 7 + 8 * j, 7 + 8 * j⟩
/-! ORX_STAT, +0x050 (R112) -/
def ORX_STAT_ENTRY : Fld := ⟨0x050, 3, 0⟩
def ORX_STAT_TXC : Fld := ⟨0x050, 12, 8⟩
def ORX_STAT_SETTLING : Fld := ⟨0x050, 16, 16⟩
def ORX_STAT_TX_OFF : Fld := ⟨0x050, 17, 17⟩
def ORX_STAT_CYCLES : Fld := ⟨0x050, 63, 32⟩
/-! ORX_DWELL, +0x080 and on (R112) -/
def ORX_DWELL_TXC (i : Nat) : Fld := ⟨0x080 + 0x8 * i, 4, 0⟩
def ORX_DWELL_POS (i : Nat) : Fld := ⟨0x080 + 0x8 * i, 10, 8⟩
def ORX_DWELL_DWELL (i : Nat) : Fld := ⟨0x080 + 0x8 * i, 23, 16⟩
def ORX_DWELL_SETTLE (i : Nat) : Fld := ⟨0x080 + 0x8 * i, 44, 32⟩
/-! CC_STAT, +0x040 (R113) -/
def CC_STAT_CLK_LOCK : Fld := ⟨0x040, 0, 0⟩
def CC_STAT_CLK_LOST : Fld := ⟨0x040, 1, 1⟩
/-! CC_RFFE, +0x048 and on (R113) -/
def CC_RFFE_DIV (i : Nat) : Fld := ⟨0x048 + 0x8 * i, 10, 0⟩
def CC_RFFE_RD_HALF (i : Nat) : Fld := ⟨0x048 + 0x8 * i, 11, 11⟩
def CC_RFFE_EN (i : Nat) : Fld := ⟨0x048 + 0x8 * i, 12, 12⟩
/-! CC_RFFE_STAT, +0x068 (R113) -/
def CC_RFFE_STAT_BUSY : Fld := ⟨0x068, 3, 0⟩
def CC_RFFE_STAT_SEQ_LATE : Fld := ⟨0x068, 4, 4⟩
def CC_RFFE_STAT_SEQ_BUSY : Fld := ⟨0x068, 5, 5⟩
def CC_RFFE_STAT_PERR : Fld := ⟨0x068, 6, 6⟩
def CC_RFFE_STAT_DROP : Fld := ⟨0x068, 31, 16⟩
/-! CC_SEQ_ADDR, +0x070 (R113) -/
def CC_SEQ_ADDR_SLOT : Fld := ⟨0x070, 7, 0⟩
def CC_SEQ_ADDR_FRAME : Fld := ⟨0x070, 10, 8⟩
def CC_SEQ_ADDR_AUTOINC : Fld := ⟨0x070, 11, 11⟩
/-! CC_SEQ_DATA, +0x078 (R113) -/
def CC_SEQ_DATA_BUS : Fld := ⟨0x078, 1, 0⟩
def CC_SEQ_DATA_TYPE : Fld := ⟨0x078, 5, 2⟩
def CC_SEQ_DATA_USID : Fld := ⟨0x078, 11, 8⟩
def CC_SEQ_DATA_BCOUNT : Fld := ⟨0x078, 13, 12⟩
def CC_SEQ_DATA_ADDR : Fld := ⟨0x078, 31, 16⟩
def CC_SEQ_DATA_DATA : Fld := ⟨0x078, 63, 32⟩
/-! CC_RFFE_CMD, +0x088 (R113) -/
def CC_RFFE_CMD_BUS : Fld := ⟨0x088, 1, 0⟩
def CC_RFFE_CMD_TYPE : Fld := ⟨0x088, 5, 2⟩
def CC_RFFE_CMD_USID : Fld := ⟨0x088, 11, 8⟩
def CC_RFFE_CMD_BCOUNT : Fld := ⟨0x088, 13, 12⟩
def CC_RFFE_CMD_ADDR : Fld := ⟨0x088, 31, 16⟩
def CC_RFFE_CMD_DATA : Fld := ⟨0x088, 63, 32⟩
/-! CC_SEQ_TIME, +0x080 (R113) -/
def CC_SEQ_TIME_TIME : Fld := ⟨0x080, 15, 0⟩
/-! CC_RFFE_RESP, +0x090 (R113) -/
def CC_RFFE_RESP_DATA : Fld := ⟨0x090, 31, 0⟩
def CC_RFFE_RESP_DONE : Fld := ⟨0x090, 32, 32⟩
def CC_RFFE_RESP_PERR : Fld := ⟨0x090, 33, 33⟩
/-! CC_STB_LEVEL, +0x098 (R113) -/
def CC_STB_LEVEL_LEVEL : Fld := ⟨0x098, 31, 0⟩
/-! CC_STB_SET, +0x0A0 (R113) -/
def CC_STB_SET_SET : Fld := ⟨0x0A0, 31, 0⟩
/-! CC_SEQ_GO, +0x0A8 (R113) -/
def CC_SEQ_GO_SEQ : Fld := ⟨0x0A8, 7, 0⟩
/-! CC_STB_CFG, +0x100 and on (R113) -/
def CC_STB_CFG_FUNC (i : Nat) : Fld := ⟨0x100 + 0x8 * i, 2, 0⟩
def CC_STB_CFG_TXC (i : Nat) : Fld := ⟨0x100 + 0x8 * i, 12, 8⟩
/-! CL_STAT, +0x040 (R141) -/
def CL_STAT_ACTIVE : Fld := ⟨0x040, 5, 0⟩
def CL_STAT_LR : Fld := ⟨0x040, 11, 8⟩
def CL_STAT_THROTTLE : Fld := ⟨0x040, 16, 16⟩
/-! CL_CAP, +0x048 (R141) -/
def CL_CAP_USED : Fld := ⟨0x048, 17, 0⟩
/-! CL_MBANK, +0x050 (R141) -/
def CL_MBANK_SLOTS : Fld := ⟨0x050, 18, 0⟩
def CL_MBANK_COPIES : Fld := ⟨0x050, 21, 19⟩
def CL_MBANK_VALID : Fld := ⟨0x050, 63, 32⟩
/-! CL_MB_ADDR, +0x058 (R141) -/
def CL_MB_ADDR_SLOT : Fld := ⟨0x058, 17, 0⟩
def CL_MB_ADDR_COPY : Fld := ⟨0x058, 19, 18⟩
def CL_MB_ADDR_WORD : Fld := ⟨0x058, 28, 20⟩
def CL_MB_ADDR_AUTOINC : Fld := ⟨0x058, 31, 31⟩
/-! CL_MB_DATA, +0x060 (R141) -/
def CL_MB_DATA_TAP_EVEN : Fld := ⟨0x060, 31, 0⟩
def CL_MB_DATA_TAP_ODD : Fld := ⟨0x060, 63, 32⟩
/-! CL_MB_CTRL, +0x068 (R141) -/
def CL_MB_CTRL_SLOT : Fld := ⟨0x068, 17, 0⟩
def CL_MB_CTRL_OP : Fld := ⟨0x068, 19, 18⟩
/-! CL_MB_STAT, +0x070 (R141) -/
def CL_MB_STAT_BUSY : Fld := ⟨0x070, 0, 0⟩
def CL_MB_STAT_MB_BUSY : Fld := ⟨0x070, 1, 1⟩
def CL_MB_STAT_RANGE : Fld := ⟨0x070, 2, 2⟩
def CL_MB_STAT_ECC : Fld := ⟨0x070, 31, 16⟩
/-! LANE_CFG, +0x040 (R142) -/
def LANE_CFG_PBD : Fld := ⟨0x040, 15, 0⟩
def LANE_CFG_RX_SLOT : Fld := ⟨0x040, 18, 16⟩
def LANE_CFG_REF_PBD : Fld := ⟨0x040, 39, 24⟩
def LANE_CFG_REF_SLOT : Fld := ⟨0x040, 42, 40⟩
def LANE_CFG_GANG : Fld := ⟨0x040, 49, 48⟩
def LANE_CFG_HEAD_TRACK : Fld := ⟨0x040, 50, 50⟩
def LANE_CFG_SCALE : Fld := ⟨0x040, 59, 56⟩
/-! LANE_WIN, +0x048 and on (R142) -/
def LANE_WIN_D (i : Nat) : Fld := ⟨0x048 + 0x8 * i, 20, 0⟩
def LANE_WIN_LR (i : Nat) : Fld := ⟨0x048 + 0x8 * i, 21, 21⟩
def LANE_WIN_LEN (i : Nat) : Fld := ⟨0x048 + 0x8 * i, 34, 24⟩
/-! LANE_ADAPT, +0x068 (R142) -/
def LANE_ADAPT_MU_M : Fld := ⟨0x068, 7, 0⟩
def LANE_ADAPT_MU_E : Fld := ⟨0x068, 11, 8⟩
def LANE_ADAPT_BLOCK : Fld := ⟨0x068, 14, 12⟩
def LANE_ADAPT_REF_MIN : Fld := ⟨0x068, 31, 16⟩
def LANE_ADAPT_ADAPT_EN : Fld := ⟨0x068, 32, 32⟩
def LANE_ADAPT_WB : Fld := ⟨0x068, 33, 33⟩
/-! LANE_MODEL, +0x070 (R142) -/
def LANE_MODEL_MBASE : Fld := ⟨0x070, 17, 0⟩
def LANE_MODEL_KMASK : Fld := ⟨0x070, 63, 32⟩
/-! LANE_KEY, +0x078 (R142) -/
def LANE_KEY_KEY : Fld := ⟨0x078, 31, 0⟩
def LANE_KEY_SLOT : Fld := ⟨0x078, 49, 32⟩
def LANE_KEY_FROM_BANK : Fld := ⟨0x078, 50, 50⟩
/-! LANE_PF, +0x080 (R142) -/
def LANE_PF_LEAD : Fld := ⟨0x080, 16, 0⟩
/-! LANE_CMD, +0x088 (R142) -/
def LANE_CMD_RESUME : Fld := ⟨0x088, 0, 0⟩
def LANE_CMD_ZERO : Fld := ⟨0x088, 1, 1⟩
def LANE_CMD_SAVE : Fld := ⟨0x088, 2, 2⟩
/-! LANE_STAT, +0x090 (R142) -/
def LANE_STAT_ADAPT : Fld := ⟨0x090, 2, 0⟩
def LANE_STAT_SWAP_PENDING : Fld := ⟨0x090, 4, 4⟩
def LANE_STAT_MODEL_LATE : Fld := ⟨0x090, 5, 5⟩
def LANE_STAT_DIVERGED : Fld := ⟨0x090, 6, 6⟩
def LANE_STAT_DLY_UNDERRUN : Fld := ⟨0x090, 7, 7⟩
def LANE_STAT_WB_SKIP : Fld := ⟨0x090, 8, 8⟩
def LANE_STAT_MODEL_ERR : Fld := ⟨0x090, 9, 9⟩
def LANE_STAT_CFG_REJ : Fld := ⟨0x090, 10, 10⟩
def LANE_STAT_DIV_CNT : Fld := ⟨0x090, 18, 16⟩
def LANE_STAT_TAPS : Fld := ⟨0x090, 42, 32⟩
def LANE_STAT_LATE_CNT : Fld := ⟨0x090, 63, 48⟩
/-! LANE_RESID, +0x098 (R142) -/
def LANE_RESID_RESID : Fld := ⟨0x098, 15, 0⟩
def LANE_RESID_BASE : Fld := ⟨0x098, 31, 16⟩
def LANE_RESID_DEPTH : Fld := ⟨0x098, 47, 32⟩
def LANE_RESID_EXCESS : Fld := ⟨0x098, 50, 48⟩
/-! LANE_SWAP_STAMP, +0x0A0 (R142) -/
def LANE_SWAP_STAMP_STAMP : Fld := ⟨0x0A0, 63, 0⟩
/-! LANE_LATE_STAMP, +0x0A8 (R142) -/
def LANE_LATE_STAMP_STAMP : Fld := ⟨0x0A8, 63, 0⟩
/-! LANE_TAP_ADDR, +0x0B0 (R142) -/
def LANE_TAP_ADDR_TAP : Fld := ⟨0x0B0, 9, 0⟩
/-! LANE_TAP_DATA, +0x0B8 (R142) -/
def LANE_TAP_DATA_TAP : Fld := ⟨0x0B8, 31, 0⟩
/-! PBD_PROBE_CFG, +0x140 (R143) -/
def PBD_PROBE_CFG_EN : Fld := ⟨0x140, 0, 0⟩
def PBD_PROBE_CFG_DEPTH : Fld := ⟨0x140, 13, 8⟩
/-! PBD_PROBE_STAT, +0x148 (R143) -/
def PBD_PROBE_STAT_LG : Fld := ⟨0x148, 15, 0⟩
def PBD_PROBE_STAT_MARGIN : Fld := ⟨0x148, 31, 16⟩
def PBD_PROBE_STAT_ISO_EST : Fld := ⟨0x148, 47, 32⟩
def PBD_PROBE_STAT_VALID_PCT : Fld := ⟨0x148, 54, 48⟩
def PBD_PROBE_STAT_UNKNOWN : Fld := ⟨0x148, 56, 56⟩
def PBD_PROBE_STAT_COLD_CAP : Fld := ⟨0x148, 57, 57⟩
/-! PBD_PROBE_ISO, +0x150 (R143) -/
def PBD_PROBE_ISO_ISO_PASSIVE : Fld := ⟨0x150, 15, 0⟩
def PBD_PROBE_ISO_COLD : Fld := ⟨0x150, 31, 16⟩
/-! PBD_PROBE_PUB, +0x158 (R143) -/
def PBD_PROBE_PUB_STAMP : Fld := ⟨0x158, 63, 0⟩
/-! LOOP_PBD_CTRL, +0x160 (R168) -/
def LOOP_PBD_CTRL_SUPV_EN : Fld := ⟨0x160, 0, 0⟩
def LOOP_PBD_CTRL_CLR_PLAUS : Fld := ⟨0x160, 1, 1⟩
def LOOP_PBD_CTRL_N_MISS : Fld := ⟨0x160, 11, 8⟩
def LOOP_PBD_CTRL_SLEW_UP : Fld := ⟨0x160, 26, 16⟩
/-! LOOP_PBD_STAT, +0x168 (R168) -/
def LOOP_PBD_STAT_WINNER : Fld := ⟨0x168, 2, 0⟩
def LOOP_PBD_STAT_LIMIT : Fld := ⟨0x168, 4, 3⟩
def LOOP_PBD_STAT_LULL_DL : Fld := ⟨0x168, 6, 6⟩
def LOOP_PBD_STAT_LULL_PL : Fld := ⟨0x168, 7, 7⟩
def LOOP_PBD_STAT_RAMP : Fld := ⟨0x168, 8, 8⟩
def LOOP_PBD_STAT_BACKOFF : Fld := ⟨0x168, 9, 9⟩
def LOOP_PBD_STAT_OBS : Fld := ⟨0x168, 10, 10⟩
def LOOP_PBD_STAT_SUPV_RUN : Fld := ⟨0x168, 15, 12⟩
def LOOP_PBD_STAT_DIFF : Fld := ⟨0x168, 31, 16⟩
def LOOP_PBD_STAT_LULL_LVL : Fld := ⟨0x168, 47, 32⟩
def LOOP_PBD_STAT_CLEAN : Fld := ⟨0x168, 54, 48⟩
/-! LOOP_PBD_OUT, +0x170 (R168) -/
def LOOP_PBD_OUT_W : Fld := ⟨0x170, 15, 0⟩
def LOOP_PBD_OUT_NEXT : Fld := ⟨0x170, 31, 16⟩
def LOOP_PBD_OUT_RAMP : Fld := ⟨0x170, 47, 32⟩
def LOOP_PBD_OUT_PREV : Fld := ⟨0x170, 63, 48⟩
/-! LOOP_SUPV, +0x178 (R168) -/
def LOOP_SUPV_SLOT : Fld := ⟨0x178, 2, 0⟩
def LOOP_SUPV_MON_CH : Fld := ⟨0x178, 12, 8⟩
def LOOP_SUPV_MON_EN : Fld := ⟨0x178, 13, 13⟩
def LOOP_SUPV_TOL : Fld := ⟨0x178, 26, 16⟩
def LOOP_SUPV_OFS_ORX : Fld := ⟨0x178, 47, 32⟩
def LOOP_SUPV_OFS_MON : Fld := ⟨0x178, 63, 48⟩
/-! LOOP_SUPV_MAP, +0x180 (R168) -/
def LOOP_SUPV_MAP_SLOPE : Fld := ⟨0x180, 15, 0⟩
/-! LOOP_RAMP, +0x188 (R168) -/
def LOOP_RAMP_RATE : Fld := ⟨0x188, 15, 0⟩
def LOOP_RAMP_START : Fld := ⟨0x188, 16, 16⟩
def LOOP_RAMP_STOP : Fld := ⟨0x188, 17, 17⟩
/-! LOOP_CTRL, +0x200 and on (R169) -/
def LOOP_CTRL_EN (i : Nat) : Fld := ⟨0x200 + 0x40 * i, 0, 0⟩
def LOOP_CTRL_HOLD (i : Nat) : Fld := ⟨0x200 + 0x40 * i, 1, 1⟩
def LOOP_CTRL_LUT_EN (i : Nat) : Fld := ⟨0x200 + 0x40 * i, 2, 2⟩
def LOOP_CTRL_FF_EN (i : Nat) : Fld := ⟨0x200 + 0x40 * i, 3, 3⟩
def LOOP_CTRL_TUNE_REQ (i : Nat) : Fld := ⟨0x200 + 0x40 * i, 4, 4⟩
def LOOP_CTRL_KIND (i : Nat) : Fld := ⟨0x200 + 0x40 * i, 10, 8⟩
/-! LOOP_SRC, +0x208 and on (R169) -/
def LOOP_SRC_MEAS_MC (i : Nat) : Fld := ⟨0x208 + 0x40 * i, 8, 0⟩
def LOOP_SRC_MEAS_DET (i : Nat) : Fld := ⟨0x208 + 0x40 * i, 10, 9⟩
def LOOP_SRC_IN_MC (i : Nat) : Fld := ⟨0x208 + 0x40 * i, 24, 16⟩
def LOOP_SRC_IN_DET (i : Nat) : Fld := ⟨0x208 + 0x40 * i, 26, 25⟩
/-! LOOP_SETPT, +0x210 and on (R169) -/
def LOOP_SETPT_SETPT (i : Nat) : Fld := ⟨0x210 + 0x40 * i, 15, 0⟩
def LOOP_SETPT_UMIN (i : Nat) : Fld := ⟨0x210 + 0x40 * i, 31, 16⟩
def LOOP_SETPT_UMAX (i : Nat) : Fld := ⟨0x210 + 0x40 * i, 47, 32⟩
def LOOP_SETPT_IN_REF (i : Nat) : Fld := ⟨0x210 + 0x40 * i, 63, 48⟩
/-! LOOP_KP, +0x218 and on (R169) -/
def LOOP_KP_KP (i : Nat) : Fld := ⟨0x218 + 0x40 * i, 31, 0⟩
def LOOP_KP_LUT_STEP (i : Nat) : Fld := ⟨0x218 + 0x40 * i, 43, 32⟩
/-! LOOP_KI_KFF, +0x220 and on (R169) -/
def LOOP_KI_KFF_KI (i : Nat) : Fld := ⟨0x220 + 0x40 * i, 31, 0⟩
def LOOP_KI_KFF_KFF (i : Nat) : Fld := ⟨0x220 + 0x40 * i, 63, 32⟩
/-! LOOP_STAT, +0x228 and on (R169) -/
def LOOP_STAT_DL_MISS (i : Nat) : Fld := ⟨0x228 + 0x40 * i, 0, 0⟩
def LOOP_STAT_I_HELD (i : Nat) : Fld := ⟨0x228 + 0x40 * i, 1, 1⟩
def LOOP_STAT_CLAMP_HI (i : Nat) : Fld := ⟨0x228 + 0x40 * i, 2, 2⟩
def LOOP_STAT_CLAMP_LO (i : Nat) : Fld := ⟨0x228 + 0x40 * i, 3, 3⟩
def LOOP_STAT_WIN (i : Nat) : Fld := ⟨0x228 + 0x40 * i, 4, 4⟩
def LOOP_STAT_INVALID (i : Nat) : Fld := ⟨0x228 + 0x40 * i, 5, 5⟩
def LOOP_STAT_HELD (i : Nat) : Fld := ⟨0x228 + 0x40 * i, 6, 6⟩
def LOOP_STAT_TUNE (i : Nat) : Fld := ⟨0x228 + 0x40 * i, 9, 8⟩
def LOOP_STAT_REASON (i : Nat) : Fld := ⟨0x228 + 0x40 * i, 12, 10⟩
def LOOP_STAT_MISS_RUN (i : Nat) : Fld := ⟨0x228 + 0x40 * i, 19, 16⟩
def LOOP_STAT_MISS_CNT (i : Nat) : Fld := ⟨0x228 + 0x40 * i, 63, 32⟩
/-! LOOP_OUT, +0x230 and on (R169) -/
def LOOP_OUT_U (i : Nat) : Fld := ⟨0x230 + 0x40 * i, 15, 0⟩
def LOOP_OUT_I (i : Nat) : Fld := ⟨0x230 + 0x40 * i, 31, 16⟩
def LOOP_OUT_E (i : Nat) : Fld := ⟨0x230 + 0x40 * i, 47, 32⟩
def LOOP_OUT_FF (i : Nat) : Fld := ⟨0x230 + 0x40 * i, 63, 48⟩
/-! LOOP_TUNE, +0x238 and on (R169) -/
def LOOP_TUNE_H (i : Nat) : Fld := ⟨0x238 + 0x40 * i, 10, 0⟩
def LOOP_TUNE_HYS (i : Nat) : Fld := ⟨0x238 + 0x40 * i, 23, 16⟩
def LOOP_TUNE_TUNE_MAX (i : Nat) : Fld := ⟨0x238 + 0x40 * i, 31, 24⟩
def LOOP_TUNE_KU (i : Nat) : Fld := ⟨0x238 + 0x40 * i, 47, 32⟩
def LOOP_TUNE_TU (i : Nat) : Fld := ⟨0x238 + 0x40 * i, 63, 48⟩
/-! LE_STAT, +0x040 (R170) -/
def LE_STAT_USED : Fld := ⟨0x040, 16, 0⟩
def LE_STAT_MISSED : Fld := ⟨0x040, 42, 32⟩
def LE_STAT_TUNE_STOP : Fld := ⟨0x040, 48, 48⟩
def LE_STAT_OVERRUN : Fld := ⟨0x040, 49, 49⟩
/-! LE_PEAK, +0x048 (R170) -/
def LE_PEAK_PEAK : Fld := ⟨0x048, 16, 0⟩
def LE_PEAK_CLR : Fld := ⟨0x048, 32, 32⟩
/-! LE_MISS_CNT, +0x050 (R170) -/
def LE_MISS_CNT_TICKS : Fld := ⟨0x050, 31, 0⟩
def LE_MISS_CNT_LOOPS : Fld := ⟨0x050, 63, 32⟩
/-! LE_LUT_ADDR, +0x058 (R170) -/
def LE_LUT_ADDR_PBD : Fld := ⟨0x058, 6, 0⟩
def LE_LUT_ADDR_SLOT : Fld := ⟨0x058, 9, 7⟩
def LE_LUT_ADDR_ENTRY : Fld := ⟨0x058, 15, 10⟩
def LE_LUT_ADDR_AUTOINC : Fld := ⟨0x058, 16, 16⟩
/-! LE_LUT_DATA, +0x060 (R170) -/
def LE_LUT_DATA_COEF : Fld := ⟨0x060, 31, 0⟩
/-! LE_BF_ADDR, +0x068 (R170) -/
def LE_BF_ADDR_PBD : Fld := ⟨0x068, 6, 0⟩
def LE_BF_ADDR_SLOT : Fld := ⟨0x068, 9, 7⟩
def LE_BF_ADDR_STAGE : Fld := ⟨0x068, 12, 10⟩
/-! LE_BF_DATA, +0x070 (R170) -/
def LE_BF_DATA_M0 : Fld := ⟨0x070, 23, 0⟩
def LE_BF_DATA_E : Fld := ⟨0x070, 31, 24⟩
def LE_BF_DATA_M1 : Fld := ⟨0x070, 55, 32⟩
/-! MC_TAP, +0x040 (R185) -/
def MC_TAP_KIND : Fld := ⟨0x040, 1, 0⟩
def MC_TAP_INDEX : Fld := ⟨0x040, 14, 8⟩
/-! MC_CFG, +0x048 (R185) -/
def MC_CFG_PRESET : Fld := ⟨0x048, 2, 0⟩
def MC_CFG_PHASE : Fld := ⟨0x048, 3, 3⟩
def MC_CFG_ORDER : Fld := ⟨0x048, 6, 4⟩
def MC_CFG_DECIM : Fld := ⟨0x048, 20, 8⟩
def MC_CFG_WIN : Fld := ⟨0x048, 31, 24⟩
def MC_CFG_ATK : Fld := ⟨0x048, 35, 32⟩
def MC_CFG_DCY : Fld := ⟨0x048, 39, 36⟩
def MC_CFG_NOSYNC : Fld := ⟨0x048, 40, 40⟩
/-! MC_CTRL, +0x050 (R185) -/
def MC_CTRL_SYNC : Fld := ⟨0x050, 0, 0⟩
def MC_CTRL_PEAK_CLR : Fld := ⟨0x050, 1, 1⟩
/-! MC_STAT, +0x058 (R185) -/
def MC_STAT_RUN : Fld := ⟨0x058, 0, 0⟩
def MC_STAT_SETTLED : Fld := ⟨0x058, 1, 1⟩
def MC_STAT_COEF_BUSY : Fld := ⟨0x058, 2, 2⟩
def MC_STAT_CFG_REJ : Fld := ⟨0x058, 3, 3⟩
def MC_STAT_ORDER : Fld := ⟨0x058, 6, 4⟩
def MC_STAT_DECIM : Fld := ⟨0x058, 20, 8⟩
def MC_STAT_WIN : Fld := ⟨0x058, 31, 24⟩
def MC_STAT_SYNC_CNT : Fld := ⟨0x058, 47, 32⟩
/-! MC_RMS, +0x060 (R185) -/
def MC_RMS_VALUE : Fld := ⟨0x060, 15, 0⟩
def MC_RMS_VALID : Fld := ⟨0x060, 16, 16⟩
def MC_RMS_CLIP : Fld := ⟨0x060, 17, 17⟩
def MC_RMS_OUTS : Fld := ⟨0x060, 63, 32⟩
/-! MC_PEAK, +0x068 (R185) -/
def MC_PEAK_VALUE : Fld := ⟨0x068, 15, 0⟩
def MC_PEAK_VALID : Fld := ⟨0x068, 16, 16⟩
def MC_PEAK_CLIP : Fld := ⟨0x068, 17, 17⟩
def MC_PEAK_OUTS : Fld := ⟨0x068, 63, 32⟩
/-! MC_ENV, +0x070 (R185) -/
def MC_ENV_VALUE : Fld := ⟨0x070, 15, 0⟩
def MC_ENV_VALID : Fld := ⟨0x070, 16, 16⟩
def MC_ENV_CLIP : Fld := ⟨0x070, 17, 17⟩
def MC_ENV_OUTS : Fld := ⟨0x070, 63, 32⟩
/-! MC_STAMP, +0x078 (R185) -/
def MC_STAMP_STAMP : Fld := ⟨0x078, 63, 0⟩
/-! MC_PEAK_HOLD, +0x080 (R185) -/
def MC_PEAK_HOLD_HOLD : Fld := ⟨0x080, 15, 0⟩
/-! MC_CAL, +0x088 (R185) -/
def MC_CAL_OFFSET : Fld := ⟨0x088, 15, 0⟩
/-! MC_COEF_ADDR, +0x090 (R185) -/
def MC_COEF_ADDR_INDEX : Fld := ⟨0x090, 3, 0⟩
def MC_COEF_ADDR_SET : Fld := ⟨0x090, 4, 4⟩
/-! MC_COEF_DATA, +0x098 (R185) -/
def MC_COEF_DATA_COEF : Fld := ⟨0x098, 17, 0⟩
/-! MC_SYNC_STAMP, +0x0A0 (R185) -/
def MC_SYNC_STAMP_STAMP : Fld := ⟨0x0A0, 63, 0⟩
/-! PROT_CFG, +0x190 (R205) -/
def PROT_CFG_OSC_EN : Fld := ⟨0x190, 0, 0⟩
def PROT_CFG_MARGIN_EN : Fld := ⟨0x190, 1, 1⟩
def PROT_CFG_OVL_EN : Fld := ⟨0x190, 2, 2⟩
def PROT_CFG_AUTO_RST : Fld := ⟨0x190, 3, 3⟩
def PROT_CFG_PROB : Fld := ⟨0x190, 15, 8⟩
def PROT_CFG_M_SQUALL : Fld := ⟨0x190, 31, 16⟩
def PROT_CFG_OVL_TICKS : Fld := ⟨0x190, 43, 32⟩
/-! PROT_OSC, +0x198 (R205) -/
def PROT_OSC_GROW : Fld := ⟨0x198, 15, 0⟩
def PROT_OSC_FLAT : Fld := ⟨0x198, 31, 16⟩
/-! PROT_CTRL, +0x1A0 (R205) -/
def PROT_CTRL_SQUALL : Fld := ⟨0x1A0, 0, 0⟩
def PROT_CTRL_UNSQUALL : Fld := ⟨0x1A0, 1, 1⟩
def PROT_CTRL_RESTART : Fld := ⟨0x1A0, 2, 2⟩
def PROT_CTRL_FL_REDO : Fld := ⟨0x1A0, 3, 3⟩
/-! PROT_STAT, +0x1A8 (R205) -/
def PROT_STAT_SQUALL : Fld := ⟨0x1A8, 0, 0⟩
def PROT_STAT_PROBATION : Fld := ⟨0x1A8, 1, 1⟩
def PROT_STAT_FAILS : Fld := ⟨0x1A8, 7, 4⟩
def PROT_STAT_CAUSE : Fld := ⟨0x1A8, 15, 8⟩
def PROT_STAT_OVL_RUN : Fld := ⟨0x1A8, 28, 16⟩
def PROT_STAT_SQUALLS : Fld := ⟨0x1A8, 63, 32⟩
/-! PROT_DUE, +0x1B0 (R205) -/
def PROT_DUE_DUE : Fld := ⟨0x1B0, 63, 0⟩
/-! PROT_SQ_STAMP, +0x1B8 (R205) -/
def PROT_SQ_STAMP_STAMP : Fld := ⟨0x1B8, 63, 0⟩
/-! PROT_NRG_CFG, +0x1C0 (R205) -/
def PROT_NRG_CFG_MARGIN : Fld := ⟨0x1C0, 15, 0⟩
def PROT_NRG_CFG_DONOR_NF : Fld := ⟨0x1C0, 31, 16⟩
def PROT_NRG_CFG_UL_NF : Fld := ⟨0x1C0, 47, 32⟩
def PROT_NRG_CFG_SSB_PWR : Fld := ⟨0x1C0, 63, 48⟩
/-! PROT_NRG_PATH, +0x1C8 (R205) -/
def PROT_NRG_PATH_DN_RX_GAIN : Fld := ⟨0x1C8, 15, 0⟩
def PROT_NRG_PATH_PL_OFS : Fld := ⟨0x1C8, 31, 16⟩
def PROT_NRG_PATH_PL_MIN : Fld := ⟨0x1C8, 47, 32⟩
def PROT_NRG_PATH_SRC : Fld := ⟨0x1C8, 48, 48⟩
/-! PROT_NRG_HOST, +0x1D0 (R205) -/
def PROT_NRG_HOST_PL_HOST : Fld := ⟨0x1D0, 15, 0⟩
/-! PROT_NRG_STAT, +0x1D8 (R205) -/
def PROT_NRG_STAT_PL : Fld := ⟨0x1D8, 15, 0⟩
def PROT_NRG_STAT_N_ARR : Fld := ⟨0x1D8, 31, 16⟩
def PROT_NRG_STAT_LIMIT : Fld := ⟨0x1D8, 47, 32⟩
def PROT_NRG_STAT_STALE : Fld := ⟨0x1D8, 48, 48⟩
def PROT_NRG_STAT_AT_MIN : Fld := ⟨0x1D8, 49, 49⟩
/-! PROT_FL_CFG, +0x1E0 (R205) -/
def PROT_FL_CFG_ISO_PROV : Fld := ⟨0x1E0, 15, 0⟩
def PROT_FL_CFG_FL_PUBS : Fld := ⟨0x1E0, 19, 16⟩
def PROT_FL_CFG_TRAIN_MAX : Fld := ⟨0x1E0, 31, 24⟩
/-! PROT_FL_STAT, +0x1E8 (R205) -/
def PROT_FL_STAT_PHASE : Fld := ⟨0x1E8, 2, 0⟩
def PROT_FL_STAT_MEASURED : Fld := ⟨0x1E8, 3, 3⟩
def PROT_FL_STAT_RESULT : Fld := ⟨0x1E8, 7, 4⟩
def PROT_FL_STAT_PUBS : Fld := ⟨0x1E8, 11, 8⟩
/-! ORX_EMW_CFG, +0x058 (R206) -/
def ORX_EMW_CFG_EN : Fld := ⟨0x058, 0, 0⟩
def ORX_EMW_CFG_N : Fld := ⟨0x058, 11, 8⟩
/-! ORX_EMW_STAT, +0x060 (R206) -/
def ORX_EMW_STAT_OOB : Fld := ⟨0x060, 15, 0⟩
def ORX_EMW_STAT_ENTRY : Fld := ⟨0x060, 19, 16⟩
def ORX_EMW_STAT_RUN : Fld := ⟨0x060, 23, 20⟩
def ORX_EMW_STAT_TRIPS : Fld := ⟨0x060, 63, 32⟩
/-! ORX_EMW_LIM, +0x100 and on (R206) -/
def ORX_EMW_LIM_LIMIT (i : Nat) : Fld := ⟨0x100 + 0x8 * i, 15, 0⟩
def ORX_EMW_LIM_V (i : Nat) : Fld := ⟨0x100 + 0x8 * i, 16, 16⟩
/-! ROOT_SQUALL, +0x0C0 (R207) -/
def ROOT_SQUALL_SQUALL : Fld := ⟨0x0C0, 0, 0⟩
def ROOT_SQUALL_UNSQUALL : Fld := ⟨0x0C0, 1, 1⟩
def ROOT_SQUALL_ACTIVE : Fld := ⟨0x0C0, 8, 8⟩
def ROOT_SQUALL_MUTE_N : Fld := ⟨0x0C0, 16, 16⟩
def ROOT_SQUALL_HOST : Fld := ⟨0x0C0, 17, 17⟩
def ROOT_SQUALL_CUE : Fld := ⟨0x0C0, 18, 18⟩
def ROOT_SQUALL_KILN : Fld := ⟨0x0C0, 19, 19⟩
/-! ROOT_SQ_STAMP, +0x0C8 (R207) -/
def ROOT_SQ_STAMP_STAMP : Fld := ⟨0x0C8, 63, 0⟩
/-! CE_CFG, +0x040 (R239) -/
def CE_CFG_ORIGIN : Fld := ⟨0x040, 14, 0⟩
def CE_CFG_FUNC : Fld := ⟨0x040, 20, 16⟩
def CE_CFG_NOTIFY_RING : Fld := ⟨0x040, 45, 32⟩
def CE_CFG_NOTIFY_V : Fld := ⟨0x040, 46, 46⟩
/-! CE_PART, +0x048 (R239) -/
def CE_PART_ISPLIT : Fld := ⟨0x048, 5, 0⟩
def CE_PART_DSPLIT : Fld := ⟨0x048, 14, 8⟩
/-! CE_VEC, +0x050 (R239) -/
def CE_VEC_VEC : Fld := ⟨0x050, 16, 0⟩
/-! CE_WDOG, +0x058 (R239) -/
def CE_WDOG_LIMIT : Fld := ⟨0x058, 15, 0⟩
def CE_WDOG_COUNT : Fld := ⟨0x058, 47, 32⟩
/-! CE_DWIN_BASE, +0x060 (R239) -/
def CE_DWIN_BASE_BASE : Fld := ⟨0x060, 36, 12⟩
/-! CE_DWIN_SIZE, +0x068 (R239) -/
def CE_DWIN_SIZE_SIZE : Fld := ⟨0x068, 36, 12⟩
/-! CE_USER_CTRL, +0x070 (R239) -/
def CE_USER_CTRL_START : Fld := ⟨0x070, 0, 0⟩
def CE_USER_CTRL_STOP : Fld := ⟨0x070, 1, 1⟩
def CE_USER_CTRL_RUN : Fld := ⟨0x070, 2, 2⟩
def CE_USER_CTRL_LOAD_BUSY : Fld := ⟨0x070, 3, 3⟩
def CE_USER_CTRL_REFUSED : Fld := ⟨0x070, 4, 4⟩
/-! CE_USER_ENTRY, +0x078 (R239) -/
def CE_USER_ENTRY_ENTRY : Fld := ⟨0x078, 16, 0⟩
/-! CE_UMASK, +0x080 and on (R239) -/
def CE_UMASK_LO (i : Nat) : Fld := ⟨0x080 + 0x8 * i, 15, 0⟩
def CE_UMASK_HI (i : Nat) : Fld := ⟨0x080 + 0x8 * i, 31, 16⟩
def CE_UMASK_RD (i : Nat) : Fld := ⟨0x080 + 0x8 * i, 32, 32⟩
def CE_UMASK_WR (i : Nat) : Fld := ⟨0x080 + 0x8 * i, 33, 33⟩
def CE_UMASK_V (i : Nat) : Fld := ⟨0x080 + 0x8 * i, 63, 63⟩
/-! CE_STAT, +0x100 (R239) -/
def CE_STAT_MODE : Fld := ⟨0x100, 1, 0⟩
def CE_STAT_BLOCKED : Fld := ⟨0x100, 2, 2⟩
def CE_STAT_INEXC : Fld := ⟨0x100, 3, 3⟩
def CE_STAT_BLK : Fld := ⟨0x100, 7, 4⟩
def CE_STAT_EXC_CNT : Fld := ⟨0x100, 63, 32⟩
/-! CE_EXC, +0x108 (R239) -/
def CE_EXC_CAUSE : Fld := ⟨0x108, 7, 0⟩
def CE_EXC_DETAIL : Fld := ⟨0x108, 15, 8⟩
def CE_EXC_SYS : Fld := ⟨0x108, 16, 16⟩
/-! CE_EXC_PC, +0x110 (R239) -/
def CE_EXC_PC_PC : Fld := ⟨0x110, 63, 0⟩
/-! CE_EXC_VAL, +0x118 (R239) -/
def CE_EXC_VAL_VALUE : Fld := ⟨0x118, 63, 0⟩
/-! CE_RETIRED, +0x120 (R239) -/
def CE_RETIRED_COUNT : Fld := ⟨0x120, 63, 0⟩
/-! CE_IMEM_ADDR, +0x128 (R239) -/
def CE_IMEM_ADDR_ADDR : Fld := ⟨0x128, 16, 0⟩
/-! CE_IMEM_DATA, +0x130 (R239) -/
def CE_IMEM_DATA_WORD : Fld := ⟨0x130, 31, 0⟩
/-! CE_DMEM_ADDR, +0x138 (R239) -/
def CE_DMEM_ADDR_ADDR : Fld := ⟨0x138, 17, 0⟩
/-! CE_DMEM_DATA, +0x140 (R239) -/
def CE_DMEM_DATA_DATA : Fld := ⟨0x140, 63, 0⟩
/-! DSP_CFG, +0x040 (R262) -/
def DSP_CFG_RESV : Fld := ⟨0x040, 17, 0⟩
def DSP_CFG_RESUME : Fld := ⟨0x040, 49, 32⟩
/-! DSP_STAT, +0x048 (R262) -/
def DSP_STAT_FREE : Fld := ⟨0x048, 18, 0⟩
def DSP_STAT_INFLIGHT : Fld := ⟨0x048, 31, 20⟩
def DSP_STAT_CUE_FULL : Fld := ⟨0x048, 32, 32⟩
def DSP_STAT_AT_BOUND : Fld := ⟨0x048, 33, 33⟩
def DSP_STAT_WAITING : Fld := ⟨0x048, 63, 48⟩
/-! DSP_LATE_CNT, +0x050 (R262) -/
def DSP_LATE_CNT_LATE : Fld := ⟨0x050, 31, 0⟩
def DSP_LATE_CNT_EXPIRED : Fld := ⟨0x050, 63, 32⟩
/-! DSP_REJ_CNT, +0x058 (R262) -/
def DSP_REJ_CNT_ARM_REJ : Fld := ⟨0x058, 31, 0⟩
def DSP_REJ_CNT_EXEC_REJ : Fld := ⟨0x058, 63, 32⟩
/-! DSP_PEAK, +0x060 (R262) -/
def DSP_PEAK_INFLIGHT : Fld := ⟨0x060, 11, 0⟩
def DSP_PEAK_CLR : Fld := ⟨0x060, 16, 16⟩
def DSP_PEAK_LATE_MAX : Fld := ⟨0x060, 63, 32⟩
/-! DSP_HORIZON, +0x068 (R262) -/
def DSP_HORIZON_STAMP : Fld := ⟨0x068, 63, 0⟩
/-! DSP_OVF, +0x070 (R262) -/
def DSP_OVF_LEN : Fld := ⟨0x070, 18, 0⟩
/-! DSP_LAST_EXP, +0x078 (R262) -/
def DSP_LAST_EXP_CTX : Fld := ⟨0x078, 17, 0⟩
def DSP_LAST_EXP_ACTION : Fld := ⟨0x078, 31, 24⟩
def DSP_LAST_EXP_TARGET : Fld := ⟨0x078, 47, 32⟩
/-! DSP_LAST_EXP_STAMP, +0x080 (R262) -/
def DSP_LAST_EXP_STAMP_STAMP : Fld := ⟨0x080, 63, 0⟩
/-! DSP_CANCEL, +0x088 (R262) -/
def DSP_CANCEL_CTX : Fld := ⟨0x088, 17, 0⟩
def DSP_CANCEL_RESULT : Fld := ⟨0x088, 33, 32⟩
/-! DSP_RING_SEL, +0x090 (R262) -/
def DSP_RING_SEL_RING : Fld := ⟨0x090, 13, 0⟩
/-! DSP_RING_D0, +0x098 (R262) -/
def DSP_RING_D0_BASE : Fld := ⟨0x098, 63, 0⟩
/-! DSP_RING_D1, +0x0A0 (R262) -/
def DSP_RING_D1_LOG2 : Fld := ⟨0x0A0, 4, 0⟩
def DSP_RING_D1_MEM : Fld := ⟨0x0A0, 5, 5⟩
def DSP_RING_D1_CLASS : Fld := ⟨0x0A0, 7, 6⟩
def DSP_RING_D1_OWNER : Fld := ⟨0x0A0, 14, 8⟩
def DSP_RING_D1_EN : Fld := ⟨0x0A0, 15, 15⟩
def DSP_RING_D1_FUNC : Fld := ⟨0x0A0, 20, 16⟩
def DSP_RING_D1_VEC : Fld := ⟨0x0A0, 31, 21⟩
def DSP_RING_D1_THRESH : Fld := ⟨0x0A0, 55, 32⟩
/-! DSP_RING_D2, +0x0A8 (R262) -/
def DSP_RING_D2_PROD : Fld := ⟨0x0A8, 31, 0⟩
def DSP_RING_D2_CONS : Fld := ⟨0x0A8, 63, 32⟩
/-! DSP_RING_D3, +0x0B0 (R262) -/
def DSP_RING_D3_REFUSED : Fld := ⟨0x0B0, 15, 0⟩
def DSP_RING_D3_LOST : Fld := ⟨0x0B0, 31, 16⟩
def DSP_RING_D3_NOTIFY_RING : Fld := ⟨0x0B0, 45, 32⟩
def DSP_RING_D3_NOTIFY_V : Fld := ⟨0x0B0, 46, 46⟩
def DSP_RING_D3_FAULT : Fld := ⟨0x0B0, 47, 47⟩
/-! DSP_CTX_SEL, +0x0B8 (R262) -/
def DSP_CTX_SEL_CTX : Fld := ⟨0x0B8, 17, 0⟩
/-! DSP_CTX_DATA, +0x0C0 and on (R262) -/
def DSP_CTX_DATA_BYTES (i : Nat) : Fld := ⟨0x0C0 + 0x8 * i, 63, 0⟩
/-! FH_CFG, +0x040 (R281) -/
def FH_CFG_MODE : Fld := ⟨0x040, 1, 0⟩
def FH_CFG_AN_EN : Fld := ⟨0x040, 2, 2⟩
def FH_CFG_VLAN_EN : Fld := ⟨0x040, 3, 3⟩
def FH_CFG_VID : Fld := ⟨0x040, 15, 4⟩
def FH_CFG_PCP : Fld := ⟨0x040, 18, 16⟩
/-! FH_MAC, +0x048 (R281) -/
def FH_MAC_MAC : Fld := ⟨0x048, 47, 0⟩
/-! FH_STAT, +0x050 (R281) -/
def FH_STAT_LINK : Fld := ⟨0x050, 1, 0⟩
def FH_STAT_SPARED : Fld := ⟨0x050, 2, 2⟩
def FH_STAT_HEADS : Fld := ⟨0x050, 15, 8⟩
def FH_STAT_TRAIN_FAIL : Fld := ⟨0x050, 31, 16⟩
def FH_STAT_DOWNS : Fld := ⟨0x050, 47, 32⟩
/-! FH_LANE, +0x058 (R281) -/
def FH_LANE_PHY0 : Fld := ⟨0x058, 3, 0⟩
def FH_LANE_PHY1 : Fld := ⟨0x058, 7, 4⟩
def FH_LANE_FAILED : Fld := ⟨0x058, 16, 8⟩
/-! FH_BUDGET, +0x060 (R281) -/
def FH_BUDGET_EGRESS : Fld := ⟨0x060, 8, 0⟩
def FH_BUDGET_INGRESS : Fld := ⟨0x060, 24, 16⟩
def FH_BUDGET_STREAMS : Fld := ⟨0x060, 47, 32⟩
/-! FH_TX_CNT, +0x068 (R281) -/
def FH_TX_CNT_FRAMES : Fld := ⟨0x068, 47, 0⟩
/-! FH_RX_CNT, +0x070 (R281) -/
def FH_RX_CNT_FRAMES : Fld := ⟨0x070, 31, 0⟩
def FH_RX_CNT_OTHER : Fld := ⟨0x070, 47, 32⟩
def FH_RX_CNT_PAUSE : Fld := ⟨0x070, 63, 48⟩
/-! FH_FEC, +0x078 (R281) -/
def FH_FEC_CORR : Fld := ⟨0x078, 31, 0⟩
def FH_FEC_UNCORR : Fld := ⟨0x078, 63, 32⟩
/-! FH_UNKNOWN, +0x080 (R281) -/
def FH_UNKNOWN_SERIAL : Fld := ⟨0x080, 63, 0⟩
/-! FH_UNKNOWN_CNT, +0x088 (R281) -/
def FH_UNKNOWN_CNT_COUNT : Fld := ⟨0x088, 15, 0⟩
/-! HD_SERIAL, +0x040 (R282) -/
def HD_SERIAL_SERIAL : Fld := ⟨0x040, 63, 0⟩
/-! HD_BIND, +0x048 (R282) -/
def HD_BIND_PORT : Fld := ⟨0x048, 2, 0⟩
def HD_BIND_ANY_PORT : Fld := ⟨0x048, 3, 3⟩
def HD_BIND_RESULT : Fld := ⟨0x048, 7, 4⟩
def HD_BIND_V : Fld := ⟨0x048, 63, 63⟩
/-! HD_CFG, +0x050 (R282) -/
def HD_CFG_GUARD : Fld := ⟨0x050, 15, 0⟩
def HD_CFG_LOSS : Fld := ⟨0x050, 22, 16⟩
def HD_CFG_AUTO_RE : Fld := ⟨0x050, 23, 23⟩
def HD_CFG_TE_MAX : Fld := ⟨0x050, 33, 24⟩
/-! HD_CTRL, +0x058 (R282) -/
def HD_CTRL_REALIGN : Fld := ⟨0x058, 0, 0⟩
/-! HD_CAP, +0x060 (R282) -/
def HD_CAP_PORTS : Fld := ⟨0x060, 2, 0⟩
def HD_CAP_FMT : Fld := ⟨0x060, 5, 4⟩
def HD_CAP_RATES : Fld := ⟨0x060, 12, 8⟩
def HD_CAP_DMAX : Fld := ⟨0x060, 52, 32⟩
/-! HD_HEAD_LAT, +0x068 (R282) -/
def HD_HEAD_LAT_HEAD_DL : Fld := ⟨0x068, 23, 0⟩
def HD_HEAD_LAT_HEAD_UL : Fld := ⟨0x068, 55, 32⟩
/-! HD_LAT, +0x070 (R282) -/
def HD_LAT_D_DL : Fld := ⟨0x070, 20, 0⟩
def HD_LAT_D_UL : Fld := ⟨0x070, 52, 32⟩
/-! HD_PATH, +0x078 (R282) -/
def HD_PATH_TP : Fld := ⟨0x078, 23, 0⟩
def HD_PATH_ASYM : Fld := ⟨0x078, 47, 32⟩
/-! HD_STAT, +0x080 (R282) -/
def HD_STAT_MUTED : Fld := ⟨0x080, 0, 0⟩
def HD_STAT_STALE : Fld := ⟨0x080, 1, 1⟩
def HD_STAT_FLOWS : Fld := ⟨0x080, 7, 2⟩
def HD_STAT_REALIGNS : Fld := ⟨0x080, 31, 16⟩
def HD_STAT_OFFSET : Fld := ⟨0x080, 63, 32⟩
/-! HD_HEALTH, +0x088 (R282) -/
def HD_HEALTH_GAP_DL : Fld := ⟨0x088, 31, 0⟩
def HD_HEALTH_GAP_UL : Fld := ⟨0x088, 63, 32⟩
/-! HD_MAC, +0x090 (R282) -/
def HD_MAC_MAC : Fld := ⟨0x090, 47, 0⟩
/-! HD_GPIO, +0x098 (R282) -/
def HD_GPIO_LEVEL : Fld := ⟨0x098, 15, 0⟩
/-! HD_FLOW, +0x100 and on (R282) -/
def HD_FLOW_PBD (i : Nat) : Fld := ⟨0x100 + 0x8 * i, 15, 0⟩
def HD_FLOW_PORT (i : Nat) : Fld := ⟨0x100 + 0x8 * i, 17, 16⟩
def HD_FLOW_FMT (i : Nat) : Fld := ⟨0x100 + 0x8 * i, 18, 18⟩
def HD_FLOW_V (i : Nat) : Fld := ⟨0x100 + 0x8 * i, 19, 19⟩
/-! HS_STAT, +0x040 (R304) -/
def HS_STAT_TRAINED : Fld := ⟨0x040, 0, 0⟩
def HS_STAT_RETAIN : Fld := ⟨0x040, 1, 1⟩
def HS_STAT_REFRESH_2X : Fld := ⟨0x040, 2, 2⟩
def HS_STAT_FENCED : Fld := ⟨0x040, 13, 8⟩
/-! HS_ECC, +0x048 (R304) -/
def HS_ECC_CE : Fld := ⟨0x048, 31, 0⟩
def HS_ECC_UE : Fld := ⟨0x048, 63, 32⟩
/-! HS_SCRUB, +0x050 (R304) -/
def HS_SCRUB_HOURS : Fld := ⟨0x050, 7, 0⟩
/-! MEM_REGION, +0x060 and on (R304) -/
def MEM_REGION_SIZE (i : Nat) : Fld := ⟨0x060 + 0x8 * i, 11, 0⟩
def MEM_REGION_BASE (i : Nat) : Fld := ⟨0x060 + 0x8 * i, 43, 32⟩
/-! PC_STAT, +0x040 (R305) -/
def PC_STAT_OUTST : Fld := ⟨0x040, 6, 0⟩
def PC_STAT_PEAK : Fld := ⟨0x040, 14, 8⟩
def PC_STAT_PEAK_CLR : Fld := ⟨0x040, 15, 15⟩
def PC_STAT_WAITS : Fld := ⟨0x040, 63, 32⟩
/-! PC_ECC, +0x048 (R305) -/
def PC_ECC_CE : Fld := ⟨0x048, 31, 0⟩
def PC_ECC_UE : Fld := ⟨0x048, 63, 32⟩
/-! PC_ERR_ADDR, +0x050 (R305) -/
def PC_ERR_ADDR_OFFSET : Fld := ⟨0x050, 36, 0⟩
def PC_ERR_ADDR_V : Fld := ⟨0x050, 63, 63⟩
/-! PC_REPAIR, +0x058 (R305) -/
def PC_REPAIR_SOFT_LEFT : Fld := ⟨0x058, 4, 0⟩
def PC_REPAIR_SOFT_USED : Fld := ⟨0x058, 12, 8⟩
def PC_REPAIR_HARD_LEFT : Fld := ⟨0x058, 20, 16⟩
def PC_REPAIR_HARD_PEND : Fld := ⟨0x058, 28, 24⟩
def PC_REPAIR_UNREP : Fld := ⟨0x058, 47, 32⟩
/-! CEL_CTRL, +0x040 (R306) -/
def CEL_CTRL_RUN : Fld := ⟨0x040, 0, 0⟩
def CEL_CTRL_FREEZE : Fld := ⟨0x040, 1, 1⟩
def CEL_CTRL_REARM : Fld := ⟨0x040, 2, 2⟩
def CEL_CTRL_RPL_START : Fld := ⟨0x040, 3, 3⟩
def CEL_CTRL_RPL_STOP : Fld := ⟨0x040, 4, 4⟩
/-! CEL_CFG, +0x048 (R306) -/
def CEL_CFG_PRE : Fld := ⟨0x048, 4, 0⟩
def CEL_CFG_T_FAULT : Fld := ⟨0x048, 8, 8⟩
def CEL_CFG_T_SQUALL : Fld := ⟨0x048, 9, 9⟩
def CEL_CFG_T_CUE : Fld := ⟨0x048, 10, 10⟩
def CEL_CFG_T_HOST : Fld := ⟨0x048, 11, 11⟩
/-! CEL_STAT, +0x050 (R306) -/
def CEL_STAT_STATE : Fld := ⟨0x050, 2, 0⟩
def CEL_STAT_CFG_REJ : Fld := ⟨0x050, 3, 3⟩
def CEL_STAT_WIN_UE : Fld := ⟨0x050, 4, 4⟩
def CEL_STAT_UNITS : Fld := ⟨0x050, 27, 16⟩
def CEL_STAT_DROPS : Fld := ⟨0x050, 63, 32⟩
/-! CEL_TRIG, +0x058 (R306) -/
def CEL_TRIG_CAUSE : Fld := ⟨0x058, 3, 0⟩
def CEL_TRIG_UID : Fld := ⟨0x058, 31, 16⟩
def CEL_TRIG_IGNORED : Fld := ⟨0x058, 63, 32⟩
/-! CEL_TRIG_STAMP, +0x060 (R306) -/
def CEL_TRIG_STAMP_STAMP : Fld := ⟨0x060, 63, 0⟩
/-! CEL_GEOM, +0x068 (R306) -/
def CEL_GEOM_RECSIZE : Fld := ⟨0x068, 31, 0⟩
def CEL_GEOM_RECORDS : Fld := ⟨0x068, 63, 32⟩
/-! CEL_SEQ, +0x070 (R306) -/
def CEL_SEQ_SEQ : Fld := ⟨0x070, 47, 0⟩
/-! CEL_OLDEST, +0x078 (R306) -/
def CEL_OLDEST_STAMP : Fld := ⟨0x078, 63, 0⟩
/-! CEL_NEWEST, +0x080 (R306) -/
def CEL_NEWEST_STAMP : Fld := ⟨0x080, 63, 0⟩
/-! CEL_POST, +0x088 (R306) -/
def CEL_POST_LEFT : Fld := ⟨0x088, 31, 0⟩
/-! CEL_SADDR, +0x090 (R306) -/
def CEL_SADDR_ENTRY : Fld := ⟨0x090, 8, 0⟩
def CEL_SADDR_AUTOINC : Fld := ⟨0x090, 16, 16⟩
/-! CEL_SDATA, +0x098 (R306) -/
def CEL_SDATA_KIND : Fld := ⟨0x098, 1, 0⟩
def CEL_SDATA_INDEX : Fld := ⟨0x098, 14, 8⟩
def CEL_SDATA_SLOT : Fld := ⟨0x098, 18, 16⟩
def CEL_SDATA_SNIP_U : Fld := ⟨0x098, 29, 24⟩
def CEL_SDATA_SNIP_OFS : Fld := ⟨0x098, 45, 32⟩
def CEL_SDATA_V : Fld := ⟨0x098, 63, 63⟩
/-! CEL_WIN, +0x0A0 (R306) -/
def CEL_WIN_BASE : Fld := ⟨0x0A0, 36, 24⟩
/-! CEL_RPL_CFG, +0x0A8 (R306) -/
def CEL_RPL_CFG_STREAM : Fld := ⟨0x0A8, 8, 0⟩
def CEL_RPL_CFG_PBD : Fld := ⟨0x0A8, 22, 16⟩
def CEL_RPL_CFG_SLOT : Fld := ⟨0x0A8, 26, 24⟩
def CEL_RPL_CFG_COUNT : Fld := ⟨0x0A8, 63, 32⟩
/-! CEL_RPL_FROM, +0x0B0 (R306) -/
def CEL_RPL_FROM_STAMP : Fld := ⟨0x0B0, 63, 0⟩
/-! CEL_RPL_STAT, +0x0B8 (R306) -/
def CEL_RPL_STAT_STATE : Fld := ⟨0x0B8, 1, 0⟩
def CEL_RPL_STAT_REFUSED : Fld := ⟨0x0B8, 2, 2⟩
def CEL_RPL_STAT_ERRS : Fld := ⟨0x0B8, 31, 16⟩
def CEL_RPL_STAT_FED : Fld := ⟨0x0B8, 63, 32⟩
/-! MON_CFG, +0x040 (R321) -/
def MON_CFG_PER_EN : Fld := ⟨0x040, 0, 0⟩
def MON_CFG_REG_LEN : Fld := ⟨0x040, 11, 8⟩
def MON_CFG_INJ_LEN : Fld := ⟨0x040, 13, 12⟩
def MON_CFG_SEQ_PER : Fld := ⟨0x040, 31, 16⟩
/-! MON_REF_EN, +0x048 (R321) -/
def MON_REF_EN_EN : Fld := ⟨0x048, 0, 0⟩
def MON_REF_EN_WARM : Fld := ⟨0x048, 1, 1⟩
/-! MON_SEL, +0x050 (R321) -/
def MON_SEL_CH : Fld := ⟨0x050, 5, 0⟩
/-! MON_START, +0x058 (R321) -/
def MON_START_GO : Fld := ⟨0x058, 0, 0⟩
def MON_START_BURST : Fld := ⟨0x058, 1, 1⟩
/-! MON_TRIG, +0x060 (R321) -/
def MON_TRIG_SEQ : Fld := ⟨0x060, 0, 0⟩
def MON_TRIG_INJ : Fld := ⟨0x060, 1, 1⟩
/-! MON_DATA, +0x068 (R321) -/
def MON_DATA_CODE : Fld := ⟨0x068, 11, 0⟩
def MON_DATA_CH : Fld := ⟨0x068, 21, 16⟩
def MON_DATA_NEW : Fld := ⟨0x068, 24, 24⟩
def MON_DATA_OR : Fld := ⟨0x068, 25, 25⟩
def MON_DATA_UR : Fld := ⟨0x068, 26, 26⟩
def MON_DATA_REF_COLD : Fld := ⟨0x068, 27, 27⟩
/-! MON_DATA_STAMP, +0x070 (R321) -/
def MON_DATA_STAMP_STAMP : Fld := ⟨0x070, 63, 0⟩
/-! MON_STAT, +0x078 (R321) -/
def MON_STAT_BUSY : Fld := ⟨0x078, 0, 0⟩
def MON_STAT_ACT : Fld := ⟨0x078, 3, 1⟩
def MON_STAT_OVR : Fld := ⟨0x078, 4, 4⟩
def MON_STAT_REJ : Fld := ⟨0x078, 5, 5⟩
def MON_STAT_CFG_REJ : Fld := ⟨0x078, 6, 6⟩
def MON_STAT_SLICE_FAIL : Fld := ⟨0x078, 10, 8⟩
def MON_STAT_CAL_FROZEN : Fld := ⟨0x078, 11, 11⟩
def MON_STAT_CAL_OUT : Fld := ⟨0x078, 13, 12⟩
def MON_STAT_REG_POS : Fld := ⟨0x078, 19, 16⟩
/-! MON_DROP, +0x080 (R321) -/
def MON_DROP_INJ_DROP : Fld := ⟨0x080, 15, 0⟩
def MON_DROP_TRIG_DROP : Fld := ⟨0x080, 31, 16⟩
def MON_DROP_REJ_CNT : Fld := ⟨0x080, 47, 32⟩
def MON_DROP_CLR : Fld := ⟨0x080, 63, 63⟩
/-! MON_SEQ_CNT, +0x088 (R321) -/
def MON_SEQ_CNT_REG_CNT : Fld := ⟨0x088, 31, 0⟩
def MON_SEQ_CNT_INJ_CNT : Fld := ⟨0x088, 63, 32⟩
/-! MON_REG_STAMP, +0x090 (R321) -/
def MON_REG_STAMP_STAMP : Fld := ⟨0x090, 63, 0⟩
/-! MON_INJ_STAMP, +0x098 (R321) -/
def MON_INJ_STAMP_STAMP : Fld := ⟨0x098, 63, 0⟩
/-! MON_BURST, +0x0A0 (R321) -/
def MON_BURST_CH : Fld := ⟨0x0A0, 5, 0⟩
def MON_BURST_ILV : Fld := ⟨0x0A0, 6, 6⟩
def MON_BURST_COUNT : Fld := ⟨0x0A0, 18, 8⟩
/-! MON_BUF_ADDR, +0x0A8 (R321) -/
def MON_BUF_ADDR_WORD : Fld := ⟨0x0A8, 7, 0⟩
/-! MON_BUF_DATA, +0x0B0 (R321) -/
def MON_BUF_DATA_SAMPLE (j : Nat) : Fld := ⟨0x0B0, 15 + 16 * j, 0 + 16 * j⟩
/-! MON_BURST_STAMP, +0x0B8 (R321) -/
def MON_BURST_STAMP_STAMP : Fld := ⟨0x0B8, 63, 0⟩
/-! MON_REG, +0x100 and on (R321) -/
def MON_REG_CH (i : Nat) : Fld := ⟨0x100 + 0x8 * i, 5, 0⟩
/-! MON_INJ, +0x180 and on (R321) -/
def MON_INJ_CH (i : Nat) : Fld := ⟨0x180 + 0x8 * i, 5, 0⟩
/-! MON_REG_RES, +0x200 and on (R321) -/
def MON_REG_RES_CODE (i : Nat) : Fld := ⟨0x200 + 0x8 * i, 11, 0⟩
def MON_REG_RES_CH (i : Nat) : Fld := ⟨0x200 + 0x8 * i, 21, 16⟩
def MON_REG_RES_OR (i : Nat) : Fld := ⟨0x200 + 0x8 * i, 25, 25⟩
def MON_REG_RES_UR (i : Nat) : Fld := ⟨0x200 + 0x8 * i, 26, 26⟩
def MON_REG_RES_REF_COLD (i : Nat) : Fld := ⟨0x200 + 0x8 * i, 27, 27⟩
def MON_REG_RES_SEQN (i : Nat) : Fld := ⟨0x200 + 0x8 * i, 63, 32⟩
/-! MON_INJ_RES, +0x280 and on (R321) -/
def MON_INJ_RES_CODE (i : Nat) : Fld := ⟨0x280 + 0x8 * i, 11, 0⟩
def MON_INJ_RES_CH (i : Nat) : Fld := ⟨0x280 + 0x8 * i, 21, 16⟩
def MON_INJ_RES_OR (i : Nat) : Fld := ⟨0x280 + 0x8 * i, 25, 25⟩
def MON_INJ_RES_UR (i : Nat) : Fld := ⟨0x280 + 0x8 * i, 26, 26⟩
def MON_INJ_RES_REF_COLD (i : Nat) : Fld := ⟨0x280 + 0x8 * i, 27, 27⟩
def MON_INJ_RES_SEQN (i : Nat) : Fld := ⟨0x280 + 0x8 * i, 63, 32⟩
/-! MON_WC_CFG, +0x300 and on (R321) -/
def MON_WC_CFG_CH (i : Nat) : Fld := ⟨0x300 + 0x10 * i, 5, 0⟩
def MON_WC_CFG_EN (i : Nat) : Fld := ⟨0x300 + 0x10 * i, 6, 6⟩
def MON_WC_CFG_CNT (i : Nat) : Fld := ⟨0x300 + 0x10 * i, 11, 8⟩
def MON_WC_CFG_HYS (i : Nat) : Fld := ⟨0x300 + 0x10 * i, 19, 12⟩
def MON_WC_CFG_LO (i : Nat) : Fld := ⟨0x300 + 0x10 * i, 31, 20⟩
def MON_WC_CFG_HI (i : Nat) : Fld := ⟨0x300 + 0x10 * i, 43, 32⟩
/-! MON_WC_STAT, +0x308 and on (R321) -/
def MON_WC_STAT_OUT (i : Nat) : Fld := ⟨0x308 + 0x10 * i, 0, 0⟩
def MON_WC_STAT_DIR (i : Nat) : Fld := ⟨0x308 + 0x10 * i, 1, 1⟩
def MON_WC_STAT_RUN (i : Nat) : Fld := ⟨0x308 + 0x10 * i, 7, 4⟩
def MON_WC_STAT_EXITS (i : Nat) : Fld := ⟨0x308 + 0x10 * i, 31, 16⟩
/-! LOOP_THERM, +0x1F0 (R333) -/
def LOOP_THERM_STEPS : Fld := ⟨0x1F0, 10, 0⟩
/-! KILN_CFG, +0x040 (R344) -/
def KILN_CFG_HYS : Fld := ⟨0x040, 3, 0⟩
def KILN_CFG_GRACE : Fld := ⟨0x040, 17, 8⟩
def KILN_CFG_FLOOR : Fld := ⟨0x040, 47, 32⟩
/-! KILN_CTRL, +0x048 (R344) -/
def KILN_CTRL_RESUME : Fld := ⟨0x048, 0, 0⟩
/-! KILN_STAT, +0x050 (R344) -/
def KILN_STAT_LEVEL : Fld := ⟨0x050, 2, 0⟩
def KILN_STAT_STEP : Fld := ⟨0x050, 5, 3⟩
def KILN_STAT_REQ : Fld := ⟨0x050, 6, 6⟩
def KILN_STAT_CFG_REJ : Fld := ⟨0x050, 7, 7⟩
def KILN_STAT_HOT : Fld := ⟨0x050, 13, 8⟩
def KILN_STAT_HOT_TEMP : Fld := ⟨0x050, 31, 16⟩
def KILN_STAT_FAILED : Fld := ⟨0x050, 37, 32⟩
def KILN_STAT_CEIL_STEPS : Fld := ⟨0x050, 47, 40⟩
/-! KILN_THR_STAMP, +0x058 (R344) -/
def KILN_THR_STAMP_STAMP : Fld := ⟨0x058, 63, 0⟩
/-! KILN_OFF_STAMP, +0x060 (R344) -/
def KILN_OFF_STAMP_STAMP : Fld := ⟨0x060, 63, 0⟩
/-! KILN_RATE, +0x068 (R344) -/
def KILN_RATE_SLOPE : Fld := ⟨0x068, 15, 0⟩
def KILN_RATE_LEFT : Fld := ⟨0x068, 31, 16⟩
def KILN_RATE_ORDERLY : Fld := ⟨0x068, 32, 32⟩
/-! PWR_STAT, +0x080 and on (R344) -/
def PWR_STAT_PD (i : Nat) (j : Nat) : Fld := ⟨0x080 + 0x8 * i, 3 + 4 * j, 0 + 4 * j⟩
/-! PWR_INFO, +0x0A8 (R344) -/
def PWR_INFO_INTRANS : Fld := ⟨0x0A8, 2, 0⟩
def PWR_INFO_QUEUED : Fld := ⟨0x0A8, 14, 8⟩
def PWR_INFO_TIMEOUTS : Fld := ⟨0x0A8, 47, 32⟩
/-! TS_READ, +0x040 (R345) -/
def TS_READ_RAW : Fld := ⟨0x040, 15, 0⟩
def TS_READ_FILT : Fld := ⟨0x040, 31, 16⟩
def TS_READ_LEVEL : Fld := ⟨0x040, 34, 32⟩
def TS_READ_SUBST : Fld := ⟨0x040, 35, 35⟩
def TS_READ_RUN : Fld := ⟨0x040, 47, 40⟩
def TS_READ_PEAK : Fld := ⟨0x040, 63, 48⟩
/-! TS_NBR, +0x048 (R345) -/
def TS_NBR_NBR (j : Nat) : Fld := ⟨0x048, 5 + 8 * j, 0 + 8 * j⟩
def TS_NBR_V (j : Nat) : Fld := ⟨0x048, 7 + 8 * j, 7 + 8 * j⟩
/-! TS_STAT, +0x050 (R345) -/
def TS_STAT_CAUSE : Fld := ⟨0x050, 1, 0⟩
/-! FLT_MODE, +0x100 (R369) -/
def FLT_MODE_LEGACY : Fld := ⟨0x100, 0, 0⟩
def FLT_MODE_SAFE : Fld := ⟨0x100, 1, 1⟩
def FLT_MODE_FATAL : Fld := ⟨0x100, 2, 2⟩
def FLT_MODE_CLR_REJ : Fld := ⟨0x100, 3, 3⟩
/-! FLT_CFG, +0x108 (R369) -/
def FLT_CFG_REC_CORR : Fld := ⟨0x108, 0, 0⟩
def FLT_CFG_FIRST_CORR : Fld := ⟨0x108, 1, 1⟩
def FLT_CFG_INJ_EN : Fld := ⟨0x108, 2, 2⟩
/-! FLT_CTRL, +0x110 (R369) -/
def FLT_CTRL_SAFE_CLR : Fld := ⟨0x110, 0, 0⟩
def FLT_CTRL_FIRST_CLR : Fld := ⟨0x110, 1, 1⟩
def FLT_CTRL_BIST : Fld := ⟨0x110, 2, 2⟩
/-! FLT_COLLECT, +0x118 (R369) -/
def FLT_COLLECT_LINES : Fld := ⟨0x118, 63, 0⟩
/-! FLT_COLLECT_INFO, +0x120 (R369) -/
def FLT_COLLECT_INFO_PHASE : Fld := ⟨0x120, 1, 0⟩
def FLT_COLLECT_INFO_FIRST_BIT : Fld := ⟨0x120, 13, 8⟩
def FLT_COLLECT_INFO_FIRST_V : Fld := ⟨0x120, 14, 14⟩
def FLT_COLLECT_INFO_NO_AIR : Fld := ⟨0x120, 15, 15⟩
/-! FLT_COLLECT_STAMP, +0x128 (R369) -/
def FLT_COLLECT_STAMP_STAMP : Fld := ⟨0x128, 63, 0⟩
/-! FLT_PIN, +0x130 (R369) -/
def FLT_PIN_DRIVE : Fld := ⟨0x130, 0, 0⟩
def FLT_PIN_LEVEL : Fld := ⟨0x130, 1, 1⟩
def FLT_PIN_PULSE : Fld := ⟨0x130, 2, 2⟩
def FLT_PIN_ASSERTS : Fld := ⟨0x130, 31, 16⟩
/-! FLT_PIN_MASK, +0x138 (R369) -/
def FLT_PIN_MASK_MASK : Fld := ⟨0x138, 63, 0⟩
/-! FLT_FIRST, +0x140 (R369) -/
def FLT_FIRST_UID : Fld := ⟨0x140, 15, 0⟩
def FLT_FIRST_CODE : Fld := ⟨0x140, 23, 16⟩
def FLT_FIRST_CLASS : Fld := ⟨0x140, 25, 24⟩
def FLT_FIRST_INJ : Fld := ⟨0x140, 26, 26⟩
def FLT_FIRST_SAME : Fld := ⟨0x140, 27, 27⟩
def FLT_FIRST_COINCIDENT : Fld := ⟨0x140, 28, 28⟩
def FLT_FIRST_V : Fld := ⟨0x140, 31, 31⟩
/-! FLT_FATAL, +0x150 (R369) -/
def FLT_FATAL_UID : Fld := ⟨0x150, 15, 0⟩
def FLT_FATAL_CODE : Fld := ⟨0x150, 23, 16⟩
def FLT_FATAL_CLASS : Fld := ⟨0x150, 25, 24⟩
def FLT_FATAL_INJ : Fld := ⟨0x150, 26, 26⟩
def FLT_FATAL_SAME : Fld := ⟨0x150, 27, 27⟩
def FLT_FATAL_COINCIDENT : Fld := ⟨0x150, 28, 28⟩
def FLT_FATAL_V : Fld := ⟨0x150, 31, 31⟩
/-! FLT_NEXT, +0x180 and on (R369) -/
def FLT_NEXT_UID (i : Nat) : Fld := ⟨0x180 + 0x8 * i, 15, 0⟩
def FLT_NEXT_CODE (i : Nat) : Fld := ⟨0x180 + 0x8 * i, 23, 16⟩
def FLT_NEXT_CLASS (i : Nat) : Fld := ⟨0x180 + 0x8 * i, 25, 24⟩
def FLT_NEXT_INJ (i : Nat) : Fld := ⟨0x180 + 0x8 * i, 26, 26⟩
def FLT_NEXT_SAME (i : Nat) : Fld := ⟨0x180 + 0x8 * i, 27, 27⟩
def FLT_NEXT_COINCIDENT (i : Nat) : Fld := ⟨0x180 + 0x8 * i, 28, 28⟩
def FLT_NEXT_V (i : Nat) : Fld := ⟨0x180 + 0x8 * i, 31, 31⟩
/-! FLT_FIRST_STAMP, +0x148 (R369) -/
def FLT_FIRST_STAMP_STAMP : Fld := ⟨0x148, 63, 0⟩
/-! FLT_FATAL_STAMP, +0x158 (R369) -/
def FLT_FATAL_STAMP_STAMP : Fld := ⟨0x158, 63, 0⟩
/-! FLT_NEXT_CNT, +0x160 (R369) -/
def FLT_NEXT_CNT_COUNT : Fld := ⟨0x160, 4, 0⟩
def FLT_NEXT_CNT_LOST : Fld := ⟨0x160, 31, 16⟩
/-! FLT_INJ_SEL, +0x200 (R369) -/
def FLT_INJ_SEL_UID : Fld := ⟨0x200, 15, 0⟩
def FLT_INJ_SEL_CODE : Fld := ⟨0x200, 23, 16⟩
def FLT_INJ_SEL_CLASS : Fld := ⟨0x200, 25, 24⟩
def FLT_INJ_SEL_DRY : Fld := ⟨0x200, 26, 26⟩
/-! FLT_INJ_GO, +0x208 (R369) -/
def FLT_INJ_GO_GO : Fld := ⟨0x208, 0, 0⟩
/-! FLT_INJ_STAT, +0x210 (R369) -/
def FLT_INJ_STAT_REFUSED : Fld := ⟨0x210, 0, 0⟩
def FLT_INJ_STAT_COINCIDENT : Fld := ⟨0x210, 1, 1⟩
def FLT_INJ_STAT_COUNT : Fld := ⟨0x210, 31, 16⟩
/-! REC_CFG, +0x040 (R389) -/
def REC_CFG_WIN : Fld := ⟨0x040, 7, 0⟩
/-! REC_CTRL, +0x048 (R389) -/
def REC_CTRL_CLEAR : Fld := ⟨0x048, 0, 0⟩
/-! REC_STAT, +0x050 (R389) -/
def REC_STAT_FULL : Fld := ⟨0x050, 0, 0⟩
def REC_STAT_CLEARING : Fld := ⟨0x050, 1, 1⟩
def REC_STAT_BUSY : Fld := ⟨0x050, 2, 2⟩
def REC_STAT_STAGED : Fld := ⟨0x050, 14, 8⟩
def REC_STAT_NEXT : Fld := ⟨0x050, 53, 32⟩
/-! REC_SEQ_HEAD, +0x058 (R389) -/
def REC_SEQ_HEAD_HEAD : Fld := ⟨0x058, 31, 0⟩
def REC_SEQ_HEAD_CHG : Fld := ⟨0x058, 63, 32⟩
/-! REC_CURSOR, +0x060 (R389) -/
def REC_CURSOR_OFFSET : Fld := ⟨0x060, 21, 3⟩
/-! REC_LOST, +0x068 (R389) -/
def REC_LOST_TOTAL : Fld := ⟨0x068, 31, 0⟩
def REC_LOST_AFTER_FULL : Fld := ⟨0x068, 63, 32⟩
/-! TALLY_CTRL, +0x040 (R391) -/
def TALLY_CTRL_SWEEP : Fld := ⟨0x040, 0, 0⟩
def TALLY_CTRL_CLR : Fld := ⟨0x040, 1, 1⟩
/-! TALLY_CFG, +0x048 (R391) -/
def TALLY_CFG_PERIOD : Fld := ⟨0x048, 15, 0⟩
/-! TALLY_STAT, +0x050 (R391) -/
def TALLY_STAT_BUSY : Fld := ⟨0x050, 0, 0⟩
def TALLY_STAT_HELD : Fld := ⟨0x050, 1, 1⟩
def TALLY_STAT_CFG_REJ : Fld := ⟨0x050, 2, 2⟩
def TALLY_STAT_DROPS : Fld := ⟨0x050, 31, 16⟩
def TALLY_STAT_SWEEPS : Fld := ⟨0x050, 63, 32⟩
/-! TALLY_CSEL, +0x058 (R391) -/
def TALLY_CSEL_BLOCK : Fld := ⟨0x058, 5, 0⟩
def TALLY_CSEL_CTR : Fld := ⟨0x058, 11, 8⟩
/-! TALLY_CCFG, +0x060 (R391) -/
def TALLY_CCFG_N : Fld := ⟨0x060, 19, 0⟩
def TALLY_CCFG_SEL : Fld := ⟨0x060, 28, 24⟩
def TALLY_CCFG_EN : Fld := ⟨0x060, 31, 31⟩
/-! TALLY_CVAL, +0x068 (R391) -/
def TALLY_CVAL_VALUE : Fld := ⟨0x068, 47, 0⟩
/-! TALLY_BUF_ADDR, +0x070 (R391) -/
def TALLY_BUF_ADDR_ENTRY : Fld := ⟨0x070, 8, 0⟩
/-! TALLY_BUF_LO, +0x078 (R391) -/
def TALLY_BUF_LO_VALUE : Fld := ⟨0x078, 47, 0⟩
def TALLY_BUF_LO_BLOCK : Fld := ⟨0x078, 53, 48⟩
def TALLY_BUF_LO_CTR : Fld := ⟨0x078, 59, 56⟩
def TALLY_BUF_LO_V : Fld := ⟨0x078, 60, 60⟩
/-! TALLY_BUF_HI, +0x080 (R391) -/
def TALLY_BUF_HI_STAMP : Fld := ⟨0x080, 63, 0⟩
/-! TR_CTRL, +0x100 and on (R391) -/
def TR_CTRL_RUN (i : Nat) : Fld := ⟨0x100 + 0x20 * i, 0, 0⟩
def TR_CTRL_STOP_FULL (i : Nat) : Fld := ⟨0x100 + 0x20 * i, 1, 1⟩
def TR_CTRL_CLR (i : Nat) : Fld := ⟨0x100 + 0x20 * i, 2, 2⟩
def TR_CTRL_ENG (i : Nat) : Fld := ⟨0x100 + 0x20 * i, 15, 8⟩
/-! TR_CFG, +0x108 and on (R391) -/
def TR_CFG_NTH (i : Nat) : Fld := ⟨0x108 + 0x20 * i, 15, 0⟩
def TR_CFG_LAT_THR (i : Nat) : Fld := ⟨0x108 + 0x20 * i, 31, 16⟩
/-! TR_STAT, +0x110 and on (R391) -/
def TR_STAT_WPTR (i : Nat) : Fld := ⟨0x110 + 0x20 * i, 11, 0⟩
def TR_STAT_WRAPPED (i : Nat) : Fld := ⟨0x110 + 0x20 * i, 12, 12⟩
def TR_STAT_FULL_STOP (i : Nat) : Fld := ⟨0x110 + 0x20 * i, 13, 13⟩
def TR_STAT_KILN_STOP (i : Nat) : Fld := ⟨0x110 + 0x20 * i, 14, 14⟩
def TR_STAT_DROPS (i : Nat) : Fld := ⟨0x110 + 0x20 * i, 47, 32⟩
/-! TR_START, +0x118 and on (R391) -/
def TR_START_STAMP (i : Nat) : Fld := ⟨0x118 + 0x20 * i, 63, 0⟩
/-! WDN_LC, +0x040 (R419) -/
def WDN_LC_STATE : Fld := ⟨0x040, 2, 0⟩
def WDN_LC_SEALED : Fld := ⟨0x040, 3, 3⟩
def WDN_LC_DEBUG : Fld := ⟨0x040, 4, 4⟩
def WDN_LC_HYBRID : Fld := ⟨0x040, 5, 5⟩
def WDN_LC_VENDOR_KEYS : Fld := ⟨0x040, 10, 8⟩
def WDN_LC_OWNER_KEYS : Fld := ⟨0x040, 13, 11⟩
def WDN_LC_SITE_KEYS : Fld := ⟨0x040, 16, 14⟩
def WDN_LC_LEGACY_FLIPS : Fld := ⟨0x040, 21, 17⟩
/-! WDN_FLOOR, +0x048 (R419) -/
def WDN_FLOOR_FLOOR : Fld := ⟨0x048, 7, 0⟩
/-! WDN_RUN, +0x050 (R419) -/
def WDN_RUN_SVN : Fld := ⟨0x050, 7, 0⟩
def WDN_RUN_SLOT : Fld := ⟨0x050, 8, 8⟩
def WDN_RUN_PROBATION : Fld := ⟨0x050, 9, 9⟩
def WDN_RUN_COMMITTED : Fld := ⟨0x050, 10, 10⟩
def WDN_RUN_PROB_LEFT : Fld := ⟨0x050, 25, 16⟩
def WDN_RUN_RELEASE : Fld := ⟨0x050, 63, 32⟩
/-! WDN_NONCE, +0x058 and on (R419) -/
def WDN_NONCE_NONCE (i : Nat) : Fld := ⟨0x058 + 0x8 * i, 63, 0⟩
/-! WDN_SEC_CTRL, +0x078 (R419) -/
def WDN_SEC_CTRL_NONCE_REQ : Fld := ⟨0x078, 0, 0⟩
def WDN_SEC_CTRL_APPLY : Fld := ⟨0x078, 1, 1⟩
/-! WDN_SEC_STAT, +0x080 (R419) -/
def WDN_SEC_STAT_RESULT : Fld := ⟨0x080, 3, 0⟩
def WDN_SEC_STAT_PENDING : Fld := ⟨0x080, 4, 4⟩
def WDN_SEC_STAT_AGE : Fld := ⟨0x080, 25, 16⟩
def WDN_SEC_STAT_APPLIED : Fld := ⟨0x080, 63, 32⟩
/-! WDN_TOK_ADDR, +0x088 (R419) -/
def WDN_TOK_ADDR_WORD : Fld := ⟨0x088, 12, 3⟩
def WDN_TOK_ADDR_BUF : Fld := ⟨0x088, 13, 13⟩
def WDN_TOK_ADDR_AUTOINC : Fld := ⟨0x088, 14, 14⟩
/-! WDN_TOK_DATA, +0x090 (R419) -/
def WDN_TOK_DATA_DATA : Fld := ⟨0x090, 63, 0⟩
/-! WDN_STG_CTRL, +0x098 (R419) -/
def WDN_STG_CTRL_OPEN : Fld := ⟨0x098, 0, 0⟩
def WDN_STG_CTRL_CLOSE : Fld := ⟨0x098, 1, 1⟩
def WDN_STG_CTRL_ABORT : Fld := ⟨0x098, 2, 2⟩
def WDN_STG_CTRL_ACTIVATE : Fld := ⟨0x098, 3, 3⟩
def WDN_STG_CTRL_COMMIT : Fld := ⟨0x098, 4, 4⟩
def WDN_STG_CTRL_REVERT : Fld := ⟨0x098, 5, 5⟩
def WDN_STG_CTRL_SAVE_SET : Fld := ⟨0x098, 6, 6⟩
def WDN_STG_CTRL_SAVE_CAL : Fld := ⟨0x098, 7, 7⟩
/-! WDN_STG_STAT, +0x0A0 (R419) -/
def WDN_STG_STAT_STATE : Fld := ⟨0x0A0, 2, 0⟩
def WDN_STG_STAT_OWNER : Fld := ⟨0x0A0, 4, 3⟩
def WDN_STG_STAT_RES_PF : Fld := ⟨0x0A0, 11, 8⟩
def WDN_STG_STAT_RES_MSPI : Fld := ⟨0x0A0, 15, 12⟩
def WDN_STG_STAT_IDLE : Fld := ⟨0x0A0, 21, 16⟩
/-! WDN_STG_ADDR, +0x0A8 (R419) -/
def WDN_STG_ADDR_OFFSET : Fld := ⟨0x0A8, 25, 0⟩
/-! WDN_STG_DATA, +0x0B0 (R419) -/
def WDN_STG_DATA_DATA : Fld := ⟨0x0B0, 63, 0⟩
/-! WDN_STG_IMG, +0x0B8 (R419) -/
def WDN_STG_IMG_SVN : Fld := ⟨0x0B8, 7, 0⟩
def WDN_STG_IMG_REJ_SET : Fld := ⟨0x0B8, 8, 8⟩
def WDN_STG_IMG_RELEASE : Fld := ⟨0x0B8, 63, 32⟩
/-! WDN_ACT, +0x0C0 (R419) -/
def WDN_ACT_LAST_US : Fld := ⟨0x0C0, 15, 0⟩
def WDN_ACT_IGNORED : Fld := ⟨0x0C0, 31, 16⟩
def WDN_ACT_FALLBACKS : Fld := ⟨0x0C0, 47, 32⟩
/-! WDN_SET, +0x0C8 (R419) -/
def WDN_SET_SCHEMA : Fld := ⟨0x0C8, 15, 0⟩
def WDN_SET_COPY : Fld := ⟨0x0C8, 16, 16⟩
def WDN_SET_IMPORT : Fld := ⟨0x0C8, 18, 17⟩
def WDN_SET_DIFF : Fld := ⟨0x0C8, 47, 32⟩
/-! HOST_BOOT, +0x220 (R444) -/
def HOST_BOOT_BOOT_MODE : Fld := ⟨0x220, 1, 0⟩
def HOST_BOOT_BOOT_BAD : Fld := ⟨0x220, 2, 2⟩
def HOST_BOOT_LAST_RESET : Fld := ⟨0x220, 5, 4⟩
def HOST_BOOT_PHASE : Fld := ⟨0x220, 11, 8⟩
def HOST_BOOT_UP_MS : Fld := ⟨0x220, 31, 16⟩
def HOST_BOOT_EMIT_MS : Fld := ⟨0x220, 47, 32⟩
/-! HOST_VEC, +0x228 (R444) -/
def HOST_VEC_PF_VECS : Fld := ⟨0x228, 11, 0⟩
def HOST_VEC_VF_VECS : Fld := ⟨0x228, 23, 16⟩
def HOST_VEC_LOCKED : Fld := ⟨0x228, 24, 24⟩
def HOST_VEC_REJ : Fld := ⟨0x228, 25, 25⟩
/-! HOST_ROUTE_SEL, +0x230 (R444) -/
def HOST_ROUTE_SEL_ENTRY : Fld := ⟨0x230, 5, 0⟩
/-! HOST_ROUTE, +0x238 (R444) -/
def HOST_ROUTE_LO : Fld := ⟨0x238, 15, 0⟩
def HOST_ROUTE_HI : Fld := ⟨0x238, 31, 16⟩
def HOST_ROUTE_FUNC : Fld := ⟨0x238, 36, 32⟩
def HOST_ROUTE_VEC : Fld := ⟨0x238, 58, 48⟩
def HOST_ROUTE_V : Fld := ⟨0x238, 63, 63⟩
/-! HOST_VF_SEL, +0x240 (R444) -/
def HOST_VF_SEL_VF : Fld := ⟨0x240, 4, 0⟩
def HOST_VF_SEL_RANGE : Fld := ⟨0x240, 7, 5⟩
/-! HOST_VF_UID, +0x248 (R444) -/
def HOST_VF_UID_LO : Fld := ⟨0x248, 15, 0⟩
def HOST_VF_UID_HI : Fld := ⟨0x248, 31, 16⟩
def HOST_VF_UID_RD : Fld := ⟨0x248, 32, 32⟩
def HOST_VF_UID_WR : Fld := ⟨0x248, 33, 33⟩
def HOST_VF_UID_V : Fld := ⟨0x248, 63, 63⟩
/-! HOST_URST, +0x250 (R444) -/
def HOST_URST_UID : Fld := ⟨0x250, 15, 0⟩
def HOST_URST_RESULT : Fld := ⟨0x250, 17, 16⟩
/-! HOST_PCIE, +0x258 (R444) -/
def HOST_PCIE_SPEED : Fld := ⟨0x258, 2, 0⟩
def HOST_PCIE_WIDTH : Fld := ⟨0x258, 7, 4⟩
def HOST_PCIE_NUM_VFS : Fld := ⟨0x258, 12, 8⟩
def HOST_PCIE_VF_EN : Fld := ⟨0x258, 13, 13⟩
def HOST_PCIE_FLRS : Fld := ⟨0x258, 31, 16⟩
def HOST_PCIE_PERSTS : Fld := ⟨0x258, 47, 32⟩
def HOST_PCIE_ERRS : Fld := ⟨0x258, 63, 48⟩
/-! HOST_MSPI, +0x260 (R444) -/
def HOST_MSPI_FRAMES : Fld := ⟨0x260, 31, 0⟩
def HOST_MSPI_ERRS : Fld := ⟨0x260, 47, 32⟩
def HOST_MSPI_BUSY : Fld := ⟨0x260, 63, 48⟩

end F

/-! Offsets of whole registers. -/
namespace R
def UNIT_ID : Nat := 0x000
def UNIT_STATE : Nat := 0x008
def UNIT_CTRL : Nat := 0x010
def UNIT_FAULT : Nat := 0x018
def UNIT_IRQ_EN : Nat := 0x020
def UNIT_IRQ_STAT : Nat := 0x028
def UNIT_COLLIDE : Nat := 0x030
def UNIT_STAMP : Nat := 0x038
def GRP_EDIT : Nat := 0x040
def GRP_STAT : Nat := 0x048
def GRP_LIST (i : Nat) : Nat := 0x100 + 0x8 * i
def ROOT_PART : Nat := 0x040
def ROOT_SERIAL : Nat := 0x048
def ROOT_WORST : Nat := 0x050
def ROOT_SPARE_LANE : Nat := 0x080
def ROOT_SPARE_MC (i : Nat) : Nat := 0x088 + 0x8 * i
def SYNC_CFG : Nat := 0x040
def SYNC_CTRL : Nat := 0x048
def SYNC_STAT : Nat := 0x050
def SYNC_AIR : Nat := 0x058
def SYNC_TE : Nat := 0x060
def SYNC_HO_CFG : Nat := 0x068
def SYNC_OSC : Nat := 0x070
def SYNC_STEER : Nat := 0x078
def SYNC_REF_ADJ : Nat := 0x080
def SYNC_AIR_OFFSET : Nat := 0x088
def SYNC_TRK_CFG : Nat := 0x090
def SYNC_TRK_FREQ : Nat := 0x098
def SYNC_TRK_STAT : Nat := 0x0A0
def SYNC_HFN_SEED : Nat := 0x0A8
def SYNC_TOD : Nat := 0x0B0
def SYNC_PTP_CFG : Nat := 0x0B8
def SYNC_LAST_STEP : Nat := 0x0C0
def SYNC_STEP_STAMP : Nat := 0x0C8
def SYNC_WALL : Nat := 0x0D0
def SYNC_OPSEC : Nat := 0x0D8
def SYNC_TUNE : Nat := 0x0E0
def SYNC_XCHK : Nat := 0x0E8
def PB_CFG : Nat := 0x040
def PB_DN_RX : Nat := 0x048
def PB_DN_TX : Nat := 0x050
def PB_SV_TX0 : Nat := 0x058
def PB_SV_TX1 : Nat := 0x060
def PB_SV_RX0 : Nat := 0x068
def PB_SV_RX1 : Nat := 0x070
def PB_TDD_P1 : Nat := 0x078
def PB_TDD_P2 : Nat := 0x080
def PB_TDD_SWITCH : Nat := 0x088
def PB_STAT : Nat := 0x090
def PB_TDD_APPLIED : Nat := 0x098
def PB_CB_ADDR : Nat := 0x0A0
def PB_CB_DATA : Nat := 0x0A8
def PBD_NCO_RX : Nat := 0x040
def PBD_NCO_TX : Nat := 0x048
def PBD_CTRL : Nat := 0x050
def PBD_STAT : Nat := 0x058
def PBD_GAIN : Nat := 0x060
def PBD_PLAN : Nat := 0x068
def PBD_BEAM : Nat := 0x070
def PBD_CP_OFS : Nat := 0x078
def PBD_FILT : Nat := 0x080
def PBD_FCOEF_ADDR : Nat := 0x088
def PBD_FCOEF_DATA : Nat := 0x090
def PBD_EXT (i : Nat) : Nat := 0x0A0 + 0x8 * i
def RXC_CFG : Nat := 0x040
def RXC_STAT : Nat := 0x048
def RXC_OVR_CNT : Nat := 0x050
def RXC_OVR_STAMP : Nat := 0x058
def RXC_SLICE : Nat := 0x060
def RXC_CAL_ADDR : Nat := 0x068
def RXC_CAL_DATA : Nat := 0x070
def TXC_CFG : Nat := 0x040
def TXC_STAT : Nat := 0x048
def TXC_OCLIP_CNT : Nat := 0x050
def SY_CFG : Nat := 0x040
def SY_HOP : Nat := 0x048
def SY_STAT : Nat := 0x050
def SY_FREQ : Nat := 0x058
def SY_CAL_ADDR : Nat := 0x060
def SY_CAL_DATA0 : Nat := 0x068
def SY_CAL_DATA1 : Nat := 0x070
def ORX_CTRL : Nat := 0x040
def ORX_SW : Nat := 0x048
def ORX_STAT : Nat := 0x050
def ORX_DWELL (i : Nat) : Nat := 0x080 + 0x8 * i
def CC_STAT : Nat := 0x040
def CC_RFFE (i : Nat) : Nat := 0x048 + 0x8 * i
def CC_RFFE_STAT : Nat := 0x068
def CC_SEQ_ADDR : Nat := 0x070
def CC_SEQ_DATA : Nat := 0x078
def CC_RFFE_CMD : Nat := 0x088
def CC_SEQ_TIME : Nat := 0x080
def CC_RFFE_RESP : Nat := 0x090
def CC_STB_LEVEL : Nat := 0x098
def CC_STB_SET : Nat := 0x0A0
def CC_SEQ_GO : Nat := 0x0A8
def CC_STB_CFG (i : Nat) : Nat := 0x100 + 0x8 * i
def CL_STAT : Nat := 0x040
def CL_CAP : Nat := 0x048
def CL_MBANK : Nat := 0x050
def CL_MB_ADDR : Nat := 0x058
def CL_MB_DATA : Nat := 0x060
def CL_MB_CTRL : Nat := 0x068
def CL_MB_STAT : Nat := 0x070
def LANE_CFG : Nat := 0x040
def LANE_WIN (i : Nat) : Nat := 0x048 + 0x8 * i
def LANE_ADAPT : Nat := 0x068
def LANE_MODEL : Nat := 0x070
def LANE_KEY : Nat := 0x078
def LANE_PF : Nat := 0x080
def LANE_CMD : Nat := 0x088
def LANE_STAT : Nat := 0x090
def LANE_RESID : Nat := 0x098
def LANE_SWAP_STAMP : Nat := 0x0A0
def LANE_LATE_STAMP : Nat := 0x0A8
def LANE_TAP_ADDR : Nat := 0x0B0
def LANE_TAP_DATA : Nat := 0x0B8
def PBD_PROBE_CFG : Nat := 0x140
def PBD_PROBE_STAT : Nat := 0x148
def PBD_PROBE_ISO : Nat := 0x150
def PBD_PROBE_PUB : Nat := 0x158
def LOOP_PBD_CTRL : Nat := 0x160
def LOOP_PBD_STAT : Nat := 0x168
def LOOP_PBD_OUT : Nat := 0x170
def LOOP_SUPV : Nat := 0x178
def LOOP_SUPV_MAP : Nat := 0x180
def LOOP_RAMP : Nat := 0x188
def LOOP_CTRL (i : Nat) : Nat := 0x200 + 0x40 * i
def LOOP_SRC (i : Nat) : Nat := 0x208 + 0x40 * i
def LOOP_SETPT (i : Nat) : Nat := 0x210 + 0x40 * i
def LOOP_KP (i : Nat) : Nat := 0x218 + 0x40 * i
def LOOP_KI_KFF (i : Nat) : Nat := 0x220 + 0x40 * i
def LOOP_STAT (i : Nat) : Nat := 0x228 + 0x40 * i
def LOOP_OUT (i : Nat) : Nat := 0x230 + 0x40 * i
def LOOP_TUNE (i : Nat) : Nat := 0x238 + 0x40 * i
def LE_STAT : Nat := 0x040
def LE_PEAK : Nat := 0x048
def LE_MISS_CNT : Nat := 0x050
def LE_LUT_ADDR : Nat := 0x058
def LE_LUT_DATA : Nat := 0x060
def LE_BF_ADDR : Nat := 0x068
def LE_BF_DATA : Nat := 0x070
def MC_TAP : Nat := 0x040
def MC_CFG : Nat := 0x048
def MC_CTRL : Nat := 0x050
def MC_STAT : Nat := 0x058
def MC_RMS : Nat := 0x060
def MC_PEAK : Nat := 0x068
def MC_ENV : Nat := 0x070
def MC_STAMP : Nat := 0x078
def MC_PEAK_HOLD : Nat := 0x080
def MC_CAL : Nat := 0x088
def MC_COEF_ADDR : Nat := 0x090
def MC_COEF_DATA : Nat := 0x098
def MC_SYNC_STAMP : Nat := 0x0A0
def PROT_CFG : Nat := 0x190
def PROT_OSC : Nat := 0x198
def PROT_CTRL : Nat := 0x1A0
def PROT_STAT : Nat := 0x1A8
def PROT_DUE : Nat := 0x1B0
def PROT_SQ_STAMP : Nat := 0x1B8
def PROT_NRG_CFG : Nat := 0x1C0
def PROT_NRG_PATH : Nat := 0x1C8
def PROT_NRG_HOST : Nat := 0x1D0
def PROT_NRG_STAT : Nat := 0x1D8
def PROT_FL_CFG : Nat := 0x1E0
def PROT_FL_STAT : Nat := 0x1E8
def ORX_EMW_CFG : Nat := 0x058
def ORX_EMW_STAT : Nat := 0x060
def ORX_EMW_LIM (i : Nat) : Nat := 0x100 + 0x8 * i
def ROOT_SQUALL : Nat := 0x0C0
def ROOT_SQ_STAMP : Nat := 0x0C8
def CE_CFG : Nat := 0x040
def CE_PART : Nat := 0x048
def CE_VEC : Nat := 0x050
def CE_WDOG : Nat := 0x058
def CE_DWIN_BASE : Nat := 0x060
def CE_DWIN_SIZE : Nat := 0x068
def CE_USER_CTRL : Nat := 0x070
def CE_USER_ENTRY : Nat := 0x078
def CE_UMASK (i : Nat) : Nat := 0x080 + 0x8 * i
def CE_STAT : Nat := 0x100
def CE_EXC : Nat := 0x108
def CE_EXC_PC : Nat := 0x110
def CE_EXC_VAL : Nat := 0x118
def CE_RETIRED : Nat := 0x120
def CE_IMEM_ADDR : Nat := 0x128
def CE_IMEM_DATA : Nat := 0x130
def CE_DMEM_ADDR : Nat := 0x138
def CE_DMEM_DATA : Nat := 0x140
def DSP_CFG : Nat := 0x040
def DSP_STAT : Nat := 0x048
def DSP_LATE_CNT : Nat := 0x050
def DSP_REJ_CNT : Nat := 0x058
def DSP_PEAK : Nat := 0x060
def DSP_HORIZON : Nat := 0x068
def DSP_OVF : Nat := 0x070
def DSP_LAST_EXP : Nat := 0x078
def DSP_LAST_EXP_STAMP : Nat := 0x080
def DSP_CANCEL : Nat := 0x088
def DSP_RING_SEL : Nat := 0x090
def DSP_RING_D0 : Nat := 0x098
def DSP_RING_D1 : Nat := 0x0A0
def DSP_RING_D2 : Nat := 0x0A8
def DSP_RING_D3 : Nat := 0x0B0
def DSP_CTX_SEL : Nat := 0x0B8
def DSP_CTX_DATA (i : Nat) : Nat := 0x0C0 + 0x8 * i
def FH_CFG : Nat := 0x040
def FH_MAC : Nat := 0x048
def FH_STAT : Nat := 0x050
def FH_LANE : Nat := 0x058
def FH_BUDGET : Nat := 0x060
def FH_TX_CNT : Nat := 0x068
def FH_RX_CNT : Nat := 0x070
def FH_FEC : Nat := 0x078
def FH_UNKNOWN : Nat := 0x080
def FH_UNKNOWN_CNT : Nat := 0x088
def HD_SERIAL : Nat := 0x040
def HD_BIND : Nat := 0x048
def HD_CFG : Nat := 0x050
def HD_CTRL : Nat := 0x058
def HD_CAP : Nat := 0x060
def HD_HEAD_LAT : Nat := 0x068
def HD_LAT : Nat := 0x070
def HD_PATH : Nat := 0x078
def HD_STAT : Nat := 0x080
def HD_HEALTH : Nat := 0x088
def HD_MAC : Nat := 0x090
def HD_GPIO : Nat := 0x098
def HD_FLOW (i : Nat) : Nat := 0x100 + 0x8 * i
def HS_STAT : Nat := 0x040
def HS_ECC : Nat := 0x048
def HS_SCRUB : Nat := 0x050
def MEM_REGION (i : Nat) : Nat := 0x060 + 0x8 * i
def PC_STAT : Nat := 0x040
def PC_ECC : Nat := 0x048
def PC_ERR_ADDR : Nat := 0x050
def PC_REPAIR : Nat := 0x058
def CEL_CTRL : Nat := 0x040
def CEL_CFG : Nat := 0x048
def CEL_STAT : Nat := 0x050
def CEL_TRIG : Nat := 0x058
def CEL_TRIG_STAMP : Nat := 0x060
def CEL_GEOM : Nat := 0x068
def CEL_SEQ : Nat := 0x070
def CEL_OLDEST : Nat := 0x078
def CEL_NEWEST : Nat := 0x080
def CEL_POST : Nat := 0x088
def CEL_SADDR : Nat := 0x090
def CEL_SDATA : Nat := 0x098
def CEL_WIN : Nat := 0x0A0
def CEL_RPL_CFG : Nat := 0x0A8
def CEL_RPL_FROM : Nat := 0x0B0
def CEL_RPL_STAT : Nat := 0x0B8
def MON_CFG : Nat := 0x040
def MON_REF_EN : Nat := 0x048
def MON_SEL : Nat := 0x050
def MON_START : Nat := 0x058
def MON_TRIG : Nat := 0x060
def MON_DATA : Nat := 0x068
def MON_DATA_STAMP : Nat := 0x070
def MON_STAT : Nat := 0x078
def MON_DROP : Nat := 0x080
def MON_SEQ_CNT : Nat := 0x088
def MON_REG_STAMP : Nat := 0x090
def MON_INJ_STAMP : Nat := 0x098
def MON_BURST : Nat := 0x0A0
def MON_BUF_ADDR : Nat := 0x0A8
def MON_BUF_DATA : Nat := 0x0B0
def MON_BURST_STAMP : Nat := 0x0B8
def MON_REG (i : Nat) : Nat := 0x100 + 0x8 * i
def MON_INJ (i : Nat) : Nat := 0x180 + 0x8 * i
def MON_REG_RES (i : Nat) : Nat := 0x200 + 0x8 * i
def MON_INJ_RES (i : Nat) : Nat := 0x280 + 0x8 * i
def MON_WC_CFG (i : Nat) : Nat := 0x300 + 0x10 * i
def MON_WC_STAT (i : Nat) : Nat := 0x308 + 0x10 * i
def LOOP_THERM : Nat := 0x1F0
def KILN_CFG : Nat := 0x040
def KILN_CTRL : Nat := 0x048
def KILN_STAT : Nat := 0x050
def KILN_THR_STAMP : Nat := 0x058
def KILN_OFF_STAMP : Nat := 0x060
def KILN_RATE : Nat := 0x068
def PWR_STAT (i : Nat) : Nat := 0x080 + 0x8 * i
def PWR_INFO : Nat := 0x0A8
def TS_READ : Nat := 0x040
def TS_NBR : Nat := 0x048
def TS_STAT : Nat := 0x050
def FLT_MODE : Nat := 0x100
def FLT_CFG : Nat := 0x108
def FLT_CTRL : Nat := 0x110
def FLT_COLLECT : Nat := 0x118
def FLT_COLLECT_INFO : Nat := 0x120
def FLT_COLLECT_STAMP : Nat := 0x128
def FLT_PIN : Nat := 0x130
def FLT_PIN_MASK : Nat := 0x138
def FLT_FIRST : Nat := 0x140
def FLT_FATAL : Nat := 0x150
def FLT_NEXT (i : Nat) : Nat := 0x180 + 0x8 * i
def FLT_FIRST_STAMP : Nat := 0x148
def FLT_FATAL_STAMP : Nat := 0x158
def FLT_NEXT_CNT : Nat := 0x160
def FLT_INJ_SEL : Nat := 0x200
def FLT_INJ_GO : Nat := 0x208
def FLT_INJ_STAT : Nat := 0x210
def REC_CFG : Nat := 0x040
def REC_CTRL : Nat := 0x048
def REC_STAT : Nat := 0x050
def REC_SEQ_HEAD : Nat := 0x058
def REC_CURSOR : Nat := 0x060
def REC_LOST : Nat := 0x068
def TALLY_CTRL : Nat := 0x040
def TALLY_CFG : Nat := 0x048
def TALLY_STAT : Nat := 0x050
def TALLY_CSEL : Nat := 0x058
def TALLY_CCFG : Nat := 0x060
def TALLY_CVAL : Nat := 0x068
def TALLY_BUF_ADDR : Nat := 0x070
def TALLY_BUF_LO : Nat := 0x078
def TALLY_BUF_HI : Nat := 0x080
def TR_CTRL (i : Nat) : Nat := 0x100 + 0x20 * i
def TR_CFG (i : Nat) : Nat := 0x108 + 0x20 * i
def TR_STAT (i : Nat) : Nat := 0x110 + 0x20 * i
def TR_START (i : Nat) : Nat := 0x118 + 0x20 * i
def WDN_LC : Nat := 0x040
def WDN_FLOOR : Nat := 0x048
def WDN_RUN : Nat := 0x050
def WDN_NONCE (i : Nat) : Nat := 0x058 + 0x8 * i
def WDN_SEC_CTRL : Nat := 0x078
def WDN_SEC_STAT : Nat := 0x080
def WDN_TOK_ADDR : Nat := 0x088
def WDN_TOK_DATA : Nat := 0x090
def WDN_STG_CTRL : Nat := 0x098
def WDN_STG_STAT : Nat := 0x0A0
def WDN_STG_ADDR : Nat := 0x0A8
def WDN_STG_DATA : Nat := 0x0B0
def WDN_STG_IMG : Nat := 0x0B8
def WDN_ACT : Nat := 0x0C0
def WDN_SET : Nat := 0x0C8
def HOST_BOOT : Nat := 0x220
def HOST_VEC : Nat := 0x228
def HOST_ROUTE_SEL : Nat := 0x230
def HOST_ROUTE : Nat := 0x238
def HOST_VF_SEL : Nat := 0x240
def HOST_VF_UID : Nat := 0x248
def HOST_URST : Nat := 0x250
def HOST_PCIE : Nat := 0x258
def HOST_MSPI : Nat := 0x260
end R

/-- Registers of the unit header. -/
def regsHdr : List RegDef := [
  ⟨0x000, 1, 0x8, [⟨15, 0, .ro, (fun _ _ => 0), .any⟩,
    ⟨23, 16, .ro, (fun _ _ => 0), .any⟩,
    ⟨31, 24, .ro, (fun _ _ => 0), .any⟩,
    ⟨47, 32, .ro, (fun _ _ => 0), .any⟩]⟩,
  ⟨0x008, 1, 0x8, [⟨3, 0, .ro, (fun _ _ => 0), .any⟩,
    ⟨7, 4, .ro, (fun _ _ => 0), .any⟩,
    ⟨15, 8, .ro, (fun _ _ => 0), .any⟩,
    ⟨63, 32, .ro, (fun _ _ => 0), .any⟩]⟩,
  ⟨0x010, 1, 0x8, [⟨0, 0, .rw, (fun _ _ => 0), .any⟩,
    ⟨1, 1, .wo, (fun _ _ => 0), .any⟩,
    ⟨2, 2, .wo, (fun _ _ => 0), .any⟩,
    ⟨3, 3, .rw, (fun _ _ => 0), .any⟩,
    ⟨4, 4, .rw, (fun _ _ => 0), .any⟩]⟩,
  ⟨0x018, 1, 0x8, [⟨7, 0, .ro, (fun _ _ => 0), .any⟩,
    ⟨9, 8, .ro, (fun _ _ => 0), .any⟩,
    ⟨16, 16, .w1c, (fun _ _ => 0), .any⟩,
    ⟨17, 17, .w1c, (fun _ _ => 0), .any⟩,
    ⟨18, 18, .ro, (fun _ _ => 0), .any⟩,
    ⟨47, 32, .ro, (fun _ _ => 0), .any⟩,
    ⟨48, 48, .wo, (fun _ _ => 0), .any⟩]⟩,
  ⟨0x020, 1, 0x8, [⟨0, 0, .rw, (fun _ _ => 0), .any⟩,
    ⟨1, 1, .rw, (fun _ _ => 0), .any⟩,
    ⟨2, 2, .rw, (fun _ _ => 0), .any⟩,
    ⟨3, 3, .rw, (fun _ _ => 0), .any⟩,
    ⟨4, 4, .rw, (fun _ _ => 0), .any⟩,
    ⟨47, 16, .rw, (fun _ _ => 0), .any⟩]⟩,
  ⟨0x028, 1, 0x8, [⟨0, 0, .w1c, (fun _ _ => 0), .any⟩,
    ⟨1, 1, .w1c, (fun _ _ => 0), .any⟩,
    ⟨2, 2, .w1c, (fun _ _ => 0), .any⟩,
    ⟨3, 3, .w1c, (fun _ _ => 0), .any⟩,
    ⟨4, 4, .w1c, (fun _ _ => 0), .any⟩,
    ⟨47, 16, .w1c, (fun _ _ => 0), .any⟩]⟩,
  ⟨0x030, 1, 0x8, [⟨31, 0, .ro, (fun _ _ => 0), .any⟩,
    ⟨41, 32, .ro, (fun _ _ => 0), .any⟩]⟩,
  ⟨0x038, 1, 0x8, [⟨63, 0, .ro, (fun _ _ => 0), .any⟩]⟩]

/-- Registers of the kind 0x20 page. -/
def regsGrp : List RegDef := [
  ⟨0x040, 1, 0x8, [⟨15, 0, .wo, (fun _ _ => 0), .any⟩,
    ⟨17, 16, .wo, (fun _ _ => 0), .any⟩]⟩,
  ⟨0x048, 1, 0x8, [⟨7, 0, .ro, (fun _ _ => 0), .any⟩,
    ⟨11, 8, .ro, (fun _ _ => 0), .any⟩,
    ⟨19, 16, .ro, (fun _ _ => 0), .any⟩,
    ⟨47, 32, .ro, (fun _ _ => 0), .any⟩,
    ⟨63, 48, .ro, (fun _ _ => 0), .any⟩]⟩,
  ⟨0x100, 64, 0x8, [⟨15, 0, .ro, (fun _ _ => 0), .any⟩,
    ⟨31, 16, .ro, (fun _ _ => 0), .any⟩,
    ⟨47, 32, .ro, (fun _ _ => 0), .any⟩,
    ⟨63, 48, .ro, (fun _ _ => 0), .any⟩]⟩]

/-- Registers of the kind 0x01 page. -/
def regsRoot : List RegDef := [
  ⟨0x040, 1, 0x8, [⟨31, 0, .ro, (fun _ _ => 0x43583900), .any⟩,
    ⟨47, 32, .ro, (fun _ _ => 296), .any⟩,
    ⟨55, 48, .ro, (fun _ _ => 0), .any⟩]⟩,
  ⟨0x048, 1, 0x8, [⟨63, 0, .ro, (fun _ _ => 0), .any⟩]⟩,
  ⟨0x050, 1, 0x8, [⟨3, 0, .ro, (fun _ _ => 0), .any⟩,
    ⟨31, 16, .ro, (fun _ _ => 0), .any⟩]⟩,
  ⟨0x080, 1, 0x8, [⟨4, 0, .ro, (fun _ _ => 0), .any⟩,
    ⟨12, 8, .ro, (fun _ _ => 0), .any⟩,
    ⟨20, 16, .ro, (fun _ _ => 0), .any⟩,
    ⟨28, 24, .ro, (fun _ _ => 0), .any⟩,
    ⟨36, 32, .ro, (fun _ _ => 0), .any⟩,
    ⟨44, 40, .ro, (fun _ _ => 0), .any⟩,
    ⟨52, 48, .ro, (fun _ _ => 0), .any⟩,
    ⟨60, 56, .ro, (fun _ _ => 0), .any⟩,
    ⟨7, 7, .ro, (fun _ _ => 0), .any⟩,
    ⟨15, 15, .ro, (fun _ _ => 0), .any⟩,
    ⟨23, 23, .ro, (fun _ _ => 0), .any⟩,
    ⟨31, 31, .ro, (fun _ _ => 0), .any⟩,
    ⟨39, 39, .ro, (fun _ _ => 0), .any⟩,
    ⟨47, 47, .ro, (fun _ _ => 0), .any⟩,
    ⟨55, 55, .ro, (fun _ _ => 0), .any⟩,
    ⟨63, 63, .ro, (fun _ _ => 0), .any⟩]⟩,
  ⟨0x088, 6, 0x8, [⟨8, 0, .ro, (fun _ _ => 0), .any⟩,
    ⟨24, 16, .ro, (fun _ _ => 0), .any⟩,
    ⟨40, 32, .ro, (fun _ _ => 0), .any⟩,
    ⟨56, 48, .ro, (fun _ _ => 0), .any⟩,
    ⟨15, 15, .ro, (fun _ _ => 0), .any⟩,
    ⟨31, 31, .ro, (fun _ _ => 0), .any⟩,
    ⟨47, 47, .ro, (fun _ _ => 0), .any⟩,
    ⟨63, 63, .ro, (fun _ _ => 0), .any⟩]⟩,
  ⟨0x0C0, 1, 0x8, [⟨0, 0, .wo, (fun _ _ => 0), .any⟩,
    ⟨1, 1, .wo, (fun _ _ => 0), .any⟩,
    ⟨8, 8, .ro, (fun _ _ => 0), .any⟩,
    ⟨16, 16, .ro, (fun _ _ => 0), .any⟩,
    ⟨17, 17, .ro, (fun _ _ => 0), .any⟩,
    ⟨18, 18, .ro, (fun _ _ => 0), .any⟩,
    ⟨19, 19, .ro, (fun _ _ => 0), .any⟩]⟩,
  ⟨0x0C8, 1, 0x8, [⟨63, 0, .ro, (fun _ _ => 0), .any⟩]⟩,
  ⟨0x100, 1, 0x8, [⟨0, 0, .ro, (fun _ _ => 0), .any⟩,
    ⟨1, 1, .ro, (fun _ _ => 0), .any⟩,
    ⟨2, 2, .ro, (fun _ _ => 0), .any⟩,
    ⟨3, 3, .w1c, (fun _ _ => 0), .any⟩]⟩,
  ⟨0x108, 1, 0x8, [⟨0, 0, .rw, (fun _ _ => 0), .any⟩,
    ⟨1, 1, .rw, (fun _ _ => 0), .any⟩,
    ⟨2, 2, .rw, (fun _ _ => 0), .any⟩]⟩,
  ⟨0x110, 1, 0x8, [⟨0, 0, .wo, (fun _ _ => 0), .any⟩,
    ⟨1, 1, .wo, (fun _ _ => 0), .any⟩,
    ⟨2, 2, .wo, (fun _ _ => 0), .any⟩]⟩,
  ⟨0x118, 1, 0x8, [⟨63, 0, .ro, (fun _ _ => 0), .any⟩]⟩,
  ⟨0x120, 1, 0x8, [⟨1, 0, .ro, (fun _ _ => 1), .any⟩,
    ⟨13, 8, .ro, (fun _ _ => 0), .any⟩,
    ⟨14, 14, .ro, (fun _ _ => 0), .any⟩,
    ⟨15, 15, .ro, (fun _ _ => 0), .any⟩]⟩,
  ⟨0x128, 1, 0x8, [⟨63, 0, .ro, (fun _ _ => 0), .any⟩]⟩,
  ⟨0x130, 1, 0x8, [⟨0, 0, .rw, (fun _ _ => 0), .any⟩,
    ⟨1, 1, .ro, (fun _ _ => 0), .any⟩,
    ⟨2, 2, .ro, (fun _ _ => 0), .any⟩,
    ⟨31, 16, .ro, (fun _ _ => 0), .any⟩]⟩,
  ⟨0x138, 1, 0x8, [⟨63, 0, .rw, (fun _ _ => 0), .any⟩]⟩,
  ⟨0x140, 1, 0x8, [⟨15, 0, .ro, (fun _ _ => 0), .any⟩,
    ⟨23, 16, .ro, (fun _ _ => 0), .any⟩,
    ⟨25, 24, .ro, (fun _ _ => 0), .any⟩,
    ⟨26, 26, .ro, (fun _ _ => 0), .any⟩,
    ⟨27, 27, .ro, (fun _ _ => 0), .any⟩,
    ⟨28, 28, .ro, (fun _ _ => 0), .any⟩,
    ⟨31, 31, .ro, (fun _ _ => 0), .any⟩]⟩,
  ⟨0x150, 1, 0x8, [⟨15, 0, .ro, (fun _ _ => 0), .any⟩,
    ⟨23, 16, .ro, (fun _ _ => 0), .any⟩,
    ⟨25, 24, .ro, (fun _ _ => 0), .any⟩,
    ⟨26, 26, .ro, (fun _ _ => 0), .any⟩,
    ⟨27, 27, .ro, (fun _ _ => 0), .any⟩,
    ⟨28, 28, .ro, (fun _ _ => 0), .any⟩,
    ⟨31, 31, .ro, (fun _ _ => 0), .any⟩]⟩,
  ⟨0x180, 16, 0x8, [⟨15, 0, .ro, (fun _ _ => 0), .any⟩,
    ⟨23, 16, .ro, (fun _ _ => 0), .any⟩,
    ⟨25, 24, .ro, (fun _ _ => 0), .any⟩,
    ⟨26, 26, .ro, (fun _ _ => 0), .any⟩,
    ⟨27, 27, .ro, (fun _ _ => 0), .any⟩,
    ⟨28, 28, .ro, (fun _ _ => 0), .any⟩,
    ⟨31, 31, .ro, (fun _ _ => 0), .any⟩]⟩,
  ⟨0x148, 1, 0x8, [⟨63, 0, .ro, (fun _ _ => 0), .any⟩]⟩,
  ⟨0x158, 1, 0x8, [⟨63, 0, .ro, (fun _ _ => 0), .any⟩]⟩,
  ⟨0x160, 1, 0x8, [⟨4, 0, .ro, (fun _ _ => 0), .any⟩,
    ⟨31, 16, .ro, (fun _ _ => 0), .any⟩]⟩,
  ⟨0x200, 1, 0x8, [⟨15, 0, .rw, (fun _ _ => 0), .any⟩,
    ⟨23, 16, .rw, (fun _ _ => 0), .any⟩,
    ⟨25, 24, .rw, (fun _ _ => 0), .any⟩,
    ⟨26, 26, .rw, (fun _ _ => 1), .any⟩]⟩,
  ⟨0x208, 1, 0x8, [⟨0, 0, .wo, (fun _ _ => 0), .any⟩]⟩,
  ⟨0x210, 1, 0x8, [⟨0, 0, .w1c, (fun _ _ => 0), .any⟩,
    ⟨1, 1, .w1c, (fun _ _ => 0), .any⟩,
    ⟨31, 16, .ro, (fun _ _ => 0), .any⟩]⟩,
  ⟨0x220, 1, 0x8, [⟨1, 0, .ro, (fun _ _ => 0), .any⟩,
    ⟨2, 2, .ro, (fun _ _ => 0), .any⟩,
    ⟨5, 4, .ro, (fun _ _ => 0), .any⟩,
    ⟨11, 8, .ro, (fun _ _ => 0), .any⟩,
    ⟨31, 16, .ro, (fun _ _ => 0), .any⟩,
    ⟨47, 32, .ro, (fun _ _ => 0xffff), .any⟩]⟩,
  ⟨0x228, 1, 0x8, [⟨11, 0, .rw, (fun _ _ => 2048), .any⟩,
    ⟨23, 16, .rw, (fun _ _ => 0), .u 0 128⟩,
    ⟨24, 24, .ro, (fun _ _ => 0), .any⟩,
    ⟨25, 25, .w1c, (fun _ _ => 0), .any⟩]⟩,
  ⟨0x230, 1, 0x8, [⟨5, 0, .rw, (fun _ _ => 0), .any⟩]⟩,
  ⟨0x238, 1, 0x8, [⟨15, 0, .rw, (fun _ _ => 0), .any⟩,
    ⟨31, 16, .rw, (fun _ _ => 0), .any⟩,
    ⟨36, 32, .rw, (fun _ _ => 0), .any⟩,
    ⟨58, 48, .rw, (fun _ _ => 0), .any⟩,
    ⟨63, 63, .rw, (fun _ _ => 0), .any⟩]⟩,
  ⟨0x240, 1, 0x8, [⟨4, 0, .rw, (fun _ _ => 1), .any⟩,
    ⟨7, 5, .rw, (fun _ _ => 0), .any⟩]⟩,
  ⟨0x248, 1, 0x8, [⟨15, 0, .rw, (fun _ _ => 0), .any⟩,
    ⟨31, 16, .rw, (fun _ _ => 0), .any⟩,
    ⟨32, 32, .rw, (fun _ _ => 0), .any⟩,
    ⟨33, 33, .rw, (fun _ _ => 0), .any⟩,
    ⟨63, 63, .rw, (fun _ _ => 0), .any⟩]⟩,
  ⟨0x250, 1, 0x8, [⟨15, 0, .wo, (fun _ _ => 0), .any⟩,
    ⟨17, 16, .ro, (fun _ _ => 0), .any⟩]⟩,
  ⟨0x258, 1, 0x8, [⟨2, 0, .ro, (fun _ _ => 0), .any⟩,
    ⟨7, 4, .ro, (fun _ _ => 0), .any⟩,
    ⟨12, 8, .ro, (fun _ _ => 0), .any⟩,
    ⟨13, 13, .ro, (fun _ _ => 0), .any⟩,
    ⟨31, 16, .ro, (fun _ _ => 0), .any⟩,
    ⟨47, 32, .ro, (fun _ _ => 0), .any⟩,
    ⟨63, 48, .ro, (fun _ _ => 0), .any⟩]⟩,
  ⟨0x260, 1, 0x8, [⟨31, 0, .ro, (fun _ _ => 0), .any⟩,
    ⟨47, 32, .ro, (fun _ _ => 0), .any⟩,
    ⟨63, 48, .ro, (fun _ _ => 0), .any⟩]⟩]

/-- Registers of the kind 0x18 page. -/
def regsSync : List RegDef := [
  ⟨0x040, 1, 0x8, [⟨0, 0, .rw, (fun _ _ => 0), .any⟩,
    ⟨1, 1, .rw, (fun _ _ => 0), .any⟩,
    ⟨2, 2, .rw, (fun _ _ => 0), .any⟩,
    ⟨9, 8, .rw, (fun _ _ => 0), .any⟩,
    ⟨11, 10, .rw, (fun _ _ => 0), .any⟩,
    ⟨13, 12, .rw, (fun _ _ => 0), .any⟩,
    ⟨16, 16, .rw, (fun _ _ => 0), .any⟩,
    ⟨17, 17, .rw, (fun _ _ => 0), .any⟩]⟩,
  ⟨0x048, 1, 0x8, [⟨0, 0, .wo, (fun _ _ => 0), .any⟩]⟩,
  ⟨0x050, 1, 0x8, [⟨1, 0, .ro, (fun _ _ => 0), .any⟩,
    ⟨5, 4, .ro, (fun _ _ => 0), .any⟩,
    ⟨8, 8, .ro, (fun _ _ => 0), .any⟩,
    ⟨9, 9, .ro, (fun _ _ => 0), .any⟩,
    ⟨10, 10, .ro, (fun _ _ => 0), .any⟩,
    ⟨11, 11, .ro, (fun _ _ => 0), .any⟩,
    ⟨12, 12, .ro, (fun _ _ => 0), .any⟩,
    ⟨47, 32, .ro, (fun _ _ => 0), .any⟩]⟩,
  ⟨0x058, 1, 0x8, [⟨63, 0, .ro, (fun _ _ => 0), .any⟩]⟩,
  ⟨0x060, 1, 0x8, [⟨31, 0, .ro, (fun _ _ => 0xffffffff), .any⟩,
    ⟨63, 32, .ro, (fun _ _ => 0), .any⟩]⟩,
  ⟨0x068, 1, 0x8, [⟨9, 0, .rw, (fun _ _ => 400), .u 100 1000⟩,
    ⟨22, 16, .rw, (fun _ _ => 10), .u 1 100⟩]⟩,
  ⟨0x070, 1, 0x8, [⟨15, 0, .rw, (fun _ _ => 1000), .u 1 65535⟩,
    ⟨47, 32, .rw, (fun _ _ => 1000), .u 1 65535⟩]⟩,
  ⟨0x078, 1, 0x8, [⟨9, 0, .rw, (fun _ _ => 100), .u 10 1000⟩,
    ⟨29, 16, .rw, (fun _ _ => 1000), .u 100 10000⟩,
    ⟨39, 32, .rw, (fun _ _ => 10), .u 1 255⟩]⟩,
  ⟨0x080, 1, 0x8, [⟨17, 0, .rw, (fun _ _ => 0), .s (-65536) 65535⟩]⟩,
  ⟨0x088, 1, 0x8, [⟨25, 0, .rw, (fun _ _ => 0), .s (-19660799) 19660799⟩]⟩,
  ⟨0x090, 1, 0x8, [⟨15, 0, .rw, (fun _ _ => 0), .any⟩,
    ⟨16, 16, .rw, (fun _ _ => 0), .any⟩,
    ⟨17, 17, .rw, (fun _ _ => 0), .any⟩,
    ⟨28, 24, .rw, (fun _ _ => 31), .any⟩,
    ⟨34, 32, .rw, (fun _ _ => 2), .any⟩,
    ⟨57, 48, .rw, (fun _ _ => 0), .any⟩,
    ⟨58, 58, .rw, (fun _ _ => 1), .any⟩]⟩,
  ⟨0x098, 1, 0x8, [⟨31, 0, .rw, (fun _ _ => 0), .any⟩]⟩,
  ⟨0x0A0, 1, 0x8, [⟨9, 0, .ro, (fun _ _ => 0), .any⟩,
    ⟨19, 10, .ro, (fun _ _ => 0), .any⟩,
    ⟨20, 20, .ro, (fun _ _ => 0), .any⟩,
    ⟨29, 24, .ro, (fun _ _ => 0), .any⟩,
    ⟨47, 32, .ro, (fun _ _ => 0x8000), .any⟩,
    ⟨63, 48, .ro, (fun _ _ => 0), .any⟩]⟩,
  ⟨0x0A8, 1, 0x8, [⟨9, 0, .rw, (fun _ _ => 0), .any⟩,
    ⟨28, 10, .rw, (fun _ _ => 0), .any⟩]⟩,
  ⟨0x0B0, 1, 0x8, [⟨39, 0, .rw, (fun _ _ => 0), .any⟩,
    ⟨63, 63, .rw, (fun _ _ => 0), .any⟩]⟩,
  ⟨0x0B8, 1, 0x8, [⟨2, 0, .rw, (fun _ _ => 0), .any⟩,
    ⟨15, 8, .rw, (fun _ _ => 24), .u 24 43⟩,
    ⟨23, 16, .rw, (fun _ _ => 128), .any⟩,
    ⟨31, 24, .rw, (fun _ _ => 0), .any⟩]⟩,
  ⟨0x0C0, 1, 0x8, [⟨63, 0, .ro, (fun _ _ => 0), .any⟩]⟩,
  ⟨0x0C8, 1, 0x8, [⟨63, 0, .ro, (fun _ _ => 0), .any⟩]⟩,
  ⟨0x0D0, 1, 0x8, [⟨47, 0, .rw, (fun _ _ => 0), .any⟩,
    ⟨63, 63, .ro, (fun _ _ => 0), .any⟩]⟩,
  ⟨0x0D8, 1, 0x8, [⟨39, 0, .ro, (fun _ _ => 0), .any⟩,
    ⟨63, 40, .ro, (fun _ _ => 0), .any⟩]⟩,
  ⟨0x0E0, 1, 0x8, [⟨15, 0, .ro, (fun _ _ => 0), .any⟩,
    ⟨55, 16, .ro, (fun _ _ => 0), .any⟩]⟩,
  ⟨0x0E8, 1, 0x8, [⟨31, 0, .ro, (fun _ _ => 0), .any⟩,
    ⟨32, 32, .ro, (fun _ _ => 0), .any⟩]⟩]

/-- Registers of the kind 0x04 page. -/
def regsPb : List RegDef := [
  ⟨0x040, 1, 0x8, [⟨0, 0, .rw, (fun _ _ => 0), .any⟩,
    ⟨3, 1, .rw, (fun _ _ => 0), .any⟩,
    ⟨11, 8, .rw, (fun _ _ => 1), .any⟩,
    ⟨12, 12, .rw, (fun _ _ => 0), .any⟩,
    ⟨13, 13, .rw, (fun _ _ => 0), .any⟩,
    ⟨17, 16, .rw, (fun _ _ => 0), .any⟩,
    ⟨19, 18, .rw, (fun _ _ => 0), .any⟩]⟩,
  ⟨0x048, 1, 0x8, [⟨4, 0, .rw, (fun _ _ => 0), .any⟩,
    ⟨12, 8, .rw, (fun _ _ => 0), .any⟩,
    ⟨20, 16, .rw, (fun _ _ => 0), .any⟩,
    ⟨28, 24, .rw, (fun _ _ => 0), .any⟩,
    ⟨36, 32, .rw, (fun _ _ => 0), .any⟩,
    ⟨44, 40, .rw, (fun _ _ => 0), .any⟩,
    ⟨52, 48, .rw, (fun _ _ => 0), .any⟩,
    ⟨60, 56, .rw, (fun _ _ => 0), .any⟩,
    ⟨7, 7, .rw, (fun _ _ => 0), .any⟩,
    ⟨15, 15, .rw, (fun _ _ => 0), .any⟩,
    ⟨23, 23, .rw, (fun _ _ => 0), .any⟩,
    ⟨31, 31, .rw, (fun _ _ => 0), .any⟩,
    ⟨39, 39, .rw, (fun _ _ => 0), .any⟩,
    ⟨47, 47, .rw, (fun _ _ => 0), .any⟩,
    ⟨55, 55, .rw, (fun _ _ => 0), .any⟩,
    ⟨63, 63, .rw, (fun _ _ => 0), .any⟩]⟩,
  ⟨0x050, 1, 0x8, [⟨4, 0, .rw, (fun _ _ => 0), .any⟩,
    ⟨12, 8, .rw, (fun _ _ => 0), .any⟩,
    ⟨20, 16, .rw, (fun _ _ => 0), .any⟩,
    ⟨28, 24, .rw, (fun _ _ => 0), .any⟩,
    ⟨36, 32, .rw, (fun _ _ => 0), .any⟩,
    ⟨44, 40, .rw, (fun _ _ => 0), .any⟩,
    ⟨52, 48, .rw, (fun _ _ => 0), .any⟩,
    ⟨60, 56, .rw, (fun _ _ => 0), .any⟩,
    ⟨7, 7, .rw, (fun _ _ => 0), .any⟩,
    ⟨15, 15, .rw, (fun _ _ => 0), .any⟩,
    ⟨23, 23, .rw, (fun _ _ => 0), .any⟩,
    ⟨31, 31, .rw, (fun _ _ => 0), .any⟩,
    ⟨39, 39, .rw, (fun _ _ => 0), .any⟩,
    ⟨47, 47, .rw, (fun _ _ => 0), .any⟩,
    ⟨55, 55, .rw, (fun _ _ => 0), .any⟩,
    ⟨63, 63, .rw, (fun _ _ => 0), .any⟩]⟩,
  ⟨0x058, 1, 0x8, [⟨10, 0, .rw, (fun _ _ => 0), .any⟩,
    ⟨26, 16, .rw, (fun _ _ => 0), .any⟩,
    ⟨42, 32, .rw, (fun _ _ => 0), .any⟩,
    ⟨58, 48, .rw, (fun _ _ => 0), .any⟩,
    ⟨14, 14, .rw, (fun _ _ => 0), .any⟩,
    ⟨30, 30, .rw, (fun _ _ => 0), .any⟩,
    ⟨46, 46, .rw, (fun _ _ => 0), .any⟩,
    ⟨62, 62, .rw, (fun _ _ => 0), .any⟩,
    ⟨15, 15, .rw, (fun _ _ => 0), .any⟩,
    ⟨31, 31, .rw, (fun _ _ => 0), .any⟩,
    ⟨47, 47, .rw, (fun _ _ => 0), .any⟩,
    ⟨63, 63, .rw, (fun _ _ => 0), .any⟩]⟩,
  ⟨0x060, 1, 0x8, [⟨10, 0, .rw, (fun _ _ => 0), .any⟩,
    ⟨26, 16, .rw, (fun _ _ => 0), .any⟩,
    ⟨42, 32, .rw, (fun _ _ => 0), .any⟩,
    ⟨58, 48, .rw, (fun _ _ => 0), .any⟩,
    ⟨14, 14, .rw, (fun _ _ => 0), .any⟩,
    ⟨30, 30, .rw, (fun _ _ => 0), .any⟩,
    ⟨46, 46, .rw, (fun _ _ => 0), .any⟩,
    ⟨62, 62, .rw, (fun _ _ => 0), .any⟩,
    ⟨15, 15, .rw, (fun _ _ => 0), .any⟩,
    ⟨31, 31, .rw, (fun _ _ => 0), .any⟩,
    ⟨47, 47, .rw, (fun _ _ => 0), .any⟩,
    ⟨63, 63, .rw, (fun _ _ => 0), .any⟩]⟩,
  ⟨0x068, 1, 0x8, [⟨10, 0, .rw, (fun _ _ => 0), .any⟩,
    ⟨26, 16, .rw, (fun _ _ => 0), .any⟩,
    ⟨42, 32, .rw, (fun _ _ => 0), .any⟩,
    ⟨58, 48, .rw, (fun _ _ => 0), .any⟩,
    ⟨14, 14, .rw, (fun _ _ => 0), .any⟩,
    ⟨30, 30, .rw, (fun _ _ => 0), .any⟩,
    ⟨46, 46, .rw, (fun _ _ => 0), .any⟩,
    ⟨62, 62, .rw, (fun _ _ => 0), .any⟩,
    ⟨15, 15, .rw, (fun _ _ => 0), .any⟩,
    ⟨31, 31, .rw, (fun _ _ => 0), .any⟩,
    ⟨47, 47, .rw, (fun _ _ => 0), .any⟩,
    ⟨63, 63, .rw, (fun _ _ => 0), .any⟩]⟩,
  ⟨0x070, 1, 0x8, [⟨10, 0, .rw, (fun _ _ => 0), .any⟩,
    ⟨26, 16, .rw, (fun _ _ => 0), .any⟩,
    ⟨42, 32, .rw, (fun _ _ => 0), .any⟩,
    ⟨58, 48, .rw, (fun _ _ => 0), .any⟩,
    ⟨14, 14, .rw, (fun _ _ => 0), .any⟩,
    ⟨30, 30, .rw, (fun _ _ => 0), .any⟩,
    ⟨46, 46, .rw, (fun _ _ => 0), .any⟩,
    ⟨62, 62, .rw, (fun _ _ => 0), .any⟩,
    ⟨15, 15, .rw, (fun _ _ => 0), .any⟩,
    ⟨31, 31, .rw, (fun _ _ => 0), .any⟩,
    ⟨47, 47, .rw, (fun _ _ => 0), .any⟩,
    ⟨63, 63, .rw, (fun _ _ => 0), .any⟩]⟩,
  ⟨0x078, 1, 0x8, [⟨3, 0, .rw, (fun _ _ => 0), .any⟩,
    ⟨14, 8, .rw, (fun _ _ => 0), .u 0 80⟩,
    ⟨19, 16, .rw, (fun _ _ => 0), .u 0 13⟩,
    ⟨30, 24, .rw, (fun _ _ => 0), .u 0 80⟩,
    ⟨35, 32, .rw, (fun _ _ => 0), .u 0 13⟩]⟩,
  ⟨0x080, 1, 0x8, [⟨3, 0, .rw, (fun _ _ => 0), .any⟩,
    ⟨4, 4, .rw, (fun _ _ => 0), .any⟩,
    ⟨14, 8, .rw, (fun _ _ => 0), .u 0 80⟩,
    ⟨19, 16, .rw, (fun _ _ => 0), .u 0 13⟩,
    ⟨30, 24, .rw, (fun _ _ => 0), .u 0 80⟩,
    ⟨35, 32, .rw, (fun _ _ => 0), .u 0 13⟩]⟩,
  ⟨0x088, 1, 0x8, [⟨63, 0, .rw, (fun _ _ => 0), .any⟩]⟩,
  ⟨0x090, 1, 0x8, [⟨3, 0, .ro, (fun _ _ => 0), .any⟩,
    ⟨8, 8, .w1c, (fun _ _ => 0), .any⟩,
    ⟨9, 9, .w1c, (fun _ _ => 0), .any⟩]⟩,
  ⟨0x098, 1, 0x8, [⟨63, 0, .ro, (fun _ _ => 0), .any⟩]⟩,
  ⟨0x0A0, 1, 0x8, [⟨0, 0, .rw, (fun _ _ => 0), .any⟩,
    ⟨11, 2, .rw, (fun _ _ => 0), .any⟩,
    ⟨13, 12, .rw, (fun _ _ => 0), .any⟩,
    ⟨14, 14, .rw, (fun _ _ => 0), .any⟩]⟩,
  ⟨0x0A8, 1, 0x8, [⟨31, 0, .rw, (fun _ _ => 0), .any⟩,
    ⟨63, 32, .rw, (fun _ _ => 0), .any⟩]⟩]

/-- Registers of the kind 0x05 page. -/
def regsPbd : List RegDef := [
  ⟨0x040, 1, 0x8, [⟨47, 0, .rw, (fun _ _ => 0), .any⟩]⟩,
  ⟨0x048, 1, 0x8, [⟨47, 0, .rw, (fun _ _ => 0), .any⟩]⟩,
  ⟨0x050, 1, 0x8, [⟨0, 0, .rw, (fun _ _ => 0), .any⟩,
    ⟨1, 1, .rw, (fun _ _ => 0), .any⟩,
    ⟨2, 2, .rw, (fun _ _ => 0), .any⟩]⟩,
  ⟨0x058, 1, 0x8, [⟨0, 0, .w1c, (fun _ _ => 0), .any⟩,
    ⟨1, 1, .ro, (fun _ _ => 0), .any⟩,
    ⟨2, 2, .w1c, (fun _ _ => 0), .any⟩,
    ⟨3, 3, .ro, (fun _ _ => 0), .any⟩,
    ⟨4, 4, .ro, (fun _ _ => 0), .any⟩,
    ⟨5, 5, .ro, (fun _ _ => 0), .any⟩,
    ⟨6, 6, .w1c, (fun _ _ => 0), .any⟩,
    ⟨7, 7, .w1c, (fun _ _ => 0), .any⟩,
    ⟨8, 8, .w1c, (fun _ _ => 0), .any⟩,
    ⟨9, 9, .ro, (fun _ _ => 0), .any⟩,
    ⟨31, 16, .ro, (fun _ _ => 0x522d), .any⟩,
    ⟨63, 32, .ro, (fun _ _ => 0), .any⟩]⟩,
  ⟨0x060, 1, 0x8, [⟨15, 0, .ro, (fun _ _ => 0x8000), .any⟩,
    ⟨31, 16, .ro, (fun _ _ => 0), .any⟩,
    ⟨47, 32, .ro, (fun _ _ => 0), .any⟩,
    ⟨51, 48, .ro, (fun _ _ => 0), .any⟩]⟩,
  ⟨0x068, 1, 0x8, [⟨15, 0, .rw, (fun _ _ => 0), .s (-1920) 3840⟩,
    ⟨31, 16, .rw, (fun _ _ => 1920), .s (-32767) 32767⟩,
    ⟨35, 32, .rw, (fun _ _ => 0), .any⟩,
    ⟨39, 36, .rw, (fun _ _ => 0), .any⟩]⟩,
  ⟨0x070, 1, 0x8, [⟨9, 0, .rw, (fun _ _ => 0), .any⟩,
    ⟨25, 16, .rw, (fun _ _ => 0), .any⟩]⟩,
  ⟨0x078, 1, 0x8, [⟨17, 0, .rw, (fun _ _ => 0), .s (-65536) 65535⟩]⟩,
  ⟨0x080, 1, 0x8, [⟨9, 0, .rw, (fun _ _ => 0), .any⟩,
    ⟨25, 16, .rw, (fun _ _ => 0), .any⟩]⟩,
  ⟨0x088, 1, 0x8, [⟨0, 0, .rw, (fun _ _ => 0), .any⟩,
    ⟨8, 1, .rw, (fun _ _ => 0), .any⟩]⟩,
  ⟨0x090, 1, 0x8, [⟨17, 0, .rw, (fun _ _ => 0), .any⟩]⟩,
  ⟨0x0A0, 16, 0x8, [⟨15, 0, .rw, (fun _ _ => 0), .s (-32767) 32767⟩,
    ⟨23, 16, .rw, (fun _ _ => 0), .any⟩,
    ⟨37, 24, .rw, (fun _ _ => 0), .any⟩]⟩,
  ⟨0x140, 1, 0x8, [⟨0, 0, .rw, (fun _ _ => 0), .any⟩,
    ⟨13, 8, .rw, (fun _ _ => 30), .u 25 40⟩]⟩,
  ⟨0x148, 1, 0x8, [⟨15, 0, .ro, (fun _ _ => 0x8000), .any⟩,
    ⟨31, 16, .ro, (fun _ _ => 0x8000), .any⟩,
    ⟨47, 32, .ro, (fun _ _ => 0x8000), .any⟩,
    ⟨54, 48, .ro, (fun _ _ => 0), .any⟩,
    ⟨56, 56, .ro, (fun _ _ => 1), .any⟩,
    ⟨57, 57, .ro, (fun _ _ => 0), .any⟩]⟩,
  ⟨0x150, 1, 0x8, [⟨15, 0, .rw, (fun _ _ => 0), .s (-32767) 32767⟩,
    ⟨31, 16, .ro, (fun _ _ => 0), .any⟩]⟩,
  ⟨0x158, 1, 0x8, [⟨63, 0, .ro, (fun _ _ => 0), .any⟩]⟩,
  ⟨0x160, 1, 0x8, [⟨0, 0, .rw, (fun _ _ => 0), .any⟩,
    ⟨1, 1, .wo, (fun _ _ => 0), .any⟩,
    ⟨11, 8, .rw, (fun _ _ => 4), .any⟩,
    ⟨26, 16, .rw, (fun _ _ => 32), .u 1 1024⟩]⟩,
  ⟨0x168, 1, 0x8, [⟨2, 0, .ro, (fun _ _ => 0), .any⟩,
    ⟨4, 3, .ro, (fun _ _ => 0), .any⟩,
    ⟨6, 6, .ro, (fun _ _ => 0), .any⟩,
    ⟨7, 7, .ro, (fun _ _ => 0), .any⟩,
    ⟨8, 8, .ro, (fun _ _ => 0), .any⟩,
    ⟨9, 9, .ro, (fun _ _ => 0), .any⟩,
    ⟨10, 10, .ro, (fun _ _ => 0), .any⟩,
    ⟨15, 12, .ro, (fun _ _ => 0), .any⟩,
    ⟨31, 16, .ro, (fun _ _ => 0x8000), .any⟩,
    ⟨47, 32, .ro, (fun _ _ => 0x8000), .any⟩,
    ⟨54, 48, .ro, (fun _ _ => 0), .any⟩]⟩,
  ⟨0x170, 1, 0x8, [⟨15, 0, .ro, (fun _ _ => 0x8000), .any⟩,
    ⟨31, 16, .ro, (fun _ _ => 0x8000), .any⟩,
    ⟨47, 32, .ro, (fun _ _ => 0x7fff), .any⟩,
    ⟨63, 48, .ro, (fun _ _ => 0x8000), .any⟩]⟩,
  ⟨0x178, 1, 0x8, [⟨2, 0, .rw, (fun _ _ => 0), .any⟩,
    ⟨12, 8, .rw, (fun _ _ => 0), .u 0 23⟩,
    ⟨13, 13, .rw, (fun _ _ => 0), .any⟩,
    ⟨26, 16, .rw, (fun _ _ => 192), .u 64 1280⟩,
    ⟨47, 32, .rw, (fun _ _ => 0), .s (-32767) 32767⟩,
    ⟨63, 48, .rw, (fun _ _ => 0), .s (-32767) 32767⟩]⟩,
  ⟨0x180, 1, 0x8, [⟨15, 0, .rw, (fun _ _ => 0), .any⟩]⟩,
  ⟨0x188, 1, 0x8, [⟨15, 0, .rw, (fun _ _ => 55), .any⟩,
    ⟨16, 16, .wo, (fun _ _ => 0), .any⟩,
    ⟨17, 17, .wo, (fun _ _ => 0), .any⟩]⟩,
  ⟨0x200, 8, 0x40, [⟨0, 0, .rw, (fun _ i => if i = 0 ∨ i = 2 then 1 else 0), .any⟩,
    ⟨1, 1, .rw, (fun _ _ => 0), .any⟩,
    ⟨2, 2, .rw, (fun _ _ => 0), .any⟩,
    ⟨3, 3, .rw, (fun _ _ => 0), .any⟩,
    ⟨4, 4, .rw, (fun _ _ => 0), .any⟩,
    ⟨10, 8, .ro, (fun _ i => i), .any⟩]⟩,
  ⟨0x208, 8, 0x40, [⟨8, 0, .rw, (fun u _ => 2 * (u - 0x100) + 1), .u 0 319⟩,
    ⟨10, 9, .rw, (fun _ _ => 0), .any⟩,
    ⟨24, 16, .rw, (fun u _ => 2 * (u - 0x100)), .u 0 319⟩,
    ⟨26, 25, .rw, (fun _ _ => 0), .any⟩]⟩,
  ⟨0x210, 8, 0x40, [⟨15, 0, .rw, (fun _ i => if i = 0 then 960 else if i = 2 then 0x7FFF else 0xF880), .s (-32767) 32767⟩,
    ⟨31, 16, .rw, (fun _ _ => 0xf880), .s (-32767) 32767⟩,
    ⟨47, 32, .rw, (fun _ _ => 0), .s (-32767) 32767⟩,
    ⟨63, 48, .rw, (fun _ _ => 0), .s (-32767) 32767⟩]⟩,
  ⟨0x218, 8, 0x40, [⟨31, 0, .rw, (fun _ _ => 0), .any⟩,
    ⟨43, 32, .rw, (fun _ _ => 64), .any⟩]⟩,
  ⟨0x220, 8, 0x40, [⟨31, 0, .rw, (fun _ _ => 0), .any⟩,
    ⟨63, 32, .rw, (fun _ _ => 0), .any⟩]⟩,
  ⟨0x228, 8, 0x40, [⟨0, 0, .w1c, (fun _ _ => 0), .any⟩,
    ⟨1, 1, .ro, (fun _ _ => 0), .any⟩,
    ⟨2, 2, .ro, (fun _ _ => 0), .any⟩,
    ⟨3, 3, .ro, (fun _ _ => 0), .any⟩,
    ⟨4, 4, .ro, (fun _ _ => 0), .any⟩,
    ⟨5, 5, .ro, (fun _ _ => 0), .any⟩,
    ⟨6, 6, .ro, (fun _ _ => 0), .any⟩,
    ⟨9, 8, .ro, (fun _ _ => 0), .any⟩,
    ⟨12, 10, .ro, (fun _ _ => 0), .any⟩,
    ⟨19, 16, .ro, (fun _ _ => 0), .any⟩,
    ⟨63, 32, .ro, (fun _ _ => 0), .any⟩]⟩,
  ⟨0x230, 8, 0x40, [⟨15, 0, .ro, (fun _ _ => 0x8000), .any⟩,
    ⟨31, 16, .ro, (fun _ _ => 0x8000), .any⟩,
    ⟨47, 32, .ro, (fun _ _ => 0x8000), .any⟩,
    ⟨63, 48, .ro, (fun _ _ => 0x8000), .any⟩]⟩,
  ⟨0x238, 8, 0x40, [⟨10, 0, .rw, (fun _ _ => 128), .u 16 384⟩,
    ⟨23, 16, .rw, (fun _ _ => 16), .any⟩,
    ⟨31, 24, .rw, (fun _ _ => 32), .any⟩,
    ⟨47, 32, .ro, (fun _ _ => 0), .any⟩,
    ⟨63, 48, .ro, (fun _ _ => 0), .any⟩]⟩,
  ⟨0x190, 1, 0x8, [⟨0, 0, .rw, (fun _ _ => 1), .any⟩,
    ⟨1, 1, .rw, (fun _ _ => 1), .any⟩,
    ⟨2, 2, .rw, (fun _ _ => 1), .any⟩,
    ⟨3, 3, .rw, (fun _ _ => 1), .any⟩,
    ⟨15, 8, .rw, (fun _ _ => 10), .any⟩,
    ⟨31, 16, .rw, (fun _ _ => 192), .s 64 640⟩,
    ⟨43, 32, .rw, (fun _ _ => 240), .u 8 4095⟩]⟩,
  ⟨0x198, 1, 0x8, [⟨15, 0, .rw, (fun _ _ => 384), .s 192 768⟩,
    ⟨31, 16, .rw, (fun _ _ => 192), .s 64 640⟩]⟩,
  ⟨0x1A0, 1, 0x8, [⟨0, 0, .wo, (fun _ _ => 0), .any⟩,
    ⟨1, 1, .wo, (fun _ _ => 0), .any⟩,
    ⟨2, 2, .wo, (fun _ _ => 0), .any⟩,
    ⟨3, 3, .wo, (fun _ _ => 0), .any⟩]⟩,
  ⟨0x1A8, 1, 0x8, [⟨0, 0, .ro, (fun _ _ => 0), .any⟩,
    ⟨1, 1, .ro, (fun _ _ => 0), .any⟩,
    ⟨7, 4, .ro, (fun _ _ => 0), .any⟩,
    ⟨15, 8, .ro, (fun _ _ => 0), .any⟩,
    ⟨28, 16, .ro, (fun _ _ => 0), .any⟩,
    ⟨63, 32, .ro, (fun _ _ => 0), .any⟩]⟩,
  ⟨0x1B0, 1, 0x8, [⟨63, 0, .ro, (fun _ _ => 2 ^ 64 - 1), .any⟩]⟩,
  ⟨0x1B8, 1, 0x8, [⟨63, 0, .ro, (fun _ _ => 0), .any⟩]⟩,
  ⟨0x1C0, 1, 0x8, [⟨15, 0, .rw, (fun _ _ => 640), .s (-32767) 32767⟩,
    ⟨31, 16, .rw, (fun _ _ => 0), .s (-32767) 32767⟩,
    ⟨47, 32, .rw, (fun _ _ => 640), .s (-32767) 32767⟩,
    ⟨63, 48, .rw, (fun _ _ => 0xf880), .s (-32767) 32767⟩]⟩,
  ⟨0x1C8, 1, 0x8, [⟨15, 0, .rw, (fun _ _ => 0), .s (-32767) 32767⟩,
    ⟨31, 16, .rw, (fun _ _ => 0), .s (-32767) 32767⟩,
    ⟨47, 32, .rw, (fun _ _ => 0), .s (-32767) 32767⟩,
    ⟨48, 48, .rw, (fun _ _ => 0), .any⟩]⟩,
  ⟨0x1D0, 1, 0x8, [⟨15, 0, .rw, (fun _ _ => 0), .s (-32767) 32767⟩]⟩,
  ⟨0x1D8, 1, 0x8, [⟨15, 0, .ro, (fun _ _ => 0x8000), .any⟩,
    ⟨31, 16, .ro, (fun _ _ => 0x8000), .any⟩,
    ⟨47, 32, .ro, (fun _ _ => 0x8000), .any⟩,
    ⟨48, 48, .ro, (fun _ _ => 0), .any⟩,
    ⟨49, 49, .ro, (fun _ _ => 0), .any⟩]⟩,
  ⟨0x1E0, 1, 0x8, [⟨15, 0, .rw, (fun _ _ => 0), .s (-32767) 32767⟩,
    ⟨19, 16, .rw, (fun _ _ => 4), .any⟩,
    ⟨31, 24, .rw, (fun _ _ => 20), .any⟩]⟩,
  ⟨0x1E8, 1, 0x8, [⟨2, 0, .ro, (fun _ _ => 0), .any⟩,
    ⟨3, 3, .ro, (fun _ _ => 0), .any⟩,
    ⟨7, 4, .ro, (fun _ _ => 0), .any⟩,
    ⟨11, 8, .ro, (fun _ _ => 0), .any⟩]⟩,
  ⟨0x1F0, 1, 0x8, [⟨10, 0, .ro, (fun _ _ => 0), .any⟩]⟩]

/-- Registers of the kind 0x02 page. -/
def regsRxc : List RegDef := [
  ⟨0x040, 1, 0x8, [⟨2, 0, .rw, (fun _ _ => 0), .any⟩,
    ⟨3, 3, .rw, (fun _ _ => 0), .any⟩,
    ⟨4, 4, .rw, (fun _ _ => 0), .any⟩]⟩,
  ⟨0x048, 1, 0x8, [⟨2, 0, .ro, (fun _ _ => 0), .any⟩,
    ⟨8, 8, .w1c, (fun _ _ => 0), .any⟩,
    ⟨9, 9, .ro, (fun _ _ => 0), .any⟩,
    ⟨10, 10, .ro, (fun _ _ => 0), .any⟩,
    ⟨11, 11, .ro, (fun _ _ => 0), .any⟩,
    ⟨19, 16, .ro, (fun _ _ => 0), .any⟩]⟩,
  ⟨0x050, 1, 0x8, [⟨31, 0, .ro, (fun _ _ => 0), .any⟩]⟩,
  ⟨0x058, 1, 0x8, [⟨63, 0, .ro, (fun _ _ => 0), .any⟩]⟩,
  ⟨0x060, 1, 0x8, [⟨4, 0, .ro, (fun _ _ => 16), .any⟩,
    ⟨32, 16, .ro, (fun _ _ => 0), .any⟩,
    ⟨63, 48, .ro, (fun _ _ => 0), .any⟩]⟩,
  ⟨0x068, 1, 0x8, [⟨4, 0, .rw, (fun _ _ => 0), .u 0 16⟩]⟩,
  ⟨0x070, 1, 0x8, [⟨15, 0, .ro, (fun _ _ => 0), .any⟩,
    ⟨31, 16, .ro, (fun _ _ => 0), .any⟩,
    ⟨47, 32, .ro, (fun _ _ => 0), .any⟩]⟩]

/-- Registers of the kind 0x03 page. -/
def regsTxc : List RegDef := [
  ⟨0x040, 1, 0x8, [⟨2, 0, .rw, (fun _ _ => 0), .any⟩,
    ⟨3, 3, .rw, (fun _ _ => 0), .any⟩]⟩,
  ⟨0x048, 1, 0x8, [⟨2, 0, .ro, (fun _ _ => 0), .any⟩,
    ⟨8, 8, .w1c, (fun _ _ => 0), .any⟩,
    ⟨9, 9, .ro, (fun _ _ => 0), .any⟩,
    ⟨10, 10, .ro, (fun _ _ => 0), .any⟩,
    ⟨11, 11, .w1c, (fun _ _ => 0), .any⟩,
    ⟨21, 16, .ro, (fun _ _ => 19), .any⟩,
    ⟨27, 24, .ro, (fun _ _ => 0), .any⟩]⟩,
  ⟨0x050, 1, 0x8, [⟨31, 0, .ro, (fun _ _ => 0), .any⟩]⟩]

/-- Registers of the kind 0x0D page. -/
def regsSy : List RegDef := [
  ⟨0x040, 1, 0x8, [⟨8, 0, .rw, (fun _ _ => 40), .u 10 500⟩]⟩,
  ⟨0x048, 1, 0x8, [⟨11, 0, .wo, (fun _ _ => 0), .any⟩,
    ⟨16, 16, .wo, (fun _ _ => 0), .any⟩,
    ⟨17, 17, .wo, (fun _ _ => 0), .any⟩]⟩,
  ⟨0x050, 1, 0x8, [⟨1, 0, .ro, (fun _ _ => 0), .any⟩,
    ⟨2, 2, .ro, (fun _ _ => 0), .any⟩,
    ⟨3, 3, .w1c, (fun _ _ => 0), .any⟩,
    ⟨27, 16, .ro, (fun _ _ => 0), .any⟩,
    ⟨47, 32, .ro, (fun _ _ => 0), .any⟩]⟩,
  ⟨0x058, 1, 0x8, [⟨31, 0, .ro, (fun _ _ => 0), .any⟩]⟩,
  ⟨0x060, 1, 0x8, [⟨11, 0, .rw, (fun _ _ => 0), .any⟩,
    ⟨16, 16, .rw, (fun _ _ => 0), .any⟩]⟩,
  ⟨0x068, 1, 0x8, [⟨31, 0, .rw, (fun _ _ => 0), .any⟩]⟩,
  ⟨0x070, 1, 0x8, [⟨7, 0, .ro, (fun _ _ => 0), .any⟩,
    ⟨13, 8, .ro, (fun _ _ => 0), .any⟩,
    ⟨31, 16, .ro, (fun _ _ => 0), .any⟩,
    ⟨39, 32, .ro, (fun _ _ => 0), .any⟩,
    ⟨63, 63, .rw, (fun _ _ => 0), .any⟩]⟩]

/-- Registers of the kind 0x0E page. -/
def regsOrx : List RegDef := [
  ⟨0x040, 1, 0x8, [⟨0, 0, .rw, (fun _ _ => 0), .any⟩,
    ⟨12, 8, .rw, (fun _ _ => 1), .any⟩]⟩,
  ⟨0x048, 1, 0x8, [⟨6, 0, .rw, (fun _ _ => 0), .any⟩,
    ⟨14, 8, .rw, (fun _ _ => 0), .any⟩,
    ⟨22, 16, .rw, (fun _ _ => 0), .any⟩,
    ⟨7, 7, .rw, (fun _ _ => 0), .any⟩,
    ⟨15, 15, .rw, (fun _ _ => 0), .any⟩,
    ⟨23, 23, .rw, (fun _ _ => 0), .any⟩]⟩,
  ⟨0x050, 1, 0x8, [⟨3, 0, .ro, (fun _ _ => 0), .any⟩,
    ⟨12, 8, .ro, (fun _ _ => 0), .any⟩,
    ⟨16, 16, .ro, (fun _ _ => 0), .any⟩,
    ⟨17, 17, .ro, (fun _ _ => 0), .any⟩,
    ⟨63, 32, .ro, (fun _ _ => 0), .any⟩]⟩,
  ⟨0x080, 16, 0x8, [⟨4, 0, .rw, (fun _ _ => 0), .any⟩,
    ⟨10, 8, .rw, (fun _ _ => 0), .any⟩,
    ⟨23, 16, .rw, (fun _ _ => 1), .u 1 255⟩,
    ⟨44, 32, .rw, (fun _ _ => 0), .any⟩]⟩,
  ⟨0x058, 1, 0x8, [⟨0, 0, .rw, (fun _ _ => 0), .any⟩,
    ⟨11, 8, .rw, (fun _ _ => 2), .any⟩]⟩,
  ⟨0x060, 1, 0x8, [⟨15, 0, .ro, (fun _ _ => 0x8000), .any⟩,
    ⟨19, 16, .ro, (fun _ _ => 0), .any⟩,
    ⟨23, 20, .ro, (fun _ _ => 0), .any⟩,
    ⟨63, 32, .ro, (fun _ _ => 0), .any⟩]⟩,
  ⟨0x100, 16, 0x8, [⟨15, 0, .rw, (fun _ _ => 0x8000), .code8000⟩,
    ⟨16, 16, .rw, (fun _ _ => 0), .any⟩]⟩]

/-- Registers of the kind 0x0C page. -/
def regsCc : List RegDef := [
  ⟨0x040, 1, 0x8, [⟨0, 0, .ro, (fun _ _ => 0), .any⟩,
    ⟨1, 1, .w1c, (fun _ _ => 0), .any⟩]⟩,
  ⟨0x048, 4, 0x8, [⟨10, 0, .rw, (fun _ _ => 76), .any⟩,
    ⟨11, 11, .rw, (fun _ _ => 0), .any⟩,
    ⟨12, 12, .rw, (fun _ _ => 0), .any⟩]⟩,
  ⟨0x068, 1, 0x8, [⟨3, 0, .ro, (fun _ _ => 0), .any⟩,
    ⟨4, 4, .w1c, (fun _ _ => 0), .any⟩,
    ⟨5, 5, .w1c, (fun _ _ => 0), .any⟩,
    ⟨6, 6, .w1c, (fun _ _ => 0), .any⟩,
    ⟨31, 16, .ro, (fun _ _ => 0), .any⟩]⟩,
  ⟨0x070, 1, 0x8, [⟨7, 0, .rw, (fun _ _ => 0), .any⟩,
    ⟨10, 8, .rw, (fun _ _ => 0), .any⟩,
    ⟨11, 11, .rw, (fun _ _ => 0), .any⟩]⟩,
  ⟨0x078, 1, 0x8, [⟨1, 0, .rw, (fun _ _ => 0), .any⟩,
    ⟨5, 2, .rw, (fun _ _ => 0), .any⟩,
    ⟨11, 8, .rw, (fun _ _ => 0), .any⟩,
    ⟨13, 12, .rw, (fun _ _ => 0), .any⟩,
    ⟨31, 16, .rw, (fun _ _ => 0), .any⟩,
    ⟨63, 32, .rw, (fun _ _ => 0), .any⟩]⟩,
  ⟨0x088, 1, 0x8, [⟨1, 0, .wo, (fun _ _ => 0), .any⟩,
    ⟨5, 2, .wo, (fun _ _ => 0), .any⟩,
    ⟨11, 8, .wo, (fun _ _ => 0), .any⟩,
    ⟨13, 12, .wo, (fun _ _ => 0), .any⟩,
    ⟨31, 16, .wo, (fun _ _ => 0), .any⟩,
    ⟨63, 32, .wo, (fun _ _ => 0), .any⟩]⟩,
  ⟨0x080, 1, 0x8, [⟨15, 0, .ro, (fun _ _ => 0), .any⟩]⟩,
  ⟨0x090, 1, 0x8, [⟨31, 0, .ro, (fun _ _ => 0), .any⟩,
    ⟨32, 32, .ro, (fun _ _ => 0), .any⟩,
    ⟨33, 33, .ro, (fun _ _ => 0), .any⟩]⟩,
  ⟨0x098, 1, 0x8, [⟨31, 0, .ro, (fun _ _ => 0), .any⟩]⟩,
  ⟨0x0A0, 1, 0x8, [⟨31, 0, .rw, (fun _ _ => 0), .any⟩]⟩,
  ⟨0x0A8, 1, 0x8, [⟨7, 0, .wo, (fun _ _ => 0), .any⟩]⟩,
  ⟨0x100, 32, 0x8, [⟨2, 0, .rw, (fun _ _ => 0), .any⟩,
    ⟨12, 8, .rw, (fun _ _ => 0), .any⟩]⟩]

/-- Registers of the kind 0x06 page. -/
def regsCl : List RegDef := [
  ⟨0x040, 1, 0x8, [⟨5, 0, .ro, (fun _ _ => 0), .any⟩,
    ⟨11, 8, .ro, (fun _ _ => 0), .any⟩,
    ⟨16, 16, .ro, (fun _ _ => 0), .any⟩]⟩,
  ⟨0x048, 1, 0x8, [⟨17, 0, .ro, (fun _ _ => 0), .any⟩]⟩,
  ⟨0x050, 1, 0x8, [⟨18, 0, .ro, (fun _ _ => 0x40000), .any⟩,
    ⟨21, 19, .ro, (fun _ _ => 1), .any⟩,
    ⟨63, 32, .ro, (fun _ _ => 0), .any⟩]⟩,
  ⟨0x058, 1, 0x8, [⟨17, 0, .rw, (fun _ _ => 0), .any⟩,
    ⟨19, 18, .rw, (fun _ _ => 0), .any⟩,
    ⟨28, 20, .rw, (fun _ _ => 0), .any⟩,
    ⟨31, 31, .rw, (fun _ _ => 0), .any⟩]⟩,
  ⟨0x060, 1, 0x8, [⟨31, 0, .rw, (fun _ _ => 0), .any⟩,
    ⟨63, 32, .rw, (fun _ _ => 0), .any⟩]⟩,
  ⟨0x068, 1, 0x8, [⟨17, 0, .wo, (fun _ _ => 0), .any⟩,
    ⟨19, 18, .wo, (fun _ _ => 0), .any⟩]⟩,
  ⟨0x070, 1, 0x8, [⟨0, 0, .ro, (fun _ _ => 0), .any⟩,
    ⟨1, 1, .w1c, (fun _ _ => 0), .any⟩,
    ⟨2, 2, .w1c, (fun _ _ => 0), .any⟩,
    ⟨31, 16, .ro, (fun _ _ => 0), .any⟩]⟩]

/-- Registers of the kind 0x07 page. -/
def regsLane : List RegDef := [
  ⟨0x040, 1, 0x8, [⟨15, 0, .rw, (fun _ _ => 0), .any⟩,
    ⟨18, 16, .rw, (fun _ _ => 0), .any⟩,
    ⟨39, 24, .rw, (fun _ _ => 0), .any⟩,
    ⟨42, 40, .rw, (fun _ _ => 0), .any⟩,
    ⟨49, 48, .rw, (fun _ _ => 0), .any⟩,
    ⟨50, 50, .rw, (fun _ _ => 0), .any⟩,
    ⟨59, 56, .rw, (fun _ _ => 0), .any⟩]⟩,
  ⟨0x048, 4, 0x8, [⟨20, 0, .rw, (fun _ _ => 0), .any⟩,
    ⟨21, 21, .rw, (fun _ _ => 0), .any⟩,
    ⟨34, 24, .rw, (fun _ _ => 0), .any⟩]⟩,
  ⟨0x068, 1, 0x8, [⟨7, 0, .rw, (fun _ _ => 64), .any⟩,
    ⟨11, 8, .rw, (fun _ _ => 4), .any⟩,
    ⟨14, 12, .rw, (fun _ _ => 2), .any⟩,
    ⟨31, 16, .rw, (fun _ _ => 0xf100), .s (-32767) 32767⟩,
    ⟨32, 32, .rw, (fun _ _ => 0), .any⟩,
    ⟨33, 33, .rw, (fun _ _ => 0), .any⟩]⟩,
  ⟨0x070, 1, 0x8, [⟨17, 0, .rw, (fun _ _ => 0), .any⟩,
    ⟨63, 32, .rw, (fun _ _ => 0), .any⟩]⟩,
  ⟨0x078, 1, 0x8, [⟨31, 0, .rw, (fun _ _ => 0), .any⟩,
    ⟨49, 32, .ro, (fun _ _ => 0), .any⟩,
    ⟨50, 50, .ro, (fun _ _ => 0), .any⟩]⟩,
  ⟨0x080, 1, 0x8, [⟨16, 0, .rw, (fun _ _ => 0x8000), .u 4096 131071⟩]⟩,
  ⟨0x088, 1, 0x8, [⟨0, 0, .wo, (fun _ _ => 0), .any⟩,
    ⟨1, 1, .wo, (fun _ _ => 0), .any⟩,
    ⟨2, 2, .wo, (fun _ _ => 0), .any⟩]⟩,
  ⟨0x090, 1, 0x8, [⟨2, 0, .ro, (fun _ _ => 0), .any⟩,
    ⟨4, 4, .ro, (fun _ _ => 0), .any⟩,
    ⟨5, 5, .w1c, (fun _ _ => 0), .any⟩,
    ⟨6, 6, .w1c, (fun _ _ => 0), .any⟩,
    ⟨7, 7, .w1c, (fun _ _ => 0), .any⟩,
    ⟨8, 8, .w1c, (fun _ _ => 0), .any⟩,
    ⟨9, 9, .w1c, (fun _ _ => 0), .any⟩,
    ⟨10, 10, .w1c, (fun _ _ => 0), .any⟩,
    ⟨18, 16, .ro, (fun _ _ => 0), .any⟩,
    ⟨42, 32, .ro, (fun _ _ => 0), .any⟩,
    ⟨63, 48, .ro, (fun _ _ => 0), .any⟩]⟩,
  ⟨0x098, 1, 0x8, [⟨15, 0, .ro, (fun _ _ => 0x8000), .any⟩,
    ⟨31, 16, .ro, (fun _ _ => 0x8000), .any⟩,
    ⟨47, 32, .ro, (fun _ _ => 0), .any⟩,
    ⟨50, 48, .ro, (fun _ _ => 0), .any⟩]⟩,
  ⟨0x0A0, 1, 0x8, [⟨63, 0, .ro, (fun _ _ => 0), .any⟩]⟩,
  ⟨0x0A8, 1, 0x8, [⟨63, 0, .ro, (fun _ _ => 0), .any⟩]⟩,
  ⟨0x0B0, 1, 0x8, [⟨9, 0, .rw, (fun _ _ => 0), .any⟩]⟩,
  ⟨0x0B8, 1, 0x8, [⟨31, 0, .rw, (fun _ _ => 0), .any⟩]⟩]

/-- Registers of the kind 0x11 page. -/
def regsLe : List RegDef := [
  ⟨0x040, 1, 0x8, [⟨16, 0, .ro, (fun _ _ => 0), .any⟩,
    ⟨42, 32, .ro, (fun _ _ => 0), .any⟩,
    ⟨48, 48, .ro, (fun _ _ => 0), .any⟩,
    ⟨49, 49, .w1c, (fun _ _ => 0), .any⟩]⟩,
  ⟨0x048, 1, 0x8, [⟨16, 0, .ro, (fun _ _ => 0), .any⟩,
    ⟨32, 32, .wo, (fun _ _ => 0), .any⟩]⟩,
  ⟨0x050, 1, 0x8, [⟨31, 0, .ro, (fun _ _ => 0), .any⟩,
    ⟨63, 32, .ro, (fun _ _ => 0), .any⟩]⟩,
  ⟨0x058, 1, 0x8, [⟨6, 0, .rw, (fun _ _ => 0), .any⟩,
    ⟨9, 7, .rw, (fun _ _ => 0), .any⟩,
    ⟨15, 10, .rw, (fun _ _ => 0), .any⟩,
    ⟨16, 16, .rw, (fun _ _ => 0), .any⟩]⟩,
  ⟨0x060, 1, 0x8, [⟨31, 0, .rw, (fun _ _ => 0), .any⟩]⟩,
  ⟨0x068, 1, 0x8, [⟨6, 0, .rw, (fun _ _ => 0), .any⟩,
    ⟨9, 7, .rw, (fun _ _ => 0), .any⟩,
    ⟨12, 10, .rw, (fun _ _ => 0), .any⟩]⟩,
  ⟨0x070, 1, 0x8, [⟨23, 0, .ro, (fun _ _ => 0), .any⟩,
    ⟨31, 24, .ro, (fun _ _ => 0), .any⟩,
    ⟨55, 32, .ro, (fun _ _ => 0), .any⟩]⟩]

/-- Registers of the kind 0x19 page. -/
def regsMc : List RegDef := [
  ⟨0x040, 1, 0x8, [⟨1, 0, .rw, (fun u _ => mcTapKind (u - 0x600)), .any⟩,
    ⟨14, 8, .rw, (fun u _ => mcTapIndex (u - 0x600)), .any⟩]⟩,
  ⟨0x048, 1, 0x8, [⟨2, 0, .rw, (fun _ _ => 2), .any⟩,
    ⟨3, 3, .rw, (fun _ _ => 0), .any⟩,
    ⟨6, 4, .rw, (fun _ _ => 4), .any⟩,
    ⟨20, 8, .rw, (fun _ _ => 256), .any⟩,
    ⟨31, 24, .rw, (fun _ _ => 8), .any⟩,
    ⟨35, 32, .rw, (fun _ _ => 0), .any⟩,
    ⟨39, 36, .rw, (fun _ _ => 4), .any⟩,
    ⟨40, 40, .rw, (fun _ _ => 0), .any⟩]⟩,
  ⟨0x050, 1, 0x8, [⟨0, 0, .wo, (fun _ _ => 0), .any⟩,
    ⟨1, 1, .wo, (fun _ _ => 0), .any⟩]⟩,
  ⟨0x058, 1, 0x8, [⟨0, 0, .ro, (fun _ _ => 0), .any⟩,
    ⟨1, 1, .ro, (fun _ _ => 0), .any⟩,
    ⟨2, 2, .w1c, (fun _ _ => 0), .any⟩,
    ⟨3, 3, .w1c, (fun _ _ => 0), .any⟩,
    ⟨6, 4, .ro, (fun _ _ => 4), .any⟩,
    ⟨20, 8, .ro, (fun _ _ => 256), .any⟩,
    ⟨31, 24, .ro, (fun _ _ => 8), .any⟩,
    ⟨47, 32, .ro, (fun _ _ => 0), .any⟩]⟩,
  ⟨0x060, 1, 0x8, [⟨15, 0, .ro, (fun _ _ => 0x8000), .any⟩,
    ⟨16, 16, .ro, (fun _ _ => 0), .any⟩,
    ⟨17, 17, .ro, (fun _ _ => 0), .any⟩,
    ⟨63, 32, .ro, (fun _ _ => 0), .any⟩]⟩,
  ⟨0x068, 1, 0x8, [⟨15, 0, .ro, (fun _ _ => 0x8000), .any⟩,
    ⟨16, 16, .ro, (fun _ _ => 0), .any⟩,
    ⟨17, 17, .ro, (fun _ _ => 0), .any⟩,
    ⟨63, 32, .ro, (fun _ _ => 0), .any⟩]⟩,
  ⟨0x070, 1, 0x8, [⟨15, 0, .ro, (fun _ _ => 0x8000), .any⟩,
    ⟨16, 16, .ro, (fun _ _ => 0), .any⟩,
    ⟨17, 17, .ro, (fun _ _ => 0), .any⟩,
    ⟨63, 32, .ro, (fun _ _ => 0), .any⟩]⟩,
  ⟨0x078, 1, 0x8, [⟨63, 0, .ro, (fun _ _ => 0), .any⟩]⟩,
  ⟨0x080, 1, 0x8, [⟨15, 0, .ro, (fun _ _ => 0x8000), .any⟩]⟩,
  ⟨0x088, 1, 0x8, [⟨15, 0, .rw, (fun _ _ => 0), .s (-32767) 32767⟩]⟩,
  ⟨0x090, 1, 0x8, [⟨3, 0, .rw, (fun _ _ => 0), .any⟩,
    ⟨4, 4, .rw, (fun _ _ => 0), .any⟩]⟩,
  ⟨0x098, 1, 0x8, [⟨17, 0, .rw, (fun _ _ => 0), .any⟩]⟩,
  ⟨0x0A0, 1, 0x8, [⟨63, 0, .ro, (fun _ _ => 0), .any⟩]⟩]

/-- Registers of the kind 0x0F page. -/
def regsCe : List RegDef := [
  ⟨0x040, 1, 0x8, [⟨14, 0, .rw, (fun u _ => 16386 + (u - 0x4C0)), .any⟩,
    ⟨20, 16, .rw, (fun _ _ => 0), .u 0 16⟩,
    ⟨45, 32, .rw, (fun _ _ => 0), .any⟩,
    ⟨46, 46, .rw, (fun _ _ => 0), .any⟩]⟩,
  ⟨0x048, 1, 0x8, [⟨5, 0, .rw, (fun _ _ => 16), .u 0 32⟩,
    ⟨14, 8, .rw, (fun _ _ => 16), .u 0 64⟩]⟩,
  ⟨0x050, 1, 0x8, [⟨16, 0, .rw, (fun _ _ => 0), .any⟩]⟩,
  ⟨0x058, 1, 0x8, [⟨15, 0, .rw, (fun _ _ => 1024), .any⟩,
    ⟨47, 32, .ro, (fun _ _ => 0), .any⟩]⟩,
  ⟨0x060, 1, 0x8, [⟨36, 12, .rw, (fun _ _ => 0), .any⟩]⟩,
  ⟨0x068, 1, 0x8, [⟨36, 12, .rw, (fun _ _ => 0), .any⟩]⟩,
  ⟨0x070, 1, 0x8, [⟨0, 0, .wo, (fun _ _ => 0), .any⟩,
    ⟨1, 1, .wo, (fun _ _ => 0), .any⟩,
    ⟨2, 2, .rw, (fun _ _ => 0), .any⟩,
    ⟨3, 3, .w1c, (fun _ _ => 0), .any⟩,
    ⟨4, 4, .w1c, (fun _ _ => 0), .any⟩]⟩,
  ⟨0x078, 1, 0x8, [⟨16, 0, .rw, (fun _ _ => 0x10000), .any⟩]⟩,
  ⟨0x080, 16, 0x8, [⟨15, 0, .rw, (fun _ _ => 0), .any⟩,
    ⟨31, 16, .rw, (fun _ _ => 0), .any⟩,
    ⟨32, 32, .rw, (fun _ _ => 0), .any⟩,
    ⟨33, 33, .rw, (fun _ _ => 0), .any⟩,
    ⟨63, 63, .rw, (fun _ _ => 0), .any⟩]⟩,
  ⟨0x100, 1, 0x8, [⟨1, 0, .ro, (fun _ _ => 0), .any⟩,
    ⟨2, 2, .ro, (fun _ _ => 0), .any⟩,
    ⟨3, 3, .ro, (fun _ _ => 0), .any⟩,
    ⟨7, 4, .ro, (fun _ _ => 0), .any⟩,
    ⟨63, 32, .ro, (fun _ _ => 0), .any⟩]⟩,
  ⟨0x108, 1, 0x8, [⟨7, 0, .ro, (fun _ _ => 0), .any⟩,
    ⟨15, 8, .ro, (fun _ _ => 0), .any⟩,
    ⟨16, 16, .ro, (fun _ _ => 0), .any⟩]⟩,
  ⟨0x110, 1, 0x8, [⟨63, 0, .ro, (fun _ _ => 0), .any⟩]⟩,
  ⟨0x118, 1, 0x8, [⟨63, 0, .ro, (fun _ _ => 0), .any⟩]⟩,
  ⟨0x120, 1, 0x8, [⟨63, 0, .ro, (fun _ _ => 0), .any⟩]⟩,
  ⟨0x128, 1, 0x8, [⟨16, 0, .rw, (fun _ _ => 0), .any⟩]⟩,
  ⟨0x130, 1, 0x8, [⟨31, 0, .rw, (fun _ _ => 0), .any⟩]⟩,
  ⟨0x138, 1, 0x8, [⟨17, 0, .rw, (fun _ _ => 0), .any⟩]⟩,
  ⟨0x140, 1, 0x8, [⟨63, 0, .rw, (fun _ _ => 0), .any⟩]⟩]

/-- Registers of the kind 0x17 page. -/
def regsDsp : List RegDef := [
  ⟨0x040, 1, 0x8, [⟨17, 0, .rw, (fun _ _ => 0), .any⟩,
    ⟨49, 32, .rw, (fun _ _ => 0x1000), .any⟩]⟩,
  ⟨0x048, 1, 0x8, [⟨18, 0, .ro, (fun _ _ => 0x40000), .any⟩,
    ⟨31, 20, .ro, (fun _ _ => 0), .any⟩,
    ⟨32, 32, .ro, (fun _ _ => 0), .any⟩,
    ⟨33, 33, .ro, (fun _ _ => 0), .any⟩,
    ⟨63, 48, .ro, (fun _ _ => 0), .any⟩]⟩,
  ⟨0x050, 1, 0x8, [⟨31, 0, .ro, (fun _ _ => 0), .any⟩,
    ⟨63, 32, .ro, (fun _ _ => 0), .any⟩]⟩,
  ⟨0x058, 1, 0x8, [⟨31, 0, .ro, (fun _ _ => 0), .any⟩,
    ⟨63, 32, .ro, (fun _ _ => 0), .any⟩]⟩,
  ⟨0x060, 1, 0x8, [⟨11, 0, .ro, (fun _ _ => 0), .any⟩,
    ⟨16, 16, .wo, (fun _ _ => 0), .any⟩,
    ⟨63, 32, .ro, (fun _ _ => 0), .any⟩]⟩,
  ⟨0x068, 1, 0x8, [⟨63, 0, .ro, (fun _ _ => 0), .any⟩]⟩,
  ⟨0x070, 1, 0x8, [⟨18, 0, .ro, (fun _ _ => 0), .any⟩]⟩,
  ⟨0x078, 1, 0x8, [⟨17, 0, .ro, (fun _ _ => 0), .any⟩,
    ⟨31, 24, .ro, (fun _ _ => 0), .any⟩,
    ⟨47, 32, .ro, (fun _ _ => 0), .any⟩]⟩,
  ⟨0x080, 1, 0x8, [⟨63, 0, .ro, (fun _ _ => 0), .any⟩]⟩,
  ⟨0x088, 1, 0x8, [⟨17, 0, .wo, (fun _ _ => 0), .any⟩,
    ⟨33, 32, .ro, (fun _ _ => 0), .any⟩]⟩,
  ⟨0x090, 1, 0x8, [⟨13, 0, .rw, (fun _ _ => 0), .any⟩]⟩,
  ⟨0x098, 1, 0x8, [⟨63, 0, .rw, (fun _ _ => 0), .any⟩]⟩,
  ⟨0x0A0, 1, 0x8, [⟨4, 0, .rw, (fun _ _ => 4), .any⟩,
    ⟨5, 5, .rw, (fun _ _ => 0), .any⟩,
    ⟨7, 6, .rw, (fun _ _ => 0), .any⟩,
    ⟨14, 8, .rw, (fun _ _ => 0), .any⟩,
    ⟨15, 15, .rw, (fun _ _ => 0), .any⟩,
    ⟨20, 16, .rw, (fun _ _ => 31), .any⟩,
    ⟨31, 21, .rw, (fun _ _ => 0), .any⟩,
    ⟨55, 32, .rw, (fun _ _ => 0), .any⟩]⟩,
  ⟨0x0A8, 1, 0x8, [⟨31, 0, .ro, (fun _ _ => 0), .any⟩,
    ⟨63, 32, .ro, (fun _ _ => 0), .any⟩]⟩,
  ⟨0x0B0, 1, 0x8, [⟨15, 0, .ro, (fun _ _ => 0), .any⟩,
    ⟨31, 16, .ro, (fun _ _ => 0), .any⟩,
    ⟨45, 32, .rw, (fun _ _ => 0), .any⟩,
    ⟨46, 46, .rw, (fun _ _ => 0), .any⟩,
    ⟨47, 47, .w1c, (fun _ _ => 0), .any⟩]⟩,
  ⟨0x0B8, 1, 0x8, [⟨17, 0, .rw, (fun _ _ => 0), .any⟩]⟩,
  ⟨0x0C0, 8, 0x8, [⟨63, 0, .ro, (fun _ _ => 0), .any⟩]⟩]

/-- Registers of the kind 0x09 page. -/
def regsFh : List RegDef := [
  ⟨0x040, 1, 0x8, [⟨1, 0, .rw, (fun _ _ => 0), .any⟩,
    ⟨2, 2, .rw, (fun _ _ => 0), .any⟩,
    ⟨3, 3, .rw, (fun _ _ => 0), .any⟩,
    ⟨15, 4, .rw, (fun _ _ => 0), .any⟩,
    ⟨18, 16, .rw, (fun _ _ => 0), .any⟩]⟩,
  ⟨0x048, 1, 0x8, [⟨47, 0, .ro, (fun u _ => u - 0x440), .any⟩]⟩,
  ⟨0x050, 1, 0x8, [⟨1, 0, .ro, (fun _ _ => 0), .any⟩,
    ⟨2, 2, .ro, (fun _ _ => 0), .any⟩,
    ⟨15, 8, .ro, (fun _ _ => 0), .any⟩,
    ⟨31, 16, .ro, (fun _ _ => 0), .any⟩,
    ⟨47, 32, .ro, (fun _ _ => 0), .any⟩]⟩,
  ⟨0x058, 1, 0x8, [⟨3, 0, .ro, (fun u _ => 2 * ((u - 0x440) % 4)), .any⟩,
    ⟨7, 4, .ro, (fun u _ => 2 * ((u - 0x440) % 4) + 1), .any⟩,
    ⟨16, 8, .ro, (fun _ _ => 0), .any⟩]⟩,
  ⟨0x060, 1, 0x8, [⟨8, 0, .ro, (fun _ _ => 0), .any⟩,
    ⟨24, 16, .ro, (fun _ _ => 0), .any⟩,
    ⟨47, 32, .ro, (fun _ _ => 0), .any⟩]⟩,
  ⟨0x068, 1, 0x8, [⟨47, 0, .ro, (fun _ _ => 0), .any⟩]⟩,
  ⟨0x070, 1, 0x8, [⟨31, 0, .ro, (fun _ _ => 0), .any⟩,
    ⟨47, 32, .ro, (fun _ _ => 0), .any⟩,
    ⟨63, 48, .ro, (fun _ _ => 0), .any⟩]⟩,
  ⟨0x078, 1, 0x8, [⟨31, 0, .ro, (fun _ _ => 0), .any⟩,
    ⟨63, 32, .ro, (fun _ _ => 0), .any⟩]⟩,
  ⟨0x080, 1, 0x8, [⟨63, 0, .ro, (fun _ _ => 0), .any⟩]⟩,
  ⟨0x088, 1, 0x8, [⟨15, 0, .ro, (fun _ _ => 0), .any⟩]⟩]

/-- Registers of the kind 0x1A page. -/
def regsHd : List RegDef := [
  ⟨0x040, 1, 0x8, [⟨63, 0, .rw, (fun _ _ => 0), .any⟩]⟩,
  ⟨0x048, 1, 0x8, [⟨2, 0, .rw, (fun _ _ => 0), .any⟩,
    ⟨3, 3, .rw, (fun _ _ => 0), .any⟩,
    ⟨7, 4, .ro, (fun _ _ => 0), .any⟩,
    ⟨63, 63, .rw, (fun _ _ => 0), .any⟩]⟩,
  ⟨0x050, 1, 0x8, [⟨15, 0, .rw, (fun _ _ => 2048), .any⟩,
    ⟨22, 16, .rw, (fun _ _ => 5), .u 2 100⟩,
    ⟨23, 23, .rw, (fun _ _ => 0), .any⟩,
    ⟨33, 24, .rw, (fun _ _ => 100), .u 10 1000⟩]⟩,
  ⟨0x058, 1, 0x8, [⟨0, 0, .wo, (fun _ _ => 0), .any⟩]⟩,
  ⟨0x060, 1, 0x8, [⟨2, 0, .ro, (fun _ _ => 0), .any⟩,
    ⟨5, 4, .ro, (fun _ _ => 0), .any⟩,
    ⟨12, 8, .ro, (fun _ _ => 0), .any⟩,
    ⟨52, 32, .ro, (fun _ _ => 0), .any⟩]⟩,
  ⟨0x068, 1, 0x8, [⟨23, 0, .ro, (fun _ _ => 0), .any⟩,
    ⟨55, 32, .ro, (fun _ _ => 0), .any⟩]⟩,
  ⟨0x070, 1, 0x8, [⟨20, 0, .ro, (fun _ _ => 0), .any⟩,
    ⟨52, 32, .ro, (fun _ _ => 0), .any⟩]⟩,
  ⟨0x078, 1, 0x8, [⟨23, 0, .ro, (fun _ _ => 0), .any⟩,
    ⟨47, 32, .rw, (fun _ _ => 0), .any⟩]⟩,
  ⟨0x080, 1, 0x8, [⟨0, 0, .ro, (fun _ _ => 0), .any⟩,
    ⟨1, 1, .ro, (fun _ _ => 0), .any⟩,
    ⟨7, 2, .ro, (fun _ _ => 0), .any⟩,
    ⟨31, 16, .ro, (fun _ _ => 0), .any⟩,
    ⟨63, 32, .ro, (fun _ _ => 0), .any⟩]⟩,
  ⟨0x088, 1, 0x8, [⟨31, 0, .ro, (fun _ _ => 0), .any⟩,
    ⟨63, 32, .ro, (fun _ _ => 0), .any⟩]⟩,
  ⟨0x090, 1, 0x8, [⟨47, 0, .ro, (fun _ _ => 0), .any⟩]⟩,
  ⟨0x098, 1, 0x8, [⟨15, 0, .rw, (fun _ _ => 0), .any⟩]⟩,
  ⟨0x100, 32, 0x8, [⟨15, 0, .ro, (fun _ _ => 0), .any⟩,
    ⟨17, 16, .ro, (fun _ _ => 0), .any⟩,
    ⟨18, 18, .ro, (fun _ _ => 0), .any⟩,
    ⟨19, 19, .ro, (fun _ _ => 0), .any⟩]⟩]

/-- Registers of the kind 0x0A page. -/
def regsHs : List RegDef := [
  ⟨0x040, 1, 0x8, [⟨0, 0, .ro, (fun _ _ => 0), .any⟩,
    ⟨1, 1, .ro, (fun _ _ => 0), .any⟩,
    ⟨2, 2, .ro, (fun _ _ => 0), .any⟩,
    ⟨13, 8, .ro, (fun _ _ => 0), .any⟩]⟩,
  ⟨0x048, 1, 0x8, [⟨31, 0, .ro, (fun _ _ => 0), .any⟩,
    ⟨63, 32, .ro, (fun _ _ => 0), .any⟩]⟩,
  ⟨0x050, 1, 0x8, [⟨7, 0, .rw, (fun _ _ => 24), .any⟩]⟩,
  ⟨0x060, 4, 0x8, [⟨11, 0, .rwl, (fun _ i => regionDefaultSize i), .any⟩,
    ⟨43, 32, .ro, (fun _ i => regionDefaultBase i), .any⟩]⟩,
  ⟨0x080, 1, 0x8, [⟨11, 0, .ro, (fun _ _ => regionDefaultSize 4), .any⟩,
    ⟨43, 32, .ro, (fun _ _ => regionDefaultBase 4), .any⟩]⟩]

/-- Registers of the kind 0x0B page. -/
def regsPc : List RegDef := [
  ⟨0x040, 1, 0x8, [⟨6, 0, .ro, (fun _ _ => 0), .any⟩,
    ⟨14, 8, .ro, (fun _ _ => 0), .any⟩,
    ⟨15, 15, .wo, (fun _ _ => 0), .any⟩,
    ⟨63, 32, .ro, (fun _ _ => 0), .any⟩]⟩,
  ⟨0x048, 1, 0x8, [⟨31, 0, .ro, (fun _ _ => 0), .any⟩,
    ⟨63, 32, .ro, (fun _ _ => 0), .any⟩]⟩,
  ⟨0x050, 1, 0x8, [⟨36, 0, .ro, (fun _ _ => 0), .any⟩,
    ⟨63, 63, .w1c, (fun _ _ => 0), .any⟩]⟩,
  ⟨0x058, 1, 0x8, [⟨4, 0, .ro, (fun _ _ => 0), .any⟩,
    ⟨12, 8, .ro, (fun _ _ => 0), .any⟩,
    ⟨20, 16, .ro, (fun _ _ => 0), .any⟩,
    ⟨28, 24, .ro, (fun _ _ => 0), .any⟩,
    ⟨47, 32, .ro, (fun _ _ => 0), .any⟩]⟩]

/-- Registers of the kind 0x16 page. -/
def regsCel : List RegDef := [
  ⟨0x040, 1, 0x8, [⟨0, 0, .rw, (fun _ _ => 0), .any⟩,
    ⟨1, 1, .wo, (fun _ _ => 0), .any⟩,
    ⟨2, 2, .wo, (fun _ _ => 0), .any⟩,
    ⟨3, 3, .wo, (fun _ _ => 0), .any⟩,
    ⟨4, 4, .wo, (fun _ _ => 0), .any⟩]⟩,
  ⟨0x048, 1, 0x8, [⟨4, 0, .rw, (fun _ _ => 12), .u 0 16⟩,
    ⟨8, 8, .rw, (fun _ _ => 1), .any⟩,
    ⟨9, 9, .rw, (fun _ _ => 1), .any⟩,
    ⟨10, 10, .rw, (fun _ _ => 1), .any⟩,
    ⟨11, 11, .rw, (fun _ _ => 1), .any⟩]⟩,
  ⟨0x050, 1, 0x8, [⟨2, 0, .ro, (fun _ _ => 0), .any⟩,
    ⟨3, 3, .w1c, (fun _ _ => 0), .any⟩,
    ⟨4, 4, .w1c, (fun _ _ => 0), .any⟩,
    ⟨27, 16, .ro, (fun _ _ => 0), .any⟩,
    ⟨63, 32, .ro, (fun _ _ => 0), .any⟩]⟩,
  ⟨0x058, 1, 0x8, [⟨3, 0, .ro, (fun _ _ => 0), .any⟩,
    ⟨31, 16, .ro, (fun _ _ => 0), .any⟩,
    ⟨63, 32, .ro, (fun _ _ => 0), .any⟩]⟩,
  ⟨0x060, 1, 0x8, [⟨63, 0, .ro, (fun _ _ => 0), .any⟩]⟩,
  ⟨0x068, 1, 0x8, [⟨31, 0, .ro, (fun _ _ => 0), .any⟩,
    ⟨63, 32, .ro, (fun _ _ => 0), .any⟩]⟩,
  ⟨0x070, 1, 0x8, [⟨47, 0, .ro, (fun _ _ => 1), .any⟩]⟩,
  ⟨0x078, 1, 0x8, [⟨63, 0, .ro, (fun _ _ => 0), .any⟩]⟩,
  ⟨0x080, 1, 0x8, [⟨63, 0, .ro, (fun _ _ => 0), .any⟩]⟩,
  ⟨0x088, 1, 0x8, [⟨31, 0, .ro, (fun _ _ => 0), .any⟩]⟩,
  ⟨0x090, 1, 0x8, [⟨8, 0, .rw, (fun _ _ => 0), .any⟩,
    ⟨16, 16, .rw, (fun _ _ => 0), .any⟩]⟩,
  ⟨0x098, 1, 0x8, [⟨1, 0, .rw, (fun _ _ => 0), .any⟩,
    ⟨14, 8, .rw, (fun _ _ => 0), .any⟩,
    ⟨18, 16, .rw, (fun _ _ => 0), .any⟩,
    ⟨29, 24, .rw, (fun _ _ => 1), .u 1 32⟩,
    ⟨45, 32, .rw, (fun _ _ => 0), .any⟩,
    ⟨63, 63, .rw, (fun _ _ => 0), .any⟩]⟩,
  ⟨0x0A0, 1, 0x8, [⟨36, 24, .rw, (fun _ _ => 0), .any⟩]⟩,
  ⟨0x0A8, 1, 0x8, [⟨8, 0, .rw, (fun _ _ => 0), .any⟩,
    ⟨22, 16, .rw, (fun _ _ => 0), .any⟩,
    ⟨26, 24, .rw, (fun _ _ => 0), .any⟩,
    ⟨63, 32, .rw, (fun _ _ => 0), .any⟩]⟩,
  ⟨0x0B0, 1, 0x8, [⟨63, 0, .rw, (fun _ _ => 0), .any⟩]⟩,
  ⟨0x0B8, 1, 0x8, [⟨1, 0, .ro, (fun _ _ => 0), .any⟩,
    ⟨2, 2, .w1c, (fun _ _ => 0), .any⟩,
    ⟨31, 16, .ro, (fun _ _ => 0), .any⟩,
    ⟨63, 32, .ro, (fun _ _ => 0), .any⟩]⟩]

/-- Registers of the kind 0x12 page. -/
def regsMon : List RegDef := [
  ⟨0x040, 1, 0x8, [⟨0, 0, .rw, (fun _ _ => 0), .any⟩,
    ⟨11, 8, .rw, (fun _ _ => 0), .any⟩,
    ⟨13, 12, .rw, (fun _ _ => 0), .any⟩,
    ⟨31, 16, .rw, (fun _ _ => 1000), .any⟩]⟩,
  ⟨0x048, 1, 0x8, [⟨0, 0, .rw, (fun _ _ => 0), .any⟩,
    ⟨1, 1, .ro, (fun _ _ => 0), .any⟩]⟩,
  ⟨0x050, 1, 0x8, [⟨5, 0, .rw, (fun _ _ => 0), .any⟩]⟩,
  ⟨0x058, 1, 0x8, [⟨0, 0, .wo, (fun _ _ => 0), .any⟩,
    ⟨1, 1, .wo, (fun _ _ => 0), .any⟩]⟩,
  ⟨0x060, 1, 0x8, [⟨0, 0, .wo, (fun _ _ => 0), .any⟩,
    ⟨1, 1, .wo, (fun _ _ => 0), .any⟩]⟩,
  ⟨0x068, 1, 0x8, [⟨11, 0, .ro, (fun _ _ => 0), .any⟩,
    ⟨21, 16, .ro, (fun _ _ => 0), .any⟩,
    ⟨24, 24, .ro, (fun _ _ => 0), .any⟩,
    ⟨25, 25, .ro, (fun _ _ => 0), .any⟩,
    ⟨26, 26, .ro, (fun _ _ => 0), .any⟩,
    ⟨27, 27, .ro, (fun _ _ => 0), .any⟩]⟩,
  ⟨0x070, 1, 0x8, [⟨63, 0, .ro, (fun _ _ => 0), .any⟩]⟩,
  ⟨0x078, 1, 0x8, [⟨0, 0, .ro, (fun _ _ => 0), .any⟩,
    ⟨3, 1, .ro, (fun _ _ => 0), .any⟩,
    ⟨4, 4, .w1c, (fun _ _ => 0), .any⟩,
    ⟨5, 5, .w1c, (fun _ _ => 0), .any⟩,
    ⟨6, 6, .w1c, (fun _ _ => 0), .any⟩,
    ⟨10, 8, .ro, (fun _ _ => 0), .any⟩,
    ⟨11, 11, .ro, (fun _ _ => 0), .any⟩,
    ⟨13, 12, .ro, (fun _ _ => 2), .any⟩,
    ⟨19, 16, .ro, (fun _ _ => 0), .any⟩]⟩,
  ⟨0x080, 1, 0x8, [⟨15, 0, .ro, (fun _ _ => 0), .any⟩,
    ⟨31, 16, .ro, (fun _ _ => 0), .any⟩,
    ⟨47, 32, .ro, (fun _ _ => 0), .any⟩,
    ⟨63, 63, .wo, (fun _ _ => 0), .any⟩]⟩,
  ⟨0x088, 1, 0x8, [⟨31, 0, .ro, (fun _ _ => 0), .any⟩,
    ⟨63, 32, .ro, (fun _ _ => 0), .any⟩]⟩,
  ⟨0x090, 1, 0x8, [⟨63, 0, .ro, (fun _ _ => 0), .any⟩]⟩,
  ⟨0x098, 1, 0x8, [⟨63, 0, .ro, (fun _ _ => 0), .any⟩]⟩,
  ⟨0x0A0, 1, 0x8, [⟨5, 0, .rw, (fun _ _ => 0), .any⟩,
    ⟨6, 6, .rw, (fun _ _ => 0), .any⟩,
    ⟨18, 8, .rw, (fun _ _ => 1), .any⟩]⟩,
  ⟨0x0A8, 1, 0x8, [⟨7, 0, .rw, (fun _ _ => 0), .any⟩]⟩,
  ⟨0x0B0, 1, 0x8, [⟨15, 0, .ro, (fun _ _ => 0), .any⟩,
    ⟨31, 16, .ro, (fun _ _ => 0), .any⟩,
    ⟨47, 32, .ro, (fun _ _ => 0), .any⟩,
    ⟨63, 48, .ro, (fun _ _ => 0), .any⟩]⟩,
  ⟨0x0B8, 1, 0x8, [⟨63, 0, .ro, (fun _ _ => 0), .any⟩]⟩,
  ⟨0x100, 16, 0x8, [⟨5, 0, .rw, (fun _ _ => 0), .any⟩]⟩,
  ⟨0x180, 4, 0x8, [⟨5, 0, .rw, (fun _ _ => 0), .any⟩]⟩,
  ⟨0x200, 16, 0x8, [⟨11, 0, .ro, (fun _ _ => 0), .any⟩,
    ⟨21, 16, .ro, (fun _ _ => 0), .any⟩,
    ⟨25, 25, .ro, (fun _ _ => 0), .any⟩,
    ⟨26, 26, .ro, (fun _ _ => 0), .any⟩,
    ⟨27, 27, .ro, (fun _ _ => 0), .any⟩,
    ⟨63, 32, .ro, (fun _ _ => 0), .any⟩]⟩,
  ⟨0x280, 4, 0x8, [⟨11, 0, .ro, (fun _ _ => 0), .any⟩,
    ⟨21, 16, .ro, (fun _ _ => 0), .any⟩,
    ⟨25, 25, .ro, (fun _ _ => 0), .any⟩,
    ⟨26, 26, .ro, (fun _ _ => 0), .any⟩,
    ⟨27, 27, .ro, (fun _ _ => 0), .any⟩,
    ⟨63, 32, .ro, (fun _ _ => 0), .any⟩]⟩,
  ⟨0x300, 8, 0x10, [⟨5, 0, .rw, (fun _ _ => 0), .any⟩,
    ⟨6, 6, .rw, (fun _ _ => 0), .any⟩,
    ⟨11, 8, .rw, (fun _ _ => 1), .any⟩,
    ⟨19, 12, .rw, (fun _ _ => 0), .any⟩,
    ⟨31, 20, .rw, (fun _ _ => 0), .any⟩,
    ⟨43, 32, .rw, (fun _ _ => 4095), .any⟩]⟩,
  ⟨0x308, 8, 0x10, [⟨0, 0, .ro, (fun _ _ => 0), .any⟩,
    ⟨1, 1, .ro, (fun _ _ => 0), .any⟩,
    ⟨7, 4, .ro, (fun _ _ => 0), .any⟩,
    ⟨31, 16, .ro, (fun _ _ => 0), .any⟩]⟩]

/-- Registers of the kind 0x14 page. -/
def regsKiln : List RegDef := [
  ⟨0x040, 1, 0x8, [⟨3, 0, .rw, (fun _ _ => 3), .q 1 8⟩,
    ⟨17, 8, .rw, (fun _ _ => 50), .u 1 1000⟩,
    ⟨47, 32, .rw, (fun _ _ => 0), .s (-32767) 32767⟩]⟩,
  ⟨0x048, 1, 0x8, [⟨0, 0, .wo, (fun _ _ => 0), .any⟩]⟩,
  ⟨0x050, 1, 0x8, [⟨2, 0, .ro, (fun _ _ => 0), .any⟩,
    ⟨5, 3, .ro, (fun _ _ => 0), .any⟩,
    ⟨6, 6, .ro, (fun _ _ => 0), .any⟩,
    ⟨7, 7, .w1c, (fun _ _ => 0), .any⟩,
    ⟨13, 8, .ro, (fun _ _ => 0), .any⟩,
    ⟨31, 16, .ro, (fun _ _ => 0), .any⟩,
    ⟨37, 32, .ro, (fun _ _ => 0), .any⟩,
    ⟨47, 40, .ro, (fun _ _ => 0), .any⟩]⟩,
  ⟨0x058, 1, 0x8, [⟨63, 0, .ro, (fun _ _ => 0), .any⟩]⟩,
  ⟨0x060, 1, 0x8, [⟨63, 0, .ro, (fun _ _ => 0), .any⟩]⟩,
  ⟨0x068, 1, 0x8, [⟨15, 0, .ro, (fun _ _ => 0), .any⟩,
    ⟨31, 16, .ro, (fun _ _ => 0xffff), .any⟩,
    ⟨32, 32, .ro, (fun _ _ => 0), .any⟩]⟩,
  ⟨0x080, 5, 0x8, [⟨3, 0, .ro, (fun _ _ => 0), .any⟩,
    ⟨7, 4, .ro, (fun _ _ => 0), .any⟩,
    ⟨11, 8, .ro, (fun _ _ => 0), .any⟩,
    ⟨15, 12, .ro, (fun _ _ => 0), .any⟩,
    ⟨19, 16, .ro, (fun _ _ => 0), .any⟩,
    ⟨23, 20, .ro, (fun _ _ => 0), .any⟩,
    ⟨27, 24, .ro, (fun _ _ => 0), .any⟩,
    ⟨31, 28, .ro, (fun _ _ => 0), .any⟩,
    ⟨35, 32, .ro, (fun _ _ => 0), .any⟩,
    ⟨39, 36, .ro, (fun _ _ => 0), .any⟩,
    ⟨43, 40, .ro, (fun _ _ => 0), .any⟩,
    ⟨47, 44, .ro, (fun _ _ => 0), .any⟩,
    ⟨51, 48, .ro, (fun _ _ => 0), .any⟩,
    ⟨55, 52, .ro, (fun _ _ => 0), .any⟩,
    ⟨59, 56, .ro, (fun _ _ => 0), .any⟩,
    ⟨63, 60, .ro, (fun _ _ => 0), .any⟩]⟩,
  ⟨0x0A8, 1, 0x8, [⟨2, 0, .ro, (fun _ _ => 0), .any⟩,
    ⟨14, 8, .ro, (fun _ _ => 0), .any⟩,
    ⟨47, 32, .ro, (fun _ _ => 0), .any⟩]⟩]

/-- Registers of the kind 0x08 page. -/
def regsTs : List RegDef := [
  ⟨0x040, 1, 0x8, [⟨15, 0, .ro, (fun _ _ => 0), .any⟩,
    ⟨31, 16, .ro, (fun _ _ => 0), .any⟩,
    ⟨34, 32, .ro, (fun _ _ => 0), .any⟩,
    ⟨35, 35, .ro, (fun _ _ => 0), .any⟩,
    ⟨47, 40, .ro, (fun _ _ => 0), .any⟩,
    ⟨63, 48, .ro, (fun _ _ => 0x8000), .any⟩]⟩,
  ⟨0x048, 1, 0x8, [⟨5, 0, .rwl, (fun u _ => (tsNeighbours (u - 0x400)).getD 0 0), .any⟩,
    ⟨13, 8, .rwl, (fun u _ => (tsNeighbours (u - 0x400)).getD 1 0), .any⟩,
    ⟨21, 16, .rwl, (fun u _ => (tsNeighbours (u - 0x400)).getD 2 0), .any⟩,
    ⟨29, 24, .rwl, (fun u _ => (tsNeighbours (u - 0x400)).getD 3 0), .any⟩,
    ⟨7, 7, .rwl, (fun u _ => if 0 < (tsNeighbours (u - 0x400)).length then 1 else 0), .any⟩,
    ⟨15, 15, .rwl, (fun u _ => if 1 < (tsNeighbours (u - 0x400)).length then 1 else 0), .any⟩,
    ⟨23, 23, .rwl, (fun u _ => if 2 < (tsNeighbours (u - 0x400)).length then 1 else 0), .any⟩,
    ⟨31, 31, .rwl, (fun u _ => if 3 < (tsNeighbours (u - 0x400)).length then 1 else 0), .any⟩]⟩,
  ⟨0x050, 1, 0x8, [⟨1, 0, .ro, (fun _ _ => 0), .any⟩]⟩]

/-- Registers of the kind 0x13 page. -/
def regsRec : List RegDef := [
  ⟨0x040, 1, 0x8, [⟨7, 0, .rw, (fun _ _ => 100), .any⟩]⟩,
  ⟨0x048, 1, 0x8, [⟨0, 0, .wo, (fun _ _ => 0), .any⟩]⟩,
  ⟨0x050, 1, 0x8, [⟨0, 0, .ro, (fun _ _ => 0), .any⟩,
    ⟨1, 1, .ro, (fun _ _ => 0), .any⟩,
    ⟨2, 2, .ro, (fun _ _ => 0), .any⟩,
    ⟨14, 8, .ro, (fun _ _ => 0), .any⟩,
    ⟨53, 32, .ro, (fun _ _ => 0), .any⟩]⟩,
  ⟨0x058, 1, 0x8, [⟨31, 0, .ro, (fun _ _ => 0), .any⟩,
    ⟨63, 32, .ro, (fun _ _ => 0), .any⟩]⟩,
  ⟨0x060, 1, 0x8, [⟨21, 3, .rw, (fun _ _ => 0), .any⟩]⟩,
  ⟨0x068, 1, 0x8, [⟨31, 0, .ro, (fun _ _ => 0), .any⟩,
    ⟨63, 32, .ro, (fun _ _ => 0), .any⟩]⟩]

/-- Registers of the kind 0x15 page. -/
def regsTally : List RegDef := [
  ⟨0x040, 1, 0x8, [⟨0, 0, .wo, (fun _ _ => 0), .any⟩,
    ⟨1, 1, .wo, (fun _ _ => 0), .any⟩]⟩,
  ⟨0x048, 1, 0x8, [⟨15, 0, .rw, (fun _ _ => 0), .any⟩]⟩,
  ⟨0x050, 1, 0x8, [⟨0, 0, .ro, (fun _ _ => 0), .any⟩,
    ⟨1, 1, .ro, (fun _ _ => 0), .any⟩,
    ⟨2, 2, .w1c, (fun _ _ => 0), .any⟩,
    ⟨31, 16, .ro, (fun _ _ => 0), .any⟩,
    ⟨63, 32, .ro, (fun _ _ => 0), .any⟩]⟩,
  ⟨0x058, 1, 0x8, [⟨5, 0, .rw, (fun _ _ => 0), .any⟩,
    ⟨11, 8, .rw, (fun _ _ => 0), .any⟩]⟩,
  ⟨0x060, 1, 0x8, [⟨19, 0, .rw, (fun _ _ => 0), .any⟩,
    ⟨28, 24, .rw, (fun _ _ => 0), .any⟩,
    ⟨31, 31, .rw, (fun _ _ => 0), .any⟩]⟩,
  ⟨0x068, 1, 0x8, [⟨47, 0, .ro, (fun _ _ => 0), .any⟩]⟩,
  ⟨0x070, 1, 0x8, [⟨8, 0, .rw, (fun _ _ => 0), .any⟩]⟩,
  ⟨0x078, 1, 0x8, [⟨47, 0, .ro, (fun _ _ => 0), .any⟩,
    ⟨53, 48, .ro, (fun _ _ => 0), .any⟩,
    ⟨59, 56, .ro, (fun _ _ => 0), .any⟩,
    ⟨60, 60, .ro, (fun _ _ => 0), .any⟩]⟩,
  ⟨0x080, 1, 0x8, [⟨63, 0, .ro, (fun _ _ => 0), .any⟩]⟩,
  ⟨0x100, 4, 0x20, [⟨0, 0, .rw, (fun _ _ => 0), .any⟩,
    ⟨1, 1, .rw, (fun _ _ => 0), .any⟩,
    ⟨2, 2, .wo, (fun _ _ => 0), .any⟩,
    ⟨15, 8, .rw, (fun _ _ => 0), .any⟩]⟩,
  ⟨0x108, 4, 0x20, [⟨15, 0, .rw, (fun _ _ => 0), .any⟩,
    ⟨31, 16, .rw, (fun _ _ => 0), .any⟩]⟩,
  ⟨0x110, 4, 0x20, [⟨11, 0, .ro, (fun _ _ => 0), .any⟩,
    ⟨12, 12, .ro, (fun _ _ => 0), .any⟩,
    ⟨13, 13, .ro, (fun _ _ => 0), .any⟩,
    ⟨14, 14, .ro, (fun _ _ => 0), .any⟩,
    ⟨47, 32, .ro, (fun _ _ => 0), .any⟩]⟩,
  ⟨0x118, 4, 0x20, [⟨63, 0, .ro, (fun _ _ => 0), .any⟩]⟩]

/-- Registers of the kind 0x10 page. -/
def regsWarden : List RegDef := [
  ⟨0x040, 1, 0x8, [⟨2, 0, .ro, (fun _ _ => 0), .any⟩,
    ⟨3, 3, .ro, (fun _ _ => 0), .any⟩,
    ⟨4, 4, .ro, (fun _ _ => 0), .any⟩,
    ⟨5, 5, .ro, (fun _ _ => 0), .any⟩,
    ⟨10, 8, .ro, (fun _ _ => 0), .any⟩,
    ⟨13, 11, .ro, (fun _ _ => 0), .any⟩,
    ⟨16, 14, .ro, (fun _ _ => 0), .any⟩,
    ⟨21, 17, .ro, (fun _ _ => 0), .any⟩]⟩,
  ⟨0x048, 1, 0x8, [⟨7, 0, .ro, (fun _ _ => 0), .any⟩]⟩,
  ⟨0x050, 1, 0x8, [⟨7, 0, .ro, (fun _ _ => 0), .any⟩,
    ⟨8, 8, .ro, (fun _ _ => 0), .any⟩,
    ⟨9, 9, .ro, (fun _ _ => 0), .any⟩,
    ⟨10, 10, .ro, (fun _ _ => 0), .any⟩,
    ⟨25, 16, .ro, (fun _ _ => 0), .any⟩,
    ⟨63, 32, .ro, (fun _ _ => 0), .any⟩]⟩,
  ⟨0x058, 4, 0x8, [⟨63, 0, .ro, (fun _ _ => 0), .any⟩]⟩,
  ⟨0x078, 1, 0x8, [⟨0, 0, .wo, (fun _ _ => 0), .any⟩,
    ⟨1, 1, .wo, (fun _ _ => 0), .any⟩]⟩,
  ⟨0x080, 1, 0x8, [⟨3, 0, .ro, (fun _ _ => 0), .any⟩,
    ⟨4, 4, .ro, (fun _ _ => 0), .any⟩,
    ⟨25, 16, .ro, (fun _ _ => 0), .any⟩,
    ⟨63, 32, .ro, (fun _ _ => 0), .any⟩]⟩,
  ⟨0x088, 1, 0x8, [⟨12, 3, .rw, (fun _ _ => 0), .any⟩,
    ⟨13, 13, .rw, (fun _ _ => 0), .any⟩,
    ⟨14, 14, .rw, (fun _ _ => 0), .any⟩]⟩,
  ⟨0x090, 1, 0x8, [⟨63, 0, .rw, (fun _ _ => 0), .any⟩]⟩,
  ⟨0x098, 1, 0x8, [⟨0, 0, .wo, (fun _ _ => 0), .any⟩,
    ⟨1, 1, .wo, (fun _ _ => 0), .any⟩,
    ⟨2, 2, .wo, (fun _ _ => 0), .any⟩,
    ⟨3, 3, .wo, (fun _ _ => 0), .any⟩,
    ⟨4, 4, .wo, (fun _ _ => 0), .any⟩,
    ⟨5, 5, .wo, (fun _ _ => 0), .any⟩,
    ⟨6, 6, .wo, (fun _ _ => 0), .any⟩,
    ⟨7, 7, .wo, (fun _ _ => 0), .any⟩]⟩,
  ⟨0x0A0, 1, 0x8, [⟨2, 0, .ro, (fun _ _ => 0), .any⟩,
    ⟨4, 3, .ro, (fun _ _ => 0), .any⟩,
    ⟨11, 8, .ro, (fun _ _ => 0), .any⟩,
    ⟨15, 12, .ro, (fun _ _ => 0), .any⟩,
    ⟨21, 16, .ro, (fun _ _ => 0), .any⟩]⟩,
  ⟨0x0A8, 1, 0x8, [⟨25, 0, .rw, (fun _ _ => 0), .any⟩]⟩,
  ⟨0x0B0, 1, 0x8, [⟨63, 0, .wo, (fun _ _ => 0), .any⟩]⟩,
  ⟨0x0B8, 1, 0x8, [⟨7, 0, .ro, (fun _ _ => 0), .any⟩,
    ⟨8, 8, .ro, (fun _ _ => 0), .any⟩,
    ⟨63, 32, .ro, (fun _ _ => 0), .any⟩]⟩,
  ⟨0x0C0, 1, 0x8, [⟨15, 0, .ro, (fun _ _ => 0), .any⟩,
    ⟨31, 16, .ro, (fun _ _ => 0), .any⟩,
    ⟨47, 32, .ro, (fun _ _ => 0), .any⟩]⟩,
  ⟨0x0C8, 1, 0x8, [⟨15, 0, .ro, (fun _ _ => 0), .any⟩,
    ⟨16, 16, .ro, (fun _ _ => 0), .any⟩,
    ⟨18, 17, .ro, (fun _ _ => 0), .any⟩,
    ⟨47, 32, .ro, (fun _ _ => 0), .any⟩]⟩]

/-- The kind registers of a page by KIND code (R16). -/
def regsOfKind : Nat → List RegDef
  | 0x20 => regsGrp
  | 0x01 => regsRoot
  | 0x18 => regsSync
  | 0x04 => regsPb
  | 0x05 => regsPbd
  | 0x02 => regsRxc
  | 0x03 => regsTxc
  | 0x0D => regsSy
  | 0x0E => regsOrx
  | 0x0C => regsCc
  | 0x06 => regsCl
  | 0x07 => regsLane
  | 0x11 => regsLe
  | 0x19 => regsMc
  | 0x0F => regsCe
  | 0x17 => regsDsp
  | 0x09 => regsFh
  | 0x1A => regsHd
  | 0x0A => regsHs
  | 0x0B => regsPc
  | 0x16 => regsCel
  | 0x12 => regsMon
  | 0x14 => regsKiln
  | 0x08 => regsTs
  | 0x13 => regsRec
  | 0x15 => regsTally
  | 0x10 => regsWarden
  | _ => []

end Sys2Proof.Machine
end

