-- ==== Sys2Proof/Machine/State.lean ====
section
/-! DEFINITION.
The machine's state as plain data: the register pages of every unit, the state the spec gives each block beside its
registers, the addressed memories, and the queue of the commands that wait. State.reset is the machine right after
reset. -/
namespace Sys2Proof.Machine

/-- Why a command stops the machine with a fault. -/
inductive Fault where
  /-- Raised by no meaning of this model: every command of the table has an effect in the spec. Safe. -/
  | none
  deriving DecidableEq, Repr

/-- Why a command is refused by the model itself. -/
inductive Refusal where
  /-- Raised by Machine/Dispatch.lean for a command that has no meaning yet. Safe. -/
  | notModelled (mnemonic : String)
  deriving DecidableEq, Repr

/-- One write or action that has acted in the present Tc: unit, register, bits changed, and its place in the order of
R255 (class, then descending origin index). Class 4 is no write: a squall or a fault's reaction, which prevails (R254). -/
structure CollRec where
  uid : Nat := 0
  off : Nat := 0
  mask : Word := 0
  cls : Nat := 0
  idx : Nat := 0
  deriving DecidableEq, Repr

/-- CollRec at reset. -/
def CollRec.init : CollRec := {}

/-- One captured fault of FLT_FIRST or FLT_NEXT (R361, R362). -/
structure FltEnt where
  uid : Nat := 0
  code : Nat := 0
  cls : Nat := 0
  inj : Bool := false
  coin : Bool := false
  cyc : Nat := 0
  airless : Bool := false
  deriving DecidableEq, Repr

/-- FltEnt at reset. -/
def FltEnt.init : FltEnt := {}

/-- Time: the air-time counter as a count of Tc (R7, R34), the Tc elapsed, which no step moves, the elapsed instant of
the next tick boundary (R34, R49), whether the counter runs and the first collector cycle after the last step (R352); the spans of
elapsed Tc, newest first, in which receive instances were gated, at their ports alone, PBDs cleared or out of service, and outputs silent (R180), by instance and by PBD, and the Tc of this
tick in which samples were valid for the probe (R136). -/
structure Time where
  air : Nat := 0
  elapsed : Nat := 0
  tickStart : Nat := 0
  tickEnd : Nat := 16384
  running : Bool := false
  cycFrom : Nat := 0
  coll : List CollRec := []
  shutIn : Store (List (Nat × Nat)) := []
  shutPort : Store (List (Nat × Nat)) := []
  shutFill : Store (List (Nat × Nat)) := []
  shutOut : Store (List (Nat × Nat)) := []
  probed : Store Nat := []
  deriving DecidableEq, Repr

/-- Time at reset. -/
def Time.init : Time := {}

/-- An event on its way to the recorder, or staged in it (R372, R373, R378). `words` are the payload words w0, w1, …
with REPEAT 0; `excl` the payload words that the digest leaves out; `cyc` orders the faults of one cycle. -/
structure RecEv where
  typ : Nat := 0
  cls : Nat := 0
  inj : Bool := false
  same : Bool := false
  coin : Bool := false
  uid : Nat := 0
  words : List Word := []
  excl : List Nat := []
  cyc : Nat := 0
  opsec : Nat := 0
  pwrcyc : Nat := 0
  arrival : Nat := 0
  deriving DecidableEq, Repr

/-- RecEv at reset. -/
def RecEv.init : RecEv := {}

/-- The newest record of the main area, as the match test of R376 needs it. -/
structure RecNewest where
  typ : Nat := 0
  uid : Nat := 0
  flags : Nat := 0
  digest : BitVec 32 := 0
  arrival : Nat := 0
  off : Nat := 0
  rep : Nat := 0
  deriving DecidableEq, Repr

/-- RecNewest at reset. -/
def RecNewest.init : RecNewest := {}

/-- The MRAM write in progress (R377): a new record, an increment of the newest, or the FULL and after-full LOST writes
of the reserve (R379); FULL keeps the record that did not fit. -/
inductive RecWrite where
  | record (e : RecEv)
  | increment
  | full (e : RecEv)
  | afterFull
  deriving DecidableEq, Repr

/-- The recorder (chapter 16): events under way, the 64-entry staging buffer, the pending lost count, the write in
progress, the newest record, whether the after-full LOST record exists, a clear that waits for the write in progress, and the
HEAD and LOST total taken at the start of a clear (R382). -/
structure RecH where
  incoming : List RecEv := []
  staging : List RecEv := []
  writing : Option RecWrite := none
  pendingLost : Nat := 0
  newest : Option RecNewest := none
  afterFull : Bool := false
  clearAsk : Bool := false
  clearing : Option (Nat × Nat) := none
  deriving DecidableEq, Repr

/-- RecH at reset. -/
def RecH.init : RecH := {}

/-- The timed steps of a safe state (R355). -/
inductive SafeStep where
  | rampDown | silent | strobes
  deriving DecidableEq, Repr

/-- Fault handling (chapter 15) beside its registers: captured faults in order, the faults of the present collector
cycle, the faults of the Tc of the last fault with its elapsed instant (R19), the units whose fault set the legacy safe state, the elapsed instant from which FAULT_N is low and the end of its
pulse, the safe-state sequence, and the collector cycle that set FIRST_BIT (R352). -/
structure FltH where
  captured : List FltEnt := []
  cycle : List FltEnt := []
  cycleAt : Nat := 0
  now : List FltEnt := []
  nowAt : Nat := 0
  safeSetters : List Nat := []
  safeAt : Option Nat := none
  pinLowAt : Option Nat := none
  pulseEnd : Option Nat := none
  safeSeq : List (Nat × SafeStep) := []
  firstCyc : Nat := 0
  deriving DecidableEq, Repr

/-- FltH at reset. -/
def FltH.init : FltH := {}

/-- One MSI-X table entry (R426). -/
structure MsixEnt where
  addr : Word := 0
  data : BitVec 32 := 0
  masked : Bool := false
  pend : Bool := false
  deriving DecidableEq, Repr

/-- MsixEnt at reset. -/
def MsixEnt.init : MsixEnt := {}

/-- An MSI-X message sent: function (0 PF, 1 to 16 VF), device vector, address and data. -/
structure Msg where
  func : Nat := 0
  vec : Nat := 0
  addr : Word := 0
  data : BitVec 32 := 0
  deriving DecidableEq, Repr

/-- Msg at reset. -/
def Msg.init : Msg := {}

/-- A management SPI response: status and data bytes (R431, R432). -/
structure MspiResp where
  status : Nat := 0
  data : Option Word := none
  crc : Option Byte := none
  deriving DecidableEq, Repr

/-- MspiResp at reset. -/
def MspiResp.init : MspiResp := {}

/-- The host side (chapter 18) beside its registers: routes, VF UID sets and MSI-X tables; messages and management SPI
responses sent; PERST_N, the hold of BOOT_MODE 0b10 and
the speed and width that the link trains to; POR_N, RST_N, a sagged always-on rail and VDD_AO off; the kind of the
reset in force as LAST_RESET codes it; the elapsed instant of the last release, the seal, and that sparge has ended (R430). -/
structure HostH where
  routes : Store Word := []
  vfUid : Store Word := []
  msix : Store MsixEnt := []
  msgs : List Msg := []
  mspi : List MspiResp := []
  perstLow : Bool := false
  pcieHeld : Bool := false
  linkTo : Nat × Nat := (0, 0)
  porLow : Bool := false
  rstLow : Bool := false
  railLow : Bool := false
  aoOff : Bool := false
  resetKind : Nat := 0
  releaseAt : Nat := 0
  routeRej : Bool := false
  isSealed : Bool := false
  sparged : Bool := false
  deriving DecidableEq, Repr

/-- HostH at reset. -/
def HostH.init : HostH := {}

/-- The addressed memories of words, each with its own key space: beam codebooks (R62), channel-filter banks (R60), LUT entries as written and in force (R151, R157), chain coefficients (R182), RFFE
sequence frames (R104), engine instruction and data SRAM (R214), the context store (R241), recorder MRAM (R371), the tally
buffer (R385), tracer RAMs (R387), monitor burst buffer (R316), image slots (R409), settings and calibration stores
(R402). -/
inductive Ram where
  | cb | fcoef | lut | lutAct | mcCoef | ccSeq | imem | dmem | ctx | mram | tallyBuf | tracer
  | monBuf | slotA | slotB | setStore | calStore | token
  deriving DecidableEq, Repr

/-- The addressed memories: HBM by byte (R284), every other RAM by word. An unlisted address reads as zero. -/
structure Mem where
  hbm : Store Byte := []
  words : Store Quad := []
  deriving DecidableEq, Repr

/-- Mem at reset. -/
def Mem.init : Mem := {}

/-- A write to an addressed memory, made by a command's effect. -/
inductive MemOp where
  | byte (a : Nat) (v : Byte)
  | word (r : Ram) (i : Nat) (v : Quad)
  | clearRam (r : Ram)
  | clearWords (r : Ram) (lo hi : Nat)
  | clearHbm (lo hi : Nat)
  | clearPc (i : Nat)
  deriving DecidableEq, Repr

/-- A PTP master whose Announce messages the slave port receives (R41): its port identity, what it announces of its
grandmaster (class, accuracy, variance, priority 2, identity) and the steps to it, the instant of its last Announce and its
Announce interval in Tc. -/
structure PtpMaster where
  id : Nat
  cls : Nat
  acc : Nat
  var : Nat
  prio2 : Nat
  gm : Nat
  steps : Nat
  at_ : Nat
  ivl : Nat
  deriving DecidableEq, Repr

/-- The sync unit and the keel's operating counters (chapter 02) beside their registers. A source's offset is its time
minus the elapsed Tc, which no step moves. Sources are numbered 1 TRK, 2 PPS, 3 PTP as in SYNC_STAT.SOURCE. The step that is
decided holds d, the elapsed instant of its application, whether it is the first lock's, and its source. -/
structure SyncH where
  refOk : Bool := false
  trkBursts : List Int := []
  trkOff : Int := 0
  trkCrc : Bool := false
  crcAt : Option Nat := none
  trkSfnBad : Nat := 0
  ppsEdge : Option Nat := none
  ppsRun : Nat := 0
  ppsOff : Int := 0
  todWritten : Bool := false
  todCount : Option Nat := none
  ptpRun : Nat := 0
  ptpOff : Int := 0
  masters : List PtpMaster := []
  qualAt : Store Nat := []
  losses : List Nat := []
  takeover : Option Nat := none
  resync : Bool := false
  ho : Option (Nat × Nat × Nat) := none
  lockStart : Nat := 0
  fmStart : Nat := 0
  fmSum : Int := 0
  fmCount : Nat := 0
  means : List (Nat × Nat) := []
  overRun : Nat := 0
  step : Option (Int × Nat × Bool × Nat) := none
  opsec : Nat := 0
  pwrcyc : Nat := 0
  deriving DecidableEq, Repr

/-- SyncH at reset. -/
def SyncH.init : SyncH := {}

/-- A direction of a side of a TDD passband (R69, R70): none yet, downlink or uplink. -/
inductive Dir where
  | none | dl | ul
  deriving DecidableEq, Repr

/-- A side of a passband. -/
inductive Side where
  | donor | service
  deriving DecidableEq, Repr

/-- The timed steps of R70 at one side: ramp-down begins; output silent, gates closed, TXCs to STANDBY; switch strobes
to receive; receive input of the new direction ungated; receive gated and switch strobes to transmit; TXCs begin STANDBY
to TX; PA strobes high; TXCs in TX and ramp-up; full output. -/
inductive DirStep where
  | rampDown | silent | swRx | rxOpen | rxGateSwTx | txBegin | paHigh | txOn | full
  deriving DecidableEq, Repr

/-- A side's direction: the valid direction, whether transmit demand stands, whether receive is open, whether a part of the
last direction cue has expired and shut the side until the next one, and that cue's context (R72). -/
structure SideH where
  dir : Dir := .none
  demand : Bool := false
  rxOpen : Bool := false
  shut : Bool := false
  ctx : Nat := 0
  deriving DecidableEq, Repr

/-- SideH at reset. -/
def SideH.init : SideH := {}

/-- One scheduled step of a direction switch: the air count of its instant, the side, the step, the direction switched
to, the cue's tolerance and its context. -/
structure DirSched where
  due : Nat := 0
  side : Side := .donor
  step : DirStep := .full
  dir : Dir := .none
  tol : Nat := 0
  ctx : Nat := 0
  deriving DecidableEq, Repr

/-- DirSched at reset. -/
def DirSched.init : DirSched := {}

/-- The TDD pattern registers as committed or applied (R69). -/
structure TddPat where
  p1 : Word := 0
  p2 : Word := 0
  mu : Nat := 0
  taofs : Nat := 0
  deriving DecidableEq, Repr

/-- TddPat at reset. -/
def TddPat.init : TddPat := {}

/-- A direction cue that the runtime has yet to arm: its stamp as an air count, its direction, period and count, and whether
it is one of the pattern in force (R69, R261). -/
structure CueAsk where
  stamp : Nat := 0
  ul : Bool := false
  period : Nat := 0
  count : Nat := 0
  old : Bool := false
  deriving DecidableEq, Repr

/-- CueAsk at reset. -/
def CueAsk.init : CueAsk := {}

/-- A passband beside its registers (chapter 03): pattern applied, pattern pending with its air count, a commit held until
the first lock (R440), the contexts of the direction cues of the pattern applied and of the pattern pending, direction cues
not yet armed for want of a context, directions of the two sides, scheduled direction steps, the contexts of the
direction cues under way of which a part executed late, expired, or failed (R72, R96), and the occurrences (context and air count of the
stamp) whose DIR the heads have been sent (R271). -/
structure PbH where
  applied : Option TddPat := none
  pending : Option (TddPat × Nat) := none
  heldCommit : Option Word := none
  cues : List Nat := []
  nextCues : List Nat := []
  toArm : List CueAsk := []
  donor : SideH := {}
  service : SideH := {}
  steps : List DirSched := []
  dirLate : List Nat := []
  dirExpired : List Nat := []
  dirFail : List Nat := []
  dirSent : List (Nat × Nat) := []
  deriving DecidableEq, Repr

/-- PbH at reset. -/
def PbH.init : PbH := {}

/-- Retune sequence of a PBD (R75): idle, asked for by a write at an elapsed instant, or running since T0. -/
inductive RetuneSt where
  | idle
  | asked (at_ : Nat)
  | ramp (t0 : Nat)
  | refill (t0 : Nat)
  | rise (t0 : Nat)
  deriving DecidableEq, Repr

/-- First-light bookkeeping of a PBD (R204): elapsed start of the phase, L4's SETPT and EN before MEASURE, least ISO_EST,
and whether a measured ISO_PASSIVE is kept. -/
structure FlH where
  start : Nat := 0
  cap : Option (Nat × Bool) := none
  leastIso : Option Int := none
  kept : Bool := false
  endDue : Bool := false
  deriving DecidableEq, Repr

/-- FlH at reset. -/
def FlH.init : FlH := {}

/-- Noise-rise guard bookkeeping (R202): last fresh path loss and the elapsed instant it became stale. -/
structure NrgH where
  fresh : Option Int := none
  staleAt : Option Nat := none
  deriving DecidableEq, Repr

/-- NrgH at reset. -/
def NrgH.init : NrgH := {}

/-- The oscillation detector of a PBD (R191): the blocks of the window, newest first, each with its 64 sub-band output powers
and the net gain they are referred to the input with. -/
structure OscH where
  window : List (List Nat × Int) := []
  last : Nat := 0
  deriving DecidableEq, Repr

/-- OscH at reset. -/
def OscH.init : OscH := {}

/-- The step of a squall sequence (R188). -/
inductive SqStep where
  | silent | switches
  deriving DecidableEq, Repr

/-- A cause of margin unknown (R131): its row in the table (0 no estimate, 1 valid fraction, 2 MODEL_LATE, 3 SWAPMODEL
expired, 4 swap to an invalid slot, 5 divergence revert, 6 lane removed, 7 DLY_UNDERRUN, 8 retune), the lane, the elapsed
instant that an ending condition counts from, whether the cold cap is in force for it, and whether a publication that counts
for it has come. -/
structure Unk where
  cause : Nat := 0
  lane : Nat := 0
  from_ : Nat := 0
  cold : Bool := false
  pub : Bool := false
  deriving DecidableEq, Repr

/-- Unk at reset. -/
def Unk.init : Unk := {}

/-- What the loop engine samples of one slot at a tick boundary (R146): m and x, none where the reading is not valid. -/
structure SlotIn where
  m : Option Int := none
  x : Option Int := none
  deriving DecidableEq, Repr

/-- SlotIn at reset. -/
def SlotIn.init : SlotIn := {}

/-- What the loop engine samples of a PBD at a tick boundary (R146). -/
structure LoopIn where
  known : Bool := false
  iso : Option Int := none
  cold : Int := 0
  nrg : Option (Int × Int) := none
  backoff : Bool := false
  pred : Option Int := none
  orx : Option (Nat × Int) := none
  slots : Store SlotIn := []
  deriving DecidableEq, Repr

/-- LoopIn at reset. -/
def LoopIn.init : LoopIn := {}

/-- A PBD beside its registers (chapters 03, 05, 06 and 08): reserved capacity, retune, NCO words in effect, the values that stay in
force of registers written in this tick (R74), the words that a running retune took at T0 (R75), the output gate of the start entry and the planner's pending entry with the elapsed instant of its tick, a pending gain command with its winner and limit, a
replay's silence, the squall sequence, T_hold and a restart request, probation, the detector, the guard, first light, clip
runs, the causes of margin unknown, the ramp ceiling in units of 2^-16 dB, the sampled loop inputs, the supervision
observation of this tick. For the probe (R135 to R137): the valid Tc of each of the last 1,920 ticks and the valid readings of the output
chain in each, newest first, with those of this tick, and the level injected; and the last changes of the net gain, newest first, as
the gain before and the elapsed instant (R191). -/
structure PbdH where
  capacity : Bool := false
  retune : RetuneSt := .idle
  heldRetune : Option Nat := none
  cueNco : Option (Nat × Nat) := none
  ncoRx : Nat := 0
  ncoTx : Nat := 0
  ncoNext : Option (Nat × Nat) := none
  held : List (Nat × Word) := []
  extGate : Bool := false
  extSettle : Option Nat := none
  pendingEntry : Option (Nat × Nat × Bool) := none
  pendingNext : Option (Nat × Nat) := none
  gainPending : Option (Int × Nat) := none
  winPending : Option (Nat × Nat) := none
  clipUntil : Option Nat := none
  clippedTick : Bool := false
  clipRun : Nat := 0
  cleanRun : Nat := 0
  silentBy : Bool := false
  sqSeq : List (Nat × SqStep) := []
  tHold : Nat := 0
  restartReq : Bool := false
  reenter : Bool := false
  probEnd : Option Nat := none
  osc : OscH := {}
  nrg : NrgH := {}
  fl : FlH := {}
  unknown : List Unk := [{ cause := 0, lane := 0, from_ := 0, cold := false, pub := false }]
  knownLast : Bool := false
  rampStart : Bool := false
  rampFine : Option Int := none
  sampled : Bool := false
  winNext : Option (Nat × Nat) := none
  loopIn : LoopIn := {}
  gPrev : Option Int := none
  monObs : Option Int := none
  monAsked : Bool := false
  fencedBy : Nat := 0
  probeTicks : List Nat := []
  readsNow : List Int := []
  reads : List (List Int) := []
  probeLevel : Option Int := none
  gainWas : List (Int × Nat) := []
  deriving DecidableEq, Repr

/-- PbdH at reset. -/
def PbdH.init : PbdH := {}

/-- The timed steps of a TXC's sequences (R70, R87, R88): silent with PA strobes low; switch strobes to receive; switch
strobes to transmit; the STANDBY to TX passage begins; PA strobes high; ramp-up begins; full output in TX; ramp-down of a
stop ends in STANDBY. -/
inductive TxStep where
  | silent | swRx | swTx | pass | paHigh | rampUp | full | standby
  deriving DecidableEq, Repr

/-- An RXC beside its registers (chapter 04): reserved instances (PBD index and slot), last overrange, rotation turn, the
corrections of its 17 slices, a calibration under way and the pipeline fill, and the overrange samples of the cellar's interval, as
runs of their first and last instant (R73). -/
structure RxcH where
  insts : List (Nat × Nat) := []
  lastOvr : Option Nat := none
  turnTicks : Nat := 0
  corr : Store Word := []
  restoreDue : Option Nat := none
  calDue : Option Nat := none
  fillDue : Option Nat := none
  ovrs : List (Nat × Nat) := []
  rxFrom : Option Nat := none
  rxWas : List (Nat × Nat) := []
  deriving DecidableEq, Repr

/-- RxcH at reset. -/
def RxcH.init : RxcH := {}

/-- A TXC beside its registers: reserved instances, scheduled steps, strobe phases, output level, whether it has emitted in the tick (R86),
a lock wait's demand instant and the context of the cue that made that demand (R96). -/
structure TxcH where
  insts : List (Nat × Nat) := []
  seq : List (Nat × TxStep) := []
  paHigh : Bool := false
  swTx : Bool := false
  out : Bool := false
  gateShut : Bool := false
  emitted : Bool := false
  restoreDue : Option Nat := none
  calDue : Option Nat := none
  trim : Word := 0
  waitFrom : Option Nat := none
  waitCtx : Option Nat := none
  deriving DecidableEq, Repr

/-- TxcH at reset. -/
def TxcH.init : TxcH := {}

/-- One entry of a synthesiser's calibration store (R94). -/
structure SyCal where
  word : Nat := 0
  band : Nat := 0
  trim : Nat := 0
  lf : Nat := 0
  temp : Int := 0
  valid : Bool := false
  deriving DecidableEq, Repr

/-- SyCal at reset. -/
def SyCal.init : SyCal := {}

/-- A synthesiser beside its registers: the calibration store, the hop in progress (entry, start, cold) and whether it
started from LOCKED, a queued entry, the relock deadline after an unlock, and the requests of one Tc in the order of R255 (class,
origin index and entry) with the elapsed instant of that Tc (R95). -/
structure SyH where
  cal : Store SyCal := []
  hop : Option (Nat × Nat × Bool) := none
  wasLocked : Bool := false
  queued : Option Nat := none
  relock : Option Nat := none
  asks : List (Nat × Nat × Nat) := []
  asksAt : Nat := 0
  deriving DecidableEq, Repr

/-- SyH at reset. -/
def SyH.init : SyH := {}

/-- A sequence slot that runs on a CC: its slot, the buses it uses and the elapsed end of its last bus park cycle
(R104), and whether a safe state has cut it to the frame that it carried (R355). -/
structure RffeRun where
  slot : Nat := 0
  buses : List Nat := []
  due : Nat := 0
  cut : Bool := false
  deriving DecidableEq, Repr

/-- RffeRun at reset. -/
def RffeRun.init : RffeRun := {}

/-- A CC beside its registers (chapter 04): running slots, the waiting start, the host frame waiting and running with its
end, the dividers in effect (76 where none is listed), and the strobes set high by cues. -/
structure CcH where
  running : List RffeRun := []
  waiting : Option Nat := none
  cmd : Option Word := none
  cmdRunning : Option (Word × Nat) := none
  divs : Store Nat := []
  cueHigh : Nat := 0
  deriving DecidableEq, Repr

/-- CcH at reset. -/
def CcH.init : CcH := {}

/-- An observation receiver beside its registers: the dwell table in effect, the ticks left of the present entry, the end
of its settling, a RUN change due at the tick and the run of EMW blocks. -/
structure OrxH where
  table : List Word := []
  ticksLeft : Nat := 0
  settleEnd : Option Nat := none
  stopDue : Bool := false
  startDue : Bool := false
  pos : Nat := 0
  adv : Bool := false
  steady : Bool := false
  settles : List (Nat × Nat) := []
  offFrom : Option Nat := none
  txOffs : List (Nat × Nat) := []
  emwAt : Nat := 0
  deriving DecidableEq, Repr

/-- OrxH at reset. -/
def OrxH.init : OrxH := {}

/-- The module root beside its registers (chapters 08, 15 and 18): MUTE_N's level, whether it has been
high for 16,384 Tc, the module squall sequence, strobes held low, the safe
state's command in force at the TXCs, and its release due at the next tick boundary (R355, R357). -/
structure RootH where
  muteLow : Bool := false
  muteRel : Bool := false
  seq : List (Nat × SqStep) := []
  strobesLow : Bool := false
  safeCmd : Bool := false
  safeUp : Bool := false
  deriving DecidableEq, Repr

/-- RootH at reset. -/
def RootH.init : RootH := {}

/-- A model swap of a lane (R128 to R130): the context of its cue, its stamp S as an air count, key and slot, whether its
prefetch runs or is complete (with the elapsed instant of completion), whether the slot was VALID as it began, whether an
uncorrectable error has ended it, whether it is late, whether its cue is staged at the lane, and whether its cue has executed. -/
structure Swap where
  ctx : Nat := 0
  stamp : Nat := 0
  key : Nat := 0
  slot : Nat := 0
  started : Bool := false
  done : Option Nat := none
  bank : Bool := false
  failed : Bool := false
  late : Bool := false
  staged : Bool := false
  exe : Bool := false
  deriving DecidableEq, Repr

/-- Swap at reset. -/
def Swap.init : Swap := {}

/-- A lane beside its registers (chapter 05): its swaps in the order of their prefetches, the slot whose model the shadow
buffer holds, the tap memory and the shadow buffer, a bank copy to load, a revert whose prefetch runs, the state that HOLD
keeps, the RESID window of up to 64 ticks, r_block summed over the tick as an exact fraction with its count, whether a block
was held in this tick, divergence instants, writes of models to the bank under way, underruns in this tick and in the block,
the head latency followed, whether first light holds the lane READY, and whether the lane leads a gang (R118); the taps of the last block with the elapsed instant from
which they apply, the elapsed start of the running block and the LANE_ADAPT word that it runs under (R120, R122). -/
structure LaneH where
  swaps : List Swap := []
  shadow : Option Nat := none
  taps : Store Word := []
  shadowTaps : Store Word := []
  loadDue : Bool := false
  revert : Bool := false
  wasTrack : Bool := false
  window : List Int := []
  sumNum : Nat := 0
  sumDen : Nat := 1
  blocks : Nat := 0
  held : Bool := false
  divs : List Nat := []
  writing : List (Nat × Store Word) := []
  underrun : Bool := false
  blockBad : Bool := false
  headLat : Int := 0
  flHeld : Bool := false
  next : Option (Nat × Store Word) := none
  blockAt : Nat := 0
  blockAdapt : Option Word := none
  leads : Bool := false
  deriving DecidableEq, Repr

/-- LaneH at reset. -/
def LaneH.init : LaneH := {}

/-- The model bank's on-die state (R124, R127): VALID bits, which physical copy of a slot is newest, and the accesses under
way by CL page. -/
structure BankH where
  valid : Store Nat := []
  newest : Store Nat := []
  busy : Store Nat := []
  deriving DecidableEq, Repr

/-- BankH at reset. -/
def BankH.init : BankH := {}

/-- A block-floating stage of a law loop (R149): two mantissas and the shared exponent. -/
structure Stage where
  m0 : Int := 0
  m1 : Int := 0
  e : Int := 0
  deriving DecidableEq, Repr

/-- Stage at reset. -/
def Stage.init : Stage := {}

/-- The relay of an auto-tune (R161): bias, present relay sign, whether it has changed yet, length of the half-cycle and of the cycle, whether the
half-cycle is overridden, overridden half-cycles in a row, cycles done, extremes of m in the cycle, and the last cycles'
lengths and amplitudes (twice a_i), newest first. -/
structure RelayH where
  uc : Int := 0
  r : Int := 0
  started : Bool := false
  turned : Bool := false
  half : Nat := 0
  cyc : Nat := 0
  inCycle : Bool := false
  ovr : Bool := false
  overRun : Nat := 0
  count : Nat := 0
  mMin : Int := 0
  mMax : Int := 0
  cycles : List (Nat × Int) := []
  deriving DecidableEq, Repr

/-- RelayH at reset. -/
def RelayH.init : RelayH := {}

/-- A loop slot (R149, R152): its six stages, whether it has been evaluated since it started, whether its law
resumes from the relay's bias, its relay, and an auto-tune cancelled by the PBD's leaving (R161). -/
structure SlotH where
  s0 : Stage := {}
  s1 : Stage := {}
  s2 : Stage := {}
  s3 : Stage := {}
  s4 : Stage := {}
  s5 : Stage := {}
  running : Bool := false
  relay : RelayH := {}
  backLaw : Bool := false
  cancelled : Bool := false
  deriving DecidableEq, Repr

/-- SlotH at reset. -/
def SlotH.init : SlotH := {}

/-- A PBD as it was before the restart of instant `at_`, which a squall of the same Tc undoes (R189): what the restart writes of its
registers, of its own state and of its slots. -/
structure Restarted where
  pbd : Nat
  at_ : Nat
  regs : List (Nat × Word)
  was : PbdH
  running : List (Nat × Bool)
  deriving DecidableEq, Repr

/-- The loop engine (chapter 06): loop registers in force (R157) with the writes that wait for the boundary, LUT writes
that wait, the slots, the length of the present tick (R165), the restarts of the present Tc, and the cycles that the present tick charges in
all (R162). -/
structure LoopH where
  act : Store Word := []
  dirty : List Nat := []
  lutDirty : List Nat := []
  slots : Store SlotH := []
  closed : Bool := false
  tickLen : Nat := 16384
  restarted : List Restarted := []
  charge : Nat := 0
  deriving DecidableEq, Repr

/-- LoopH at reset. -/
def LoopH.init : LoopH := {}

/-- A measurement chain beside its registers (chapter 07): the elapsed instant of its start or last reset from which output
instants count, outputs since then, outputs in a row with no gated sample, outputs that still hold a clipped one, the last
outputs (linear power, units of 2^-64 of full scale) newest first, the envelope, a start due at the boundary, the output
period and the support in outputs; integrators and combs of its CIC decimator, and the FIR's delay line newest first (R174). -/
structure McH where
  origin : Nat := 0
  outs : Nat := 0
  clean : Nat := 0
  clipLeft : Nat := 0
  ys : List Int := []
  env : Option Int := none
  startDue : Bool := false
  tout : Nat := 0
  support : Nat := 0
  ints : List Nat := []
  combs : List Nat := []
  line : List Nat := []
  deriving DecidableEq, Repr

/-- McH at reset. -/
def McH.init : McH := {}

/-- A cue context (R241): its image fields and the dispatcher's fields (`origin` and `sys` are bytes 14 to 15), and beside
them the arming order, the first effect Tc E as an air count (R247), whether it waits in the overflow list (R246), whether
it holds an in-flight slot (R250), and the stamp at which its last occurrence took effect or expired (R260). A context of
state 0 is FREE. -/
structure Ctx where
  stamp : Word := 0
  target : Nat := 0
  action : Nat := 0
  ctrl : Nat := 0
  tol : Nat := 0
  origin : Nat := 0
  sys : Bool := false
  period : Nat := 0
  count : Nat := 0
  state : Nat := 0
  result : Nat := 0
  lateness : Nat := 0
  occ : Nat := 0
  args : BitVec 256 := 0
  seq : Nat := 0
  e : Int := 0
  ovf : Bool := false
  slot : Bool := false
  slotAt : Nat := 0
  effAt : Word := 0
  deriving DecidableEq, Repr

/-- Ctx at reset. -/
def Ctx.init : Ctx := {}

/-- A ring (R256 to R262): its descriptor words D0 and D1, its indices, the counts of refused entries and lost
notifications, the lost notifications not yet told in a loss entry, the notification field of D3 ([46:32]), FAULT, and
whether it has raised its vector since FUNC last rang (R259). -/
structure RingH where
  base : Word := 0
  d1 : Word := 0x1F0004
  prod : Nat := 0
  cons : Nat := 0
  refused : Nat := 0
  lost : Nat := 0
  lossDue : Nat := 0
  notify : Nat := 0
  fault : Bool := false
  raised : Bool := false
  deriving DecidableEq, Repr

/-- RingH at reset. -/
def RingH.init : RingH := {}

/-- The dispatcher beside its registers: the next arming number, the elapsed instants plus one of the last staging and
the last issue (R247, R251), in-flight slots and shadow entries on their way to being freed, with the instant and the unit
(R243), the contexts whose transmit demand failed for want of lock (R96), the ring popped last with the instant plus one of
its pop (R258), and whether the horizon lies below its bound (R261). -/
structure DspH where
  seq : Nat := 0
  stagedAt : Nat := 0
  issuedAt : Nat := 0
  freeing : List (Nat × Nat) := []
  fails : List Nat := []
  lastRing : Nat := 16383
  poppedAt : Nat := 0
  lagging : Bool := false
  deriving DecidableEq, Repr

/-- DspH at reset. -/
def DspH.init : DspH := {}

/-- A write that the device makes to host memory: the function it translates through (0 PF), the address, the length in
bytes and the bytes as a little-endian number. -/
structure HostWr where
  func : Nat := 0
  addr : Nat := 0
  len : Nat := 0
  data : Nat := 0
  deriving DecidableEq, Repr

/-- HostWr at reset. -/
def HostWr.init : HostWr := {}

/-- A DMA transfer under a tag (R227): its descriptor, the function of a host address, whether it is outstanding, and its
result. -/
structure DmaH where
  src : Nat := 0
  dst : Nat := 0
  len : Nat := 0
  srcSp : Nat := 0
  dstSp : Nat := 0
  func : Nat := 0
  busy : Bool := false
  result : Nat := 0
  deriving DecidableEq, Repr

/-- DmaH at reset. -/
def DmaH.init : DmaH := {}

/-- What holds the issue of an engine (R221): WAITAT with its destination and the air count awaited; a pending RPOP with its
first register and ring, whether it is the non-blocking form, and whether it found the ring empty and blocks; a blocked RPUSH with its ring and entry; a blocked arming with its destination, its context image
and who arms; DMAGO with its destination and the transfer
that its descriptor described, DMAWAIT, FENCE; and a UPUT that found its buffer full. -/
inductive Blk where
  | waitat (wd : Nat) (due : Nat) (past : Option Nat)
  | rpop (wd : Nat) (ring : Nat) (nb : Bool) (waits : Bool)
  | rpush (ring : Nat) (entry : BitVec 512)
  | arm (wd : Nat) (image : Ctx)
  | dmago (wd : Nat) (d : DmaH)
  | dmawait (wd : Nat) (tag : Nat)
  | fence
  | uput (uid off : Nat) (v : Word)
  deriving DecidableEq, Repr

/-- A posted UPUT write on its way (R228), with its place in the engine's program order. -/
structure PostW where
  uid : Nat := 0
  off : Nat := 0
  v : Word := 0
  sys : Bool := false
  seq : Nat := 0
  deriving DecidableEq, Repr

/-- PostW at reset. -/
def PostW.init : PostW := {}

/-- A UGET whose data has yet to return (R228). -/
structure GetR where
  wd : Nat := 0
  uid : Nat := 0
  off : Nat := 0
  sys : Bool := false
  seq : Nat := 0
  deriving DecidableEq, Repr

/-- GetR at reset. -/
def GetR.init : GetR := {}

/-- One Zhovo engine: CE n, or 32 for the warden (R209 to R213). `paused` says that a coast has suspended it (R412). The
watchdog's count starts at `wdFrom`, and stands still from `blockAt` while the engine is blocked (R236). `reqs` are the
pending host requests (R237), `samp` the retired instructions since the last tracer sample (R387), `insn` the word of the
blocked instruction. -/
structure EngH where
  running : Bool := false
  paused : Bool := false
  w : Store Quad := []
  p : Nat := 0
  pc : Word := 0
  sys : Bool := true
  psys : Bool := true
  inexc : Bool := false
  late : Bool := false
  empty : Bool := false
  full : Bool := false
  sat : Bool := false
  bferr : Bool := false
  ctxbusy : Bool := false
  dmaerr : Bool := false
  req : Bool := false
  epc : Word := 0
  ecause : Word := 0
  evalue : Word := 0
  cur : Store Word := []
  wdFrom : Nat := 0
  blocked : Option Blk := none
  blockAt : Nat := 0
  insn : Nat := 0
  reqs : Nat := 0
  posts : List PostW := []
  gets : List GetR := []
  seq : Nat := 0
  dma : Store DmaH := []
  samp : Nat := 0
  deriving DecidableEq, Repr

/-- EngH at reset. -/
def EngH.init : EngH := {}

/-- A fronthaul port beside its registers (chapter 11): elapsed instant at which its training began. -/
structure FhH where
  trainAt : Nat := 0
  deriving DecidableEq, Repr

/-- FhH at reset. -/
def FhH.init : FhH := {}

/-- A realign that runs (R280): the elapsed instant of its event, whether its T0 has come and when, and the latencies that
take effect at T0 + 256. -/
structure HdAlign where
  asked : Nat := 0
  t0 : Option Nat := none
  dl : Nat := 0
  ul : Nat := 0
  deriving DecidableEq, Repr

/-- HdAlign at reset. -/
def HdAlign.init : HdAlign := {}

/-- The receive side of an uplink flow (R270): air count of the first sample of the next frame needed, and the frames that
have arrived ahead of their need; and the elapsed spans in which samples were missing, as far as they reach into an interval of the
cellar. -/
structure UlFlow where
  next : Nat := 0
  have_ : List Nat := []
  gaps : List (Nat × Nat) := []
  deriving DecidableEq, Repr

/-- UlFlow at reset. -/
def UlFlow.init : UlFlow := {}

/-- A remote head beside its registers (chapter 11): whether it counts as admitted at its port, its primary port, whether
its latency is being measured and since when an unfence admission runs, the elapsed instant of the last STATUS, the run of
offsets beyond TE_MAX, whether the last STATUS reported late frames, guards added to each computed latency, late uplink
frames in this tick and in the last, the realigns that run in their order, the count of its flows, and the receive side of each. -/
structure HdH where
  known : Bool := false
  port : Option Nat := none
  measuring : Bool := false
  admitFrom : Option Nat := none
  lastStatus : Nat := 0
  offRun : Nat := 0
  dlLate : Bool := false
  addDl : Nat := 0
  addUl : Nat := 0
  ulLate : Bool := false
  ulLatePrev : Bool := false
  align : List HdAlign := []
  flowN : Nat := 0
  flows : Store UlFlow := []
  deriving DecidableEq, Repr

/-- HdH at reset. -/
def HdH.init : HdH := {}

/-- A frame to a head: the control messages of R271, and the IQ frame with its flowID, its subType, 0xFD where `fmt16` and else 0xFC, and
its orderInfo (R268, R269). `port` of MUTE names one port, none all of them; `fmt16` is the 16-bit format; `stamp` is an air count. -/
inductive HdMsg where
  | admitHead (h fh mac : Nat)
  | beat (h stamp : Nat)
  | flow (h index port : Nat) (ul fmt16 : Bool) (rate : Nat) (valid : Bool)
  | dir (h port : Nat) (ul : Bool) (stamp : Nat)
  | gpio (h level stamp : Nat)
  | mute (h : Nat) (port : Option Nat)
  | iq (h flow : Nat) (fmt16 : Bool) (order : BitVec 32)
  deriving DecidableEq, Repr

/-- A row of a pseudo-channel that is tracked for repair (R292): the HBM offset of its first sector and the elapsed instants
of its corrected errors. -/
structure RowH where
  row : Nat := 0
  ces : List Nat := []
  deriving DecidableEq, Repr

/-- RowH at reset. -/
def RowH.init : RowH := {}

/-- A pseudo-channel beside its registers (chapter 12): rows tracked, uncorrectable errors of the last second as row and
elapsed instant, the row under repair with the elapsed instant of its start, the rows that wait for repair behind it, the rows
that have shown an uncorrectable error since the training, the patrol scrubber's next sector and the elapsed instant of its last
read. -/
structure PcH where
  rows : List RowH := []
  ues : List (Nat × Nat) := []
  repair : Option (Nat × Nat) := none
  want : List Nat := []
  ueRows : List Nat := []
  scrub : Nat := 0
  scrubAt : Nat := 0
  deriving DecidableEq, Repr

/-- PcH at reset. -/
def PcH.init : PcH := {}

/-- HBM as a whole (R288, R289): requests that wait, oldest first, as requester, pseudo-channel and whether they write; requests
outstanding by pseudo-channel times 32, plus twice the requester's number, plus 1 for a write; and the sectors that are uncorrectable
until they are written again. -/
structure HbmH where
  waiting : List (HbmBy × Nat × Bool) := []
  outst : Store Nat := []
  ue : List Nat := []
  pcs : Store PcH := []
  deriving DecidableEq, Repr

/-- HbmH at reset. -/
def HbmH.init : HbmH := {}

/-- A cellar record that waits to be written (R298): the 128-bit blocks are in `data`, the first lowest. -/
structure CelRec where
  stamp : Word := 0
  seq : Nat := 0
  version : Nat := 0
  units : Nat := 0
  flags : Nat := 0
  data : Nat := 0
  deriving DecidableEq, Repr

/-- CelRec at reset. -/
def CelRec.init : CelRec := {}

/-- The cellar beside its registers (chapter 12): the state that HELD keeps, the elapsed instant of the trigger, what the
next tick boundary or the end of the interval brings, the elapsed start and the stamp of the interval, whether a time step
fell in it, the stream-set version, the next record's place and the count of records held, the records that wait, the
stream entries, and a replay: the elapsed instant of its request, the elapsed instant of its next feed, the place and SEQ of
its next record. -/
structure CelH where
  before : Nat := 0
  trigAt : Option Nat := none
  startDue : Bool := false
  stopDue : Bool := false
  holdDue : Bool := false
  releaseDue : Bool := false
  rearmDue : Bool := false
  ivFrom : Option Nat := none
  ivStamp : Word := 0
  ivStep : Bool := false
  version : Nat := 0
  pos : Nat := 0
  count : Nat := 0
  queue : List CelRec := []
  sdata : Store Word := []
  rplAsk : Nat := 0
  rplDue : Nat := 0
  rplPos : Nat := 0
  rplSeq : Nat := 0
  deriving DecidableEq, Repr

/-- CelH at reset. -/
def CelH.init : CelH := {}

/-- What a monitor conversion serves (chapter 13): MON_DATA, a regular entry, an injected entry of the host, the loop engine's
request for a PBD, or a burst sample. -/
inductive MonSrc where
  | single
  | reg (i : Nat)
  | inj (i : Nat)
  | loop (m : Nat)
  | burst (k : Nat)
  deriving DecidableEq, Repr

/-- A conversion under way: its source, channel, start in units of 1/6144 ns, the air stamp of its sample, and whether the
reference was cold. -/
structure MonCv where
  src : MonSrc := .single
  chan : Nat := 0
  start : Nat := 0
  stamp : Word := 0
  cold : Bool := false
  deriving DecidableEq, Repr

/-- MonCv at reset. -/
def MonCv.init : MonCv := {}

/-- The monitor converter beside its registers: the conversion under way, a held regular trigger, the entry at which a
regular sequence is suspended, injected runs that wait for the end of a conversion (none is the host's entries, some the
request for a PBD), the loop engine's requests that are held until the converter is IDLE or REGULAR (R314), stamps of the first
samples of the sequences under way, the elapsed instants of the last urgent trigger and of the last request of the loop engine, the elapsed instant at which the conversion under way began from IDLE with the
MON_BURST_STAMP before it, the instant of warmth and the elapsed span of the last warm reference (R317), the instants of the
periodic timer (in units of 1/6144 ns) and of the last rotation, and whether a handover waits for the end of a conversion (R309). -/
structure MonH where
  cv : Option MonCv := none
  held : Bool := false
  suspended : Option Nat := none
  waiting : List (Option Nat) := []
  reqs : List Nat := []
  regStamp : Word := 0
  injStamp : Word := 0
  urgentAt : Option Nat := none
  requestAt : Option (Nat × Nat) := none
  begun : Option (Nat × Word) := none
  warmAt : Option Nat := none
  warmFrom : Option Nat := none
  warmTo : Option Nat := none
  perAt : Nat := 0
  rotateAt : Nat := 0
  rotDue : Bool := false
  deriving DecidableEq, Repr

/-- MonH at reset. -/
def MonH.init : MonH := {}

/-- The power-domain sequencer beside its registers (R342): queued transitions as domain and UID of the requesting unit, and
transitions in progress as domain, whether up, and elapsed start; the domains queued up that were FAILED before (R344). -/
structure PwrH where
  queue : List (Nat × Nat) := []
  trans : List (Nat × Bool × Nat) := []
  failed : List Nat := []
  deriving DecidableEq, Repr

/-- PwrH at reset. -/
def PwrH.init : PwrH := {}

/-- A sensor beside its registers (R324, R326): the last raw samples in 1/16 °C, and in units of 1/192 °C the last 64 filtered
readings and the last 16 values that kiln used, each newest first; the run at each threshold. -/
structure TsH where
  raws : List Int := []
  filts : List Int := []
  vals : List Int := []
  run1 : Nat := 0
  run2 : Nat := 0
  run3 : Nat := 0
  run4 : Nat := 0
  deriving DecidableEq, Repr

/-- TsH at reset. -/
def TsH.init : TsH := {}

/-- The timed steps of a thermal stop (R337, R338): outputs silent, stacks into self-refresh and domains off in the orderly
way, and domains off in the immediate way. -/
inductive KilnStop where
  | silent | retain | off | kill
  deriving DecidableEq, Repr

/-- Kiln beside its registers (chapter 14): the sensors, the elapsed instant of the last sample, of the next throttle step, of
the last ceiling step and of the next ceiling rise, whether no live sensor of a kind is left, the steps of a stop under way,
the payload of its record, and the PBDs that await their channels after a RESUME. -/
structure KilnH where
  ts : Store TsH := []
  sampleAt : Nat := 0
  stepAt : Option Nat := none
  ceilAt : Option Nat := none
  riseAt : Option Nat := none
  forced : Bool := false
  stopping : Bool := false
  stops : List (Nat × KilnStop) := []
  stopWords : List Word := []
  resume : List Nat := []
  deriving DecidableEq, Repr

/-- KilnH at reset. -/
def KilnH.init : KilnH := {}

/-- The last entry that a tracer wrote: its engine cycle, engine and place (R387). -/
structure TrLast where
  cycle : Nat := 0
  eng : Nat := 0
  pos : Nat := 0
  deriving DecidableEq, Repr

/-- TrLast at reset. -/
def TrLast.init : TrLast := {}

/-- The tally beside its registers (R383 to R387): the counters, the settings in force and those that wait for the next tick
boundary, each by counter number; the next entry of a sweep under way, whether a sweep has filled the entries beyond it, the
elapsed instant from which the next periodic sweep counts, and the last entry of each tracer. -/
structure TallyH where
  ctrs : Store Word := []
  cfg : Store Word := []
  pend : List (Nat × Word) := []
  pos : Option Nat := none
  perAt : Nat := 0
  last : Store TrLast := []
  deriving DecidableEq, Repr

/-- TallyH at reset. -/
def TallyH.init : TallyH := {}

/-- The OTP (R395, R398, R400, R406): the life-cycle state, HYBRID, the key hashes burned for each role in slot order, the
LEGACY bits and the floor bits burned; and the rows authorised for hard repair as pseudo-channel and HBM offset, with whether
the stack has burned the remap (R293). -/
structure OtpH where
  lc : Nat := 0
  hybrid : Bool := false
  vendor : List Nat := [Config.vendorKey]
  owner : List Nat := []
  site : List Nat := []
  legacy : Nat := 0
  floor : Nat := 0
  hard : List (Nat × Nat × Bool) := []
  deriving DecidableEq, Repr

/-- OtpH at reset. -/
def OtpH.init : OtpH := {}

/-- The boot flash beside its image slots and its calibration store (R401, R402): COMMITTED and RUNNING slot and PROBATION of
the boot control block, the release with which each slot is marked REJECTED_SETTINGS, plus one; and the settings copy in use:
whether one verifies, which it is, its SCHEMA, its region sizes in 64 MiB units, and its registers by page and offset. -/
structure BootH where
  committed : Nat := 0
  running : Nat := 0
  probation : Bool := false
  rejected : Store Nat := []
  setOk : Bool := false
  setCopy : Nat := 0
  setSchema : Nat := 0
  sizes : List Nat := []
  setRegs : Store Word := []
  deriving DecidableEq, Repr

/-- BootH at reset. -/
def BootH.init : BootH := {}

/-- A coast under way (R412 to R414): the phase that ends next (0 pause, 1 handover, 2 load, 3 import, 4 end), its start, whether
it is the second coast, and whether a REVERT asked for it. -/
structure CoastH where
  phase : Nat := 0
  start : Nat := 0
  back : Bool := false
  revert : Bool := false
  deriving DecidableEq, Repr

/-- CoastH at reset. -/
def CoastH.init : CoastH := {}

/-- The warden beside its registers (chapter 17): the nonce with the elapsed instant of its issue, whether DEBUG_UNLOCK has
opened the debug port, the elapsed instant of the last session write, the sectors erased in this session, a coast, the start of
probation, saves under way (0 settings, 1 calibration), the half of the activation buffer that the running image uses, a
life-cycle change under way as target state and HYBRID, and whether a verified close has restarted secure boot. -/
structure WdnH where
  nonce : Option Nat := none
  nonceAt : Nat := 0
  debug : Bool := false
  stgAt : Nat := 0
  erased : List Nat := []
  coast : Option CoastH := none
  probAt : Option Nat := none
  saves : List Nat := []
  half : Nat := 0
  lcDue : Option (Nat × Bool) := none
  restarted : Bool := false
  deriving DecidableEq, Repr

/-- WdnH at reset. -/
def WdnH.init : WdnH := {}

/-- The block beside its addressed memories: unit registers by UID and offset, and what each unit holds beside them. -/
structure Block where
  time : Time := {}
  regs : Store Word := []
  free : Nat := 0
  groups : Store (List Nat) := []
  edits : List (Nat × List Nat) := []
  ramping : Store Nat := []
  testing : Store Nat := []
  host : HostH := {}
  root : RootH := {}
  flt : FltH := {}
  recd : RecH := {}
  tally : TallyH := {}
  otp : OtpH := {}
  boot : BootH := {}
  wdn : WdnH := {}
  sync : SyncH := {}
  pbs : Store PbH := []
  pbds : Store PbdH := []
  rxcs : Store RxcH := []
  txcs : Store TxcH := []
  sys : Store SyH := []
  ccs : Store CcH := []
  orxs : Store OrxH := []
  lanes : Store LaneH := []
  bank : BankH := {}
  loop : LoopH := {}
  mcs : Store McH := []
  mcResets : List Nat := []
  engs : Store EngH := []
  ctxs : Store Ctx := []
  rings : Store RingH := []
  dsp : DspH := {}
  hostOut : List HostWr := []
  mon : MonH := {}
  power : PwrH := {}
  kiln : KilnH := {}
  hbm : HbmH := {}
  cel : CelH := {}
  fhs : Store FhH := []
  fhBeat : Nat := 1966080
  hds : Store HdH := []
  hdOut : List HdMsg := []
  memOps : List MemOp := []
  rdata : Word := 0
  deriving DecidableEq, Repr

/-- Block at reset. -/
def Block.init : Block := {}

/-- The machine: the block, its addressed memories and the queue of waiting commands, first in, first out. -/
structure State where
  blk : Block
  mem : Mem
  pending : List Instr
  deriving DecidableEq, Repr

/-- The POWER-UP event of a release or of a power-up (R373, R374): `kind` 0 VDD_AO, 1 POR_N, 2 RST_N. -/
def powerUpEv (kind : Nat) (fatal : Bool) : RecEv :=
  { typ := 0x0A, cls := 0, inj := false, same := false, coin := false, uid := 0
    words := [BitVec.ofNat 64 ((kind <<< 16) + (if fatal then 1 <<< 18 else 0))], excl := [], cyc := 0, opsec := 0, pwrcyc := 0
    arrival := 0 }

/-- The block right after the release that ends the first power-up. -/
def Block.reset : Block :=
  let r : RecH := RecH.init
  { Block.init with recd := { r with incoming := [powerUpEv 0 false, powerUpEv 1 false] } }

/-- The machine right after reset. -/
def State.reset : State := { blk := Block.reset, mem := {}, pending := [] }

end Sys2Proof.Machine
end

