-- ==== Sys2Proof/Machine/Units.lean ====
section
/-! DEFINITION.
The unit tree: UIDs, kinds, parents, power domains (R13, R16, R17), the fixed groups (R25), the fault codes with their
classes (R368), the block classes of the collector (R352, R474) and the TX-capable kinds (R354). -/
namespace Sys2Proof.Machine

/-! UIDs of the named units (R16). -/
namespace U
def root : Nat := 0x0000
def rxc (k : Nat) : Nat := 0x0010 + k
def txc (k : Nat) : Nat := 0x0030 + k
def pb (n : Nat) : Nat := 0x0080 + n
def pbd (m : Nat) : Nat := 0x0100 + m
def cl (k : Nat) : Nat := 0x0200 + k
def lane (i : Nat) : Nat := 0x0208 + i
def ts (n : Nat) : Nat := 0x0400 + n
def fh (q : Nat) : Nat := 0x0440 + q
def hs (k : Nat) : Nat := 0x0448 + k
def pc (i : Nat) : Nat := 0x0450 + i
def cc (k : Nat) : Nat := 0x0490 + k
def sy (k : Nat) : Nat := 0x0494 + k
def orx (k : Nat) : Nat := 0x04A0 + k
def ce (n : Nat) : Nat := 0x04C0 + n
def warden : Nat := 0x04E0
def le : Nat := 0x04E1
def mon : Nat := 0x04E2
def rec : Nat := 0x04E3
def kiln : Nat := 0x04E4
def tally : Nat := 0x04E5
def cel : Nat := 0x04E6
def dsp : Nat := 0x04E7
def sync : Nat := 0x04E8
def mc (c : Nat) : Nat := 0x0600 + c
def hd (h : Nat) : Nat := 0x0800 + h
end U

/-- KIND code of a UID (R16), 0 for a reserved UID. -/
def kindOf (u : Nat) : Nat :=
  if u = 0 then 0x01
  else if 0x0010 ≤ u ∧ u ≤ 0x002F then 0x02
  else if 0x0030 ≤ u ∧ u ≤ 0x004F then 0x03
  else if 0x0080 ≤ u ∧ u ≤ 0x00BF then 0x04
  else if 0x0100 ≤ u ∧ u ≤ 0x017F then 0x05
  else if 0x0200 ≤ u ∧ u ≤ 0x0207 then 0x06
  else if 0x0208 ≤ u ∧ u ≤ 0x030F then 0x07
  else if 0x0400 ≤ u ∧ u ≤ 0x042F then 0x08
  else if 0x0440 ≤ u ∧ u ≤ 0x0447 then 0x09
  else if 0x0448 ≤ u ∧ u ≤ 0x0449 then 0x0A
  else if 0x0450 ≤ u ∧ u ≤ 0x048F then 0x0B
  else if 0x0490 ≤ u ∧ u ≤ 0x0493 then 0x0C
  else if 0x0494 ≤ u ∧ u ≤ 0x049B then 0x0D
  else if 0x04A0 ≤ u ∧ u ≤ 0x04A7 then 0x0E
  else if 0x04C0 ≤ u ∧ u ≤ 0x04DF then 0x0F
  else if 0x04E0 ≤ u ∧ u ≤ 0x04E8 then 0x10 + (u - 0x04E0)
  else if 0x0600 ≤ u ∧ u ≤ 0x073F then 0x19
  else if 0x0800 ≤ u ∧ u ≤ 0x09FF then 0x1A
  else if 0x1000 ≤ u ∧ u ≤ 0x1FFF then 0x20
  else 0

/-- A UID that R16 does not list: its page reads as zero and ignores writes (R6). -/
def reservedUid (u : Nat) : Bool := kindOf u == 0

/-- The lane, chain or other index of a UID within its kind. -/
def unitIndex (u : Nat) : Nat :=
  match kindOf u with
  | 0x02 => u - 0x0010 | 0x03 => u - 0x0030 | 0x04 => u - 0x0080 | 0x05 => u - 0x0100
  | 0x06 => u - 0x0200 | 0x07 => u - 0x0208 | 0x08 => u - 0x0400 | 0x09 => u - 0x0440
  | 0x0A => u - 0x0448 | 0x0B => u - 0x0450 | 0x0C => u - 0x0490 | 0x0D => u - 0x0494
  | 0x0E => u - 0x04A0 | 0x0F => u - 0x04C0 | 0x19 => u - 0x0600 | 0x1A => u - 0x0800
  | 0x20 => u - 0x1000 | _ => 0

/-- The power domain of a UID. -/
inductive Domain where
  | ao | core | pd (d : Nat) | remote | none
  deriving DecidableEq, Repr

/-- Power domain of a UID (R16). -/
def domainOf (u : Nat) : Domain :=
  match kindOf u with
  | 0x01 | 0x08 | 0x10 | 0x12 | 0x13 | 0x14 => .ao
  | 0x02 => .pd (u - 0x0010)
  | 0x03 => .pd (32 + (u - 0x0030))
  | 0x06 => .pd (64 + (u - 0x0200))
  | 0x07 => .pd (64 + (u - 0x0208) / 33)
  | 0x09 => .pd (if u ≤ 0x0443 then 74 else 75)
  | 0x0A => .pd (72 + (u - 0x0448))
  | 0x0B => .pd (72 + (u - 0x0450) / 32)
  | 0x0C => .pd (76 + (u - 0x0490))
  | 0x0D => .pd (76 + (u - 0x0494) / 2)
  | 0x0E => .pd (76 + (u - 0x04A0) / 2)
  | 0x1A => .remote
  | 0x20 => .none
  | 0 => .none
  | _ => .core

/-- Units of power domain `d`, ascending (R16). -/
def unitsOfDomain (d : Nat) : List Nat :=
  if d < 32 then [U.rxc d]
  else if d < 64 then [U.txc (d - 32)]
  else if d < 72 then U.cl (d - 64) :: (List.range 33).map fun j => U.lane (33 * (d - 64) + j)
  else if d < 74 then U.hs (d - 72) :: (List.range 32).map fun j => U.pc (32 * (d - 72) + j)
  else if d < 76 then (List.range 4).map fun j => U.fh (4 * (d - 74) + j)
  else if d < 80 then
    [U.cc (d - 76), U.sy (2 * (d - 76)), U.sy (2 * (d - 76) + 1), U.orx (2 * (d - 76)), U.orx (2 * (d - 76) + 1)]
  else []

/-- The CC that carries an RXC, TXC, SY or ORX (R13). -/
def ccOf (u : Nat) : Nat :=
  match kindOf u with
  | 0x02 | 0x03 => U.cc (unitIndex u / 8)
  | 0x0D | 0x0E => U.cc (unitIndex u / 2)
  | _ => u

/-- Structural parent of a UID; a head's parent is its primary port's FH, given by the caller (R16, R17). -/
def parentOf (u headPort : Nat) : Nat :=
  match kindOf u with
  | 0x02 | 0x03 | 0x0D | 0x0E => ccOf u
  | 0x05 => U.pb ((u - 0x0100) / 2)
  | 0x07 => U.cl ((u - 0x0208) / 33)
  | 0x08 => U.kiln
  | 0x0B => U.hs ((u - 0x0450) / 32)
  | 0x0F => U.dsp
  | 0x19 =>
    if u - 0x0600 < 256 then U.pbd ((u - 0x0600) / 2)
    else if u - 0x0600 < 288 then U.rxc (u - 0x0600 - 256)
    else if u - 0x0600 < 296 then U.orx (u - 0x0600 - 288)
    else 0
  | 0x1A => headPort
  | _ => 0

/-- Fixed members of a built-in group (R25); empty for every other UID. -/
def builtinMembers (u : Nat) : List Nat :=
  match kindOf u with
  | 0x04 => [U.pbd (2 * (u - 0x0080)), U.pbd (2 * (u - 0x0080) + 1)]
  | 0x06 => (List.range 33).map fun j => U.lane (33 * (u - 0x0200) + j)
  | 0x0A => (List.range 32).map fun j => U.pc (32 * (u - 0x0448) + j)
  | 0x0C =>
    let k := u - 0x0490
    ((List.range 8).map fun j => U.rxc (8 * k + j)) ++ ((List.range 8).map fun j => U.txc (8 * k + j)) ++
      [U.sy (2 * k), U.sy (2 * k + 1), U.orx (2 * k), U.orx (2 * k + 1)]
  | _ => []

/-- A built-in group (R25). -/
def isBuiltinGroup (u : Nat) : Bool :=
  kindOf u == 0x04 || kindOf u == 0x06 || kindOf u == 0x0A || kindOf u == 0x0C

/-- The built-in group that a unit is a member of, itself excluded (R25). -/
def builtinGroupOf (u : Nat) : Option Nat :=
  match kindOf u with
  | 0x02 | 0x03 | 0x0D | 0x0E => some (ccOf u)
  | 0x05 => some (U.pb ((u - 0x0100) / 2))
  | 0x07 => some (U.cl ((u - 0x0208) / 33))
  | 0x0B => some (U.hs ((u - 0x0450) / 32))
  | _ => none

/-- The module root and units 0x04E0, 0x04E1 and 0x04E3 to 0x04E8 are never fenced (R348). -/
def neverFenced (u : Nat) : Bool :=
  u == 0 || (0x04E0 ≤ u && u ≤ 0x04E8 && u != 0x04E2)

/-- TX-capable kinds (R354). -/
def txCapable (kind : Nat) : Bool :=
  [0x03, 0x05, 0x06, 0x07, 0x09, 0x0C, 0x0D, 0x0E, 0x11, 0x1A].contains kind

/-! Fault codes (R368). -/
namespace C
def spared : Nat := 0x01
def cfgLocked : Nat := 0x02
def priv : Nat := 0x03
def bistFail : Nat := 0x04
def selftest : Nat := 0x05
def injRefused : Nat := 0x06
def pwrTimeout : Nat := 0x07
def pwrFail : Nat := 0x08
def clamp : Nat := 0x09
def regAlign : Nat := 0x0A
def refLost : Nat := 0x10
def wardenFault : Nat := 0x11
def bistFatal : Nat := 0x12
def keelMem : Nat := 0x13
def safePath : Nat := 0x14
def dspFault : Nat := 0x15
def leFault : Nat := 0x16
def otpFault : Nat := 0x17
def syncCfg : Nat := 0x20
def cfgPorts : Nat := 0x28
def cfgRate : Nat := 0x29
def cfgNco : Nat := 0x2A
def cfgFilter : Nat := 0x2B
def cfgCap : Nat := 0x2C
def cfgShare : Nat := 0x2D
def cfgTdd : Nat := 0x2E
def sliceSpared : Nat := 0x30
def sliceFail : Nat := 0x31
def calRestore : Nat := 0x32
def ccClkLost : Nat := 0x33
def syCalFail : Nat := 0x34
def syRange : Nat := 0x35
def syLockTimeout : Nat := 0x36
def syUnlock : Nat := 0x37
def rffeLate : Nat := 0x38
def rffeBusy : Nat := 0x39
def rffeParity : Nat := 0x3A
def cfgRffe : Nat := 0x3B
def cfgLane : Nat := 0x40
def cfgReach : Nat := 0x41
def cfgLr : Nat := 0x42
def cfgModel : Nat := 0x43
def modelKey : Nat := 0x44
def modelLate : Nat := 0x45
def modelEcc : Nat := 0x46
def laneDiverge : Nat := 0x47
def laneDivergeLimit : Nat := 0x48
def dlyUnderrun : Nat := 0x49
def cfgLoop : Nat := 0x50
def loopDeadline : Nat := 0x51
def plausibility : Nat := 0x52
def cfgMc : Nat := 0x54
def coefBusy : Nat := 0x55
/-- SQ_OSC to SQ_CUE, by squall cause number 0 to 7 (R189). -/
def squall (cause : Nat) : Nat := 0x58 + cause
def cfgProt : Nat := 0x60
def restartEarly : Nat := 0x61
def restartLimit : Nat := 0x62
def flGain : Nat := 0x63
def flIso : Nat := 0x64
def flTimeout : Nat := 0x65
def zhUserExc : Nat := 0x68
def zhSysFault : Nat := 0x69
def cueStamp : Nat := 0x6A
def cueAction : Nat := 0x6B
def cueRepeat : Nat := 0x6C
def cueClass : Nat := 0x6D
def cueTarget : Nat := 0x6E
def cueExpired : Nat := 0x6F
def cueFull : Nat := 0x70
def ringIndex : Nat := 0x71
def ringCfg : Nat := 0x72
def runtimeLag : Nat := 0x73
def fhLaneSpared : Nat := 0x78
def fhLaneFail : Nat := 0x79
def fhLinkDown : Nat := 0x7A
def hdLost : Nat := 0x7B
def hdTime : Nat := 0x7C
def hdLatency : Nat := 0x7D
def hdRealign : Nat := 0x7E
def memCarve : Nat := 0x80
def hbmCe : Nat := 0x81
def hbmUe : Nat := 0x82
def hbmNoRepair : Nat := 0x83
def hbmPcFail : Nat := 0x84
def celCfg : Nat := 0x85
def cfgMon : Nat := 0x88
def monSliceSpared : Nat := 0x89
def monSliceFail : Nat := 0x8A
def monFail : Nat := 0x8B
def kilnCrit : Nat := 0x8C
def tsFail : Nat := 0x8D
def kilnShutdown : Nat := 0x8E
def resumeHot : Nat := 0x8F
def recLost : Nat := 0x90
def recFull : Nat := 0x91
def imgAuth : Nat := 0x98
def imgRollback : Nat := 0x99
def tokenBad : Nat := 0x9A
def fwFallback : Nat := 0x9B
def pcieErr : Nat := 0xA0
def mspiErr : Nat := 0xA1
end C

/-- The classes of R347: 1 CORRECTED, 2 CONTAINED, 3 FATAL; 0 for a code that R368 does not list. -/
def classOf (code : Nat) : Nat :=
  if [0x04, 0x05, 0x07, 0x08, 0x31, 0x33, 0x34, 0x36, 0x47, 0x48, 0x51, 0x52, 0x62, 0x69, 0x79, 0x7B, 0x7C, 0x7D,
      0x84, 0x8B, 0x8D, 0x8E].contains code then 2
  else if 0x10 ≤ code ∧ code ≤ 0x17 then 3
  else if (0x01 ≤ code ∧ code ≤ 0x0A) ∨ code = 0x20 ∨ (0x28 ≤ code ∧ code ≤ 0x2E) ∨ (0x30 ≤ code ∧ code ≤ 0x3B) ∨
      (0x40 ≤ code ∧ code ≤ 0x49) ∨ (0x50 ≤ code ∧ code ≤ 0x52) ∨ code = 0x54 ∨ code = 0x55 ∨
      (0x58 ≤ code ∧ code ≤ 0x65) ∨ (0x68 ≤ code ∧ code ≤ 0x73) ∨ (0x78 ≤ code ∧ code ≤ 0x7E) ∨
      (0x80 ≤ code ∧ code ≤ 0x85) ∨ (0x88 ≤ code ∧ code ≤ 0x91) ∨ (0x98 ≤ code ∧ code ≤ 0x9B) ∨
      code = 0xA0 ∨ code = 0xA1 then 1
  else 0

/-- "Not fenced" CONTAINED codes (R368). -/
def notFencing (code : Nat) : Bool :=
  code == C.laneDiverge || code == C.loopDeadline || code == C.plausibility || code == C.kilnShutdown

/-- Block class of a fault raised at a unit (R352, R474). `path` is the class of the path or block that R474 names for a
fault at the module root, or 22 for an HBM_PC_FAIL of the stack; it is read only where R474 says so. -/
def blockClass (u code path : Nat) : Nat :=
  match kindOf u with
  | 0x01 =>
    if code = C.refLost then 0 else if code = C.keelMem then 1 else if code = C.otpFault then 2
    else if code = C.safePath then 19 else if code = C.dspFault then 14 else if code = C.leFault then 15
    else if code = C.pcieErr then 11 else if code = C.mspiErr then 10 else path
  | 0x02 => 24 | 0x03 => 25 | 0x04 | 0x05 => 16 | 0x06 | 0x07 => 18 | 0x08 => 6 | 0x09 => 23
  | 0x0A | 0x0B =>
    if code = C.hbmCe ∨ code = C.hbmUe ∨ code = C.hbmNoRepair ∨ (code = C.hbmPcFail ∧ path = 22) then 22 else 21
  | 0x0C => 28 | 0x0D => 26 | 0x0E => 27 | 0x0F => 13 | 0x10 => 4 | 0x11 => 15 | 0x12 => 7 | 0x13 => 3 | 0x14 => 6
  | 0x15 => 29 | 0x16 => 30 | 0x17 => 14 | 0x18 => 20 | 0x19 => 17 | 0x1A => 31
  | _ => 16

/-- Block classes in which an unrepaired built-in test failure is fatal (R352). -/
def essentialClass (c : Nat) : Bool :=
  [0, 1, 2, 4, 5, 6, 12, 14, 15, 19].contains c

end Sys2Proof.Machine
end

