-- ==== Sys2Proof/Machine/Ops.lean ====
section
/-! DEFINITION.
Named operations over the state: sparse stores, unit registers and their fields, signed codes (R10), air stamps
(R7, R8), the passing of time (R34), and interrupt causes with their MSI-X messages (R20, R426). -/
namespace Sys2Proof.Machine

/-! ## Sparse stores -/

/-- The value at a key, or `d` where the store lists none. -/
def Store.get {α : Type} (d : α) (l : Store α) (k : Nat) : α :=
  match l with
  | [] => d
  | (k', v) :: t => if k' = k then v else Store.get d t k

/-- Remove a key. -/
def Store.del {α : Type} (l : Store α) (k : Nat) : Store α :=
  match l with
  | [] => []
  | (k', v) :: t => if k' = k then Store.del t k else (k', v) :: Store.del t k

/-- Insert a key and value at its place in the rising order, replacing what the key held. -/
def Store.ins {α : Type} (l : Store α) (k : Nat) (v : α) : Store α :=
  match l with
  | [] => [(k, v)]
  | (k', v') :: t =>
    if k < k' then (k, v) :: (k', v') :: t
    else if k' = k then (k, v) :: t
    else (k', v') :: Store.ins t k v

/-- The pairs that reads see: the first of each key. -/
def Store.view {α : Type} (l : Store α) : Store α :=
  match l with
  | [] => []
  | (k, v) :: t => (k, v) :: (Store.view t).filter fun x => x.1 != k

/-- Write a key, keeping the canonical form: the value an unlisted key reads as removes the entry. -/
def Store.set {α : Type} [DecidableEq α] (d : α) (l : Store α) (k : Nat) (v : α) : Store α :=
  if v = d then Store.del l k else Store.ins l k v

/-- Keys strictly rising, all above `lo`, and no value equal to the default. -/
def Store.wfFrom {α : Type} [DecidableEq α] (d : α) (lo : Option Nat) (l : Store α) : Bool :=
  match l with
  | [] => true
  | (k, v) :: t => (match lo with | none => true | some b => decide (b < k)) && decide (v ≠ d) && Store.wfFrom d (some k) t

/-- The canonical form of a store. -/
def Store.wf {α : Type} [DecidableEq α] (d : α) (l : Store α) : Bool := Store.wfFrom d none l

/-! ## Signed codes and small arithmetic -/

/-- The signed value of the low `w` bits of `n`. -/
def sext (w n : Nat) : Int :=
  if n % 2 ^ w < 2 ^ (w - 1) then (n % 2 ^ w : Nat) else ((n % 2 ^ w : Nat) : Int) - (2 ^ w : Nat)

/-- The `w`-bit two's-complement code of an integer. -/
def toCode (w : Nat) (i : Int) : Nat := (i % (2 ^ w : Nat)).toNat

/-- The code 0x8000: no value or unknown (R10). -/
def noValue : Nat := 0x8000

/-- The signed value of a 16-bit dB code (R10), none for 0x8000. -/
def dbOf (n : Nat) : Option Int := if n % 65536 = noValue then none else some (sext 16 n)

/-- The 16-bit code of a computed level: limited to the codable range, never 0x8000 (R10). -/
def dbCode (i : Int) : Nat := toCode 16 (max (-32767) (min 32767 i))

/-- The code of an optional level. -/
def dbCode? : Option Int → Nat
  | none => noValue
  | some i => dbCode i

/-- Limit an integer to a range. -/
def clampI (lo hi x : Int) : Int := max lo (min hi x)

/-- Add to a counter that saturates at `top`. -/
def satAdd (top x n : Nat) : Nat := min top (x + n)

/-- Field (hi, lo) of a word. -/
def Word.fld (v : Word) (hi lo : Nat) : Nat := (v.toNat >>> lo) % 2 ^ (hi + 1 - lo)

/-- A word with field (hi, lo) replaced. -/
def Word.setFld (v : Word) (hi lo n : Nat) : Word :=
  let m : Word := BitVec.ofNat 64 ((2 ^ (hi + 1 - lo) - 1) <<< lo)
  (v &&& ~~~m) ||| (BitVec.ofNat 64 ((n % 2 ^ (hi + 1 - lo)) <<< lo))

/-- The mask of a bit range. -/
def fldMask (hi lo : Nat) : Word := BitVec.ofNat 64 ((2 ^ (hi + 1 - lo) - 1) <<< lo)

/-- A Boolean as a bit. -/
def bit (b : Bool) : Nat := if b then 1 else 0

/-! ## Unit registers -/

/-- The register definition that covers an offset, with the index in its array. -/
def findReg (l : List RegDef) (off : Nat) : Option (RegDef × Nat) :=
  match l with
  | [] => none
  | r :: t =>
    if r.off ≤ off ∧ (off - r.off) % r.stride = 0 ∧ (off - r.off) / r.stride < r.n
    then some (r, (off - r.off) / r.stride) else findReg t off

/-- The register at an offset of a unit's page: the header of R18 first, then the kind's registers. -/
def regAt (uid off : Nat) : Option (RegDef × Nat) :=
  if reservedUid uid then none
  else if off < 0x040 then findReg regsHdr off
  else findReg (regsOfKind (kindOf uid)) off

/-- Reset value of a register from its table rows. -/
def rowsReset (uid i : Nat) (rows : List Row) : Nat :=
  match rows with
  | [] => 0
  | r :: t => ((r.rst uid i) % 2 ^ (r.hi + 1 - r.lo)) * 2 ^ r.lo + rowsReset uid i t

/-- What a register that nothing has written reads as: its reset value (0 where no register stands, R6). -/
def regReset (uid off : Nat) : Word :=
  match regAt uid off with
  | some (r, i) => BitVec.ofNat 64 (rowsReset uid i r.rows)
  | none => 0

/-- The key of a register in the register store. -/
def regKey (uid off : Nat) : Nat := uid * 1024 + off

/-- The stored value of a register. -/
def Block.reg (b : Block) (uid off : Nat) : Word :=
  Store.get (regReset uid off) b.regs (regKey uid off)

/-- Store a register's value. -/
def Block.setReg (b : Block) (uid off : Nat) (v : Word) : Block :=
  { b with regs := Store.set (regReset uid off) b.regs (regKey uid off) v }

/-- A field of a unit's register. -/
def Block.fld (b : Block) (uid : Nat) (f : Fld) : Nat := Word.fld (b.reg uid f.off) f.hi f.lo

/-- Set a field of a unit's register. -/
def Block.setFld (b : Block) (uid : Nat) (f : Fld) (n : Nat) : Block :=
  b.setReg uid f.off (Word.setFld (b.reg uid f.off) f.hi f.lo n)

/-- A one-bit field as a Boolean. -/
def Block.flag (b : Block) (uid : Nat) (f : Fld) : Bool := b.fld uid f != 0

/-- Set a one-bit field. -/
def Block.setFlag (b : Block) (uid : Nat) (f : Fld) (v : Bool) : Block := b.setFld uid f (bit v)

/-- A field as a signed integer of its own width. -/
def Block.sfld (b : Block) (uid : Nat) (f : Fld) : Int := sext (f.hi + 1 - f.lo) (b.fld uid f)

/-- A dB field (R10): none for 0x8000. -/
def Block.db (b : Block) (uid : Nat) (f : Fld) : Option Int := dbOf (b.fld uid f)

/-- Store a dB field (R10). -/
def Block.setDb (b : Block) (uid : Nat) (f : Fld) (v : Option Int) : Block := b.setFld uid f (dbCode? v)

/-- Add to a counter field that saturates at the field's width. -/
def Block.incSat (b : Block) (uid : Nat) (f : Fld) (n : Nat) : Block :=
  b.setFld uid f (satAdd (2 ^ (f.hi + 1 - f.lo) - 1) (b.fld uid f) n)

/-- Add to a counter field that wraps. -/
def Block.incWrap (b : Block) (uid : Nat) (f : Fld) (n : Nat) : Block :=
  b.setFld uid f (b.fld uid f + n)

/-- Run `f` when a condition holds. -/
def Block.when (b : Block) (c : Bool) (f : Block → Block) : Block := if c then f b else b

/-- Run `f` for every element of a list, in order. -/
def Block.each {α : Type} (b : Block) (l : List α) (f : Block → α → Block) : Block := l.foldl f b

/-! ## Air stamps (R7, R8) -/

/-- Tc in a frame. -/
def frameTc : Nat := 19660800

/-- Tc in a control tick. -/
def tickTc : Nat := 16384

/-- Tc in a second. -/
def secTc : Nat := 1966080000

/-- Tc in a millisecond. -/
def msTc : Nat := 1966080

/-- The air stamp of a count of Tc (R7). -/
def stampOf (n : Nat) : Word :=
  let tc := n % frameTc
  let f := n / frameTc
  BitVec.ofNat 64 ((((f / 1048576) % 524288) <<< 45) + (((f / 1024) % 1024) <<< 35) + ((f % 1024) <<< 25) + tc)

/-- An air stamp with an invalid TC is malformed (R8). -/
def stampValid (s : Word) : Bool := Word.fld s 24 0 < frameTc

/-- The count of Tc of an air stamp. -/
def tcOf (s : Word) : Nat :=
  ((Word.fld s 63 45 * 1024 + Word.fld s 44 35) * 1024 + Word.fld s 34 25) * frameTc + Word.fld s 24 0

/-- The air stamp of the present Tc; 0 while the air-time counter does not run (R352). -/
def Block.now (b : Block) : Word := if b.time.running then stampOf b.time.air else 0

/-- The first Tc of the present collector cycle, as an air-time count; none begins before the first multiple of 4 after a
step (R352, R361). -/
def Block.cycleTc (b : Block) : Nat := max (b.time.air - b.time.air % 4) b.time.cycFrom

/-- The air stamp of the present collector cycle; 0 while the counter does not run. -/
def Block.cycleStamp (b : Block) : Word := if b.time.running then stampOf b.cycleTc else 0

/-! ## The passing of time (R34) -/

/-- The elapsed instant at which the air-time counter reads an air count, on the timeline in force. -/
def Block.elapsedOfAir (b : Block) (a : Nat) : Nat :=
  b.time.elapsed + (a - b.time.air)

/-- What an engine blocks on: a pop that found an entry and only waits for its data is no block (R229). -/
def EngH.block (h : EngH) : Option Blk :=
  match h.blocked with
  | some (.rpop _ _ _ false) => none
  | k => k

/-- The free values of the model: each use takes the present index and advances it. -/
def Block.takeFree (b : Block) : Block × Nat := ({ b with free := b.free + 1 }, b.free)

/-! ## Interrupts (R20, R425, R426) -/

/-- A unit requests an interrupt while a bit is set in both UNIT_IRQ_STAT and UNIT_IRQ_EN (R20). -/
def Block.irqReq (b : Block) (uid : Nat) : Bool :=
  (b.reg uid R.UNIT_IRQ_STAT &&& b.reg uid R.UNIT_IRQ_EN) != 0

/-- First device vector of a function's block, and its length (R425). -/
def Block.vecBlock (b : Block) (func : Nat) : Nat × Nat :=
  let pf := b.fld U.root F.HOST_VEC_PF_VECS
  let vf := b.fld U.root F.HOST_VEC_VF_VECS
  if func = 0 then (0, pf) else (pf + (func - 1) * vf, vf)

/-- A device vector lies in a function's block (R425). -/
def Block.vecInBlock (b : Block) (func vec : Nat) : Bool :=
  let (s, n) := b.vecBlock func
  decide (func ≤ 16) && decide (s ≤ vec) && decide (vec < s + n)

/-- The reset entry of an MSI-X table: masked, as MSI-X specifies. -/
def msixReset : MsixEnt := { addr := 0, data := 0, masked := true, pend := false }

/-- Key of an entry in the MSI-X tables. -/
def msixKey (func j : Nat) : Nat := func * 2048 + j

/-- Send a function's message, or set its pending bit while the vector is masked (R426). -/
def Block.sendVec (b : Block) (func vec : Nat) : Block :=
  let (s, _) := b.vecBlock func
  if b.vecInBlock func vec then
    let k := msixKey func (vec - s)
    let e := Store.get msixReset b.host.msix k
    if e.masked then
      { b with host := { b.host with msix := Store.set msixReset b.host.msix k { e with pend := true } } }
    else
      { b with host := { b.host with msgs := b.host.msgs ++ [{ func := func, vec := vec, addr := e.addr, data := e.data }] } }
  else b

/-- The first valid route entry, in index order, whose UID range covers a unit (R426). -/
def routeFor (routes : Store Word) (uid : Nat) : Option Word :=
  let rec go (n i : Nat) : Option Word :=
    match n with
    | 0 => none
    | n + 1 =>
      let w := Store.get (0 : Word) routes i
      if Word.fld w 63 63 = 1 ∧ Word.fld w 15 0 ≤ uid ∧ uid ≤ Word.fld w 31 16 then some w else go n (i + 1)
  go 64 0

/-- A unit's interrupt request has gone from false to true: its message is sent through its route (R426). -/
def Block.msixSend (b : Block) (uid : Nat) : Block :=
  match routeFor b.host.routes uid with
  | some w => b.sendVec (Word.fld w 36 32) (Word.fld w 58 48)
  | none => b

/-- Make a change to a unit's interrupt registers, and send a message if its request rises (R426). -/
def Block.irqChange (b : Block) (uid : Nat) (f : Block → Block) : Block :=
  let b' := f b
  if b'.irqReq uid ∧ b.irqReq uid = false then b'.msixSend uid else b'

/-- A cause sets its bit of UNIT_IRQ_STAT, enabled or not (R20). -/
def Block.irq (b : Block) (uid bitNo : Nat) : Block :=
  b.irqChange uid fun b => b.setReg uid R.UNIT_IRQ_STAT (b.reg uid R.UNIT_IRQ_STAT ||| BitVec.ofNat 64 (1 <<< bitNo))

end Sys2Proof.Machine
end

