-- ==== Sys2Proof/Machine/Counters.lean ====
section
/-! DEFINITION.
The tally's counters (R383): their places, the occupancies that threshold counters watch, and the counting of cycles and of
events. -/
namespace Sys2Proof.Machine

/-- Place of counter `ctr` of block `blk` in the order of a sweep (R385): blocks 0 to 35 have twelve, 36 to 55 four. -/
def ctrIdx (blk ctr : Nat) : Nat := if blk < 36 then blk * 12 + ctr else 432 + (blk - 36) * 4 + ctr

/-- Block and counter number at a place. -/
def ctrAt (i : Nat) : Nat × Nat := if i < 432 then (i / 12, i % 12) else (36 + (i - 432) / 4, (i - 432) % 4)

/-- Tc in a cycle of a block's clock. -/
def ctrClock (blk : Nat) : Nat := if blk < 32 ∨ blk = 33 then 2 else if blk = 54 ∨ blk = 55 then 4 else 1

/-- Fields of a counter's setting, as TALLY_CCFG holds them (R391). -/
def ccfgN (w : Word) : Nat := Word.fld w 19 0
def ccfgSel (w : Word) : Nat := Word.fld w 28 24
def ccfgEn (w : Word) : Bool := Word.fld w 31 31 == 1

/-- Number of valid SRC codes of a block. -/
def srcCount (blk : Nat) : Nat :=
  if blk < 33 then 4 else if blk = 33 then 2 else if blk < 36 then 4 else if blk < 44 then 3 else if blk < 53 then 2 else 1

/-- Add to a 48-bit counter, which wraps. -/
def Block.ctrAdd (b : Block) (i n : Nat) : Block :=
  { b with tally := { b.tally with
      ctrs := Store.set 0 b.tally.ctrs i (BitVec.ofNat 64 (((Store.get (0 : Word) b.tally.ctrs i).toNat + n) % 2 ^ 48)) } }

/-- `n` occurrences of event `ev` at block `blk`. -/
def Block.note (b : Block) (blk ev n : Nat) : Block :=
  if b.tally.cfg.isEmpty then b
  else
    b.each b.tally.cfg fun b (i, w) =>
      if (ctrAt i).1 = blk ∧ 4 ≤ (ctrAt i).2 ∧ ccfgEn w ∧ ccfgSel w = ev then b.ctrAdd i n else b

/-- Number of a requester, in the order of the table of R287. -/
def hbmNum (by_ : HbmBy) : Nat :=
  match by_ with
  | .delay => 0 | .model => 1 | .ring => 2 | .cellar => 3 | .dma => 4 | .writeBack => 5 | .bank => 6 | .window _ => 7 | .scrub => 8 | .repair => 9

/-- Class of a requester's requests (R287): 1 DELAY, 2 MODEL, 3 RING, 4 CELLAR, 5 SCRATCH. -/
def hbmCls (by_ : HbmBy) : Nat := min 5 (hbmNum by_ + 1)

/-- Place of the requests outstanding of a requester at pseudo-channel `i`, reads and writes apart. -/
def hbmKey (by_ : HbmBy) (i : Nat) (wr : Bool) : Nat := i * 32 + 2 * hbmNum by_ + bit wr

/-- Outstanding HBM requests of stack `k`, of one class or of all. -/
def Block.outOf (b : Block) (k : Nat) (cls : Option Nat) : Nat :=
  (Store.view b.hbm.outst).foldl (fun a x =>
    if x.1 / 1024 == k && (match cls with | some c => min 5 (x.1 % 32 / 2 + 1) == c | none => true) then a + x.2 else a) 0

/-- Lanes of cluster `k` in an adaptation state of a list. -/
def Block.lanesIn (b : Block) (k : Nat) (l : List Nat) : Nat :=
  ((List.range 33).filter fun j => l.contains (b.fld (U.lane (33 * k + j)) F.LANE_STAT_ADAPT)).length

/-- An occupancy of R383 as it stands; none where it follows a timing that the spec does not give (log entry 105): interlock stalls, loop
lanes at work within a tick, egress frames, and the prefetch of entries of a ring that holds some. -/
def Block.occOf (b : Block) (blk src : Nat) : Option Nat :=
  let e := Store.get EngH.init b.engs blk
  let cues := fun p => ((Store.view b.ctxs).filter fun x => p x.2).length
  if blk < 32 then
    match src with
    | 0 => some e.posts.length
    | 1 => some ((Store.view e.dma).filter fun x => x.2.busy).length
    | 2 => some (bit e.block.isSome)
    | _ => if e.running && !e.paused && e.blocked.isNone then none else some 0
  else if blk = 32 then
    match src with
    | 0 => some ((cues fun c => c.slot) + (b.dsp.freeing.filter fun x => b.time.elapsed < x.1).length)
    | 1 => some (cues fun c => c.state == 3)
    | 2 => some (cues fun c => c.ovf && c.state == 1)
    | _ => some (cues fun c => c.state == 2)
  else if blk = 33 then
    if b.loop.closed ∨ b.loop.charge = 0 then some (if src = 0 then 0 else b.loop.charge) else none
  else if blk = 34 ∨ blk = 35 then
    match src with
    | 0 => some (b.outOf (blk - 34) none)
    | 1 => some (b.hbm.waiting.filter fun x => x.2.1 / 32 == blk - 34).length
    | 2 => some (b.outOf (blk - 34) (some 1))
    | _ => some (b.outOf (blk - 34) (some 4))
  else if 36 ≤ blk ∧ blk < 44 then
    match src with
    | 0 => some (b.lanesIn (blk - 36) [1, 2])
    | 1 => some (((Store.view b.lanes).filter fun x => x.1 / 33 == blk - 36).foldl (fun a x =>
        a + (x.2.swaps.filter fun y => y.started && y.done.isNone).length + bit x.2.revert) 0)
    | _ => some (b.lanesIn (blk - 36) [1])
  else if 44 ≤ blk ∧ blk < 52 then
    if src = 1 then
      some ((b.hds.filter fun x => x.2.port == some (blk - 44)).foldl (fun a x =>
        a + x.2.flows.foldl (fun a y => a + y.2.have_.length) 0) 0)
    else none
  else if blk = 52 then
    if src = 0 then
      some ((Store.view b.rings).filter fun x => Word.fld x.2.d1 7 6 == 0 && Word.fld x.2.d1 15 15 == 1 && x.2.prod != x.2.cons).length
    else if (Store.view b.rings).any fun x => Word.fld x.2.d1 15 15 == 1 && x.2.prod != x.2.cons then none
    else some 0
  else if blk = 53 then some b.cel.queue.length
  else if blk = 54 then some b.recd.staging.length
  else if blk = 55 then some ((b.mon.waiting.filter (·.isSome)).length + b.mon.reqs.length)
  else none

/-- The largest value that an occupancy takes while the model does not hold it (R162, R383): an interlock stall 1, busy loop lanes 8, and
the cycles charged so far those of the whole tick. -/
def Block.occMax (b : Block) (blk src : Nat) : Option Nat :=
  if blk < 32 then some 1 else if blk = 33 then some (if src = 0 then 8 else b.loop.charge) else none

/-- What one counter adds while the clock goes from `t0` to `t1`: the cycles in which its occupancy exceeds N, and for the
events that last, the cycles of a blocked engine and the refresh commands. -/
def Block.ctrPass (b : Block) (t0 t1 i : Nat) (w : Word) : Block :=
  let (blk, ctr) := ctrAt i
  let cyc := t1 / ctrClock blk - t0 / ctrClock blk
  if ccfgEn w = false then b
  else if ctr < 4 then
    match b.occOf blk (ccfgSel w) with
    | some o => if ccfgN w < o then b.ctrAdd i cyc else b
    | none =>
      if (match b.occMax blk (ccfgSel w) with | some m => decide (m ≤ ccfgN w) | none => false) then b
      else let (b, k) := b.takeFree; b.ctrAdd i (min cyc (Config.tallyCycles k))
  else if blk < 32 ∧ ccfgSel w = 1 then
    if (Store.get EngH.init b.engs blk).block.isSome then b.ctrAdd i cyc else b
  else if (blk = 34 ∨ blk = 35) ∧ ccfgSel w = 5 then
    if b.flag (U.hs (blk - 34)) F.HS_STAT_TRAINED then let (b, k) := b.takeFree; b.ctrAdd i (min cyc (Config.tallyCycles k)) else b
  else b

/-- The counters while the clock goes on. -/
def Block.ctrsPass (b : Block) (t1 : Nat) : Block :=
  if b.tally.cfg.isEmpty then b else b.each b.tally.cfg fun b x => b.ctrPass b.time.elapsed t1 x.1 x.2

end Sys2Proof.Machine
end

