-- ==== Sys2Proof/Machine/Gates.lean ====
section
/-! DEFINITION.
The repeating path as every block reads it: unit states (R22), passband configuration (R55 to R59, R64), and the gating of its
samples: when a receive instance is gated and an output silent (R135, R180), when the probe is injected (R135), and the spans of
both as time passes. -/
namespace Sys2Proof.Machine

/-! ## Unit states (R18, R22) -/

namespace St
def off : Nat := 0
def ready : Nat := 1
def active : Nat := 2
def lull : Nat := 3
def fenced : Nat := 4
def test : Nat := 5
def failed : Nat := 6
end St

namespace Pwr
def off : Nat := 0
def up : Nat := 1
def on : Nat := 2
def down : Nat := 3
def retain : Nat := 4
def mixed : Nat := 8
def always : Nat := 15
end Pwr

/-- A unit's own stored STATE. -/
def Block.ownState (b : Block) (u : Nat) : Nat := b.fld u F.UNIT_STATE_STATE

/-- A unit's own stored PWR. -/
def Block.ownPwr (b : Block) (u : Nat) : Nat := b.fld u F.UNIT_STATE_PWR

/-- A unit in service: ACTIVE or LULL. -/
def Block.inService (b : Block) (u : Nat) : Bool := b.ownState u == St.active || b.ownState u == St.lull

/-! ## Configuration -/

/-- Rate in Hz of a rate class (R58). -/
def rateHz (r : Nat) : Nat :=
  match r with | 0 => 30720000 | 1 => 61440000 | 2 => 122880000 | 3 => 245760000 | 4 => 491520000 | _ => 0

/-- Sample period in Tc of a rate class (R58). -/
def sampleTc (r : Nat) : Nat :=
  match r with | 0 => 64 | 1 => 32 | 2 => 16 | 3 => 8 | _ => 4

/-- Latency in Tc of a rate class, 0 for an invalid code (R64, R78). -/
def latencyTc (r : Nat) : Nat :=
  match r with | 0 => 21037 | 1 => 10813 | 2 => 5702 | 3 => 3146 | 4 => 1966 | _ => 0

/-- Capacity weight of a rate class (R58). -/
def capWeight (r : Nat) : Nat := if r = 4 then 2 else 1

/-- T_A in Tc of a TAOFS code (R77). -/
def taTc (t : Nat) : Nat := match t with | 0 => 25600 | 1 => 39936 | 2 => 13792 | _ => 0

/-- The PB of PBD index `m`, and whether the PBD is an uplink. -/
def pbOf (m : Nat) : Nat := m / 2
def isUl (m : Nat) : Bool := m % 2 == 1

/-- A port of a passband (R55). -/
inductive Port where
  | rxc (k : Nat) | txc (k : Nat) | head (h p : Nat)
  deriving DecidableEq, Repr

def Block.pbH (b : Block) (n : Nat) : PbH := Store.get PbH.init b.pbs n
def Block.setPbH (b : Block) (n : Nat) (h : PbH) : Block := { b with pbs := Store.set PbH.init b.pbs n h }
def Block.pbdH (b : Block) (m : Nat) : PbdH := Store.get PbdH.init b.pbds m
def Block.setPbdH (b : Block) (m : Nat) (h : PbdH) : Block := { b with pbds := Store.set PbdH.init b.pbds m h }
def Block.rxcH (b : Block) (k : Nat) : RxcH := Store.get RxcH.init b.rxcs k
def Block.setRxcH (b : Block) (k : Nat) (h : RxcH) : Block := { b with rxcs := Store.set RxcH.init b.rxcs k h }
def Block.txcH (b : Block) (k : Nat) : TxcH := Store.get TxcH.init b.txcs k
def Block.setTxcH (b : Block) (k : Nat) (h : TxcH) : Block := { b with txcs := Store.set TxcH.init b.txcs k h }
def Block.syH (b : Block) (k : Nat) : SyH := Store.get SyH.init b.sys k
def Block.setSyH (b : Block) (k : Nat) (h : SyH) : Block := { b with sys := Store.set SyH.init b.sys k h }
def Block.ccH (b : Block) (k : Nat) : CcH := Store.get CcH.init b.ccs k
def Block.setCcH (b : Block) (k : Nat) (h : CcH) : Block := { b with ccs := Store.set CcH.init b.ccs k h }
def Block.orxH (b : Block) (k : Nat) : OrxH := Store.get OrxH.init b.orxs k
def Block.setOrxH (b : Block) (k : Nat) (h : OrxH) : Block := { b with orxs := Store.set OrxH.init b.orxs k h }

/-- Valid donor-side slots of a passband, with their slot numbers (R55). -/
def donorSlots (v : Word) (mk : Nat → Port) : List (Nat × Port) :=
  (List.range 8).filterMap fun s =>
    if Word.fld v (8 * s + 7) (8 * s + 7) = 1 then some (s, mk (Word.fld v (8 * s + 4) (8 * s))) else none

/-- Valid service-side slots of a passband (R55). -/
def serviceSlots (v0 v1 : Word) (mk : Nat → Port) : List (Nat × Port) :=
  (List.range 8).filterMap fun s =>
    let v := if s < 4 then v0 else v1
    let i := s % 4
    if Word.fld v (16 * i + 15) (16 * i + 15) = 1 then
      let p := Word.fld v (16 * i + 10) (16 * i)
      some (s, if Word.fld v (16 * i + 14) (16 * i + 14) = 1 then Port.head (p / 4) (p % 4) else mk (p % 32))
    else none

/-- Receive slots of PBD `m`: donor receive for a DL, service receive for a UL. -/
def Block.rxSlots (b : Block) (m : Nat) : List (Nat × Port) :=
  let u := U.pb (pbOf m)
  if isUl m then serviceSlots (b.reg u R.PB_SV_RX0) (b.reg u R.PB_SV_RX1) Port.rxc
  else donorSlots (b.reg u R.PB_DN_RX) Port.rxc

/-- Transmit slots of PBD `m`: service transmit for a DL, donor transmit for a UL. -/
def Block.txSlots (b : Block) (m : Nat) : List (Nat × Port) :=
  let u := U.pb (pbOf m)
  if isUl m then donorSlots (b.reg u R.PB_DN_TX) Port.txc
  else serviceSlots (b.reg u R.PB_SV_TX0) (b.reg u R.PB_SV_TX1) Port.txc

/-- Heads that carry service-side ports of passband `n`. -/
def Block.pbHeads (b : Block) (n : Nat) : List Nat :=
  (b.rxSlots (2 * n + 1) ++ b.txSlots (2 * n)).foldl (fun l x =>
    match x.2 with | .head h _ => if l.contains h then l else l ++ [h] | _ => l) []

/-- The largest D_DL among the head ports of PBD `m`, 0 where it has none (R278). -/
def Block.pbdHeadDl (b : Block) (m : Nat) : Nat :=
  (b.rxSlots m ++ b.txSlots m).foldl (fun a x =>
    match x.2 with | .head h _ => max a (b.fld (U.hd h) F.HD_LAT_D_DL) | _ => a) 0

/-- The largest D_DL and D_UL among the head ports of passband `n`, 0 where it has none (R277, R278). -/
def Block.headDl (b : Block) (n : Nat) : Nat := (b.pbHeads n).foldl (fun a h => max a (b.fld (U.hd h) F.HD_LAT_D_DL)) 0
def Block.headUl (b : Block) (n : Nat) : Nat := (b.pbHeads n).foldl (fun a h => max a (b.fld (U.hd h) F.HD_LAT_D_UL)) 0

/-- L_DL and L_UL of the service side of passband `n` (R64, R278). -/
def Block.svcLatDl (b : Block) (n : Nat) : Nat := latencyTc (b.fld (U.pb n) F.PB_CFG_RATE) + b.headDl n
def Block.svcLatUl (b : Block) (n : Nat) : Nat := latencyTc (b.fld (U.pb n) F.PB_CFG_RATE) + b.headUl n

/-- Rate class of PBD `m` (R58). -/
def Block.rateOf (b : Block) (m : Nat) : Nat := b.fld (U.pb (pbOf m)) F.PB_CFG_RATE

/-- PBD `m` belongs to a TDD passband. -/
def Block.isTdd (b : Block) (m : Nat) : Bool := b.flag (U.pb (pbOf m)) F.PB_CFG_DUPLEX

/-- PBD `m` is ACTIVE, LULL or TEST. -/
def Block.pbdOn (b : Block) (m : Nat) : Bool :=
  b.inService (U.pbd m) || b.ownState (U.pbd m) == St.test

/-- The side at which PBD `m` transmits. -/
def txSide (m : Nat) : Side := if isUl m then .donor else .service

/-- The record of a side of a passband. -/
def PbH.side (h : PbH) (s : Side) : SideH := match s with | .donor => h.donor | .service => h.service

/-- Replace a side's record. -/
def PbH.setSide (h : PbH) (s : Side) (x : SideH) : PbH :=
  match s with | .donor => { h with donor := x } | .service => { h with service := x }

/-- PBD `m` has transmit demand: it is in service and its direction is transmit at its transmit side; an FDD PBD's
direction is always transmit (R87). -/
def Block.demand (b : Block) (m : Nat) : Bool :=
  b.pbdOn m && (!b.isTdd m || ((b.pbH (pbOf m)).side (txSide m)).demand)

/-- PBD `m` is squalled (PROT_STAT.SQUALL). -/
def Block.squalled (b : Block) (m : Nat) : Bool := b.flag (U.pbd m) F.PROT_STAT_SQUALL

/-- Elapsed Tc. -/
def Block.t (b : Block) : Nat := b.time.elapsed

/-! ## The gating of samples (R135, R136, R180) -/

/-- The side at which PBD `m` receives. -/
def rxSide (m : Nat) : Side := if isUl m then .service else .donor

/-- The retune of PBD `m` holds its input gated and its output silent: from T0 + 256 until the pipeline is refilled (R75). -/
def Block.refilling (b : Block) (m : Nat) : Bool := match (b.pbdH m).retune with | .refill _ => true | _ => false

/-- A receive instance of PBD `m` is gated at its port: by direction or flexible symbols, or for want of the port. -/
def Block.portGated (b : Block) (m : Nat) (p : Port) : Bool :=
  (b.isTdd m && !((b.pbH (pbOf m)).side (rxSide m)).rxOpen) ||
    (match p with
      | .rxc k => b.fld (U.rxc k) F.RXC_STAT_CH_STATE != 2 || b.flag (U.rxc k) F.RXC_STAT_SY_WAIT
      | .head h _ => !b.inService (U.hd h)
      | .txc _ => true)

/-- A receive instance of PBD `m` is gated: by direction or flexible symbols, by a retune, or for want of its port: an RXC that is
not in RX or waits for its synthesiser, or a head that is not in service (R180). -/
def Block.instGated (b : Block) (m : Nat) (p : Port) : Bool := !b.pbdOn m || b.refilling m || b.portGated m p

/-- The receive input of PBD `m` is gated: some instance of it is. -/
def Block.inGated (b : Block) (m : Nat) : Bool := !b.pbdOn m || (b.rxSlots m).any fun x => b.instGated m x.2

/-- A transmit slot of PBD `m` carries its output: its TXC emits, or its head is in service, not muted, after the first lock (R47), and
the side transmits. -/
def Block.txOpen (b : Block) (m : Nat) (p : Port) : Bool :=
  match p with
  | .txc k => (b.txcH k).out
  | .head h _ => b.inService (U.hd h) && !b.flag (U.hd h) F.HD_STAT_MUTED && b.flag U.sync F.SYNC_STAT_EVER_LOCKED &&
      (!b.isTdd m || ((b.pbH (pbOf m)).side (txSide m)).dir != .none)
  | .rxc _ => false

/-- A squall of PBD `m` has silenced its output: 256 Tc after its ramp began (R188). -/
def Block.squallSilent (b : Block) (m : Nat) : Bool :=
  b.squalled m && !((b.pbdH m).sqSeq.any fun x => x.2 == .silent && decide (b.time.elapsed < x.1))

/-- The output of PBD `m` is silent: by gate, direction, mute, squall, PLAN_MUTE or retune (R180). -/
def Block.outSilent (b : Block) (m : Nat) : Bool :=
  let h := b.pbdH m
  !b.pbdOn m || b.squallSilent m || h.silentBy || h.extGate || b.flag (U.pbd m) F.PBD_STAT_PLAN_MUTE || b.refilling m ||
    (b.isTdd m && !((b.pbH (pbOf m)).side (txSide m)).demand) || !((b.txSlots m).any fun x => b.txOpen m x.2)

/-- The probe of PBD `m` is injected (R135, R181): enabled, in service, after the first lock, with the output chain running, and
neither gate nor direction silences the output. -/
def Block.probing (b : Block) (m : Nat) : Bool :=
  b.flag (U.pbd m) F.PBD_PROBE_CFG_EN && b.flag U.sync F.SYNC_STAT_EVER_LOCKED && b.flag (U.mc (2 * m + 1)) F.MC_STAT_RUN &&
    !b.outSilent m

/-- Tc for which spans of gating are kept: beyond the longest output period of a chain and the longest adaptation block. -/
def spanKeep : Nat := 524288

/-- A list of spans, newest first, with the Tc from `t0` up to `t1` added. -/
def spanAdd (t0 t1 : Nat) (l : List (Nat × Nat)) : List (Nat × Nat) :=
  match l with
  | [] => [(t0, t1)]
  | x :: r => if t0 ≤ x.2 then (x.1, t1) :: r else (t0, t1) :: x :: r.filter fun y => t1 ≤ y.2 + spanKeep

/-- Some Tc from `lo` up to `hi` lies in a span. -/
def spanHit (l : List (Nat × Nat)) (lo hi : Nat) : Bool := l.any fun x => decide (max lo x.1 < min hi x.2)

/-- The key of a receive instance. -/
def instKey (m slot : Nat) : Nat := m * 8 + slot

/-- While the clock goes from its instant to `t1` the gating of PBD `m` stands as it is: the spans and the count of valid probe
samples, in Tc, follow (R136, R180). -/
def Block.gatePass (b : Block) (t1 m : Nat) : Block :=
  let t0 := b.time.elapsed
  let b := b.each (b.rxSlots m) fun b x =>
    let k := instKey m x.1
    let b := if b.instGated m x.2 then
        { b with time := { b.time with shutIn := Store.set [] b.time.shutIn k (spanAdd t0 t1 (Store.get [] b.time.shutIn k)) } }
      else b
    if b.portGated m x.2 then
      { b with time := { b.time with shutPort := Store.set [] b.time.shutPort k (spanAdd t0 t1 (Store.get [] b.time.shutPort k)) } }
    else b
  let b := if !b.pbdOn m || b.refilling m then
      { b with time := { b.time with shutFill := Store.set [] b.time.shutFill m (spanAdd t0 t1 (Store.get [] b.time.shutFill m)) } }
    else b
  let b := if b.outSilent m then
      { b with time := { b.time with shutOut := Store.set [] b.time.shutOut m (spanAdd t0 t1 (Store.get [] b.time.shutOut m)) } }
    else b
  if b.probing m && !b.inGated m then
    { b with time := { b.time with probed := Store.set 0 b.time.probed m (Store.get 0 b.time.probed m + (t1 - t0)) } }
  else b

/-- The PBDs whose gating matters: those that hold capacity, and those out of service with a chain that runs (R180). -/
def Block.gatedPbds (b : Block) : List Nat :=
  let cap := (b.pbds.filter fun x => x.2.capacity).map (·.1)
  let run := (b.mcs.filter fun x => x.1 < 256 && b.flag (U.mc x.1) F.MC_STAT_RUN).map fun x => x.1 / 2
  cap ++ (run.filter fun m => !cap.contains m).eraseDups

/-- The gating of those PBDs while the clock goes on. -/
def Block.gatesPass (b : Block) (t1 : Nat) : Block := b.each b.gatedPbds fun b m => b.gatePass t1 m

/-- PBD `m` begins to run: its samples up to now count as gated. -/
def Block.gateBegin (b : Block) (m : Nat) : Block :=
  let all := [(0, b.time.elapsed)]
  { b with time := { b.time with
      shutIn := (b.rxSlots m).foldl (fun s x => Store.set [] s (instKey m x.1) all) b.time.shutIn
      shutFill := Store.set [] b.time.shutFill m all
      shutOut := Store.set [] b.time.shutOut m all } }

/-- A sample of slot `slot` of PBD `m` from elapsed `lo` up to `hi` was gated. -/
def Block.instShut (b : Block) (m slot lo hi : Nat) : Bool := spanHit (Store.get [] b.time.shutIn (instKey m slot)) lo hi

/-- The receive part of the latency of a rate class (R64): from an RXC ball to the tap of stage 5. -/
def rxPartTc (r : Nat) : Nat := match r with | 0 => 2292 | 1 => 1268 | 2 => 756 | 3 => 500 | _ => 420

/-- The middle part (R64): the channel filter, and the gain, beam and probe stages. -/
def midPartTc (r : Nat) : Nat := latencyTc r - rxPartTc r - (match r with | 0 => 2329 | 1 => 1305 | 2 => 794 | 3 => 538 | _ => 460)

/-- The transmit part (R64): from the tap of stage 8 to a TXC ball. -/
def txPartTc (r : Nat) : Nat := match r with | 0 => 2329 | 1 => 1305 | 2 => 794 | 3 => 538 | _ => 460

/-- A sample at the input tap of PBD `m` from elapsed `lo` up to `hi` was gated: at its port when it crossed that, the receive part
before (R64), or in the PBD (R180). -/
def Block.inShut (b : Block) (m lo hi : Nat) : Bool :=
  let d := rxPartTc (b.rateOf m)
  spanHit (Store.get [] b.time.shutFill m) lo hi ||
    (b.rxSlots m).any fun x => spanHit (Store.get [] b.time.shutPort (instKey m x.1)) (lo - d) (hi - d)

/-- A sample at the output tap of PBD `m` from elapsed `lo` up to `hi` counts as silent. DESIGN CHOICE: while the output is silent at the
sample's own Tc, since what the output does the transmit part later is not known when the reading is made (log entry 104). -/
def Block.outShut (b : Block) (m lo hi : Nat) : Bool := spanHit (Store.get [] b.time.shutOut m) lo hi

end Sys2Proof.Machine
end

