-- ==== Sys2Proof/Machine/Flags.lean ====
section
/-! DEFINITION.
The status side of a unit: the states of R22 with the aggregate states of groups (R26), and the reporting of a fault
(UNIT_FAULT, interrupts, first-fault capture, the collector and the recorder, R18 to R20, R350 to R363). -/
namespace Sys2Proof.Machine

/-! ## Unit states (R18, R22, R26) -/

/-- Place of a state in the order of R26: FAILED > FENCED > LULL > TEST > ACTIVE > READY > OFF. -/
def stateRank (st : Nat) : Nat :=
  match st with
  | 6 => 6 | 4 => 5 | 3 => 4 | 5 => 3 | 2 => 2 | 1 => 1 | _ => 0

/-- The worse of two states (R26). -/
def worse (a b : Nat) : Nat := if stateRank a < stateRank b then b else a

/-- Direct members of a host-defined group (R25, R28). -/
def Block.grpMembers (b : Block) (g : Nat) : List Nat := Store.get [] b.groups g

/-- Direct members of any group. -/
def Block.members (b : Block) (g : Nat) : List Nat :=
  if kindOf g = 0x20 then b.grpMembers g else builtinMembers g

/-- STATE as it reads, with the aggregate of R26 for groups; `n` bounds the nesting (R28). -/
def Block.stateN (b : Block) (n u : Nat) : Nat :=
  match n with
  | 0 => b.ownState u
  | n + 1 =>
    if kindOf u = 0x20 then (b.grpMembers u).foldl (fun a m => worse a (b.stateN n m)) 0
    else if isBuiltinGroup u then (builtinMembers u).foldl (fun a m => worse a (b.ownState m)) (b.ownState u)
    else b.ownState u

/-- STATE of a unit as it reads. -/
def Block.state (b : Block) (u : Nat) : Nat := b.stateN 10 u

/-- The common value of a list, or `mix`; `z` for the empty list. -/
def commonOr (z mix : Nat) (l : List Nat) : Nat :=
  match l with
  | [] => z
  | a :: t => if t.all (· == a) then a else mix

/-- PWR as it reads, with the aggregate of R26 for groups; a host-defined group without members reads OFF (DESIGN CHOICE,
log entry 96: R26 gives only its STATE). -/
def Block.pwrN (b : Block) (n u : Nat) : Nat :=
  match n with
  | 0 => b.ownPwr u
  | n + 1 =>
    if kindOf u = 0x20 then commonOr 0 Pwr.mixed ((b.grpMembers u).map (b.pwrN n))
    else if isBuiltinGroup u then commonOr 0 Pwr.mixed ((builtinMembers u).map b.ownPwr)
    else b.ownPwr u

/-- PWR of a unit as it reads. -/
def Block.pwr (b : Block) (u : Nat) : Nat := b.pwrN 10 u

/-- STATE or PWR of a page changed: CHANGES adds one, UNIT_STAMP takes the present stamp, the STATE cause is set. -/
def Block.bumpState (b : Block) (u : Nat) : Block :=
  ((b.incWrap u F.UNIT_STATE_CHANGES 1).setReg u R.UNIT_STAMP b.now).irq u 0

/-- Groups whose aggregate a change at `u` may move: its built-in group, itself if it is one, and every host-defined
group that has members. -/
def Block.groupsOver (b : Block) (u : Nat) : List Nat :=
  (if isBuiltinGroup u then [u] else []) ++ (builtinGroupOf u).toList ++ b.groups.map (·.1)

/-- Make a change of STATE or PWR at `u`, with the CHANGES, stamps and interrupts of `u` and of every group whose
aggregate follows (R18, R26). A STATE and a PWR that change in one Tc are two changes (DESIGN CHOICE, log entry 96). -/
def Block.stateChange (b : Block) (u : Nat) (f : Block → Block) : Block :=
  let b' := f b
  let b1 := if isBuiltinGroup u then b' else b'.bumpState u
  b1.each (b.groupsOver u) fun c g =>
    if b.state g = b'.state g ∧ b.pwr g = b'.pwr g then c else c.bumpState g

/-- Put a unit into a state (R22). ENABLE and TEST_REQ clear on entry to FENCED or FAILED (R18), and a ramp-down under way
ends outside service. -/
def Block.setState (b : Block) (u st : Nat) : Block :=
  let b := if st = St.active ∨ st = St.lull ∨ st = St.test then b else { b with ramping := Store.set 0 b.ramping u 0 }
  let b := if st = St.fenced ∨ st = St.failed then
      (b.setFlag u F.UNIT_CTRL_ENABLE false).setFlag u F.UNIT_CTRL_TEST_REQ false else b
  if b.ownState u = st then b else b.stateChange u fun b => b.setFld u F.UNIT_STATE_STATE st

/-- Set a unit's PWR. -/
def Block.setPwr (b : Block) (u p : Nat) : Block :=
  if b.ownPwr u = p then b else b.stateChange u fun b => b.setFld u F.UNIT_STATE_PWR p

/-- Set the PWR of the units of a domain in one change: an aggregate over several of them follows once (R26). -/
def Block.setPwrs (b : Block) (us : List Nat) (p : Nat) : Block :=
  let us := us.filter fun u => b.ownPwr u != p
  let b' := b.each us fun b u => b.setFld u F.UNIT_STATE_PWR p
  let b1 := b'.each us fun b u => if isBuiltinGroup u then b else b.bumpState u
  b1.each (us.flatMap b.groupsOver).eraseDups fun c g =>
    if b.state g = b'.state g ∧ b.pwr g = b'.pwr g then c else c.bumpState g

/-- A squall or a fault's reaction acts on bits of a register in this Tc: it prevails over every write and action (R254). -/
def Block.override (b : Block) (u off : Nat) (mask : Word) : Block :=
  { b with time := { b.time with coll := b.time.coll ++ [{ uid := u, off := off, mask := mask, cls := 4, idx := 0 }] } }

/-- A squall or a fault's reaction has acted on a field in this Tc. -/
def Block.overridden (b : Block) (u : Nat) (f : Fld) : Bool :=
  b.time.coll.any fun c => c.cls == 4 && c.uid == u && c.off == f.off && (c.mask &&& fldMask f.hi f.lo) != 0

/-! ## The recorder's input (R374) -/

/-- The faults of one collector cycle in rank order (R361): most severe class, real before injected, lower UID, lower
code. -/
def faultBefore (a c : FltEnt) : Bool :=
  if a.cls ≠ c.cls then decide (c.cls < a.cls)
  else if a.inj ≠ c.inj then !a.inj
  else if a.uid ≠ c.uid then decide (a.uid < c.uid)
  else decide (a.code < c.code)

/-- Insert by rank. -/
def insertFault (e : FltEnt) : List FltEnt → List FltEnt
  | [] => [e]
  | a :: t => if faultBefore e a then e :: a :: t else a :: insertFault e t

/-- An event leaves for the recorder, in order of time. -/
def Block.recEvent (b : Block) (typ uid : Nat) (words : List Word) (excl : List Nat) : Block :=
  { b with recd := { b.recd with incoming := b.recd.incoming ++
      [{ typ := typ, cls := 0, inj := false, same := false, coin := false, uid := uid, words := words, excl := excl,
         cyc := 0, opsec := 0, pwrcyc := 0, arrival := 0 }] } }

/-- The FAULT record of a captured fault (R373). -/
def faultRecord (phase : Nat) (e : FltEnt) (same : Bool) : RecEv :=
  { typ := 0x01, cls := e.cls, inj := e.inj, same := same, coin := e.coin, uid := e.uid
    words := [BitVec.ofNat 64 ((e.code <<< 16) + (phase <<< 24)), if e.airless then 0 else stampOf e.cyc]
    excl := [1], cyc := e.cyc, opsec := 0, pwrcyc := 0, arrival := 0 }

/-- The fault that an event under way reports, for its rank. -/
def recFault (r : RecEv) : FltEnt :=
  { uid := r.uid, code := Word.fld (r.words.headD 0) 23 16, cls := r.cls, inj := r.inj, coin := r.coin, cyc := r.cyc
    airless := false }

/-- Two FAULT events shared a collector cycle: the stamps in w1 are equal and not zero (R361). -/
def sharedCycle (e r : RecEv) : Bool :=
  r.typ == 0x01 && r.words.getD 1 0 == e.words.getD 1 0 && e.words.getD 1 0 != 0

/-- Queue a FAULT event: the faults of one cycle arrive in rank order, each but the first with SAME_CYCLE (R361, R374). -/
def insertFaultEv (e : RecEv) : List RecEv → List RecEv
  | [] => [e]
  | r :: t =>
    if sharedCycle e r && faultBefore (recFault e) (recFault r) then
      e :: (r :: t).map fun x => if sharedCycle e x then { x with same := true } else x
    else r :: insertFaultEv e t

/-! ## Reporting a fault (R350, R361 to R363) -/

/-- CODE and CLASS hold the most severe fault, the latest among equals (R19); a real fault keeps its place against an
injection of its cycle (R366). -/
def Block.holdCode (b : Block) (e : FltEnt) (keepReal : Bool) : Block :=
  let u := e.uid
  let held := b.fld u F.UNIT_FAULT_CLASS
  if held < e.cls ∨ (held = e.cls ∧ keepReal = false) then
    (b.setFld u F.UNIT_FAULT_CODE e.code).setFld u F.UNIT_FAULT_CLASS e.cls else b

/-- A real fault of the same unit and class stands in the present collector cycle beside the injection `e` (R366). -/
def Block.realPeer (b : Block) (e : FltEnt) : Bool :=
  e.inj && b.flt.cycle.any fun x => x.uid == e.uid && !x.inj && x.cls == e.cls

/-- A fault of the Tc of a clearing write is applied after the write (R19): its class bit, CODE and CLASS come again. -/
def Block.holdFault (b : Block) (e : FltEnt) : Block :=
  let b := b.holdCode e (b.realPeer e)
  if e.cls = 1 then b.setFlag e.uid F.UNIT_FAULT_CORRECTED true
  else if e.cls = 2 then b.setFlag e.uid F.UNIT_FAULT_CONTAINED true else b

/-- UNIT_FAULT at the fault's unit (R18, R19): the class bit, CORR_CNT, and CODE and CLASS of the most severe fault, the
latest among equals; a real fault keeps its place against an injection of its cycle (R366). -/
def Block.unitFault (b : Block) (e : FltEnt) (fatalBit keepReal : Bool) : Block :=
  let u := e.uid
  let b := b.holdCode e keepReal
  if e.cls = 1 then ((b.setFlag u F.UNIT_FAULT_CORRECTED true).incSat u F.UNIT_FAULT_CORR_CNT 1).irq u 1
  else if e.cls = 2 then (b.setFlag u F.UNIT_FAULT_CONTAINED true).irq u 2
  else (b.when fatalBit fun b => b.setFlag u F.UNIT_FAULT_FATAL true).irq u 3

/-- The register word of a captured fault. -/
def fltWord (e : FltEnt) (same : Bool) : Word :=
  BitVec.ofNat 64 (e.uid + (e.code <<< 16) + (e.cls <<< 24) + (bit e.inj <<< 26) + (bit same <<< 27) +
    (bit e.coin <<< 28) + (1 <<< 31))

/-- Two captured faults share a collector cycle: equal stamps that are not zero (R361). -/
def sameCycle (a c : FltEnt) : Bool := !a.airless && !c.airless && a.cyc == c.cyc

/-- Write FLT_FIRST, FLT_NEXT and their stamps and count from the captured list (R361, R362). -/
def Block.showCaptured (b : Block) : Block :=
  match b.flt.captured with
  | [] =>
    ((((b.setReg 0 R.FLT_FIRST 0).setReg 0 R.FLT_FIRST_STAMP 0).each (List.range 16) fun b j =>
      b.setReg 0 (R.FLT_NEXT j) 0).setFld 0 F.FLT_NEXT_CNT_COUNT 0)
  | e :: t =>
    let shared := match t with | [] => false | e2 :: _ => sameCycle e e2
    let b := (b.setReg 0 R.FLT_FIRST (fltWord e shared)).setReg 0 R.FLT_FIRST_STAMP (if e.airless then 0 else stampOf e.cyc)
    let b := b.each (List.range 16) fun b j =>
      match t[j]? with
      | none => b
      | some x => b.setReg 0 (R.FLT_NEXT j) (fltWord x (match (e :: t)[j]? with | some p => sameCycle p x | none => false))
    b.setFld 0 F.FLT_NEXT_CNT_COUNT t.length

/-- Capture a fault into FLT_FIRST or FLT_NEXT (R361, R362). -/
def Block.capture (b : Block) (e : FltEnt) : Block :=
  if e.cls ≥ 2 ∨ b.flag 0 F.FLT_CFG_FIRST_CORR then
    let older := b.flt.captured.filter fun x => !sameCycle x e
    let same := b.flt.captured.filter fun x => sameCycle x e
    let all := older ++ insertFault e same
    let lost := all.length - 17
    let first := b.flt.captured.isEmpty
    let b := ({ b with flt := { b.flt with captured := all.take 17 } }).showCaptured
    let b := b.when (decide (0 < lost)) fun b => (b.incSat 0 F.FLT_NEXT_CNT_LOST lost).irq 0 24
    b.when first fun b => b.irq 0 22
  else b

/-- The number of the present collector cycle: by air time, or by the keel's own count where that does not run (R352). -/
def Block.collCycle (b : Block) : Nat := if b.time.running then b.cycleTc else b.time.elapsed - b.time.elapsed % 4

/-- The collector's error line of a block class (R351, R352). -/
def Block.collect (b : Block) (line : Nat) : Block :=
  if b.fld 0 F.FLT_COLLECT_INFO_PHASE = 0 then b
  else
    let b := b.setReg 0 R.FLT_COLLECT (b.reg 0 R.FLT_COLLECT ||| BitVec.ofNat 64 (1 <<< line))
    if b.flag 0 F.FLT_COLLECT_INFO_FIRST_V then
      -- several lines in the first cycle: the lowest bit among them
      if b.flt.firstCyc = b.collCycle ∧ b.flag 0 F.FLT_COLLECT_INFO_NO_AIR = !b.time.running ∧
          line < b.fld 0 F.FLT_COLLECT_INFO_FIRST_BIT then
        b.setFld 0 F.FLT_COLLECT_INFO_FIRST_BIT line else b
    else
      let b := { b with flt := { b.flt with firstCyc := b.collCycle } }
      (((b.setFld 0 F.FLT_COLLECT_INFO_FIRST_BIT line).setFlag 0 F.FLT_COLLECT_INFO_FIRST_V true).setReg 0
        R.FLT_COLLECT_STAMP b.cycleStamp).setFlag 0 F.FLT_COLLECT_INFO_NO_AIR (!b.time.running)

/-- Mark an injection of this cycle at the same unit as COINCIDENT, in FLT_FATAL too (R363, R366). -/
def Block.markCoincident (b : Block) (u : Nat) : Block :=
  let hit : FltEnt → Bool := fun x => x.uid == u && x.inj && x.cyc == b.flt.cycleAt
  let mk : FltEnt → FltEnt := fun x => if hit x then { x with coin := true } else x
  let b := { b with
    flt := { b.flt with cycle := b.flt.cycle.map mk, captured := b.flt.captured.map mk }
    recd := { b.recd with incoming := b.recd.incoming.map fun (r : RecEv) =>
      if r.typ = 0x01 ∧ r.uid = u ∧ r.inj ∧ r.cyc = b.flt.cycleAt then { r with coin := true } else r } }
  let b := b.when (b.flag 0 F.FLT_FATAL_V && b.flag 0 F.FLT_FATAL_INJ && b.fld 0 F.FLT_FATAL_UID == u &&
    b.reg 0 R.FLT_FATAL_STAMP == b.cycleStamp && b.flt.cycle.any fun x => hit x && x.cls == 3) fun b => b.setFlag 0 F.FLT_FATAL_COINCIDENT true
  ((b.showCaptured).setFlag 0 F.FLT_INJ_STAT_COINCIDENT true).irq 0 25

/-- A fault joins those of its collector cycle and those of its Tc (R19, R361). -/
def Block.noteFault (b : Block) (e : FltEnt) : Block :=
  { b with flt := { b.flt with cycle := b.flt.cycle ++ [e], now := (if b.flt.nowAt = b.time.elapsed then b.flt.now else []) ++ [e], nowAt := b.time.elapsed } }

/-- The faults of the present Tc at unit `u`, in their order. -/
def Block.faultsNow (b : Block) (u : Nat) : List FltEnt :=
  if b.flt.nowAt = b.time.elapsed then b.flt.now.filter fun e => e.uid == u else []

/-- Report a fault: UNIT_FAULT and its interrupt, capture, collector line and FAULT record (R350, R361). `fatalBit` says
that a FATAL fault sets the latch; `path` is the block class that R474 takes from the path. -/
def Block.faultReport (b : Block) (u code cls : Nat) (inj fatalBit : Bool) (path : Nat) : Block :=
  let cyc := b.collCycle
  let b := if b.flt.cycleAt = cyc then b else { b with flt := { b.flt with cycle := [], cycleAt := cyc } }
  let metReal := inj && b.flt.cycle.any fun x => x.uid == u && !x.inj
  let metInj := !inj && b.flt.cycle.any fun x => x.uid == u && x.inj
  let e : FltEnt := { uid := u, code := code, cls := cls, inj := inj, coin := metReal, cyc := cyc, airless := !b.time.running }
  let higher := b.time.running && b.flt.cycle.any fun x => faultBefore x e
  let b := b.unitFault e fatalBit (b.realPeer e)
  let b := b.capture e
  let b := b.collect (blockClass u code path)
  let b := b.noteFault e
  let rec? := (cls ≥ 2 || b.flag 0 F.FLT_CFG_REC_CORR) && code != C.recLost && code != C.recFull
  let b := b.when rec? fun b =>
    { b with recd := { b.recd with
        incoming := insertFaultEv (faultRecord (b.fld 0 F.FLT_COLLECT_INFO_PHASE) e higher) b.recd.incoming } }
  let b := b.when metReal fun b => (b.setFlag 0 F.FLT_INJ_STAT_COINCIDENT true).irq 0 25
  b.when metInj fun b => b.markCoincident u

/-- Raise a CORRECTED fault: the unit carries on (R347). -/
def Block.corrected (b : Block) (u code : Nat) : Block := b.faultReport u code 1 false false 16

/-- Raise a CORRECTED fault at the module root with the block class of the path that carried it (R474). -/
def Block.correctedRoot (b : Block) (code path : Nat) : Block := b.faultReport 0 code 1 false false path

end Sys2Proof.Machine
end

