-- ==== Sys2Proof/Machine/Gain.lean ====
section
/-! DEFINITION.
The gain applied at a PBD (R65 to R68, R131, R153): the loop registers in force, cold gain, the command in force with the cold cap and
the entry in force, and what the digital stage makes of it. -/
namespace Sys2Proof.Machine

/-- A loop register in force (R157). -/
def Block.act (b : Block) (u off : Nat) : Word := Store.get (regReset u off) b.loop.act (regKey u off)

/-- A field of a loop register in force. -/
def Block.actFld (b : Block) (u : Nat) (f : Fld) : Nat := Word.fld (b.act u f.off) f.hi f.lo

/-- A one-bit field of a loop register in force. -/
def Block.actFlag (b : Block) (u : Nat) (f : Fld) : Bool := b.actFld u f != 0

/-- A signed field of a loop register in force. -/
def Block.actS (b : Block) (u : Nat) (f : Fld) : Int := sext (f.hi + 1 - f.lo) (b.actFld u f)

/-- M_min of PBD `m`: SETPT of L0 in force (R145, R157). -/
def Block.mMin (b : Block) (m : Nat) : Int := b.actS (U.pbd m) (F.LOOP_SETPT_SETPT 0)

/-- Cold gain of PBD `m`: ISO_PASSIVE − M_min (R131), as a code (R10). -/
def Block.coldGain (b : Block) (m : Nat) : Int :=
  max (-32767) (min 32767 (b.sfld (U.pbd m) F.PBD_PROBE_ISO_ISO_PASSIVE - b.mMin m))

/-- A register of PBD `m` in force: one written in this tick while the PBD is in service keeps its value to the next tick
boundary (R74). -/
def Block.pathReg (b : Block) (m off : Nat) : Word :=
  match (b.pbdH m).held.find? fun x => x.1 == off with
  | some x => x.2
  | none => b.reg (U.pbd m) off

/-- A field of such a register in force. -/
def Block.pathFld (b : Block) (m : Nat) (f : Fld) : Nat := Word.fld (b.pathReg m f.off) f.hi f.lo

/-- A signed field of such a register in force. -/
def Block.pathS (b : Block) (m : Nat) (f : Fld) : Int := sext (f.hi + 1 - f.lo) (b.pathFld m f)

/-- An external table is in use at PBD `m`, or entry 15 is in force as the start entry (R67). -/
def Block.extInUse (b : Block) (m : Nat) : Bool :=
  b.pathFld m F.PBD_PLAN_N_EXT != 0 || b.pathFld m F.PBD_PLAN_EXT_INIT == 15

/-- GAIN of entry `e`, 0 while no table is in use (R67). -/
def Block.extGain (b : Block) (m e : Nat) : Int :=
  if b.extInUse m then b.pathS m (F.PBD_EXT_GAIN e) else 0

/-- The command in force now: one that waited for its cyclic prefix has replaced the one before it at the prefix's midpoint
(R66). -/
def Block.cmdNow (b : Block) (m : Nat) : Option Int :=
  match (b.pbdH m).gainPending with
  | some (g, t) => if t ≤ b.t then some g else b.db (U.pbd m) F.PBD_GAIN_CMD
  | none => b.db (U.pbd m) F.PBD_GAIN_CMD

/-- The digital gain that follows from the command in force, the cold cap and the entry in force, with PLAN_CLAMP and
PLAN_MUTE (R67, R68, R131). DESIGN CHOICE: while PLAN_MUTE gates the output, DIG shows −30 dB, the digital stage's lower limit
(log entry 98). -/
def Block.showGain (b : Block) (m : Nat) : Block :=
  let u := U.pbd m
  match b.cmdNow m with
  | none => (b.setFld u F.PBD_GAIN_DIG 0).setFlag u F.PBD_STAT_PLAN_MUTE false
  | some cmd =>
    let net := if b.flag u F.PBD_PROBE_STAT_COLD_CAP then min cmd (b.coldGain m) else cmd
    let ext := b.extGain m (b.fld u F.PBD_GAIN_EXT_IDX)
    let dig := net - ext
    let b := b.setFld u F.PBD_GAIN_EXT (toCode 16 ext)
    let was := b.flag u F.PBD_STAT_PLAN_MUTE
    let b := b.when (decide (3840 < dig)) fun b =>
      if b.flag u F.PBD_STAT_PLAN_CLAMP then b else (b.setFlag u F.PBD_STAT_PLAN_CLAMP true).irq u 17
    let mute := decide (dig < -1920)
    let b := b.setFlag u F.PBD_STAT_PLAN_MUTE mute
    let b := b.when (mute && !was) fun b => b.irq u 17
    b.setFld u F.PBD_GAIN_DIG (toCode 16 (max (-1920) (min 3840 dig)))

/-- The net gain applied at PBD `m`: the command, under the cold cap while it is in force (R153). -/
def Block.netGain (b : Block) (m : Nat) : Option Int :=
  match b.cmdNow m with
  | none => none
  | some c => some (if b.flag (U.pbd m) F.PBD_PROBE_STAT_COLD_CAP then min c (b.coldGain m) else c)

/-- The net gain under the command that is shown, whether or not a newer one has come into force. -/
def Block.gainShown (b : Block) (m : Nat) : Int :=
  match b.db (U.pbd m) F.PBD_GAIN_CMD with
  | none => 0
  | some c => if b.flag (U.pbd m) F.PBD_PROBE_STAT_COLD_CAP then min c (b.coldGain m) else c

/-- The net gain changes at elapsed `t`: what it was so far is kept for blocks that have ended by then (R191). -/
def Block.gainNote (b : Block) (m t : Nat) : Block :=
  let h := b.pbdH m
  if h.gainWas.any fun x => x.2 == t then b
  else b.setPbdH m { h with gainWas := (b.gainShown m, t) :: h.gainWas.filter fun x => decide (t < x.2 + 4096) }

/-- The net gain of PBD `m` at the Tc before elapsed `e` (R191). -/
def Block.gainAt (b : Block) (m e : Nat) : Int :=
  let h := b.pbdH m
  match (h.gainWas.filter fun x => decide (e ≤ x.2)).getLast? with
  | some x => x.1
  | none =>
    match h.gainPending with
    | some (_, t) => if e ≤ t then b.gainShown m else (b.netGain m).getD 0
    | none => (b.netGain m).getD 0

/-- The report of the command that comes into force: its winner and its limit (R168, R169). -/
def Block.showWin (b : Block) (m : Nat) (x : Nat × Nat) : Block :=
  let u := U.pbd m
  let b := b.note 33 5 (bit (b.fld u F.LOOP_PBD_STAT_WINNER != x.1))
  let b := (b.setFld u F.LOOP_PBD_STAT_WINNER x.1).setFld u F.LOOP_PBD_STAT_LIMIT x.2
  b.each (List.range 8) fun b l => b.setFlag u (F.LOOP_STAT_WIN l) (l == x.1)

/-- A gain change that waited for its cyclic prefix has applied by now (R66). -/
def Block.gainSettle (b : Block) (m : Nat) : Block :=
  match (b.pbdH m).gainPending with
  | some (g, t) =>
    if t ≤ b.t then
      let b := b.gainNote m t
      let h := b.pbdH m
      let b := (b.setPbdH m { h with gainPending := none, winPending := none }).setFld (U.pbd m) F.PBD_GAIN_CMD (dbCode g)
      let b := match h.winPending with | some x => b.showWin m x | none => b
      b.showGain m
    else b
  | none => b

/-- The change that waits for its cyclic prefix and applies first: its instant and its PBD. -/
def Block.gainDue (b : Block) : Option (Nat × Nat) :=
  b.pbds.foldl (fun (best : Option (Nat × Nat)) x =>
    match x.2.gainPending with
    | none => best
    | some (_, t) =>
      match best with
      | some (t', _) => if t < t' then some (t, x.1) else best
      | none => some (t, x.1)) none

/-- Changes that wait for a cyclic prefix. -/
def Block.gainCount (b : Block) : Nat := b.pbds.foldl (fun a x => a + bit x.2.gainPending.isSome) 0

end Sys2Proof.Machine
end

