-- ==== Sys2Proof/Machine/Mem.lean ====
section
/-! DEFINITION.
The addressed memories: reading and writing one address, multi-byte access to HBM (little-endian), and the one way in
which a command's effect reaches the memories: it reads them as they stood and leaves its writes in a list that is
applied in order. -/
namespace Sys2Proof.Machine

/-- Place of a RAM in the word store: each RAM has a key space of 2^40 words. -/
def ramBase (r : Ram) : Nat :=
  2 ^ 40 * (match r with
    | .cb => 0 | .fcoef => 1 | .lut => 2 | .lutAct => 3 | .mcCoef => 4 | .ccSeq => 5 | .imem => 6 | .dmem => 7
    | .ctx => 8 | .mram => 9 | .tallyBuf => 11 | .tracer => 12 | .monBuf => 13 | .slotA => 14
    | .slotB => 15 | .setStore => 16 | .calStore => 17 | .token => 18)

/-- Read a word of a RAM. -/
def Mem.rd (μ : Mem) (r : Ram) (i : Nat) : Quad := Store.get (0 : Quad) μ.words (ramBase r + i)

/-- Read a 64-bit word of a RAM. -/
def Mem.rd64 (μ : Mem) (r : Ram) (i : Nat) : Word := (μ.rd r i).setWidth 64

/-- Write a word of a RAM. -/
def Mem.wr (μ : Mem) (r : Ram) (i : Nat) (v : Quad) : Mem :=
  { μ with words := Store.set (0 : Quad) μ.words (ramBase r + i) v }

/-- Bytes of HBM (R284). -/
def hbmSize : Nat := 2 ^ 37

/-- Read a byte of HBM. -/
def Mem.rdByte (μ : Mem) (a : Nat) : Byte := Store.get (0 : Byte) μ.hbm a

/-- Write a byte of HBM. -/
def Mem.wrByte (μ : Mem) (a : Nat) (v : Byte) : Mem := { μ with hbm := Store.set (0 : Byte) μ.hbm a v }

/-- The unsigned value of `n` bytes of HBM, lowest address first. -/
def Mem.rdBytes (μ : Mem) (a n : Nat) : Nat :=
  (List.range n).foldr (fun i acc => acc * 256 + (μ.rdByte (a + i)).toNat) 0

/-- Remove the keys from `lo` up to `hi`. -/
def Store.drop {α : Type} (l : Store α) (lo hi : Nat) : Store α := l.filter fun x => !(lo ≤ x.1 && x.1 < hi)

/-- Carry out one memory write. -/
def Mem.op (μ : Mem) (o : MemOp) : Mem :=
  match o with
  | .byte a v => μ.wrByte a v
  | .word r i v => μ.wr r i v
  | .clearRam r => { μ with words := Store.drop μ.words (ramBase r) (ramBase r + 2 ^ 40) }
  | .clearWords r lo hi => { μ with words := Store.drop μ.words (ramBase r + lo) (ramBase r + hi) }
  | .clearHbm lo hi => { μ with hbm := Store.drop μ.hbm lo hi }
  | .clearPc i => { μ with hbm := μ.hbm.filter fun x => !(x.1 / 256 % 64 == i) }

/-- Carry out memory writes in order. -/
def Mem.ops (μ : Mem) (l : List MemOp) : Mem := l.foldl Mem.op μ

/-- The canonical form of the memories: addresses strictly rising and no entry equal to what an unlisted address reads
as. -/
def Mem.wf (μ : Mem) : Bool := Store.wf (0 : Byte) μ.hbm && Store.wf (0 : Quad) μ.words

/-- A write to a RAM, left for the end of the command. -/
def Block.put (b : Block) (r : Ram) (i : Nat) (v : Quad) : Block := { b with memOps := b.memOps ++ [.word r i v] }

/-- A 64-bit word written to a RAM, left for the end of the command. -/
def Block.put64 (b : Block) (r : Ram) (i : Nat) (v : Word) : Block := b.put r i (v.setWidth 128)

/-- The byte writes of an `n`-byte value at an address of HBM, lowest byte first. -/
def byteOps (a n v : Nat) : List MemOp :=
  (List.range n).map fun i => .byte (a + i) (BitVec.ofNat 8 (v / 256 ^ i))

/-- Pseudo-channel of an HBM offset (R284). -/
def pcOf (a : Nat) : Nat := a / 256 % 64

/-- A pseudo-channel does not serve: it is fenced or failed, or its stack is not ON (R286, R294). -/
def Block.pcDead (b : Block) (i : Nat) : Bool :=
  let st := b.fld (U.pc i) F.UNIT_STATE_STATE
  st == 4 || st == 6 || b.fld (U.hs (i / 32)) F.UNIT_STATE_PWR != 2

/-- A read of `n` bytes at an HBM offset meets an uncorrectable error: a pseudo-channel that does not serve, or a sector that
is uncorrectable (R289, R294). -/
def Block.hbmBad (b : Block) (a n : Nat) : Bool :=
  n != 0 && (((List.range (min 64 ((a + n - 1) / 256 + 1 - a / 256))).any fun j => b.pcDead (pcOf (a + 256 * j))) ||
    b.hbm.ue.any fun s => decide (a / 32 ≤ s) && decide (s ≤ (a + n - 1) / 32))

/-- Writes to `n` bytes from an HBM offset on, left for the end of the command: a pseudo-channel that does not serve discards
them (R294), and a sector written is no longer uncorrectable (R289). -/
def Block.putOps (b : Block) (a n : Nat) (l : List MemOp) : Block :=
  { b with
    memOps := b.memOps ++ l.filter fun o => match o with
      | .byte x _ => !b.pcDead (pcOf x)
      | .clearHbm x _ => !b.pcDead (pcOf x)
      | _ => true
    hbm := { b.hbm with ue := b.hbm.ue.filter fun s => !(decide (a / 32 ≤ s) && decide (s ≤ (a + n - 1) / 32)) || b.pcDead (pcOf (32 * s)) } }

/-- Bytes written to HBM, left for the end of the command. -/
def Block.putBytes (b : Block) (a n v : Nat) : Block := b.putOps a n (byteOps a n v)

/-- Clear the words of a RAM from `lo` up to `hi`. -/
def Block.wipeRange (b : Block) (r : Ram) (lo hi : Nat) : Block := { b with memOps := b.memOps ++ [.clearWords r lo hi] }

/-- Clear a RAM. -/
def Block.wipe (b : Block) (r : Ram) : Block := { b with memOps := b.memOps ++ [.clearRam r] }

/-- Base of HBM region `i` in bytes (R284, R286): MODEL 0, RING 1, DELAY 2, SCRATCH 3, CELLAR 4. -/
def Block.regionBase (b : Block) (i : Nat) : Nat := b.fld (U.hs 0) (F.MEM_REGION_BASE i) * 2 ^ 26

/-- Size of HBM region `i` in bytes. -/
def Block.regionSize (b : Block) (i : Nat) : Nat := b.fld (U.hs 0) (F.MEM_REGION_SIZE i) * 2 ^ 26

/-- Model slots of the bank (R124). -/
def Block.bankSlots (b : Block) : Nat := min (b.regionSize 0 / 4096) 262144

/-- Copies of each model slot (R124). -/
def Block.bankCopies (b : Block) : Nat := max 1 (b.regionSize 0 / 2 ^ 30)

/-- HBM address of physical copy `c` of a model slot. -/
def Block.copyAddr (b : Block) (slot c : Nat) : Nat := b.regionBase 0 + (c * b.bankSlots + slot) * 4096

/-- Physical copy that is `n` places older than the newest of a slot (R127, R129). -/
def Block.copyOf (b : Block) (slot n : Nat) : Nat :=
  (Store.get 0 b.bank.newest slot + b.bankCopies - n % b.bankCopies) % b.bankCopies

/-- A model slot is VALID (R124). -/
def Block.slotValid (b : Block) (slot : Nat) : Bool := Store.get 0 b.bank.valid slot == 1

/-- The taps of a slot's newest copy, as a sparse list (R124). -/
def Block.bankTaps (b : Block) (μ : Mem) (slot : Nat) : Store Word :=
  let a := b.copyAddr slot (b.copyOf slot 0)
  if (Store.drop (μ.hbm.filter fun x => a ≤ x.1) (a + 4096) hbmSize).isEmpty then []
  else (List.range 1024).filterMap fun t =>
    let v := μ.rdBytes (a + 4 * t) 4
    if v = 0 then none else some (t, BitVec.ofNat 64 v)

/-- A lane that starts from a bank copy loads it (R121, R123): the newest copy of the slot in LANE_KEY if it is VALID, else
the tap memory stays as it stands. -/
def Block.loadLane (b : Block) (μ : Mem) (x : Nat × LaneH) : Nat × LaneH :=
  if x.2.loadDue then
    let slot := b.fld (U.lane x.1) F.LANE_KEY_SLOT
    (x.1, { x.2 with loadDue := false, next := none, taps := if b.slotValid slot then b.bankTaps μ slot else x.2.taps })
  else x

/-- Every lane that waits loads its taps, and LANE_KEY.FROM_BANK tells whether from the bank. -/
def Block.loadTaps (b : Block) (μ : Mem) : Block :=
  let due := b.lanes.filter fun x => x.2.loadDue
  if due.isEmpty then b
  else
    let c : Block := { b with lanes := (b.lanes.map (b.loadLane μ)).filter fun x => x.2 != LaneH.init }
    c.each due fun c x => c.setFlag (U.lane x.1) F.LANE_KEY_FROM_BANK (b.slotValid (b.fld (U.lane x.1) F.LANE_KEY_SLOT))

/-- The effect of a command: what it does to the block, reading the memories as they stood, and then its memory writes. -/
def State.eff (s : State) (f : Mem → Block → Block) : State :=
  let b := f s.mem s.blk
  let μ := s.mem.ops b.memOps
  { s with blk := { b.loadTaps μ with memOps := [] }, mem := μ }

/-- A command completes with its effect. -/
def State.done (s : State) (f : Mem → Block → Block) : Host.Outcome State Fault Refusal := .next (s.eff f)

/-- A command that touches no memory completes with its effect on the block. -/
def State.did (s : State) (f : Block → Block) : Host.Outcome State Fault Refusal := .next (s.eff fun _ b => f b)

end Sys2Proof.Machine
end

