-- ==== Sys2Proof/Machine/HbmOps.lean ====
section
/-! DEFINITION.
HBM's requests with their arbitration (R287, R288), and its errors and repairs (R289, R292, R294), as other blocks use them. -/
namespace Sys2Proof.Machine

/-! ## Requests (R287, R288) -/

/-- What the block holds of pseudo-channel `i`. -/
def Block.pcH (b : Block) (i : Nat) : PcH := Store.get PcH.init b.hbm.pcs i
/-- Change what the block holds of pseudo-channel `i`. -/
def Block.setPcH (b : Block) (i : Nat) (x : PcH) : Block := { b with hbm := { b.hbm with pcs := Store.set PcH.init b.hbm.pcs i x } }

/-- Requests outstanding in the device. -/
def Block.hbmOut (b : Block) : Nat := (List.range 64).foldl (fun a i => a + b.fld (U.pc i) F.PC_STAT_OUTST) 0

/-- A soft repair holds pseudo-channel `i`, for at most 4,096 Tc (R292). -/
def Block.repairHolds (b : Block) (i : Nat) : Bool :=
  match (b.pcH i).repair with
  | some (_, t) => Nat.blt b.t (t + 4096)
  | none => false

/-- A request to pseudo-channel `i` may issue now: fewer than 64 there and 4,096 in the device, and no repair holds it but from the
repair's own copy. -/
def Block.hbmMay (b : Block) (by_ : HbmBy) (i : Nat) : Bool :=
  decide (b.fld (U.pc i) F.PC_STAT_OUTST < 64) && decide (b.hbmOut < 4096) && (by_ == .repair || !b.repairHolds i)

/-- A request issues at pseudo-channel `i`. -/
def Block.hbmIssue (b : Block) (by_ : HbmBy) (i : Nat) (wr : Bool) : Block :=
  let n := b.fld (U.pc i) F.PC_STAT_OUTST + 1
  let k := hbmKey by_ i wr
  let b := { b with hbm := { b.hbm with outst := Store.set 0 b.hbm.outst k (Store.get 0 b.hbm.outst k + 1) } }
  (b.setFld (U.pc i) F.PC_STAT_OUTST n).setFld (U.pc i) F.PC_STAT_PEAK (max n (b.fld (U.pc i) F.PC_STAT_PEAK))

/-- The oldest waiting request of the highest class among those that may issue: its place in the list. -/
def Block.hbmPick (b : Block) : Option Nat :=
  ((List.range b.hbm.waiting.length).foldl (fun (best : Option (Nat × Nat)) j =>
    match b.hbm.waiting[j]? with
    | some (by_, i, _) =>
      if b.hbmMay by_ i then
        match best with
        | some (c', _) => if hbmCls by_ < c' then some (hbmCls by_, j) else best
        | none => some (hbmCls by_, j)
      else best
    | none => best) none).map (·.2)

/-- Waiting requests issue into free slots, at most `n` of them. -/
def Block.hbmDrain (b : Block) : Nat → Block
  | 0 => b
  | n + 1 =>
    match b.hbmPick with
    | none => b
    | some j =>
      match b.hbm.waiting[j]? with
      | none => b
      | some (by_, i, wr) => (({ b with hbm := { b.hbm with waiting := b.hbm.waiting.eraseIdx j } }).hbmIssue by_ i wr).hbmDrain n

/-- The tally's count of a request (R383): a read or a write, and the requests of classes DELAY, MODEL and CELLAR. -/
def Block.noteReq (b : Block) (by_ : HbmBy) (i : Nat) (wr : Bool) : Block :=
  let blk := 34 + i / 32
  let cls := hbmCls by_
  let b := b.note blk (if wr then 1 else 0) 1
  if cls = 2 then b.note blk 7 1 else if cls = 1 then b.note blk 8 1 else if cls = 4 then b.note blk 9 1 else b

/-- A request is made (R288): it issues, or waits and counts. -/
def Block.hbmAsk (b : Block) (by_ : HbmBy) (i : Nat) (wr : Bool) : Block :=
  if b.hbmMay by_ i then b.hbmIssue by_ i wr
  else
    let b := b.note (34 + i / 32) 2 1
    ({ b with hbm := { b.hbm with waiting := b.hbm.waiting ++ [(by_, i, wr)] } }).incSat (U.pc i) F.PC_STAT_WAITS 1

/-- An issued request ends, and its slot goes to the oldest waiting request of the highest class that it allows to issue (R288). -/
def Block.hbmFree (b : Block) (by_ : HbmBy) (i : Nat) (wr : Bool) : Block :=
  let k := hbmKey by_ i wr
  let b := { b with hbm := { b.hbm with outst := Store.set 0 b.hbm.outst k (Store.get 0 b.hbm.outst k - 1) } }
  (b.setFld (U.pc i) F.PC_STAT_OUTST (b.fld (U.pc i) F.PC_STAT_OUTST - 1)).hbmDrain 1

/-- The requests that wait for pseudo-channel `i` are answered as it stops serving: a read of the cellar window sets WIN_UE (R290, R294). -/
def Block.hbmDrop (b : Block) (i : Nat) : Block :=
  let win := b.hbm.waiting.any fun x => x.2.1 == i && (match x.1 with | .window _ => true | _ => false)
  let b := { b with hbm := { b.hbm with waiting := b.hbm.waiting.filter fun x => x.2.1 ≠ i } }
  b.when win fun b => b.setFlag U.cel F.CEL_STAT_WIN_UE true

/-! ## Errors and repair (R289 to R294) -/

/-- A row receives a soft repair, behind one under way, or is left for want of a resource (R292). -/
def Block.rowRepair (b : Block) (i row : Nat) : Block :=
  let u := U.pc i
  let p := { b.pcH i with rows := (b.pcH i).rows.filter fun r => r.row ≠ row }
  if p.repair.isSome then b.setPcH i { p with want := if p.want.contains row then p.want else p.want ++ [row] }
  else
    let b := b.setPcH i p
    if b.fld u F.PC_REPAIR_SOFT_LEFT = 0 then
      let b := ((b.incSat u F.PC_REPAIR_UNREP 1).corrected u C.hbmNoRepair).irq u 18
      b.recEvent 0x07 u [BitVec.ofNat 64 (1 <<< 16), BitVec.ofNat 64 row] []
    else b.setPcH i { b.pcH i with repair := some (row, b.t) }

/-- The soft repair of pseudo-channel `i` ends: the pseudo-channel is released, a MEM-REPAIR record is written, and the rows that
waited follow (R292). -/
def Block.repairEnd (b : Block) (i : Nat) : Block :=
  let u := U.pc i
  match (b.pcH i).repair with
  | none => b
  | some (row, _) =>
    let next := (b.pcH i).want
    let b := b.setPcH i { b.pcH i with repair := none, want := [] }
    let b := (b.setFld u F.PC_REPAIR_SOFT_LEFT (b.fld u F.PC_REPAIR_SOFT_LEFT - 1)).incSat u F.PC_REPAIR_SOFT_USED 1
    let b := ((b.note (34 + i / 32) 6 1).irq u 17).recEvent 0x07 u [0, BitVec.ofNat 64 row] []
    let b := b.each next fun b r => b.rowRepair i r
    b.hbmDrain b.hbm.waiting.length

/-- The repair under way that reaches its last Tc first, with that instant (R292). -/
def Block.repairDue (b : Block) : Option (Nat × Nat) :=
  b.hbm.pcs.foldl (fun (best : Option (Nat × Nat)) x =>
    match x.2.repair with
    | none => best
    | some (_, t0) =>
      match best with
      | some (t, _) => if t0 + 4096 < t then some (t0 + 4096, x.1) else best
      | none => some (t0 + 4096, x.1)) none

/-- Repairs under way and rows that wait for one. -/
def Block.repairCount (b : Block) : Nat := b.hbm.pcs.foldl (fun a x => a + bit x.2.repair.isSome + x.2.want.length) 0

end Sys2Proof.Machine
end

