-- ==== Sys2Proof/Machine/Passing.lean ====
section
/-! DEFINITION.
The passing of time (R29, R34, R66, R292): edits of groups take effect at the next Tc, a soft repair ends at its last Tc, a gain change
that waits for a cyclic prefix applies at its midpoint, and the counters and the gating of samples follow the clock. -/
namespace Sys2Proof.Machine

/-! ## Edits of groups, and the passing of time (R29, R34) -/

/-- The groups whose aggregate a change of members at `g` may move: `g` itself and every host-defined group. -/
def Block.groupsNear (b : Block) (g : Nat) : List Nat := g :: (b.groups.map (·.1)).filter (· ≠ g)

/-- A group takes its new members, and every group whose aggregate follows shows it (R26, R29). -/
def Block.commitEdit (b : Block) (g : Nat) (l : List Nat) : Block :=
  let b' := { b with groups := Store.set [] b.groups g l }
  b'.each (b.groupsNear g) fun c x => if b.state x = b'.state x ∧ b.pwr x = b'.pwr x then c else c.bumpState x

/-- Every edit of the Tc before takes effect. -/
def Block.commitEdits (b : Block) : Block := ({ b with edits := [] }).each b.edits fun b e => b.commitEdit e.1 e.2

/-- The clock stands at a later elapsed instant, and the tally has counted the cycles between (R383) and the gating of samples has been
noted (R180). The list of what acted in the present Tc ends with the Tc. -/
def Block.setElapsed (b : Block) (t : Nat) : Block :=
  let b := (b.ctrsPass t).gatesPass t
  { b with time := { b.time with
      air := if b.time.running then b.time.air + (t - b.time.elapsed) else b.time.air
      elapsed := t
      coll := [] } }

/-- Time passes up to elapsed `t`, if it lies ahead. -/
def Block.elapseTo (b : Block) (t : Nat) : Block := if b.time.elapsed < t then b.setElapsed t else b

/-- The effects of time itself that come by elapsed `t` take place in their order, at most `n` of them: the ends of soft repairs (R292)
and the gain changes of cyclic prefixes (R66). -/
def Block.duesTo (b : Block) (t : Nat) : Nat → Block
  | 0 => b
  | n + 1 =>
    let rep := match b.repairDue with | some (e, i) => if e ≤ t then some (e, i) else none | none => none
    let gain := match b.gainDue with | some (e, m) => if e ≤ t then some (e, m) else none | none => none
    match rep, gain with
    | none, none => b
    | some (e, i), none => ((b.elapseTo e).repairEnd i).duesTo t n
    | none, some (e, m) => ((b.elapseTo e).gainSettle m).duesTo t n
    | some (e, i), some (e', m) =>
      if e ≤ e' then ((b.elapseTo e).repairEnd i).duesTo t n else ((b.elapseTo e').gainSettle m).duesTo t n

/-- Time passes up to an elapsed instant, never backward. Group edits take effect at the first Tc that passes. -/
def Block.advanceTo (b : Block) (t : Nat) : Block :=
  if t ≤ b.time.elapsed then b
  else
    let b := if b.edits.isEmpty then b else (b.setElapsed (b.time.elapsed + 1)).commitEdits
    (b.duesTo t (b.repairCount + b.gainCount)).elapseTo t

/-- An event due at an elapsed instant happens there: time passes up to it. An instant at or beyond the next tick
boundary is not due before that boundary has been taken. -/
def Block.atElapsed (b : Block) (t : Nat) (f : Block → Block) : Block :=
  if t < b.time.tickEnd ∨ b.time.running = false then f (b.advanceTo t) else b

/-- As `atElapsed`, for an event that still counts at the boundary's own Tc (R181). -/
def Block.atEdge (b : Block) (t : Nat) (f : Block → Block) : Block :=
  if t ≤ b.time.tickEnd ∨ b.time.running = false then f (b.advanceTo t) else b

end Sys2Proof.Machine
end

