-- ==== Sys2Proof/Machine/Access.lean ====
section
/-! DEFINITION.
Who may write and read a unit page (R218, R358, R422), the place of a writer in the collision order (R218, R242, R255) and
the counting of collisions (R20, R253, R255). -/
namespace Sys2Proof.Machine

/-- System privilege of a writer (R159). -/
def whoSys (who : Who) : Bool :=
  match who with
  | .runtime | .warden | .engine _ true | .cue _ _ true => true
  | _ => false

/-- The warden's own accesses. -/
def whoWarden (who : Who) : Bool :=
  match who with | .warden => true | .engine n _ => n == 32 | _ => false

/-- Priority class of a write (R218, R242). -/
def whoClass (who : Who) : Nat :=
  match who with
  | .pf | .vf _ | .mspi => 2
  | .runtime | .warden => 3
  | .engine _ s => if s then 3 else 2
  | .cue c _ _ => c

/-- Origin index of a write (R218, R242): host 16,384, warden 16,385, engines CE_CFG.ORIGIN, cues their ring or engine
index. The system runtime's own writes take the reset origin of engine 0. -/
def Block.whoIdx (b : Block) (who : Who) : Nat :=
  match who with
  | .pf | .vf _ | .mspi => 16384
  | .warden => 16385
  | .runtime => 16386
  | .engine n _ => if n < 32 then b.fld (U.ce n) F.CE_CFG_ORIGIN else 16385
  | .cue _ r _ => r

/-- The host side of the module: the PF, a VF or the management SPI. -/
def whoHost (who : Who) : Bool :=
  match who with | .pf | .vf _ | .mspi => true | _ => false

/-- A writer of the PF and system-privilege group of R369 (the management SPI has the access of the PF, R431). -/
def whoPfSys (who : Who) : Bool :=
  whoSys who || (match who with | .pf | .mspi => true | _ => false)

/-- Range entry `r` of VF `k` (R422). -/
def Block.vfRange (b : Block) (k r : Nat) : Word := Store.get (0 : Word) b.host.vfUid (k * 8 + r)

/-- The module root and UIDs 0x04E0 to 0x04E8, to which no VF and no user code is granted a write (R218, R422). -/
def protectedUid (u : Nat) : Bool := u == 0 || (0x04E0 ≤ u && u ≤ 0x04E8)

/-- A UID set entry grants an access to a UID: RD at bit 32, WR at bit 33, valid at bit 63. An entry that would grant a
write to a protected UID is ignored. -/
def rangeGrants (w : Word) (wr : Bool) (u : Nat) : Bool :=
  let lo := Word.fld w 15 0
  let hi := Word.fld w 31 16
  let bad := Word.fld w 33 33 == 1 && (lo == 0 || (lo ≤ 0x04E8 && 0x04E0 ≤ hi))
  Word.fld w 63 63 == 1 && !bad && lo ≤ u && u ≤ hi && (if wr then Word.fld w 33 33 else Word.fld w 32 32) == 1

/-- VF `k` may read or write a UID (R422). -/
def Block.vfMay (b : Block) (k : Nat) (wr : Bool) (u : Nat) : Bool :=
  (List.range 8).any fun r => rangeGrants (b.vfRange k r) wr u

/-- User code of engine `n` may read or write a UID under CE_UMASK (R218). -/
def Block.maskMay (b : Block) (n : Nat) (wr : Bool) (u : Nat) : Bool :=
  (List.range 16).any fun r =>
    let lo := b.fld (U.ce n) (F.CE_UMASK_LO r)
    let hi := b.fld (U.ce n) (F.CE_UMASK_HI r)
    let w := b.flag (U.ce n) (F.CE_UMASK_WR r)
    let bad := w && (lo == 0 || (lo ≤ 0x04E8 && 0x04E0 ≤ hi))
    b.flag (U.ce n) (F.CE_UMASK_V r) && !bad && lo ≤ u && u ≤ hi && (if wr then w else b.flag (U.ce n) (F.CE_UMASK_RD r))

/-- The device is held in reset by a pin or by a sagged rail, or is not powered (R435, R456). -/
def Block.inReset (b : Block) : Bool := b.host.porLow || b.host.rstLow || b.host.railLow || b.host.aoOff

/-- The PCIe endpoint carries no access: PERST_N is low, or BOOT_MODE 0b10 holds it in reset (R428, R433). -/
def Block.linkDown (b : Block) : Bool := b.host.perstLow || b.host.pcieHeld

/-- A coast is under way (R411, R412, R414). -/
def Block.coasting (b : Block) : Bool := b.wdn.coast.isSome

/-- The life-cycle state is VOID (R394). -/
def Block.voided (b : Block) : Bool := b.otp.lc == 4

/-- A writer reaches a unit page: not in reset, not in VOID (R394), no fatal latch (R358), the link up for a PCIe function
(R428), and a VF within its UID set (R422). -/
def Block.writeOk (b : Block) (who : Who) (u : Nat) : Bool :=
  !b.inReset && !b.voided && !b.flag 0 F.FLT_MODE_FATAL &&
    (match who with | .vf k => !b.linkDown && b.vfMay k true u | .pf => !b.linkDown | _ => true)

/-- A reader reaches a unit page (R422, R428); in VOID only the root and warden pages answer (R394). -/
def Block.readOk (b : Block) (who : Who) (u : Nat) : Bool :=
  !b.inReset && (!b.voided || u == 0 || u == U.warden) && (match who with | .vf k => !b.linkDown && b.vfMay k false u | .pf => !b.linkDown | _ => true)

/-- A coast holds a host write back (R411). -/
def Block.hostHeld (b : Block) (who : Who) : Bool := b.coasting && whoHost who

/-- A BAR0 write that a coast ignores is counted (R411). -/
def Block.ignored (b : Block) (who : Who) : Block :=
  match who with | .pf | .vf _ => b.incSat U.warden F.WDN_ACT_IGNORED 1 | _ => b

/-- The place of a write in the order of R255: ascending class, then descending origin index. A write is ranked before
another exactly when it is applied first. -/
def rankedBefore (c1 i1 c2 i2 : Nat) : Bool := c1 < c2 || (c1 == c2 && i2 < i1)

/-- The bits of the named fields that a mask touches (R253), the mask itself where the register has none. -/
def fieldsOf (u off : Nat) (mask : Word) : Word :=
  match regAt u off with
  | some (d, _) => d.rows.foldl (fun m r => if (fldMask r.hi r.lo &&& mask) != 0 then m ||| fldMask r.hi r.lo else m) mask
  | none => mask

/-- The place of the TDD switch state among the fields of R253: it is no register's, so the OFFSET that its collision shows is a free
value (log entry 35). -/
def tddState : Nat := 0x400

/-- UNIT_COLLIDE counts a write or action that meets another in the register at `off` (R255). -/
def Block.collided (b : Block) (u off : Nat) : Block :=
  let (b, o) := if off < 0x400 then (b, off) else let (b, i) := b.takeFree; (b, Config.collOffset i)
  (((b.note 32 6 1).incWrap u F.UNIT_COLLIDE_COUNT 1).setFld u F.UNIT_COLLIDE_OFFSET o).irq u 4

/-- Another write or action has reached one of the bits in this Tc. -/
def Block.met (b : Block) (u off : Nat) (mask : Word) : Bool :=
  b.time.coll.any fun c => c.cls < 4 && c.uid == u && c.off == off && (c.mask &&& mask) != 0

/-- One write or action has reached bits of registers in this Tc: UNIT_COLLIDE counts it once when another already has (R255),
and the Tc's list keeps it. -/
def Block.hitMasks (b : Block) (who : Who) (u : Nat) (l : List (Nat × Word)) : Block :=
  let l := l.map fun x => (x.1, fieldsOf u x.1 x.2)
  let b := match l.find? fun x => b.met u x.1 x.2 with | some x => b.collided u x.1 | none => b
  { b with time := { b.time with coll := b.time.coll ++
      (l.map fun x => { uid := u, off := x.1, mask := x.2, cls := whoClass who, idx := b.whoIdx who }) } }

/-- `hitMasks` of one register. -/
def Block.hitMask (b : Block) (who : Who) (u off : Nat) (mask : Word) : Block := b.hitMasks who u [(off, mask)]

/-- `hitMask` of one field. -/
def Block.hit (b : Block) (who : Who) (u : Nat) (f : Fld) : Block := b.hitMask who u f.off (fldMask f.hi f.lo)

/-- Bits of a register that a write ranked after this one has already set in this Tc: it prevails over them (R255). -/
def Block.heldBits (b : Block) (who : Who) (u off : Nat) : Word :=
  b.time.coll.foldl (fun m c =>
    if c.uid = u ∧ c.off = off ∧ rankedBefore (whoClass who) (b.whoIdx who) c.cls c.idx then m ||| c.mask else m) 0

/-- A write ranked after this one has already set field `f` in this Tc: what this one would leave there does not last (R255). -/
def Block.outranked (b : Block) (who : Who) (u : Nat) (f : Fld) : Bool :=
  (b.heldBits who u f.off &&& fldMask f.hi f.lo) != 0

/-- A write of one field that a coast takes too (R411), with its effect: it follows when the writer reaches the page. -/
def Block.wrFree (b : Block) (who : Who) (u : Nat) (f : Fld) (eff : Block → Block) : Block :=
  if b.writeOk who u then eff (b.hit who u f) else b

/-- A write of one field with its effect: it follows when the writer reaches the page and no coast holds the write back. -/
def Block.wr (b : Block) (who : Who) (u : Nat) (f : Fld) (eff : Block → Block) : Block :=
  if b.writeOk who u then (if b.hostHeld who then b.ignored who else eff (b.hit who u f)) else b

/-- The part of a register that a half addresses (R11). -/
def halfMask (h : Half) : Word :=
  match h with
  | .both => BitVec.allOnes 64
  | .lo => BitVec.ofNat 64 0xFFFFFFFF
  | .hi => BitVec.ofNat 64 0xFFFFFFFF00000000

/-- The write includes bits [63:32]. -/
def halfHi (h : Half) : Bool := h != .lo

/-- A write includes field `f` whole or in part. -/
def halfHas (h : Half) (f : Fld) : Bool :=
  match h with | .both => true | .lo => f.lo < 32 | .hi => 32 ≤ f.hi

/-- A register's value after a write of a half, before the field rules. -/
def halfMerge (h : Half) (old new : Word) : Word := (old &&& ~~~(halfMask h)) ||| (new &&& halfMask h)

/-- A write of the bits of a mask with its effect. -/
def Block.wrMask (b : Block) (who : Who) (u off : Nat) (mask : Word) (eff : Block → Block) : Block :=
  if b.writeOk who u then (if b.hostHeld who then b.ignored who else eff (b.hitMask who u off mask)) else b

/-- A whole register write with its effect. -/
def Block.wrReg (b : Block) (who : Who) (u off : Nat) (h : Half) (eff : Block → Block) : Block :=
  b.wrMask who u off (halfMask h) eff

/-- The block class of the path that carried a write, for CLAMP, REG_ALIGN and INJ_REFUSED at the module root (R474). -/
def pathClass (who : Who) : Nat :=
  match who with
  | .pf | .vf _ => 11
  | .mspi => 10
  | .engine _ _ | .runtime => 13
  | .cue _ _ _ => 14
  | .warden => 4

/-- A CORRECTED fault at a unit, with the path's class at the module root (R474). -/
def Block.correctedBy (b : Block) (who : Who) (u code : Nat) : Block := b.faultReport u code 1 false false (pathClass who)

end Sys2Proof.Machine
end

