-- ==== Sys2Proof/Machine/Path.lean ====
section
/-! DEFINITION.
The repeating path: passband configuration as the other blocks read it (R55 to R59, R64), the transmit gate and the timed
sequences of the TXCs (R87 to R89), front-end strobes (R99, R100), the cellar's triggers (R300), and the entry into squall
(R187 to R190, R198, R200). -/
namespace Sys2Proof.Machine

/-! ## The transmit gate (R89) -/

/-- THERMAL_OFF is in force (R327). -/
def Block.thermalOff (b : Block) : Bool := b.fld U.kiln F.KILN_STAT_LEVEL == 5

/-- A fault safe state has been set: legacy or FATAL (R355). `root.safeCmd` says that its command has reached the TXCs. -/
def Block.safeState (b : Block) : Bool := b.flag 0 F.FLT_MODE_SAFE || b.flag 0 F.FLT_MODE_FATAL

/-- Cues and writes start nothing on the RFFE buses: a fault safe state overrides them from its M to its release (R254, R356). -/
def Block.rffeStill (b : Block) : Bool := b.safeState || b.root.safeCmd

/-- Every output ramps down in kiln's orderly stop, and none rises (R337). -/
def Block.kilnRamps (b : Block) : Bool := b.fld U.kiln F.KILN_STAT_LEVEL == 4

/-- Condition MOD of R89. -/
def Block.modOk (b : Block) : Bool :=
  !b.flag 0 F.ROOT_SQUALL_ACTIVE && !b.root.muteLow && !b.thermalOff && !b.root.safeCmd

/-- The SY bound to a channel, if SY_EN = 1 (R93). SY and SY_EN stand at the same bits in RXC_CFG and TXC_CFG. -/
def Block.boundSy (b : Block) (u : Nat) : Option Nat :=
  if b.flag u F.TXC_CFG_SY_EN then some (b.fld u F.TXC_CFG_SY) else none

/-- SY `k` is LOCKED and not fenced. -/
def Block.syLocked (b : Block) (k : Nat) : Bool :=
  b.fld (U.sy k) F.SY_STAT_STATE == 1 && b.ownState (U.sy k) != St.fenced && b.ownState (U.sy k) != St.failed

/-- Condition INST of R89: some instance with demand is neither squalled nor silenced by a replay. A TXC that is not ACTIVE has no
demand (R87). -/
def Block.instOk (b : Block) (k : Nat) : Bool :=
  b.ownState (U.txc k) == St.active && (b.txcH k).insts.any fun (m, _) => b.demand m && !b.squalled m && !(b.pbdH m).silentBy

/-- TXC `k` has transmit demand while its unit is ACTIVE and no ramp-down leads it out of service (R87). -/
def Block.txcDemand (b : Block) (k : Nat) : Bool :=
  b.ownState (U.txc k) == St.active && Store.get 0 b.ramping (U.txc k) == 0 && (b.txcH k).insts.any fun (m, _) => b.demand m

/-- TXC_STAT.MUTE_SRC: one bit for each condition that fails (R89). -/
def Block.muteSrc (b : Block) (k : Nat) : Nat :=
  let u := U.txc k
  let syOk := match b.boundSy u with | none => true | some y => b.syLocked y
  bit (!b.flag U.sync F.SYNC_STAT_EVER_LOCKED) + 2 * bit (!b.flag (ccOf u) F.CC_STAT_CLK_LOCK) + 4 * bit (!syOk) +
    8 * bit (!b.modOk) + 16 * bit (!b.instOk k) +
    32 * bit (b.ownState u == St.fenced || b.ownState u == St.failed)

/-- TXC `k` serves TDD passbands (R56). -/
def Block.txcTdd (b : Block) (k : Nat) : Bool := (b.txcH k).insts.any fun (m, _) => b.isTdd m

/-- ORX `o` observes TXC `k` while its dwell table runs. -/
def Block.orxSees (b : Block) (o k : Nat) : Bool :=
  0 < (b.orxH o).ticksLeft && b.fld (U.orx o) F.ORX_STAT_TXC == k

/-- TX_OFF of ORX `o` (R108), whose entry is an interrupt cause (R114). -/
def Block.setTxOff (b : Block) (o : Nat) (v : Bool) : Block :=
  let was := b.flag (U.orx o) F.ORX_STAT_TX_OFF
  let b := b.setFlag (U.orx o) F.ORX_STAT_TX_OFF v
  let h := b.orxH o
  let b := if v then b.setOrxH o { h with steady := false, offFrom := (if was then h.offFrom else some b.t) }
    else match h.offFrom with
      | some t => b.setOrxH o { h with offFrom := none, txOffs := (t, b.t) :: h.txOffs.filter fun x => b.t ≤ x.2 + spanKeep }
      | none => b
  b.when (v && !was) fun b => b.irq (U.orx o) 17

/-- Set a TXC's channel state; the ORXs that observe it follow (R108). -/
def Block.setTxcCh (b : Block) (k st : Nat) : Block :=
  let b := b.setFld (U.txc k) F.TXC_STAT_CH_STATE st
  b.each (List.range 8) fun b o => if b.orxSees o k then b.setTxOff o (st != 3) else b

/-- The steps of an entry to MUTED that a TXC's sequence begins with. -/
def mutingSteps (l : List (Nat × TxStep)) : List (Nat × TxStep) := l.takeWhile fun x => x.2 = TxStep.silent ∨ x.2 = TxStep.swRx

/-- TXC `k` enters MUTED with its ramp beginning at elapsed `r` (R88). A TXC that has not begun to emit has no ramp: its
PA strobes go low by M + 256 and its switch strobes 256 Tc later. An entry under way goes on. -/
def Block.txcMute (b : Block) (k r : Nat) : Block :=
  let h := b.txcH k
  let seq :=
    if (mutingSteps h.seq).isEmpty = false then mutingSteps h.seq
    else if h.out then [(r + 256, TxStep.silent), (r + 512, TxStep.swRx)]
    else if h.paHigh then [(b.t + 256, TxStep.silent), (b.t + 512, TxStep.swRx)]
    else [(b.t + 512, TxStep.swRx)]
  (b.setTxcCh k 4).setTxcH k { h with seq := seq }

/-- TXC `k` returns from MUTED to TX from elapsed `u` (R88). DEDUCED: a return that begins before the entry to MUTED has ended
follows its last step (log entry 99). -/
def Block.txcUnmute (b : Block) (k u : Nat) : Block :=
  let old := mutingSteps (b.txcH k).seq
  let u := old.foldl (fun a x => max a x.1) u
  b.setTxcH k { b.txcH k with
    seq := old ++ [(u, .swTx), (u + 512, .paHigh), (u + 768, .rampUp), (u + 1024, .full)] }

/-- The transmit demand of an FDD TXC begins now: the receive-to-transmit sequence of R70, whose T is 4,096 Tc on (R99). -/
def Block.txcStart (b : Block) (k : Nat) : Block :=
  b.setTxcH k { b.txcH k with
    seq := [(b.t, .swTx), (b.t + 1792, .pass), (b.t + 3584, .paHigh), (b.t + 3840, .full)] }

/-- TXC `k` ramps down to STANDBY from now (R70, R87). -/
def Block.txcStop (b : Block) (k : Nat) : Block :=
  let h := b.txcH k
  if h.out then b.setTxcH k { h with seq := [(b.t + 256, .standby), (b.t + 512, .swRx)] }
  else (b.setTxcCh k 1).setTxcH k { h with seq := [], paHigh := false, swTx := false, waitFrom := none }

/-- TXC `k` in TX or MUTED leaves service: 256 Tc of ramp-down to STANDBY (R87). A ramp-down under way goes on, and so do the steps
of an entry to MUTED that come first. -/
def Block.txcLeave (b : Block) (k : Nat) : Block :=
  let h := b.txcH k
  if h.seq.any fun x => x.2 = .standby then b
  else b.setTxcH k { h with seq := (mutingSteps h.seq).filter (fun x => x.1 < b.t + 256) ++ [(b.t + 256, .standby), (b.t + 512, .swRx)] }

/-- A direction sequence brings the transmit side of TXC `k` up within 2,304 Tc: its T (R70). -/
def Block.dirTo (b : Block) (k : Nat) : Option Nat :=
  ((b.txcH k).insts.flatMap fun x =>
    ((b.pbH (pbOf x.1)).steps.filter fun y => y.side == txSide x.1 && y.step == .full).map fun y => b.elapsedOfAir y.due).find?
    fun t => decide (t ≤ b.t + 2304)

/-- T at which the transmit demand of TXC `k` needs its gate open (R96): that of the start or direction sequence under way,
else now. -/
def Block.demandAt (b : Block) (k : Nat) : Nat :=
  match (b.txcH k).seq.find? (fun x => x.2 == .full) with
  | some x => x.1 + 256
  | none => (b.dirTo k).getD b.t

/-- TXC `k` has demand while the synthesiser bound to it calibrates or settles. -/
def Block.syPending (b : Block) (k : Nat) : Bool :=
  match b.boundSy (U.txc k) with
  | some y => b.txcDemand k && (b.fld (U.sy y) F.SY_STAT_STATE == 2 || b.fld (U.sy y) F.SY_STAT_STATE == 3)
  | none => false

/-- A TXC waits for the lock of its synthesiser from the T at which demand needs its gate open (R96); `need` is that T where
such a demand arises now. The wait ends with the hop, the demand or the binding. -/
def Block.syWait (b : Block) (k : Nat) (need : Option Nat) : Block :=
  let u := U.txc k
  match b.flag u F.TXC_STAT_SY_WAIT, b.syPending k, need with
  | true, false, _ => (b.setFlag u F.TXC_STAT_SY_WAIT false).setTxcH k { b.txcH k with waitFrom := none, waitCtx := none }
  | false, false, _ => b.setTxcH k { b.txcH k with waitCtx := none }
  | false, true, some t =>
    ((b.setFlag u F.TXC_STAT_SY_WAIT true).irq u 19).setTxcH k { b.txcH k with waitFrom := some t }
  | _, _, _ => b

/-- TXC `k` goes from STANDBY to MUTED, since its gate is shut as its demand needs it open (R88, R96). -/
def Block.txcHeldOff (b : Block) (k r : Nat) : Block :=
  (b.txcMute k r).syWait k (some (b.demandAt k))

/-- Bring TXC `k` in line with its gate and its demand (R87 to R89); `r` is the elapsed ramp start of a muting. A demand that
no direction sequence brings, as at an ENABLE, starts the TXC at once. A return from MUTED within a direction sequence
begins 1,024 Tc before its T at the earliest. -/
def Block.txcRefresh (b : Block) (r k : Nat) : Block :=
  let u := U.txc k
  let src := b.muteSrc k
  let old := b.fld u F.TXC_STAT_MUTE_SRC
  let was := b.flag u F.TXC_STAT_GATE
  let b := b.setFld u F.TXC_STAT_MUTE_SRC src
  let b := b.when (was != (src == 0)) fun b => (b.setFlag u F.TXC_STAT_GATE (src == 0)).irq u 17
  let b := if src = 0 then b else b.setTxcH k { b.txcH k with gateShut := true }
  let h := b.txcH k
  let dem := b.txcDemand k
  let rising := h.seq.any fun x => x.2 = .full
  let falling := h.seq.any fun x => x.2 = .standby
  let b := match b.fld u F.TXC_STAT_CH_STATE with
    | 3 =>
      if dem = false then (if b.txcTdd k ∨ falling then b else b.txcStop k)
      else if src ≠ 0 then b.txcMute k r else b
    | 4 =>
      if dem = false then
        if falling then b
        else if rising ∧ (mutingSteps h.seq).isEmpty then b.txcStop k
        else (b.setTxcCh k 1).setTxcH k { h with seq := h.seq.filter (fun x => x.2 = TxStep.silent ∨ x.2 = TxStep.swRx) }
      else if src = 0 then (if rising ∨ b.kilnRamps then b else b.txcUnmute k (max b.t ((b.dirTo k).getD 0 - 1024)))
      -- a TXC that the synthesiser alone now holds is unmuted but for its lock
      else (if rising then b.txcMute k r else b).syWait k (if src = 4 ∧ old ≠ 4 ∧ old ≠ 0 then some b.t else none)
    | 1 =>
      if dem = false then (if rising then b.txcStop k else b)
      else if b.kilnRamps then b
      else if h.seq.isEmpty ∧ b.dirTo k = none then b.txcStart k
      else if src ≠ 0 ∧ (h.seq.all (fun x => x.2 ≠ TxStep.pass)) then b.txcHeldOff k r
      else b
    | _ => b
  b.syWait k none

/-- Bring every TXC in line with its gate and demand; a muting's ramp begins at elapsed `r`. -/
def Block.txcRefreshAt (b : Block) (r : Nat) : Block := b.each (List.range 32) fun b k => b.txcRefresh r k

/-- As `txcRefreshAt`, with the ramp start that R88 leaves open: at most 512 Tc from now. -/
def Block.txcRefreshAll (b : Block) : Block :=
  let (b, i) := b.takeFree
  b.txcRefreshAt (b.t + Config.rampDelay i % 513)

/-- A scheduled step of a TXC takes place (R70, R87, R88). -/
def Block.txcStepDo (b : Block) (k : Nat) (s : TxStep) : Block :=
  let h := b.txcH k
  match s with
  | .silent => b.setTxcH k { h with out := false, paHigh := false }
  | .swRx =>
    let b := b.setTxcH k { h with swTx := false }
    if b.fld (U.txc k) F.TXC_STAT_CH_STATE = 1 then b.txcRefresh b.t k else b
  | .swTx => b.setTxcH k { h with swTx := true }
  | .pass => if b.muteSrc k ≠ 0 then b.txcHeldOff k b.t else b
  | .paHigh => b.setTxcH k { h with paHigh := true }
  | .rampUp => b.setTxcH k { h with out := true, emitted := true }
  | .full => (b.setTxcCh k 3).setTxcH k { h with out := true, emitted := true }
  | .standby => (b.setTxcCh k 1).setTxcH k { h with out := false, paHigh := false }

/-- The first scheduled step of TXC `k` is reached: time passes to it and it takes place. -/
def Block.txcSeqStep (b : Block) (k : Nat) : Block :=
  match (b.txcH k).seq with
  | [] => b
  | (t, s) :: rest =>
    b.atElapsed t fun b => (b.setTxcH k { b.txcH k with seq := rest }).txcStepDo k s

/-! ## Strobes (R99, R100) -/

/-- The present position code of an ORX drives strobe bit `j` (R107). -/
def Block.orxDrives (b : Block) (strobe : Nat) : Bool :=
  (List.range 8).any fun o => (List.range 3).any fun j =>
    b.flag (U.orx o) (F.ORX_SW_V j) && b.fld (U.orx o) (F.ORX_SW_STB j) == strobe &&
      (((b.orxH o).pos >>> j) % 2 == 1)

/-- The level of strobe `i` of CC `k` (R99, R100). -/
def Block.strobe (b : Block) (k i : Nat) : Bool :=
  let u := U.cc k
  if b.root.strobesLow then false
  else
    match b.fld u (F.CC_STB_CFG_FUNC i) with
    | 1 => (b.fld u F.CC_STB_SET_SET >>> i) % 2 == 1
    | 2 => (b.txcH (b.fld u (F.CC_STB_CFG_TXC i))).paHigh
    | 3 => (b.txcH (b.fld u (F.CC_STB_CFG_TXC i))).swTx
    | 4 => b.orxDrives (32 * k + i)
    | 5 => ((b.ccH k).cueHigh >>> i) % 2 == 1
    | _ => false

/-- A condition that holds the strobes low: module squall, MUTE_N, THERMAL_OFF or a safe state (R100). -/
def Block.strobeHold (b : Block) : Bool := !b.modOk

/-- The strobes are driven low; CUE strobes stay low until the next strobe cue (R100). -/
def Block.strobesDown (b : Block) : Block :=
  let b := { b with root := { b.root with strobesLow := true } }
  b.each (List.range 4) fun b k => b.setCcH k { b.ccH k with cueHigh := 0 }

/-- The strobes return to their levels once no condition holds them low, and no step that would lower them is left (R100). -/
def Block.strobesUp (b : Block) : Block :=
  if b.strobeHold then b else { b with root := { b.root with strobesLow := false, seq := [] } }

/-- A step of the module's squall sequence in its place by its instant. -/
def insertSq (t : Nat) (s : SqStep) : List (Nat × SqStep) → List (Nat × SqStep)
  | [] => [(t, s)]
  | x :: l => if t < x.1 then (t, s) :: x :: l else x :: insertSq t s l

/-- THERMAL_OFF is entered: every PA strobe goes low now, and every other strobe 256 Tc later (R100). -/
def Block.strobesOff (b : Block) : Block :=
  let b := b.each (List.range 32) fun b k => b.setTxcH k { b.txcH k with paHigh := false }
  { b with root := { b.root with seq := insertSq (b.t + 256) .switches b.root.seq } }

/-! ## Cellar triggers (R299, R300) -/

/-- A trigger of the cellar: `cause` 0 FAULT, 1 SQUALL, 2 CUE, 3 HOST. -/
def Block.celTrigger (b : Block) (cause uid : Nat) : Block :=
  let u := U.cel
  let en := match cause with
    | 0 => b.flag u F.CEL_CFG_T_FAULT | 1 => b.flag u F.CEL_CFG_T_SQUALL
    | 2 => b.flag u F.CEL_CFG_T_CUE | _ => b.flag u F.CEL_CFG_T_HOST
  let st := b.fld u F.CEL_STAT_STATE
  let fresh := st == 1 || (st == 4 && b.cel.before == 1)
  let post := st == 2 || (st == 4 && b.cel.before == 2) || st == 3
  if en = false then b
  else if fresh then
    let pre := b.fld u F.CEL_CFG_PRE
    let nrec := b.fld u F.CEL_GEOM_RECORDS
    let left := ((16 - pre) * nrec + 15) / 16
    let b := (((b.setFld u F.CEL_TRIG_CAUSE (1 <<< cause)).setFld u F.CEL_TRIG_UID uid).setReg u R.CEL_TRIG_STAMP b.now).setFld
      u F.CEL_POST_LEFT left
    let b := { b with cel := { b.cel with trigAt := some b.t } }
    let b := if st = 4 then { b with cel := { b.cel with before := 2 } }
      else if left = 0 then { b.setFld u F.CEL_STAT_STATE 3 with cel := { b.cel with ivFrom := none } }
      else b.setFld u F.CEL_STAT_STATE 2
    (b.irq u 16).when (st != 4 && left == 0) fun b => b.irq u 17
  else if post then
    if b.cel.trigAt = some b.t then
      (b.setFld u F.CEL_TRIG_CAUSE (b.fld u F.CEL_TRIG_CAUSE ||| (1 <<< cause))).setFld u F.CEL_TRIG_UID
        (min uid (b.fld u F.CEL_TRIG_UID))
    else b.incSat u F.CEL_TRIG_IGNORED 1
  else b

/-! ## Heads and their flows (R271, R273, R279) -/

def Block.hdH (b : Block) (h : Nat) : HdH := Store.get HdH.init b.hds h
def Block.setHdH (b : Block) (h : Nat) (x : HdH) : Block := { b with hds := Store.set HdH.init b.hds h x }
def Block.fhH (b : Block) (q : Nat) : FhH := Store.get FhH.init b.fhs q
def Block.setFhH (b : Block) (q : Nat) (x : FhH) : Block := { b with fhs := Store.set FhH.init b.fhs q x }

/-- Port `q` is UP and thus usable (R267). -/
def Block.fhUp (b : Block) (q : Nat) : Bool := b.fld (U.fh q) F.FH_STAT_LINK == 2

/-- The head that a message goes to. -/
def HdMsg.head (m : HdMsg) : Nat :=
  match m with
  | .admitHead h _ _ | .beat h _ | .flow h _ _ _ _ _ _ | .dir h _ _ _ | .gpio h _ _ | .mute h _ | .iq h _ _ _ => h

/-- A message to a head (R271), a frame sent on its port. -/
def Block.sendHd (b : Block) (m : HdMsg) : Block :=
  let b := { b with hdOut := b.hdOut ++ [m] }
  match (b.hdH m.head).port with
  | some q => b.incWrap (U.fh q) F.FH_TX_CNT_FRAMES 1
  | none => b

/-- A head is admitted: its page is READY, ACTIVE, LULL or TEST. -/
def Block.admitted (b : Block) (h : Nat) : Bool :=
  let st := b.ownState (U.hd h)
  st == St.ready || st == St.active || st == St.lull || st == St.test

/-- Every admitted head. -/
def Block.admittedHeads (b : Block) : List Nat := (b.hds.map (·.1)).filter fun h => h < 512 && b.admitted h

/-- MUTE is sent to every admitted head (R271, R355). -/
def Block.muteHeads (b : Block) : Block := b.each b.admittedHeads fun b h => b.sendHd (.mute h none)

/-- Budget units of a stream: w × b (R273). -/
def flowUnits (rate : Nat) (fmt16 : Bool) : Nat := 2 ^ min rate 4 * (if fmt16 then 4 else 2)

/-- Duration in Tc of an IQ frame (R269). -/
def frameDur (rate : Nat) (fmt16 : Bool) : Nat := sampleTc rate * (if fmt16 then 512 else 1024)

/-- The format chosen for a head's streams: 16-bit only where the head supports no other (R282). -/
def Block.fmt16Of (b : Block) (h : Nat) : Bool := b.fld (U.hd h) F.HD_CAP_FMT == 2

/-- PBD index of flow `i` of a head. -/
def Block.flowPbd (b : Block) (h i : Nat) : Nat := b.fld (U.hd h) (F.HD_FLOW_PBD i) - 0x0100

/-- Flow indexes of a head that are valid. -/
def Block.flowsOf (b : Block) (h : Nat) : List Nat :=
  (List.range 32).filter fun i => b.flag (U.hd h) (F.HD_FLOW_V i)

/-- The port on which a head's streams are budgeted: its primary port, else the port its binding expects (R273, R274). -/
def Block.hdPort (b : Block) (h : Nat) : Option Nat :=
  match (b.hdH h).port with
  | some q => some q
  | none => if b.flag (U.hd h) F.HD_BIND_V && !b.flag (U.hd h) F.HD_BIND_ANY_PORT then some (b.fld (U.hd h) F.HD_BIND_PORT) else none

/-- Heads that hold a flow. -/
def Block.flowHeads (b : Block) : List Nat :=
  (b.hds.filter fun x => x.1 < 512 && x.2.flowN != 0).map (·.1)

/-- The count of a head's valid flows is shown. -/
def Block.showFlows (b : Block) (h : Nat) : Block :=
  let n := (b.flowsOf h).length
  (b.setFld (U.hd h) F.HD_STAT_FLOWS n).setHdH h { b.hdH h with flowN := n }

/-- The flows on a port, as head and index. -/
def Block.portFlows (b : Block) (q : Nat) : List (Nat × Nat) :=
  (b.flowHeads.filter fun h => b.hdPort h == some q).flatMap fun h => (b.flowsOf h).map fun i => (h, i)

/-- Units reserved on a port in one direction (R273). -/
def Block.fhUnits (b : Block) (q : Nat) (ul : Bool) : Nat :=
  (b.portFlows q).foldl (fun a x =>
    let m := b.flowPbd x.1 x.2
    if isUl m = ul then a + flowUnits (b.rateOf m) (b.flag (U.hd x.1) (F.HD_FLOW_FMT x.2)) else a) 0

/-- FH_BUDGET of every port follows the flows (R273). -/
def Block.showBudget (b : Block) : Block :=
  b.each (List.range 8) fun b q =>
    let b := (b.setFld (U.fh q) F.FH_BUDGET_EGRESS (b.fhUnits q false)).setFld (U.fh q) F.FH_BUDGET_INGRESS (b.fhUnits q true)
    b.setFld (U.fh q) F.FH_BUDGET_STREAMS (b.portFlows q).length

/-- Head ports of PBD `m`: service transmit for a DL, service receive for a UL. -/
def Block.headSlots (b : Block) (m : Nat) : List (Nat × Nat) :=
  (if isUl m then b.rxSlots m else b.txSlots m).filterMap fun x => match x.2 with | .head h p => some (h, p) | _ => none

/-- The fronthaul budget of PBD `m` beside what is reserved: 395 units in each direction of a port, 32 flows at a head
(R273). -/
def Block.fhOk (b : Block) (m : Nat) : Bool :=
  let hp := b.headSlots m
  (hp.all fun x => b.fld (U.hd x.1) F.HD_STAT_FLOWS + (hp.filter fun y => y.1 == x.1).length ≤ 32) &&
    (List.range 8).all fun q =>
      let mine := hp.filter fun x => b.hdPort x.1 == some q
      mine.isEmpty ||
        mine.foldl (fun a x => a + flowUnits (b.rateOf m) (b.fmt16Of x.1)) (b.fhUnits q (isUl m)) ≤ 395

/-- The FLOW message of flow `i` of a head, where the head is admitted (R271, R279). -/
def Block.sendFlow (b : Block) (h i : Nat) (valid : Bool) : Block :=
  if b.admitted h then
    let m := b.flowPbd h i
    b.sendHd (.flow h i (b.fld (U.hd h) (F.HD_FLOW_PORT i)) (isUl m) (b.flag (U.hd h) (F.HD_FLOW_FMT i)) (b.rateOf m) valid)
  else b

/-- The uplink frames of a flow are needed from the first frame boundary at or after an air count on. -/
def Block.flowFrom (b : Block) (h i air : Nat) : Block :=
  let d := frameDur (b.rateOf (b.flowPbd h i)) (b.flag (U.hd h) (F.HD_FLOW_FMT i))
  let x := b.hdH h
  b.setHdH h { x with flows := Store.set UlFlow.init x.flows i { next := (air + d - 1) / d * d, have_ := [] } }

/-- A stream of PBD `m` at a head port takes the head's lowest free flow (R279). -/
def Block.flowAdd (b : Block) (m h p : Nat) : Block :=
  match (List.range 32).find? fun i => !b.flag (U.hd h) (F.HD_FLOW_V i) with
  | none => b
  | some i =>
    let u := U.hd h
    let b := ((b.setFld u (F.HD_FLOW_PBD i) (U.pbd m)).setFld u (F.HD_FLOW_PORT i) p).setFlag u (F.HD_FLOW_FMT i) (b.fmt16Of h)
    let b := (b.setFlag u (F.HD_FLOW_V i) true).showFlows h
    (b.flowFrom h i b.time.air).sendFlow h i true

/-- The flows of PBD `m` are released, and FLOW is sent with V = 0 (R279). -/
def Block.flowsDrop (b : Block) (m : Nat) : Block :=
  let b := b.each b.flowHeads fun b h =>
    b.each (List.range 32) fun b i =>
      if b.flag (U.hd h) (F.HD_FLOW_V i) && b.fld (U.hd h) (F.HD_FLOW_PBD i) == U.pbd m then
        let b := b.sendFlow h i false
        let b := b.setFlag (U.hd h) (F.HD_FLOW_V i) false
        (b.setHdH h { b.hdH h with flows := Store.del (b.hdH h).flows i }).showFlows h
      else b
  b.showBudget

/-- The squall of PBD `m` has reached a head: MUTE is sent where every downlink flow of the head, or of one of its ports, is
squalled (R271). -/
def Block.muteFlows (b : Block) (m : Nat) : Block :=
  if isUl m then b
  else
    let hp := (b.headSlots m).filter fun x => b.admitted x.1
    b.each hp fun b x =>
      let dl := (b.flowsOf x.1).filter fun i => !isUl (b.flowPbd x.1 i)
      let at_ := dl.filter fun i => b.fld (U.hd x.1) (F.HD_FLOW_PORT i) == x.2
      if dl.isEmpty then b
      else if dl.all fun i => b.squalled (b.flowPbd x.1 i) then b.sendHd (.mute x.1 none)
      else if !at_.isEmpty && at_.all fun i => b.squalled (b.flowPbd x.1 i) then b.sendHd (.mute x.1 (some x.2))
      else b

/-- The latencies of realigns whose T0 + 256 has come take effect (R280). -/
def Block.alignApply (b : Block) : Block :=
  b.each (b.hds.map (·.1)) fun b h =>
    let due := fun (a : HdAlign) => match a.t0 with | some t => decide (t + 256 ≤ b.t) | none => false
    let l := (b.hdH h).align
    match (l.filter due).getLast? with
    | some a =>
      ((b.setFld (U.hd h) F.HD_LAT_D_DL a.dl).setFld (U.hd h) F.HD_LAT_D_UL a.ul).setHdH h
        { b.hdH h with align := l.filter fun a => !due a }
    | none => b

/-! ## The end of a replay (R302) -/

/-- A replay that waits or runs ends: at COUNT, at RPL_STOP, or when its PBD leaves TEST. -/
def Block.rplEnd (b : Block) : Block :=
  let u := U.cel
  let st := b.fld u F.CEL_RPL_STAT_STATE
  if st = 1 ∨ st = 2 then
    let m := b.fld u F.CEL_RPL_CFG_PBD
    let b := (b.setFld u F.CEL_RPL_STAT_STATE 3).irq u 19
    (b.setPbdH m { b.pbdH m with silentBy := false }).txcRefreshAll
  else b

/-- PBD `m` leaves TEST: its replay ends. -/
def Block.rplLeave (b : Block) (m : Nat) : Block := if b.fld U.cel F.CEL_RPL_CFG_PBD = m then b.rplEnd else b

/-! ## Squall (R187 to R190) -/

/-- The hold causes of R187: HOLDOVER 2, MODULE 5, HOST 6, CUE 7. -/
def holdCause (c : Nat) : Bool := c == 2 || c == 5 || c == 6 || c == 7

/-- The mask of hold causes in PROT_STAT.CAUSE. -/
def holdMask : Nat := 0b11100100

/-- Round an air count up to a tick boundary. -/
def tickUp (n : Nat) : Nat := (n + (tickTc - 1)) / tickTc * tickTc

/-- PROT_DUE of PBD `m`: all ones while a hold cause is set or the PBD is not squalled, else
max(T_hold, PROT_SQ_STAMP + 2^min(FAILS, 6) s) rounded up to a tick boundary (R198). -/
def Block.setDue (b : Block) (m : Nat) : Block :=
  let u := U.pbd m
  let cause := b.fld u F.PROT_STAT_CAUSE
  if b.squalled m = false ∨ cause &&& holdMask ≠ 0 then b.setReg u R.PROT_DUE (BitVec.allOnes 64)
  else
    let back := tcOf (b.reg u R.PROT_SQ_STAMP) + 2 ^ min (b.fld u F.PROT_STAT_FAILS) 6 * secTc
    b.setReg u R.PROT_DUE (stampOf (tickUp (max (b.pbdH m).tHold back)))

/-- The SQUALL record (R373). -/
def Block.squallRecord (b : Block) (uid code : Nat) (module : Bool) : Block :=
  b.recEvent 0x02 uid [BitVec.ofNat 64 ((code <<< 16) + (bit module <<< 24)), b.now] [1]

/-- First-light phase of PBD `m`, with its interrupt cause (R204, R208). -/
def Block.setFlPhase (b : Block) (m p : Nat) : Block :=
  let u := U.pbd m
  if b.fld u F.PROT_FL_STAT_PHASE = p then b else (b.setFld u F.PROT_FL_STAT_PHASE p).irq u 30

/-- A squall interrupts first light (R204): MEASURE and TRAIN fall back to IDLE. -/
def Block.flSquall (b : Block) (m : Nat) : Block :=
  let u := U.pbd m
  match b.fld u F.PROT_FL_STAT_PHASE with
  | 1 => b.setFlPhase m 0
  | 2 => ((b.setFlag u F.PROT_FL_STAT_MEASURED false).setPbdH m
      { b.pbdH m with fl := { (b.pbdH m).fl with kept := true } }).setFlPhase m 0
  | _ => b

/-- A loop slot of a PBD. -/
def Block.slotKey (m l : Nat) : Nat := m * 8 + l
def Block.slotH (b : Block) (m l : Nat) : SlotH := Store.get SlotH.init b.loop.slots (Block.slotKey m l)
def Block.setSlotH (b : Block) (m l : Nat) (h : SlotH) : Block :=
  { b with loop := { b.loop with slots := Store.set SlotH.init b.loop.slots (Block.slotKey m l) h } }

/-- A restart of this Tc at PBD `m` is undone: the squall of the same Tc prevails over it (R189). The attempt itself is spent. -/
def Block.restartUndo (b : Block) (m : Nat) : Block :=
  match b.loop.restarted.find? fun x => x.pbd == m && x.at_ == b.t with
  | none => b
  | some x =>
    let b := { b with loop := { b.loop with restarted := b.loop.restarted.filter fun y => y.pbd != m } }
    -- of the interrupt causes only the restart's own is taken back
    let b := b.each x.regs fun b r => b.setReg (U.pbd m) r.1
      (if r.1 = R.UNIT_IRQ_STAT then b.reg (U.pbd m) r.1 &&& (r.2 ||| ~~~(BitVec.ofNat 64 (1 <<< 29))) else r.2)
    let b := b.each x.running fun b r => b.setSlotH m r.1 { b.slotH m r.1 with running := r.2 }
    b.setPbdH m { b.pbdH m with
      sqSeq := x.was.sqSeq, probEnd := x.was.probEnd, gPrev := x.was.gPrev, gainPending := x.was.gainPending
      winPending := x.was.winPending, winNext := x.was.winNext, rampStart := x.was.rampStart, rampFine := x.was.rampFine, osc := x.was.osc }

/-- A squall cause is set at PBD `m` (R187 to R189, R200): the ramp begins at elapsed `r`. The fence at the eighth failed
attempt is the caller's (Faults). -/
def Block.squallCore (b : Block) (m cause r : Nat) : Block :=
  let u := U.pbd m
  let b := b.restartUndo m
  let entered := !b.squalled m
  let prob := b.flag u F.PROT_STAT_PROBATION
  let b := b.setFld u F.PROT_STAT_CAUSE (b.fld u F.PROT_STAT_CAUSE ||| (1 <<< cause))
  -- the squall prevails over a restart of this Tc, and one by the host or a cue over an UNSQUALL (R189, R254)
  let b := b.override u R.PROT_CTRL (fldMask F.PROT_CTRL_RESTART.hi F.PROT_CTRL_RESTART.lo |||
    (if 6 ≤ cause then fldMask F.PROT_CTRL_UNSQUALL.hi F.PROT_CTRL_UNSQUALL.lo else 0))
  -- the cause ends a probation: an automatic one as a failed attempt, a hold one without changing FAILS
  let b := b.when prob fun b =>
    (b.setFlag u F.PROT_STAT_PROBATION false).when (!holdCause cause) fun b =>
      b.setFld u F.PROT_STAT_FAILS (min 8 (b.fld u F.PROT_STAT_FAILS + 1))
  let b := b.when prob fun b => b.setPbdH m { b.pbdH m with probEnd := none }
  let b := b.when entered fun b =>
    let b := ((b.setFlag u F.PROT_STAT_SQUALL true).setReg u R.PROT_SQ_STAMP b.now).incWrap u F.PROT_STAT_SQUALLS 1
    let b := b.setPbdH m { b.pbdH m with
      sqSeq := [(r + 256, .silent), (r + 512, .switches)], tHold := 0, restartReq := false }
    (((b.irq u 28).flSquall m)).muteFlows m
  let b := b.setDue m
  let b := (b.corrected u (C.squall cause)).squallRecord u (C.squall cause) false
  let b := b.when entered fun b => b.celTrigger 1 u
  b.txcRefreshAt r

/-- A hold cause clears at PBD `m`: T_hold is the Tc at which the last one cleared (R187, R198). -/
def Block.clearHold (b : Block) (m cause : Nat) : Block :=
  let u := U.pbd m
  let c := b.fld u F.PROT_STAT_CAUSE
  if (c >>> cause) % 2 = 0 then b
  else
    let c' := c - (1 <<< cause)
    let b := b.setFld u F.PROT_STAT_CAUSE c'
    let b := if c' &&& holdMask = 0 then b.setPbdH m { b.pbdH m with tHold := b.time.air } else b
    b.setDue m

/-- Any module cause is set (R190). -/
def Block.moduleCauses (b : Block) : Nat :=
  b.fld 0 F.ROOT_SQUALL_MUTE_N + b.fld 0 F.ROOT_SQUALL_HOST + b.fld 0 F.ROOT_SQUALL_CUE + b.fld 0 F.ROOT_SQUALL_KILN

/-- The root's state in service: LULL while a module squall or THERMAL_OFF is in force, else ACTIVE (R32). -/
def Block.rootState (b : Block) : Block :=
  if b.ownState 0 = St.active ∨ b.ownState 0 = St.lull then
    b.setState 0 (if b.flag 0 F.ROOT_SQUALL_ACTIVE ∨ b.thermalOff then St.lull else St.active)
  else b

/-- The last module cause has cleared: the module squall ends (R190). -/
def Block.moduleEnd (b : Block) : Block :=
  if b.moduleCauses = 0 ∧ b.flag 0 F.ROOT_SQUALL_ACTIVE then
    let b := (b.setFlag 0 F.ROOT_SQUALL_ACTIVE false).irq 0 17
    let b := b.each (List.range 128) fun b m => b.clearHold m 5
    ((b.strobesUp).rootState).txcRefreshAll
  else b

/-- Reserve the channeliser capacity of PBD `m` (R59) and its flows at heads (R273, R279). -/
def Block.reserve (b : Block) (m : Nat) : Block :=
  if (b.pbdH m).capacity then b
  else
    let w := capWeight (b.rateOf m)
    let b := (b.setPbdH m { b.pbdH m with capacity := true }).gateBegin m
    let b := b.each (b.rxSlots m) fun b (s, p) => match p with
      | .rxc k => (b.setRxcH k { b.rxcH k with insts := (b.rxcH k).insts ++ [(m, s)] }).incSat (U.rxc k) F.RXC_STAT_WEIGHT w
      | _ => b
    let b := (b.each (b.headSlots m) fun b x => b.flowAdd m x.1 x.2).showBudget
    b.each (b.txSlots m) fun b (s, p) => match p with
      | .txc k => (b.setTxcH k { b.txcH k with insts := (b.txcH k).insts ++ [(m, s)] }).incSat (U.txc k) F.TXC_STAT_WEIGHT w
      | _ => b

/-- Release the channeliser capacity of PBD `m` (R59) and its flows (R273, R279). -/
def Block.release (b : Block) (m : Nat) : Block :=
  if (b.pbdH m).capacity then
    let w := capWeight (b.rateOf m)
    let b := (b.setPbdH m { b.pbdH m with capacity := false }).flowsDrop m
    let b := b.each (List.range 32) fun b k =>
      let mine := (b.rxcH k).insts.filter fun x => x.1 = m
      if mine.isEmpty then b
      else (b.setRxcH k { b.rxcH k with insts := (b.rxcH k).insts.filter fun x => x.1 ≠ m }).setFld (U.rxc k) F.RXC_STAT_WEIGHT
        (b.fld (U.rxc k) F.RXC_STAT_WEIGHT - w * mine.length)
    b.each (List.range 32) fun b k =>
      let mine := (b.txcH k).insts.filter fun x => x.1 = m
      if mine.isEmpty then b
      else (b.setTxcH k { b.txcH k with insts := (b.txcH k).insts.filter fun x => x.1 ≠ m }).setFld (U.txc k) F.TXC_STAT_WEIGHT
        (b.fld (U.txc k) F.TXC_STAT_WEIGHT - w * mine.length)
  else b

end Sys2Proof.Machine
end

