-- ==== Sys2Proof/Machine/Engines.lean ====
section
/-! DEFINITION.
The Zhovo engines as the other blocks see them: engine 0 to 31 is CE n, 32 the warden (R209, R238). An engine that stops,
and the start of an engine. -/
namespace Sys2Proof.Machine

/-- The state of engine `n`. -/
def Block.eng (b : Block) (n : Nat) : EngH := Store.get EngH.init b.engs n
def Block.setEng (b : Block) (n : Nat) (h : EngH) : Block := { b with engs := Store.set EngH.init b.engs n h }

/-- UID of engine `n`. -/
def engUid (n : Nat) : Nat := if n < 32 then U.ce n else U.warden

/-- Tc in a cycle of engine `n` (R221, R238). -/
def engTc (n : Nat) : Nat := if n < 32 then 2 else 4

/-- Engine `n` stops at once: a blocked operation is abandoned, posted writes and reads under way still complete, and its
registers stay until it starts again (R209, R236). -/
def Block.engStop (b : Block) (n : Nat) : Block :=
  let h := b.eng n
  b.setEng n { h with running := false, paused := false, blocked := none }

/-- Engine `n` starts in system code with every register zero (R209, R212); a host request that is pending sets status.REQ
(R237). -/
def Block.engStart (b : Block) (n : Nat) : Block :=
  let h := b.eng n
  b.setEng n { EngH.init with running := true, wdFrom := b.t, posts := h.posts, seq := h.seq, dma := h.dma, reqs := h.reqs, req := h.reqs != 0 }

end Sys2Proof.Machine
end

