-- ==== Sys2Proof/Machine/Margin.lean ====
section
/-! DEFINITION.
Margin: the causes of margin unknown with the cold cap (R131, R132), the registers that take effect at a boundary (R74), the ramp's
start (R154), and the loop registers that wait for one (R157). -/
namespace Sys2Proof.Machine

/-- Round a quotient to nearest, ties to even. -/
def rne (n : Int) (d : Nat) : Int :=
  if d = 0 then n else
    let q := n / (d : Int)
    let r := n - q * d
    if 2 * r < d then q else if 2 * r > d then q + 1 else if q % 2 = 0 then q else q + 1

/-- Round a quotient to its code where the spec leaves the direction open: an exact quotient is itself. -/
def Block.roundFree (b : Block) (n : Int) (d : Nat) : Block × Int :=
  let (b, i) := b.takeFree
  (b, n / (d : Int) + (if n % (d : Int) ≠ 0 ∧ Config.roundUp i = true then 1 else 0))

/-- A loop register, a PBD loop register or a LUT write waits for the next tick boundary (R157). -/
def Block.loopDirty (b : Block) (u off : Nat) : Block :=
  if b.loop.dirty.contains (regKey u off) then b
  else { b with loop := { b.loop with dirty := b.loop.dirty ++ [regKey u off] } }

/-- Lull level: cold gain − 6 dB (R155). -/
def Block.lullLevel (b : Block) (m : Nat) : Int := max (-32767) (b.coldGain m - 384)

/-- The registers of a PBD that R74 lets take effect at the next tick boundary: PBD_CTRL for CP_ALIGN, PBD_CP_OFS, PBD_PLAN and
PBD_EXT. -/
def pathOff (off : Nat) : Bool :=
  off == R.PBD_CTRL || off == R.PBD_CP_OFS || off == R.PBD_PLAN || (0x0A0 ≤ off && off < 0x120)

/-- A register of PBD `m` is about to be written: in service its value stays in force to the boundary (R74). -/
def Block.pathHold (b : Block) (m off : Nat) : Block :=
  let h := b.pbdH m
  if b.pbdOn m && pathOff off && !(h.held.any fun x => x.1 == off) then
    b.setPbdH m { h with held := h.held ++ [(off, b.reg (U.pbd m) off)] }
  else b

/-- The values written come into force at the boundary (R74). -/
def Block.pathTick (b : Block) (m : Nat) : Block :=
  if (b.pbdH m).held.isEmpty then b else b.setPbdH m { b.pbdH m with held := [] }

/-- The cold cap comes into force at PBD `m` (R131, R132). -/
def Block.coldCap (b : Block) (m : Nat) : Block :=
  let u := U.pbd m
  let b := if b.flag u F.PBD_PROBE_STAT_COLD_CAP then b
    else (((b.gainSettle m).gainNote m b.t).setFlag u F.PBD_PROBE_STAT_COLD_CAP true).irq u 23
  b.showGain m

/-- A cause of margin unknown arises at PBD `m` (R131): what the tick under way is evaluated with does not end its cold cap. A cause
that stands already for the same lane takes the later instant. -/
def Block.unkSet (b : Block) (m : Nat) (x : Unk) : Block :=
  let u := U.pbd m
  let h := b.pbdH m
  let rest := h.unknown.filter fun y => !(y.cause == x.cause && y.lane == x.lane)
  let was := h.unknown.isEmpty
  let b := b.setPbdH m { h with unknown := rest ++ [x], knownLast := false }
  let b := b.setFlag u F.PBD_PROBE_STAT_UNKNOWN true
  let b := b.when was fun b => b.irq u 22
  b.when x.cold fun b => b.coldCap m

/-- Causes of margin unknown end at PBD `m` (R131). -/
def Block.unkEnd (b : Block) (m : Nat) (p : Unk → Bool) : Block :=
  let h := b.pbdH m
  let rest := h.unknown.filter fun y => !p y
  (b.setPbdH m { h with unknown := rest }).setFlag (U.pbd m) F.PBD_PROBE_STAT_UNKNOWN (!rest.isEmpty)

/-- The cold cap at a tick boundary: it ends once the command that now comes into force was evaluated with the margin known
and no cause stands, and the margin is sampled for the tick that starts (R131, R146). -/
def Block.coldTick (b : Block) (m : Nat) : Block :=
  let u := U.pbd m
  let h := b.pbdH m
  let known := h.unknown.isEmpty
  let b := b.when (b.flag u F.PBD_PROBE_STAT_COLD_CAP && h.knownLast && known) fun b =>
    b.setFlag u F.PBD_PROBE_STAT_COLD_CAP false
  b.setPbdH m { b.pbdH m with knownLast := known }

/-- A ramp starts from cold gain at the next tick boundary (R154). -/
def Block.rampStart (b : Block) (m : Nat) : Block :=
  b.setPbdH m { b.pbdH m with rampStart := true }

/-- A ramp that runs ends; one that has been asked for starts at the boundary (R154). -/
def Block.rampReach (b : Block) (m : Nat) : Block :=
  ((b.setPbdH m { b.pbdH m with rampFine := none }).setFlag (U.pbd m) F.LOOP_PBD_STAT_RAMP false).setFld (U.pbd m) F.LOOP_PBD_OUT_RAMP 0x7FFF

/-- The ramp ends, asked for or running (R154). -/
def Block.rampEnd (b : Block) (m : Nat) : Block := (b.setPbdH m { b.pbdH m with rampStart := false }).rampReach m

def Block.laneH (b : Block) (i : Nat) : LaneH := Store.get LaneH.init b.lanes i
def Block.setLaneH (b : Block) (i : Nat) (h : LaneH) : Block := { b with lanes := Store.set LaneH.init b.lanes i h }
def Block.mcH (b : Block) (c : Nat) : McH := Store.get McH.init b.mcs c
def Block.setMcH (b : Block) (c : Nat) (h : McH) : Block := { b with mcs := Store.set McH.init b.mcs c h }

/-- A PBD enters or leaves LULL with its causes (R22, R167): in TEST the state stays. -/
def Block.lullState (b : Block) (m : Nat) : Block :=
  let u := U.pbd m
  let lull := b.flag u F.LOOP_PBD_STAT_LULL_DL || b.flag u F.LOOP_PBD_STAT_LULL_PL
  if b.ownState u = St.active ∧ lull then b.setState u St.lull
  else if b.ownState u = St.lull ∧ lull = false then b.setState u St.active
  else b

end Sys2Proof.Machine
end

