-- ==== Sys2Proof/Machine/Operands.lean ====
section
/-! DEFINITION.
Levels as operands: the dB code of a ratio of powers (R10), found by exact integer comparison, and sums of powers in dB. -/
namespace Sys2Proof.Machine

/-- Code `c` is at most the level of the power ratio num/den: 10^(c/640) ≤ num/den, without rounding. -/
def dbLe (c : Int) (num den : Nat) : Bool :=
  if 0 ≤ c then 10 ^ c.toNat * den ^ 640 ≤ num ^ 640 else den ^ 640 ≤ num ^ 640 * 10 ^ (-c).toNat

/-- The greatest code in 1/64 dB that is at most the level of num/den, by bisection over the 16-bit codes. -/
def dbFloor (num den : Nat) : Int :=
  ((List.range 16).reverse).foldl (fun (lo : Int) k => if dbLe (lo + 2 ^ k) num den then lo + 2 ^ k else lo) (-32768)

/-- The code of a power ratio (R10): the codes below the codable range and the level of zero power are 0x8001. Between two
codes the spec leaves the rounding open. -/
def Block.dbRatio (b : Block) (num den : Nat) : Block × Int :=
  if num = 0 ∨ den = 0 then (b, -32767)
  else
    let lo := dbFloor num den
    let exact := dbLe lo num den && dbLe (-lo) den num
    if exact ∨ 32767 ≤ lo then (b, max (-32767) lo)
    else
      let (b, i) := b.takeFree
      (b, max (-32767) (lo + (if Config.roundUp i = true then 1 else 0)))

/-- The level of num/den is at least `c`, in units of 1/25 of a code. -/
def fineLe (c : Int) (num den : Nat) : Bool :=
  if 0 ≤ c then 10 ^ c.toNat * den ^ 16000 ≤ num ^ 16000 else den ^ 16000 ≤ num ^ 16000 * 10 ^ (-c).toNat

/-- The code of a level in dBFS, converted to ±0.01 dB, that is 16/25 of a code (R173): the nearest code, and either neighbour where
both lie within that. A power at or below −120 dBFS gives −120 dBFS. -/
def Block.dbfs (b : Block) (num den : Nat) : Block × Int :=
  if num = 0 ∨ den = 0 ∨ dbLe (-7680) num den = false then (b, -7680)
  else
    let lo := dbFloor num den
    if fineLe (25 * lo + 9) num den = false then (b, lo)
    else if fineLe (25 * lo + 16) num den then (b, lo + 1)
    else
      let (b, i) := b.takeFree
      (b, lo + (if Config.roundUp i = true then 1 else 0))

/-- The level of a power num/den lies below the code `c`. -/
def levelBelow (c : Int) (num den : Nat) : Bool := !dbLe c num den

end Sys2Proof.Machine
end

