-- ==== Sys2Proof/Machine/Quiet.lean ====
section
/-! DEFINITION.
What each kind of unit does when it leaves service: capacity and loops of a PBD (R59, R65, R152), ramp-down of a TXC (R87),
the gating of an RXC (R87), removal of a lane (R123), stop of a measurement chain (R179), loss of a synthesiser (R96) and of
an observation receiver. -/
namespace Sys2Proof.Machine

/-- A loop slot's state is cleared (R152). TUNE is IDLE at once, and an auto-tune that ran is reported as cancelled at the next tick
boundary (R161). -/
def Block.clearSlot (b : Block) (m l : Nat) : Block :=
  let u := U.pbd m
  let b := b.setSlotH m l { SlotH.init with cancelled := (b.slotH m l).cancelled || b.fld u (F.LOOP_STAT_TUNE l) == 1 }
  let b := b.setReg u (R.LOOP_OUT l) (BitVec.ofNat 64 0x8000800080008000)
  (b.setFld u (F.LOOP_STAT_MISS_RUN l) 0).setFld u (F.LOOP_STAT_TUNE l) 0

/-- PBD `m` returns to READY or OFF: the engine clears the state of its loops (R152). DESIGN CHOICE: LULL_DL and LULL_PL stay (log entry
104). -/
def Block.clearLoops (b : Block) (m : Nat) : Block :=
  let b := b.each (List.range 8) fun b l => b.clearSlot m l
  b.setFld (U.pbd m) F.LOOP_PBD_STAT_SUPV_RUN 0

/-- PBD `m` leaves ACTIVE, LULL and TEST (R59, R65): capacity is released, its output is silent, and no command is in
force. -/
def Block.quietPbd (b : Block) (m : Nat) : Block :=
  let u := U.pbd m
  let b := (b.release m).rplLeave m
  let h := b.pbdH m
  let b := b.setPbdH m { h with
    retune := .idle, heldRetune := none, held := [], extGate := false, extSettle := none, pendingEntry := none, pendingNext := none, gainPending := none, winPending := none, gainWas := [], ncoNext := none,
    osc := OscH.init, sqSeq := [], sampled := false, winNext := none }
  let b := (b.setFld u F.PBD_GAIN_CMD noValue).setFlag u F.PBD_STAT_RETUNING false
  let b := (b.setFld u F.LOOP_PBD_OUT_NEXT noValue).setFld u F.LOOP_PBD_OUT_W noValue
  let b := (b.rampEnd m).showGain m
  let b := match b.fld u F.PROT_FL_STAT_PHASE with
    | 1 | 2 | 3 => b.setFlPhase m 0
    | _ => b
  b.txcRefreshAll

/-- TXC `k` leaves service: from TX or MUTED 256 Tc of ramp-down, then STANDBY (R87). -/
def Block.quietTxc (b : Block) (k : Nat) : Block :=
  let b := match b.fld (U.txc k) F.TXC_STAT_CH_STATE with
    | 3 | 4 => b.txcLeave k
    | _ => b
  b.txcRefresh b.t k

/-- RXC `k` leaves RX at the Tc of the event (R87); an overrange episode under way ends in its own time (R82). -/
def Block.quietRxc (b : Block) (k : Nat) : Block :=
  let u := U.rxc k
  let h := b.rxcH k
  let was := match h.rxFrom with
    | some t => (t, b.t) :: h.rxWas.filter fun x => b.t ≤ x.2 + spanKeep
    | none => h.rxWas
  let b := if b.fld u F.RXC_STAT_CH_STATE = 2 then b.setFld u F.RXC_STAT_CH_STATE 1 else b
  b.setRxcH k { h with fillDue := none, rxFrom := none, rxWas := was }

/-- The RXCs bound to synthesiser `k` are gated while it is not LOCKED (R93). -/
def Block.rxcBound (b : Block) (k : Nat) : Block :=
  let wait := !b.syLocked k
  b.each (List.range 32) fun b i =>
    if b.boundSy (U.rxc i) = some k then b.setFlag (U.rxc i) F.RXC_STAT_SY_WAIT wait else b

/-- Synthesiser `k` leaves service: no hop runs, bound RXCs are gated and bound TXCs mute (R96). -/
def Block.quietSy (b : Block) (k : Nat) : Block :=
  let u := U.sy k
  let b := b.setSyH k { b.syH k with hop := none, queued := none, relock := none }
  let b := (b.setFld u F.SY_STAT_STATE 0).setFlag u F.SY_STAT_QUEUED false
  (b.rxcBound k).txcRefreshAll

/-- Observation receiver `k` leaves service: the switch goes to its termination (R107, R108). -/
def Block.quietOrx (b : Block) (k : Nat) : Block :=
  let cut := (b.orxH k).settles.map fun x => (x.1, min x.2 b.t)
  (b.setOrxH k { b.orxH k with pos := 0, settleEnd := none, stopDue := false, startDue := false, settles := cut }).setFlag (U.orx k)
    F.ORX_STAT_SETTLING false

/-- Receiving PBD index of lane `i`. -/
def Block.lanePbd (b : Block) (i : Nat) : Nat := b.fld (U.lane i) F.LANE_CFG_PBD - 0x0100

/-- Lanes in the gang of lane `i`, which leads it: 1, 2 or 4 (R118). -/
def Block.gangOf (b : Block) (i : Nat) : Nat := 2 ^ min 2 (b.fld (U.lane i) F.LANE_CFG_GANG)

/-- Lane `j` leads a gang of GANG code `g` (R118): it has entered service with it, and has not left for READY or OFF since. -/
def Block.leadsGang (b : Block) (j g : Nat) : Bool :=
  (b.laneH j).leads && b.fld (U.lane j) F.LANE_CFG_GANG == g && b.ownState (U.lane j) != St.off && b.ownState (U.lane j) != St.ready

/-- The leader that lane `i` follows, if it is a follower of a gang. -/
def Block.leaderOf (b : Block) (i : Nat) : Option Nat :=
  let j := i % 33
  let k := i / 33
  if j = 32 then none
  else
    let two := 33 * k + j / 2 * 2
    let four := 33 * k + j / 4 * 4
    if four ≠ i ∧ b.leadsGang four 2 then some four
    else if two ≠ i ∧ b.leadsGang two 1 then some two
    else none

/-- The adaptation state of a lane. -/
def Block.adapt (b : Block) (i : Nat) : Nat := b.fld (U.lane i) F.LANE_STAT_ADAPT

/-- Put a lane into an adaptation state; TRACK entered is an interrupt cause (R121, R144). -/
def Block.setAdapt (b : Block) (i st : Nat) : Block :=
  let was := b.adapt i
  let b := b.setFld (U.lane i) F.LANE_STAT_ADAPT st
  b.when (st == 2 && was != 2) fun b => b.irq (U.lane i) 18

/-- Lane `i` leads or stands alone, and is in service or in TEST. -/
def Block.laneOn (b : Block) (i : Nat) : Bool := b.adapt i != 0

/-- Lanes in service, leaders and lone lanes. -/
def Block.lanesOn (b : Block) : List Nat := (List.range 264).filter b.laneOn

/-- Lane `i` enters TRAIN afresh: no window, no excess. -/
def Block.toTrain (b : Block) (i : Nat) : Block :=
  ((b.setLaneH i { b.laneH i with window := [], wasTrack := false }).setFld (U.lane i) F.LANE_RESID_EXCESS 0).setAdapt i 1

/-- The canceller lanes of PBD `m` re-train after a retune (R75). DEDUCED: a lane that the guard has frozen stays so, since R121
names what leads it out of FROZEN (log entry 98). -/
def Block.retrain (b : Block) (m : Nat) : Block :=
  b.each (b.lanesOn.filter fun i => b.lanePbd i = m ∧ b.adapt i ≠ 4) fun b i => b.toTrain i

/-- Lane `i` leaves ACTIVE and LULL (R121, R123): its estimate becomes zero, the tap memory is zeroed, and the cold cap
applies to the receiving PBD. A write of a model under way runs on (R129). -/
def Block.quietLane (b : Block) (i : Nat) : Block :=
  let u := U.lane i
  if b.adapt i = 0 then b
  else
    let m := b.lanePbd i
    let h := b.laneH i
    let b := b.setLaneH i { LaneH.init with divs := h.divs, headLat := h.headLat, writing := h.writing, leads := h.leads }
    let b := (b.setFld u F.LANE_STAT_ADAPT 0).setFlag u F.LANE_STAT_SWAP_PENDING false
    let b := (b.setFld u F.LANE_STAT_TAPS 0).setFld u F.LANE_RESID_EXCESS 0
    b.unkSet m { cause := 6, lane := i, from_ := b.t, cold := true, pub := false }

/-- A measurement chain stops: its readings keep their values with VALID = 0 (R179). -/
def Block.quietMc (b : Block) (c : Nat) : Block :=
  let u := U.mc c
  let b := b.setMcH c { b.mcH c with startDue := false, outs := 0, clean := 0, clipLeft := 0, ys := [], env := none, ints := [], combs := [], line := [] }
  let b := (b.setFlag u F.MC_STAT_RUN false).setFlag u F.MC_STAT_SETTLED false
  ((b.setFlag u F.MC_RMS_VALID false).setFlag u F.MC_PEAK_VALID false).setFlag u F.MC_ENV_VALID false

/-- LINK of a fronthaul port changes (R267, R283). -/
def Block.setLink (b : Block) (q st : Nat) : Block :=
  if b.fld (U.fh q) F.FH_STAT_LINK = st then b else (b.setFld (U.fh q) F.FH_STAT_LINK st).irq (U.fh q) 16

/-- A head page leaves READY, ACTIVE or TEST (R276): MUTE is sent, and the head is no longer admitted at its port. -/
def Block.quietHd (b : Block) (h : Nat) : Block :=
  let x := b.hdH h
  let b := if x.known then b.sendHd (.mute h none) else b
  let b := match x.port, x.known with
    | some q, true => b.setFld (U.fh q) F.FH_STAT_HEADS (b.fld (U.fh q) F.FH_STAT_HEADS - 1)
    | _, _ => b
  let b := b.setHdH h { x with known := false, measuring := false, admitFrom := none, offRun := 0, dlLate := false, ulLate := false, ulLatePrev := false, align := [] }
  (b.setFlag (U.hd h) F.HD_STAT_STALE false)

/-- A pseudo-channel leaves service: HS_STAT.FENCED follows, and the requests that wait for one that no longer serves are answered
(R286, R294, R304, R307). -/
def Block.quietPc (b : Block) (i : Nat) : Block :=
  let k := i / 32
  let n := ((List.range 32).filter fun j => b.ownState (U.pc (32 * k + j)) == St.fenced).length
  let was := b.fld (U.hs k) F.HS_STAT_FENCED
  let b := b.setFld (U.hs k) F.HS_STAT_FENCED n
  let b := b.when (b.pcDead i) fun b => b.hbmDrop i
  b.when (decide (was < n)) fun b => b.irq (U.hs k) 17

/-- Change the converter's record. -/
def Block.setMon (b : Block) (f : MonH → MonH) : Block := { b with mon := f b.mon }

/-- MON_STAT.ACT, with BUSY (R315): 0 IDLE, 1 SINGLE, 2 REGULAR, 3 INJECTED, 4 BURST. -/
def Block.monAct (b : Block) : Nat := b.fld U.mon F.MON_STAT_ACT
def Block.setMonAct (b : Block) (a : Nat) : Block := (b.setFld U.mon F.MON_STAT_ACT a).setFlag U.mon F.MON_STAT_BUSY (a != 0)

/-- The monitor converter stops: a fence or ENABLE = 0 discards the conversion and clears held triggers (R315). -/
def Block.monStop (b : Block) : Block :=
  (b.setMonAct 0).setMon fun h => { h with cv := none, held := false, suspended := none, waiting := [], reqs := [], begun := none, rotDue := false }

/-- A unit leaves service, or its outputs are muted by a fence, as its kind does. -/
def Block.quiet (b : Block) (u : Nat) : Block :=
  match kindOf u with
  | 0x02 => b.quietRxc (unitIndex u)
  | 0x03 => b.quietTxc (unitIndex u)
  | 0x05 => b.quietPbd (unitIndex u)
  | 0x07 => b.quietLane (unitIndex u)
  | 0x09 => b.setLink (unitIndex u) 0
  | 0x0B => b.quietPc (unitIndex u)
  | 0x0D => b.quietSy (unitIndex u)
  | 0x0E => b.quietOrx (unitIndex u)
  | 0x0F => b.engStop (unitIndex u)
  | 0x12 => b.monStop
  | 0x19 => b.quietMc (unitIndex u)
  | 0x1A => b.quietHd (unitIndex u)
  | _ => b

/-- A lane's state with its gang: followers show the state of a leader (R118), which a lane with GANG set is from its entry into service
until it is READY or OFF. -/
def Block.setLaneState (b : Block) (i st : Nat) : Block :=
  let h := b.laneH i
  let serves := (st == St.active || st == St.lull) && b.gangOf i != 1
  let b := b.setState (U.lane i) st
  if serves || h.leads then
    let b := b.setLaneH i { h with leads := serves || (h.leads && st != St.ready && st != St.off) }
    b.each ((List.range (b.gangOf i)).drop 1) fun b d => b.setState (U.lane (i + d)) st
  else b

/-- A unit is fenced (R22): its outputs are muted and its state is FENCED. A FAILED unit stays FAILED. A follower takes its
whole gang with it (R118). -/
def Block.fenceUnit (b : Block) (u : Nat) : Block :=
  if neverFenced u ∨ kindOf u = 0x04 ∨ b.ownState u = St.failed then b
  else if kindOf u = 0x07 then
    let i := (b.leaderOf (unitIndex u)).getD (unitIndex u)
    let b := b.quietLane i
    b.setLaneState i St.fenced
  else (b.setState u St.fenced).quiet u

end Sys2Proof.Machine
end

