-- ==== Sys2Proof/Machine/Faults.lean ====
section
/-! DEFINITION.
Reactions to faults: fencing and spare exchange (R30, R347, R348), the legacy and FATAL safe states (R354 to R358), FAULT_N
(R359), and squall with its restart limit (R187, R200). -/
namespace Sys2Proof.Machine

/-! ## FAULT_N (R359) -/

/-- 10 µs, rounded up to a whole Tc. -/
def pulseTc : Nat := 19661

/-- A qualifying fault: FAULT_N asserts, or its pulse starts again. The pin goes low within 4,096 Tc. -/
def Block.faultN (b : Block) : Block :=
  let fresh := b.flt.pinLowAt.isNone
  let (b, i) := b.takeFree
  let low := if fresh then b.t + Config.pinDelay i % 4097 else (b.flt.pinLowAt.getD b.t)
  let b := { b with flt := { b.flt with pinLowAt := some low, pulseEnd := some (max low b.t + pulseTc) } }
  let b := (b.setFlag 0 F.FLT_PIN_DRIVE true).setFlag 0 F.FLT_PIN_PULSE true
  let b := b.override 0 R.FLT_PIN (fldMask F.FLT_PIN_DRIVE.hi F.FLT_PIN_DRIVE.lo)
  b.when fresh fun b => (b.incSat 0 F.FLT_PIN_ASSERTS 1).irq 0 23

/-- FAULT_N is low now. -/
def Block.pinLow (b : Block) : Bool :=
  match b.flt.pinLowAt with | some t => t ≤ b.t | none => false

/-! ## Safe states (R355) -/

/-- A step of a safe state in its place by its instant. -/
def insertSafe (x : Nat × SafeStep) : List (Nat × SafeStep) → List (Nat × SafeStep)
  | [] => [x]
  | y :: t => if x.1 < y.1 then x :: y :: t else y :: insertSafe x t

/-- The safe-state sequence begins at M: the instants lie within the bounds of R355, in order. One under way keeps its own. -/
def Block.safeSequence (b : Block) : Block :=
  let (b, i) := b.takeFree
  let r := Config.safeDelay i % 2049
  let s := r + 256 + Config.safeDelay2 i % (3584 - 256 - r + 1)
  let e := s + Config.safeDelay3 i % (4096 - s + 1)
  { b with flt := { b.flt with
      safeSeq := insertSafe (b.t + e, .strobes) (insertSafe (b.t + s, .silent) (insertSafe (b.t + r, .rampDown) b.flt.safeSeq)) } }

/-- The legacy safe state is set by a CONTAINED fault at a unit of a TX-capable kind (R354, R355). -/
def Block.legacySafe (b : Block) (u : Nat) : Block :=
  let was := b.flag 0 F.FLT_MODE_SAFE
  let b := { b with flt := { b.flt with safeSetters := (b.flt.safeSetters.filter (· ≠ u)) ++ [u], safeAt := some b.t }
                    root := { b.root with safeUp := false } }
  let b := b.setFlag 0 F.FLT_MODE_SAFE true
  if was then b else (b.irq 0 20).safeSequence

/-- The collector enters a phase (R351); `keep` keeps FLT_COLLECT. The first bit of the phase is yet to come. -/
def Block.setPhase (b : Block) (p : Nat) (keep : Bool) : Block :=
  let b := (b.setFld 0 F.FLT_COLLECT_INFO_PHASE p)
  if p = 0 then b
  else
    let b := if keep then b else b.setReg 0 R.FLT_COLLECT 0
    ((b.setFlag 0 F.FLT_COLLECT_INFO_FIRST_V false).setFld 0 F.FLT_COLLECT_INFO_FIRST_BIT 0).setFlag 0
      F.FLT_COLLECT_INFO_NO_AIR false

/-- The cellar freezes on a FATAL fault (R299). -/
def Block.celFatal (b : Block) : Block :=
  let st := b.fld U.cel F.CEL_STAT_STATE
  if st = 1 ∨ st = 2 then
    ({ b.setFld U.cel F.CEL_STAT_STATE 3 with cel := { b.cel with ivFrom := none } }).irq U.cel 17
  else b

/-- Every cue engine halts; the loop engine and the dispatcher stop by the latch itself (R358). -/
def Block.haltEngines (b : Block) : Block :=
  b.each (List.range 32) fun b n => b.engStop n

/-- A FATAL fault abandons the activation of a coast: its session is over and the running image stays (R415). -/
def Block.coastAbandon (b : Block) : Block :=
  b.when b.coasting fun b =>
    ({ b with wdn := { b.wdn with coast := none } }.setFld U.warden F.WDN_STG_STAT_STATE 0).setFld U.warden F.WDN_STG_STAT_OWNER 0

/-- The reaction to a FATAL fault with its latch (R347, R351, R355, R358, R359, R363, R415). A PB itself is never FAILED (R54). -/
def Block.fatalReact (b : Block) (u : Nat) (w : Word) : Block :=
  let first := !b.flag 0 F.FLT_MODE_FATAL
  let b := b.setFlag 0 F.FLT_MODE_FATAL true
  let b := b.when (first && !b.flag 0 F.FLT_FATAL_V) fun b =>
    (b.setReg 0 R.FLT_FATAL w).setReg 0 R.FLT_FATAL_STAMP b.cycleStamp
  let b := if kindOf u = 0x04 then b else (b.setState u St.failed).quiet u
  let b := b.setState 0 St.failed
  let b := b.when first fun b => ((b.safeSequence).celFatal).haltEngines.coastAbandon
  b.faultN

/-! ## Raising (R347) -/

/-- The spare of a failed lane or chain (R30): lane 32 of its cluster, or the lowest READY chain of MC296 to MC319 but itself. -/
def Block.spareFor (b : Block) (u : Nat) : Option Nat :=
  if kindOf u = 0x07 ∧ unitIndex u % 33 ≠ 32 then
    let s := U.lane (unitIndex u / 33 * 33 + 32)
    if b.ownState s = St.ready then some s else none
  else if kindOf u = 0x19 then
    ((List.range 24).map fun j => U.mc (296 + j)).find? fun s => s != u && b.ownState s == St.ready
  else none

/-- Identities are exchanged: the failed UID is backed by the spare hardware and starts afresh (R30, R123). -/
def Block.exchange (b : Block) (u s : Nat) : Block :=
  if kindOf u = 0x07 then
    let i := unitIndex u
    let k := i / 33
    let b := (b.setFld 0 (F.ROOT_SPARE_LANE_LANE k) (i % 33)).setFlag 0 (F.ROOT_SPARE_LANE_USED k) true
    if b.adapt i = 0 then b
    else
      let h := b.laneH i
      let b := b.setLaneH i { LaneH.init with
        loadDue := true, divs := h.divs, headLat := h.headLat, writing := h.writing, leads := h.leads, blockAt := b.t, blockAdapt := some (b.reg (U.lane i) R.LANE_ADAPT) }
      let b := (b.setAdapt i 1).setFlag (U.lane i) F.LANE_STAT_SWAP_PENDING false
      let b := if b.ownState u = St.lull then b.setLaneState i St.active else b
      b.unkSet (b.lanePbd i) { cause := 6, lane := i, from_ := b.t, cold := true, pub := false }
  else
    let c := unitIndex u
    let j := unitIndex s - 296
    let b := (b.setFld 0 (F.ROOT_SPARE_MC_CHAIN (j / 4) (j % 4)) c).setFlag 0 (F.ROOT_SPARE_MC_USED (j / 4) (j % 4)) true
    if b.flag u F.MC_STAT_RUN then
      let b := b.quietMc c
      b.setMcH c { b.mcH c with startDue := true }
    else b

/-- The reactions that a CONTAINED fault has beside its unit's own (R300, R354, R359). -/
def Block.containedSide (b : Block) (u code path : Nat) : Block :=
  let b := b.when (b.flag 0 F.FLT_MODE_LEGACY && txCapable (kindOf u)) fun b => b.legacySafe u
  let b := b.when (((b.reg 0 R.FLT_PIN_MASK).toNat >>> blockClass u code path) % 2 == 1) fun b => b.faultN
  b.celTrigger 0 u

/-- The register word of a fault, as FLT_FATAL holds it. -/
def fatalWord (u code : Nat) (inj coin : Bool) : Word :=
  BitVec.ofNat 64 (u + (code <<< 16) + (3 <<< 24) + (bit inj <<< 26) + (bit coin <<< 28) + (1 <<< 31))

/-- A fault's reaction fences a unit: it prevails over an UNFENCE_REQ of this Tc (R254). -/
def Block.faultFence (b : Block) (u : Nat) : Block :=
  (b.fenceUnit u).override u R.UNIT_CTRL (fldMask F.UNIT_CTRL_UNFENCE_REQ.hi F.UNIT_CTRL_UNFENCE_REQ.lo)

/-- A fault is raised at a unit with its class and its reaction (R347): `fences` says that a CONTAINED fault fences its
unit, `spares` that a failed lane or chain may be exchanged for its spare. -/
def Block.raiseAt (b : Block) (u code cls path : Nat) (inj fences spares : Bool) : Block :=
  if cls = 2 then
    match (if spares then b.spareFor u else none) with
    | some s =>
      let b := b.faultReport u C.spared 1 inj false path
      let b := (b.faultReport s code 2 inj false path).faultFence s
      (b.exchange u s).containedSide s code path
    | none =>
      let b := b.faultReport u code 2 inj false path
      let b := b.when fences fun b => b.faultFence u
      b.containedSide u code path
  else if cls = 3 then
    let b := b.when (!b.flag 0 F.FLT_MODE_FATAL && b.fld 0 F.FLT_COLLECT_INFO_PHASE != 3) fun b => b.setPhase 3 true
    let b := b.faultReport u code 3 inj true path
    b.fatalReact u (fatalWord u code inj (match b.flt.cycle.getLast? with | some e => e.coin | none => false))
  else b.faultReport u code 1 inj false path

/-- A lane or chain that fails may be spared (R30); a divergence limit and a failed self-test are no hardware failure. -/
def spares (u code : Nat) : Bool :=
  (kindOf u == 0x07 || kindOf u == 0x19) && code != C.laneDivergeLimit && code != C.selftest && !notFencing code

/-- A fault of class CONTAINED at a unit, with its native reaction. -/
def Block.contained (b : Block) (u code : Nat) : Block :=
  b.raiseAt u code 2 16 false (!notFencing code) (spares u code)

/-- A fault of class CONTAINED whose block class its path decides (R474). -/
def Block.containedPath (b : Block) (u code path : Nat) : Block :=
  b.raiseAt u code 2 path false (!notFencing code) (spares u code)

/-- A fault of class FATAL. -/
def Block.fatal (b : Block) (u code path : Nat) : Block := b.raiseAt u code 3 path false false false

/-- A write refused for want of privilege at a PBD (R159). -/
def Block.privRefused (b : Block) (m : Nat) : Block :=
  let u := U.pbd m
  let b := if b.flag u F.PBD_STAT_CFG_REJ then b else (b.setFlag u F.PBD_STAT_CFG_REJ true).irq u 19
  b.corrected u C.priv

/-- CFG_REJ is set at PBD `m` and a CORRECTED code is raised (R74, R76, R194). -/
def Block.pbdRefused (b : Block) (m code : Nat) : Block :=
  let u := U.pbd m
  let b := if b.flag u F.PBD_STAT_CFG_REJ then b else (b.setFlag u F.PBD_STAT_CFG_REJ true).irq u 19
  b.corrected u code

/-! ## Squall (R187 to R190, R200) -/

/-- A squall cause is set at PBD `m`; the eighth failed attempt fences it (R200). -/
def Block.squallAt (b : Block) (m cause r : Nat) : Block :=
  let u := U.pbd m
  let before := b.fld u F.PROT_STAT_FAILS
  let b := b.squallCore m cause r
  if before < 8 ∧ b.fld u F.PROT_STAT_FAILS = 8 then
    (b.setPbdH m { b.pbdH m with fencedBy := C.restartLimit }).contained u C.restartLimit
  else b

/-- A squall from a trigger that R188 gives up to 512 Tc before its ramp. -/
def Block.squall (b : Block) (m cause : Nat) : Block :=
  let (b, i) := b.takeFree
  b.squallAt m cause (b.t + Config.rampDelay i % 513)

/-- A module cause is set (R190): every PBD carries cause MODULE with the same ramp start, every TXC fails condition MOD,
the strobes go low in the order of R100, and the root reads LULL. `f` is the cause's flag, `now` that the ramp
begins at M: a squall cue that acts at its stamp (R188). -/
def Block.moduleSquall (b : Block) (f : Fld) (now : Bool) : Block :=
  let entered := !b.flag 0 F.ROOT_SQUALL_ACTIVE
  let b := (b.setFlag 0 f true).override 0 F.ROOT_SQUALL_UNSQUALL.off (fldMask F.ROOT_SQUALL_UNSQUALL.hi F.ROOT_SQUALL_UNSQUALL.lo)
  if entered = false then b
  else
    let (b, i) := b.takeFree
    let r := b.t + (if now then 0 else Config.rampDelay i % 513)
    let b := ((b.setFlag 0 F.ROOT_SQUALL_ACTIVE true).setReg 0 R.ROOT_SQ_STAMP b.now).irq 0 16
    let b := b.squallRecord 0 (C.squall 5) true
    let b := { b with root := { b.root with seq := [(r + 256, .silent), (r + 512, .switches)] } }
    let b := b.each (List.range 128) fun b m => b.squallAt m 5 r
    let b := (b.txcRefreshAt r).celTrigger 1 0
    ((b.muteHeads).rootState)

end Sys2Proof.Machine
end

