-- ==== Sys2Proof/Machine/Contexts.lean ====
section
/-! DEFINITION.
The context store (R241, R242), arming (R244, R252), the first effect Tc and the overflow list (R246, R247), in-flight
slots and unit shadows (R247, R250), and what a time step does to waiting cues (R49). -/
namespace Sys2Proof.Machine

/-- Contexts of the store (R241). -/
def ctxCount : Nat := 262144

/-! Context states (R243). -/
namespace Cue
def free : Nat := 0
def armed : Nat := 1
def staged : Nat := 2
def waiting : Nat := 3
def issued : Nat := 4
def done : Nat := 5
end Cue

/-- Context `x`. -/
def Block.ctx (b : Block) (x : Nat) : Ctx := Store.get Ctx.init b.ctxs x
def Block.setCtx (b : Block) (x : Nat) (c : Ctx) : Block := { b with ctxs := Store.set Ctx.init b.ctxs x c }

/-! ## The 64 bytes of a context (R241) -/

/-- Bytes 16j to 16j + 15 of a context, as a 128-bit word. -/
def Ctx.quad (c : Ctx) (j : Nat) : Quad :=
  match j with
  | 0 => BitVec.ofNat 128 (c.stamp.toNat + (c.target <<< 64) + (c.action <<< 80) + (c.ctrl <<< 88) + (c.tol <<< 96) +
      (c.origin <<< 112) + (bit c.sys <<< 127))
  | 1 => BitVec.ofNat 128 (c.period + (c.count <<< 32) + (c.state <<< 48) + (c.result <<< 56) + (c.lateness <<< 64) +
      (c.occ <<< 96))
  | 2 => c.args.setWidth 128
  | _ => (c.args >>> 128).setWidth 128

/-- Field (hi, lo) of a 128-bit word. -/
def quadFld (q : Quad) (hi lo : Nat) : Nat := (q.toNat >>> lo) % 2 ^ (hi + 1 - lo)

/-- The image fields of a context from bytes 16j to 16j + 15; the dispatcher's own fields stay. -/
def Ctx.putQuad (c : Ctx) (j : Nat) (q : Quad) : Ctx :=
  match j with
  | 0 => { c with stamp := q.setWidth 64, target := quadFld q 79 64, action := quadFld q 87 80, ctrl := quadFld q 95 88, tol := quadFld q 111 96 }
  | 1 => { c with period := quadFld q 31 0, count := quadFld q 47 32 }
  | 2 => { c with args := BitVec.ofNat 256 ((c.args.toNat >>> 128 <<< 128) + q.toNat) }
  | _ => { c with args := BitVec.ofNat 256 (c.args.toNat % 2 ^ 128 + (q.toNat <<< 128)) }

/-- A context image from four 128-bit words. -/
def Ctx.image (q : Nat → Quad) : Ctx :=
  (((Ctx.init.putQuad 0 (q 0)).putQuad 1 (q 1)).putQuad 2 (q 2)).putQuad 3 (q 3)

/-- Argument bytes `lo` to `lo + n - 1` as a number. -/
def Ctx.arg (c : Ctx) (lo n : Nat) : Nat := (c.args.toNat >>> (8 * lo)) % 2 ^ (8 * n)

/-- Priority class of a cue. -/
def Ctx.cls (c : Ctx) : Nat := c.ctrl % 4

/-- Tolerance of a cue in Tc. -/
def Ctx.tolTc (c : Ctx) : Nat := if c.tol = 0 then 256 else c.tol

/-! ## The first effect Tc (R247) -/

/-- ADV of a cue (R247, R278). -/
def Block.cueAdv (b : Block) (c : Ctx) : Nat :=
  if c.action = 0x10 then 4096 + b.svcLatDl (c.target - 0x0080)
  else if kindOf c.target = 0x1A then b.fld c.target F.HD_LAT_D_DL
  else if c.action = 0x11 then b.pbdHeadDl (c.target - 0x0100)
  else 0

/-- E of a cue, as an air count. -/
def Block.cueE (b : Block) (c : Ctx) : Int := (tcOf c.stamp : Int) - b.cueAdv c

/-- Tc over which the timing wheel reaches (R246). -/
def wheelTc : Nat := 19660800

/-- Cue `a` comes before cue `c` in the order of R247 and R251: by E, then class (3 first), then arming order. -/
def cueBefore (a c : Ctx) : Bool :=
  if a.e ≠ c.e then decide (a.e < c.e)
  else if a.cls ≠ c.cls then decide (c.cls < a.cls)
  else decide (a.seq < c.seq)

/-- The first cue of a list in that order. -/
def firstCue (l : List (Nat × Ctx)) : Option (Nat × Ctx) :=
  l.foldl (fun o x => match o with | none => some x | some y => if cueBefore x.2 y.2 then some x else some y) none

/-! ## Slots and shadows (R247, R250) -/

/-- In-flight slots in use. -/
def Block.inflight (b : Block) : Nat :=
  ((Store.view b.ctxs).filter fun x => x.2.slot).length + (b.dsp.freeing.filter fun x => b.t < x.1).length

/-- Cues in WAITING. -/
def Block.waitingCues (b : Block) : List (Nat × Ctx) := (Store.view b.ctxs).filter fun x => x.2.state == Cue.waiting

/-- Tc within which a shadow write reaches a unit (R247): on the core die, on a converter chiplet, an HBM stack, a fronthaul port or a
head page, and on the keel die. -/
def shadowTc (u : Nat) : Nat :=
  match kindOf u with
  | 0x02 | 0x03 | 0x09 | 0x0A | 0x0B | 0x0C | 0x0D | 0x0E | 0x1A => 512
  | 0x04 | 0x05 | 0x06 | 0x07 | 0x0F | 0x11 | 0x15 | 0x16 | 0x17 | 0x18 | 0x19 => 256
  | _ => 1024

/-- Shadow entries in use at a unit: an issued action is written directly and takes none (R247, R248). -/
def Block.shadowUsed (b : Block) (u : Nat) : Nat :=
  ((Store.view b.ctxs).filter fun x => x.2.slot && x.2.state != Cue.issued && x.2.target == u).length +
    (b.dsp.freeing.filter fun x => decide (b.t < x.1) && x.2 == u).length

/-- A slot has been taken: the peak and AT_BOUND follow (R250, R262, R263). -/
def Block.slotTaken (b : Block) : Block :=
  let n := b.inflight
  let b := b.setFld U.dsp F.DSP_PEAK_INFLIGHT (max n (b.fld U.dsp F.DSP_PEAK_INFLIGHT))
  b.when (n == 2048) fun b => b.irq U.dsp 18

/-- Context `x` gives up its slot, and its shadow entry if it holds one, at the next Tc (R243). -/
def Block.slotFree (b : Block) (x : Nat) : Block :=
  let c := b.ctx x
  if c.slot then
    let b := b.setCtx x { c with slot := false }
    { b with dsp := { b.dsp with freeing := (b.dsp.freeing.filter fun y => b.t < y.1) ++ [(b.t + 1, if c.state = Cue.armed ∨ c.state = Cue.staged then c.target else 0x10000)] } }
  else b

/-! ## Allocation and exhaustion (R252) -/

/-- Contexts in use among those that arming may allocate. -/
def Block.usedCtxs (b : Block) : List Nat :=
  ((Store.view b.ctxs).filter fun x => x.2.state != Cue.free && b.fld U.dsp F.DSP_CFG_RESV ≤ x.1).map (·.1)

/-- Allocatable FREE contexts. -/
def Block.freeCtxs (b : Block) : Nat := ctxCount - b.fld U.dsp F.DSP_CFG_RESV - b.usedCtxs.length

/-- The least number from `n` on that a rising list does not hold. -/
def lowestGap (l : List Nat) (n : Nat) : Nat :=
  match l with
  | [] => n
  | k :: t => if k < n then lowestGap t n else if k = n then lowestGap t (n + 1) else n

/-- The context that arming allocates: the lowest allocatable FREE one. -/
def Block.allocCtx (b : Block) : Option Nat :=
  if b.freeCtxs = 0 then none else some (lowestGap b.usedCtxs (b.fld U.dsp F.DSP_CFG_RESV))

/-- CUE_FULL follows the FREE contexts (R252, R263). -/
def Block.dspFull (b : Block) : Block :=
  let full := b.flag U.dsp F.DSP_STAT_CUE_FULL
  if !full ∧ b.freeCtxs = 0 then
    ((b.setFlag U.dsp F.DSP_STAT_CUE_FULL true).irq U.dsp 16).corrected U.dsp C.cueFull
  else if full ∧ max 1 (b.fld U.dsp F.DSP_CFG_RESUME) ≤ b.freeCtxs then
    (b.setFlag U.dsp F.DSP_STAT_CUE_FULL false).irq U.dsp 17
  else b

/-- A context takes its place by its E: in the wheel, in the overflow list, or in WAITING where E is past (R243, R246). -/
def Block.placeCtx (b : Block) (x : Nat) (c : Ctx) : Block :=
  let e := b.cueE c
  let past := decide (e ≤ (b.time.air : Int))
  b.setCtx x { c with
    e := e, slot := false, state := if past then Cue.waiting else Cue.armed
    ovf := decide (((b.time.air + wheelTc : Nat) : Int) < e) }

/-- Arm an image into context `x` (R243). -/
def Block.armInto (b : Block) (x : Nat) (c : Ctx) : Block :=
  let b := b.placeCtx x { c with seq := b.dsp.seq, result := 0, lateness := 0, occ := 0, effAt := 0 }
  (({ b with dsp := { b.dsp with seq := b.dsp.seq + 1 } }).note 32 0 1).dspFull

/-- A context goes FREE. -/
def Block.freeCtx (b : Block) (x : Nat) : Block :=
  (b.setCtx x { b.ctx x with state := Cue.free, slot := false, ovf := false }).dspFull

/-! ## The checks of arming (R244) -/

/-- The target kinds of an action code (R245): none for an undefined code. -/
def actionKinds (a : Nat) : Option (Nat → Bool) :=
  match a with
  | 0x00 | 0x01 | 0x02 | 0x03 | 0x04 => some fun k => k != 0
  | 0x10 => some (· == 0x04)
  | 0x11 | 0x12 | 0x13 | 0x14 | 0x15 | 0x16 | 0x17 | 0x18 => some (· == 0x05)
  | 0x20 => some fun k => k == 0x05 || k == 0x07
  | 0x21 => some (· == 0x19)
  | 0x30 => some (· == 0x0D)
  | 0x31 | 0x32 => some (· == 0x0C)
  | 0x3F => some (· == 0x01)
  | _ => none

/-- The first check of R244 that a cue fails, as its fault code; `allowed` says that the origin reaches the target. -/
def cueCheck (c : Ctx) (sys allowed : Bool) : Option Nat :=
  if stampValid c.stamp = false then some C.cueStamp
  else if (match actionKinds c.action with | none => true | some p => !(p (kindOf c.target))) then some C.cueAction
  else if (c.period ≠ 0 ∧ c.period < 8192) ∨ (c.period = 0 ∧ c.count ≠ 0) then some C.cueRepeat
  else if c.ctrl / 16 ≠ 0 ∨ (c.cls = 3 ∧ sys = false) then some C.cueClass
  else if allowed then none else some C.cueTarget

/-- A cue is refused at arming. -/
def Block.armRefused (b : Block) : Block := (b.note 32 5 1).incSat U.dsp F.DSP_REJ_CNT_ARM_REJ 1

/-! ## Ticks and time steps -/

/-- Overflow cues whose E has come within reach move into the wheel, up to 8,192 per tick, in the order of E (R246). -/
def Block.ovfMigrate (b : Block) : Block :=
  let due := ((Store.view b.ctxs).filter fun x => x.2.ovf && decide (x.2.e ≤ ((b.time.air + wheelTc : Nat) : Int))).map (·.1)
  let take := if due.length ≤ 8192 then due
    else due.filter fun x => (due.filter fun y => cueBefore (b.ctx y) (b.ctx x)).length < 8192
  b.each take fun b x => b.setCtx x { b.ctx x with ovf := false }

/-- Contexts in the overflow list: those still ARMED. -/
def Block.ovfLen (b : Block) : Nat := ((Store.view b.ctxs).filter fun x => x.2.ovf && x.2.state == Cue.armed).length

/-- A cue's E lies beyond the wheel's reach (R246). -/
def Block.beyondWheel (b : Block) (e : Int) : Bool := decide (((b.time.air + wheelTc : Nat) : Int) < e)

/-- A time step has moved the counter past, or back before, the E of context `x` (R49). A pending cue whose E now lies in the
past is due at once, and executes late or expires; one that waited to be issued and whose E lies ahead again waits for it; one
beyond the wheel's reach goes to the overflow list (R246). -/
def Block.cueStep (b : Block) (x : Nat) : Block :=
  let c := b.ctx x
  if c.e < (b.time.air : Int) then
    if c.state = Cue.waiting then b else (b.slotFree x).setCtx x { (b.slotFree x).ctx x with state := Cue.waiting, ovf := false }
  else if c.state = Cue.waiting ∧ (b.time.air : Int) < c.e then b.setCtx x { c with state := Cue.armed, ovf := b.beyondWheel c.e }
  else if c.state = Cue.armed ∧ c.slot = false then b.setCtx x { c with ovf := c.ovf || b.beyondWheel c.e }
  else b

/-- A time step has moved the counter: every pending cue takes its place again (R49). -/
def Block.cuesStep (b : Block) : Block :=
  b.each (((Store.view b.ctxs).filter fun x => x.2.state == Cue.armed || x.2.state == Cue.staged || x.2.state == Cue.waiting).map (·.1))
    Block.cueStep

end Sys2Proof.Machine
end

