-- ==== Sys2Proof/Machine/Passband.lean ====
section
/-! DEFINITION.
Passbands (chapter 03): configuration validity, TDD patterns and direction switching, codebooks and beams, filter banks,
retunes, and the start entry of the external table. -/
namespace Sys2Proof.Machine

/-! ## Configuration validity (R55 to R60, R76) -/

/-- The valid bits of a port set fill contiguously from slot 0. -/
def contiguous (l : List Nat) : Bool := l == List.range l.length

/-- No element stands twice. -/
def noDup {α : Type} [DecidableEq α] : List α → Bool
  | [] => true
  | a :: t => !t.contains a && noDup t

/-- A port set's own form (R55): contiguous, no port twice, all local or all heads, and no stray bits beside a local
index. -/
def setOk (slots : List (Nat × Port)) : Bool :=
  contiguous (slots.map (·.1)) && noDup (slots.map (·.2)) &&
    (slots.all (fun x => match x.2 with | .head _ _ => true | _ => false) ||
     slots.all (fun x => match x.2 with | .head _ _ => false | _ => true))

/-- The spare bits of a local service slot are zero (R77). -/
def svBitsOk (v : Word) : Bool :=
  (List.range 4).all fun i =>
    Word.fld v (16 * i + 15) (16 * i + 15) == 0 || Word.fld v (16 * i + 14) (16 * i + 14) == 1 ||
      Word.fld v (16 * i + 10) (16 * i + 5) == 0

/-- The count of slots of both sets of a side fits LAYERS and the beams (R55). -/
def sideCount (layers : Nat) (beams : Bool) (a c : Nat) : Bool :=
  if beams then a == c && a ≤ 8 && (a == layers || a == 2 * layers || a == 4 * layers || a == 8 * layers)
  else a == layers && c == layers

/-- A local port stands on a READY or ACTIVE channel (R76). -/
def Block.portReady (b : Block) (p : Port) : Bool :=
  match p with
  | .rxc k => b.ownState (U.rxc k) == St.ready || b.ownState (U.rxc k) == St.active
  | .txc k => b.ownState (U.txc k) == St.ready || b.ownState (U.txc k) == St.active
  | .head _ _ => true

/-- Conditions CFG_PORTS of R76, with the start entry of R78. -/
def Block.portsOk (b : Block) (m : Nat) : Bool :=
  let u := U.pb (pbOf m)
  let d := 2 * pbOf m
  let dlRx := b.rxSlots d
  let dlTx := b.txSlots d
  let ulRx := b.rxSlots (d + 1)
  let ulTx := b.txSlots (d + 1)
  let layers := b.fld u F.PB_CFG_LAYERS
  let nExt := b.fld (U.pbd m) F.PBD_PLAN_N_EXT
  let init := b.fld (U.pbd m) F.PBD_PLAN_EXT_INIT
  1 ≤ layers && layers ≤ 8 && setOk dlRx && setOk dlTx && setOk ulRx && setOk ulTx &&
    svBitsOk (b.reg u R.PB_SV_TX0) && svBitsOk (b.reg u R.PB_SV_TX1) && svBitsOk (b.reg u R.PB_SV_RX0) &&
    svBitsOk (b.reg u R.PB_SV_RX1) &&
    sideCount layers (b.flag u F.PB_CFG_BEAM_DN) dlRx.length ulTx.length &&
    sideCount layers (b.flag u F.PB_CFG_BEAM_SV) dlTx.length ulRx.length &&
    (b.rxSlots m).all (fun x => b.portReady x.2) && (b.txSlots m).all (fun x => b.portReady x.2) &&
    (nExt == 0 || init == 15 || init < nExt)

/-- An NCO word is valid at a rate (R57). -/
def ncoOk (rate word : Nat) : Bool :=
  let f := word * 30000000
  let edge := 41 * rateHz rate
  (40000000000 + edge) * 2 ^ 32 ≤ f && f + edge * 2 ^ 32 ≤ 720000000000 * 2 ^ 32

/-- A tap count makes a valid bank (R60). -/
def tapsOk (n : Nat) : Bool := n % 2 == 0 && 2 ≤ n && n ≤ 512

/-- Taps of the bank in use. -/
def Block.tapsInUse (b : Block) (m : Nat) : Nat :=
  if b.flag (U.pbd m) F.PBD_STAT_FBANK_ACT then b.fld (U.pbd m) F.PBD_FILT_TAPS1 else b.fld (U.pbd m) F.PBD_FILT_TAPS0

/-- Channeliser capacity for PBD `m` beside what is reserved (R59). -/
def Block.capOk (b : Block) (m : Nat) : Bool :=
  let w := capWeight (b.rateOf m)
  let rx := (b.rxSlots m).filterMap fun x => match x.2 with | .rxc k => some k | _ => none
  let tx := (b.txSlots m).filterMap fun x => match x.2 with | .txc k => some k | _ => none
  let rxTot := (List.range 32).foldl (fun a k => a + b.fld (U.rxc k) F.RXC_STAT_WEIGHT) 0
  let txTot := (List.range 32).foldl (fun a k => a + b.fld (U.txc k) F.TXC_STAT_WEIGHT) 0
  rxTot + w * rx.length ≤ 256 && txTot + w * tx.length ≤ 256 &&
    rx.all (fun k => b.fld (U.rxc k) F.RXC_STAT_WEIGHT + w ≤ 8) &&
    tx.all (fun k => b.fld (U.txc k) F.TXC_STAT_WEIGHT + w ≤ 8)

/-- Two passbands run on one timetable (R56). -/
def Block.sameTdd (b : Block) (n n' : Nat) : Bool :=
  b.reg (U.pb n) R.PB_TDD_P1 == b.reg (U.pb n') R.PB_TDD_P1 && b.reg (U.pb n) R.PB_TDD_P2 == b.reg (U.pb n') R.PB_TDD_P2 &&
    b.fld (U.pb n) F.PB_CFG_MU == b.fld (U.pb n') F.PB_CFG_MU &&
    b.fld (U.pb n) F.PB_CFG_TAOFS == b.fld (U.pb n') F.PB_CFG_TAOFS

/-- The TXCs of PBD `m` are shared as R56 allows with the instances that other PBDs hold. -/
def Block.shareOk (b : Block) (m : Nat) : Bool :=
  (b.txSlots m).all fun x => match x.2 with
    | .txc k => ((b.txcH k).insts.filter fun y => y.1 ≠ m).all fun y =>
        if b.isTdd m then b.isTdd y.1 && isUl y.1 == isUl m && b.sameTdd (pbOf m) (pbOf y.1) else !b.isTdd y.1
    | _ => true

/-- The configuration of PBD `m` for service: none where it is valid, else the code of the first failing condition (R76).
The fronthaul budget stands with the capacity (R59). -/
def Block.pbdConfig (b : Block) (m : Nat) (fhOk : Bool) : Option Nat :=
  if b.portsOk m = false then some C.cfgPorts
  else if 5 ≤ b.rateOf m then some C.cfgRate
  else if !ncoOk (b.rateOf m) (b.fld (U.pbd m) F.PBD_NCO_RX_WORD) || !ncoOk (b.rateOf m) (b.fld (U.pbd m) F.PBD_NCO_TX_WORD)
    then some C.cfgNco
  else if tapsOk (b.tapsInUse m) = false then some C.cfgFilter
  else if b.capOk m = false ∨ fhOk = false then some C.cfgCap
  else if b.shareOk m = false then some C.cfgShare
  else if b.isTdd m ∧ b.fld (U.pb (pbOf m)) F.PB_STAT_TDD_RESULT ≠ 2 then some C.cfgTdd
  else none

/-! ## TDD patterns (R66, R69, R71) -/

/-- Period in Tc of a PERIOD code, 0 for an invalid code (R77). -/
def periodTc (c : Nat) : Nat :=
  match c with
  | 0 => 983040 | 1 => 1228800 | 2 => 1966080 | 3 => 2457600 | 4 => 3932160 | 5 => 4915200 | 6 => 5898240 | 7 => 7864320
  | 8 => 9830400 | 9 => 19660800 | _ => 0

/-- Tc in a slot of numerology `mu`, as a share of a millisecond. -/
def slotTc (mu : Nat) : Nat := msTc / 2 ^ mu

/-- Tc in a symbol with its normal cyclic prefix, the longer first symbol of each 0.5 ms apart (R66). -/
def symTc (mu : Nat) : Nat := 140288 / 2 ^ mu

/-- Symbols in 0.5 ms. -/
def halfSyms (mu : Nat) : Nat := 7 * 2 ^ mu

/-- Start in Tc of the `g`-th symbol of the air-time grid, counted from an even frame's start (R66). -/
def symStart (mu g : Nat) : Nat :=
  let r := g % halfSyms mu
  g / halfSyms mu * 983040 + (if r = 0 then 0 else r * symTc mu + 1024)

/-- One period of a pattern: symbols in all, leading DL symbols and trailing UL symbols; none where the format is wrong
(R69). -/
def periodSyms (mu : Nat) (p : Word) : Option (Nat × Nat × Nat) :=
  let len := periodTc (Word.fld p 3 0)
  let n := len / slotTc mu * 14
  let d := Word.fld p 14 8 * 14 + Word.fld p 19 16
  let u := Word.fld p 30 24 * 14 + Word.fld p 35 32
  if len = 0 ∨ len % slotTc mu ≠ 0 ∨ n < d + u then none else some (n, d, u)

/-- The runs of DL and UL symbols over 20 ms as (is DL, first symbol, symbol after the last). -/
def patRuns (periods : List (Nat × Nat × Nat)) : Nat → Nat → List (Bool × Nat × Nat)
  | 0, _ => []
  | fuel + 1, g =>
    let one := periods.foldl (fun (acc : List (Bool × Nat × Nat) × Nat) (x : Nat × Nat × Nat) =>
      let (l, g) := acc
      let (n, d, u) := x
      (l ++ (if d = 0 then [] else [(true, g, g + d)]) ++ (if u = 0 then [] else [(false, g + n - u, g + n)]), g + n)) ([], g)
    one.1 ++ patRuns periods fuel one.2

/-- The periods of a pattern: P1, and P2 where it is in use. -/
def patPeriods (t : TddPat) : Option (List (Nat × Nat × Nat)) :=
  match periodSyms t.mu t.p1 with
  | none => none
  | some a =>
    if Word.fld t.p2 4 4 = 1 then
      match periodSyms t.mu t.p2 with | none => none | some c => some [a, c]
    else some [a]

/-- Length in Tc of a pattern. -/
def patTc (t : TddPat) : Nat :=
  periodTc (Word.fld t.p1 3 0) + (if Word.fld t.p2 4 4 = 1 then periodTc (Word.fld t.p2 3 0) else 0)

/-- Check one transition with flexible length `f` (R71): 0 allowed, else the TDD_RESULT code. `lat` is L_DL + L_UL of the
service side (R278). -/
def turnCode (toUl : Bool) (f ta lat : Nat) : Nat :=
  if toUl then
    if f < ta + 4096 ∨ f < ta + 2048 + lat then 4 else 0
  else if f + ta < 2048 ∨ f + ta + lat < 4096 then 5 else 0

/-- The first failing transition over the runs of 20 ms, the wrap to the next 20 ms included. -/
def turnsCode (mu ta lat : Nat) (runs : List (Bool × Nat × Nat)) : Nat :=
  match runs with
  | [] => 0
  | first :: _ =>
    let wrapped := runs ++ [(first.1, first.2.1 + 40 * halfSyms mu, first.2.2 + 40 * halfSyms mu)]
    (wrapped.zip (wrapped.drop 1)).foldl (fun c (x : (Bool × Nat × Nat) × (Bool × Nat × Nat)) =>
      if c ≠ 0 then c
      else if x.1.1 = x.2.1 then 0
      else turnCode (x.1.1) (symStart mu x.2.2.1 - symStart mu x.1.2.2) ta lat) 0

/-- Check a pattern for passband `n` (R56, R69, R71): 0 where it is accepted, else TDD_RESULT. DESIGN CHOICE: where several conditions
fail, that of the first failing transition, and it before CFG_SHARE (log entry 104). -/
def Block.tddCheck (b : Block) (n : Nat) (t : TddPat) : Nat :=
  match patPeriods t with
  | none => 3
  | some ps =>
    let len := patTc t
    let syms := ps.foldl (fun (a : Nat) (x : Nat × Nat × Nat) => a + x.2.1 + x.2.2) 0
    if 39321600 % len ≠ 0 ∨ syms = 0 then 3
    else
      let c := turnsCode t.mu (taTc t.taofs) (b.svcLatDl n + b.svcLatUl n) (patRuns ps (39321600 / len) 0)
      if c ≠ 0 then c
      else if b.shareOk (2 * n) && b.shareOk (2 * n + 1) then 0 else 6

/-- A commit of a pattern is refused with a TDD_RESULT code (R69, R79). -/
def Block.tddRefuse (b : Block) (n code : Nat) : Block := (b.setFld (U.pb n) F.PB_STAT_TDD_RESULT code).irq (U.pb n) 17

/-- The direction cues of a pattern over PERIOD, and PERIOD itself (R69, R261): offsets of the changes of direction from an
even-frame start, with the direction. A pattern of one direction gives one cue and PERIOD 0. -/
def patCues (mu len : Nat) (runs : List (Bool × Nat × Nat)) : List (Nat × Bool) × Nat :=
  let rep := Nat.lcm len 983040
  let next := runs.drop 1 ++ runs.take 1
  let changes := (runs.zip next).filterMap fun x =>
    let off := symStart mu x.2.2.1
    if x.1.1 ≠ x.2.1 ∧ off < rep then some (off, !x.2.1) else none
  match changes, runs with
  | [], r :: _ => ([(symStart mu r.2.1, !r.1)], 0)
  | l, _ => (l, rep)

/-- Origin index of the system runtime's cues: the reset origin of engine 0. -/
def runtimeOrigin : Nat := 16386

/-- The context of a direction cue of the runtime at passband `n`. -/
def Block.dirCtx (b : Block) (n x : Nat) : Bool :=
  let c := b.ctx x
  c.action == 0x10 && c.target == U.pb n && c.origin == runtimeOrigin

/-- The runtime takes back direction cues that a newer pattern replaces: those whose action has yet to come are freed, and one
under way does not repeat (R69). -/
def Block.dirDisarm (b : Block) (n : Nat) (l : List Nat) : Block :=
  b.each l fun b x =>
    let c := b.ctx x
    if b.dirCtx n x = false ∨ c.state = Cue.free then b
    else if c.state = Cue.armed ∨ c.state = Cue.staged ∨ c.state = Cue.waiting then (b.slotFree x).freeCtx x
    else b.setCtx x { c with count := 0 }

/-- The runtime arms the direction cues that it has yet to arm, as far as contexts are free. -/
def Block.dirArm (b : Block) (n : Nat) : Block :=
  b.each (b.pbH n).toArm fun b a =>
    match b.allocCtx with
    | none => b
    | some x =>
      let b := b.armInto x { Ctx.init with
        stamp := stampOf a.stamp, target := U.pb n, action := 0x10, ctrl := 1, period := a.period, count := a.count
        args := BitVec.ofNat 256 (bit a.ul), origin := runtimeOrigin, sys := true }
      let h := b.pbH n
      let h := { h with toArm := h.toArm.drop 1 }
      b.setPbH n (if h.pending.isSome ∧ a.old = false then { h with nextCues := h.nextCues ++ [x] } else { h with cues := h.cues ++ [x] })

/-- Cues of the pattern in force end before the new pattern's start: their count becomes that of the occurrences before it. -/
def Block.dirTrim (b : Block) (n at_ ta : Nat) : Block :=
  b.each (b.pbH n).cues fun b x =>
    let c := b.ctx x
    if b.dirCtx n x ∧ c.state ≠ Cue.free ∧ c.period ≠ 0 then
      let s := tcOf c.stamp + (if c.arg 0 1 = 1 then ta else 0)
      let k := if s < at_ then (at_ - 1 - s) / c.period else 0
      b.setCtx x { c with count := if k < 65535 then k else 65535 }
    else b

/-- The direction cues of the pattern in force that have run out, since a commit replaced by this one would have ended them
earlier: the runtime arms them again up to the new pattern's start at air count `at_` (R69). -/
def Block.dirAgain (b : Block) (n at_ : Nat) : List CueAsk :=
  match (b.pbH n).applied with
  | none => []
  | some t =>
    let (l, per) := patCues t.mu (patTc t) (patRuns ((patPeriods t).getD []) (39321600 / patTc t) 0)
    if per = 0 then []
    else l.filterMap fun x =>
      let ta := if x.2 then taTc t.taofs else 0
      let off := (x.1 + per - ta % per) % per
      let next := b.time.air + 1 + (off + per - (b.time.air + 1) % per) % per
      let held := (b.pbH n).cues.any fun y =>
        let c := b.ctx y
        b.dirCtx n y && c.state != Cue.free && c.arg 0 1 == bit x.2 && tcOf c.stamp % per == off
      if held ∨ at_ ≤ next + ta then none
      else some { stamp := next, ul := x.2, period := per, count := (at_ - 1 - next - ta) / per, old := true }

/-- The system runtime takes a commit (R69): the pattern is checked, compiled into direction cues and scheduled for the
first even-frame start at or after both the stamp and the current time + 40 ms. DESIGN CHOICE: the one cue of a pattern of UL alone stands
at its first symbol − T_A, as every cue to UL does (log entry 104). -/
def Block.tddTake (b : Block) (n : Nat) (stamp : Word) : Block :=
  let u := U.pb n
  if stampValid stamp = false then b.tddRefuse n 3
  else
    let t : TddPat := { p1 := b.reg u R.PB_TDD_P1, p2 := b.reg u R.PB_TDD_P2, mu := b.fld u F.PB_CFG_MU, taofs := b.fld u F.PB_CFG_TAOFS }
    let c := b.tddCheck n t
    if c ≠ 0 then b.tddRefuse n c
    else
      let want := max (tcOf stamp) (b.time.air + 40 * msTc)
      let at_ := (want + 39321599) / 39321600 * 39321600
      let ta := taTc t.taofs
      let (l, per) := patCues t.mu (patTc t) (patRuns ((patPeriods t).getD []) (39321600 / patTc t) 0)
      let b := (b.setFld u F.PB_STAT_TDD_RESULT 1).setReg u R.PB_TDD_APPLIED (stampOf at_)
      let b := (b.dirDisarm n (b.pbH n).nextCues).dirTrim n at_ ta
      let asks := b.dirAgain n at_ ++ l.map fun x : Nat × Bool =>
        ({ stamp := at_ + x.1 - (if x.2 then ta else 0), ul := x.2, period := per, count := if per = 0 then 0 else 65535 } : CueAsk)
      let b := b.setPbH n { b.pbH n with pending := some (t, at_), nextCues := [], toArm := asks, heldCommit := none }
      b.dirArm n

/-- A write of PB_TDD_SWITCH: the stamp is kept, a malformed one refuses the commit, and the commit waits for the first lock
(R69, R440). -/
def Block.tddCommit (b : Block) (n : Nat) (stamp : Word) : Block :=
  let u := U.pb n
  let b := b.setReg u R.PB_TDD_SWITCH stamp
  if b.flag U.sync F.SYNC_STAT_EVER_LOCKED then b.tddTake n stamp
  else if stampValid stamp = false then b.tddRefuse n 3
  else (b.setFld u F.PB_STAT_TDD_RESULT 1).setPbH n { b.pbH n with heldCommit := some stamp }

/-- The first lock: the runtime commits every pattern held for it (R440). -/
def Block.tddHeld (b : Block) : Block :=
  b.each (List.range 64) fun b n => match (b.pbH n).heldCommit with
    | some v => (b.setPbH n { b.pbH n with heldCommit := none }).tddTake n v
    | none => b

/-- TDD_COMMIT: a write of PB_TDD_SWITCH. -/
def execTddCommit (who : Who) (n : Nat) (stamp : Word) (s : State) : Host.Outcome State Fault Refusal :=
  s.did fun b => b.wrReg who (U.pb n) R.PB_TDD_SWITCH .both fun b => b.tddCommit n stamp

/-- TDD_PATTERN_APPLY: the pending pattern takes effect at its even-frame start (R69); the runtime disarms the old one's
cues. -/
def execTddPatternApply (n : Nat) (s : State) : Host.Outcome State Fault Refusal :=
  s.did fun b =>
    match (b.pbH n).pending with
    | none => b
    | some (t, at_) => b.atElapsed (b.elapsedOfAir at_) fun b =>
        let h := b.pbH n
        let b := b.dirDisarm n (h.cues.filter fun x => !h.nextCues.contains x)
        let b := b.setPbH n { b.pbH n with applied := some t, pending := none, cues := h.nextCues, nextCues := [] }
        (b.setFld (U.pb n) F.PB_STAT_TDD_RESULT 2).irq (U.pb n) 16

/-- The air count of the last stamp to which a context is armed; none where it repeats without end. -/
def Ctx.lastStamp (c : Ctx) : Option Nat := if c.count = 65535 then none else some (tcOf c.stamp + c.count * c.period)

/-- The latest stamp to which the duty of passband `n` is armed (R261): none where there is no duty, `some none` where it is armed without
end. DESIGN CHOICE: where a change of direction waits for a context, its stamp (log entry 52). -/
def Block.duty (b : Block) (n : Nat) : Option (Option Nat) :=
  let h := b.pbH n
  match h.toArm with
  | a :: t => some (some ((t.map (·.stamp)).foldl min a.stamp))
  | [] =>
    match ((h.cues ++ h.nextCues).filter fun x => b.dirCtx n x && (b.ctx x).state != Cue.free).map fun x => (b.ctx x).lastStamp with
    | [] => none
    | a :: t => some (t.foldl (fun m x => match m, x with | some m, some x => some (max m x) | _, _ => none) a)

/-- The least of the latest stamps of the duties, where one of them ends (R261). -/
def Block.horizonAir (b : Block) : Option Nat :=
  (List.range 64).foldl (fun m n => match b.duty n with
    | some (some s) => some (match m with | some m => min m s | none => s)
    | _ => m) none

/-- DSP_HORIZON as it reads (R261): with every duty armed without end it is a free value, and 0 with no duty at all. -/
def Block.horizon (b : Block) : Word :=
  match b.horizonAir with
  | some s => stampOf s
  | none => if (List.range 64).any fun n => (b.duty n).isSome then Config.horizonEndless else 0

/-- At a tick boundary the runtime goes on arming its duties; RUNTIME_LAG where the horizon has fallen below the next 40 ms (R261). -/
def Block.runtimeTick (b : Block) : Block :=
  let b := b.each (List.range 64) fun b n => if (b.pbH n).toArm.isEmpty then b else b.dirArm n
  let lag := match b.horizonAir with | some s => decide (s < b.time.air + 40 * msTc) | none => false
  let fell := lag && !b.dsp.lagging
  ({ b with dsp := { b.dsp with lagging := lag } }).when fell fun b => (b.corrected U.dsp C.runtimeLag).irq U.dsp 21

/-! ## Direction switching (R70, R72) -/

/-- The steps of a side that goes to receive at air count `t`. -/
def toReceive (t : Nat) (side : Side) (dir : Dir) (tol ctx : Nat) : List DirSched :=
  [(2048, DirStep.rampDown), (1792, .silent), (1536, .swRx), (0, .rxOpen)].map fun x =>
    { due := t - x.1, side := side, step := x.2, dir := dir, tol := tol, ctx := ctx }

/-- The steps of a side that goes to transmit at air count `t`. -/
def toTransmit (t : Nat) (side : Side) (dir : Dir) (tol ctx : Nat) : List DirSched :=
  [(4096, DirStep.rxGateSwTx), (2304, .txBegin), (512, .paHigh), (256, .txOn), (0, .full)].map fun x =>
    { due := t - x.1, side := side, step := x.2, dir := dir, tol := tol, ctx := ctx }

/-- Insert a direction step by its instant, after those of the same instant. -/
def insertDir (x : DirSched) : List DirSched → List DirSched
  | [] => [x]
  | y :: t => if x.due < y.due then x :: y :: t else y :: insertDir x t

/-- Each admitted head of passband `n` is sent DIR for a switch at stamp `sAir`, with the T of its own latencies (R70, R278). -/
def Block.dirSend (b : Block) (n : Nat) (toUl : Bool) (sAir : Nat) : Block :=
  let lat := latencyTc (b.fld (U.pb n) F.PB_CFG_RATE)
  b.each ((b.headSlots (2 * n) ++ b.headSlots (2 * n + 1)).foldl (fun l x => if l.contains x then l else l ++ [x]) []) fun b x =>
    if b.admitted x.1 then
      b.sendHd (.dir x.1 x.2 toUl (if toUl then sAir - (lat + b.fld (U.hd x.1) F.HD_LAT_D_UL)
        else sAir + lat + b.fld (U.hd x.1) F.HD_LAT_D_DL))
    else b

/-- 64 µs in whole Tc, rounded up (R271). -/
def dirLeadTc : Nat := 125830

/-- Tc before the earliest T of a switch, less the switch's own 4,096, from which its DIR may be sent at a boundary: 64 µs and the longest
tick (R49, R271). -/
def dirWindowTc : Nat := dirLeadTc + 24576

/-- At a tick boundary the heads are sent DIR for every direction cue that comes near (R271): at the last boundary from which it is still
64 µs to T − 4,096, or at the first one after a late arming. -/
def Block.dirEarly (b : Block) : Block :=
  b.each (Store.view b.ctxs) fun b y =>
    let (x, c) := y
    let n := c.target - 0x0080
    let ul := c.arg 0 1 % 2 == 1
    let s := tcOf c.stamp
    let t := if ul then s - b.svcLatUl n else s + latencyTc (b.fld (U.pb n) F.PB_CFG_RATE)
    if c.action = 0x10 ∧ (c.state = Cue.armed ∨ c.state = Cue.staged ∨ c.state = Cue.waiting) ∧ b.flag (U.pb n) F.PB_CFG_DUPLEX ∧
        (b.pbHeads n).isEmpty = false ∧ (b.pbH n).dirSent.contains (x, s) = false ∧ t ≤ b.time.air + 4096 + dirWindowTc then
      let b := b.dirSend n ul s
      b.setPbH n { b.pbH n with dirSent := (x, s) :: (b.pbH n).dirSent.filter fun z => z.1 != x }
    else b

/-- A direction cue at stamp `sAir` schedules the steps of both sides (R70); the heads are sent DIR if they have not been yet. -/
def Block.dirCue (b : Block) (n : Nat) (toUl : Bool) (sAir tol ctx : Nat) : Block :=
  if b.flag (U.pb n) F.PB_CFG_DUPLEX = false then b else
  let new := if toUl then toTransmit sAir .donor .ul tol ctx ++ toReceive (sAir - b.svcLatUl n) .service .ul tol ctx
    else toReceive sAir .donor .dl tol ctx ++ toTransmit (sAir + b.svcLatDl n) .service .dl tol ctx
  let b := if (b.pbH n).dirSent.contains (ctx, sAir) then b else b.dirSend n toUl sAir
  let h := b.pbH n
  let rest := fun (l : List Nat) => l.filter (· ≠ ctx)
  b.setPbH n { h with
    steps := new.foldl (fun l x => insertDir x l) h.steps, dirLate := rest h.dirLate, dirExpired := rest h.dirExpired
    dirFail := rest h.dirFail, dirSent := h.dirSent.filter fun z => z.1 != ctx }

/-- The steps that expire beyond the cue's tolerance (R72): switch strobes to transmit, STANDBY to TX, PA strobes high and the
ramp-up. Every other step executes, late if need be. -/
def expires (s : DirStep) : Bool :=
  match s with | .rxGateSwTx | .txBegin | .paHigh | .txOn => true | _ => false

/-- The first step of a side in a direction cue. -/
def firstStep (s : DirStep) : Bool := match s with | .rampDown | .rxGateSwTx => true | _ => false

/-- Add to a list what it does not hold. -/
def addOnce (x : Nat) (l : List Nat) : List Nat := if l.contains x then l else l ++ [x]

/-- The TXCs at which passband `n` transmits on a side. -/
def Block.sideTxcs (b : Block) (n : Nat) (side : Side) : List Nat :=
  let m := match side with | .donor => 2 * n + 1 | .service => 2 * n
  if b.pbdOn m then (b.txSlots m).filterMap fun x => match x.2 with | .txc k => some k | _ => none else []

/-- A direction step takes place at its side (R70). -/
def Block.dirStepDo (b : Block) (n : Nat) (x : DirSched) : Block :=
  let h := b.pbH n
  let side := h.side x.side
  let txcs := (b.sideTxcs n x.side).filter fun k => b.ownState (U.txc k) == St.active
  match x.step with
  | .rampDown => b.setPbH n (h.setSide x.side { side with rxOpen := false })
  | .silent =>
    let b := b.setPbH n (h.setSide x.side { side with demand := false, dir := .none })
    b.each txcs fun b k =>
      if b.txcDemand k then b
      else if b.fld (U.txc k) F.TXC_STAT_CH_STATE = 3 ∨ b.fld (U.txc k) F.TXC_STAT_CH_STATE = 4 then
        ((b.setTxcCh k 1).setTxcH k { b.txcH k with out := false, paHigh := false, seq := [], waitFrom := none }).txcRefresh b.t k
      else b.txcRefresh b.t k
  | .swRx => b.each txcs fun b k => if b.txcDemand k then b else b.setTxcH k { b.txcH k with swTx := false }
  | .rxOpen => b.setPbH n (h.setSide x.side { side with dir := x.dir, rxOpen := true })
  | .rxGateSwTx =>
    let b := b.setPbH n (h.setSide x.side { side with rxOpen := false, dir := .none })
    b.each txcs fun b k => b.setTxcH k { b.txcH k with swTx := true }
  | .txBegin =>
    let b := b.setPbH n (h.setSide x.side { side with demand := true })
    b.each txcs fun b k =>
      let b := b.txcRefresh b.t k
      if b.fld (U.txc k) F.TXC_STAT_CH_STATE = 1 ∧ b.muteSrc k ≠ 0 then b.txcHeldOff k b.t else b
  | .paHigh => b.each txcs fun b k =>
      if b.fld (U.txc k) F.TXC_STAT_CH_STATE = 1 ∧ b.kilnRamps = false then
        (if b.muteSrc k = 0 then b.setTxcH k { b.txcH k with paHigh := true } else b.txcHeldOff k b.t) else b
  | .txOn => b.each txcs fun b k =>
      if b.fld (U.txc k) F.TXC_STAT_CH_STATE = 1 ∧ b.kilnRamps = false then
        (if b.muteSrc k = 0 then (b.setTxcCh k 3).setTxcH k { b.txcH k with out := true, emitted := true } else b.txcHeldOff k b.t) else b
  | .full => b.setPbH n (h.setSide x.side { side with dir := x.dir })

/-- A step of a direction cue expires (R72): the side stays gated until its next direction cue. The gate of the old direction's
receive input closes all the same. -/
def Block.dirExpire (b : Block) (n : Nat) (x : DirSched) : Block :=
  let h := b.pbH n
  let side := h.side x.side
  let side := { side with demand := false, dir := .none, shut := true, rxOpen := side.rxOpen && x.step != .rxGateSwTx }
  let b := b.setPbH n ({ h with dirExpired := addOnce x.ctx h.dirExpired }.setSide x.side side)
  b.each (b.sideTxcs n x.side) fun b k =>
    if b.txcDemand k then b else b.setTxcH k { b.txcH k with paHigh := false, swTx := false }

/-- The next direction step of passband `n` is reached: it executes, late if need be, or expires beyond the cue's
tolerance, and so do the steps toward transmit after it (R72). -/
def Block.dirSeqStep (b : Block) (n : Nat) : Block :=
  match (b.pbH n).steps with
  | [] => b
  | x :: rest => b.atElapsed (b.elapsedOfAir x.due) fun b =>
      let h := { b.pbH n with steps := rest }
      let h := if firstStep x.step then h.setSide x.side { h.side x.side with shut := false, ctx := x.ctx } else h
      let late := b.time.air - x.due
      if expires x.step ∧ (x.tol < late ∨ (h.side x.side).shut = true) then (b.setPbH n h).dirExpire n x
      else
        let b := b.setPbH n { h with dirLate := if 0 < late then addOnce x.ctx h.dirLate else h.dirLate }
        if x.step = .full ∧ (h.side x.side).shut = true then b else b.dirStepDo n x

/-- DIRECTION_SEQ_STEP: a timed step of a side's switching sequence is reached. -/
def execDirectionSeqStep (n : Nat) (s : State) : Host.Outcome State Fault Refusal := s.did fun b => b.dirSeqStep n

/-! ## Codebooks and beams (R62, R63) -/

/-- Index of a codebook word: passband, side, entry, word. -/
def cbIndex (n side entry word : Nat) : Nat := ((n * 2 + side) * 1024 + entry) * 4 + word

/-- PBD_BEAM as it holds for the stream at PBD `m`'s ports of head `h` (R278): a staged BEAM applies there D_DL before its stamp, on the
sides whose beams are on. -/
def Block.headBeam (b : Block) (m h : Nat) : Word :=
  let d := b.fld (U.hd h) F.HD_LAT_D_DL
  let due := (Store.view b.ctxs).filter fun x =>
    x.2.action == 0x11 && x.2.target == U.pbd m && x.2.state == Cue.staged && decide (tcOf x.2.stamp ≤ b.time.air + d)
  let last := due.foldl (fun o x => match o with
    | some y => if tcOf y.stamp ≤ tcOf x.2.stamp then some x.2 else o
    | none => some x.2) (none : Option Ctx)
  let w := b.reg (U.pbd m) R.PBD_BEAM
  match last with
  | none => w
  | some c =>
    let v : Word := BitVec.ofNat 64 (c.arg 0 8)
    let w := if b.flag (U.pb (pbOf m)) F.PB_CFG_BEAM_DN then Word.setFld w 9 0 (Word.fld v 9 0) else w
    if b.flag (U.pb (pbOf m)) F.PB_CFG_BEAM_SV then Word.setFld w 25 16 (Word.fld v 25 16) else w

/-- An entry of a side's codebook is current for PBD `m`: at its local ports, or at a head port of the service side (R63, R278). -/
def Block.beamUses (b : Block) (m side entry : Nat) : Bool :=
  if side = 1 then
    b.fld (U.pbd m) F.PBD_BEAM_SV == entry || (b.pbHeads (pbOf m)).any fun h => Word.fld (b.headBeam m h) 25 16 == entry
  else b.fld (U.pbd m) F.PBD_BEAM_DN == entry

/-- A write of PB_CB_DATA (R63, R77): ignored with CB_BUSY for an entry current at either PBD, else stored; the address
advances with AUTOINC where the write includes bits [63:32]. -/
def Block.cbWrite (b : Block) (μ : Mem) (n : Nat) (half : Half) (v : Word) : Block :=
  let u := U.pb n
  let side := b.fld u F.PB_CB_ADDR_SIDE
  let entry := b.fld u F.PB_CB_ADDR_ENTRY
  let word := b.fld u F.PB_CB_ADDR_WORD
  if b.beamUses (2 * n) side entry ∨ b.beamUses (2 * n + 1) side entry then
    (b.setFlag u F.PB_STAT_CB_BUSY true).irq u 18
  else
    let i := cbIndex n side entry word
    let b := b.put64 .cb i (halfMerge half (μ.rd64 .cb i) v)
    if b.flag u F.PB_CB_ADDR_AUTOINC && halfHi half then
      let b := b.setFld u F.PB_CB_ADDR_WORD (word + 1)
      if word = 3 then b.setFld u F.PB_CB_ADDR_ENTRY (entry + 1) else b
    else b

/-- PB_CB_DATA_WRITE: a write of PB_CB_DATA. -/
def execPbCbDataWrite (who : Who) (n : Nat) (half : Half) (v : Word) (s : State) : Host.Outcome State Fault Refusal :=
  s.done fun μ b => b.wrReg who (U.pb n) R.PB_CB_DATA half fun b => b.cbWrite μ n half v

/-- A beam change of one side (R63): ignored with BEAM_REJ where the side's beams are off. True where it was taken. -/
def Block.beamSide (b : Block) (m : Nat) (f on : Fld) (e : Nat) : Block × Bool :=
  let u := U.pbd m
  if b.fld u f = e then (b, true)
  else if b.flag (U.pb (pbOf m)) on then (b.setFld u f e, true)
  else ((b.setFlag u F.PBD_STAT_BEAM_REJ true).irq u 21, false)

/-- A change of PBD_BEAM (R63). -/
def Block.beamChange (b : Block) (m : Nat) (half : Half) (v : Word) : Block × Bool :=
  let v := halfMerge half (b.reg (U.pbd m) R.PBD_BEAM) v
  let (b, x) := b.beamSide m F.PBD_BEAM_DN F.PB_CFG_BEAM_DN (Word.fld v 9 0)
  let (b, y) := b.beamSide m F.PBD_BEAM_SV F.PB_CFG_BEAM_SV (Word.fld v 25 16)
  (b, x && y)

/-- BEAM_WRITE: a write of PBD_BEAM. -/
def execBeamWrite (who : Who) (m : Nat) (half : Half) (v : Word) (s : State) : Host.Outcome State Fault Refusal :=
  s.did fun b => b.wrReg who (U.pbd m) R.PBD_BEAM half fun b => (b.beamChange m half v).1

/-! ## Filter banks (R60, R61) -/

/-- FBANK_WRITE: a write of PBD_CTRL.FBANK; the switch follows at the next tick boundary. -/
def execFbankWrite (who : Who) (m : Nat) (bank : Bool) (s : State) : Host.Outcome State Fault Refusal :=
  s.did fun b => b.wr who (U.pbd m) F.PBD_CTRL_FBANK fun b => b.setFlag (U.pbd m) F.PBD_CTRL_FBANK bank

/-- A bank switch takes effect. -/
def Block.fbankSwitch (b : Block) (m : Nat) : Block :=
  b.setFlag (U.pbd m) F.PBD_STAT_FBANK_ACT (b.flag (U.pbd m) F.PBD_CTRL_FBANK)

/-- A filter-bank cue switches at its stamp (R61). -/
def Block.fbankCue (b : Block) (m : Nat) (bank : Bool) : Block := (b.setFlag (U.pbd m) F.PBD_CTRL_FBANK bank).fbankSwitch m

/-- A write to the bank in use of a PBD in service is ignored and sets FILT_BUSY (R61). -/
def Block.filtBusy (b : Block) (m : Nat) : Block := (b.setFlag (U.pbd m) F.PBD_STAT_FILT_BUSY true).irq (U.pbd m) 20

/-- The addressed bank is the one in use while PBD `m` is in service. -/
def Block.bankBusy (b : Block) (m : Nat) (bank : Bool) : Bool := b.pbdOn m && b.flag (U.pbd m) F.PBD_STAT_FBANK_ACT == bank

/-- A write of PBD_FCOEF_DATA (R61, R78). -/
def Block.fcoefWrite (b : Block) (m : Nat) (v : Word) : Block :=
  let u := U.pbd m
  if b.bankBusy m (b.flag u F.PBD_FCOEF_ADDR_BANK) then b.filtBusy m
  else
    let i := b.fld u F.PBD_FCOEF_ADDR_INDEX
    let b := b.put64 .fcoef (m * 512 + b.fld u F.PBD_FCOEF_ADDR_BANK * 256 + i) (BitVec.ofNat 64 (Word.fld v 17 0))
    b.setFld u F.PBD_FCOEF_ADDR_INDEX (i + 1)

/-- FCOEF_WRITE: a write of PBD_FCOEF_DATA. DESIGN CHOICE: one of bits [63:32] alone, which hold no coefficient, neither writes nor advances
INDEX (log entry 104). -/
def execFcoefWrite (who : Who) (m : Nat) (half : Half) (v : Word) (s : State) : Host.Outcome State Fault Refusal :=
  s.did fun b =>
    if halfHas half F.PBD_FCOEF_DATA_COEF then b.wrReg who (U.pbd m) R.PBD_FCOEF_DATA half fun b => b.fcoefWrite m v else b

/-! ## Retune (R75) -/

/-- A retune is requested now: a running sequence is not disturbed, and the request is held. -/
def Block.retuneAsk (b : Block) (m : Nat) : Block :=
  let h := b.pbdH m
  if b.pbdOn m = false then b
  else match h.retune with
    | .idle | .asked _ => b.setPbdH m { h with retune := .asked b.t, cueNco := none }
    | _ => b.setPbdH m { h with heldRetune := some b.t, cueNco := none }

/-- A retune with the words unchanged is requested now, for a realign or a join (R280): one already asked for serves if its T0 is this
event's, else it and one that runs are followed by another. -/
def Block.retuneSame (b : Block) (m : Nat) : Block :=
  let h := b.pbdH m
  if b.pbdOn m = false then b
  else match h.retune with
    | .idle => b.setPbdH m { h with retune := .asked b.t }
    | .asked r =>
      -- the one asked for starts too early for this event only where its boundary comes first
      if r + 256 ≤ b.time.tickEnd ∧ b.time.tickEnd < b.t + 256 then b.setPbdH m { h with heldRetune := some b.t } else b
    | _ => b.setPbdH m { h with heldRetune := some b.t }

/-- A write of an NCO word (R75). -/
def Block.ncoWrite (b : Block) (m : Nat) (tx : Bool) (half : Half) (v : Word) : Block :=
  let f := if tx then F.PBD_NCO_TX_WORD else F.PBD_NCO_RX_WORD
  let old := b.reg (U.pbd m) f.off
  (b.setFld (U.pbd m) f (Word.fld (halfMerge half old v) 47 0)).retuneAsk m

/-- NCO_WRITE: a write of PBD_NCO_RX or PBD_NCO_TX. -/
def execNcoWrite (who : Who) (m : Nat) (tx : Bool) (half : Half) (v : Word) (s : State) : Host.Outcome State Fault Refusal :=
  s.did fun b => b.wrReg who (U.pbd m) (if tx then R.PBD_NCO_TX else R.PBD_NCO_RX) half fun b => b.ncoWrite m tx half v

/-- A retune starts at T0 = now, with the words that stand there: a request that comes later does not disturb it (R75). -/
def Block.retuneStart (b : Block) (m : Nat) : Block :=
  (b.setPbdH m { b.pbdH m with
    retune := .ramp b.t
    ncoNext := some (b.fld (U.pbd m) F.PBD_NCO_RX_WORD, b.fld (U.pbd m) F.PBD_NCO_TX_WORD) }).setFlag (U.pbd m) F.PBD_STAT_RETUNING true

/-- A retune cue with its words: T0 is now, or the retune is held behind a running one (R75). -/
def Block.retuneCue (b : Block) (m rx tx : Nat) : Block :=
  if b.pbdOn m = false then (b.setFld (U.pbd m) F.PBD_NCO_RX_WORD rx).setFld (U.pbd m) F.PBD_NCO_TX_WORD tx
  else
    let h := b.pbdH m
    match h.retune with
    | .idle | .asked _ =>
      (((b.setFld (U.pbd m) F.PBD_NCO_RX_WORD rx).setFld (U.pbd m) F.PBD_NCO_TX_WORD tx).setPbdH m
        { h with cueNco := none }).retuneStart m
    | _ => b.setPbdH m { h with heldRetune := some b.t, cueNco := some (rx, tx) }

/-- RETUNE_START: the first tick boundary at least 256 Tc after the request starts the retune. -/
def execRetuneStart (m : Nat) (s : State) : Host.Outcome State Fault Refusal :=
  s.did fun b =>
    match (b.pbdH m).retune with
    | .asked r =>
      if b.t = b.time.tickStart ∧ r + 256 ≤ b.t then
        let b := match (b.pbdH m).cueNco with
          | none => b
          | some (rx, tx) => (b.setFld (U.pbd m) F.PBD_NCO_RX_WORD rx).setFld (U.pbd m) F.PBD_NCO_TX_WORD tx
        (b.setPbdH m { b.pbdH m with cueNco := none }).retuneStart m
      else b
    | _ => b

/-- RETUNE_NCO_SWITCH: at T0 + 256 the output is silent, the new words apply and the pipeline is cleared. -/
def execRetuneNcoSwitch (m : Nat) (s : State) : Host.Outcome State Fault Refusal :=
  s.did fun b =>
    match (b.pbdH m).retune with
    | .ramp t0 => b.atElapsed (t0 + 256) fun b =>
        let w := (b.pbdH m).ncoNext.getD (b.fld (U.pbd m) F.PBD_NCO_RX_WORD, b.fld (U.pbd m) F.PBD_NCO_TX_WORD)
        b.alignApply.setPbdH m { b.pbdH m with
          retune := .refill t0, ncoRx := w.1, ncoTx := w.2, ncoNext := none, osc := OscH.init }
    | _ => b

/-- RETUNE_REFILLED: at T0 + 256 + L the pipeline is refilled, the STAB loop receives margin unknown under the cold cap, and the
canceller lanes re-train (R75, R131). -/
def execRetuneRefilled (m : Nat) (s : State) : Host.Outcome State Fault Refusal :=
  s.did fun b =>
    match (b.pbdH m).retune with
    | .refill t0 =>
      let lat := latencyTc (b.rateOf m)
      b.atElapsed (t0 + 256 + lat) fun b =>
        ((b.setPbdH m { b.pbdH m with retune := .rise t0 }).unkSet m
          { cause := 8, lane := 0, from_ := t0 + 512 + lat, cold := true, pub := false }).retrain m
    | _ => b

/-- RETUNE_DONE: at T0 + 512 + L the ramp to cold gain ends; a ramp starts, and a held retune waits for its boundary. -/
def execRetuneDone (m : Nat) (s : State) : Host.Outcome State Fault Refusal :=
  s.did fun b =>
    match (b.pbdH m).retune with
    | .rise t0 => b.atElapsed (t0 + 512 + latencyTc (b.rateOf m)) fun b =>
        let u := U.pbd m
        let h := b.pbdH m
        let b := b.setPbdH m { h with
          retune := (match h.heldRetune with | some r => .asked (max r b.t) | none => .idle), heldRetune := none }
        ((b.setFlag u F.PBD_STAT_RETUNING false).irq u 18).rampStart m
    | _ => b

/-! ## The start entry (R67) -/

/-- EXT_INIT_SETTLED: SETTLE Tc after the start entry's sequence has ended, the output gate opens. -/
def execExtInitSettled (m : Nat) (s : State) : Host.Outcome State Fault Refusal :=
  s.did fun b =>
    match (b.pbdH m).extSettle with
    | none => b
    | some t => b.atElapsed t fun b => b.setPbdH m { b.pbdH m with extGate := false, extSettle := none }

end Sys2Proof.Machine
end

