-- ==== Sys2Proof/Machine/Converters.lean ====
section
/-! DEFINITION.
Direct-RF converters and front-end control (chapter 04): overrange, background calibration and slice repair, channel states,
synthesisers, strobes, RFFE buses and sequences, observation receivers. -/
namespace Sys2Proof.Machine

/-! ## Receive channels (R81 to R85) -/

/-- An instance of PBD `m` carries INPUT_CLIP from now for 160 of its own samples (R73). -/
def Block.clipInst (b : Block) (m : Nat) : Block :=
  let u := U.pbd m
  let b := if b.flag u F.PBD_STAT_INPUT_CLIP then b else (b.setFlag u F.PBD_STAT_INPUT_CLIP true).irq u 16
  let b := if (b.pbdH m).clippedTick then b else b.incWrap u F.PBD_STAT_CLIP_TICKS 1
  b.setPbdH m { b.pbdH m with clipUntil := some (b.t + 160 * sampleTc (b.rateOf m)), clippedTick := true }

/-- Longest time after an overrange sample in which an output sample carries INPUT_CLIP: 160 samples of the lowest rate (R73). -/
def clipSpan : Nat := 160 * 64

/-- The runs of overrange samples with one more at elapsed `t`. A run goes on within the shortest clip time, so that runs and samples
flag the same; runs that no longer reach into an interval of the cellar or an output period of a chain are dropped. -/
def ovrAdd (t : Nat) (l : List (Nat × Nat)) : List (Nat × Nat) :=
  match l with
  | [] => [(t, t)]
  | x :: r => if t ≤ x.2 + 640 then (x.1, t) :: r else (t, t) :: x :: r.filter fun y => t ≤ y.2 + clipSpan + spanKeep

/-- An overrange sample at RXC `k` (R82, R73): nothing follows outside RX. DESIGN CHOICE: each overrange sample sets OVR, so that one
cleared within an episode is set again by the next sample (log entry 104). -/
def Block.overrange (b : Block) (k : Nat) : Block :=
  let u := U.rxc k
  if b.fld u F.RXC_STAT_CH_STATE ≠ 2 then b
  else
    let h := b.rxcH k
    let fresh := match h.lastOvr with | none => true | some l => decide (l + 1024 < b.t)
    let b := b.when fresh fun b => (b.incSat u F.RXC_OVR_CNT_COUNT 1).setReg u R.RXC_OVR_STAMP b.now
    let b := if b.flag u F.RXC_STAT_OVR then b else (b.setFlag u F.RXC_STAT_OVR true).irq u 16
    let b := (b.setFlag u F.RXC_STAT_OVR_NOW true).setRxcH k { h with lastOvr := some b.t, ovrs := ovrAdd b.t h.ovrs }
    b.each h.insts fun b x => b.clipInst x.1

/-- RXC_OVERRANGE: a converter sample at +2,047 or −2,048. -/
def execRxcOverrange (k : Nat) (s : State) : Host.Outcome State Fault Refusal := s.did fun b => b.overrange k

/-- RXC_OVR_EPISODE_END: 1,024 Tc after the last overrange sample OVR_NOW clears. -/
def execRxcOvrEpisodeEnd (k : Nat) (s : State) : Host.Outcome State Fault Refusal :=
  s.did fun b =>
    match (b.rxcH k).lastOvr with
    | none => b
    | some l => b.atElapsed (l + 1024) fun b => b.setFlag (U.rxc k) F.RXC_STAT_OVR_NOW false

/-- A renewed correction is within the limits of R84: offset ±32 codes (1/16 code), gain ±3 % (2^-20), skew ±2 ps (fs). -/
def corrOk (c : Word) : Bool :=
  let o := sext 16 (Word.fld c 15 0)
  let g := sext 16 (Word.fld c 31 16)
  let s := sext 16 (Word.fld c 47 32)
  decide (o.natAbs ≤ 512 ∧ g.natAbs ≤ 31457 ∧ s.natAbs ≤ 2000)

/-- Slice `j` of RXC `k` fails (R84). -/
def Block.sliceFail (b : Block) (k j : Nat) : Block :=
  let u := U.rxc k
  let was := b.fld u F.RXC_SLICE_FAILED
  if (was >>> j) % 2 = 1 then b
  else
    let b := (b.setFld u F.RXC_SLICE_FAILED (was ||| (1 <<< j))).irq u 17
    if was = 0 then
      let b := b.setFld u F.RXC_SLICE_OUT j
      (((b.setFlag u F.RXC_STAT_CAL_FROZEN true).irq u 18).corrected u C.sliceSpared)
    else b.contained u C.sliceFail

/-- A handover of the background calibration (R83): the slice that was out returns with its renewed correction, and the next
one leaves; or the slice fails (R84). ROT counts each wrap from slice 16 to 0. -/
def Block.handover (b : Block) (k : Nat) (corr : Word) (selfOk : Bool) : Block :=
  let u := U.rxc k
  let h := b.rxcH k
  let ch := b.fld u F.RXC_STAT_CH_STATE
  if (ch ≠ 1 ∧ ch ≠ 2) ∨ h.turnTicks < 984 ∨ b.t ≠ b.time.tickStart ∨ b.flag u F.RXC_CFG_BG_HOLD ∨
      b.flag u F.RXC_STAT_CAL_FROZEN then b
  else
    let j := b.fld u F.RXC_SLICE_OUT
    if corrOk corr && selfOk then
      let b := b.setRxcH k { h with turnTicks := 0, corr := Store.set (0 : Word) h.corr j (corr &&& 0xFFFFFFFFFFFF#64) }
      let b := b.setFld u F.RXC_SLICE_OUT ((j + 1) % 17)
      if j = 16 then b.incWrap u F.RXC_SLICE_ROT 1 else b
    else b.sliceFail k j

/-- BG_CAL_HANDOVER: the turn of the slice that is out ends with its renewed correction and self-check. -/
def execBgCalHandover (k : Nat) (corr : Word) (selfOk : Bool) (s : State) : Host.Outcome State Fault Refusal :=
  s.did fun b => b.handover k corr selfOk

/-- RXC_PIPELINE_FILLED: 1,024 Tc after the enable the channel enters RX (R87). -/
def execRxcPipelineFilled (k : Nat) (s : State) : Host.Outcome State Fault Refusal :=
  s.did fun b =>
    match (b.rxcH k).fillDue with
    | none => b
    | some t => b.atElapsed t fun b =>
        (b.setRxcH k { b.rxcH k with fillDue := none, rxFrom := some b.t }).setFld (U.rxc k) F.RXC_STAT_CH_STATE 2

/-- MUTE_SEQ_STEP: the next timed step of TXC `k` is reached (R70, R87, R88). -/
def execMuteSeqStep (k : Nat) (s : State) : Host.Outcome State Fault Refusal := s.did fun b => b.txcSeqStep k

/-! ## Calibration restore (R84, R90) -/

/-- Place of a channel's entry in the converter calibration store: 17 slices or one DAC trim word, and at 63 its presence. -/
def calEntry (u j : Nat) : Nat := u * 64 + j

/-- A channel is restored or calibrated: it enters STANDBY with its unit READY; a unit calibrated in service keeps its
state. -/
def Block.chanReady (b : Block) (u : Nat) : Block :=
  if b.ownState u = St.off then
    (b.setFld u F.TXC_STAT_CH_STATE 1).setState u St.ready
  else b

/-- The physical slices of a mask, in order. -/
def maskBits (n mask : Nat) : List Nat := (List.range n).filter fun j => (mask >>> j) % 2 == 1

/-- The slices of an RXC that fail the check of R84: those of `bad`, and those whose correction of a list exceeds a limit. -/
def badSlices (corr : List Word) (bad : Nat) : Nat :=
  (List.range 17).foldl (fun a j => if (bad >>> j) % 2 = 1 ∨ corrOk (corr.getD j 0) = false then a + (1 <<< j) else a) 0

/-- The corrections of a channel replaced by those of a list; `bad` marks the slices that fail their check. -/
def Block.setCorr (b : Block) (u : Nat) (corr : List Word) (bad : Nat) : Block :=
  if kindOf u = 0x02 then
    let k := unitIndex u
    let b := b.setRxcH k { b.rxcH k with
      corr := (List.range 17).foldl (fun (a : Store Word) j =>
        if (bad >>> j) % 2 = 1 then a else Store.set (0 : Word) a j (corr.getD j 0 &&& 0xFFFFFFFFFFFF#64)) (b.rxcH k).corr }
    b.each (maskBits 17 bad) fun b j => b.sliceFail k j
  else b.setTxcH (unitIndex u) { b.txcH (unitIndex u) with trim := corr.headD 0 }

/-- Due instant of a channel's restore, and of its foreground calibration. -/
def Block.restoreDue (b : Block) (u : Nat) : Option Nat :=
  if kindOf u = 0x02 then (b.rxcH (unitIndex u)).restoreDue else (b.txcH (unitIndex u)).restoreDue
def Block.calDue (b : Block) (u : Nat) : Option Nat :=
  if kindOf u = 0x02 then (b.rxcH (unitIndex u)).calDue else (b.txcH (unitIndex u)).calDue
def Block.setRestoreDue (b : Block) (u : Nat) (t : Option Nat) : Block :=
  if kindOf u = 0x02 then b.setRxcH (unitIndex u) { b.rxcH (unitIndex u) with restoreDue := t }
  else b.setTxcH (unitIndex u) { b.txcH (unitIndex u) with restoreDue := t }
def Block.setCalDue (b : Block) (u : Nat) (t : Option Nat) : Block :=
  if kindOf u = 0x02 then b.setRxcH (unitIndex u) { b.rxcH (unitIndex u) with calDue := t }
  else b.setTxcH (unitIndex u) { b.txcH (unitIndex u) with calDue := t }

/-- A channel's calibration restore completes (R90): the corrections of the store, or the fallback to a foreground
calibration of at most 20 ms. `bad` marks the slices that fail their self-check, beside those whose stored correction exceeds a
limit of R84, `trimBad` a DAC trim that fails. -/
def Block.restoreDone (b : Block) (μ : Mem) (u bad : Nat) (trimBad : Bool) : Block :=
  let b := b.setRestoreDue u none
  let present := μ.rd .calStore (calEntry u 63) != 0
  let corr := (List.range 17).map fun j => μ.rd64 .calStore (calEntry u j)
  let bad := if kindOf u = 0x02 then badSlices corr bad else 0
  let b := b.when present fun b => b.setCorr u corr bad
  if present && bad == 0 && !trimBad then b.chanReady u
  else if b.ownState u = St.fenced then b
  else
    let b := b.when (kindOf u == 0x02) fun b => b.irq u 19
    let b := b.corrected u C.calRestore
    let (b, i) := b.takeFree
    b.setCalDue u (some (b.t + Config.calTime i % (20 * msTc + 1)))

/-! ## Synthesisers (R93 to R97) -/

/-- A synthesiser word is valid: 2 GHz ≤ word × 122.88 MHz / 2^24 ≤ 14 GHz (R93). -/
def syWordOk (w : Nat) : Bool := 2000000000 * 2 ^ 24 ≤ w * 122880000 && w * 122880000 ≤ 14000000000 * 2 ^ 24

/-- Sum of the four sensors of CC `c`, in units of 1/16 °C (R94). -/
def Block.ccTemp (b : Block) (c : Nat) : Int :=
  (List.range 4).foldl (fun (a : Int) j => a + b.sfld (U.ts (24 + 4 * c + j)) F.TS_READ_FILT) 0

/-- LOCK_MAX of synthesiser `k` in Tc, rounded up. -/
def Block.lockMax (b : Block) (k : Nat) : Nat := (b.fld (U.sy k) F.SY_CFG_LOCK_MAX * 196608 + 99) / 100

/-- A unit is powered and free to act: neither OFF, nor FENCED, nor FAILED. -/
def Block.usable (b : Block) (u : Nat) : Bool :=
  b.ownState u != St.off && b.ownState u != St.fenced && b.ownState u != St.failed

/-- A hop of synthesiser `k` to entry `e` starts now (R94, R95): warm where the entry is VALID and the chiplet within
±30 °C of it. Bound TXCs mute with their ramp from now, and bound RXCs are gated. -/
def Block.hopRun (b : Block) (k e : Nat) : Block :=
  let u := U.sy k
  let x := Store.get SyCal.init (b.syH k).cal e
  let d := b.ccTemp (k / 2) - 64 * x.temp
  let warm := x.valid && decide (-1920 ≤ d) && decide (d ≤ 1920)
  let b := b.setSyH k { b.syH k with hop := some (e, b.t, !warm), wasLocked := b.fld u F.SY_STAT_STATE == 1, relock := none }
  let b := ((b.setFld u F.SY_STAT_STATE (if warm then 2 else 3)).setFld u F.SY_STAT_ENTRY e).setFld u F.SY_FREQ_WORD x.word
  (b.rxcBound k).txcRefreshAt b.t

/-- The word of entry `e` of synthesiser `k` is valid. -/
def Block.hopWordOk (b : Block) (k e : Nat) : Bool := syWordOk (Store.get SyCal.init (b.syH k).cal e).word

/-- Entry `e` waits behind the hop in progress. -/
def Block.hopQueue (b : Block) (k e : Nat) : Block :=
  (b.setSyH k { b.syH k with queued := some e }).setFlag (U.sy k) F.SY_STAT_QUEUED true

/-- A request of class `c` and origin index `i` takes its place among those of its Tc, in the order of R255; a later one of the
same place stands after an earlier one. -/
def insertAsk (c i e : Nat) : List (Nat × Nat × Nat) → List (Nat × Nat × Nat)
  | [] => [(c, i, e)]
  | x :: t => if rankedBefore c i x.1 x.2.1 then (c, i, e) :: x :: t else x :: insertAsk c i e t

/-- A hop is asked for (R94, R95): refused for an invalid word, queued behind a hop in progress, else started. Of the requests of
one Tc the first in the order of R255 starts, and the last one waits. True where it was not refused. -/
def Block.hopAsk (b : Block) (who : Who) (k e : Nat) : Block × Bool :=
  let u := U.sy k
  let h := b.syH k
  if b.usable u = false then (b, false)
  else if b.hopWordOk k e = false then (b.corrected u C.syRange, false)
  else
    let l := insertAsk (whoClass who) (b.whoIdx who) e (if h.asksAt = b.t then h.asks else [])
    let before := match h.hop with | some (_, start, _) => decide (start < b.t) | none => false
    let was := match h.hop with | some _ => h.wasLocked | none => b.fld u F.SY_STAT_STATE == 1
    let b := b.setSyH k { h with asks := l, asksAt := b.t }
    match before, l with
    | false, x :: [] => (b.hopRun k x.2.2, true)
    | false, x :: y :: t =>
      let b := b.hopRun k x.2.2
      ((b.setSyH k { b.syH k with wasLocked := was }).hopQueue k ((y :: t).getLastD y).2.2, true)
    | _, l => (b.hopQueue k (l.getLastD (0, 0, e)).2.2, true)

/-- SY_HOP_GO: a write of SY_HOP with GO. -/
def execSyHopGo (who : Who) (k e : Nat) (s : State) : Host.Outcome State Fault Refusal :=
  s.did fun b => b.wr who (U.sy k) F.SY_HOP_GO fun b => (b.hopAsk who k (e % 4096)).1

/-- Place of an SY entry in the converter calibration store. -/
def syEntry (k e : Nat) : Nat := 2 ^ 20 + k * 4096 + e

/-- An SY entry as the calibration store holds it. -/
def syPack (x : SyCal) : Quad :=
  BitVec.ofNat 128 (x.word + x.band * 2 ^ 32 + x.trim * 2 ^ 40 + x.lf * 2 ^ 48 + toCode 8 x.temp * 2 ^ 64 + bit x.valid * 2 ^ 72)

/-- An SY entry read from the calibration store. -/
def syUnpack (q : Quad) : SyCal :=
  let n := q.toNat
  { word := n % 2 ^ 32, band := n / 2 ^ 32 % 256, trim := n / 2 ^ 40 % 64, lf := n / 2 ^ 48 % 65536, temp := sext 8 (n / 2 ^ 64)
    valid := n / 2 ^ 72 % 2 == 1 }

/-- A synthesiser's store is saved (R94): the entries saved before that the store no longer lists become empty. -/
def Block.sySave (b : Block) (μ : Mem) (k : Nat) : Block :=
  let cal := (b.syH k).cal
  let b := b.each ((μ.words.filter fun x => ramBase .calStore + syEntry k 0 ≤ x.1 && x.1 < ramBase .calStore + syEntry k 4096).map
    fun x => x.1 - ramBase .calStore) fun b i => b.put .calStore i 0
  b.each cal fun b x => b.put .calStore (syEntry k x.1) (syPack x.2)

/-- SY_HOP_SAVE: a write of SY_HOP with SAVE. -/
def execSyHopSave (who : Who) (k : Nat) (s : State) : Host.Outcome State Fault Refusal :=
  s.done fun μ b => b.wr who (U.sy k) F.SY_HOP_SAVE fun b => b.sySave μ k

/-- A write to the SY store (R94): a frequency word, which clears VALID, or VALID = 0; the entry in use refuses it. DESIGN CHOICE:
a 32-bit write of the low half alone does not end the access of SY_CAL_DATA1, so that AUTOINC advances ENTRY only after a write
that includes bits [63:32] (log entry 99). -/
def Block.syCalWrite (b : Block) (k : Nat) (second : Bool) (half : Half) (v : Word) : Block :=
  let u := U.sy k
  let e := b.fld u F.SY_CAL_ADDR_ENTRY
  if b.fld u F.SY_STAT_STATE ≠ 0 ∧ b.fld u F.SY_STAT_ENTRY = e then
    if b.flag u F.SY_STAT_CAL_BUSY then b else (b.setFlag u F.SY_STAT_CAL_BUSY true).irq u 18
  else
    let h := b.syH k
    let x := Store.get SyCal.init h.cal e
    let x' :=
      if second then (if halfHi half && Word.fld v 63 63 == 0 then { x with valid := false } else x)
      else if half = .hi then x else { x with word := Word.fld v 31 0, valid := false }
    let b := b.setSyH k { h with cal := Store.set SyCal.init h.cal e x' }
    if second && b.flag u F.SY_CAL_ADDR_AUTOINC && halfHi half then b.setFld u F.SY_CAL_ADDR_ENTRY (e + 1) else b

/-- SY_CAL_WRITE: a write of SY_CAL_DATA0 or SY_CAL_DATA1. -/
def execSyCalWrite (who : Who) (k : Nat) (second : Bool) (half : Half) (v : Word) (s : State) : Host.Outcome State Fault Refusal :=
  s.did fun b => b.wrReg who (U.sy k) (if second then R.SY_CAL_DATA1 else R.SY_CAL_DATA0) half fun b =>
    b.syCalWrite k second half v

/-- The queued hop of synthesiser `k` starts, or is refused where its entry's word has become invalid (R94). -/
def Block.hopNext (b : Block) (k : Nat) : Block :=
  match (b.syH k).queued with
  | none => b
  | some e =>
    let b := (b.setSyH k { b.syH k with queued := none }).setFlag (U.sy k) F.SY_STAT_QUEUED false
    if b.hopWordOk k e then b.hopRun k e else b.corrected (U.sy k) C.syRange

/-- The latest Tc after its start at which a hop locks: 256 Tc, then 6 µs for a warm one and 400 µs for a cold one (R94, R95). -/
def lockTc (cold : Bool) : Nat := 256 + (if cold then 786432 else 11797)

/-- An entry of the store takes the result of a calibration now, with the temperature (R94). -/
def Block.calResult (b : Block) (k e band trim lf : Nat) : Block :=
  let (b, temp) := b.roundFree (b.ccTemp (k / 2)) 64
  let h := b.syH k
  let x : SyCal := { (Store.get SyCal.init h.cal e) with
    band := band % 256, trim := trim % 64, lf := lf % 65536, temp := sext 8 (toCode 8 temp), valid := true }
  b.setSyH k { h with cal := Store.set SyCal.init h.cal e x }

/-- Synthesiser `k` locks now (R95, R97): the end of a hop, from 256 Tc after its start to the limit of R94, or a relock. A cold
hop stores its result with the temperature. -/
def Block.syLock (b : Block) (k band trim lf : Nat) : Block :=
  let u := U.sy k
  let h := b.syH k
  match h.hop with
  | some (e, start, cold) =>
    if b.t < start + 256 ∨ start + lockTc cold < b.t then b
    else
      let b := b.setSyH k { h with hop := none }
      let b := b.when cold fun b => b.calResult k e band trim lf
      let b := (b.setFld u F.SY_STAT_STATE 1).irq u 16
      let b := b.when cold fun b => b.irq u 19
      ((b.rxcBound k).txcRefreshAll).hopNext k
  | none =>
    match h.relock with
    | some due =>
      if due < b.t then b
      else
        let b := (b.setSyH k { h with relock := none }).setFld u F.SY_STAT_STATE 1
        let b := ((b.irq u 16).incSat u F.SY_STAT_UNLOCKS 1).corrected u C.syUnlock
        (b.rxcBound k).txcRefreshAll
    | none => b

/-- SY_LOCK_ACQUIRED: synthesiser `k` locks, with the calibration that a cold hop found. -/
def execSyLockAcquired (k band trim lf : Nat) (s : State) : Host.Outcome State Fault Refusal := s.did fun b => b.syLock k band trim lf

/-- SY_CAL_TIMEOUT: a cold hop has not locked 1 ms after its start (R94). -/
def execSyCalTimeout (k : Nat) (s : State) : Host.Outcome State Fault Refusal :=
  s.did fun b =>
    match (b.syH k).hop with
    | some (_, start, true) => b.atElapsed (start + msTc) fun b => b.contained (U.sy k) C.syCalFail
    | _ => b

/-- The TXCs that wait for synthesiser `k`, with the instants of their demand. -/
def Block.syWaiters (b : Block) (k : Nat) : List (Nat × Nat) :=
  (List.range 32).filterMap fun x =>
    if b.boundSy (U.txc x) = some k then (b.txcH x).waitFrom.map fun t => (x, t) else none

/-- The wait of TXC `x` for lock ends in failure (R96): LOCK_FAIL, and the cue that made the demand fails: the direction cue of its
side, or an ENABLE or unmute cue. -/
def Block.lockFail (b : Block) (x : Nat) : Block :=
  let u := U.txc x
  let b := match (b.txcH x).waitCtx with
    | some c => { b with dsp := { b.dsp with fails := addOnce c b.dsp.fails } }
    | none => b
  let b := if b.flag u F.TXC_STAT_LOCK_FAIL then b else (b.setFlag u F.TXC_STAT_LOCK_FAIL true).irq u 18
  let b := (b.setFlag u F.TXC_STAT_SY_WAIT false).setTxcH x { b.txcH x with waitFrom := none, waitCtx := none }
  b.each (b.txcH x).insts fun b y =>
    let h := b.pbH (pbOf y.1)
    if b.isTdd y.1 then b.setPbH (pbOf y.1) { h with dirFail := addOnce (h.side (txSide y.1)).ctx h.dirFail } else b

/-- The earliest lock deadline of synthesiser `k`: of a relock, or of a waiting TXC (R96, R97). -/
def Block.lockDue (b : Block) (k : Nat) : Option Nat :=
  ((b.syWaiters k).map fun w => w.2 + b.lockMax k).foldl (fun (a : Option Nat) d => match a with | none => some d | some x => some (min x d))
    (b.syH k).relock

/-- SY_LOCK_TIMEOUT: lock has not arrived in time; the waits that are due fail and the synthesiser is fenced. -/
def execSyLockTimeout (k : Nat) (s : State) : Host.Outcome State Fault Refusal :=
  s.did fun b =>
    match b.lockDue k with
    | none => b
    | some t => b.atElapsed t fun b =>
        let b := b.each ((b.syWaiters k).filter fun w => w.2 + b.lockMax k ≤ b.t) fun b w => b.lockFail w.1
        b.contained (U.sy k) C.syLockTimeout

/-- SY_UNLOCK: a LOCKED synthesiser drops out of lock (R97). -/
def execSyUnlock (k : Nat) (s : State) : Host.Outcome State Fault Refusal :=
  s.did fun b =>
    let u := U.sy k
    if b.fld u F.SY_STAT_STATE ≠ 1 then b
    else
      let b := (b.setFld u F.SY_STAT_STATE 2).irq u 17
      let b := b.setSyH k { b.syH k with relock := some (b.t + b.lockMax k) }
      (b.rxcBound k).txcRefreshAll

/-- CC_CLK_LOST: the converter clock loses lock after it had locked (R92). -/
def execCcClkLost (c : Nat) (s : State) : Host.Outcome State Fault Refusal :=
  s.did fun b =>
    let u := U.cc c
    if b.flag u F.CC_STAT_CLK_LOCK then
      let b := ((b.setFlag u F.CC_STAT_CLK_LOCK false).setFlag u F.CC_STAT_CLK_LOST true).irq u 16
      let b := b.txcRefreshAll
      let b := b.contained u C.ccClkLost
      b.each (builtinMembers u) fun b x => b.fenceUnit x
    else b

/-! ## Strobes (R99 to R101) -/

/-- A write of CC_STB_CFGi (R99, R101): locked while the strobe is bound to a transmitting TXC; FUNC 6 and 7 become 0. -/
def Block.stbCfg (b : Block) (who : Who) (c i : Nat) (half : Half) (v : Word) : Block :=
  let u := U.cc c
  let f := b.fld u (F.CC_STB_CFG_FUNC i)
  let ch := b.fld (U.txc (b.fld u (F.CC_STB_CFG_TXC i))) F.TXC_STAT_CH_STATE
  if (f = 2 ∨ f = 3) ∧ (ch = 3 ∨ ch = 4) then b.correctedBy who u C.cfgLocked
  else if half = .hi then b
  else
    let f' := if 5 < Word.fld v 2 0 then 0 else Word.fld v 2 0
    (b.setFld u (F.CC_STB_CFG_FUNC i) f').setFld u (F.CC_STB_CFG_TXC i) (Word.fld v 12 8)

/-- STB_CFG_WRITE: a write of CC_STB_CFGi. -/
def execStbCfgWrite (who : Who) (c i : Nat) (half : Half) (v : Word) (s : State) : Host.Outcome State Fault Refusal :=
  s.did fun b => b.wrReg who (U.cc c) (R.CC_STB_CFG i) half fun b => b.stbCfg who c i half v

/-- A strobe cue (R100, R101). True where it was not refused. -/
def Block.strobeCue (b : Block) (c i : Nat) (high : Bool) : Block × Bool :=
  let u := U.cc c
  let h := b.ccH c
  if b.fld u (F.CC_STB_CFG_FUNC i) ≠ 5 then (b.corrected u C.cfgLocked, true)
  else if high then
    if b.root.strobesLow ∨ b.strobeHold then (b, false) else (b.setCcH c { h with cueHigh := h.cueHigh ||| (1 <<< i) }, true)
  else (b.setCcH c { h with cueHigh := h.cueHigh - (h.cueHigh &&& (1 <<< i)) }, true)

/-! ## RFFE (R102 to R106) -/

/-- SCLK cycles of a frame from its start condition to its bus park cycle, as MIPI RFFE defines it: 2 for the start condition,
13 for the command frame, 9 for each address or data byte, 1 for each bus park; 0 for an empty frame. -/
def frameBits (f : Word) : Nat :=
  let n := Word.fld f 13 12 + 1
  match Word.fld f 5 2 with
  | 1 => 16 | 2 => 25 | 3 => 25 + 9 * n | 4 => 34 + 9 * n | 5 => 43
  | 8 => 26 | 9 => 26 + 9 * n | 10 => 35 + 9 * n | _ => 0

/-- The frames of slot `slot` of CC `c`: an empty frame ends it. -/
def seqFrames (μ : Mem) (c slot : Nat) : List Word :=
  ((List.range 8).map fun j => μ.rd64 .ccSeq ((c * 256 + slot) * 8 + j)).takeWhile fun f => Word.fld f 5 2 != 0

/-- Divider in effect on bus `x` of CC `c`. -/
def Block.divOf (b : Block) (c x : Nat) : Nat := Store.get 76 (b.ccH c).divs x

/-- Buses that a slot uses. -/
def slotBuses (fs : List Word) : List Nat := (List.range 4).filter fun x => fs.any fun f => Word.fld f 1 0 == x

/-- Duration in Tc of a slot at the dividers in effect (R104): 32 Tc, and the longest of its buses, which run in parallel. -/
def Block.slotTime (b : Block) (c : Nat) (fs : List Word) : Nat :=
  if fs.isEmpty then 0
  else 32 + (List.range 4).foldl (fun a x =>
    max a (b.divOf c x * (fs.filter fun f => Word.fld f 1 0 == x).foldl (fun n f => n + frameBits f) 0)) 0

/-- Transfer time of a sequence: the longest of its four slots (R104). -/
def Block.seqTime (b : Block) (μ : Mem) (seq : Nat) : Nat :=
  (List.range 4).foldl (fun a c => max a (b.slotTime c (seqFrames μ c seq))) 0

/-- Bus `x` of CC `c` is busy. -/
def Block.busBusy (b : Block) (c x : Nat) : Bool :=
  (b.ccH c).running.any (fun r => r.buses.contains x) ||
    (match (b.ccH c).cmdRunning with | some (f, _) => Word.fld f 1 0 == x | none => false)

/-- CC_RFFE_STAT.BUSY follows what runs. -/
def Block.showBusy (b : Block) (c : Nat) : Block :=
  b.setFld (U.cc c) F.CC_RFFE_STAT_BUSY ((List.range 4).foldl (fun a x => a + (if b.busBusy c x then 2 ^ x else 0)) 0)

/-- Every bus that a sequence uses, as CC and bus. -/
def seqBuses (μ : Mem) (seq : Nat) : List (Nat × Nat) :=
  (List.range 4).flatMap fun c => (slotBuses (seqFrames μ c seq)).map fun x => (c, x)

/-- A bus with EN = 0 (R105). -/
def Block.busOff (b : Block) (c x : Nat) : Bool := !b.flag (U.cc c) (F.CC_RFFE_EN x)

/-- Every non-empty slot of a sequence starts now (R104). -/
def Block.seqStart (b : Block) (μ : Mem) (seq : Nat) : Block :=
  b.each (List.range 4) fun b c =>
    let fs := seqFrames μ c seq
    if fs.isEmpty then b
    else
      let h := b.ccH c
      (b.setCcH c { h with running := h.running ++ [{ slot := seq, buses := slotBuses fs, due := b.t + b.slotTime c fs }] }).showBusy c

/-- A start or frame is refused with RFFE_BUSY (R105). -/
def Block.rffeRefuse (b : Block) (c : Nat) : Block :=
  ((b.incSat (U.cc c) F.CC_RFFE_STAT_DROP 1).irq (U.cc c) 18).corrected (U.cc c) C.rffeBusy

/-- A cue or host start of a sequence at CC `c` (R105): refused for a bus that is off, started where its buses are idle, held
where none is held, else refused; a safe state overrides it (R356). True where it was not refused. -/
def Block.seqAsk (b : Block) (μ : Mem) (c seq : Nat) : Block × Bool :=
  let bs := seqBuses μ seq
  if b.rffeStill then (b, false)
  else if bs.any fun x => b.busOff x.1 x.2 then (b.rffeRefuse c, false)
  else if bs.all fun x => !b.busBusy x.1 x.2 then (b.seqStart μ seq, true)
  else if (b.ccH c).waiting.isNone then (b.setCcH c { b.ccH c with waiting := some seq }, true)
  else (b.rffeRefuse c, false)

/-- CC_SEQ_GO: a write of CC_SEQ_GO. -/
def execCcSeqGo (who : Who) (c seq : Nat) (s : State) : Host.Outcome State Fault Refusal :=
  s.done fun μ b => b.wr who (U.cc c) F.CC_SEQ_GO_SEQ fun b => (b.seqAsk μ c (seq % 256)).1

/-- The waiting start of CC `c` begins once every bus it uses is idle; a bus that has been disabled meanwhile refuses it (R105, R113). -/
def Block.heldStart (b : Block) (μ : Mem) (c : Nat) : Block :=
  match (b.ccH c).waiting with
  | none => b
  | some seq =>
    if b.rffeStill then b
    else if (seqBuses μ seq).any fun x => b.busOff x.1 x.2 then (b.setCcH c { b.ccH c with waiting := none }).rffeRefuse c
    else if (seqBuses μ seq).all fun x => !b.busBusy x.1 x.2 then
      (b.setCcH c { b.ccH c with waiting := none }).seqStart μ seq
    else b

/-- RFFE_HELD_START: the waiting start of CC `c` begins. -/
def execRffeHeldStart (c : Nat) (s : State) : Host.Outcome State Fault Refusal := s.done fun μ b => b.heldStart μ c

/-- Idle buses take the dividers written while they were busy (R103). -/
def Block.takeDivs (b : Block) (c : Nat) : Block :=
  b.each (List.range 4) fun b x =>
    if b.busBusy c x then b
    else b.setCcH c { b.ccH c with divs := Store.set 76 (b.ccH c).divs x (b.fld (U.cc c) (F.CC_RFFE_DIV x)) }

/-- A host frame starts on its bus, and DONE falls; a read may run at half the clock (R103, R106). -/
def Block.frameStart (b : Block) (c : Nat) (f : Word) : Block :=
  let x := Word.fld f 1 0
  let slow := 8 ≤ Word.fld f 5 2 && b.flag (U.cc c) (F.CC_RFFE_RD_HALF x)
  let dur := frameBits f * b.divOf c x * (if slow then 2 else 1)
  ((b.setCcH c { b.ccH c with cmd := none, cmdRunning := some (f, b.t + dur) }).setFlag (U.cc c) F.CC_RFFE_RESP_DONE false).showBusy c

/-- The waiting host frame starts once its bus is idle; a bus that has been disabled meanwhile refuses it (R106, R113). -/
def Block.frameNext (b : Block) (c : Nat) : Block :=
  match (b.ccH c).cmd with
  | none => b
  | some f =>
    if b.busBusy c (Word.fld f 1 0) || (b.ccH c).cmdRunning.isSome || b.rffeStill then b
    else if b.busOff c (Word.fld f 1 0) then (b.setCcH c { b.ccH c with cmd := none }).rffeRefuse c
    else b.frameStart c f

/-- The first of the running slots of CC `c` to end. -/
def firstDue : List RffeRun → Option RffeRun
  | [] => none
  | r :: t => match firstDue t with | none => some r | some x => if x.due < r.due then some x else some r

/-- RFFE_SEQ_DONE: a slot ends its last bus park cycle and its buses go idle. -/
def execRffeSeqDone (c : Nat) (s : State) : Host.Outcome State Fault Refusal :=
  s.did fun b =>
    match firstDue (b.ccH c).running with
    | none => b
    | some r => b.atElapsed r.due fun b =>
        let b := b.setCcH c { b.ccH c with running := (b.ccH c).running.erase r }
        ((b.takeDivs c).showBusy c).frameNext c

/-- The end of the frame that bus `x` carries now in a running slot (R104); none before its first frame and after its last. -/
def Block.frameEnd (b : Block) (μ : Mem) (c : Nat) (r : RffeRun) (x : Nat) : Option Nat :=
  let fs := seqFrames μ c r.slot
  let start := r.due + 32 - b.slotTime c fs
  let ends := (fs.filter fun f => Word.fld f 1 0 == x).foldl (fun (a : List Nat × Nat) f =>
    let e := a.2 + b.divOf c x * frameBits f
    (a.1 ++ [e], e)) ([], start)
  if b.t < start then none else ends.1.find? fun e => b.t < e

/-- A safe state stops the buses of CC `c`: each is idle after its current frame, and what waited is dropped (R355). -/
def Block.rffeCut (b : Block) (μ : Mem) (c : Nat) : Block :=
  let h := b.ccH c
  let run := h.running.flatMap fun r =>
    if r.cut then [r]
    else r.buses.filterMap fun x => (b.frameEnd μ c r x).map fun e => { slot := r.slot, buses := [x], due := e, cut := true }
  ((b.setCcH c { h with running := run, waiting := none, cmd := none }).takeDivs c).showBusy c

/-- A frame for CC_RFFE_CMD has a supported type (R113). -/
def cmdTypeOk (t : Nat) : Bool := t ≤ 5 || (8 ≤ t && t ≤ 10)

/-- A write of CC_RFFE_CMD (R106); a safe state overrides it (R356). DESIGN CHOICE: a CC carries one host frame at a time, so that a
frame for an idle bus waits while a host frame runs on another (log entry 104). -/
def Block.rffeCmd (b : Block) (c : Nat) (f : Word) : Block :=
  let u := U.cc c
  let x := Word.fld f 1 0
  if b.rffeStill then b
  else if cmdTypeOk (Word.fld f 5 2) = false then b.corrected u C.cfgRffe
  else if Word.fld f 5 2 = 0 then b
  else if b.busOff c x then b.rffeRefuse c
  else if b.busBusy c x || (b.ccH c).cmdRunning.isSome then
    if (b.ccH c).cmd.isSome then b.rffeRefuse c
    else (b.setCcH c { b.ccH c with cmd := some f }).setFlag u F.CC_RFFE_RESP_DONE false
  else b.frameStart c f

/-- RFFE_CMD: a write of CC_RFFE_CMD. DESIGN CHOICE: a 32-bit write of the low half, which holds the bus and the command, issues the
frame with DATA 0, and one of the high half alone issues none (log entry 99). -/
def execRffeCmd (who : Who) (c : Nat) (half : Half) (v : Word) (s : State) : Host.Outcome State Fault Refusal :=
  s.did fun b => b.wrReg who (U.cc c) R.CC_RFFE_CMD half fun b =>
    if half = .hi then b else b.rffeCmd c (halfMerge half 0 v)

/-- RFFE_FRAME_DONE: the host frame of CC `c` ends, DONE speaking of the last frame given (R113), with the bytes read and a parity error where the bus had one. -/
def execRffeFrameDone (c data : Nat) (perr : Bool) (s : State) : Host.Outcome State Fault Refusal :=
  s.did fun b =>
    match (b.ccH c).cmdRunning with
    | none => b
    | some (f, due) => b.atElapsed due fun b =>
        let u := U.cc c
        let isRd := decide (8 ≤ Word.fld f 5 2)
        let bytes := if Word.fld f 5 2 = 8 then 1 else Word.fld f 13 12 + 1
        let b := (b.setCcH c { b.ccH c with cmdRunning := none }).setFlag u F.CC_RFFE_RESP_DONE (b.ccH c).cmd.isNone
        let b := (b.setFlag u F.CC_RFFE_RESP_PERR (isRd && perr)).irq u 19
        let b := b.when isRd fun b => b.setFld u F.CC_RFFE_RESP_DATA (data % 256 ^ bytes)
        let b := b.when (isRd && perr) fun b => (b.setFlag u F.CC_RFFE_STAT_PERR true).corrected u C.rffeParity
        ((b.takeDivs c).showBusy c).frameNext c

/-- A write of CC_SEQ_DATA (R105, R113). DESIGN CHOICE: a 32-bit write of the low half alone does not end the access, so that
AUTOINC advances only after a write that includes bits [63:32] (log entry 99). -/
def Block.seqWrite (b : Block) (μ : Mem) (c : Nat) (half : Half) (v : Word) : Block :=
  let u := U.cc c
  let slot := b.fld u F.CC_SEQ_ADDR_SLOT
  let fr := b.fld u F.CC_SEQ_ADDR_FRAME
  let i := (c * 256 + slot) * 8 + fr
  let new := halfMerge half (μ.rd64 .ccSeq i) v
  if (b.ccH c).running.any fun r => r.slot == slot then b.setFlag u F.CC_RFFE_STAT_SEQ_BUSY true
  else if 5 < Word.fld new 5 2 then b.corrected u C.cfgRffe
  else
    let b := b.put64 .ccSeq i (new &&& 0xFFFFFFFFFFFF3F3F#64)
    if b.flag u F.CC_SEQ_ADDR_AUTOINC && halfHi half then
      let b := b.setFld u F.CC_SEQ_ADDR_FRAME (fr + 1)
      if fr = 7 then b.setFld u F.CC_SEQ_ADDR_SLOT (slot + 1) else b
    else b

/-- CC_SEQ_DATA_WRITE: a write of CC_SEQ_DATA. -/
def execCcSeqDataWrite (who : Who) (c : Nat) (half : Half) (v : Word) (s : State) : Host.Outcome State Fault Refusal :=
  s.done fun μ b => b.wrReg who (U.cc c) R.CC_SEQ_DATA half fun b => b.seqWrite μ c half v

/-- A write of a bus divider (R103): odd values round up, then the range applies; either counts as a clamp. A busy bus
takes it when it becomes idle. -/
def Block.rffeDiv (b : Block) (who : Who) (c x d : Nat) : Block :=
  let u := U.cc c
  let d' := max 38 (min 2046 (d + d % 2))
  let b := b.setFld u (F.CC_RFFE_DIV x) d'
  let b := if d' = d then b else b.correctedBy who u C.clamp
  b.takeDivs c

/-- RFFE_DIV_WRITE: a write of DIV of CC_RFFEb. -/
def execRffeDivWrite (who : Who) (c x d : Nat) (s : State) : Host.Outcome State Fault Refusal :=
  s.did fun b => b.wr who (U.cc c) (F.CC_RFFE_DIV x) fun b => b.rffeDiv who c x (d % 2048)

/-! ## The planner's sequences (R67, R105) -/

/-- The planner abandons an entry change: SEQ_LATE and RFFE_LATE at every CC that could not start (R105). -/
def Block.planLate (b : Block) (ccs : List Nat) : Block :=
  b.each ccs fun b c =>
    let u := U.cc c
    let b := if b.flag u F.CC_RFFE_STAT_SEQ_LATE then b else (b.setFlag u F.CC_RFFE_STAT_SEQ_LATE true).irq u 17
    b.corrected u C.rffeLate

/-- CCs whose buses keep a sequence from starting now. -/
def Block.seqBlocked (b : Block) (μ : Mem) (seq : Nat) : List Nat :=
  (List.range 4).filter fun c => (slotBuses (seqFrames μ c seq)).any fun x => b.busOff c x || b.busBusy c x

/-- Start instant of the sequence of entry `e` of PBD `m`, which comes into force at elapsed `at_` (R67). -/
def Block.planStart (b : Block) (μ : Mem) (m e at_ : Nat) : Int :=
  (at_ : Int) - b.pathFld m (F.PBD_EXT_SETTLE e) - b.seqTime μ (b.pathFld m (F.PBD_EXT_SEQ e))

/-- The start of entry `e` of PBD `m` has passed: the entry change is abandoned at every CC of its sequence (R105). -/
def Block.planPassed (b : Block) (μ : Mem) (m e : Nat) : Block :=
  let seq := b.pathFld m (F.PBD_EXT_SEQ e)
  (b.planLate ((List.range 4).filter fun c => !(seqFrames μ c seq).isEmpty)).setPbdH m { b.pbdH m with pendingEntry := none }

/-- The planner starts its sequence, or abandons the entry change (R105), as it does in a safe state (R356). -/
def Block.planSeq (b : Block) (μ : Mem) (m e : Nat) : Block :=
  let seq := b.pathFld m (F.PBD_EXT_SEQ e)
  if b.rffeStill then b.setPbdH m { b.pbdH m with pendingEntry := none }
  else match b.seqBlocked μ seq with
  | [] => (b.seqStart μ seq).setPbdH m { b.pbdH m with pendingEntry := (b.pbdH m).pendingEntry.map fun x => (x.1, x.2.1, true) }
  | l => (b.planLate l).setPbdH m { b.pbdH m with pendingEntry := none }

/-- PLANNER_SEQ_START: the start instant of the pending entry's sequence. -/
def execPlannerSeqStart (m : Nat) (s : State) : Host.Outcome State Fault Refusal :=
  s.done fun μ b =>
    match (b.pbdH m).pendingEntry with
    | none => b
    | some (e, at_, started) =>
      let t := b.planStart μ m e at_
      if started then b
      else if t < b.t then b.planPassed μ m e
      else b.atElapsed t.toNat fun b => b.planSeq μ m e

/-- The start entry at ENABLE (R67): its sequence starts at once and the output stays gated until SETTLE after it ends. DEDUCED:
where a bus of the sequence is busy or off, or a safe state holds the buses, the planner abandons the change as R105 states, the entry in force stays, and the
output is not gated for it (log entry 98). -/
def Block.initEntry (b : Block) (μ : Mem) (m : Nat) : Block :=
  let u := U.pbd m
  if b.extInUse m = false then b.setFld u F.PBD_GAIN_EXT_IDX (b.fld u F.PBD_PLAN_EXT_INIT)
  else
    let e := b.fld u F.PBD_PLAN_EXT_INIT
    let seq := b.fld u (F.PBD_EXT_SEQ e)
    if b.rffeStill then b.setPbdH m { b.pbdH m with extGate := false, extSettle := none, pendingEntry := none }
    else match b.seqBlocked μ seq with
    | [] =>
      let due := b.t + b.seqTime μ seq + b.fld u (F.PBD_EXT_SETTLE e)
      ((b.seqStart μ seq).setFld u F.PBD_GAIN_EXT_IDX e).setPbdH m { b.pbdH m with
        extGate := true, extSettle := some due, pendingEntry := none }
    | l => (b.planLate l).setPbdH m { b.pbdH m with extGate := false, extSettle := none, pendingEntry := none }

/-! ## Observation receivers (R107, R108) -/

/-- The dwell table of ORX `o` as the registers hold it. -/
def Block.dwellTable (b : Block) (o : Nat) : List Word :=
  (List.range (b.fld (U.orx o) F.ORX_CTRL_N_ENT)).map fun e => b.reg (U.orx o) (R.ORX_DWELL e)

/-- Spans of settling, newest first, where the one under way ends now (R108). -/
def OrxH.cutSettle (h : OrxH) (t : Nat) : List (Nat × Nat) := h.settles.map fun x => (x.1, min x.2 t)

/-- ORX `o` moves to entry `e` of its table in effect. -/
def Block.dwellEntry (b : Block) (o e : Nat) : Block :=
  let u := U.orx o
  let w := ((b.orxH o).table)[e]?.getD 0
  let settle := Word.fld w 44 32
  let b := if b.fld u F.ORX_STAT_ENTRY = e then b else b.setFld u F.ORX_EMW_STAT_RUN 0
  let b := (b.setFld u F.ORX_STAT_ENTRY e).setFld u F.ORX_STAT_TXC (Word.fld w 4 0)
  let b := b.setFlag u F.ORX_STAT_SETTLING (settle != 0)
  let b := b.setOrxH o { b.orxH o with
    pos := Word.fld w 10 8, ticksLeft := max 1 (Word.fld w 23 16)
    settleEnd := (if settle = 0 then none else some (b.t + settle)), steady := settle == 0 && b.t == b.time.tickStart
    settles := (b.t, b.t + settle) :: ((b.orxH o).cutSettle b.t).filter fun x => b.t ≤ x.2 + spanKeep }
  b.setTxOff o (b.fld (U.txc (Word.fld w 4 0)) F.TXC_STAT_CH_STATE != 3)

/-- A write of ORX_CTRL.RUN (R108, R112). -/
def Block.orxRun (b : Block) (who : Who) (o : Nat) (on : Bool) : Block :=
  let u := U.orx o
  let n := b.fld u F.ORX_CTRL_N_ENT
  if on && (n == 0 || 16 < n) then b.correctedBy who u C.cfgPorts
  else if on == b.flag u F.ORX_CTRL_RUN then b
  else (b.setFlag u F.ORX_CTRL_RUN on).setOrxH o { b.orxH o with startDue := on, stopDue := !on }

/-- ORX_RUN_WRITE: a write of ORX_CTRL.RUN. -/
def execOrxRunWrite (who : Who) (o : Nat) (on : Bool) (s : State) : Host.Outcome State Fault Refusal :=
  s.did fun b => b.wr who (U.orx o) F.ORX_CTRL_RUN fun b => b.orxRun who o on

/-- A tick of ORX `o`: a start or a stop takes effect, or one tick of the dwell has passed. A dwell that has ended waits for
its advance at this boundary. -/
def Block.orxTick (b : Block) (o : Nat) : Block :=
  let u := U.orx o
  let h := b.orxH o
  if b.usable u = false then b
  else if h.stopDue then
    (b.setOrxH o { h with stopDue := false, ticksLeft := 0, pos := 0, settleEnd := none, adv := false, settles := h.cutSettle b.t }).setFlag u
      F.ORX_STAT_SETTLING false
  else if h.startDue then
    (b.setOrxH o { h with startDue := false, table := b.dwellTable o }).dwellEntry o 0
  else if h.ticksLeft = 0 then b
  else if h.ticksLeft = 1 then b.setOrxH o { h with adv := true }
  else b.setOrxH o { h with ticksLeft := h.ticksLeft - 1 }

/-- ORX_SETTLE_END: the settling time ends and samples are valid. -/
def execOrxSettleEnd (o : Nat) (s : State) : Host.Outcome State Fault Refusal :=
  s.did fun b =>
    match (b.orxH o).settleEnd with
    | none => b
    | some t => b.atElapsed t fun b =>
        (b.setOrxH o { b.orxH o with settleEnd := none }).setFlag (U.orx o) F.ORX_STAT_SETTLING false

end Sys2Proof.Machine
end

