-- ==== Sys2Proof/Machine/Lanes.lean ====
section
/-! DEFINITION.
Feedback cancellation and the model bank (chapter 05): lane configuration and adaptation, the model bank and its access,
model swaps, the divergence guard and the publication of the probe. -/
namespace Sys2Proof.Machine

/-! ## Configuration (R117 to R122, R138) -/

/-- Windows in use of lane `i`: offset, length in taps, long reach. -/
def Block.laneWins (b : Block) (i : Nat) : List (Nat × Nat × Bool) :=
  (List.range 4).filterMap fun w =>
    let n := b.fld (U.lane i) (F.LANE_WIN_LEN w)
    if n = 0 then none else some (b.fld (U.lane i) (F.LANE_WIN_D w), n, b.flag (U.lane i) (F.LANE_WIN_LR w))

/-- Taps of lane `i` over its windows. -/
def Block.laneTaps (b : Block) (i : Nat) : Nat := (b.laneWins i).foldl (fun a w => a + w.2.1) 0

/-- Rate class of lane `i`. -/
def Block.laneRate (b : Block) (i : Nat) : Nat := b.rateOf (b.lanePbd i)

/-- Capacity units of lane `i` (R119). -/
def Block.laneUnits (b : Block) (i : Nat) : Nat := b.laneTaps i * 2 ^ b.laneRate i

/-- The windows meet R117 at sample period `p`. -/
def winsOk (p : Nat) (ws : List (Nat × Nat × Bool)) : Bool :=
  ws.all (fun (d, n, lr) => d % p == 0 && n % 8 == 0 && 8 ≤ n && n ≤ 1024 &&
      (if lr then 16384 ≤ d && d + n * p ≤ 2097152 else d + n * p ≤ 65536)) &&
    ws.foldl (fun a w => a + w.2.1) 0 ≤ 1024 &&
    (List.range ws.length).all fun x => (List.range ws.length).all fun y =>
      x == y || (match ws[x]?, ws[y]? with
        | some a, some c => a.1 + a.2.1 * p ≤ c.1 || c.1 + c.2.1 * p ≤ a.1
        | _, _ => true)

/-- Bytes of the DELAY region that lane `i` reserves (R138). -/
def Block.delayBytes (b : Block) (i : Nat) : Nat :=
  let p := sampleTc (b.laneRate i)
  let far := ((b.laneWins i).filter (·.2.2)).foldl (fun a w => max a (w.1 + w.2.1 * p)) 0
  (far / p * 4 + 4095) / 4096 * 4096

/-- Lane `i` is long reach. -/
def Block.laneLr (b : Block) (i : Nat) : Bool := (b.laneWins i).any (·.2.2)

/-- Count of the ones in a number. -/
def popcount (n : Nat) : Nat := ((List.range 32).filter fun j => (n >>> j) % 2 == 1).length

/-- Gather the bits of a key that a mask selects, lowest first (R125). -/
def gather (mask key : Nat) : Nat :=
  ((List.range 32).foldl (fun (a : Nat × Nat) j =>
    if (mask >>> j) % 2 = 1 then (a.1 + ((key >>> j) % 2) * 2 ^ a.2, a.2 + 1) else a) (0, 0)).1

/-- Slot of a key at lane `i` (R125). -/
def Block.keySlot (b : Block) (i key : Nat) : Nat :=
  b.fld (U.lane i) F.LANE_MODEL_MBASE + gather (b.fld (U.lane i) F.LANE_MODEL_KMASK) key

/-- Bit 24 of a key names the direction of the lane's PBD (R125). -/
def Block.keyDirOk (b : Block) (i key : Nat) : Bool := (key >>> 24) % 2 == bit (isUl (b.lanePbd i))

/-- Followers of a gang of lane `i`. -/
def Block.followers (b : Block) (i : Nat) : List Nat := ((List.range (b.gangOf i)).drop 1).map (i + ·)

/-- The configuration of lane `i` for service: none where it is valid, else the code of the first failing condition
(R122). -/
def Block.laneConfig (b : Block) (i : Nat) : Option Nat :=
  let u := U.lane i
  let p := b.fld u F.LANE_CFG_PBD
  let r := b.fld u F.LANE_CFG_REF_PBD
  let gang := b.fld u F.LANE_CFG_GANG
  let rate := b.laneRate i
  let cl := i / 33
  if kindOf p ≠ 5 ∨ kindOf r ≠ 5 then some C.cfgLane
  else if b.rateOf (p - 0x0100) ≠ b.rateOf (r - 0x0100) ∨ 5 ≤ rate then some C.cfgLane
  else if !((b.rxSlots (p - 0x0100)).any fun x => x.1 == b.fld u F.LANE_CFG_RX_SLOT) ∨
      !((b.txSlots (r - 0x0100)).any fun x => x.1 == b.fld u F.LANE_CFG_REF_SLOT) then some C.cfgLane
  else if gang = 3 ∨ (i % 33) % b.gangOf i ≠ 0 ∨ (gang ≠ 0 ∧ i % 33 = 32) then some C.cfgLane
  else if (b.followers i).any fun f => b.ownState (U.lane f) == St.active || b.reg (U.lane f) R.LANE_CFG != 0 then some C.cfgLane
  else if rate = 4 ∧ gang = 0 then some C.cfgLane
  else if winsOk (sampleTc rate) (b.laneWins i) = false then some C.cfgReach
  else if b.gangOf i * 4096 < b.laneUnits i then some C.cfgCap
  else if b.laneLr i ∧ (8 ≤ ((b.lanesOn.filter fun j => j / 33 = cl ∧ j ≠ i).filter b.laneLr).length ∨
      b.regionSize 2 < b.delayBytes i + ((b.lanesOn.filter fun j => j ≠ i).foldl (fun a j => a + b.delayBytes j) 0))
    then some C.cfgLr
  else if 18 < popcount (b.fld u F.LANE_MODEL_KMASK) ∨
      b.bankSlots < b.fld u F.LANE_MODEL_MBASE + 2 ^ popcount (b.fld u F.LANE_MODEL_KMASK) then some C.cfgModel
  else none

/-- Lane `i` refuses a configuration or an ENABLE (R122). -/
def Block.laneRefused (b : Block) (i code : Nat) : Block := (b.setFlag (U.lane i) F.LANE_STAT_CFG_REJ true).corrected (U.lane i) code

/-- The part of a lane's path delay that heads bring: D_DL of the reference's head and D_UL of the receive slot's (R278). -/
def Block.laneHeadLat (b : Block) (i : Nat) : Nat :=
  let u := U.lane i
  let port := fun (l : List (Nat × Port)) (s : Nat) => (l.find? fun x => x.1 == s).map (·.2)
  let rx := match port (b.rxSlots (b.lanePbd i)) (b.fld u F.LANE_CFG_RX_SLOT) with
    | some (.head h _) => b.fld (U.hd h) F.HD_LAT_D_UL | _ => 0
  let tx := match port (b.txSlots (b.fld u F.LANE_CFG_REF_PBD - 0x0100)) (b.fld u F.LANE_CFG_REF_SLOT) with
    | some (.head h _) => b.fld (U.hd h) F.HD_LAT_D_DL | _ => 0
  rx + tx

/-- Lane `i` reaches ACTIVE (R121): it trains from the bank copy of the slot that LANE_KEY names, or from the taps that were
preloaded. DESIGN CHOICE: its first block begins at this Tc (log entry 100). -/
def Block.laneStart (b : Block) (i : Nat) : Block :=
  let u := U.lane i
  let key := b.fld u F.LANE_KEY_KEY
  let b := b.setLaneState i St.active
  let b := (b.setFld u F.LANE_STAT_TAPS (b.laneTaps i)).setReg u R.LANE_RESID 0x80008000
  let b := b.setLaneH i { b.laneH i with
    headLat := b.laneHeadLat i, blockAt := b.t, blockAdapt := some (b.reg u R.LANE_ADAPT), next := none }
  let b := if b.keyDirOk i key then
      (b.setFld u F.LANE_KEY_SLOT (b.keySlot i key)).setLaneH i { b.laneH i with loadDue := true }
    else (b.setFlag u F.LANE_KEY_FROM_BANK false).corrected u C.modelKey
  b.toTrain i

/-! ## Adaptation (R120, R121) -/

/-- The component of a tap after a step of num/den in stored units. -/
def Block.tapStep (b : Block) (stored : Int) (num : Int) (den : Nat) : Block × Nat :=
  let (b, v) := b.roundFree (stored * den + num) den
  if -32768 ≤ v ∧ v ≤ 32767 then (b, toCode 16 v)
  else
    let (b, k) := b.takeFree
    (b, Config.tapOver k % 65536)

/-- Tap `k` of a set of taps takes a step along its gradient. -/
def Block.tapUpdate (b : Block) (taps : Store Word) (k : Nat) (g : Int × Int) (mu : Int) (den : Nat) : Block × Store Word :=
  let v := Store.get (0 : Word) taps k
  let (b, re) := b.tapStep (sext 16 (Word.fld v 31 16)) (mu * g.1) den
  let (b, im) := b.tapStep (sext 16 (Word.fld v 15 0)) (mu * g.2) den
  (b, Store.set (0 : Word) taps k (BitVec.ofNat 64 (re * 65536 + im)))

/-- A set of taps takes a step along the gradients of a block. -/
def Block.tapsUpdate (b : Block) (taps : Store Word) (g : List (Int × Int)) (mu : Int) (den : Nat) : Block × Store Word :=
  ((List.range g.length).zip g).foldl (fun (x : Block × Store Word) y => x.1.tapUpdate x.2 y.1 y.2 mu den) (b, taps)

/-- The taps of lane `i` in force now: those of its last block apply from the 64th sample after the block (R120). -/
def Block.tapsNow (b : Block) (i : Nat) : Store Word :=
  let h := b.laneH i
  match h.next with
  | some (t, taps) => if t ≤ b.t then taps else h.taps
  | none => h.taps

/-- The tap memory of lane `i` stands as it is now: an update that has yet to apply is dropped. -/
def Block.tapsHold (b : Block) (i : Nat) : Block := b.setLaneH i { b.laneH i with taps := b.tapsNow i, next := none }

/-- The LANE_ADAPT word that lane `i` runs under: a write takes effect at the next block (R122). -/
def Block.adaptWord (b : Block) (i : Nat) : Word := ((b.laneH i).blockAdapt).getD (b.reg (U.lane i) R.LANE_ADAPT)

/-- A field of that word. -/
def Block.adaptFld (b : Block) (i : Nat) (f : Fld) : Nat := Word.fld (b.adaptWord i) f.hi f.lo

/-- Tc in a block of lane `i`: 64 × 2^BLOCK samples, code 7 read as 6 (R120, R142). -/
def Block.blockLen (b : Block) (i : Nat) : Nat := 64 * 2 ^ min 6 (b.adaptFld i F.LANE_ADAPT_BLOCK) * sampleTc (b.laneRate i)

/-- The causes of margin unknown that wait for lane `i` in TRACK end (R131). -/
def Block.trackEnds (b : Block) (i : Nat) : Block :=
  b.unkEnd (b.lanePbd i) fun x => x.cause == 4 && x.lane == i && x.pub

/-- The end of the block of lane `i` that ends now: blocks follow each other from the lane's start. -/
def Block.blockEndAt (b : Block) (i : Nat) : Nat :=
  let h := b.laneH i
  h.blockAt + max 1 ((b.t - h.blockAt) / b.blockLen i) * b.blockLen i

/-- A sample of the receive instance of lane `i` was gated in the block that ends at elapsed `e`. -/
def Block.blockGated (b : Block) (i e : Nat) : Bool :=
  b.instShut (b.lanePbd i) (b.fld (U.lane i) F.LANE_CFG_RX_SLOT) (e - b.blockLen i) e

/-- The reference slot of lane `i` lies on a head that is not in service: no reference power reaches it (R276). -/
def Block.refMuted (b : Block) (i : Nat) : Bool :=
  match (b.txSlots (b.fld (U.lane i) F.LANE_CFG_REF_PBD - 0x0100)).find? fun x => x.1 == b.fld (U.lane i) F.LANE_CFG_REF_SLOT with
  | some (_, .head h _) => b.ownState (U.hd h) != St.active
  | _ => false

/-- The block of lane `i` that ends now holds its taps, or gives them a step that applies from the 64th sample on (R120): `re` and
`im` are the parts of the gradients and `pw` the reference's block power, all in units of 2^-40 of full-scale block power. -/
def Block.blockDo (b : Block) (i : Nat) (re im : List Int) (pw : Nat) : Block :=
  let u := U.lane i
  let e := b.blockEndAt i
  let holds := b.adaptFld i F.LANE_ADAPT_ADAPT_EN = 0 ∨ b.blockGated i e ∨ (b.laneH i).blockBad ∨
    levelBelow (sext 16 (b.adaptFld i F.LANE_ADAPT_REF_MIN)) pw (2 ^ 40) ∨ b.refMuted i
  let h := { b.laneH i with blockAt := e, blockAdapt := some (b.reg u R.LANE_ADAPT) }
  if holds then b.setLaneH i { h with held := true, blockBad := false }
  else
    let p := pw + 1
    let mu : Nat := max 1 (b.adaptFld i F.LANE_ADAPT_MU_M) * 2 ^ 15
    let den := 2 ^ (b.adaptFld i F.LANE_ADAPT_MU_E + 8) * (if b.flag (U.cl (i / 33)) F.CL_STAT_THROTTLE then 2 else 1) * p *
      2 ^ b.fld u F.LANE_CFG_SCALE
    let gs := (re.zip im).take (b.fld u F.LANE_STAT_TAPS)
    let r := gs.foldl (fun (a : Nat) (x : Int × Int) => a + x.1.natAbs * x.1.natAbs + x.2.natAbs * x.2.natAbs) 0
    let now := b.tapsNow i
    let (b, taps) := b.tapsUpdate now gs mu den
    let b := b.setLaneH i { h with
      taps := now, next := some (e + 64 * sampleTc (b.laneRate i), taps)
      sumNum := h.sumNum * (p * p) + r * h.sumDen, sumDen := h.sumDen * (p * p), blocks := h.blocks + 1 }
    if b.adapt i = 3 then b.setAdapt i (if h.wasTrack then 2 else 1) else b

/-- An adaptation block of an ACTIVE lane ends at its length after the one before. -/
def Block.blockEnd (b : Block) (i : Nat) (re im : List Int) (pw : Nat) : Block :=
  if b.ownState (U.lane i) ≠ St.active ∨ b.adapt i = 0 ∨ b.adapt i = 4 then b
  else b.atElapsed ((b.laneH i).blockAt + b.blockLen i) fun b => b.blockDo i re im pw

/-- LANE_BLOCK_END: an adaptation block ends. -/
def execLaneBlockEnd (i : Nat) (re im : List Int) (pw : Nat) (s : State) : Host.Outcome State Fault Refusal :=
  s.did fun b => b.blockEnd i re im pw

/-- Power of the taps of lane `i` as a fraction: the sum of squared stored values over 2^30, times 2^(2 SCALE). -/
def Block.tapPower (b : Block) (i : Nat) : Nat :=
  (Store.view (b.tapsNow i)).foldl (fun a x =>
    a + (sext 16 (Word.fld x.2 31 16)).natAbs ^ 2 + (sext 16 (Word.fld x.2 15 0)).natAbs ^ 2) 0 *
    2 ^ (2 * b.fld (U.lane i) F.LANE_CFG_SCALE)

/-- RESID of lane `i` over the tick that ends (R120): the mean of r_block, or the value before. -/
def Block.residTick (b : Block) (i : Nat) : Block :=
  let h := b.laneH i
  if h.blocks = 0 then b
  else
    let (b, c) := b.dbRatio h.sumNum (h.sumDen * h.blocks)
    b.setFld (U.lane i) F.LANE_RESID_RESID (toCode 16 c)

/-- The end of a tick, for the delay underruns (R131): the cause ends with the first whole tick without one, of a lane that has left
service too. -/
def Block.underrunTick (b : Block) : Block :=
  b.each (((Store.view b.pbds).filter fun x => x.2.unknown.any fun y => y.cause == 7).map (·.1)) fun b m =>
    b.unkEnd m fun x => x.cause == 7 && !(b.laneH x.lane).underrun && decide (x.from_ + b.loop.tickLen < b.t)

/-- The end of a tick at lane `i` (R120, R121, R133): RESID, HOLD, the window, DEPTH and the excess count. -/
def Block.laneTick (b : Block) (i : Nat) : Block :=
  let u := U.lane i
  if b.adapt i = 0 then b
  else
    let h := b.laneH i
    let b := b.residTick i
    let idle := h.blocks == 0 && (h.held || b.adaptFld i F.LANE_ADAPT_ADAPT_EN == 0)
    let b := b.setLaneH i { h with blocks := 0, sumNum := 0, sumDen := 1, held := false, underrun := false }
    let st := b.adapt i
    let res := b.db u F.LANE_RESID_RESID
    if (st = 1 ∨ st = 2) ∧ idle then
      (b.setLaneH i { b.laneH i with wasTrack := st == 2, window := [] }).setAdapt i 3
    else
      match res with
      | none => b
      | some r =>
        if st = 1 then b.setLaneH i { b.laneH i with window := (r :: (b.laneH i).window).take 64 }
        else if st = 2 then
          let base := (b.db u F.LANE_RESID_BASE).getD 0
          let ex := if base + 384 < r then min 4 (b.fld u F.LANE_RESID_EXCESS + 1) else 0
          let b := (b.setFld u F.LANE_RESID_EXCESS ex).setLaneH i { b.laneH i with window := (r :: (b.laneH i).window).take 64 }
          let (b, w) := b.dbRatio (b.tapPower i) (2 ^ 30)
          b.setFld u F.LANE_RESID_DEPTH (dbCode (w - r))
        else b

/-- The window of lane `i` ends (R121): 64 ticks within 1 dB lead to TRACK, and in TRACK a mean within 3 dB of BASE renews
it. -/
def Block.trackWindow (b : Block) (i : Nat) : Block :=
  let u := U.lane i
  let h := b.laneH i
  let w := h.window
  if w.length < 64 then b
  else
    let hi := w.foldl (fun a x => max a x) (w.headD 0)
    let lo := w.foldl (fun a x => min a x) (w.headD 0)
    let (b', mean) := b.roundFree (w.foldl (fun a x => a + x) 0) 64
    if b.adapt i = 1 then
      if hi - lo ≤ 64 then
        (((b'.setFld u F.LANE_RESID_BASE (dbCode mean)).setLaneH i { h with window := [] }).setAdapt i 2).trackEnds i
      else b
    else if b.adapt i = 2 then
      let b'' := b'.setLaneH i { h with window := [] }
      if w.foldl (fun a x => a + x) 0 ≤ ((b.db u F.LANE_RESID_BASE).getD 0 + 192) * 64 then
        b''.setFld u F.LANE_RESID_BASE (dbCode mean)
      else b''
    else b

/-- LANE_TRACK_WINDOW: a window of 64 ticks ends. -/
def execLaneTrackWindow (i : Nat) (s : State) : Host.Outcome State Fault Refusal := s.did fun b => b.trackWindow i

/-! ## The divergence guard (R133, R134) -/

/-- The taps of the bank copy are loaded and the revert's cause ends (R131). -/
def Block.revertDone (b : Block) (i : Nat) (taps : Store Word) : Block :=
  let b := b.setLaneH i { b.laneH i with taps := taps, next := none, revert := false }
  b.unkEnd (b.lanePbd i) fun x => x.cause == 5 && x.lane == i

/-- The revert of lane `i` (R134): the cold cap, and the bank copy of its slot from the shadow buffer, as zero taps where the
slot is not VALID, or by a prefetch. -/
def Block.laneRevert (b : Block) (i : Nat) : Block :=
  let slot := b.fld (U.lane i) F.LANE_KEY_SLOT
  let b := b.unkSet (b.lanePbd i) { cause := 5, lane := i, from_ := b.t, cold := true, pub := false }
  let h := b.laneH i
  if b.slotValid slot = false then b.revertDone i []
  else if h.shadow = some slot then b.revertDone i h.shadowTaps
  else b.setLaneH i { h with revert := true }

/-- The divergences of lane `i` within the last 10 s (R134, R142). -/
def Block.divsRecent (b : Block) (i : Nat) : List Nat := (b.laneH i).divs.filter fun t => b.t < t + 10 * secTc

/-- The fourth consecutive excess tick of lane `i` in TRACK has ended (R134): its taps freeze. -/
def Block.diverge (b : Block) (i : Nat) : Block :=
  let u := U.lane i
  if b.adapt i ≠ 2 ∨ b.fld u F.LANE_RESID_EXCESS ≠ 4 then b
  else
    let divs := b.t :: b.divsRecent i
    let b := (b.setLaneH i { b.laneH i with divs := divs, window := [] }).tapsHold i
    let b := b.override u R.LANE_CMD (fldMask F.LANE_CMD_RESUME.hi F.LANE_CMD_RESUME.lo)
    let b := if b.flag u F.LANE_STAT_DIVERGED then b else (b.setFlag u F.LANE_STAT_DIVERGED true).irq u 17
    if 4 ≤ divs.length then b.contained u C.laneDivergeLimit
    else
      let b := (b.setFld u F.LANE_RESID_EXCESS 0).setAdapt i 4
      let b := if b.ownState u = St.active then b.setLaneState i St.lull else b
      (b.contained u C.laneDiverge).laneRevert i

/-- LANE_DIVERGE: the guard acts at the end of the fourth excess tick. -/
def execLaneDiverge (i : Nat) (s : State) : Host.Outcome State Fault Refusal := s.did fun b => b.diverge i

/-! ## Swaps (R128 to R131) -/

/-- Replace the swap of a context at lane `i`. -/
def Block.setSwap (b : Block) (i : Nat) (x : Swap) : Block :=
  let h := b.laneH i
  b.setLaneH i { h with swaps := h.swaps.map fun y => if y.ctx = x.ctx then x else y }

/-- LANE_STAT.SWAP_PENDING follows the swaps whose prefetch has begun or that are deferred. -/
def Block.showSwap (b : Block) (i : Nat) : Block :=
  b.setFlag (U.lane i) F.LANE_STAT_SWAP_PENDING ((b.laneH i).swaps.any fun x => x.started || x.exe)

/-- A swap of a context is noted at lane `i`, after those with earlier stamps. -/
def insertSwap (x : Swap) : List Swap → List Swap
  | [] => [x]
  | y :: t => if x.stamp < y.stamp ∧ y.started = false then x :: y :: t else y :: insertSwap x t

/-- The cue of context `x` is applied after that of context `y` where both act at one Tc, and so prevails (R255). -/
def Block.cuePrevails (b : Block) (x y : Nat) : Bool :=
  let c := Store.get Ctx.init b.ctxs x
  let d := Store.get Ctx.init b.ctxs y
  if d.ctrl % 4 = c.ctrl % 4 ∧ d.origin = c.origin then decide (d.seq < c.seq)
  else rankedBefore (d.ctrl % 4) d.origin (c.ctrl % 4) c.origin

/-- The swap of context `ctx` joins the swaps of lane `i`. Of two with one stamp the prevailing one is carried out (R129). -/
def Block.swapNote (b : Block) (i ctx key stamp : Nat) : Block :=
  let h := b.laneH i
  let x : Swap := { ctx := ctx, stamp := stamp, key := key, slot := b.keySlot i key }
  if h.swaps.any fun y => y.ctx == ctx then b
  else
    match h.swaps.find? fun y => y.stamp == stamp with
    | none => b.setLaneH i { h with swaps := insertSwap x h.swaps }
    | some y =>
      if b.cuePrevails ctx y.ctx then b.setLaneH i { h with swaps := h.swaps.map fun z => if z.ctx = y.ctx then x else z } else b

/-- The swap of lane `i` that its shadow buffer serves: the first that no error has ended (R129). -/
def Block.swapHead (b : Block) (i : Nat) : Option Swap := (b.laneH i).swaps.find? fun x => !x.failed

/-- The prefetch for the swap that the shadow buffer of lane `i` serves begins, where it has not (R128): a slot that is not VALID loads
zero taps. -/
def Block.prefetchNext (b : Block) (i : Nat) : Block :=
  match b.swapHead i with
  | some x =>
    if x.started then b
    else
      let slot := b.keySlot i x.key
      let ok := b.slotValid slot
      let h := b.laneH i
      let h := if ok then { h with shadow := none } else { h with shadow := some slot, shadowTaps := [] }
      ((b.setLaneH i h).setSwap i { x with started := true, slot := slot, bank := ok, done := if ok then none else some b.t }).showSwap i
  | none => b

/-- The prefetch for a swap of lane `i` is due: it begins, or follows the swaps before it (R129). -/
def Block.prefetchStart (b : Block) (i ctx key stamp : Nat) : Block := (b.swapNote i ctx key stamp).prefetchNext i

/-- An uncorrectable error on the prefetch of a slot (R130). -/
def Block.modelEcc (b : Block) (i slot : Nat) : Block :=
  let u := U.lane i
  let cl := U.cl (i / 33)
  let b := { b with bank := { b.bank with valid := Store.set 0 b.bank.valid slot 0 } }
  let b := (b.incSat (U.cl 0) F.CL_MB_STAT_ECC 1).irq cl 18
  (b.setFlag u F.LANE_STAT_MODEL_ERR true).corrected u C.modelEcc

/-- The newest copy of a slot cannot be read whole (R289, R294). -/
def Block.slotBad (b : Block) (slot : Nat) : Bool := b.hbmBad (b.copyAddr slot (b.copyOf slot 0)) 4096

/-- With one copy a slot, a write of a model to `slot` is under way in place: a prefetch of the slot waits (R129). -/
def Block.slotWriting (b : Block) (slot : Nat) : Bool :=
  b.bankCopies == 1 && (Store.view b.lanes).any fun x => x.2.writing.any fun y => y.1 == slot

/-- A swap whose prefetch an error has ended leaves its lane once its cue has executed (R130). The shadow buffer serves the next. -/
def Block.swapDrop (b : Block) (i : Nat) : Block :=
  let h := b.laneH i
  ((b.setLaneH i { h with swaps := h.swaps.filter fun y => !(y.failed && y.exe) }).showSwap i).prefetchNext i

/-- The prefetch under way at lane `i` ends: of a swap, or of a revert. A revert whose prefetch an error has ended never completes: the
lane keeps its frozen taps under the cold cap (R130, R134). -/
def Block.prefetchDone (b : Block) (μ : Mem) (i : Nat) (ok : Bool) : Block :=
  let h := b.laneH i
  match h.swaps.find? fun x => x.started && x.done.isNone && !x.failed with
  | some x =>
    if b.slotWriting x.slot then b
    else if ok && !b.slotBad x.slot then
      (b.setLaneH i { h with shadow := some x.slot, shadowTaps := b.bankTaps μ x.slot }).setSwap i { x with done := some b.t }
    else ((b.modelEcc i x.slot).setSwap i { x with failed := true }).swapDrop i
  | none =>
    if h.revert && !b.slotWriting (b.fld (U.lane i) F.LANE_KEY_SLOT) then
      let slot := b.fld (U.lane i) F.LANE_KEY_SLOT
      if ok && !b.slotBad slot then
        let taps := b.bankTaps μ slot
        (b.setLaneH i { h with shadow := some slot, shadowTaps := taps }).revertDone i taps
      else (b.setLaneH i { h with revert := false }).modelEcc i slot
    else b

/-- MODEL_PREFETCH_DONE: a prefetch completes, or fails. -/
def execModelPrefetchDone (i : Nat) (ok : Bool) (s : State) : Host.Outcome State Fault Refusal :=
  s.done fun μ b => b.prefetchDone μ i ok

/-- A swap of lane `i` is late (R130). -/
def Block.swapLate (b : Block) (i : Nat) (x : Swap) : Block :=
  let u := U.lane i
  let b := if b.flag u F.LANE_STAT_MODEL_LATE then b else (b.setFlag u F.LANE_STAT_MODEL_LATE true).irq u 16
  let b := (b.incSat u F.LANE_STAT_LATE_CNT 1).setReg u R.LANE_LATE_STAMP (stampOf x.stamp)
  (b.setSwap i { x with late := true }).corrected u C.modelLate

/-- Write-back of the outgoing model (R129). -/
def Block.writeBack (b : Block) (i : Nat) : Block :=
  let u := U.lane i
  let h := b.laneH i
  if b.adaptFld i F.LANE_ADAPT_WB = 0 then b
  else
    let fit := match b.db u F.LANE_RESID_RESID, b.db u F.LANE_RESID_BASE with
      | some r, some base => b.adapt i == 2 && decide (r ≤ base + 64)
      | _, _ => false
    if fit then b.setLaneH i { h with writing := h.writing ++ [(b.fld u F.LANE_KEY_SLOT, b.tapsNow i)] }
    else if b.flag u F.LANE_STAT_WB_SKIP then b else (b.setFlag u F.LANE_STAT_WB_SKIP true).irq u 21

/-- The first swap of lane `i` takes place now (R128): the shadow buffer's taps apply and the lane trains. DEDUCED: whether the slot was
VALID counts as its prefetch began (log entry 100). -/
def Block.swapNow (b : Block) (i : Nat) (x : Swap) : Block :=
  let u := U.lane i
  let m := b.lanePbd i
  let b := b.writeBack i
  let h := b.laneH i
  let b := b.setLaneH i { h with taps := h.shadowTaps, next := none, revert := false, swaps := h.swaps.filter fun y => y.ctx ≠ x.ctx }
  let b := ((b.setFld u F.LANE_KEY_KEY x.key).setFld u F.LANE_KEY_SLOT x.slot).setFlag u F.LANE_KEY_FROM_BANK x.bank
  let b := (b.setReg u R.LANE_SWAP_STAMP b.now).irq u 20
  let b := b.unkEnd m fun y => y.lane == i && (y.cause == 2 || y.cause == 3 || y.cause == 5)
  let b := b.when (!x.bank) fun b => b.unkSet m { cause := 4, lane := i, from_ := b.t, cold := true, pub := false }
  let b := if b.ownState u = St.lull then b.setLaneState i St.active else b
  ((b.toTrain i).showSwap i).prefetchNext i

/-- A SWAPMODEL action executes at lane `i` (R118, R125, R128, R130). One over which another of the same stamp prevails has no effect
(R129). True where it was not refused. -/
def Block.swapExec (b : Block) (i ctx key stamp : Nat) : Block × Bool :=
  let u := U.lane i
  if (b.leaderOf i).isSome then (b.corrected u C.cfgLane, false)
  else if !(b.inService u) then (b, false)
  else if b.keyDirOk i key = false then (b.corrected u C.modelKey, false)
  else
    let b := if (b.laneH i).swaps.any fun y => y.ctx == ctx then b else b.prefetchStart i ctx key stamp
    match (b.laneH i).swaps.find? fun y => y.ctx == ctx with
    | none => (b, true)
    | some x =>
      if x.done.isSome ∧ x.late = false then (b.swapNow i x, true)
      else
        let b := if x.late then b else b.swapLate i x
        let b := (b.setSwap i { x with late := true, exe := true }).swapDrop i
        ((b.unkSet (b.lanePbd i) { cause := 2, lane := i, from_ := b.t, cold := true, pub := false }).showSwap i, true)

/-- A SWAPMODEL cue has expired at lane `i` (R128, R131). -/
def Block.swapExpire (b : Block) (i ctx : Nat) : Block :=
  let h := b.laneH i
  let b := ((b.setLaneH i { h with swaps := h.swaps.filter fun y => y.ctx ≠ ctx }).showSwap i).prefetchNext i
  b.unkSet (b.lanePbd i) { cause := 3, lane := i, from_ := b.t, cold := true, pub := false }

/-- Lanes that a SWAPMODEL target reaches (R118, R128). -/
def Block.swapLanes (b : Block) (target : Nat) : List Nat :=
  if kindOf target = 7 then [unitIndex target]
  else b.lanesOn.filter fun i => b.inService (U.lane i) && (b.leaderOf i).isNone && U.pbd (b.lanePbd i) == target

/-- The SWAPMODEL cues that pend for lane `i`, as its swaps (R128): those it has noted, and those still in their contexts. -/
def Block.swapsDue (b : Block) (i : Nat) : List Swap :=
  let l := (b.laneH i).swaps
  l ++ ((Store.view b.ctxs).filter fun x => x.2.action == 0x20 &&
      (x.2.state == Cue.armed || x.2.state == Cue.staged || x.2.state == Cue.waiting) && (b.swapLanes x.2.target).contains i &&
      b.keyDirOk i (x.2.arg 0 4) && !(l.any fun y => y.ctx == x.1)).map fun x =>
    { ctx := x.1, stamp := tcOf x.2.stamp, key := x.2.arg 0 4 }

/-- MODEL_SWAP_DEADLINE: at S − 2,048 a prefetch that is not complete, or has yet to begin, defers the swap. -/
def execModelSwapDeadline (i : Nat) (s : State) : Host.Outcome State Fault Refusal :=
  s.did fun b =>
    let l := (b.swapsDue i).filter fun x => !x.late && x.done.isNone
    match l.find? fun x => l.all fun y => decide (x.stamp ≤ y.stamp) with
    | some x => b.atElapsed (b.elapsedOfAir (x.stamp - 2048)) fun b =>
        let b := b.swapNote i x.ctx x.key x.stamp
        match (b.laneH i).swaps.find? fun y => y.ctx == x.ctx with
        | some y => if y.late ∨ y.done.isSome then b else b.swapLate i y
        | none => b
    | none => b

/-- MODEL_SWAP: at S a swap that is staged with its prefetch complete takes place. -/
def execModelSwap (i : Nat) (s : State) : Host.Outcome State Fault Refusal :=
  s.did fun b =>
    match b.swapHead i with
    | some x =>
      if x.staged ∧ x.done.isSome ∧ x.late = false ∧ b.time.air ≤ x.stamp then
        b.atElapsed (b.elapsedOfAir x.stamp) fun b => b.swapNow i x
      else b
    | none => b

/-- MODEL_DEFERRED_SWAP: a deferred swap takes place 2,048 Tc after its prefetch completes. -/
def execModelDeferredSwap (i : Nat) (s : State) : Host.Outcome State Fault Refusal :=
  s.did fun b =>
    match b.swapHead i with
    | some x =>
      match x.done with
      | some c => if x.late ∧ x.exe then b.atElapsed (c + 2048) fun b => b.swapNow i x else b
      | none => b
    | none => b

/-- Bytes of the taps of a model at an address of HBM. -/
def modelOps (a : Nat) (taps : Store Word) : List MemOp :=
  ((List.range 16).map fun j => .clearHbm (a + 256 * j) (a + 256 * j + 256)) ++ taps.flatMap fun x => byteOps (a + 4 * x.1) 4 (Word.fld x.2 31 0)

/-- MODEL_WRITE_DONE: a write of a model completes (R127, R129): the oldest copy becomes the newest and the slot VALID. -/
def Block.writeDone (b : Block) (i : Nat) : Block :=
  let h := b.laneH i
  match h.writing with
  | [] => b
  | (slot, taps) :: t =>
    let c := (Store.get 0 b.bank.newest slot + 1) % b.bankCopies
    let b := b.setLaneH i { h with writing := t, shadow := if h.shadow = some slot then none else h.shadow }
    { b.putOps (b.copyAddr slot c) 4096 (modelOps (b.copyAddr slot c) taps) with
      bank := { b.bank with valid := Store.set 0 b.bank.valid slot 1, newest := Store.set 0 b.bank.newest slot c } }

/-- MODEL_WRITE_DONE: a write-back or a SAVE completes. -/
def execModelWriteDone (i : Nat) (s : State) : Host.Outcome State Fault Refusal := s.did fun b => b.writeDone i

/-! ## Lane commands (R121, R129, R142) -/

/-- A lane command reaches lane `i` unless it follows a gang. -/
def Block.laneCmd (b : Block) (i : Nat) (f : Block → Block) : Block := if (b.leaderOf i).isSome then b else f b

/-- RESUME: FROZEN goes to TRAIN, the unit to ACTIVE; a divergence of the same Tc prevails (R254). -/
def Block.laneResume (b : Block) (i : Nat) : Block :=
  if b.adapt i ≠ 4 ∨ b.overridden (U.lane i) F.LANE_CMD_RESUME then b
  else
    let b := if b.ownState (U.lane i) = St.lull then b.setLaneState i St.active else b
    b.toTrain i

/-- RESUME: a write of LANE_CMD.RESUME. -/
def execLaneResume (who : Who) (i : Nat) (s : State) : Host.Outcome State Fault Refusal :=
  s.did fun b => b.wr who (U.lane i) F.LANE_CMD_RESUME fun b => b.laneCmd i (·.laneResume i)

/-- ZERO: zero taps are loaded and the lane trains under the cold cap, as for a swap to an invalid slot. -/
def Block.laneZero (b : Block) (i : Nat) : Block :=
  if b.adapt i = 0 then b
  else
    let u := U.lane i
    let b := (b.setLaneH i { b.laneH i with taps := [], next := none, revert := false }).setFlag u F.LANE_KEY_FROM_BANK false
    let b := b.unkSet (b.lanePbd i) { cause := 4, lane := i, from_ := b.t, cold := true, pub := false }
    let b := b.unkEnd (b.lanePbd i) fun y => y.lane == i && y.cause == 5
    let b := if b.ownState u = St.lull then b.setLaneState i St.active else b
    b.toTrain i

/-- ZERO: a write of LANE_CMD.ZERO. -/
def execLaneZero (who : Who) (i : Nat) (s : State) : Host.Outcome State Fault Refusal :=
  s.did fun b => b.wr who (U.lane i) F.LANE_CMD_ZERO fun b => b.laneCmd i (·.laneZero i)

/-- SAVE: the current taps are written to the slot in use, without the acceptance check. -/
def Block.laneSave (b : Block) (i : Nat) : Block :=
  if b.adapt i = 0 then b
  else
    let h := b.laneH i
    b.setLaneH i { h with writing := h.writing ++ [(b.fld (U.lane i) F.LANE_KEY_SLOT, b.tapsNow i)] }

/-- SAVE: a write of LANE_CMD.SAVE. -/
def execLaneSave (who : Who) (i : Nat) (s : State) : Host.Outcome State Fault Refusal :=
  s.did fun b => b.wr who (U.lane i) F.LANE_CMD_SAVE fun b => b.laneCmd i (·.laneSave i)

/-! ## Access to the bank (R127, R141); the CL_MB registers stand in the page of CL0 and read alike in every page -/

/-- A slot in use, or the pending slot, of a lane. -/
def Block.slotBusy (b : Block) (slot : Nat) : Bool :=
  b.lanesOn.any fun i => b.fld (U.lane i) F.LANE_KEY_SLOT == slot || (b.laneH i).swaps.any fun x => x.slot == slot

/-- A bank access begins from CL page `k`. -/
def Block.bankBegin (b : Block) (k : Nat) : Block :=
  let b := b.setFlag (U.cl 0) F.CL_MB_STAT_BUSY true
  { b with bank := { b.bank with busy := Store.set 0 b.bank.busy k 1 } }

/-- The bank's address advances: WORD, then SLOT. -/
def Block.mbAdvance (b : Block) (half : Half) : Block :=
  let u := U.cl 0
  if b.flag u F.CL_MB_ADDR_AUTOINC && halfHi half then
    let w := b.fld u F.CL_MB_ADDR_WORD
    let b := b.setFld u F.CL_MB_ADDR_WORD (w + 1)
    if w = 511 then b.setFld u F.CL_MB_ADDR_SLOT (b.fld u F.CL_MB_ADDR_SLOT + 1) else b
  else b

/-- An address beyond SLOTS sets RANGE. -/
def Block.mbRange (b : Block) : Block := b.setFlag (U.cl 0) F.CL_MB_STAT_RANGE true

/-- A write of CL_MB_DATA from page `k`: the newest copy takes it. -/
def Block.mbWrite (b : Block) (μ : Mem) (k : Nat) (half : Half) (v : Word) : Block :=
  let u := U.cl 0
  let slot := b.fld u F.CL_MB_ADDR_SLOT
  if b.bankSlots ≤ slot then b.mbRange
  else if b.slotBusy slot then
    (if b.flag u F.CL_MB_STAT_MB_BUSY then b else (b.setFlag u F.CL_MB_STAT_MB_BUSY true).irq (U.cl k) 17).mbAdvance half
  else
    let a := b.copyAddr slot (b.copyOf slot 0) + 8 * b.fld u F.CL_MB_ADDR_WORD
    ((b.putBytes a 8 (halfMerge half (BitVec.ofNat 64 (μ.rdBytes a 8)) v).toNat).bankBegin k).mbAdvance half

/-- MB_DATA_WRITE: a write of CL_MB_DATA. -/
def execMbDataWrite (who : Who) (k : Nat) (half : Half) (v : Word) (s : State) : Host.Outcome State Fault Refusal :=
  s.done fun μ b => b.wrReg who (U.cl k) R.CL_MB_DATA half fun b => b.mbWrite μ k half v

/-- A read of CL_MB_DATA from page `k`: the copy that COPY selects. DESIGN CHOICE: a word that cannot be read whole reads zero and
counts nowhere, ECC and cause 18 being of model prefetches (log entry 104). -/
def Block.mbRead (b : Block) (μ : Mem) (k : Nat) (half : Half) : Block :=
  let u := U.cl 0
  let slot := b.fld u F.CL_MB_ADDR_SLOT
  let copy := b.fld u F.CL_MB_ADDR_COPY
  if b.bankSlots ≤ slot then { b.mbRange with rdata := 0 }
  else if b.bankCopies ≤ copy then { (b.mbRange.bankBegin k).mbAdvance half with rdata := 0 }
  else
    let a := b.copyAddr slot (b.copyOf slot copy) + 8 * b.fld u F.CL_MB_ADDR_WORD
    { (b.bankBegin k).mbAdvance half with rdata := if b.hbmBad a 8 then 0 else BitVec.ofNat 64 (μ.rdBytes a 8) &&& halfMask half }

/-- MB_DATA_READ: a read of CL_MB_DATA. -/
def execMbDataRead (who : Who) (k : Nat) (half : Half) (s : State) : Host.Outcome State Fault Refusal :=
  s.done fun μ b => if b.readOk who (U.cl k) then b.mbRead μ k half else { b with rdata := 0 }

/-- A CL_MB_CTRL operation on a slot's VALID bit. -/
def Block.mbValid (b : Block) (k slot v : Nat) : Block :=
  if b.bankSlots ≤ slot then b.mbRange
  else { b.bankBegin k with bank := { (b.bankBegin k).bank with valid := Store.set 0 b.bank.valid slot v } }

/-- SET_VALID: a write of CL_MB_CTRL with OP 1. -/
def execSetValid (who : Who) (k slot : Nat) (s : State) : Host.Outcome State Fault Refusal :=
  s.did fun b => b.wr who (U.cl k) F.CL_MB_CTRL_OP fun b => b.mbValid k slot 1

/-- CLEAR_VALID: a write of CL_MB_CTRL with OP 2. -/
def execClearValid (who : Who) (k slot : Nat) (s : State) : Host.Outcome State Fault Refusal :=
  s.did fun b => b.wr who (U.cl k) F.CL_MB_CTRL_OP fun b => b.mbValid k slot 0

/-- CLEAR_ALL_VALID: a write of CL_MB_CTRL with OP 3. -/
def execClearAllValid (who : Who) (k : Nat) (s : State) : Host.Outcome State Fault Refusal :=
  s.did fun b => b.wr who (U.cl k) F.CL_MB_CTRL_OP fun b =>
    { b.bankBegin k with bank := { (b.bankBegin k).bank with valid := [] } }

/-- MB_ACCESS_DONE: the access from page `k` completes. -/
def execMbAccessDone (k : Nat) (s : State) : Host.Outcome State Fault Refusal :=
  s.did fun b =>
    if Store.get 0 b.bank.busy k = 0 then b
    else
      let b := { b with bank := { b.bank with busy := Store.set 0 b.bank.busy k 0 } }
      (b.setFlag (U.cl 0) F.CL_MB_STAT_BUSY (!b.bank.busy.isEmpty)).irq (U.cl k) 16

/-- The tap index advances after each access (R142). -/
def Block.tapNext (b : Block) (i : Nat) : Block := b.setFld (U.lane i) F.LANE_TAP_ADDR_TAP (b.fld (U.lane i) F.LANE_TAP_ADDR_TAP + 1)

/-- A write of LANE_TAP_DATA: taken in OFF, and in HOLD with ADAPT_EN = 0. -/
def Block.tapWrite (b : Block) (i : Nat) (v : Word) : Block :=
  let u := U.lane i
  if b.adapt i = 0 ∨ (b.adapt i = 3 ∧ b.adaptFld i F.LANE_ADAPT_ADAPT_EN = 0) then
    (b.setLaneH i { b.laneH i with
      taps := Store.set (0 : Word) (b.tapsNow i) (b.fld u F.LANE_TAP_ADDR_TAP) (v &&& 0xFFFFFFFF#64), next := none }).tapNext i
  else (b.setFlag u F.LANE_STAT_CFG_REJ true).tapNext i

/-- TAP_DATA_WRITE: a write of LANE_TAP_DATA. -/
def execTapDataWrite (who : Who) (i : Nat) (half : Half) (v : Word) (s : State) : Host.Outcome State Fault Refusal :=
  s.did fun b => b.wrReg who (U.lane i) R.LANE_TAP_DATA half fun b =>
    b.laneCmd i fun b => if half = .hi then b.tapNext i else b.tapWrite i v

/-- TAP_DATA_READ: a read of LANE_TAP_DATA; a follower reads zero. -/
def execTapDataRead (who : Who) (i : Nat) (s : State) : Host.Outcome State Fault Refusal :=
  s.did fun b =>
    if b.readOk who (U.lane i) = false ∨ (b.leaderOf i).isSome then { b with rdata := 0 }
    else { b.tapNext i with rdata := Store.get (0 : Word) (b.tapsNow i) (b.fld (U.lane i) F.LANE_TAP_ADDR_TAP) }

/-! ## Long reach (R139, R140) -/

/-- DLY_UNDERRUN: the delay line cannot deliver a reference sample in time. -/
def execDlyUnderrun (i : Nat) (s : State) : Host.Outcome State Fault Refusal :=
  s.did fun b =>
    let u := U.lane i
    if b.adapt i = 0 ∨ b.laneLr i = false then b
    else
      let b := if b.flag u F.LANE_STAT_DLY_UNDERRUN then b else (b.setFlag u F.LANE_STAT_DLY_UNDERRUN true).irq u 19
      let b := (b.setLaneH i { b.laneH i with underrun := true, blockBad := true }).corrected u C.dlyUnderrun
      b.unkSet (b.lanePbd i) { cause := 7, lane := i, from_ := b.t, cold := true, pub := false }

/-- The offsets of the long-reach windows of lane `i` move by `d` Tc, rounded to whole sample periods (R139): none where a
moved window would break R117. -/
def Block.moveWins (b : Block) (i : Nat) (d : Int) : Option Block :=
  let p := sampleTc (b.laneRate i)
  let step := rne d p * p
  let ok := (b.laneWins i).all fun w => !w.2.2 || decide (0 ≤ (w.1 : Int) + step)
  let b' := b.each (List.range 4) fun b w =>
    if b.flag (U.lane i) (F.LANE_WIN_LR w) && b.fld (U.lane i) (F.LANE_WIN_LEN w) != 0 then
      b.setFld (U.lane i) (F.LANE_WIN_D w) ((b.fld (U.lane i) (F.LANE_WIN_D w) : Int) + step).toNat
    else b
  if ok && winsOk p (b'.laneWins i) then some b' else none

/-! ## Publication (R131, R137) -/

/-- A publication ends the causes of margin unknown whose condition it meets; the integration began at elapsed `start`. -/
def Block.pubEnds (b : Block) (m : Nat) (start : Nat) : Block :=
  let h := b.pbdH m
  let b := b.setPbdH m { h with unknown := h.unknown.map fun x =>
    if x.cause = 4 ∧ x.from_ < start then { x with pub := true } else x }
  b.unkEnd m fun x => x.cause == 0 || x.cause == 1 || ((x.cause == 3 || x.cause == 6 || x.cause == 8) && x.from_ < start) ||
    (x.cause == 4 && x.pub && b.adapt x.lane == 2)

/-- The 10th percentile of readings: the least of them that at least a tenth of them do not exceed. -/
def tenth (l : List Int) : Option Int :=
  (l.filter fun r => l.length ≤ 10 * (l.filter fun x => x ≤ r).length).foldl
    (fun (a : Option Int) r => match a with | none => some r | some x => some (min x r)) none

/-- A tick has ended at PBD `m`: its valid Tc and its readings join those of the last 1,920 ticks, which an integration spans
(R136, R137). A PBD that is out of service and has none left keeps none. -/
def Block.probeTick (b : Block) (m : Nat) : Block :=
  let h := b.pbdH m
  let ticks := (Store.get 0 b.time.probed m :: h.probeTicks).take 1920
  let reads := (h.readsNow :: h.reads).take 1920
  if h.capacity = false ∧ ticks.all (· == 0) ∧ reads.all (·.isEmpty) then
    b.setPbdH m { h with probeTicks := [], reads := [], readsNow := [] }
  else b.setPbdH m { h with probeTicks := ticks, reads := reads, readsNow := [] }

/-- A tick has ended at every PBD. -/
def Block.probeTicks (b : Block) : Block :=
  let b := b.each ((Store.view b.pbds).map (·.1)) fun b m => b.probeTick m
  { b with time := { b.time with probed := [] } }

/-- The level of the probe of PBD `m`: DEPTH below the output noise floor, the 10th percentile of the output chain's readings over
the preceding integration (R135). DESIGN CHOICE: where that integration holds no reading, the level stays (log entry 100). -/
def Block.probeLevel (b : Block) (m : Nat) : Block :=
  let h := b.pbdH m
  match tenth h.reads.flatten with
  | some r => b.setPbdH m { h with probeLevel := some (r - 64 * b.fld (U.pbd m) F.PBD_PROBE_CFG_DEPTH) }
  | none => b

/-- Tc of an integration, and those of them that were valid at PBD `m` (R136, R137). -/
def probeSpan : Nat := 1920 * tickTc
def Block.probeValid (b : Block) (m : Nat) : Nat := (b.pbdH m).probeTicks.sum

/-- What the correlator found of one path at one lag (R136): a receive slot, a transmit slot, the lag in Tc, and the correlated probe
power over the injected power in units of 2^-48. The lags are those to 65,535 Tc and those inside the long-reach windows of the
PBD's lanes. -/
def Block.lagSeen (b : Block) (m lag : Nat) : Bool :=
  decide (lag < 65536) || (b.lanesOn.any fun i => b.lanePbd i == m && (b.laneWins i).any fun w =>
    w.2.2 && decide (w.1 ≤ lag) && decide (lag < w.1 + w.2.1 * sampleTc (b.rateOf m)))

/-- The loop gain from what the correlator found: the largest, over receive slots, of the sum over its paths and their lags (R136). -/
def Block.loopGain (b : Block) (m : Nat) (paths : List (Nat × Nat × Nat × Nat)) : Nat :=
  let seen := paths.filter fun y => b.lagSeen m y.2.2.1 && (b.txSlots m).any fun z => z.1 == y.2.1
  (b.rxSlots m).foldl (fun a x => max a ((seen.filter fun y => y.1 == x.1).foldl (fun s y => s + y.2.2.2) 0)) 0

/-- The probe's registers at a publication (R137, R143): LG is floored at −40 dB; below a valid fraction of 10 %, or with the output
chain stopped, nothing is published. -/
def Block.publish (b : Block) (m : Nat) (lg gbar : Int) (runs : Bool) : Block :=
  let u := U.pbd m
  let (b, pct) := b.roundFree (100 * b.probeValid m : Nat) probeSpan
  let b := b.setFld u F.PBD_PROBE_STAT_VALID_PCT (min 100 pct.toNat)
  if runs = false then b.unkSet m { cause := 1, lane := 0, from_ := b.t, cold := false, pub := false }
  else
    let lg := max (-2560) (min 32767 lg)
    let b := (b.setFld u F.PBD_PROBE_STAT_LG (dbCode lg)).setFld u F.PBD_PROBE_STAT_MARGIN (dbCode (-lg))
    let b := (b.setFld u F.PBD_PROBE_STAT_ISO_EST (dbCode (gbar - lg))).setReg u R.PBD_PROBE_PUB b.now
    b.pubEnds m (b.t - 1920 * tickTc)

end Sys2Proof.Machine
end

