-- ==== Sys2Proof/Machine/Rings.lean ====
section
/-! DEFINITION.
Rings (R256 to R259, R262): descriptors, doorbells, entries in HBM or host memory, interrupts, dispatcher notifications
(R260), and the ring engine's pops into contexts (R244, R258). -/
namespace Sys2Proof.Machine

/-- A ring entry of 64 bytes, byte 0 in the low bits. -/
abbrev Entry := BitVec 512

/-- Ring `r`. -/
def Block.ring (b : Block) (r : Nat) : RingH := Store.get RingH.init b.rings r
def Block.setRing (b : Block) (r : Nat) (g : RingH) : Block := { b with rings := Store.set RingH.init b.rings r g }

/-! ## Descriptor fields (R262) -/

def RingH.log2 (g : RingH) : Nat := Word.fld g.d1 4 0
def RingH.inHost (g : RingH) : Bool := Word.fld g.d1 5 5 == 1
def RingH.cls (g : RingH) : Nat := Word.fld g.d1 7 6
def RingH.owner (g : RingH) : Nat := Word.fld g.d1 14 8
def RingH.en (g : RingH) : Bool := Word.fld g.d1 15 15 == 1
def RingH.func (g : RingH) : Nat := Word.fld g.d1 20 16
def RingH.vec (g : RingH) : Nat := Word.fld g.d1 31 21
def RingH.thresh (g : RingH) : Nat := Word.fld g.d1 55 32

/-- Ring classes (R257). -/
def clsCue : Nat := 0
def clsCmd : Nat := 1
def clsEvt : Nat := 2
def clsLog : Nat := 3

/-- Entries held: PROD - CONS modulo 2^32 (R256). -/
def RingH.occ (g : RingH) : Nat := (g.prod + 2 ^ 32 - g.cons) % 2 ^ 32

/-- A ring is full at 2^LOG2 (R256). -/
def RingH.isFull (g : RingH) : Bool := 2 ^ g.log2 ≤ g.occ

/-- Address of entry `i`: an HBM address in the RING region, or a host I/O virtual address. -/
def Block.entryAddr (b : Block) (g : RingH) (i : Nat) : Nat :=
  (if g.inHost then g.base.toNat else b.regionBase 1 + g.base.toNat) + 64 * (i % 2 ^ g.log2)

/-- Write entry `i` of a ring to its storage. -/
def Block.entryPut (b : Block) (g : RingH) (i : Nat) (e : Entry) : Block :=
  if g.inHost then
    { b with hostOut := b.hostOut ++ [{ func := g.func, addr := b.entryAddr g i, len := 64, data := e.toNat }] }
  else b.putBytes (b.entryAddr g i) 64 e.toNat

/-- Read entry `i` of a ring: from HBM, or as the host's memory answers. -/
def Block.entryGet (b : Block) (μ : Mem) (g : RingH) (i : Nat) (host : Entry) : Entry :=
  if g.inHost then host else BitVec.ofNat 512 (μ.rdBytes (b.entryAddr g i) 64)

/-- Entry `i` of a ring lies in HBM that cannot be read (R289, R294). -/
def Block.entryBad (b : Block) (g : RingH) (i : Nat) : Bool := !g.inHost && b.hbmBad (b.entryAddr g i) 64

/-- The vector of an EVT or LOG ring after a push (R259). -/
def Block.ringIrq (b : Block) (r : Nat) : Block :=
  let g := b.ring r
  if (g.cls = clsEvt ∨ g.cls = clsLog) ∧ g.raised = false ∧ max g.thresh 1 ≤ g.occ ∧ g.func ≤ 16 then
    (b.setRing r { g with raised := true }).sendVec g.func g.vec
  else b

/-- Push an entry onto a ring that has room. -/
def Block.ringPush (b : Block) (r : Nat) (e : Entry) : Block :=
  let g := b.ring r
  let b := b.entryPut g g.prod e
  (b.setRing r { g with prod := (g.prod + 1) % 2 ^ 32 }).ringIrq r

/-- A ring's FAULT is set (R258, R262, R263). -/
def Block.ringFault (b : Block) (r : Nat) : Block := (b.setRing r { b.ring r with fault := true }).irq U.dsp 20

/-- A loss entry with its count (R260). -/
def lossEntry (n : Nat) : Entry := BitVec.ofNat 512 ((n <<< 256) + (0x02 <<< 504))

/-- When space has returned, the dispatcher first posts one loss entry with the count (R259). -/
def Block.postLoss (b : Block) (r : Nat) : Block :=
  let g := b.ring r
  if g.lossDue ≠ 0 ∧ g.en ∧ g.isFull = false then (b.setRing r { g with lossDue := 0 }).ringPush r (lossEntry g.lossDue) else b

/-- Post a dispatcher notification on an EVT ring (R259). -/
def Block.notifyPost (b : Block) (r : Nat) (e : Entry) : Block :=
  let g := b.ring r
  if g.en = false ∨ g.cls ≠ clsEvt then b
  else
    let b := b.postLoss r
    let g := b.ring r
    if g.isFull then (b.note 32 9 1).setRing r { g with lost := satAdd 65535 g.lost 1, lossDue := g.lossDue + 1 }
    else (b.note 32 8 1).ringPush r e

/-- The ring that takes the notifications of an origin index (R260). -/
def Block.notifyRing (b : Block) (origin : Nat) : Option Nat :=
  if origin < 16384 then
    let n := (b.ring origin).notify
    if n / 16384 % 2 = 1 then some (n % 16384) else none
  else if origin ≤ 16385 then none
  else
    match (List.range 32).find? fun n => b.fld (U.ce n) F.CE_CFG_ORIGIN == origin with
    | some n => if b.flag (U.ce n) F.CE_CFG_NOTIFY_V then some (b.fld (U.ce n) F.CE_CFG_NOTIFY_RING) else none
    | none => none

/-- The notification entry of a retired occurrence (R260). -/
def notifyEntry (x : Nat) (c : Ctx) : Entry :=
  BitVec.ofNat 512 (c.stamp.toNat + (c.effAt.toNat <<< 64) + (x <<< 128) + (c.action <<< 152) + (c.target <<< 160) +
    (c.result <<< 176) + (c.ctrl <<< 184) + (c.lateness <<< 192) + (c.occ <<< 224) + (0x01 <<< 504))

/-! ## Doorbells (R258) -/

/-- The host function that a writer is. -/
def whoFunc (who : Who) : Option Nat :=
  match who with | .pf => some 0 | .vf k => some k | _ => none

/-- DOORBELL: a write of [31:0] at BAR2 + 8r (R258). -/
def Block.doorbell (b : Block) (who : Who) (r v : Nat) : Block :=
  let g := b.ring r
  if b.inReset ∨ b.linkDown ∨ b.flag 0 F.FLT_MODE_FATAL ∨ whoFunc who ≠ some g.func then b
  else if g.cls = clsCue ∨ g.cls = clsCmd then
    let occ := (v + 2 ^ 32 - g.cons) % 2 ^ 32
    if occ < g.occ ∨ 2 ^ g.log2 < occ then (b.ringFault r).corrected U.dsp C.ringIndex
    else b.setRing r { g with prod := v }
  else
    let occ := (g.prod + 2 ^ 32 - v) % 2 ^ 32
    if g.occ < occ then (b.ringFault r).corrected U.dsp C.ringIndex
    else (b.setRing r { g with cons := v, raised := false }).postLoss r

/-- DOORBELL: the function that may ring moves the producer or the consumer index. -/
def execDoorbell (who : Who) (r v : Nat) (s : State) : Host.Outcome State Fault Refusal := s.did fun b => b.doorbell who r v

/-! ## Descriptors (R262) -/

/-- The descriptor and context windows answer the PF and the warden. -/
def dspWindow (who : Who) : Bool :=
  match who with | .pf | .mspi | .warden => true | .engine n _ => n == 32 | _ => false

/-- A descriptor that may be enabled: LOG2 4 to 24, an owner and a function that exist, a vector of that function's block
(R427), and a base that is a multiple of the lower of the ring size and 4 KiB and, in HBM, lies with the ring in the RING
region. -/
def Block.ringValid (b : Block) (g : RingH) : Bool :=
  let size := 64 * 2 ^ g.log2
  let o := g.owner
  4 ≤ g.log2 && g.log2 ≤ 24 && (o == 0 || (32 ≤ o && o < 96) || o == 127) && (g.func == 31 || b.vecInBlock g.func g.vec) &&
    g.base.toNat % min size 4096 == 0 && (g.inHost || g.base.toNat + size ≤ b.regionSize 1)

/-- Bits of D1 other than EN that a field names. -/
def d1Mask : Word := BitVec.ofNat 64 0x00FFFFFFFFFF7FFF

/-- A write of D0, D1 or D3 of the ring that DSP_RING_SEL shows. -/
def Block.ringDesc (b : Block) (who : Who) (off : Nat) (half : Half) (v : Word) : Block :=
  let r := b.fld U.dsp F.DSP_RING_SEL_RING
  let g := b.ring r
  if dspWindow who = false then b
  else if off = R.DSP_RING_D0 then
    if g.en then b else b.setRing r { g with base := halfMerge half g.base v }
  else if off = R.DSP_RING_D1 then
    let new := halfMerge half g.d1 v
    let en := Word.fld new 15 15 = 1
    if g.en then
      if en then b else b.setRing r { g with d1 := Word.setFld g.d1 15 15 0 }
    else
      let new := if 64 ≤ Word.fld new 14 8 ∧ whoWarden who = false then Word.setFld new 14 8 g.owner else new
      let g := { g with d1 := new &&& d1Mask }
      if en then
        if b.ringValid g then b.setRing r { g with d1 := Word.setFld g.d1 15 15 1, prod := 0, cons := 0, raised := false }
        else (b.setRing r g).corrected U.dsp C.ringCfg
      else b.setRing r g
  else if off = R.DSP_RING_D3 ∧ halfHas half F.DSP_RING_D3_FAULT then
    b.setRing r { g with notify := Word.fld v 46 32, fault := g.fault && Word.fld v 47 47 == 0 }
  else b

/-- RING_DESCRIPTOR_WRITE: a write of a ring descriptor configures or enables the ring, or is refused. -/
def execRingDescriptorWrite (who : Who) (off : Nat) (half : Half) (v : Word) (s : State) : Host.Outcome State Fault Refusal :=
  s.did fun b => b.wrReg who U.dsp off half fun b => b.ringDesc who off half v

/-! ## The ring engine (R244, R258) -/

/-- The next non-empty enabled CUE ring after the one popped last, round-robin. -/
def Block.nextCueRing (b : Block) : Option Nat :=
  let ok := ((Store.view b.rings).filter fun x => x.2.en && x.2.cls == clsCue && x.2.occ != 0).map (·.1)
  match ok.find? fun r => b.dsp.lastRing < r with
  | some r => some r
  | none => ok.head?

/-- The target of a cue from ring `g` is allowed: by the mask of the engine that owns it at user privilege, or by the UID
set of the VF that rings where its owner is none (R218, R244, R422). -/
def Block.ringAllowed (b : Block) (g : RingH) (u : Nat) : Bool :=
  if 32 ≤ g.owner ∧ g.owner < 64 then b.maskMay (g.owner - 32) true u
  else if g.owner = 0 ∧ 1 ≤ g.func ∧ g.func ≤ 16 then b.vfMay g.func true u
  else true

/-- The ring engine pops one entry: it arms it, or skips it as refused or unreadable. -/
def Block.ringPop (b : Block) (μ : Mem) (host : Entry) (bad : Bool) : Block :=
  if b.flag U.dsp F.DSP_STAT_CUE_FULL ∨ b.flag 0 F.FLT_MODE_FATAL ∨ b.coasting then b
  else
    match b.nextCueRing, b.allocCtx with
    | some r, some x =>
      let due := max b.t (if b.dsp.poppedAt = 0 then 0 else b.dsp.poppedAt - 1 + 8)
      b.atElapsed due fun b =>
        let g := b.ring r
        let e := b.entryGet μ g g.cons host
        let bad := bad || b.entryBad g g.cons
        let b := (b.note 32 7 1).setRing r { g with cons := (g.cons + 1) % 2 ^ 32 }
        let b := { b with dsp := { b.dsp with lastRing := r, poppedAt := b.t + 1 } }
        if bad then b.ringFault r
        else
          let sys := decide (64 ≤ g.owner)
          let c := Ctx.image fun j => (e >>> (128 * j)).setWidth 128
          match cueCheck c sys (b.ringAllowed g c.target) with
          | some code =>
            ((b.setRing r { b.ring r with refused := satAdd 65535 g.refused 1 }).armRefused).corrected U.dsp code
          | none => b.armInto x { c with origin := r, sys := sys }
    | _, _ => b

/-- CUE_RING_POP: the ring engine pops a CUE ring entry. `host` is what the host's memory holds for a ring that lies there. -/
def execCueRingPop (host : Entry) (bad : Bool) (s : State) : Host.Outcome State Fault Refusal :=
  s.done fun μ b => b.ringPop μ host bad

end Sys2Proof.Machine
end

