-- ==== Sys2Proof/Machine/Fields.lean ====
section
/-! DEFINITION.
A plain write of a register, field by field: the access codes of R12, the ranges of R470 and R10, the half that is
addressed (R11), and the writes of the same Tc that prevail (R255). -/
namespace Sys2Proof.Machine

/-- The value that a field of `w` bits takes of a written value, and whether its range clamped it with CLAMP (R470). -/
def clampRow (r : Row) (n : Nat) : Nat × Bool :=
  match r.rng with
  | .any | .code8000 => (n, false)
  | .u lo hi => (max lo (min hi n), decide (n < lo ∨ hi < n))
  | .s lo hi =>
    let w := r.hi + 1 - r.lo
    let i := sext w n
    (toCode w (max lo (min hi i)), decide (i < lo ∨ hi < i))
  | .q lo hi => (max lo (min hi n), false)

/-- The place of a table row as a field of the register at `off`. -/
def Row.at (r : Row) (off : Nat) : Fld := ⟨off, r.hi, r.lo⟩

/-- The value of a field of a written word after its clamp: what a write gives the rule of the field (R470). -/
def clampedFld (uid : Nat) (f : Fld) (v : Word) : Nat × Bool :=
  let n := Word.fld v f.hi f.lo
  match regAt uid f.off with
  | some (d, _) =>
    match d.rows.find? fun r => r.hi == f.hi && r.lo == f.lo with
    | some r => clampRow r n
    | none => (n, false)
  | none => (n, false)

/-- A write of one table row of a register: true where the range clamped it. -/
def Block.putRow (b : Block) (who : Who) (u off : Nat) (half : Half) (v : Word) (r : Row) : Block × Bool :=
  let f := r.at off
  if halfHas half f = false then (b, false)
  else
    let old := b.reg u off
    match r.acc with
    | .ro | .wo => (b, false)
    | .w1c =>
      let ones := v &&& halfMask half &&& fldMask r.hi r.lo
      (b.setReg u off (old &&& ~~~ones), false)
    | .rwl =>
      if b.host.isSealed then (b, false)
      else
        let (n, c) := clampRow r (Word.fld (halfMerge half old v) r.hi r.lo)
        (b.setFld u f n, c)
    | .rw =>
      let held := b.heldBits who u off
      let (n, c) := clampRow r (Word.fld (halfMerge half old v) r.hi r.lo)
      let new := Word.setFld old r.hi r.lo n
      (b.setReg u off ((old &&& held) ||| (new &&& ~~~held)), c)

/-- A plain write of a register but for the fields that `skip` names: every field by its access code, and one CLAMP where a
range clamped a field (R470). -/
def Block.putReg (b : Block) (who : Who) (u off : Nat) (half : Half) (v : Word) (skip : List Fld) : Block :=
  match regAt u off with
  | none => b
  | some (d, _) =>
    let x := (d.rows.filter fun r => !(skip.any fun f => f.hi == r.hi && f.lo == r.lo)).foldl
      (fun (x : Block × Nat) r =>
        let (b, c) := x.1.putRow who u off half v r
        (b, x.2 + bit c)) (b, 0)
    x.1.each (List.range x.2) fun b _ => b.correctedBy who u C.clamp

/-- The value of a half write of a WO field: the bits outside the half are zero. -/
def woFld (half : Half) (v : Word) (f : Fld) : Nat := Word.fld (halfMerge half 0 v) f.hi f.lo

/-- A written half sets a one-bit action field. -/
def asks (half : Half) (v : Word) (f : Fld) : Bool := woFld half v f != 0

end Sys2Proof.Machine
end

