-- ==== Sys2Proof/Machine/Zhovo.lean ====
section
/-! DEFINITION.
How a Zhovo engine executes one instruction: registers and predicates (R209), instruction words (R220), fetch regions
(R215), retirement and the tracer (R386, R387), exceptions (R234 to R236), and blocking. -/
namespace Sys2Proof.Machine

/-! ## Registers (R209, R212) -/

/-- The 128 bits of a general register; w0 reads as zero. -/
def EngH.rd (h : EngH) (r : Nat) : Quad := if r = 0 then 0 else Store.get 0 h.w r

/-- The low 64 bits of a general register. -/
def EngH.rd64 (h : EngH) (r : Nat) : Word := (h.rd r).setWidth 64

/-- The upper 64 bits of a general register. -/
def EngH.rdHi (h : EngH) (r : Nat) : Word := (h.rd r >>> 64).setWidth 64

/-- Write a general register; a write of w0 is discarded. -/
def EngH.wr (h : EngH) (r : Nat) (v : Quad) : EngH := if r = 0 then h else { h with w := Store.set 0 h.w r v }

/-- A scalar result: the upper 64 bits become zero. -/
def EngH.wr64 (h : EngH) (r : Nat) (v : Word) : EngH := h.wr r (v.setWidth 128)

/-- A predicate; p0 reads true. -/
def EngH.pred (h : EngH) (i : Nat) : Bool := i == 0 || (h.p >>> i) % 2 == 1

/-- Write a predicate; a write of p0 is discarded. -/
def EngH.setPred (h : EngH) (i : Nat) (v : Bool) : EngH :=
  if i = 0 then h else { h with p := h.p - (((h.p >>> i) % 2) <<< i) + (bit v <<< i) }

/-- The status register (R212). -/
def EngH.status (h : EngH) : Word :=
  BitVec.ofNat 64 (bit h.late + 2 * bit h.empty + 4 * bit h.full + 8 * bit h.sat + 16 * bit h.bferr + 32 * bit h.ctxbusy +
    64 * bit h.dmaerr + 128 * bit h.req + 256 * bit h.sys + 512 * bit h.psys + 1024 * bit h.inexc)

/-- MTS of the status register: bits [7:0] only. -/
def EngH.setStatus (h : EngH) (v : Word) : EngH :=
  let f := fun i => Word.fld v i i == 1
  { h with late := f 0, empty := f 1, full := f 2, sat := f 3, bferr := f 4, ctxbusy := f 5, dmaerr := f 6, req := f 7 }

/-! ## Instruction words (R220) -/

/-- A word of format A, T or U. -/
def insnA (op wd wa wb pr fn : Nat) : Nat :=
  (op <<< 26) + (wd <<< 21) + (wa <<< 16) + (wb <<< 11) + (pr <<< 8) + fn

/-- A word of format I or M. -/
def insnI (op wd wa pr imm : Nat) : Nat := (op <<< 26) + (wd <<< 21) + (wa <<< 16) + (pr <<< 13) + imm

/-- A word of format B. -/
def insnB (op pr off : Nat) : Nat := (op <<< 26) + (pr <<< 23) + off

/-! ## Where an engine runs -/

/-- Size of an engine's instruction SRAM in bytes (R214, R238). -/
def imemSize (n : Nat) : Nat := if n < 32 then 0x20000 else 0x40000

/-- Size of an engine's data SRAM in bytes (R214, R238). -/
def dmemSize (n : Nat) : Nat := if n < 32 then 0x40000 else 0x80000

/-- Instruction and data splits of a cue engine, as byte offsets (R215, R239). -/
def Block.isplit (b : Block) (n : Nat) : Nat := b.fld (U.ce n) F.CE_PART_ISPLIT * 4096
def Block.dsplit (b : Block) (n : Nat) : Nat := b.fld (U.ce n) F.CE_PART_DSPLIT * 4096

/-- A fetch is allowed (R215): system code from the system region, user code from the user region. -/
def Block.fetchOk (b : Block) (n : Nat) (pc : Word) : Bool :=
  let a := pc.toNat
  if n < 32 then decide (a < imemSize n) && (if (b.eng n).sys then a < b.isplit n else b.isplit n ≤ a)
  else a < imemSize n

/-- Engine `n` issues instructions: it runs, is not suspended and nothing holds it. -/
def Block.engLive (b : Block) (n : Nat) : Bool :=
  let h := b.eng n
  h.running && !h.paused && h.blocked.isNone && !b.inReset

/-- Origin index of an engine's writes and cues (R218, R238). -/
def Block.engOrigin (b : Block) (n : Nat) : Nat := if n < 32 then b.fld (U.ce n) F.CE_CFG_ORIGIN else 16385

/-- Limit of an engine's watchdog in cycles (R236, R239). -/
def Block.wdLimit (b : Block) (n : Nat) : Nat := (if n < 32 then max 1 (b.fld (U.ce n) F.CE_WDOG_LIMIT) else 1024) * 1024

/-- Cycles that the watchdog has counted: it stands still while the engine is blocked (R236). -/
def Block.wdCount (b : Block) (n : Nat) : Nat :=
  let h := b.eng n
  if h.running = false then 0 else ((if h.block.isSome then h.blockAt else b.t) - h.wdFrom) / engTc n

/-! ## The tracer (R386, R387) -/

/-- Write an entry of tracer `t` for engine `n`: at most one entry in an engine cycle, that of the lowest engine. -/
def Block.tracePut (b : Block) (t n : Nat) (q : Quad) : Block :=
  let p := b.fld U.tally (F.TR_STAT_WPTR t)
  let cyc := b.t / 2 + 1
  let last := Store.get TrLast.init b.tally.last t
  if last.cycle = cyc then
    let b := b.incSat U.tally (F.TR_STAT_DROPS t) 1
    if n < last.eng then
      ({ b with tally := { b.tally with last := Store.set TrLast.init b.tally.last t { last with eng := n } } }).put .tracer
        (t * 4096 + last.pos % 4096) q
    else b
  else
  let b := { b with tally := { b.tally with last := Store.set TrLast.init b.tally.last t { cycle := cyc, eng := n, pos := p } } }
  let b := (b.put .tracer (t * 4096 + p) q).setFld U.tally (F.TR_STAT_WPTR t) (p + 1)
  if p = 4095 then
    if b.flag U.tally (F.TR_CTRL_STOP_FULL t) then
      ((b.setFlag U.tally (F.TR_CTRL_RUN t) false).setFlag U.tally (F.TR_STAT_FULL_STOP t) true).irq U.tally 18
    else b.setFlag U.tally (F.TR_STAT_WRAPPED t) true
  else b

/-- A retired instruction at the tracer of its cluster: an Nth sample, a latency at or above the threshold, or TRACE. Its
latency is a free value. -/
def Block.traceInsn (b : Block) (n insn : Nat) (pc : Word) (sys off tr : Bool) : Block :=
  let t := n / 8
  if n < 32 ∧ b.flag U.tally (F.TR_CTRL_RUN t) ∧ (b.fld U.tally (F.TR_CTRL_ENG t) >>> (n % 8)) % 2 = 1 then
    let h := b.eng n
    let nth := b.fld U.tally (F.TR_CFG_NTH t)
    let thr := b.fld U.tally (F.TR_CFG_LAT_THR t)
    let (b, i) := b.takeFree
    let lat := min 65535 (Config.latency i)
    let hitN := nth != 0 && nth ≤ h.samp + 1
    let hitL := thr != 0 && thr ≤ lat
    let b := b.setEng n { h with samp := if hitN then 0 else h.samp + 1 }
    if hitN || hitL || tr then
      let why := if hitN then 0 else if hitL then 1 else 2
      b.tracePut t n (BitVec.ofNat 128 (insn + ((pc.toNat / 4 % 32768) <<< 32) + (bit sys <<< 47) + (n <<< 48) + (bit off <<< 53) +
        (why <<< 54) + (lat <<< 64) + ((b.now.toNat % 2 ^ 24) <<< 80)))
    else b
  else b

/-! ## Retirement -/

/-- An event of a cue engine's tally block (R383); the warden has none. -/
def Block.noteEng (b : Block) (n ev : Nat) : Block := if n < 32 then b.note n ev 1 else b

/-- An instruction of engine `n` retires and execution goes on at `pc`. `held` says that it blocked, which restarts the
watchdog (R236, R239). -/
def Block.retire (b : Block) (n insn : Nat) (sys off tr held : Bool) (pc : Word) : Block :=
  let h := b.eng n
  let b := b.setEng n { h with pc := pc, wdFrom := if held then b.t else h.wdFrom }
  let b := if n < 32 then (b.noteEng n 0).setFld (U.ce n) F.CE_RETIRED_COUNT (b.fld (U.ce n) F.CE_RETIRED_COUNT + 1) else b
  b.traceInsn n insn h.pc sys off tr

/-! ## Exceptions (R234 to R236) -/

/-! Exception causes. -/
namespace X
def illegal : Nat := 1
def denied : Nat := 2
def misaligned : Nat := 3
def ringFault : Nat := 4
def watchdog : Nat := 5
def syscall : Nat := 8
def trap : Nat := 9
def hostReq : Nat := 10
end X

/-- Latch an exception into CE_EXC, CE_EXC_PC and CE_EXC_VAL. -/
def Block.excLatch (b : Block) (n cause detail : Nat) (val epc : Word) (sys : Bool) : Block :=
  let u := U.ce n
  if n < 32 then
    let b := b.setReg u R.CE_EXC (BitVec.ofNat 64 (cause + (detail <<< 8) + (bit sys <<< 16)))
    (b.setReg u R.CE_EXC_PC epc).setReg u R.CE_EXC_VAL val
  else b

/-- Handler address: CE_VEC, or the warden firmware's own, which the spec does not give. -/
def Block.vec (b : Block) (n : Nat) : Word :=
  if n < 32 then BitVec.ofNat 64 (b.fld (U.ce n) F.CE_VEC_VEC / 4 * 4) else Config.wardenVec

/-- Engine `n` stops on an exception in system code or inside a handler (R236). -/
def Block.sysStop (b : Block) (n cause detail : Nat) (val epc : Word) : Block :=
  if n < 32 then
    (((b.excLatch n cause detail val epc true).engStop n).contained (U.ce n) C.zhSysFault).irq (U.ce n) 17
  else (b.fatal U.warden C.wardenFault 4).engStop n

/-- Exception entry (R235). -/
def Block.excEnter (b : Block) (n cause detail : Nat) (val epc : Word) : Block :=
  let h := b.eng n
  (b.noteEng n 3).setEng n { h with
    epc := epc, ecause := BitVec.ofNat 64 (cause + (detail <<< 8)), evalue := val, psys := h.sys, sys := true, inexc := true
    pc := b.vec n, wdFrom := b.t, req := h.req || h.reqs != 0, blocked := none }

/-- An exception of engine `n`. -/
def Block.exc (b : Block) (n cause detail : Nat) (val epc : Word) : Block :=
  let h := b.eng n
  let plain := cause == X.syscall || cause == X.trap
  if (h.sys && !plain) || h.inexc then b.sysStop n cause detail val epc
  else
    let b := if h.sys = false ∧ plain = false ∧ cause ≠ X.hostReq then
        let b := (b.excLatch n cause detail val epc false).setFld (U.ce n) F.CE_STAT_EXC_CNT
          (b.fld (U.ce n) F.CE_STAT_EXC_CNT + 1)
        (b.corrected (U.ce n) C.zhUserExc).irq (U.ce n) 16
      else b
    b.excEnter n cause detail val epc

/-! ## One instruction -/

/-- What an instruction does: it completes, jumps, raises a fault (with or without a skipped ring entry), raises SYSCALL or
TRAP, is held, halts its engine, or is TRACE. -/
inductive ZOut where
  | ok (b : Block)
  | jump (b : Block) (pc : Word)
  | fault (cause detail : Nat) (val : Word)
  | skip (b : Block) (cause detail : Nat) (val : Word)
  | trap (cause : Nat) (val : Word)
  | hold (k : Blk)
  | halt
  | trace

/-- The outcome of an instruction takes effect. -/
def Block.zFinish (b : Block) (n insn : Nat) (held : Bool) (o : ZOut) : Block :=
  let pc := (b.eng n).pc
  let sys := (b.eng n).sys
  match o with
  | .ok b' => b'.retire n insn sys false false held (pc + 4)
  | .jump b' t => b'.retire n insn sys false false held t
  | .fault c d v => b.exc n c d v pc
  | .skip b' c d v => b'.exc n c d v pc
  | .trap c v => (b.retire n insn sys false false held (pc + 4)).exc n c 0 v (pc + 4)
  | .hold k => b.setEng n { b.eng n with blocked := some k, blockAt := b.t, insn := insn }
  | .halt =>
    ((b.retire n insn sys false false held (pc + 4)).engStop n).setState (engUid n) St.ready
  | .trace => b.retire n insn sys false true held (pc + 4)

/-- Engine `n` executes the instruction of word `insn` with predicate `pr` (R220): nothing while it does not issue, DENIED at
a fetch outside its region, no effect under a false predicate, ILLEGAL where `bad` says that a field it does not use is not
zero, and a stall while a register of `regs` waits for a UGET. -/
def Block.zhovo (b : Block) (n pr insn : Nat) (bad : Bool) (regs : List Nat) (f : Block → EngH → ZOut) : Block :=
  if b.engLive n = false then b
  else
    let h := b.eng n
    if b.fetchOk n h.pc = false then b.exc n X.denied 5 h.pc h.pc
    else if h.pred pr = false then b.retire n insn h.sys true false false (h.pc + 4)
    else if bad then b.exc n X.illegal 2 (BitVec.ofNat 64 insn) h.pc
    else if h.gets.any fun g => g.wd != 0 && regs.contains g.wd then b
    else b.zFinish n insn false (f b h)

/-- A held operation of engine `n` completes with the outcome `o`; only one that blocked restarts the watchdog. -/
def Block.zWake (b : Block) (n : Nat) (o : Block → ZOut) : Block :=
  let h := b.eng n
  let b := b.setEng n { h with blocked := none }
  b.zFinish n h.insn h.block.isSome (o b)

/-- The operation that holds engine `n`, while the engine runs. -/
def Block.zHeld (b : Block) (n : Nat) : Option Blk :=
  let h := b.eng n
  if h.running && !h.paused && !b.inReset then h.blocked else none

/-- ILLEGAL with the instruction word, for privileged instructions and registers, block registers and targets. -/
def zIll (detail insn : Nat) : ZOut := .fault X.illegal detail (BitVec.ofNat 64 insn)

/-- A new state of the engine is all the effect. -/
def Block.zSet (b : Block) (n : Nat) (h : EngH) : ZOut := .ok (b.setEng n h)

end Sys2Proof.Machine
end

