-- ==== Sys2Proof/Machine/ZhovoLane.lean ====
section
/-! DEFINITION.
The lane, complex and BF128 instructions of Zhovo (R210, R224, R225), with the BF128 block of R295 and its CRC-8 (R296). -/
namespace Sys2Proof.Machine

/-! ## Lanes (R210, R224) -/

/-- Lane `i` of an `n`-bit view. -/
def laneOf (q : Quad) (n i : Nat) : Nat := (q.toNat >>> (n * i)) % 2 ^ n

/-- A register from its `n`-bit lanes, lane 0 first. -/
def joinLanes (n : Nat) (l : List Nat) : Quad := BitVec.ofNat 128 (l.foldr (fun v a => a * 2 ^ n + v % 2 ^ n) 0)

/-- A signed value saturated to `w` bits, as a code, and whether it saturated. -/
def satCode (w : Nat) (x : Int) : Nat × Bool :=
  let y := clampI (-(2 ^ (w - 1) : Nat)) ((2 ^ (w - 1) : Nat) - 1) x
  (toCode w y, decide (y ≠ x))

/-- Lane width of a view code: .d, .w, .h. -/
def viewBits (view : Nat) : Nat := match view with | 0 => 64 | 1 => 32 | _ => 16

/-- A lane instruction: `f` gives each lane's code and whether it saturated, from the width and the two lanes. -/
def Block.zLane (b : Block) (n pr wd wa wb view op : Nat) (unused : Bool) (f : Nat → Nat → Nat → Nat × Bool) : Block :=
  let insn := insnA 0x02 wd wa wb pr (view * 64 + op)
  b.zhovo n pr insn (unused && wb != 0) [wd, wa, wb] fun b h =>
    if view = 3 then zIll 1 insn
    else
      let w := viewBits view
      let r := (List.range (128 / w)).map fun i => f w (laneOf (h.rd wa) w i) (laneOf (h.rd wb) w i)
      let h := { h with sat := h.sat || r.any (·.2) }
      b.zSet n (h.wr wd (joinLanes w (r.map (·.1))))

/-- The shift amount of a lane of width `w`: its low log2(w) bits. -/
def laneSh (w a : Nat) : Nat := a % w

/-- LADD, modulo 2^n. -/
def execLadd (n pr wd wa wb view : Nat) (s : State) : Host.Outcome State Fault Refusal :=
  s.did (·.zLane n pr wd wa wb view 0 false fun _ a c => (a + c, false))
/-- LSUB, modulo 2^n. -/
def execLsub (n pr wd wa wb view : Nat) (s : State) : Host.Outcome State Fault Refusal :=
  s.did (·.zLane n pr wd wa wb view 1 false fun w a c => (a + 2 ^ w - c, false))
/-- LADDS, signed and saturating. -/
def execLadds (n pr wd wa wb view : Nat) (s : State) : Host.Outcome State Fault Refusal :=
  s.did (·.zLane n pr wd wa wb view 2 false fun w a c => satCode w (sext w a + sext w c))
/-- LSUBS, signed and saturating. -/
def execLsubs (n pr wd wa wb view : Nat) (s : State) : Host.Outcome State Fault Refusal :=
  s.did (·.zLane n pr wd wa wb view 3 false fun w a c => satCode w (sext w a - sext w c))
/-- LMUL: the low n bits of the product. -/
def execLmul (n pr wd wa wb view : Nat) (s : State) : Host.Outcome State Fault Refusal :=
  s.did (·.zLane n pr wd wa wb view 4 false fun _ a c => (a * c, false))
/-- LMULQ: (a × b + 2^(n−2)) >> (n − 1), signed, saturating. -/
def execLmulq (n pr wd wa wb view : Nat) (s : State) : Host.Outcome State Fault Refusal :=
  s.did (·.zLane n pr wd wa wb view 5 false fun w a c =>
    satCode w ((sext w a * sext w c + (2 ^ (w - 2) : Nat)) / (2 ^ (w - 1) : Nat)))
/-- LMIN, signed. -/
def execLmin (n pr wd wa wb view : Nat) (s : State) : Host.Outcome State Fault Refusal :=
  s.did (·.zLane n pr wd wa wb view 6 false fun w a c => (if sext w a ≤ sext w c then a else c, false))
/-- LMAX, signed. -/
def execLmax (n pr wd wa wb view : Nat) (s : State) : Host.Outcome State Fault Refusal :=
  s.did (·.zLane n pr wd wa wb view 7 false fun w a c => (if sext w a ≤ sext w c then c else a, false))
/-- LSHL. -/
def execLshl (n pr wd wa wb view : Nat) (s : State) : Host.Outcome State Fault Refusal :=
  s.did (·.zLane n pr wd wa wb view 8 false fun w a c => (a <<< laneSh w c, false))
/-- LSHR. -/
def execLshr (n pr wd wa wb view : Nat) (s : State) : Host.Outcome State Fault Refusal :=
  s.did (·.zLane n pr wd wa wb view 9 false fun w a c => (a >>> laneSh w c, false))
/-- LSAR. -/
def execLsar (n pr wd wa wb view : Nat) (s : State) : Host.Outcome State Fault Refusal :=
  s.did (·.zLane n pr wd wa wb view 10 false fun w a c => (toCode w (sext w a / (2 ^ laneSh w c : Nat)), false))
/-- LBCST: every lane takes lane 0 of wa. -/
def execLbcst (n pr wd wa wb view : Nat) (s : State) : Host.Outcome State Fault Refusal :=
  s.did fun b => b.zLane n pr wd wa wb view 11 true fun w _ _ => (laneOf ((b.eng n).rd wa) w 0, false)
/-- LABS: the absolute value, saturating. -/
def execLabs (n pr wd wa wb view : Nat) (s : State) : Host.Outcome State Fault Refusal :=
  s.did (·.zLane n pr wd wa wb view 12 true fun w a _ => satCode w (sext w a).natAbs)

/-! ## Complex lanes (R210, R224) -/

/-- A complex lane as (I, Q). -/
def cLane (q : Quad) (i : Nat) : Int × Int :=
  let v := laneOf q 32 i
  (sext 16 (v / 65536), sext 16 v)

/-- A 32-bit lane from components, saturated, and whether one saturated. -/
def cCode (z : Int × Int) : Nat × Bool :=
  let (i, si) := satCode 16 z.1
  let (q, sq) := satCode 16 z.2
  (i * 65536 + q, si || sq)

/-- x / 2^k rounded to nearest, ties to even. -/
def rneShift (x : Int) (k : Nat) : Int :=
  let d : Int := (2 ^ k : Nat)
  let f := x / d
  let r := x - f * d
  if d < 2 * r ∨ (2 * r = d ∧ f % 2 = 1) then f + 1 else f

/-- A complex product, or the product by the conjugate, shifted right by 15, rounded and saturated; and whether it
saturated. -/
def cMul (conj : Bool) (a c : Int × Int) : (Int × Int) × Bool :=
  let q := if conj then -c.2 else c.2
  let i' := rneShift (a.1 * c.1 - a.2 * q) 15
  let q' := rneShift (a.1 * q + a.2 * c.1) 15
  let i := clampI (-32768) 32767 i'
  let k := clampI (-32768) 32767 q'
  ((i, k), decide (i ≠ i') || decide (k ≠ q'))

/-- A complex instruction on the four lanes: `f` takes the lanes of wd, wa and wb and lane 0 of wb. -/
def Block.zCplx (b : Block) (n pr wd wa wb fn : Nat) (unused : Bool) (f : Int × Int → Int × Int → Int × Int → Int × Int → Nat × Bool) :
    Block :=
  b.zhovo n pr (insnA 0x03 wd wa wb pr fn) (unused && wb != 0) [wd, wa, wb] fun b h =>
    let r := (List.range 4).map fun i => f (cLane (h.rd wd) i) (cLane (h.rd wa) i) (cLane (h.rd wb) i) (cLane (h.rd wb) 0)
    let h := { h with sat := h.sat || r.any (·.2) }
    b.zSet n (h.wr wd (joinLanes 32 (r.map (·.1))))

/-- The rounded product added to the lane of wd with saturation. -/
def cMac (conj : Bool) (d a c : Int × Int) : Nat × Bool :=
  let (p, s) := cMul conj a c
  let (v, s') := cCode (d.1 + p.1, d.2 + p.2)
  (v, s || s')

/-- The rounded product as a lane. -/
def cProd (conj : Bool) (a c : Int × Int) : Nat × Bool :=
  let (p, s) := cMul conj a c
  ((cCode p).1, s)

/-- CMUL. -/
def execCmul (n pr wd wa wb : Nat) (s : State) : Host.Outcome State Fault Refusal :=
  s.did (·.zCplx n pr wd wa wb 0 false fun _ a c _ => cProd false a c)
/-- CMAC. -/
def execCmac (n pr wd wa wb : Nat) (s : State) : Host.Outcome State Fault Refusal :=
  s.did (·.zCplx n pr wd wa wb 1 false fun d a c _ => cMac false d a c)
/-- CMULJ. -/
def execCmulj (n pr wd wa wb : Nat) (s : State) : Host.Outcome State Fault Refusal :=
  s.did (·.zCplx n pr wd wa wb 2 false fun _ a c _ => cProd true a c)
/-- CMACJ. -/
def execCmacj (n pr wd wa wb : Nat) (s : State) : Host.Outcome State Fault Refusal :=
  s.did (·.zCplx n pr wd wa wb 3 false fun d a c _ => cMac true d a c)
/-- CSCAL: every lane by lane 0 of wb. -/
def execCscal (n pr wd wa wb : Nat) (s : State) : Host.Outcome State Fault Refusal :=
  s.did (·.zCplx n pr wd wa wb 4 false fun _ a _ c0 => cProd false a c0)
/-- CPOW: I² + Q², unsigned 32 bits, exact. -/
def execCpow (n pr wd wa wb : Nat) (s : State) : Host.Outcome State Fault Refusal :=
  s.did (·.zCplx n pr wd wa wb 5 true fun _ a _ _ => ((a.1 * a.1 + a.2 * a.2).toNat, false))

/-- CSUM: the sum of the lanes, saturating, in lane 0. -/
def execCsum (n pr wd wa wb : Nat) (s : State) : Host.Outcome State Fault Refusal :=
  s.did fun b => b.zhovo n pr (insnA 0x03 wd wa wb pr 6) (wb != 0) [wd, wa] fun b h =>
    let z := (List.range 4).foldl (fun (a : Int × Int) i => (a.1 + (cLane (h.rd wa) i).1, a.2 + (cLane (h.rd wa) i).2)) (0, 0)
    let (v, sat) := cCode z
    b.zSet n ({ h with sat := h.sat || sat }.wr wd (BitVec.ofNat 128 v))

/-! ## BF128 (R225, R295, R296) -/

/-- CRC-8 of a list of bytes: polynomial 0x07, initial value 0xFF, most significant bit first. -/
def crc8 (l : List Nat) : Nat :=
  l.foldl (fun c x =>
    (List.range 8).foldl (fun c _ => if 128 ≤ c then (c * 2 % 256) ^^^ 0x07 else c * 2) (c ^^^ x)) 0xFF

/-- The CRC-8 of a BF128 word: bits [127:120], then [111:104] down to [7:0]. -/
def bfCrc (q : Nat) : Nat :=
  crc8 ((q >>> 120) % 256 :: ((List.range 14).map fun i => (q >>> (104 - 8 * i)) % 256))

/-- A BF128 word from its exponent, flags and eight mantissa pairs, with its CRC. -/
def bfWord (e flags : Nat) (l : List (Int × Int)) : Quad :=
  let body := l.foldr (fun z a => a * 2 ^ 14 + toCode 7 z.1 * 128 + toCode 7 z.2) 0
  let q := (e <<< 124) + (flags <<< 120) + body
  BitVec.ofNat 128 (q + (bfCrc q <<< 112))

/-- Every component fits exponent `e`. -/
def bfFits (l : List (Int × Int)) (e : Nat) : Bool :=
  l.all fun z => decide (-64 ≤ rneShift z.1 e) && decide (rneShift z.1 e ≤ 63) && decide (-64 ≤ rneShift z.2 e) &&
    decide (rneShift z.2 e ≤ 63)

/-- Pack eight samples (R225): the least exponent that fits, else 9 with saturation. -/
def bfPack (flags : Nat) (l : List (Int × Int)) : Quad :=
  let e := ((List.range 10).find? (bfFits l)).getD 9
  bfWord e flags (l.map fun z => (clampI (-64) 63 (rneShift z.1 e), clampI (-64) 63 (rneShift z.2 e)))

/-- A BF128 word has a valid exponent. -/
def bfExpOk (q : Quad) : Bool := q.toNat >>> 124 ≤ 9

/-- A BF128 word has a correct CRC. -/
def bfCrcOk (q : Quad) : Bool := bfCrc q.toNat == (q.toNat >>> 112) % 256

/-- Sample `k` of a BF128 word: mantissa shifted left by the exponent; an invalid block unpacks as zero. -/
def bfSample (q : Quad) (k : Nat) : Int × Int :=
  if bfExpOk q && bfCrcOk q then
    let f := (q.toNat >>> (14 * k)) % 2 ^ 14
    let m : Int := (2 ^ (q.toNat >>> 124) : Nat)
    (sext 7 (f / 128) * m, sext 7 f * m)
  else (0, 0)

/-- The four samples from `k` on as a .c register. -/
def bfQuad (q : Quad) (k : Nat) : Quad := joinLanes 32 ((List.range 4).map fun i => (cCode (bfSample q (k + i))).1)

/-- An instruction of op 0x04 that unpacks wa: an invalid exponent sets BFERR. -/
def Block.zBf (b : Block) (n pr wd wa wb fn : Nat) (f : Quad → Quad) : Block :=
  b.zhovo n pr (insnA 0x04 wd wa wb pr fn) (wb != 0) [wd, wa] fun b h =>
    let q := h.rd wa
    b.zSet n ({ h with bferr := h.bferr || !bfExpOk q }.wr wd (f q))

/-- BFPACK: samples 0 to 3 from wa, 4 to 7 from wb, flags 0. -/
def execBfpack (n pr wd wa wb : Nat) (s : State) : Host.Outcome State Fault Refusal :=
  s.did fun b => b.zhovo n pr (insnA 0x04 wd wa wb pr 0) false [wd, wa, wb] fun b h =>
    b.zSet n (h.wr wd (bfPack 0 ((List.range 4).map (cLane (h.rd wa)) ++ (List.range 4).map (cLane (h.rd wb)))))
/-- BFUNLO. -/
def execBfunlo (n pr wd wa wb : Nat) (s : State) : Host.Outcome State Fault Refusal :=
  s.did (·.zBf n pr wd wa wb 1 fun q => bfQuad q 0)
/-- BFUNHI. -/
def execBfunhi (n pr wd wa wb : Nat) (s : State) : Host.Outcome State Fault Refusal :=
  s.did (·.zBf n pr wd wa wb 2 fun q => bfQuad q 4)
/-- BFNORM: unpack and pack again, flags kept. -/
def execBfnorm (n pr wd wa wb : Nat) (s : State) : Host.Outcome State Fault Refusal :=
  s.did (·.zBf n pr wd wa wb 3 fun q => bfPack ((q.toNat >>> 120) % 16) ((List.range 8).map (bfSample q)))
/-- BFCHK: the CRC is correct and the exponent at most 9. -/
def execBfchk (n pr wd wa wb : Nat) (s : State) : Host.Outcome State Fault Refusal :=
  s.did fun b => b.zhovo n pr (insnA 0x04 wd wa wb pr 4) (8 ≤ wd || wb != 0) [wa] fun b h =>
    b.zSet n (h.setPred wd (bfCrcOk (h.rd wa) && bfExpOk (h.rd wa)))
/-- BFFLAG: wa with flags wb[3:0] and a new CRC. -/
def execBfflag (n pr wd wa wb : Nat) (s : State) : Host.Outcome State Fault Refusal :=
  s.did fun b => b.zhovo n pr (insnA 0x04 wd wa wb pr 5) false [wd, wa, wb] fun b h =>
    let q := (h.rd wa).toNat
    let body := (q >>> 124 <<< 124) + (Word.fld (h.rd64 wb) 3 0 <<< 120) + q % 2 ^ 112
    b.zSet n (h.wr wd (BitVec.ofNat 128 (body + (bfCrc body <<< 112))))

end Sys2Proof.Machine
end

