-- ==== Sys2Proof/Machine/Cellar.lean ====
section
/-! DEFINITION.
Memory and the cellar (chapter 12): HBM requests with their arbitration, errors and repair, the patrol scrubber, capture
into the cellar, and replay. -/
namespace Sys2Proof.Machine

/-! ## Requests (R287 to R290) -/

/-- A corrected error of a sector in a row (R289, R292). -/
def Block.hbmCe (b : Block) (i row : Nat) : Block :=
  let u := U.pc i
  let b := (((b.note (34 + i / 32) 3 1).incSat u F.PC_ECC_CE 1).incSat (U.hs (i / 32)) F.HS_ECC_CE 1).corrected u C.hbmCe
  let p := b.pcH i
  let old := ((p.rows.find? fun r => r.row == row).map (·.ces)).getD []
  let ces := (old.filter fun t => Nat.blt b.t (t + 3600 * secTc)) ++ [b.t]
  let rows := (p.rows.filter fun r => r.row ≠ row) ++ [{ row := row, ces := ces }]
  let b := b.setPcH i { p with rows := rows.drop (rows.length - 64) }
  if 4 ≤ ces.length then b.rowRepair i row else b

/-- A sector is uncorrectable until it is written again (R289). -/
def Block.markUe (b : Block) (sec : Nat) : Block :=
  { b with hbm := { b.hbm with ue := if b.hbm.ue.contains sec then b.hbm.ue else b.hbm.ue ++ [sec] } }

/-- An uncorrectable error of the sector at `o` in a row (R289, R292, R294). -/
def Block.hbmUe (b : Block) (i o row : Nat) : Block :=
  let u := U.pc i
  let b := (((b.note (34 + i / 32) 4 1).incSat u F.PC_ECC_UE 1).incSat (U.hs (i / 32)) F.HS_ECC_UE 1).irq u 16
  let b := (b.setFld u F.PC_ERR_ADDR_OFFSET (o / 32 * 32)).setFlag u F.PC_ERR_ADDR_V true
  let b := b.corrected u C.hbmUe
  let b := b.markUe (o / 32)
  let p := b.pcH i
  let recent := p.ues.filter fun x => x.1 != row && Nat.blt b.t (x.2 + secTc)
  let b := b.setPcH i { p with ues := recent ++ [(row, b.t)] }
  if 8 ≤ recent.length then b.containedPath u C.hbmPcFail 22
  else if p.ueRows.contains row then b
  else (b.setPcH i { b.pcH i with ueRows := p.ueRows ++ [row] }).rowRepair i row

/-- The check of the sector read at `o` (R289): `err` 0 none, 1 single-bit, 2 uncorrectable. A sector stays uncorrectable
until it is written again. -/
def Block.hbmCheck (b : Block) (o err row : Nat) : Block :=
  let i := pcOf o
  if err = 2 ∨ b.hbm.ue.contains (o / 32) then b.hbmUe i o row else if err = 1 then b.hbmCe i row else b

/-- A read of the cellar window ends (R290, R301): its eight bytes, or zero with WIN_UE. -/
def Block.windowEnd (b : Block) (μ : Mem) (o : Nat) (bad : Bool) : Block :=
  if bad then { b.setFlag U.cel F.CEL_STAT_WIN_UE true with rdata := 0 }
  else { b with rdata := BitVec.ofNat 64 (μ.rdBytes (o / 8 * 8) 8) }

/-- A requester that waits for the answer itself: a read of the cellar window. -/
def isWindow (by_ : HbmBy) : Bool := match by_ with | .window _ => true | _ => false

/-- A read of the cellar window that reaches it (R301): by the PF or the warden, within the 16 MiB from CEL_WIN.BASE; every other
requester reaches HBM. -/
def Block.hbmReach (b : Block) (by_ : HbmBy) (o : Nat) : Bool :=
  match by_ with
  | .window who =>
    let base := b.regionBase 4 + b.fld U.cel F.CEL_WIN_BASE * 2 ^ 24
    (who == .pf || who == .warden) && decide (base ≤ o) && decide (o < base + 2 ^ 24)
  | _ => true

/-- HBM_REQUEST: a request at HBM offset `o`. A pseudo-channel that does not serve answers it at once; a read of the cellar window that
does not reach it reads zero. -/
def execHbmRequest (by_ : HbmBy) (o : Nat) (wr : Bool) (s : State) : Host.Outcome State Fault Refusal :=
  s.done fun μ b =>
    let i := pcOf o
    if b.hbmReach by_ o = false then { b with rdata := 0 }
    else
      let b := b.noteReq by_ i wr
      if b.pcDead i then b.when (isWindow by_) fun b => b.windowEnd μ o true else b.hbmAsk by_ i wr

/-- A sector has been written (R289): it is no longer uncorrectable. The copy of a repair and the scrubber's write back leave an
uncorrectable sector as it is (R291, R292). -/
def Block.sectorWritten (b : Block) (by_ : HbmBy) (o : Nat) : Block :=
  if by_ == .scrub || by_ == .repair || b.pcDead (pcOf o) then b
  else { b with hbm := { b.hbm with ue := b.hbm.ue.filter fun s => s ≠ o / 32 } }

/-- HBM_COMPLETE: a request at HBM offset `o` completes, a read with its data checked (R289). -/
def execHbmComplete (by_ : HbmBy) (o : Nat) (wr : Bool) (ecc : Ecc) (s : State) : Host.Outcome State Fault Refusal :=
  s.done fun μ b =>
    let i := pcOf o
    if Store.get 0 b.hbm.outst (hbmKey by_ i wr) = 0 then b
    else if wr then (b.sectorWritten by_ o).hbmFree by_ i wr
    else
      let bad := b.pcDead i || ecc.err == 2 || b.hbm.ue.contains (o / 32)
      let b := if b.pcDead i then b else b.hbmCheck o ecc.err ecc.row
      let b := b.when (isWindow by_) fun b => b.windowEnd μ o bad
      b.hbmFree by_ i wr

/-- SOFT_REPAIR_DONE: the copy ends before the hold's last Tc (R292). -/
def execSoftRepairDone (i : Nat) (s : State) : Host.Outcome State Fault Refusal := s.did fun b => b.repairEnd i

/-- HBM offset of sector `k` of pseudo-channel `i` (R284). -/
def sectorAt (i k : Nat) : Nat := k / 8 * 16384 + i * 256 + k % 8 * 32

/-- The scrubber's read of a sector ends at once where it may issue (R287, R288); else it waits, and HBM_COMPLETE ends it. -/
def Block.scrubRead (b : Block) (i o err row : Nat) : Block :=
  let b := b.noteReq .scrub i false
  if b.hbmMay .scrub i then ((b.hbmAsk .scrub i false).hbmCheck o err row).hbmFree .scrub i false
  else b.hbmAsk .scrub i false

/-- PATROL_SCRUB: the scrubber of pseudo-channel `i` reads its next sector; one round takes HS_SCRUB.HOURS (R291). -/
def execPatrolScrub (i err row : Nat) (s : State) : Host.Outcome State Fault Refusal :=
  s.did fun b =>
    let hours := b.fld (U.hs (i / 32)) F.HS_SCRUB_HOURS
    if hours = 0 ∨ b.pcDead i then b
    else b.atElapsed ((b.pcH i).scrubAt + hours * 3600 * secTc / 2 ^ 26) fun b =>
      let p := b.pcH i
      (b.setPcH i { p with scrub := (p.scrub + 1) % 2 ^ 26, scrubAt := b.t }).scrubRead i (sectorAt i p.scrub) err row

/-- PC_PEAK_CLR: PEAK is cleared (R305). -/
def execPcPeakClr (who : Who) (i : Nat) (s : State) : Host.Outcome State Fault Refusal :=
  s.did fun b => b.wr who (U.pc i) F.PC_STAT_PEAK_CLR fun b => b.setFld (U.pc i) F.PC_STAT_PEAK 0

/-- POWER_REQ = 0 at an HS is refused (R286). -/
def Block.hsLocked (b : Block) : Bool :=
  let st := b.fld U.cel F.CEL_STAT_STATE
  let rpl := b.fld U.cel F.CEL_RPL_STAT_STATE
  (List.range 264).any (fun i => b.inService (U.lane i)) || (Store.view b.rings).any (fun x => x.2.en && !x.2.inHost) ||
    st == 1 || st == 2 || st == 4 || rpl == 1 || rpl == 2 ||
    (Store.view b.engs).any fun x => (Store.view x.2.dma).any fun d => d.2.busy && (d.2.srcSp == 2 || d.2.dstSp == 2)

/-! ## Stream set and geometry (R297, R298) -/

/-- A stream entry as it reads: SNIP_U is 1 at reset. -/
def Block.celEntry (b : Block) (e : Nat) : Word := Store.get (0x0000000001000000 : Word) b.cel.sdata e

/-- Capture units of a stream entry, 0 where it is not valid. -/
def Block.celUnitsOf (b : Block) (w : Word) : Nat :=
  if Word.fld w 63 63 = 0 then 0
  else if Word.fld w 1 0 = 2 then Word.fld w 29 24
  else 2 ^ min 4 (b.rateOf (Word.fld w 14 8))

/-- The valid entries in entry order. -/
def Block.celStreams (b : Block) : List Word := ((Store.view b.cel.sdata).map (·.2)).filter fun w => Word.fld w 63 63 = 1

/-- U, the total of units of the stream set. -/
def Block.celUnits (b : Block) : Nat := b.celStreams.foldl (fun a w => a + b.celUnitsOf w) 0

/-- A stream set is valid (R297): kinds, snippets and total. -/
def Block.celValid (b : Block) : Bool :=
  decide (b.celUnits ≤ 2048) && b.celStreams.all fun w =>
    let k := Word.fld w 1 0
    k != 3 && (if k == 2 then
        decide (Word.fld w 14 8 < 32) && decide (Word.fld w 45 32 + (512 * Word.fld w 29 24 + 9) / 10 ≤ 16384)
      else decide (b.rateOf (Word.fld w 14 8) < 5))

/-- Bytes of the cellar index. -/
def celIndexBytes : Nat := 2 ^ 29

/-- Record size and N_rec are set for the stream set, and the data area starts afresh (R298). -/
def Block.celGeom (b : Block) : Block :=
  let n := b.celUnits
  let size := 64 + 512 * n
  let b := (b.setFld U.cel F.CEL_GEOM_RECSIZE size).setFld U.cel F.CEL_GEOM_RECORDS ((b.regionSize 4 - celIndexBytes) / size)
  { b.setFld U.cel F.CEL_STAT_UNITS n with cel := { b.cel with pos := 0, count := 0 } }

/-- An interval begins now. -/
def Block.celBegin (b : Block) : Block :=
  { b with cel := { b.cel with ivFrom := some b.t, ivStamp := b.now, ivStep := false } }

/-! ## Control (R299, R300) -/

/-- The capture state changes. -/
def Block.celState (b : Block) (st : Nat) : Block :=
  let b := b.setFld U.cel F.CEL_STAT_STATE st
  b.when (st == 3) fun b => b.irq U.cel 17

/-- A write of CEL_CTRL.RUN. -/
def Block.celRun (b : Block) (run : Bool) : Block :=
  let u := U.cel
  let st := b.fld u F.CEL_STAT_STATE
  if run then
    if st = 0 then
      if b.celValid then { b.setFlag u F.CEL_CTRL_RUN true with cel := { b.cel with startDue := true } }
      else (b.setFlag u F.CEL_STAT_CFG_REJ true).corrected u C.celCfg
    else { b.setFlag u F.CEL_CTRL_RUN true with cel := { b.cel with stopDue := false } }
  else
    let b := b.setFlag u F.CEL_CTRL_RUN false
    let b := { b with cel := { b.cel with startDue := false, rearmDue := false, releaseDue := false } }
    if b.cel.ivFrom.isSome then { b with cel := { b.cel with stopDue := true } } else b.celState 0

/-- CELLAR_RUN: a write of CEL_CTRL.RUN. -/
def execCellarRun (who : Who) (run : Bool) (s : State) : Host.Outcome State Fault Refusal :=
  s.did fun b => b.wr who U.cel F.CEL_CTRL_RUN fun b => b.celRun run

/-- FREEZE: a direct write triggers as HOST, a WRITE cue as CUE (R300). -/
def Block.celFreeze (b : Block) (who : Who) : Block :=
  b.celTrigger (match who with | .cue _ _ _ => 2 | _ => 3) U.cel

/-- FREEZE: a write of CEL_CTRL.FREEZE. -/
def execCelFreeze (who : Who) (s : State) : Host.Outcome State Fault Refusal :=
  s.did fun b => b.wr who U.cel F.CEL_CTRL_FREEZE fun b => b.celFreeze who

/-- REARM: a FROZEN cellar returns to RUN at the next tick boundary; one that a FATAL fault froze stays. -/
def Block.celRearm (b : Block) : Block :=
  if b.fld U.cel F.CEL_STAT_STATE = 3 ∧ b.flag 0 F.FLT_MODE_FATAL = false then { b with cel := { b.cel with rearmDue := true } } else b

/-- REARM: a write of CEL_CTRL.REARM. -/
def execCelRearm (who : Who) (s : State) : Host.Outcome State Fault Refusal :=
  s.did fun b => b.wr who U.cel F.CEL_CTRL_REARM fun b => b.celRearm

/-- Kiln stops capture at the end of the interval, or releases it for the next tick boundary (R299). -/
def Block.celHold (b : Block) (on : Bool) : Block :=
  let st := b.fld U.cel F.CEL_STAT_STATE
  if on then
    if st = 1 ∨ st = 2 then { b with cel := { b.cel with holdDue := true } }
    else { b with cel := { b.cel with releaseDue := false } }
  else
    let b := { b with cel := { b.cel with holdDue := false } }
    if st = 4 then { b with cel := { b.cel with releaseDue := true } } else b

/-- The cellar at a tick boundary: a start, a release or a REARM takes effect, and an interval begins. -/
def Block.celTick (b : Block) : Block :=
  let u := U.cel
  let c := b.cel
  let st := b.fld u F.CEL_STAT_STATE
  if c.stopDue ∧ c.ivFrom = none then ({ b with cel := { c with stopDue := false } }).celState 0
  else if c.startDue ∧ st = 0 then
    let b := { b with cel := { c with startDue := false, version := (c.version + 1) % 2 ^ 32, trigAt := none, stopDue := false } }
    ((b.celGeom).celState 1).celBegin
  else if c.rearmDue ∧ st = 3 then
    let b := { b with cel := { c with rearmDue := false, trigAt := none } }
    let b := if b.fld u F.CEL_GEOM_RECSIZE = 64 + 512 * b.celUnits then b else b.celGeom
    (b.celState 1).celBegin
  else if c.releaseDue ∧ st = 4 then
    let b := { b with cel := { c with releaseDue := false } }
    if c.before = 2 ∧ b.fld u F.CEL_POST_LEFT = 0 then b.celState 3 else (b.celState c.before).celBegin
  else b

/-! ## Capture (R297, R298) -/

/-- The tap of a stream carries something: the PBD runs with that slot, through a port in service; or the RXC receives. -/
def Block.celLive (b : Block) (w : Word) : Bool :=
  let m := Word.fld w 14 8
  let slot := Word.fld w 18 16
  let port := fun (p : Port) => match p with
    | .rxc k => b.fld (U.rxc k) F.RXC_STAT_CH_STATE == 2
    | .txc k => b.ownState (U.txc k) == St.active
    | .head h _ => b.ownState (U.hd h) == St.active
  match Word.fld w 1 0 with
  | 0 => b.pbdOn m && (b.rxSlots m).any fun x => x.1 == slot && port x.2
  | 1 => b.pbdOn m && (b.txSlots m).any fun x => x.1 == slot && port x.2
  | 2 => b.fld (U.rxc m) F.RXC_STAT_CH_STATE == 2
  | _ => false

/-- The CLIP flag of block `j` of a PBD stream (R73): an overrange sample of an RXC of the slot, or at an output tap of any slot of the
PBD, lies within 160 samples before a sample of the block. DESIGN CHOICE: at a head's port and in a snippet the flag is the one that
came with the samples (log entry 98). -/
def Block.celClip (b : Block) (w : Word) (start j : Nat) : Option Bool :=
  let m := Word.fld w 14 8
  let p := sampleTc (b.rateOf m)
  let lo := start + 8 * j * p - rxPartTc (b.rateOf m) - (if Word.fld w 1 0 = 1 then midPartTc (b.rateOf m) else 0)
  let hit := fun (x : Nat × Port) => match x.2 with
    | .rxc k => (b.rxcH k).ovrs.any fun x => decide (x.1 < lo + 8 * p) && decide (lo < x.2 + 160 * p)
    | _ => false
  match Word.fld w 1 0, (b.rxSlots m).find? fun x => x.1 == Word.fld w 18 16 with
  | 0, some (s, .rxc k) => some (hit (s, .rxc k))
  | 1, _ => some ((b.rxSlots m).any hit)
  | _, _ => none

/-- Block `j` of the input tap of a PBD slot at a head's port holds samples of an uplink frame that had not arrived (R270): GAP. -/
def Block.celGap (b : Block) (w : Word) (start j : Nat) : Bool :=
  let m := Word.fld w 14 8
  let p := sampleTc (b.rateOf m)
  let lo := start + 8 * j * p - rxPartTc (b.rateOf m)
  match Word.fld w 1 0, (b.rxSlots m).find? fun x => x.1 == Word.fld w 18 16 with
  | 0, some (_, .head h q) =>
    (b.flowsOf h).any fun i => b.flowPbd h i == m && b.fld (U.hd h) (F.HD_FLOW_PORT i) == q && !b.flag (U.hd h) (F.HD_FLOW_FMT i) &&
      (Store.get UlFlow.init (b.hdH h).flows i).gaps.any fun x => decide (x.1 < lo + 8 * p) && decide (lo < x.2)
  | _, _ => false

/-- A block as it is stored: exponent at most 9, the reserved bit zero, PROBE at output taps only, GAP and CLIP where the receive side
knows them, its CRC. -/
def celBlock (output gap : Bool) (clip : Option Bool) (q : Nat) : Nat :=
  let e := min 9 (q / 2 ^ 124 % 16)
  let f := q / 2 ^ 120 % 8
  let f := if gap then f / 4 * 4 + 2 + f % 2 else f
  let f := if output then f else f % 4
  let f := match clip with | some c => f / 2 * 2 + bit c | none => f
  let body := e * 2 ^ 124 + f * 2 ^ 120 + q % 2 ^ 112
  body + bfCrc body * 2 ^ 112

/-- A zero block with GAP. -/
def gapBlock : Nat := 2 ^ 121 + bfCrc (2 ^ 121) * 2 ^ 112

/-- Blocks of a record from what the streams carried, 128 bits a block; a stream whose tap carries nothing gives zeros with
GAP; the interval began at elapsed `start`. -/
def Block.celBlocks (b : Block) (start data : Nat) : Nat :=
  (b.celStreams.foldl (fun (acc : Nat × Nat) w =>
    let n := 32 * b.celUnitsOf w
    let live := b.celLive w
    let v := (List.range n).foldr (fun j a =>
      a * 2 ^ 128 + (if live then celBlock (Word.fld w 1 0 == 1) (b.celGap w start j) (b.celClip w start j) (data / 2 ^ (128 * (acc.1 + j)) % 2 ^ 128) else gapBlock)) 0
    (acc.1 + n, acc.2 + v * 2 ^ (128 * acc.1))) (0, 0)).2

/-- Index position of a stamp (R298). -/
def celIndexPos (stamp : Word) : Nat :=
  (stamp.toNat / 2 ^ 25 * 1200 + stamp.toNat % 2 ^ 25 / 2 ^ 14) % 2 ^ 24

/-- Write the index entry of a record. -/
def Block.celIndex (b : Block) (r : CelRec) (flags off : Nat) : Block :=
  b.putBytes (b.regionBase 4 + 32 * celIndexPos r.stamp) 32
    (r.stamp.toNat + r.seq * 2 ^ 64 + off * 2 ^ 128 + r.version * 2 ^ 192 + flags * 2 ^ 224)

/-- Capture writes that fall more than 8 intervals behind: the oldest pending interval is discarded (R298). -/
def Block.celLost (b : Block) : Block :=
  match b.cel.queue with
  | r :: t =>
    if 8 < b.cel.queue.length then
      let b := { b with cel := { b.cel with queue := t } }
      ((b.celIndex r (r.flags ||| 4) 0).incSat U.cel F.CEL_STAT_DROPS 1).irq U.cel 18
    else b
  | [] => b

/-- CELLAR_INTERVAL_END: the interval's record waits to be written; then the state may change (R298, R299). `data` is what
the streams carried, 128 bits a block. -/
def execCellarIntervalEnd (data : Nat) (s : State) : Host.Outcome State Fault Refusal :=
  s.did fun b =>
    match b.cel.ivFrom with
    | none => b
    | some t => b.atElapsed (t + tickTc) fun b =>
        let u := U.cel
        let c := b.cel
        let trig := match c.trigAt with | some x => decide (t ≤ x) | none => false
        let r : CelRec := { stamp := c.ivStamp, seq := b.fld u F.CEL_SEQ_SEQ, version := c.version, units := b.fld u F.CEL_STAT_UNITS
                            flags := bit trig + 2 * bit c.ivStep, data := b.celBlocks t data }
        let b := { b with cel := { c with queue := c.queue ++ [r] } }
        let b := (b.setFld u F.CEL_SEQ_SEQ (if r.seq + 1 < 2 ^ 48 then r.seq + 1 else 1)).celLost
        let post := b.fld u F.CEL_STAT_STATE = 2
        let left := b.fld u F.CEL_POST_LEFT
        let b := if post then b.setFld u F.CEL_POST_LEFT (left - 1) else b
        let stop := fun (b : Block) => { b with cel := { b.cel with ivFrom := none, stopDue := false, holdDue := false } }
        if c.stopDue then (stop b).celState 0
        else if post ∧ left ≤ 1 then (stop b).celState 3
        else if c.holdDue then
          let st := b.fld u F.CEL_STAT_STATE
          let b := stop b
          ({ b with cel := { b.cel with before := st } }).celState 4
        else { b.celBegin with cel := { b.celBegin.cel with ivFrom := some (t + tickTc) } }

/-- Offset in the region of record place `p`. -/
def Block.celOff (b : Block) (p : Nat) : Nat := celIndexBytes + p * b.fld U.cel F.CEL_GEOM_RECSIZE

/-- The header of a record: 64 bytes. -/
def celHeader (r : CelRec) : Nat :=
  r.stamp.toNat + r.seq * 2 ^ 64 + r.version * 2 ^ 128 + r.units * 2 ^ 160 + r.flags * 2 ^ 176

/-- The oldest pending record is written at the next place, and then its index entry. -/
def Block.celWritten (b : Block) (μ : Mem) : Block :=
  let u := U.cel
  match b.cel.queue with
  | [] => b
  | r :: t =>
    let n := max 1 (b.fld u F.CEL_GEOM_RECORDS)
    let c := b.cel
    let off := b.celOff c.pos
    let b := { b with cel := { c with queue := t, pos := (c.pos + 1) % n, count := min n (c.count + 1) } }
    let b := b.putBytes (b.regionBase 4 + off) (64 + 512 * r.units) (celHeader r + r.data * 2 ^ 512)
    let b := (b.celIndex r r.flags off).setReg u R.CEL_NEWEST r.stamp
    let first := (b.cel.pos + n - b.cel.count) % n
    if first = c.pos then b.setReg u R.CEL_OLDEST r.stamp
    else b.setReg u R.CEL_OLDEST (BitVec.ofNat 64 (μ.rdBytes (b.regionBase 4 + b.celOff first) 8))

/-- CELLAR_RECORD_WRITTEN: a record's writes complete. -/
def execCellarRecordWritten (s : State) : Host.Outcome State Fault Refusal := s.done fun μ b => b.celWritten μ

/-! ## Stream entries (R299, R306) -/

/-- A write of CEL_SDATA: refused while capturing; SNIP_U and the INDEX of a snippet are limited to their ranges (R299, R470). -/
def Block.sdataWrite (b : Block) (half : Half) (v : Word) : Block :=
  let u := U.cel
  let st := b.fld u F.CEL_STAT_STATE
  if st = 1 ∨ st = 2 ∨ st = 4 then b.corrected u C.cfgLocked
  else
    let e := b.fld u F.CEL_SADDR_ENTRY
    let w := halfMerge half (b.celEntry e) v &&& 0x80003FFF3F077F03
    let n := Word.fld w 29 24
    let lim := max 1 (min 32 n)
    let k := Word.fld w 14 8
    let idx := if Word.fld w 1 0 = 2 then min 31 k else k
    let w := Word.setFld (Word.setFld w 29 24 lim) 14 8 idx
    let b := { b with cel := { b.cel with sdata := Store.set (0x0000000001000000 : Word) b.cel.sdata e w } }
    let b := b.setFld u F.CEL_STAT_UNITS b.celUnits
    let b := if n = lim ∧ k = idx then b else b.corrected u C.clamp
    if b.flag u F.CEL_SADDR_AUTOINC && halfHi half then b.setFld u F.CEL_SADDR_ENTRY (e + 1) else b

/-- CEL_SDATA_WRITE: a write of CEL_SDATA. -/
def execCelSdataWrite (who : Who) (half : Half) (v : Word) (s : State) : Host.Outcome State Fault Refusal :=
  s.did fun b =>
    if whoPfSys who then b.wrReg who U.cel R.CEL_SDATA half fun b => b.sdataWrite half v else b

/-! ## Replay (R302) -/

/-- First block of stream entry `e` in a record. -/
def Block.celFirst (b : Block) (e : Nat) : Nat :=
  ((Store.view b.cel.sdata).filter fun x => x.1 < e).foldl (fun a x => a + 32 * b.celUnitsOf x.2) 0

/-- RPL_START is accepted: the cellar is FROZEN or OFF, the PBD is in TEST, the stream is a PBD stream of its rate class, and
the index holds the record at CEL_RPL_FROM. -/
def Block.rplOk (b : Block) (μ : Mem) : Bool :=
  let u := U.cel
  let st := b.fld u F.CEL_STAT_STATE
  let m := b.fld u F.CEL_RPL_CFG_PBD
  let w := b.celEntry (b.fld u F.CEL_RPL_CFG_STREAM)
  let stamp := b.reg u R.CEL_RPL_FROM
  let a := b.regionBase 4 + 32 * celIndexPos stamp
  (st == 0 || st == 3) && b.ownState (U.pbd m) == St.test && Word.fld w 63 63 == 1 && decide (Word.fld w 1 0 < 2) &&
    b.rateOf (Word.fld w 14 8) == b.rateOf m && !b.hbmBad a 32 && μ.rdBytes a 8 == stamp.toNat && μ.rdBytes (a + 8) 8 != 0 &&
    μ.rdBytes (a + 16) 8 != 0

/-- A write of CEL_CTRL.RPL_START. -/
def Block.rplStart (b : Block) (μ : Mem) : Block :=
  let u := U.cel
  if b.rplOk μ then
    let a := b.regionBase 4 + 32 * celIndexPos (b.reg u R.CEL_RPL_FROM)
    let off := μ.rdBytes (a + 16) 8
    let b := ((b.setFld u F.CEL_RPL_STAT_STATE 1).setFld u F.CEL_RPL_STAT_ERRS 0).setFld u F.CEL_RPL_STAT_FED 0
    { b with cel := { b.cel with
        rplAsk := b.t, rplSeq := μ.rdBytes (a + 8) 8
        rplPos := (off - celIndexBytes) / max 1 (b.fld u F.CEL_GEOM_RECSIZE) } }
  else (b.setFlag u F.CEL_RPL_STAT_REFUSED true).corrected u C.celCfg

/-- RPL_START: a write of CEL_CTRL.RPL_START. -/
def execRplStart (who : Who) (s : State) : Host.Outcome State Fault Refusal :=
  s.done fun μ b => b.wr who U.cel F.CEL_CTRL_RPL_START fun b => b.rplStart μ

/-- RPL_STOP: a write of CEL_CTRL.RPL_STOP. -/
def execRplStop (who : Who) (s : State) : Host.Outcome State Fault Refusal :=
  s.did fun b => b.wr who U.cel F.CEL_CTRL_RPL_STOP fun b => b.rplEnd

/-- REPLAY_BEGIN: the first tick boundary at least 32,768 Tc after the request starts the replay. -/
def execReplayBegin (s : State) : Host.Outcome State Fault Refusal :=
  s.did fun b =>
    let u := U.cel
    if b.fld u F.CEL_RPL_STAT_STATE = 1 ∧ b.t = b.time.tickStart ∧ b.cel.rplAsk + 32768 ≤ b.t then
      let m := b.fld u F.CEL_RPL_CFG_PBD
      let b : Block := { b.setFld u F.CEL_RPL_STAT_STATE 2 with cel := { b.cel with rplDue := b.t + tickTc } }
      let b := (b.setPbdH m { b.pbdH m with silentBy := true }).txcRefreshAll
      if b.fld u F.CEL_RPL_CFG_COUNT = 0 then b.rplEnd else b
    else b

/-- Blocks of the replayed stream in the record at `off` that are fed as zeros: invalid, marked GAP or unreadable. -/
def Block.rplBad (b : Block) (μ : Mem) (off : Nat) (seqOk : Bool) : Nat :=
  let e := b.fld U.cel F.CEL_RPL_CFG_STREAM
  let n := 32 * b.celUnitsOf (b.celEntry e)
  let a := b.regionBase 4 + off + 64 + 16 * b.celFirst e
  ((List.range n).filter fun j =>
    let q : Quad := BitVec.ofNat 128 (μ.rdBytes (a + 16 * j) 16)
    !seqOk || b.hbmBad (a + 16 * j) 16 || !bfExpOk q || !bfCrcOk q || (q.toNat / 2 ^ 121) % 2 == 1).length

/-- REPLAY_FEED: a record has been fed in its 16,384 Tc. -/
def execReplayFeed (s : State) : Host.Outcome State Fault Refusal :=
  s.done fun μ b =>
    let u := U.cel
    if b.fld u F.CEL_RPL_STAT_STATE = 2 then
      b.atElapsed b.cel.rplDue fun b =>
        let off := b.celOff b.cel.rplPos
        let seq := μ.rdBytes (b.regionBase 4 + off + 8) 8
        let seqOk := !b.hbmBad (b.regionBase 4 + off) 64 && decide (b.cel.rplSeq ≤ seq)
        let b := (b.incSat u F.CEL_RPL_STAT_ERRS (b.rplBad μ off seqOk)).incWrap u F.CEL_RPL_STAT_FED 1
        let b := { b with cel := { b.cel with
          rplPos := (b.cel.rplPos + 1) % max 1 (b.fld u F.CEL_GEOM_RECORDS), rplSeq := if seqOk then seq + 1 else b.cel.rplSeq + 1
          rplDue := b.cel.rplDue + tickTc } }
        if b.fld u F.CEL_RPL_CFG_COUNT ≤ b.fld u F.CEL_RPL_STAT_FED then b.rplEnd else b
    else b

end Sys2Proof.Machine
end

