-- ==== Sys2Proof/Machine/Loop.lean ====
section
/-! DEFINITION.
The gain loop engine (chapter 06): block-floating arithmetic, the control law, the relay auto-tune, the pool with its order
and misses, selection with ceilings and slew, supervision, the planner, and the writing of loop settings. -/
namespace Sys2Proof.Machine

/-! ## Block-floating arithmetic (R149 to R151) -/

/-- A value M × 2^E. -/
abbrev Bf := Int × Int

/-- Bits of a magnitude. -/
def bitLen (n : Nat) : Nat := if n = 0 then 0 else Nat.log2 n + 1

/-- The exact value n × 2^e as a mantissa `k` bits coarser, rounded to nearest with ties to even. -/
def bfShift (n k : Int) : Int := if 0 ≤ k then rne n (2 ^ k.toNat) else n * 2 ^ (-k).toNat

/-- Normalise an exact value to a 24-bit mantissa (R149). -/
def bfNorm (n e : Int) : Bf :=
  if n = 0 then (0, 0)
  else
    let k : Int := (bitLen n.natAbs : Int) - 23
    let m := bfShift n k
    let (m, k) := if m.natAbs = 2 ^ 23 then (bfShift n (k + 1), k + 1) else (m, k)
    let e' := e + k
    if e' < -128 then (0, 0)
    else if 127 < e' then (if 0 < n then 8388607 else -8388607, 127)
    else (m, e')

/-- A product, formed exactly and rounded once. -/
def bfMul (a c : Bf) : Bf := bfNorm (a.1 * c.1) (a.2 + c.2)

/-- A sum, formed exactly and rounded once. -/
def bfAdd (a c : Bf) : Bf :=
  let e := min a.2 c.2
  bfNorm (a.1 * 2 ^ (a.2 - e).toNat + c.1 * 2 ^ (c.2 - e).toNat) e

/-- The negative of a value. -/
def bfNeg (a : Bf) : Bf := (-a.1, a.2)

/-- A code in 1/64 dB as a value. -/
def bfCode (c : Int) : Bf := bfNorm c (-6)

/-- A coefficient of 32 bits, used as written (R150). -/
def bfCoef (c : Nat) : Bf := (sext 24 c, sext 8 (c / 2 ^ 24))

/-- A value is greater than a code. -/
def bfGt (a : Bf) (c : Int) : Bool :=
  if 0 ≤ a.2 + 6 then decide (c < a.1 * 2 ^ (a.2 + 6).toNat) else decide (c * 2 ^ (-(a.2 + 6)).toNat < a.1)

/-- A value is less than a code. -/
def bfLt (a : Bf) (c : Int) : Bool :=
  if 0 ≤ a.2 + 6 then decide (a.1 * 2 ^ (a.2 + 6).toNat < c) else decide (a.1 < c * 2 ^ (-(a.2 + 6)).toNat)

/-- The code of a value, rounded to nearest with ties to even and clamped to the codable range (R149). -/
def bfOut (a : Bf) : Int := max (-32767) (min 32767 (bfShift a.1 (-(a.2 + 6))))

/-- Stage S0: m and x with the exponent of the larger (R149). -/
def bfPair (m x : Int) : Stage :=
  let (_, e) := if m.natAbs < x.natAbs then bfCode x else bfCode m
  { m0 := bfShift m (e + 6), m1 := bfShift x (e + 6), e := e }

/-- A stage of one mantissa. -/
def bfStage (a : Bf) : Stage := { m0 := a.1, m1 := 0, e := a.2 }

/-- The proportional gain of a table of 64 entries at error code `e` (R151). -/
def lutGain (entry : Nat → Nat) (step : Nat) (e : Int) : Bf :=
  let step := max 1 step
  let n := 32 * (step : Int) + e
  if n ≤ 0 then bfCoef (entry 0)
  else if 63 * (step : Int) ≤ n then bfCoef (entry 63)
  else
    let k0 := (n / step).toNat
    let frac := rne ((n - k0 * step) * 2 ^ 24) step
    let lo := bfCoef (entry k0)
    let diff := bfAdd (bfCoef (entry (k0 + 1))) (bfNeg lo)
    bfAdd lo (bfMul (frac, -24) diff)

/-! ## The control law (R147, R148, R152) -/

/-- The settings of a law loop in force at its evaluation. -/
structure LawSet where
  sp : Int := 0
  umin : Int := 0
  umax : Int := 0
  inRef : Int := 0
  kp : Nat := 0
  ki : Nat := 0
  kff : Nat := 0
  step : Nat := 1
  lut : Option (List Nat) := none
  ff : Bool := false
  nrg : Bool := false
  deriving DecidableEq, Repr

/-- What an evaluation of the law gives: the stages and the outcome flags. -/
structure LawOut where
  e : Bf
  p : Bf
  i : Bf
  ff : Bf
  u : Bf
  held : Bool
  hi : Bool
  lo : Bool
  deriving DecidableEq, Repr

/-- One evaluation of the control law (R148); `start` is the output from which a loop that starts sets its integral
(R152). -/
def lawEval (c : LawSet) (m x : Int) (i0 : Bf) (start : Option Int) : LawOut :=
  let e := bfAdd (bfCode c.sp) (bfNeg (bfCode m))
  let gain := match c.lut with | some t => lutGain (fun k => t.getD k 0) c.step (c.sp - m) | none => bfCoef c.kp
  let p := bfMul gain e
  let ff := if c.ff then bfMul (bfCoef c.kff) (bfAdd (bfCode x) (bfNeg (bfCode c.inRef))) else (0, 0)
  let step := bfMul (bfCoef c.ki) e
  let (i, held) := match start with
    | some g => (bfAdd (bfAdd (bfCode g) (bfNeg p)) (bfNeg ff), false)
    | none =>
      let v := bfAdd (bfAdd p i0) ff
      if (bfGt v c.umax && decide (0 < step.1)) || (!c.nrg && bfLt v c.umin && decide (step.1 < 0)) then (i0, true)
      else (bfAdd i0 step, false)
  let u := bfAdd (bfAdd p i) ff
  let hi := bfGt u c.umax
  let u := if hi then bfCode c.umax else u
  let lo := !c.nrg && bfLt u c.umin
  let u := if lo then bfCode c.umin else u
  { e := e, p := p, i := i, ff := ff, u := u, held := held, hi := hi, lo := lo }

/-- Kinds that run the control law. -/
def lawKind (l : Nat) : Bool := l == 1 || l == 3 || l == 6 || l == 7

/-- The slot is enabled in force (R145). -/
def Block.slotOn (b : Block) (m l : Nat) : Bool :=
  b.actFlag (U.pbd m) (F.LOOP_CTRL_EN l) && !(l == 1 && !isUl m)

/-- HOLD is in force at a slot (R157). -/
def Block.slotHeld (b : Block) (m l : Nat) : Bool := 3 ≤ l && b.actFlag (U.pbd m) (F.LOOP_CTRL_HOLD l)

/-- Index of an entry of the LUT of a slot. -/
def lutIndex (m l k : Nat) : Nat := (m * 8 + l) * 64 + k

/-- The settings of a law loop in force. -/
def Block.lawSet (b : Block) (μ : Mem) (m l : Nat) : LawSet :=
  let u := U.pbd m
  let sp := match l with
    | 1 => match (b.pbdH m).loopIn.nrg with | some (_, sp) => sp | none => 0
    | 3 => b.actS u (F.LOOP_SETPT_SETPT 3) - (if (b.pbdH m).loopIn.backoff then 384 else 0)
    | _ => b.actS u (F.LOOP_SETPT_SETPT l)
  { sp := max (-32767) sp, umin := b.actS u (F.LOOP_SETPT_UMIN l), umax := b.actS u (F.LOOP_SETPT_UMAX l)
    inRef := b.actS u (F.LOOP_SETPT_IN_REF l), kp := b.actFld u (F.LOOP_KP_KP l), ki := b.actFld u (F.LOOP_KI_KFF_KI l)
    kff := b.actFld u (F.LOOP_KI_KFF_KFF l), step := b.actFld u (F.LOOP_KP_LUT_STEP l)
    lut := if b.actFlag u (F.LOOP_CTRL_LUT_EN l) then
        some ((List.range 64).map fun k => (μ.rd64 .lutAct (lutIndex m l k)).toNat) else none
    ff := b.actFlag u (F.LOOP_CTRL_FF_EN l), nrg := l == 1 }

/-- The reading of a chain with a detector (0 RMS, 1 peak, 2 envelope; 3 is read as 0), none where it is not valid. -/
def Block.mcReading (b : Block) (c det : Nat) : Option Int :=
  let u := U.mc c
  let (v, ok) := match det with
    | 1 => (F.MC_PEAK_VALUE, F.MC_PEAK_VALID)
    | 2 => (F.MC_ENV_VALUE, F.MC_ENV_VALID)
    | _ => (F.MC_RMS_VALUE, F.MC_RMS_VALID)
  if b.flag u ok then b.db u v else none

/-- The inputs of a law slot at the boundary (R147): m, and x with FF_EN = 1. -/
def Block.slotInput (b : Block) (m l : Nat) : SlotIn :=
  let u := U.pbd m
  { m := b.mcReading (b.actFld u (F.LOOP_SRC_MEAS_MC l)) (b.actFld u (F.LOOP_SRC_MEAS_DET l))
    x := if b.actFlag u (F.LOOP_CTRL_FF_EN l) then
        b.mcReading (b.actFld u (F.LOOP_SRC_IN_MC l)) (b.actFld u (F.LOOP_SRC_IN_DET l)) else some 0 }

/-- Set a slot's output code. -/
def Block.setU (b : Block) (m l : Nat) (u : Int) : Block := b.setFld (U.pbd m) (F.LOOP_OUT_U l) (dbCode u)

/-- A slot's output, none while it reads 0x8000. -/
def Block.slotU (b : Block) (m l : Nat) : Option Int := b.db (U.pbd m) (F.LOOP_OUT_U l)

/-- Publish an evaluation of the law at a slot. -/
def Block.showLaw (b : Block) (m l : Nat) (mm x : Int) (o : LawOut) : Block :=
  let u := U.pbd m
  let b := b.setSlotH m l { b.slotH m l with
    s0 := bfPair mm x, s1 := bfStage o.e, s2 := bfStage o.p, s3 := bfStage o.i, s4 := bfStage o.ff, s5 := bfStage o.u
    running := true, backLaw := false }
  let b := b.note 33 4 (bit (o.hi || o.lo))
  let b := (b.setU m l (bfOut o.u)).setFld u (F.LOOP_OUT_I l) (dbCode (bfOut o.i))
  let b := (b.setFld u (F.LOOP_OUT_E l) (dbCode (bfOut o.e))).setFld u (F.LOOP_OUT_FF l) (dbCode (bfOut o.ff))
  ((b.setFlag u (F.LOOP_STAT_I_HELD l) o.held).setFlag u (F.LOOP_STAT_CLAMP_HI l) o.hi).setFlag u (F.LOOP_STAT_CLAMP_LO l) o.lo

/-! ## The relay (R161) -/

/-- One tick of a half-cycle passes at a relay. -/
def RelayH.count1 (h : RelayH) : RelayH := { h with half := h.half + 1, cyc := h.cyc + 1 }

/-- The relay's sign at error `e` with hysteresis. -/
def relaySign (h : RelayH) (e : Int) (hys : Nat) : Int :=
  if h.started = false then (if 0 ≤ e then 1 else -1)
  else if (hys : Int) < e then 1 else if e < -(hys : Int) then -1 else h.r

/-- The relay takes a sample: half-cycles and cycles end at the changes of its sign; what comes before the first change is
neither. -/
def RelayH.sample (h : RelayH) (r m : Int) : RelayH :=
  if h.started = false then { h with started := true, r := r, half := 1, cyc := 1, mMin := m, mMax := m }
  else
    let turned := r != h.r
    let h :=
      if turned then
        let h := { h with
          overRun := if h.turned && (h.ovr || decide (256 < h.half)) then h.overRun + 1 else 0
          turned := true, half := 0, ovr := false, r := r }
        if r = 1 then
          let h := if h.inCycle then
              { h with cycles := ((h.cyc, h.mMax - h.mMin) :: h.cycles).take 4, count := h.count + 1 } else h
          { h with inCycle := true, cyc := 0, mMin := m, mMax := m }
        else h
      else h
    { h.count1 with mMin := min h.mMin m, mMax := max h.mMax m }

/-- The last four cycles are consistent: every length and amplitude within ±12.5 % of its mean. -/
def RelayH.consistent (h : RelayH) : Bool :=
  h.cycles.length == 4 &&
    (let t := (h.cycles.map (·.1)).sum
     let a := (h.cycles.map (·.2)).sum
     h.cycles.all fun x =>
       decide (((4 : Int) * (x.1 : Int) - (t : Int)).natAbs * 8 ≤ t) && decide ((4 * x.2 - a).natAbs * 8 ≤ a.natAbs))

/-- The relay runs at a slot: its output is u_c + r × H, clamped by UMIN and UMAX. -/
def Block.relayEval (b : Block) (m l : Nat) (c : LawSet) (mm x : Int) : Block :=
  let u := U.pbd m
  let sh := b.slotH m l
  let e := c.sp - mm
  let r := relaySign sh.relay e (b.actFld u (F.LOOP_TUNE_HYS l))
  let h := sh.relay.sample r mm
  let out := sh.relay.uc + r * b.actFld u (F.LOOP_TUNE_H l)
  let out' := max c.umin (min c.umax out)
  let b := b.setSlotH m l { sh with
    relay := h, s0 := bfPair mm x, s1 := bfStage (bfAdd (bfCode c.sp) (bfNeg (bfCode mm))), s5 := bfStage (bfCode out') }
  let b := b.note 33 4 (bit (out != out'))
  let b := (b.setU m l out').setFld u (F.LOOP_OUT_E l) (dbCode e)
  ((b.setFlag u (F.LOOP_STAT_I_HELD l) false).setFlag u (F.LOOP_STAT_CLAMP_HI l) (decide (c.umax < out))).setFlag u
    (F.LOOP_STAT_CLAMP_LO l) (decide (out < c.umin))

/-- Pi to 20 decimal places, for KU (R161). -/
def piNum : Nat := 314159265358979323846
def piDen : Nat := 100000000000000000000

/-- An auto-tune ends with a state and a reason (R161): TUNE_REQ clears, and the law resumes from u_c. -/
def Block.tuneEnd (b : Block) (m l st reason : Nat) : Block :=
  let u := U.pbd m
  let b := ((b.setFld u (F.LOOP_STAT_TUNE l) st).setFld u (F.LOOP_STAT_REASON l) reason).setFlag u (F.LOOP_CTRL_TUNE_REQ l) false
  let k := regKey u (R.LOOP_CTRL l)
  let b := { b with loop := { b.loop with
    act := Store.set (regReset u (R.LOOP_CTRL l)) b.loop.act k (Word.setFld (b.act u (R.LOOP_CTRL l)) 4 4 0) } }
  -- a slot that goes on running its law does so from u_c; one that has stopped starts afresh (R152)
  let b := b.setSlotH m l { b.slotH m l with
    backLaw := b.pbdOn m && b.slotOn m l && ((b.slotH m l).backLaw || reason != 4), running := (b.slotH m l).running && b.slotOn m l, cancelled := false }
  (b.note 33 7 1).irq u 26

/-- AUTOTUNE_DONE: four consistent cycles complete, KU and TU are reported. -/
def Block.tuneDone (b : Block) (m l : Nat) : Block :=
  let u := U.pbd m
  let h : RelayH := (b.slotH m l).relay
  if b.fld u (F.LOOP_STAT_TUNE l) ≠ 1 ∨ h.consistent = false then b
  else
    let a : Nat := (h.cycles.foldl (fun (acc : Int) (x : Nat × Int) => acc + x.2) 0).natAbs
    let t := (h.cycles.map (·.1)).sum
    -- rounded to nearest (R149)
    let ku : Int := if a = 0 then 65536 else rne (1024 * 4 * b.actFld u (F.LOOP_TUNE_H l) * 8 * piDen : Nat) (a * piNum)
    let (b, i) := b.takeFree
    let b := b.setFld u (F.LOOP_TUNE_KU l) (if ku < 65536 then ku.toNat else Config.tuneWide i)
    let b := b.setFld u (F.LOOP_TUNE_TU l) (if t < 65536 then t else Config.tuneWide i)
    b.tuneEnd m l 2 0

/-- AUTOTUNE_DONE: an auto-tune completes. -/
def execAutotuneDone (m l : Nat) (s : State) : Host.Outcome State Fault Refusal := s.did fun b => b.tuneDone m l

/-- Why an auto-tune that runs must abort now, 0 where nothing asks for it (R161). -/
def Block.tuneAbortReason (b : Block) (m l : Nat) : Nat :=
  let u := U.pbd m
  let h := (b.slotH m l).relay
  let boundary := b.t == b.time.tickStart
  if (b.slotH m l).cancelled then (if boundary then 5 else 0)
  else if 3 ≤ h.overRun then 1
  else if max 4 (b.actFld u (F.LOOP_TUNE_TUNE_MAX l)) ≤ h.count ∧ h.consistent = false then 2
  else if boundary && b.flag U.le F.LE_STAT_TUNE_STOP then 3
  else if boundary && (!b.slotOn m l || b.slotHeld m l || !b.actFlag u (F.LOOP_CTRL_TUNE_REQ l) || !b.pbdOn m) then 5
  else 0

/-- AUTOTUNE_ABORT: an auto-tune aborts. -/
def execAutotuneAbort (m l : Nat) (s : State) : Host.Outcome State Fault Refusal :=
  s.did fun b =>
    let r := b.tuneAbortReason m l
    if (b.fld (U.pbd m) (F.LOOP_STAT_TUNE l) = 1 ∨ (b.slotH m l).cancelled) ∧ r ≠ 0 then b.tuneEnd m l 3 r else b

/-- A requested auto-tune enters RUN at a tick boundary, or is refused (R161). -/
def Block.tuneRun (b : Block) (m l : Nat) : Block :=
  let u := U.pbd m
  if b.fld u (F.LOOP_STAT_TUNE l) = 1 ∨ b.actFlag u (F.LOOP_CTRL_TUNE_REQ l) = false ∨ (b.slotH m l).cancelled then b
  else
    match b.slotU m l with
    | some uc =>
      if (l = 3 ∨ l = 6 ∨ l = 7) ∧ b.pbdOn m ∧ b.slotOn m l ∧ b.slotHeld m l = false ∧ b.flag U.le F.LE_STAT_TUNE_STOP = false then
        let b := b.setSlotH m l { b.slotH m l with relay := { RelayH.init with uc := uc } }
        (b.setFld u (F.LOOP_STAT_TUNE l) 1).setFld u (F.LOOP_STAT_REASON l) 0
      else b.tuneEnd m l 3 4
    | none => b.tuneEnd m l 3 4

/-! ## Evaluation (R145, R152, R163, R164) -/

/-- The net gain from which a law loop that starts sets its output (R152, R199). -/
def Block.gPrevOf (b : Block) (m : Nat) : Option Int :=
  match (b.pbdH m).gPrev with | some g => some g | none => b.netGain m

/-- A law slot is evaluated with its sampled inputs. -/
def Block.lawSlot (b : Block) (μ : Mem) (m l : Nat) : Block :=
  let u := U.pbd m
  let inp := Store.get SlotIn.init (b.pbdH m).loopIn.slots l
  let mm := if l = 1 then (b.pbdH m).loopIn.nrg.map (·.1) else inp.m
  match mm, inp.x with
  | some mv, some x =>
    let b := b.setFlag u (F.LOOP_STAT_INVALID l) false
    let c := b.lawSet μ m l
    if b.fld u (F.LOOP_STAT_TUNE l) = 1 then b.relayEval m l c mv (if c.ff then x else 0)
    else
      let sh := b.slotH m l
      let start := if sh.backLaw then some sh.relay.uc
        else if sh.running then none else some ((b.gPrevOf m).getD c.umax)
      b.showLaw m l mv (if c.ff then x else 0) (lawEval c mv x (sh.s3.m0, sh.s3.e) start)
  | _, _ =>
    -- a relay keeps its output, and the tick counts towards its half-cycle (R147, R161)
    let b := if b.fld u (F.LOOP_STAT_TUNE l) = 1 then b.setSlotH m l { b.slotH m l with relay := (b.slotH m l).relay.count1 } else b
    (b.note 33 3 1).setFlag u (F.LOOP_STAT_INVALID l) true

/-- A slot is evaluated (R145): a ceiling kind gives its output directly. -/
def Block.evalSlot (b : Block) (μ : Mem) (m l : Nat) : Block :=
  let u := U.pbd m
  let b := b.setFld u (F.LOOP_STAT_MISS_RUN l) 0
  let held := b.slotHeld m l
  let b := (b.setFlag u (F.LOOP_STAT_HELD l) held).note 33 (if held then 2 else 0) 1
  if held then b
  else match l with
    | 0 =>
      let inp := (b.pbdH m).loopIn
      b.setU m 0 (match inp.known, inp.iso with
        | true, some iso => iso - b.actS u (F.LOOP_SETPT_SETPT 0)
        | _, _ => inp.cold)
    | 2 | 4 | 5 => b.setU m l (b.actS u (F.LOOP_SETPT_SETPT l))
    | _ => b.lawSlot μ m l

/-- A slot misses the tick (R164). -/
def Block.missSlot (b : Block) (m l : Nat) : Block :=
  let u := U.pbd m
  let was := b.flag u (F.LOOP_STAT_DL_MISS l)
  let b := (b.setFlag u (F.LOOP_STAT_DL_MISS l) true).when (!was) fun b => b.irq u 24
  let b := ((b.note 33 1 1).incSat u (F.LOOP_STAT_MISS_CNT l) 1).incSat u (F.LOOP_STAT_MISS_RUN l) 1
  if b.fld u (F.LOOP_STAT_TUNE l) = 1 then
    b.setSlotH m l { b.slotH m l with relay := (b.slotH m l).relay.count1 } else b

/-- Cycles that a slot costs (R162). -/
def Block.slotCost (b : Block) (m l : Nat) : Nat :=
  let u := U.pbd m
  if b.slotHeld m l then 16
  else 48 + (if lawKind l && b.actFlag u (F.LOOP_CTRL_LUT_EN l) then 16 else 0) +
    (if lawKind l && b.actFlag u (F.LOOP_CTRL_FF_EN l) then 8 else 0) +
    (if b.fld u (F.LOOP_STAT_TUNE l) = 1 then 16 else 0)

/-- PBDs that the engine serves in this tick, ascending (R145, R146). -/
def Block.served (b : Block) : List Nat := (List.range 128).filter fun m => b.pbdOn m && (b.pbdH m).sampled

/-- Pool of the present tick in cycles (R162, R165). -/
def Block.pool (b : Block) : Nat :=
  let len := b.time.tickEnd - b.time.tickStart
  if len < 16384 then 8 * (len / 2) else 65536

/-- The work of a tick in its order (R163): open steps (slot 8), then the slots by kind. -/
def Block.work (b : Block) : List (Nat × Nat × Nat) :=
  (b.served.map fun m => (m, 8, 24 + (if b.actFlag (U.pbd m) F.LOOP_PBD_CTRL_SUPV_EN then 8 else 0))) ++
    (List.range 8).flatMap fun l => (b.served.filter fun m => b.slotOn m l).map fun m => (m, l, b.slotCost m l)

/-- The items that fit the pool and those that do not, with the cycles charged: the first item that does not fit ends the
tick's work. -/
def splitPool (pool : Nat) : List (Nat × Nat × Nat) → Nat → List (Nat × Nat) × List (Nat × Nat) × Nat
  | [], used => ([], [], used)
  | (m, l, c) :: t, used =>
    if pool < used + c then ([], (m, l) :: t.map (fun x => (x.1, x.2.1)), used)
    else
      let (fit, miss, n) := splitPool pool t (used + c)
      ((m, l) :: fit, miss, n)

/-! ## Supervision (R166) -/

/-- The TXC of the supervised transmit slot of PBD `m`, none where it is a head port. -/
def Block.supvTxc (b : Block) (m : Nat) : Option Nat :=
  ((b.txSlots m).find? fun x => x.1 == b.actFld (U.pbd m) F.LOOP_SUPV_SLOT).bind fun x =>
    match x.2 with | .txc k => some k | _ => none

/-- The ORX that observes TXC `k` with a valid entry, and its reading (R166): the first of them, where several do (DESIGN CHOICE, log
entry 101). -/
def Block.orxObs (b : Block) (k : Nat) : Option (Nat × Int) :=
  ((List.range 8).find? fun o => b.orxSees o k && (b.orxH o).steady).bind fun o =>
    (b.mcReading (288 + o) 0).map fun v => (o, v)

/-- The observation of PBD `m` in this tick with its offset, none where there is none: the ORX entry that stayed valid, else
the monitor conversion. -/
def Block.observe (b : Block) (m : Nat) : Block × Option (Int × Int) :=
  let u := U.pbd m
  match b.supvTxc m with
  | none => (b, none)
  | some k =>
    if (b.txcH k).gateShut ∨ b.flag (U.txc k) F.TXC_STAT_GATE = false then (b, none)
    else
      match (b.pbdH m).loopIn.orx with
      | some (o, v) =>
        if b.orxSees o k && (b.orxH o).steady then (b, some (v, b.actS u F.LOOP_SUPV_OFS_ORX)) else (b, none)
      | none =>
        -- a fenced monitor gives none (R348)
        match if b.ownState U.mon = St.fenced then none else (b.pbdH m).monObs with
        | some code =>
          let (b, v) := b.roundFree (code * b.actS u F.LOOP_SUPV_MAP_SLOPE) 64
          (b, some (v, b.actS u F.LOOP_SUPV_OFS_MON))
        | none => (b, none)

/-- The open step's supervision of PBD `m`: DIFF and SUPV_RUN. -/
def Block.supervise (b : Block) (m : Nat) : Block :=
  let u := U.pbd m
  if b.actFlag u F.LOOP_PBD_CTRL_SUPV_EN = false then b.setFlag u F.LOOP_PBD_STAT_OBS false
  else
    let (b, obs) := b.observe m
    let b := b.setPbdH m { b.pbdH m with monObs := none }
    match obs, (b.pbdH m).loopIn.pred, b.db u F.PBD_GAIN_CMD with
    | some (v, ofs), some inp, some cmd =>
      let diff := inp + cmd + ofs - v
      let far := decide ((b.actFld u F.LOOP_SUPV_TOL : Int) < diff.natAbs)
      let b := (b.note 33 8 1).note 33 9 (bit far)
      let run := if far then min 8 (b.fld u F.LOOP_PBD_STAT_SUPV_RUN + 1) else 0
      ((b.setFlag u F.LOOP_PBD_STAT_OBS true).setFld u F.LOOP_PBD_STAT_DIFF (dbCode diff)).setFld u F.LOOP_PBD_STAT_SUPV_RUN run
    | _, _, _ => b.setFlag u F.LOOP_PBD_STAT_OBS false

/-! ## Selection, ceilings and slew (R153 to R155) -/

/-- The lowest output over the enabled slots and its slot; the lower slot wins between equals. -/
def Block.lowest (b : Block) (m : Nat) : Option (Int × Nat) :=
  (List.range 8).foldl (fun (a : Option (Int × Nat)) l =>
    if b.slotOn m l then
      match b.slotU m l, a with
      | some v, some (w, k) => if v < w then some (v, l) else some (w, k)
      | some v, none => some (v, l)
      | none, a => a
    else a) none

/-- A LULL cause holds, or arises with this tick (R164, R166). -/
def Block.lullDue (b : Block) (m : Nat) : Bool :=
  let u := U.pbd m
  let n := max 1 (b.actFld u F.LOOP_PBD_CTRL_N_MISS)
  b.flag u F.LOOP_PBD_STAT_LULL_DL || b.flag u F.LOOP_PBD_STAT_LULL_PL || b.fld u F.LOOP_PBD_STAT_SUPV_RUN == 8 ||
    (List.range 8).any fun l => b.slotOn m l && n ≤ b.fld u (F.LOOP_STAT_MISS_RUN l)

/-- The command of PBD `m` for the next tick (R153). DESIGN CHOICE: the first command, with no command before it (G_prev = 0x8000), has no
slew limit (log entry 104). -/
def Block.select (b : Block) (m : Nat) : Block :=
  let u := U.pbd m
  let lull := b.lullLevel m
  let b := b.setFld u F.LOOP_PBD_STAT_LULL_LVL (dbCode lull)
  let prev := b.netGain m
  let b := b.setFld u F.LOOP_PBD_OUT_PREV (dbCode? prev)
  match b.lowest m with
  | none => (b.setFld u F.LOOP_PBD_OUT_W noValue).setFld u F.LOOP_PBD_OUT_NEXT noValue
  | some (w, win) =>
    let b := b.setFld u F.LOOP_PBD_OUT_W (dbCode w)
    let ends := match (b.pbdH m).rampFine with | some r => decide (w * 1024 ≤ r) | none => false
    let (g, lim) := match (b.pbdH m).rampFine with
      | some r => if r < w * 1024 then (rne r 1024, 2) else (w, 0)
      | none => (w, 0)
    let (g, lim) := match prev with
      | some p => if p + max 1 (b.actFld u F.LOOP_PBD_CTRL_SLEW_UP) < g then (p + max 1 (b.actFld u F.LOOP_PBD_CTRL_SLEW_UP), 1) else (g, lim)
      | none => (g, lim)
    let (g, lim) := if b.lullDue m ∧ lull < g then (lull, 3) else (g, lim)
    let b := b.setFld u F.LOOP_PBD_OUT_NEXT (dbCode g)
    let b := b.setPbdH m { b.pbdH m with winNext := some (win, lim), gPrev := none }
    if ends then b.rampReach m else b

/-- The half-cycle of a running relay is overridden in this tick: another loop or ceiling lies below its output (R161). -/
def Block.relayOver (b : Block) (m : Nat) : Block :=
  b.each [3, 6, 7] fun b l =>
    if b.fld (U.pbd m) (F.LOOP_STAT_TUNE l) = 1 then
      match b.slotU m l, b.db (U.pbd m) F.LOOP_PBD_OUT_NEXT with
      | some v, some g =>
        if g < v then b.setSlotH m l { b.slotH m l with relay := { (b.slotH m l).relay with ovr := true } } else b
      | _, _ => b
    else b

/-! ## The planner (R67) -/

/-- The entries that the planner may select: SETTLE plus transfer within a tick. -/
def Block.planFits (b : Block) (μ : Mem) (m e : Nat) : Bool :=
  b.pathFld m (F.PBD_EXT_SETTLE e) + b.seqTime μ (b.pathFld m (F.PBD_EXT_SEQ e)) ≤ 16384

/-- The planner's run for PBD `m` in the tick that closes (R67). -/
def Block.plan (b : Block) (μ : Mem) (m : Nat) : Block :=
  let u := U.pbd m
  let n := b.pathFld m F.PBD_PLAN_N_EXT
  match b.db u F.LOOP_PBD_OUT_NEXT with
  | none => b
  | some g =>
    if b.flag u F.PBD_CTRL_PLAN_EN = false ∨ n = 0 then b
    else
      let h := b.pbdH m
      let e := match h.pendingEntry with
        | some (e, at_, true) => if at_ ≤ b.time.tickEnd then e else b.fld u F.PBD_GAIN_EXT_IDX
        | _ => b.fld u F.PBD_GAIN_EXT_IDX
      let later : Bool := match h.pendingEntry with | some (_, at_, _) => decide (b.time.tickEnd ≤ at_) | none => false
      let lo : Int := b.pathS m F.PBD_PLAN_DG_LO
      let hi : Int := b.pathS m F.PBD_PLAN_DG_HI
      let gain : Nat → Int := fun k => b.pathS m (F.PBD_EXT_GAIN k)
      let d : Int := g - gain e
      if later ∨ (lo ≤ d ∧ d ≤ hi) then b
      else
        -- twice the distance from the middle of the window
        let dist : Nat → Nat := fun k => (2 * (g - gain k) - (lo + hi)).natAbs
        let best := (List.range n).foldl (fun best k => if b.planFits μ m k ∧ dist k < dist best then k else best) e
        if best = e then b
        else b.setPbdH m { h with pendingNext := some (best, b.time.tickEnd + tickTc) }

/-! ## The close of the tick -/

/-- What the engine concludes for PBD `m` at the close: misses, supervision, evaluation, CLEAN, the command and the plan. DESIGN CHOICE: a
held slot counts as evaluated: its MISS_RUN is 0, beyond the pool too, and it is clean for CLEAN (log entry 104). -/
def Block.closePbd (b : Block) (μ : Mem) (m : Nat) (fit miss : List (Nat × Nat)) : Block :=
  let u := U.pbd m
  let b := b.each ((miss.filter fun x => x.1 = m ∧ x.2 < 8).map (·.2)) fun b l => if b.slotHeld m l then b else b.missSlot m l
  let clean := !((miss.filter fun x => x.1 = m ∧ x.2 < 8).any fun x => !b.slotHeld m x.2)
  let b := b.setFld u F.LOOP_PBD_STAT_CLEAN (if clean then min 64 (b.fld u F.LOOP_PBD_STAT_CLEAN + 1) else 0)
  let b := if fit.contains (m, 8) then b.supervise m else b
  let b := b.each ((fit.filter fun x => x.1 = m ∧ x.2 < 8).map (·.2)) fun b l => b.evalSlot μ m l
  ((b.select m).relayOver m).plan μ m

/-- The figures of the pool (R164, R170). -/
def Block.showPool (b : Block) (used missed : Nat) : Block :=
  let b := (b.setFld U.le F.LE_STAT_USED used).setFld U.le F.LE_STAT_MISSED (min 2047 missed)
  let b := b.setFld U.le F.LE_PEAK_PEAK (max used (b.fld U.le F.LE_PEAK_PEAK))
  if missed = 0 then b
  else
    let b := (b.incSat U.le F.LE_MISS_CNT_TICKS 1).incSat U.le F.LE_MISS_CNT_LOOPS missed
    (b.setFlag U.le F.LE_STAT_OVERRUN true).irq U.le 16

/-- The pool closes (R146, R163): every PBD in service gets its command for the next tick. The latch of a FATAL fault stops
the engine (R358). -/
def Block.poolClose (b : Block) (μ : Mem) : Block :=
  if b.loop.closed ∨ b.flag 0 F.FLT_MODE_FATAL then b
  else
    let (fit, miss, used) := splitPool b.pool b.work 0
    let missed := (miss.filter fun x => x.2 < 8 ∧ b.slotHeld x.1 x.2 = false).length
    let b := (b.showPool used missed).each b.served fun b m => (b.gainSettle m).closePbd μ m fit miss
    { b with loop := { b.loop with closed := true } }

/-- The instant at which the pool closes: the tick's last Tc, or 16,384 Tc after the start of a merged tick (R146, R165). -/
def Block.poolEnd (b : Block) : Nat := min (b.time.tickStart + tickTc) (b.time.tickEnd - 1)

/-- LOOP_POOL_CLOSE. -/
def execLoopPoolClose (s : State) : Host.Outcome State Fault Refusal := s.done fun μ b => b.atElapsed b.poolEnd fun b => b.poolClose μ

/-! ## LULL (R164, R166, R167) -/

/-- LOOP_DEADLINE: a slot's MISS_RUN has reached N_MISS. -/
def execLoopDeadline (m : Nat) (s : State) : Host.Outcome State Fault Refusal :=
  s.did fun b =>
    let u := U.pbd m
    let n := max 1 (b.actFld u F.LOOP_PBD_CTRL_N_MISS)
    if b.pbdOn m && !b.flag u F.LOOP_PBD_STAT_LULL_DL &&
        (List.range 8).any (fun l => b.slotOn m l && n ≤ b.fld u (F.LOOP_STAT_MISS_RUN l)) then
      (((b.setFlag u F.LOOP_PBD_STAT_LULL_DL true).irq u 25).lullState m).contained u C.loopDeadline
    else b

/-- PLAUSIBILITY: SUPV_RUN has reached 8. -/
def execPlausibility (m : Nat) (s : State) : Host.Outcome State Fault Refusal :=
  s.did fun b =>
    let u := U.pbd m
    if b.pbdOn m && !b.flag u F.LOOP_PBD_STAT_LULL_PL && b.fld u F.LOOP_PBD_STAT_SUPV_RUN == 8 then
      (((b.setFlag u F.LOOP_PBD_STAT_LULL_PL true).irq u 25).lullState m).contained u C.plausibility
    else b

/-- LULL_DL_CLEAR: CLEAN has reached 64. -/
def execLullDlClear (m : Nat) (s : State) : Host.Outcome State Fault Refusal :=
  s.did fun b =>
    let u := U.pbd m
    if b.flag u F.LOOP_PBD_STAT_LULL_DL && b.fld u F.LOOP_PBD_STAT_CLEAN == 64 then
      (b.setFlag u F.LOOP_PBD_STAT_LULL_DL false).lullState m
    else b

/-- CFG_REJ is set without a fault code. -/
def Block.pbdCfgRej (b : Block) (m : Nat) : Block :=
  let u := U.pbd m
  if b.flag u F.PBD_STAT_CFG_REJ then b else (b.setFlag u F.PBD_STAT_CFG_REJ true).irq u 19

/-- A write of CLR_PLAUS (R167). -/
def Block.clrPlaus (b : Block) (m : Nat) : Block :=
  let u := U.pbd m
  if b.fld u F.LOOP_PBD_STAT_SUPV_RUN ≠ 0 then b.pbdCfgRej m
  else (b.setFlag u F.LOOP_PBD_STAT_LULL_PL false).lullState m

/-- CLR_PLAUS: a write of LOOP_PBD_CTRL.CLR_PLAUS. -/
def execClrPlaus (who : Who) (m : Nat) (s : State) : Host.Outcome State Fault Refusal :=
  s.did fun b => b.wr who (U.pbd m) F.LOOP_PBD_CTRL_CLR_PLAUS (·.clrPlaus m)

/-! ## Ramp and back-off (R154, R156) -/

/-- RAMP_START: a write of LOOP_RAMP.START, for system privilege only. -/
def execRampStart (who : Who) (m : Nat) (s : State) : Host.Outcome State Fault Refusal :=
  s.did fun b => b.wr who (U.pbd m) F.LOOP_RAMP_START fun b => if whoSys who then b.rampStart m else b.privRefused m

/-- RAMP_STOP: a write of LOOP_RAMP.STOP, for system privilege only. -/
def execRampStop (who : Who) (m : Nat) (s : State) : Host.Outcome State Fault Refusal :=
  s.did fun b => b.wr who (U.pbd m) F.LOOP_RAMP_STOP fun b => if whoSys who then b.rampEnd m else b.privRefused m

/-- CLIP_BACKOFF_START: the fourth consecutive clipped tick has ended. -/
def execClipBackoffStart (m : Nat) (s : State) : Host.Outcome State Fault Refusal :=
  s.did fun b =>
    let u := U.pbd m
    if 4 ≤ (b.pbdH m).clipRun ∧ b.flag u F.LOOP_PBD_STAT_BACKOFF = false then
      (b.setFlag u F.LOOP_PBD_STAT_BACKOFF true).irq u 27
    else b

/-- CLIP_BACKOFF_END: 120 consecutive clean ticks have passed. -/
def execClipBackoffEnd (m : Nat) (s : State) : Host.Outcome State Fault Refusal :=
  s.did fun b =>
    if 120 ≤ (b.pbdH m).cleanRun then b.setFlag (U.pbd m) F.LOOP_PBD_STAT_BACKOFF false else b

/-! ## Writing loop settings (R157, R159, R160) -/

/-- The life-cycle state is TEST. -/
def Block.lcTest (b : Block) : Bool := b.otp.lc == 0

/-- A write that leaves M_min less than 3 dB above M_SQUALL is refused (R194). -/
def mMinOk (mSquall mMin : Int) : Bool := decide (mSquall + 192 ≤ mMin)

/-- A write to the cap that raises it above the lull level without system privilege (R159). -/
def Block.capRaised (b : Block) (who : Who) (m : Nat) (v : Int) : Bool :=
  !whoSys who && decide (b.sfld (U.pbd m) (F.LOOP_SETPT_SETPT 4) < v) && decide (b.lullLevel m < v)

/-- A loop register is stored, and waits for the boundary. -/
def Block.loopPut (b : Block) (who : Who) (m off : Nat) (half : Half) (v : Word) (skip : List Fld) : Block :=
  (b.putReg who (U.pbd m) off half v skip).loopDirty (U.pbd m) off

/-- A write of LOOP_CTRL of slot `l`. DESIGN CHOICE: EN = 0 of L0 in life-cycle TEST without system privilege changes nothing and raises no
PRIV (log entry 104). -/
def Block.loopCtrl (b : Block) (who : Who) (m l : Nat) (half : Half) (v : Word) : Block :=
  let off := R.LOOP_CTRL l
  let en := Word.fld v 0 0 == 1
  if half = .hi then b
  else if l = 1 ∧ en ∧ isUl m = false then b.pbdRefused m C.cfgLoop
  else if l = 4 ∧ en = false ∧ whoSys who = false then b.privRefused m
  else if l = 2 ∨ (l = 0 ∧ !(b.lcTest && (en || whoSys who))) then b.loopPut who m off half v [F.LOOP_CTRL_EN l]
  else b.loopPut who m off half v []

/-- A write of LOOP_SETPT of slot `l`. -/
def Block.loopSetpt (b : Block) (who : Who) (m l : Nat) (half : Half) (v : Word) : Block :=
  let off := R.LOOP_SETPT l
  let u := U.pbd m
  if half = .hi then b.loopPut who m off half v []
  else match l with
    | 0 =>
      -- M_min lies in 384 to 1,920 (R159, R470)
      let given := sext 16 (Word.fld v 15 0)
      let n := clampI 384 1920 given
      if whoSys who = false then b.privRefused m
      else if mMinOk (b.sfld u F.PROT_CFG_M_SQUALL) n = false then b.pbdRefused m C.cfgProt
      else (b.loopPut who m off half (Word.setFld v 15 0 (toCode 16 n)) []).when (n != given) fun b => b.correctedBy who u C.clamp
    | 2 => b.loopPut who m off half v [F.LOOP_SETPT_SETPT 2]
    | 4 =>
      let n := (clampedFld u (F.LOOP_SETPT_SETPT 4) v).1
      if b.capRaised who m (sext 16 n) then b.privRefused m else b.loopPut who m off half v []
    | _ => b.loopPut who m off half v []

/-- A write of a loop register or a PBD loop register at an offset of a PBD's page. -/
def Block.loopWrite (b : Block) (who : Who) (m off : Nat) (half : Half) (v : Word) : Block :=
  if 0x200 ≤ off ∧ off < 0x400 then
    let l := (off - 0x200) / 0x40
    if off = R.LOOP_CTRL l then b.loopCtrl who m l half v
    else if off = R.LOOP_SETPT l then b.loopSetpt who m l half v
    else b.loopPut who m off half v []
  else if off = R.LOOP_PBD_CTRL then (b.loopPut who m off half v []).when (asks half v F.LOOP_PBD_CTRL_CLR_PLAUS) (·.clrPlaus m)
  else if off = R.LOOP_RAMP then
    let start := asks half v F.LOOP_RAMP_START
    let stop := asks half v F.LOOP_RAMP_STOP
    if (start || stop) && !whoSys who then b.privRefused m
    else ((b.loopPut who m off half v []).when start (·.rampStart m)).when stop (·.rampEnd m)
  else b.loopPut who m off half v []

/-- The offsets of loop and PBD loop registers (R168, R169). -/
def loopOff (off : Nat) : Bool := (0x200 ≤ off && off < 0x400) || (0x160 ≤ off && off ≤ 0x188)

/-- LOOP_REG_WRITE: a write of a loop register or a PBD loop register. -/
def execLoopRegWrite (who : Who) (m off : Nat) (half : Half) (v : Word) (s : State) : Host.Outcome State Fault Refusal :=
  s.did fun b => if loopOff off then b.wrReg who (U.pbd m) off half fun b => b.loopWrite who m off half v else b

/-- TUNE_REQ: a write of LOOP_CTRL.TUNE_REQ. -/
def execTuneReq (who : Who) (m l : Nat) (on : Bool) (s : State) : Host.Outcome State Fault Refusal :=
  s.did fun b => b.wr who (U.pbd m) (F.LOOP_CTRL_TUNE_REQ l) fun b =>
    (b.setFlag (U.pbd m) (F.LOOP_CTRL_TUNE_REQ l) on).loopDirty (U.pbd m) (R.LOOP_CTRL l)

/-- A CAP cue (R245): SETPT and EN of L4, under R159; 0x8000 is clamped (R10, R470). True where it was not refused. -/
def Block.capCue (b : Block) (who : Who) (m : Nat) (v : Int) : Block × Bool :=
  let u := U.pbd m
  let low := decide (v < -32767)
  let v := max (-32767) v
  if b.capRaised who m v then (b.privRefused m, false)
  else
    let b := b.when low fun b => b.correctedBy who u C.clamp
    let b := (b.setFld u (F.LOOP_SETPT_SETPT 4) (toCode 16 v)).setFlag u (F.LOOP_CTRL_EN 4) true
    ((b.loopDirty u (R.LOOP_SETPT 4)).loopDirty u (R.LOOP_CTRL 4), true)

/-- A LULL cue (R245): the lower of SETPT and the lull level. -/
def Block.lullCue (b : Block) (m : Nat) : Block :=
  let u := U.pbd m
  let v := min (b.sfld u (F.LOOP_SETPT_SETPT 4)) (b.lullLevel m)
  let b := (b.setFld u (F.LOOP_SETPT_SETPT 4) (toCode 16 v)).setFlag u (F.LOOP_CTRL_EN 4) true
  (b.loopDirty u (R.LOOP_SETPT 4)).loopDirty u (R.LOOP_CTRL 4)

/-- A write of LE_LUT_DATA (R157, R170): the entry waits for the boundary, the address advances with AUTOINC. -/
def Block.lutWrite (b : Block) (v : Word) : Block :=
  let m := b.fld U.le F.LE_LUT_ADDR_PBD
  let l := b.fld U.le F.LE_LUT_ADDR_SLOT
  let k := b.fld U.le F.LE_LUT_ADDR_ENTRY
  let i := lutIndex m l k
  let b := b.put64 .lut i (v &&& 0xFFFFFFFF#64)
  let b := { b with loop := { b.loop with lutDirty := (b.loop.lutDirty.filter (· ≠ i)) ++ [i] } }
  if b.flag U.le F.LE_LUT_ADDR_AUTOINC then
    let b := b.setFld U.le F.LE_LUT_ADDR_ENTRY (k + 1)
    let b := if k = 63 then b.setFld U.le F.LE_LUT_ADDR_SLOT (l + 1) else b
    if k = 63 ∧ l = 7 then b.setFld U.le F.LE_LUT_ADDR_PBD (m + 1) else b
  else b

/-- LUT_WRITE: a write of LE_LUT_DATA. -/
def execLutWrite (who : Who) (half : Half) (v : Word) (s : State) : Host.Outcome State Fault Refusal :=
  s.did fun b => b.wrReg who U.le R.LE_LUT_DATA half fun b => if half = .hi then b else b.lutWrite v

/-- LE_PEAK_CLR: a write of LE_PEAK.CLR. -/
def execLePeakClr (who : Who) (s : State) : Host.Outcome State Fault Refusal :=
  s.did fun b => b.wr who U.le F.LE_PEAK_CLR fun b => b.setFld U.le F.LE_PEAK_PEAK 0

/-! ## The boundary (R146, R153, R157) -/

/-- HELD shows HOLD in force at a slot whose LOOP_CTRL has come into force (R157). -/
def Block.showHeld (b : Block) (k : Nat) : Block :=
  let u := k / 1024
  let l := (k % 1024 - 0x200) / 0x40
  if kindOf u = 0x05 ∧ 3 ≤ l ∧ l < 8 ∧ k % 1024 = R.LOOP_CTRL l then b.setFlag u (F.LOOP_STAT_HELD l) (b.actFlag u (F.LOOP_CTRL_HOLD l)) else b

/-- Loop registers and LUT entries written in the tick that ended take effect (R157). -/
def Block.loopApply (b : Block) (μ : Mem) : Block :=
  let keys := b.loop.dirty
  let b := { b with loop := { b.loop with
    act := b.loop.dirty.foldl (fun (a : Store Word) k =>
      Store.set (regReset (k / 1024) (k % 1024)) a k (b.reg (k / 1024) (k % 1024))) b.loop.act
    dirty := [] } }
  let b := b.each keys Block.showHeld
  let b := b.each b.loop.lutDirty fun b i => b.put64 .lutAct i (μ.rd64 .lut i)
  { b with loop := { b.loop with lutDirty := [] } }

/-- A clip back-off at PBD `m` by the tick that has just ended: it begins with the fourth clipped tick in a row and ends with the 120th
clean one (R156). -/
def Block.backoffNow (b : Block) (m : Nat) : Bool :=
  let h := b.pbdH m
  decide (4 ≤ h.clipRun) || (b.flag (U.pbd m) F.LOOP_PBD_STAT_BACKOFF && decide (h.cleanRun < 120))

/-- What the loop engine samples of PBD `m` as it stands (R146): margin, chain readings and observation; the guard's figures and the
clip state are those of the tick that has ended. -/
def Block.loopInputs (b : Block) (m : Nat) (old : LoopIn) : LoopIn :=
  { old with
    known := (b.pbdH m).unknown.isEmpty, iso := b.db (U.pbd m) F.PBD_PROBE_STAT_ISO_EST, cold := b.coldGain m
    pred := b.mcReading (2 * m) 0, orx := (b.supvTxc m).bind fun k => b.orxObs k
    slots := ([1, 3, 6, 7].filter fun l => b.slotOn m l).map fun l => (l, b.slotInput m l) }

/-- What completes at a boundary's own Tc is still sampled there: a reading (R181), a publication (R193), or the observation entry that
has just come into force (R166). -/
def Block.loopResample (b : Block) : Block :=
  if b.t ≠ b.time.tickStart then b
  else b.each ((List.range 128).filter fun m => (b.pbdH m).sampled) fun b m =>
    let h := b.pbdH m
    b.setPbdH m { h with loopIn := b.loopInputs m h.loopIn, knownLast := h.unknown.isEmpty }

/-- The engine samples its inputs for PBD `m` at the boundary (R146). A request of an auto-tune is answered out of service too (R161). -/
def Block.loopSample (b : Block) (m : Nat) (nrg : Option (Int × Int)) : Block :=
  let h := b.pbdH m
  if b.pbdOn m = false then (b.setPbdH m { h with sampled := false }).each (List.range 8) fun b l => b.tuneRun m l
  else
    let inp := b.loopInputs m { LoopIn.init with nrg := nrg, backoff := b.backoffNow m }
    let b := b.setPbdH m { h with sampled := true, loopIn := inp, monObs := none }
    -- a slot that is not enabled starts afresh at its next enable (R152)
    b.each (List.range 8) fun b l =>
      if b.slotOn m l || !lawKind l then b.tuneRun m l
      else (b.setSlotH m l { b.slotH m l with running := false }).tuneRun m l

/-- Ramp of PBD `m` at the boundary (R154). -/
def Block.rampTick (b : Block) (m : Nat) : Block :=
  let u := U.pbd m
  let h := b.pbdH m
  if h.rampStart then
    (((b.note 33 6 1).setPbdH m { h with rampStart := false, rampFine := some (b.coldGain m * 1024) }).setFlag u F.LOOP_PBD_STAT_RAMP true).setFld
      u F.LOOP_PBD_OUT_RAMP (dbCode (b.coldGain m))
  else match h.rampFine with
    | some r =>
      let r := r + max 1 (b.actFld u F.LOOP_RAMP_RATE)
      (b.setPbdH m { h with rampFine := some r }).setFld u F.LOOP_PBD_OUT_RAMP (dbCode (rne r 1024))
    | none => b

/-- The instant of the midpoint of the first cyclic prefix at PBD `m` that begins at or after air count `a` (R66). -/
def Block.cpMid (b : Block) (m a : Nat) : Nat :=
  let u := U.pb (pbOf m)
  let mu := b.fld u F.PB_CFG_MU
  let shift : Int := b.pathS m F.PBD_CP_OFS_OFS +
    (if isUl m then -((taTc (b.fld u F.PB_CFG_TAOFS) : Nat) : Int) else (latencyTc (b.rateOf m) : Nat))
  -- position of `a` on the grid of 0.5 ms, and the symbol starts of the grid around it
  let rel : Int := (a : Int) - shift
  let base : Int := rel / 983040 * 983040
  let g := ((List.range (halfSyms mu + 1)).map fun r => base + (symStart mu r : Int)).find? fun t => rel ≤ t
  let start := g.getD base
  let cp := (if (start - base) % 983040 = 0 then 9216 / 2 ^ mu + 1024 else 9216 / 2 ^ mu : Nat)
  (start + shift + cp / 2).toNat

/-- The command for the tick that starts comes into force, at once or in the first cyclic prefix (R65, R66), with the
winner's report. -/
def Block.gainTick (b : Block) (m : Nat) : Block :=
  let u := U.pbd m
  let h := b.pbdH m
  match h.winNext, b.db u F.LOOP_PBD_OUT_NEXT with
  | some (win, lim), some g =>
    if b.pathFld m F.PBD_CTRL_CP_ALIGN = 1 then
      b.setPbdH m { h with
        winNext := none, gainPending := some (g, b.t + (b.cpMid m b.time.air - b.time.air)), winPending := some (win, lim) }
    else
      ((b.setPbdH m { h with winNext := none, gainPending := none, winPending := none }).setFld u F.PBD_GAIN_CMD (dbCode g)).showWin m
        (win, lim)
  | _, _ => b

/-- The planner's entry comes into force at its boundary, and the one just decided becomes the pending one (R67). A change whose
sequence has not started, or whose start has already passed, is abandoned (R105). -/
def Block.entryTick (b : Block) (μ : Mem) (m : Nat) : Block :=
  let h := b.pbdH m
  let b := match h.pendingEntry with
    | some (e, at_, started) =>
      if at_ ≤ b.t then
        if started then (b.setPbdH m { h with pendingEntry := none }).setFld (U.pbd m) F.PBD_GAIN_EXT_IDX e else b.planPassed μ m e
      else b
    | none => b
  match (b.pbdH m).pendingNext with
  | some (e, at_) =>
    let b := b.setPbdH m { b.pbdH m with pendingNext := none, pendingEntry := some (e, at_, false) }
    if b.planStart μ m e at_ < (b.t : Int) then b.planPassed μ m e else b
  | none => b

/-- The net gain of the tick that ended is kept as the boundary comes (R66, R191). -/
def Block.gainClose (b : Block) (m : Nat) : Block := (b.gainSettle m).when (b.pbdOn m) fun b => b.gainNote m b.t

/-- A PBD's command, ramp, margin and entry at the boundary (R65, R67, R131, R154): the digital gain follows from the new command
and the new entry together. -/
def Block.tickGain (b : Block) (μ : Mem) (m : Nat) : Block :=
  let b := ((b.pathTick m).coldTick m).rampTick m
  let b := (b.gainTick m).entryTick μ m
  if b.pbdOn m then b.showGain m else b

/-! ## The observation receivers' advance (R108, R166) -/

/-- The dwell of the present entry has ended; the switch moves at this tick boundary, and an edited table
is taken at the wrap to entry 0. -/
def Block.dwellAdvance (b : Block) (o : Nat) : Block :=
  let u := U.orx o
  let h := b.orxH o
  let b := b.setOrxH o { h with adv := false }
  let e := b.fld u F.ORX_STAT_ENTRY + 1
  if e < h.table.length then b.dwellEntry o e
  else
    let b := (b.incWrap u F.ORX_STAT_CYCLES 1).irq u 16
    let n := b.fld u F.ORX_CTRL_N_ENT
    let b := if n = 0 ∨ 16 < n then b else b.setOrxH o { b.orxH o with table := b.dwellTable o }
    b.dwellEntry o 0

/-- ORX_DWELL_ADVANCE. -/
def execOrxDwellAdvance (o : Nat) (s : State) : Host.Outcome State Fault Refusal :=
  s.did fun b => if (b.orxH o).adv then (b.dwellAdvance o).loopResample else b

end Sys2Proof.Machine
end

