-- ==== Sys2Proof/Machine/Chains.lean ====
section
/-! DEFINITION.
The measurement chains (chapter 07): configuration, start and stop (R176, R179, R182, R183), outputs with their detectors
and validity (R173 to R180), and decimator resets (R184). -/
namespace Sys2Proof.Machine

/-- The tap of chain `c`: kind and index (R17, R183). -/
def Block.mcTap (b : Block) (c : Nat) : Nat × Nat :=
  if c < 256 then (c % 2, c / 2) else if c < 288 then (2, c - 256) else if c < 296 then (3, c - 288)
  else (b.fld (U.mc c) F.MC_TAP_KIND, b.fld (U.mc c) F.MC_TAP_INDEX)

/-- The input sample period of chain `c` in Tc (R172, R174). -/
def Block.mcPeriod (b : Block) (c : Nat) : Nat :=
  match b.mcTap c with
  | (0, m) | (1, m) => sampleTc (b.rateOf m)
  | _ => 4

/-- Order, output period in Tc and window of a preset (R176), none for CUSTOM. -/
def presetOf (p : Nat) : Option (Nat × Nat × Nat) :=
  match p with
  | 1 => some (3, 512, 4) | 2 => some (4, 2048, 8) | 3 => some (4, 8192, 16) | 4 => some (5, 16384, 64) | _ => none

/-- Order, decimation and window in effect for chain `c`, with its output period (R174, R176). -/
def Block.mcParams (b : Block) (c : Nat) : Nat × Nat × Nat × Nat :=
  let u := U.mc c
  let p := b.mcPeriod c
  match presetOf (b.fld u F.MC_CFG_PRESET) with
  | some (r, t, w) => (r, t / p, w, t)
  | none =>
    let w := b.fld u F.MC_CFG_WIN
    let d := b.fld u F.MC_CFG_DECIM
    (b.fld u F.MC_CFG_ORDER, d, if w = 0 then 256 else w, d * p)

/-- The support in outputs: R + F + W (R177). -/
def Block.mcSupport (b : Block) (c : Nat) : Nat :=
  let (r, _, w, _) := b.mcParams c
  r + (if b.flag (U.mc c) F.MC_CFG_PHASE then 16 else 32) + w

/-- The configuration of chain `c` is valid (R179, R183). -/
def Block.mcValid (b : Block) (c : Nat) : Bool :=
  let u := U.mc c
  let preset := b.fld u F.MC_CFG_PRESET
  let order := b.fld u F.MC_CFG_ORDER
  let decim := b.fld u F.MC_CFG_DECIM
  let (kind, index) := b.mcTap c
  decide (preset ≤ 4) && (preset != 0 || (3 ≤ order && order ≤ 5 && 8 ≤ decim && decim ≤ 4096)) &&
    decide (index < (match kind with | 2 => 32 | 3 => 8 | _ => 128))

/-- Order, decimation, window and output period of a running chain are those in effect now (R176). -/
def Block.mcShow (b : Block) (c : Nat) : Block :=
  let u := U.mc c
  let (r, d, w, t) := b.mcParams c
  let b := ((b.setFld u F.MC_STAT_ORDER r).setFld u F.MC_STAT_DECIM d).setFld u F.MC_STAT_WIN w
  b.setMcH c { b.mcH c with tout := t, support := b.mcSupport c }

/-- CHAIN_START (R179): a chain that is due starts its decimator at the tick boundary. -/
def Block.mcStart (b : Block) (c : Nat) : Block :=
  let u := U.mc c
  let b := (b.setMcH c { McH.init with origin := b.t }).mcShow c
  let b := (b.setFlag u F.MC_STAT_RUN true).setFlag u F.MC_STAT_SETTLED false
  let b := ((b.setFld u F.MC_RMS_OUTS 0).setFld u F.MC_PEAK_OUTS 0).setFld u F.MC_ENV_OUTS 0
  b.setFld u F.MC_ENV_VALUE noValue

/-- Every chain that is due starts. -/
def Block.chainTick (b : Block) : Block :=
  b.each (((Store.view b.mcs).filter fun x => x.2.startDue).map (·.1)) fun b c => b.mcStart c

/-- Chain `c` is asked into ACTIVE or TEST: true where its configuration is valid (R179). It starts at the first tick boundary at or
after the write: at once in a boundary's own Tc. -/
def Block.mcEnter (b : Block) (c st : Nat) : Block × Bool :=
  let u := U.mc c
  if b.mcValid c then
    let b := b.setState u st
    (if b.time.running && b.t == b.time.tickStart then b.mcStart c else b.setMcH c { b.mcH c with startDue := true }, true)
  else
    let b := if b.flag u F.MC_STAT_CFG_REJ then b else (b.setFlag u F.MC_STAT_CFG_REJ true).irq u 18
    (b.corrected u C.cfgMc, false)

/-- The sample period of PB `n` may have changed: its running chains show the decimation in effect. DESIGN CHOICE: a custom chain, whose
output period follows the sample period, counts its instants from the last one (log entry 101). -/
def Block.mcRateFollow (b : Block) (n : Nat) : Block :=
  b.each (((Store.view b.mcs).map (·.1)).filter fun c => (b.mcTap c).1 < 2 && (b.mcTap c).2 / 2 == n && b.flag (U.mc c) F.MC_STAT_RUN)
    fun b c =>
      let h := b.mcH c
      let b := b.mcShow c
      if (b.mcH c).tout = h.tout then b
      else b.setMcH c { b.mcH c with origin := h.origin + h.outs * h.tout, outs := 0, clean := 0 }

/-! ## Power, decimation and filter (R172, R174) -/

/-- The power samples of an output period, and the power that is 0 dBFS (R172, R173): |x|² summed over the slots of a PBD, whose codes
are units of 2^-15; x² summed over each group of 40 samples of a converter. A sample that is not given is zero. -/
def Block.mcPowers (b : Block) (c : Nat) (i q conv : List (List Int)) : List Nat × Nat :=
  let d := b.fld (U.mc c) F.MC_STAT_DECIM
  let sq := fun (top x : Int) => (clampI (-top - 1) top x).natAbs ^ 2
  let pbd := (List.range d).map fun n => (((i.getD n []) ++ (q.getD n [])).map (sq 32767)).sum
  let cv := fun top => (List.range d).map fun n => (((conv.getD n []).take 40).map (sq top)).sum
  match (b.mcTap c).1 with
  | 2 => (cv 2047, 20 * 2047 ^ 2)
  | 3 => (cv 511, 20 * 511 ^ 2)
  | _ => (pbd, 2 ^ 30)

/-- The width in which the CIC decimator counts: it holds every output, as 4,096^5 times the largest power sample does not reach it. -/
def cicMod : Nat := 2 ^ 128

/-- A sample passes the integrators. -/
def cicInt (x : Nat) : List Nat → List Nat
  | [] => []
  | v :: t => let v' := (v + x) % cicMod; v' :: cicInt v' t

/-- The last integrator's value passes the combs: their delays, and the output. -/
def cicComb (x : Nat) : List Nat → List Nat × Nat
  | [] => ([], x)
  | z :: t => let (r, y) := cicComb ((x + (cicMod - z)) % cicMod) t; (x :: r, y)

/-- A line of `n` values, zero where none has been given. -/
def lineOf {α : Type} (z : α) (n : Nat) (l : List α) : List α := (l ++ List.replicate n z).take n

/-- The step response of a CIC decimator of order `r`, `x` half output periods after the step, in units of 1 / (2^r · r!): its R running
sums over an output period, of samples so close that they count as continuous. -/
def cicStep (r x : Nat) : Int :=
  ((List.range (r + 1)).map fun j =>
    (if j % 2 = 0 then (1 : Int) else -1) * (((List.range j).foldl (fun a i => a * (r - i) / (i + 1)) 1 * (x - 2 * j) ^ r : Nat) : Int)).sum

/-- The step response of a whole chain with the taps `full` and window `w`, `x` half output periods after the step, in units of
2^-17 / (2^r · r! · w). -/
def chainStep (r w : Nat) (full : List Int) (x : Nat) : Int :=
  ((List.range w).map fun i => (full.zipIdx.map fun g => g.1 * cicStep r (x - 2 * (i + g.2))).sum).sum

/-- A set of built-in coefficients of a preset of order `r` and window `w` keeps the bounds of R473: unity gain at DC; a step response within
5 % of the step; and the RMS first reaches the midpoint at the delay of R177's table: before it by half an output period or more it stands
below the midpoint, and at it at or above. Units of 2^-17. -/
def firOk (r w : Nat) (min : Bool) (l : List Int) : Bool :=
  let full := if min then l else l ++ l.reverse
  let steps := (List.range full.length).map fun n => 20 * (full.take (n + 1)).sum
  let unit : Int := ((2 ^ r * (List.range r).foldl (fun a i => a * (i + 1)) 1 * w * 131072 : Nat) : Int)
  -- the delay in half output periods, less its 64 Tc
  let d := r + (if min then 4 else 31) + w
  full.sum == 131072 && steps.all (fun s => -131072 ≤ s && s ≤ 21 * 131072) &&
    decide (unit ≤ 2 * chainStep r w full d) && (List.range (d - 1)).all fun x => decide (2 * chainStep r w full x < unit)

/-- The built-in coefficients of a preset: free within R473 (DESIGN CHOICE, log entry 101). -/
def builtinFir (preset : Nat) (min : Bool) : List Int :=
  let l := (List.range 16).map (Config.chainFir preset (bit min))
  let (r, _, w) := (presetOf preset).getD (3, 512, 4)
  if firOk r w min l then l else (List.range 16).map fun n => if min then (if n = 2 then 131072 else 0) else (if n = 15 then 65536 else 0)

/-- The taps of chain `c`'s FIR, newest sample first: 16 of the minimum-phase set, or 32 of the even-symmetric linear set with its
first coefficient outermost (R174, R182). -/
def Block.mcTaps (b : Block) (μ : Mem) (c : Nat) : List Int :=
  let u := U.mc c
  let min := b.flag u F.MC_CFG_PHASE
  let l := match b.fld u F.MC_CFG_PRESET with
    | 0 => (List.range 16).map fun n => sext 18 (μ.rd .mcCoef (c * 32 + bit min * 16 + n)).toNat
    | p => builtinFir p min
  if min then l else l ++ l.reverse

/-- The output period's samples pass the CIC decimator and the FIR: the chain's new state, and the output in units of 2^-64 of full
scale, with the CIC gain D^R removed. -/
def Block.mcFilter (b : Block) (μ : Mem) (c : Nat) (i q conv : List (List Int)) : McH × Int :=
  let u := U.mc c
  let h := b.mcH c
  let r := b.fld u F.MC_STAT_ORDER
  let (xs, fs) := b.mcPowers c i q conv
  let ints := xs.foldl (fun v x => cicInt x v) (lineOf 0 r h.ints)
  let (combs, z) := cicComb ((ints.getLast?).getD 0) (lineOf 0 r h.combs)
  let taps := b.mcTaps μ c
  let line := lineOf 0 taps.length (z :: h.line)
  let sum := ((taps.zip line).map fun x => x.1 * (x.2 : Int)).sum
  ({ h with ints := ints, combs := combs, line := line },
    sum * 2 ^ 64 / ((fs * b.fld u F.MC_STAT_DECIM ^ r * 2 ^ 17 : Nat) : Int))

/-! ## Validity (R180) -/

/-- RXC `k` was not in RX at some Tc from `lo` up to `hi`. -/
def Block.rxcShut (b : Block) (k lo hi : Nat) : Bool :=
  let h := b.rxcH k
  !((match h.rxFrom with | some t => decide (t ≤ lo) | none => false) || h.rxWas.any fun x => decide (x.1 ≤ lo) && decide (hi ≤ x.2))

/-- A sample at chain `c`'s tap from elapsed `lo` up to `hi` was gated (R180). -/
def Block.mcGated (b : Block) (c lo hi : Nat) : Bool :=
  match b.mcTap c with
  | (0, m) => b.inShut m lo hi
  | (1, m) => b.outShut m lo hi
  | (2, k) => b.rxcShut k lo hi
  | (_, k) => spanHit (b.orxH k).settles lo hi

/-- A sample at the tap of a PBD's chain `c` from elapsed `lo` up to `hi` carried INPUT_CLIP (R73, R180). -/
def Block.mcClipped (b : Block) (c lo hi : Nat) : Bool :=
  let (kind, m) := b.mcTap c
  decide (kind < 2) && (b.rxSlots m).any fun x =>
    match x.2 with
    | .rxc k =>
      let d := rxPartTc (b.rateOf m) + (if kind = 1 then midPartTc (b.rateOf m) else 0)
      (b.rxcH k).ovrs.any fun y => decide (y.1 + d < hi) && decide (lo < y.2 + 160 * sampleTc (b.rateOf m) + d)
    | _ => false

/-! ## Detectors (R173, R175) -/

/-- A reading of a power num/den as its code: the level, at least −120 dBFS, plus OFFSET (R173). -/
def Block.mcCode (b : Block) (c : Nat) (num : Int) (den : Nat) : Block × Nat :=
  let (b, l) := b.dbfs num.toNat den
  (b, dbCode (l + b.sfld (U.mc c) F.MC_CAL_OFFSET))

/-- The envelope's next value (R175): a rise is divided by 2^ATK, a fall by 2^DCY. -/
def Block.mcEnv (b : Block) (c : Nat) (y : Int) (gated : Bool) : Block × Option Int :=
  let u := U.mc c
  match (b.mcH c).env, gated with
  | e, true => (b, e)
  | none, false => (b, some y)
  | some e, false =>
    let k := if e < y then b.fld u F.MC_CFG_ATK else b.fld u F.MC_CFG_DCY
    let (b, d) := b.roundFree (y - e) (2 ^ k)
    (b, some (e + d))

/-- An output y of chain `c`, in units of 2^-64 of full scale: the readings of the three detectors, their validity and their records. -/
def Block.mcDetect (b : Block) (c : Nat) (y : Int) (gated clip : Bool) : Block :=
  let u := U.mc c
  let h := b.mcH c
  let w := match b.fld u F.MC_STAT_WIN with | 0 => 256 | n => n
  let ys := (y :: h.ys).take w
  let clean := if gated then 0 else h.clean + 1
  let left := if clip then h.support else h.clipLeft - 1
  let valid := decide (h.support ≤ clean)
  let (b, env) := b.mcEnv c y gated
  let b := b.setMcH c { h with outs := h.outs + 1, clean := clean, clipLeft := left, ys := ys, env := env }
  let full := 2 ^ 64
  let (b, rms) := b.mcCode c ys.sum (w * full)
  let (b, peak) := b.mcCode c (ys.foldl max 0) full
  let (b, envCode) := match env with | none => (b, noValue) | some e => b.mcCode c e full
  let b := ((b.setFld u F.MC_RMS_VALUE rms).setFld u F.MC_PEAK_VALUE peak).setFld u F.MC_ENV_VALUE envCode
  let b := ((b.setFlag u F.MC_RMS_VALID valid).setFlag u F.MC_PEAK_VALID valid).setFlag u F.MC_ENV_VALID (valid && env.isSome)
  let cl := decide (0 < left)
  let b := ((b.setFlag u F.MC_RMS_CLIP cl).setFlag u F.MC_PEAK_CLIP cl).setFlag u F.MC_ENV_CLIP cl
  let b := ((b.incWrap u F.MC_RMS_OUTS 1).incWrap u F.MC_PEAK_OUTS 1).incWrap u F.MC_ENV_OUTS 1
  let b := b.setReg u R.MC_STAMP b.now
  let b := b.when valid fun b =>
    match b.db u F.MC_PEAK_HOLD_HOLD with
    | none => b.setFld u F.MC_PEAK_HOLD_HOLD peak
    | some hold => b.setFld u F.MC_PEAK_HOLD_HOLD (dbCode (max hold (sext 16 peak)))
  let b := b.when (valid && c < 256 && c % 2 == 1) fun b =>
    b.setPbdH (c / 2) { b.pbdH (c / 2) with readsNow := (b.pbdH (c / 2)).readsNow ++ [sext 16 rms] }
  b.when (decide (h.support ≤ h.outs + 1) && !b.flag u F.MC_STAT_SETTLED) fun b =>
    (b.setFlag u F.MC_STAT_SETTLED true).irq u 16

/-- An output instant of chain `c` (R174, R175, R180): the samples of its output period, each a list over the slots of a PBD (codes of I
and of Q) or of 40 converter codes. They passed the tap 64 Tc before (R172). -/
def Block.mcOutput (b : Block) (μ : Mem) (c : Nat) (i q conv : List (List Int)) : Block :=
  if b.flag (U.mc c) F.MC_STAT_RUN = false then b
  else
    let h := b.mcH c
    b.atEdge (h.origin + (h.outs + 1) * h.tout) fun b =>
      let hi := b.t - 64
      let lo := hi - h.tout
      let (h', y) := b.mcFilter μ c i q conv
      ((b.setMcH c h').mcDetect c y (b.mcGated c lo hi) (b.mcClipped c lo hi)).loopResample

/-- MC_OUTPUT. -/
def execMcOutput (c : Nat) (i q conv : List (List Int)) (s : State) : Host.Outcome State Fault Refusal :=
  s.done fun μ b => b.mcOutput μ c i q conv

/-- A trigger of a decimator reset at elapsed `t`: it applies 64 Tc later, once for triggers that coincide (R184). -/
def Block.mcTrigger (b : Block) (t : Nat) : Block :=
  if b.mcResets.contains (t + 64) then b else { b with mcResets := b.mcResets ++ [t + 64] }

/-- MSYNC_N_EDGE: a falling edge sampled on MSYNC_N. -/
def execMsyncNEdge (s : State) : Host.Outcome State Fault Refusal :=
  s.did fun b => if b.inReset then b else b.mcTrigger b.t

/-- MC_SYNC. -/
def execMcSync (who : Who) (c : Nat) (s : State) : Host.Outcome State Fault Refusal :=
  s.did fun b => b.wr who (U.mc c) F.MC_CTRL_SYNC fun b => b.mcTrigger b.t

/-- A decimator reset at one chain (R175, R184). -/
def Block.mcReset (b : Block) (c : Nat) : Block :=
  let u := U.mc c
  if b.flag u F.MC_STAT_RUN = false ∨ b.flag u F.MC_CFG_NOSYNC then b
  else
    let b := b.setMcH c { b.mcH c with
      origin := b.t, outs := 0, clean := 0, clipLeft := 0, ys := [], env := none, ints := [], combs := [], line := [] }
    let b := ((b.setFlag u F.MC_RMS_VALID false).setFlag u F.MC_PEAK_VALID false).setFlag u F.MC_ENV_VALID false
    let b := (b.setFld u F.MC_ENV_VALUE noValue).setFlag u F.MC_STAT_SETTLED false
    ((b.incWrap u F.MC_STAT_SYNC_CNT 1).setReg u R.MC_SYNC_STAMP b.now).irq u 19

/-- DECIM_RESET_APPLY: the earliest pending reset applies. -/
def execDecimResetApply (s : State) : Host.Outcome State Fault Refusal :=
  s.did fun b =>
    match b.mcResets with
    | [] => b
    | d :: t =>
      let at_ := t.foldl min d
      b.atElapsed at_ fun b =>
        ({ b with mcResets := b.mcResets.filter (· ≠ at_) }).each (List.range 320) fun b c => b.mcReset c

/-- PEAK_CLR of a chain. -/
def execPeakClr (who : Who) (c : Nat) (s : State) : Host.Outcome State Fault Refusal :=
  s.did fun b => b.wr who (U.mc c) F.MC_CTRL_PEAK_CLR fun b => b.setFld (U.mc c) F.MC_PEAK_HOLD_HOLD noValue

/-- A spare chain that backs a failed one (R31, R183). -/
def Block.mcBacks (b : Block) (c : Nat) : Bool :=
  296 ≤ c && b.flag 0 (F.ROOT_SPARE_MC_USED ((c - 296) / 4) ((c - 296) % 4))

/-- A write of MC_TAP, MC_CFG, MC_COEF_ADDR or MC_COEF_DATA (R182, R183): ignored while the chain runs, and MC_TAP of a chain
that is no free spare is. -/
def Block.mcConfigWrite (b : Block) (who : Who) (c off : Nat) (half : Half) (v : Word) : Block :=
  let u := U.mc c
  let busy := b.ownState u == St.active || b.ownState u == St.test
  let fixed := off == R.MC_TAP && (c < 296 || b.mcBacks c)
  if busy ∨ fixed then
    let b := if b.flag u F.MC_STAT_COEF_BUSY then b else (b.setFlag u F.MC_STAT_COEF_BUSY true).irq u 17
    b.corrected u C.coefBusy
  else if off = R.MC_COEF_DATA then
    if halfHas half F.MC_COEF_DATA_COEF then
      let i := b.fld u F.MC_COEF_ADDR_INDEX
      (b.put .mcCoef (c * 32 + b.fld u F.MC_COEF_ADDR_SET * 16 + i) (BitVec.ofNat 128 (Word.fld v 17 0))).setFld u
        F.MC_COEF_ADDR_INDEX (i + 1)
    else b
  else b.putReg who u off half v []

/-- MC_CONFIG_WRITE. -/
def execMcConfigWrite (who : Who) (c off : Nat) (half : Half) (v : Word) (s : State) : Host.Outcome State Fault Refusal :=
  s.did fun b => b.wrReg who (U.mc c) off half fun b =>
    if off = R.MC_TAP ∨ off = R.MC_CFG ∨ off = R.MC_COEF_ADDR ∨ off = R.MC_COEF_DATA then b.mcConfigWrite who c off half v else b

end Sys2Proof.Machine
end

