-- ==== Sys2Proof/Machine/FaultOps.lean ====
section
/-! DEFINITION.
The commands of fault handling (chapter 15): raising, the steps of a safe state and its release, first-fault clearing, the
TEST phase of the collector, FAULT_N and injection. -/
namespace Sys2Proof.Machine

/-- A sensor fails: it is fenced with CONTAINED TS_FAIL (R334, R346). -/
def Block.tsFail (b : Block) (n cause : Nat) : Block :=
  let b := (b.setFld (U.ts n) F.TS_STAT_CAUSE cause).contained (U.ts n) C.tsFail
  (b.irq (U.ts n) 17).irq U.kiln 19

/-- A fault is raised by hardware at a unit (R22, R347, R353): an unrepaired built-in test failure makes the unit FAILED, and one
in an essential class is FATAL. `path` is the class that R474 takes from the failing block. -/
def Block.faultRaise (b : Block) (u code path : Nat) : Block :=
  if b.inReset ∨ reservedUid u then b
  else if code = C.bistFail then
    let b := b.faultReport u code 2 false false path
    let b := if kindOf u = 0x04 then b else (b.setState u St.failed).quiet u
    b.containedSide u code path
  else match classOf code with
    | 1 => b.faultReport u code 1 false false path
    | 2 => b.containedPath u code path
    | 3 => b.fatal u code path
    | _ => b

/-- One step of the safe-state sequence (R355). -/
def Block.safeStepDo (b : Block) (μ : Mem) (st : SafeStep) : Block :=
  match st with
  | .rampDown => (({ b with root := { b.root with safeCmd := true } }).txcRefreshAt b.t).muteHeads
  | .silent => b
  | .strobes => (b.strobesDown).each (List.range 4) fun b c => b.rffeCut μ c

/-- SAFE_STATE_STEP: the earliest step of the sequence. -/
def execSafeStateStep (s : State) : Host.Outcome State Fault Refusal :=
  s.done fun μ b =>
    match b.flt.safeSeq with
    | [] => b
    | (t, st) :: rest => b.atElapsed t fun b => ({ b with flt := { b.flt with safeSeq := rest } }).safeStepDo μ st

/-- SAFE_CLR is accepted: every unit whose fault set the state is fenced, failed or cleared, and no qualifying fault comes in
this Tc (R357). -/
def Block.safeClrOk (b : Block) : Bool :=
  b.flt.safeAt != some b.t && b.flt.safeSetters.all fun u =>
    b.ownState u == St.fenced || b.ownState u == St.failed || !b.flag u F.UNIT_FAULT_CONTAINED

/-- A write of SAFE_CLR (R357). -/
def Block.safeClr (b : Block) (who : Who) : Block :=
  if whoSys who = false then (if whoPfSys who then b.correctedBy who 0 C.priv else b)
  else if b.flag 0 F.FLT_MODE_SAFE = false then b
  else if b.safeClrOk then
    (({ b with flt := { b.flt with safeSetters := [], safeSeq := [] }, root := { b.root with safeUp := true } }).setFlag 0
      F.FLT_MODE_SAFE false).irq 0 21
  else b.setFlag 0 F.FLT_MODE_CLR_REJ true

/-- SAFE_CLR: for system privilege only. -/
def execSafeClr (who : Who) (s : State) : Host.Outcome State Fault Refusal :=
  s.did fun b => b.wr who 0 F.FLT_CTRL_SAFE_CLR fun b => b.safeClr who

/-- The release of the legacy safe state at a tick boundary: ramps from cold gain, and the TXCs return (R357). -/
def Block.safeTick (b : Block) : Block :=
  if b.root.safeUp then
    let b := { b with root := { b.root with safeUp := false, safeCmd := false } }
    let b := b.each (List.range 128) fun b m => if b.inService (U.pbd m) then b.rampStart m else b
    (b.strobesUp).txcRefreshAll
  else b

/-- FLT_FIRST, FLT_NEXT and LOST are cleared (R362). -/
def Block.firstClr (b : Block) (who : Who) : Block :=
  if whoPfSys who then (({ b with flt := { b.flt with captured := [] } }).showCaptured).setFld 0 F.FLT_NEXT_CNT_LOST 0 else b

/-- FIRST_CLR: ignored while the fatal latch is set, as every write is (R358). -/
def execFirstClr (who : Who) (s : State) : Host.Outcome State Fault Refusal :=
  s.did fun b => b.wr who 0 F.FLT_CTRL_FIRST_CLR fun b => b.firstClr who

/-- A TEST phase of the collector starts (R351). -/
def Block.bistStart (b : Block) (who : Who) : Block :=
  if who = .warden ∧ b.fld 0 F.FLT_COLLECT_INFO_PHASE = 0 then b.setPhase 2 false else b

/-- BIST: for the warden only. -/
def execBistRun (who : Who) (s : State) : Host.Outcome State Fault Refusal :=
  s.did fun b => b.wr who 0 F.FLT_CTRL_BIST fun b => b.bistStart who

/-- A write of FLT_PIN.DRIVE (R359). -/
def Block.pinDrive (b : Block) (who : Who) (on : Bool) : Block :=
  if whoPfSys who = false then b
  else if on then
    let b := { b with flt := { b.flt with pinLowAt := some (match b.flt.pinLowAt with | some t => min t b.t | none => b.t) } }
    b.setFlag 0 F.FLT_PIN_DRIVE true
  else if b.overridden 0 F.FLT_PIN_DRIVE then b
  else
    let b := b.setFlag 0 F.FLT_PIN_DRIVE false
    if b.flt.pulseEnd.isSome then b else { b with flt := { b.flt with pinLowAt := none } }

/-- FAULT_PIN_DRIVE_WRITE: ignored while the fatal latch is set. -/
def execFaultPinDriveWrite (who : Who) (on : Bool) (s : State) : Host.Outcome State Fault Refusal :=
  s.did fun b => b.wr who 0 F.FLT_PIN_DRIVE fun b => b.pinDrive who on

/-- FAULT_PULSE_END: the pin follows DRIVE. -/
def execFaultPulseEnd (s : State) : Host.Outcome State Fault Refusal :=
  s.did fun b =>
    match b.flt.pulseEnd with
    | none => b
    | some t => b.atElapsed t fun b =>
      let b := ({ b with flt := { b.flt with pulseEnd := none } }).setFlag 0 F.FLT_PIN_PULSE false
      if b.flag 0 F.FLT_PIN_DRIVE then b else { b with flt := { b.flt with pinLowAt := none } }

/-- An injection is refused (R365). -/
def Block.injRefused (b : Block) (who : Who) : Bool :=
  let cls := b.fld 0 F.FLT_INJ_SEL_CLASS
  !b.flag 0 F.FLT_CFG_INJ_EN || !whoPfSys who || cls == 0 || classOf (b.fld 0 F.FLT_INJ_SEL_CODE) == 0 ||
    (cls == 3 && !b.flag 0 F.FLT_INJ_SEL_DRY && !b.lcTest)

/-- The selected fault is injected (R364). -/
def Block.inject (b : Block) (who : Who) : Block :=
  if b.injRefused who then
    ((b.setFlag 0 F.FLT_INJ_STAT_REFUSED true).irq 0 25).correctedBy who 0 C.injRefused
  else
    let u := b.fld 0 F.FLT_INJ_SEL_UID
    let code := b.fld 0 F.FLT_INJ_SEL_CODE
    let cls := b.fld 0 F.FLT_INJ_SEL_CLASS
    let b := b.incSat 0 F.FLT_INJ_STAT_COUNT 1
    if reservedUid u then b
    else if b.flag 0 F.FLT_INJ_SEL_DRY then b.faultReport u code cls true false (pathClass who)
    else b.raiseAt u code cls (pathClass who) true (!notFencing code) (spares u code)

/-- FLT_INJ_GO. -/
def execFltInjGo (who : Who) (s : State) : Host.Outcome State Fault Refusal :=
  s.did fun b => b.wr who 0 F.FLT_INJ_GO_GO fun b => b.inject who

end Sys2Proof.Machine
end

