-- ==== Sys2Proof/Machine/Fronthaul.lean ====
section
/-! DEFINITION.
Fronthaul and remote heads (chapter 11): links and lanes of the ports, uplink frames, admission, supervision, latency and
realign of the heads, and the control messages sent to them. -/
namespace Sys2Proof.Machine

/-! ## Ports and lanes (R264 to R267) -/

/-- 1.5 s in Tc. -/
def trainTc : Nat := 2949120000

/-- Port `q` begins link training now. -/
def Block.fhTrain (b : Block) (q : Nat) : Block := (b.setLink q 1).setFhH q { trainAt := b.t }

/-- FH_TRAINING_DONE: link, alignment and negotiation are complete within 1.5 s of the start of training. -/
def execFhTrainingDone (q : Nat) (s : State) : Host.Outcome State Fault Refusal :=
  s.did fun b =>
    if b.fld (U.fh q) F.FH_STAT_LINK = 1 ∧ b.t ≤ (b.fhH q).trainAt + trainTc then b.setLink q 2 else b

/-- FH_TRAIN_TIMEOUT: training restarts at once, and TRAIN_FAIL adds one. -/
def execFhTrainTimeout (q : Nat) (s : State) : Host.Outcome State Fault Refusal :=
  s.did fun b =>
    if b.fld (U.fh q) F.FH_STAT_LINK = 1 then
      b.atElapsed ((b.fhH q).trainAt + trainTc) fun b => (b.incSat (U.fh q) F.FH_STAT_TRAIN_FAIL 1).fhTrain q
    else b

/-- Port `q` goes DOWN, and at once to training. -/
def Block.fhDown (b : Block) (q : Nat) : Block := ((b.setLink q 3).incSat (U.fh q) F.FH_STAT_DOWNS 1).fhTrain q

/-- FH_FEC_LOSS: FEC alignment has been lost for 1 ms. -/
def execFhFecLoss (q : Nat) (s : State) : Host.Outcome State Fault Refusal :=
  s.did fun b => if b.fhUp q then (b.fhDown q).corrected (U.fh q) C.fhLinkDown else b

/-- Physical lane `l` of group `g` fails (R266): the spare, lane 8, replaces it while it is free and sound, and the port
retrains; else the port is fenced. -/
def Block.fhLaneFail (b : Block) (g l : Nat) : Block :=
  let ports := (List.range 4).map fun q => 4 * g + q
  let u0 := U.fh (4 * g)
  let failed := b.fld u0 F.FH_LANE_FAILED
  if (failed >>> l) % 2 = 1 then b
  else
    let b := b.each ports fun b q => b.setFld (U.fh q) F.FH_LANE_FAILED (failed ||| (1 <<< l))
    let carries := fun (b : Block) (q x : Nat) => b.fld (U.fh q) F.FH_LANE_PHY0 == x || b.fld (U.fh q) F.FH_LANE_PHY1 == x
    match ports.find? fun q => carries b q l with
    | none => b.each ports fun b q => b.irq (U.fh q) 17
    | some q =>
      let b := b.irq (U.fh q) 17
      if (failed >>> 8) % 2 = 0 ∧ ports.all fun p => !carries b p 8 then
        let f := if b.fld (U.fh q) F.FH_LANE_PHY0 = l then F.FH_LANE_PHY0 else F.FH_LANE_PHY1
        let b := ((b.setFld (U.fh q) f 8).setFlag (U.fh q) F.FH_STAT_SPARED true).corrected (U.fh q) C.fhLaneSpared
        match b.fld (U.fh q) F.FH_STAT_LINK with
        | 2 => b.fhDown q
        | 1 => b.fhTrain q
        | _ => b
      else b.contained (U.fh q) C.fhLaneFail

/-- FH_LANE_FAIL: lane `l` of port group `g` fails. -/
def execFhLaneFail (g l : Nat) (s : State) : Host.Outcome State Fault Refusal := s.did fun b => b.fhLaneFail g l

/-! ## Received frames (R268 to R270) -/

/-- The codewords of a received frame are counted: corrected and uncorrectable (R281, R283). -/
def Block.fecCount (b : Block) (q corr unc : Nat) : Block :=
  let b := (b.incSat (U.fh q) F.FH_FEC_CORR corr).incSat (U.fh q) F.FH_FEC_UNCORR unc
  b.when (decide (0 < unc)) fun b => b.irq (U.fh q) 19

/-- FH_OTHER_FRAME_RX: a PAUSE frame is counted in PAUSE, any other frame in OTHER; both are discarded. -/
def execFhOtherFrameRx (q : Nat) (pause : Bool) (corr unc : Nat) (s : State) : Host.Outcome State Fault Refusal :=
  s.did fun b =>
    if b.fhUp q then (b.fecCount q corr unc).incSat (U.fh q) (if pause then F.FH_RX_CNT_PAUSE else F.FH_RX_CNT_OTHER) 1 else b

/-- The air count that orderInfo stands for: the nearest to now among those whose TC and low 7 bits of SFN agree (R269). -/
def orderAir (air : Nat) (order : BitVec 32) : Option Nat :=
  let tc := order.toNat % 2 ^ 25
  if frameTc ≤ tc then none
  else
    let per := 128 * frameTc
    let v := order.toNat / 2 ^ 25 * frameTc + tc
    let base := air / per * per + v
    if air + per / 2 < base ∧ per ≤ base then some (base - per)
    else if base + per / 2 < air then some (base + per)
    else some base

/-- An IQ frame of flow `f` of head `h` has arrived on port `q` (R269, R270). A frame that fails its FCS or holds a block
whose CRC-8 fails is lost, as one that never came. -/
def Block.iqFrame (b : Block) (q h f : Nat) (fmt16 : Bool) (order : BitVec 32) (bad : Bool) : Block :=
  if bad then b
  else
    let m := b.flowPbd h f
    let known := (b.hdH h).port == some q && b.admitted h && f < 32 && b.flag (U.hd h) (F.HD_FLOW_V f) && isUl m &&
      b.flag (U.hd h) (F.HD_FLOW_FMT f) == fmt16
    match known, orderAir b.time.air order with
    | true, some x =>
      let b := b.incWrap (U.fh q) F.FH_RX_CNT_FRAMES 1
      let r := b.hdH h
      let w := Store.get UlFlow.init r.flows f
      if x < w.next ∨ x + b.fld (U.hd h) F.HD_LAT_D_UL < b.time.air then b.setHdH h { r with ulLate := true }
      else
        let d := frameDur (b.rateOf m) fmt16
        let w' : UlFlow :=
          { next := w.next + (x - w.next) % d, have_ := if w.have_.contains x then w.have_ else w.have_ ++ [x], gaps := w.gaps }
        b.setHdH h { r with flows := Store.set UlFlow.init r.flows f w' }
    | _, _ => b.incSat (U.fh q) F.FH_RX_CNT_OTHER 1

/-- FH_IQ_FRAME_RX: an IQ frame of head `h` is received on port `q`. -/
def execFhIqFrameRx (q h f : Nat) (fmt16 : Bool) (order : BitVec 32) (bad : Bool) (corr unc : Nat) (s : State) :
    Host.Outcome State Fault Refusal :=
  s.did fun b => if b.fhUp q then (b.fecCount q corr unc).iqFrame q h f fmt16 order bad else b

/-- The first frame of a flow that has not arrived, from `next` on in steps of the frame duration. -/
def firstGap (have_ : List Nat) (d : Nat) : Nat → Nat → Nat
  | 0, x => x
  | fuel + 1, x => if have_.contains x then firstGap have_ d fuel (x + d) else x

/-- FH_UL_SAMPLE_MISSING: the frame that holds the sample needed at antenna Tc + D_UL has not arrived (R270). -/
def execFhUlSampleMissing (h f : Nat) (s : State) : Host.Outcome State Fault Refusal :=
  s.did fun b =>
    let u := U.hd h
    let m := b.flowPbd h f
    if b.ownState u = St.active ∧ b.flag u (F.HD_FLOW_V f) ∧ isUl m then
      let w := Store.get UlFlow.init (b.hdH h).flows f
      let d := frameDur (b.rateOf m) (b.flag u (F.HD_FLOW_FMT f))
      let x := firstGap w.have_ d w.have_.length w.next
      b.atElapsed (b.elapsedOfAir (x + b.fld u F.HD_LAT_D_UL)) fun b =>
        let r := b.hdH h
        let gaps := (w.gaps.filter fun y => decide (b.t < y.2 + 2 * tickTc)) ++ [(b.t, b.t + d)]
        let w' : UlFlow := { next := x + d, have_ := w.have_.filter fun y => decide (x < y), gaps := gaps }
        let b := b.setHdH h { r with flows := Store.set UlFlow.init r.flows f w' }
        (b.incSat u F.HD_HEALTH_GAP_UL 1).irq u 18
    else b

/-! ## Latency and realign (R277, R280) -/

/-- Round up to a multiple of 64. -/
def up64 (n : Nat) : Nat := (n + 63) / 64 * 64

/-- The longest frame duration among a head's flows in service, 16,384 Tc with none (R277). -/
def Block.headP (b : Block) (h : Nat) : Nat :=
  match b.flowsOf h with
  | [] => 16384
  | l => l.foldl (fun a i => max a (frameDur (b.rateOf (b.flowPbd h i)) (b.flag (U.hd h) (F.HD_FLOW_FMT i)))) 0

/-- The required latency of a head in one direction (R277), with one GUARD for each addition that R280 has made. -/
def Block.headD (b : Block) (h : Nat) (ul : Bool) : Nat :=
  let u := U.hd h
  let tp := ((b.fld u F.HD_PATH_TP : Int) + b.sfld u F.HD_PATH_ASYM).toNat
  let own := if ul then b.fld u F.HD_HEAD_LAT_HEAD_UL else b.fld u F.HD_HEAD_LAT_HEAD_DL
  let g := b.fld u F.HD_CFG_GUARD
  up64 (b.headP h + tp + own + g) + (if ul then (b.hdH h).addUl else (b.hdH h).addDl) * g

/-- The required latency of a head is above what it accepts, or above 1,048,576 Tc (R275). -/
def Block.headOver (b : Block) (h : Nat) : Bool :=
  let lim := min (b.fld (U.hd h) F.HD_CAP_DMAX) 1048576
  decide (lim < b.headD h false) || decide (lim < b.headD h true)

/-- PBDs in service with a port on head `h`. -/
def Block.headPbds (b : Block) (h : Nat) : List Nat :=
  (b.flowsOf h).foldl (fun l i =>
    let m := b.flowPbd h i
    if b.pbdOn m && !l.contains m then l ++ [m] else l) []

/-- A realign of head `h` (R280). Its latencies fall only where `fall` says so. -/
def Block.realign (b : Block) (h : Nat) (fall : Bool) : Block :=
  let u := U.hd h
  let b := if fall then b.setHdH h { b.hdH h with addDl := 0, addUl := 0 } else b
  if b.admitted h = false then b
  else if b.headOver h then b.contained u C.hdLatency
  else
    let pick := fun (f : Fld) (n : Nat) => if fall then n else max n (b.fld u f)
    let dl := pick F.HD_LAT_D_DL (b.headD h false)
    let ul := pick F.HD_LAT_D_UL (b.headD h true)
    let r := b.hdH h
    let b := b.setHdH h { r with align := r.align ++ [{ asked := b.t, t0 := none, dl := dl, ul := ul }] }
    let b := ((b.incSat u F.HD_STAT_REALIGNS 1).corrected u C.hdRealign).irq u 17
    b.each (b.headPbds h) fun b m => b.retuneSame m

/-- A latency that head `h` will have once a realign that runs has taken effect. -/
def Block.headSoon (b : Block) (h : Nat) (ul : Bool) : Nat :=
  match (b.hdH h).align.getLast? with
  | some a => if ul then a.ul else a.dl
  | none => b.fld (U.hd h) (if ul then F.HD_LAT_D_UL else F.HD_LAT_D_DL)

/-- The required latency exceeds the one in force: a realign (R280), or a fence above the largest (R275). -/
def Block.headCheck (b : Block) (h : Nat) : Block :=
  if b.admitted h = false then b
  else if b.headSoon h false < b.headD h false ∨ b.headSoon h true < b.headD h true then b.realign h false else b

/-- The flows of PBD `m` at heads have changed: their required latencies are compared. -/
def Block.headCheckPbd (b : Block) (m : Nat) : Block :=
  b.each ((b.headSlots m).foldl (fun l x => if l.contains x.1 then l else l ++ [x.1]) []) fun b h => b.headCheck h

/-- HD_REALIGN_REQ: a write of HD_CTRL.REALIGN. -/
def execHdRealignReq (who : Who) (h : Nat) (s : State) : Host.Outcome State Fault Refusal :=
  s.did fun b => b.wr who (U.hd h) F.HD_CTRL_REALIGN fun b => b.realign h true

/-! ## Admission and supervision (R274 to R276) -/

/-- A HELLO is refused: FH_UNKNOWN takes its serial (R274). -/
def Block.helloRefuse (b : Block) (q : Nat) (serial : Word) : Block :=
  ((b.setFld (U.fh q) F.FH_UNKNOWN_SERIAL serial.toNat).incSat (U.fh q) F.FH_UNKNOWN_CNT_COUNT 1).irq (U.fh q) 18

/-- Head `h` counts as admitted at port `q`. -/
def Block.admitAt (b : Block) (q h : Nat) : Block :=
  let r := b.hdH h
  let b := match r.known, r.port with
    | true, some p => b.setFld (U.fh p) F.FH_STAT_HEADS (b.fld (U.fh p) F.FH_STAT_HEADS - 1)
    | _, _ => b
  ((b.setHdH h { b.hdH h with known := true, port := some q }).incSat (U.fh q) F.FH_STAT_HEADS 1).showBudget

/-- What a HELLO says of its head (R271). -/
def Block.helloData (b : Block) (h : Nat) (mac : BitVec 48) (ports fmt rates dl ul dmax : Nat) : Block :=
  let u := U.hd h
  let b := (((b.setFld u F.HD_CAP_PORTS ports).setFld u F.HD_CAP_FMT fmt).setFld u F.HD_CAP_RATES rates).setFld u F.HD_CAP_DMAX dmax
  ((b.setFld u F.HD_HEAD_LAT_HEAD_DL dl).setFld u F.HD_HEAD_LAT_HEAD_UL ul).setFld u F.HD_MAC_MAC mac.toNat

/-- A HELLO reaches the page that its serial is bound to (R274, R275). -/
def Block.helloPage (b : Block) (q h : Nat) (mac : BitVec 48) (ports fmt rates dl ul dmax : Nat) : Block :=
  let u := U.hd h
  let st := b.ownState u
  let may := st == St.off || b.admitted h || (st == St.fenced && (b.flag u F.HD_CFG_AUTO_RE || (b.hdH h).admitFrom.isSome))
  if may = false then b
  else
    let b := (b.helloData h mac ports fmt rates dl ul dmax).admitAt q h
    let b := ((b.setFld u F.HD_BIND_RESULT 1).sendHd (.admitHead h q (b.fld (U.fh q) F.FH_MAC_MAC))).irq u 16
    if b.admitted h then (if b.headOver h then b.contained u C.hdLatency else b.headCheck h)
    else
      let r := b.hdH h
      b.setHdH h { r with
        measuring := true, admitFrom := if st = St.fenced then some (r.admitFrom.getD b.t) else none }

/-- HELLO_RX: a HELLO is received on port `q`. -/
def execHelloRx (q : Nat) (serial : BitVec 64) (mac : BitVec 48) (ports fmt rates dl ul dmax : Nat) (s : State) :
    Host.Outcome State Fault Refusal :=
  s.did fun b =>
    if b.fhUp q = false then b
    else
      let b := b.incWrap (U.fh q) F.FH_RX_CNT_FRAMES 1
      match (List.range 512).filter fun h => b.flag (U.hd h) F.HD_BIND_V && b.reg (U.hd h) R.HD_SERIAL == serial with
      | [] => b.helloRefuse q serial
      | [h] =>
        let u := U.hd h
        if b.flag u F.HD_BIND_ANY_PORT ∨ b.fld u F.HD_BIND_PORT = q then b.helloPage q h mac ports fmt rates dl ul dmax
        else (b.setFld u F.HD_BIND_RESULT 2).helloRefuse q serial
      | l => (b.each l fun b h => b.setFld (U.hd h) F.HD_BIND_RESULT 3).helloRefuse q serial

/-- Flows of a head that has become ACTIVE are offered to it again, and its ports join the PBDs in service (R276, R280). -/
def Block.headJoin (b : Block) (h : Nat) : Block :=
  let from_ := b.time.air + (b.time.tickEnd - b.t) + (if b.t + 256 ≤ b.time.tickEnd then 0 else tickTc) + 256
  let b := b.each (b.flowsOf h) fun b i =>
    ((b.setFlag (U.hd h) (F.HD_FLOW_FMT i) (b.fmt16Of h)).flowFrom h i from_).sendFlow h i true
  let b := (b.showBudget).headCheck h
  b.each (b.headPbds h) fun b m => b.retuneSame m

/-- A READY head with ENABLE = 1 goes to ACTIVE (R275). -/
def Block.headEnable (b : Block) (h : Nat) : Block := (b.setState (U.hd h) St.active).headJoin h

/-- HD_LATENCY_MEASURED: the mean path delay towards head `h`, in whole Tc. A page under admission goes to READY with its
latencies set, a fenced one within 2 s; for a head in use a greater requirement realigns it (R274, R275, R280). -/
def execHdLatencyMeasured (h tp : Nat) (s : State) : Host.Outcome State Fault Refusal :=
  s.did fun b =>
    let u := U.hd h
    let r := b.hdH h
    let late := match r.admitFrom with
      | some t => b.ownState u == St.fenced && decide (t + 2 * secTc < b.t)
      | none => false
    if r.measuring && late then b.contained u C.hdLost
    else if r.measuring then
      let b := b.setFld u F.HD_PATH_TP tp
      let b := b.setHdH h { r with measuring := false, admitFrom := none, addDl := 0, addUl := 0, lastStatus := b.t, offRun := 0 }
      let b := (b.setPwr u Pwr.on).setState u St.ready
      if b.headOver h then b.contained u C.hdLatency
      else
        let b := (b.setFld u F.HD_LAT_D_DL (b.headD h false)).setFld u F.HD_LAT_D_UL (b.headD h true)
        b.when (b.flag u F.UNIT_CTRL_ENABLE) fun b => b.headEnable h
    else if b.admitted h then
      let b := b.setFld u F.HD_PATH_TP tp
      if b.headOver h then b.contained u C.hdLatency else b.headCheck h
    else b

/-- STATUS_RX: time offset, downlink frames lost and late since the last STATUS, and mute state of head `h` (R271, R275). -/
def execStatusRx (h : Nat) (off : BitVec 32) (lost late : Nat) (mute : Bool) (s : State) : Host.Outcome State Fault Refusal :=
  s.did fun b =>
    let u := U.hd h
    let port := (b.hdH h).port.filter fun q => b.fhUp q
    let b := match port with | some q => b.incWrap (U.fh q) F.FH_RX_CNT_FRAMES 1 | none => b
    if port.isNone ∨ b.admitted h = false then b
    else
      let b := ((b.setFlag u F.HD_STAT_MUTED mute).setFlag u F.HD_STAT_STALE false).setFld u F.HD_STAT_OFFSET off.toNat
      let b := b.incSat u F.HD_HEALTH_GAP_DL (lost + late)
      let b := b.when (decide (0 < lost + late)) fun b => b.irq u 18
      let r := b.hdH h
      let run := if b.fld u F.HD_CFG_TE_MAX < off.toInt.natAbs then r.offRun + 1 else 0
      let twice := r.dlLate && decide (0 < late)
      let b := b.setHdH h { r with
        lastStatus := b.t, offRun := run, dlLate := decide (0 < late) && !twice, addDl := if twice then r.addDl + 1 else r.addDl }
      if 3 ≤ run then b.contained u C.hdTime else b.when twice fun b => b.realign h false

/-- HD_STATUS_STALE: no STATUS for 1 ms (R282). -/
def execHdStatusStale (h : Nat) (s : State) : Host.Outcome State Fault Refusal :=
  s.did fun b =>
    if b.admitted h ∧ b.flag (U.hd h) F.HD_STAT_STALE = false then
      b.atElapsed ((b.hdH h).lastStatus + msTc) fun b => (b.setFlag (U.hd h) F.HD_STAT_STALE true).irq (U.hd h) 19
    else b

/-- HD_LOSS_TIMEOUT: no STATUS for HD_CFG.LOSS (R275). -/
def execHdLossTimeout (h : Nat) (s : State) : Host.Outcome State Fault Refusal :=
  s.did fun b =>
    if b.admitted h then
      b.atElapsed ((b.hdH h).lastStatus + b.fld (U.hd h) F.HD_CFG_LOSS * msTc) fun b => b.contained (U.hd h) C.hdLost
    else b

/-- The unfence self-test of head `h` begins: it waits for a HELLO (R275, R367). -/
def Block.headUnfence (b : Block) (h : Nat) : Block := b.setHdH h { b.hdH h with admitFrom := some b.t }

/-- HD_ADMIT_TIMEOUT: the self-test of a fenced head fails at 2 s (R275). -/
def execHdAdmitTimeout (h : Nat) (s : State) : Host.Outcome State Fault Refusal :=
  s.did fun b =>
    match (b.hdH h).admitFrom with
    | some t =>
      if b.ownState (U.hd h) = St.fenced then b.atElapsed (t + 2 * secTc) fun b => b.contained (U.hd h) C.hdLost else b
    | none => b

/-! ## Messages to heads (R271) -/

/-- BEAT_SEND: every 1 ms a BEAT goes to each head. -/
def execBeatSend (s : State) : Host.Outcome State Fault Refusal :=
  s.did fun b => b.atElapsed b.fhBeat fun b =>
    let b := b.each b.admittedHeads fun b h => b.sendHd (.beat h b.time.air)
    { b with fhBeat := b.fhBeat + msTc }

/-- New output levels of head `h` are sent in GPIO, to apply at an air count (R271, R282). -/
def Block.headGpio (b : Block) (h level stamp : Nat) : Block :=
  let b := b.setFld (U.hd h) F.HD_GPIO_LEVEL level
  if b.admitted h then b.sendHd (.gpio h level stamp) else b

/-- HD_GPIO_WRITE: a direct write of HD_GPIO applies at the head D_DL after the write. -/
def execHdGpioWrite (who : Who) (h : Nat) (half : Half) (v : Word) (s : State) : Host.Outcome State Fault Refusal :=
  s.did fun b =>
    if halfHas half F.HD_GPIO_LEVEL then
      b.wrReg who (U.hd h) R.HD_GPIO half fun b =>
        b.headGpio h (Word.fld v 15 0) (b.time.air + b.fld (U.hd h) F.HD_LAT_D_DL)
    else b

/-! ## At a tick boundary -/

/-- IQ frames sent in the tick that has ended at an air count `air0` to `air1`: one at each frame boundary of every downlink
flow of an ACTIVE head, with its flowID, its format and its orderInfo, the stamp at which its first sample crosses the head's antenna
port (R269, R277). -/
def Block.fhSent (b : Block) (air0 air1 : Nat) : Block :=
  b.each b.flowHeads fun b h =>
    match (b.hdH h).port with
    | none => b
    | some q =>
      if b.ownState (U.hd h) = St.active ∧ b.fhUp q then
        b.each (b.flowsOf h) fun b i =>
          let m := b.flowPbd h i
          let d := frameDur (b.rateOf m) (b.flag (U.hd h) (F.HD_FLOW_FMT i))
          if isUl m then b
          else
            b.each (List.range (air1 / d - air0 / d)) fun b j =>
              let x := (air0 / d + 1 + j) * d + b.fld (U.hd h) F.HD_LAT_D_DL
              b.sendHd (.iq h i (b.flag (U.hd h) (F.HD_FLOW_FMT i)) ((stampOf x).setWidth 32))
      else b

/-- Heads at a tick boundary: a realign's T0 is the first one at least 256 Tc after its event, and uplink frames late in two
consecutive ticks add one GUARD (R280). -/
def Block.headTick (b : Block) : Block :=
  let b := b.each (b.hds.map (·.1)) fun b h =>
    let r := b.hdH h
    let b := if r.align.isEmpty then b else
      b.setHdH h { r with align := r.align.map fun a => if a.t0.isNone ∧ a.asked + 256 ≤ b.t then { a with t0 := some b.t } else a }
    let r := b.hdH h
    if r.ulLate && r.ulLatePrev then
      (b.setHdH h { r with ulLate := false, ulLatePrev := false, addUl := r.addUl + 1 }).realign h false
    else if r.ulLate || r.ulLatePrev then b.setHdH h { r with ulLate := false, ulLatePrev := r.ulLate }
    else b
  b.alignApply

/-- HEAD_TRACK_MOVE: at the tick boundary after a change of the head's round trip, the long-reach windows of a lane with
HEAD_TRACK = 1 move with it; where R117 would break, the lane is removed with CFG_REACH (R139). -/
def Block.headTrack (b : Block) (i : Nat) : Block :=
  let now := (b.laneHeadLat i : Int)
  let h := b.laneH i
  let d := now - h.headLat
  if d = 0 then b
  else
    let b := b.setLaneH i { h with headLat := now }
    if b.adapt i = 0 ∨ b.flag (U.lane i) F.LANE_CFG_HEAD_TRACK = false then b
    else
      match b.moveWins i d with
      | some b => b
      | none =>
        let b := ((b.setFlag (U.lane i) F.UNIT_CTRL_ENABLE false).quietLane i).setLaneState i St.ready
        b.corrected (U.lane i) C.cfgReach

end Sys2Proof.Machine
end

