-- ==== Sys2Proof/Machine/Monitor.lean ====
section
/-! DEFINITION.
The monitor converter (chapter 13): single conversions, the regular and the injected sequence, the loop engine's requests,
bursts, the reference, the slices and the window comparators. Its instants are counted in units of 1/6144 ns, of which a Tc
has 3,125, since the keel's clock is not locked to Tc. -/
namespace Sys2Proof.Machine

/-- Units of 1/6144 ns in a Tc, and in 100 ns. -/
def monTc : Nat := 3125
def mon100 : Nat := 614400

/-- The first elapsed Tc at or after an instant in units. -/
def monCeil (x : Nat) : Nat := (x + (monTc - 1)) / monTc

/-- CFG_REJ is set. -/
def Block.monReject (b : Block) : Block := b.setFlag U.mon F.MON_STAT_CFG_REJ true

/-- An urgent trigger or a request is dropped (R313, R314). -/
def Block.injDrop (b : Block) : Block := (b.incSat U.mon F.MON_DROP_INJ_DROP 1).irq U.mon 21

/-- A regular trigger is dropped (R312). -/
def Block.trigDrop (b : Block) : Block := (b.incSat U.mon F.MON_DROP_TRIG_DROP 1).irq U.mon 21

/-- A trigger or a MON_START write is taken only while the unit is ACTIVE; while READY it sets CFG_REJ (R320). -/
def Block.monTake (b : Block) (f : Block → Block) : Block :=
  if b.ownState U.mon = St.active then f b
  else if b.ownState U.mon = St.ready then b.monReject else b

/-- The air stamp at an instant in units, not later than now. -/
def Block.monStamp (b : Block) (x : Nat) : Word :=
  if b.time.running then stampOf (b.time.air - (b.t - x / monTc)) else 0

/-- A channel that a selection or an entry may name (R308). -/
def monChan (c : Nat) : Bool := decide (c < 35)

/-- A channel from 35 on is refused when its entry is used (R308). -/
def Block.monBadChan (b : Block) : Block := b.monReject.corrected U.mon C.cfgMon

/-- The reference was not warm at instant `x`, which lies now or less than a conversion back (R317). -/
def Block.refCold (b : Block) (x : Nat) : Bool :=
  let warm := b.flag U.mon F.MON_REF_EN_WARM
  if b.t ≤ monCeil x then !warm
  else match b.mon.warmFrom with
    | none => !warm
    | some f => decide (monCeil x < f) || (!warm && (match b.mon.warmTo with | some e => decide (e ≤ monCeil x) | none => true))

/-- A conversion of channel `c` begins at instant `x`. -/
def Block.monBegin (b : Block) (src : MonSrc) (c x : Nat) : Block :=
  b.setMon fun h => { h with cv := some { src := src, chan := c, start := x, stamp := b.monStamp x, cold := b.refCold x } }

/-! ## Sequences (R312 to R315) -/

/-- The regular sequence completes (R312). -/
def Block.regDone (b : Block) : Block :=
  let b := (b.incWrap U.mon F.MON_SEQ_CNT_REG_CNT 1).setReg U.mon R.MON_REG_STAMP b.mon.regStamp
  (b.setFld U.mon F.MON_STAT_REG_POS 0).irq U.mon 18

/-- The injected sequence of the host completes (R313). -/
def Block.injDone (b : Block) : Block :=
  ((b.incWrap U.mon F.MON_SEQ_CNT_INJ_CNT 1).setReg U.mon R.MON_INJ_STAMP b.mon.injStamp).irq U.mon 19

/-- What the converter does next at instant `x`: a step of the sequences, bounded by `fuel`. `todo` is the regular entry, the
injected entry of the host or the request to start; none looks for what waits. -/
def Block.monNext (b : Block) (x : Nat) (todo : Option MonSrc) : Nat → Block
  | 0 => b.setMonAct 0
  | fuel + 1 =>
    match todo with
    | some (.reg i) =>
      let b := (b.setMonAct 2).setFld U.mon F.MON_STAT_REG_POS i
      if b.fld U.mon F.MON_CFG_REG_LEN < i then b.regDone.monNext x none fuel
      else
        let b := if i = 0 then b.setMon fun h => { h with regStamp := b.monStamp x } else b
        match b.mon.waiting with
        | _ :: _ => (b.setMon fun h => { h with suspended := some i }).monNext x none fuel
        | [] =>
          let c := b.fld U.mon (F.MON_REG_CH i)
          if monChan c then (b.monBegin (.reg i) c x).setFld U.mon F.MON_STAT_REG_POS (if i < b.fld U.mon F.MON_CFG_REG_LEN then i + 1 else 0)
          else b.monBadChan.monNext x (some (.reg (i + 1))) fuel
    | some (.inj i) =>
      let b := b.setMonAct 3
      if b.fld U.mon F.MON_CFG_INJ_LEN < i then b.injDone.monNext x none fuel
      else
        let b := if i = 0 then b.setMon fun h => { h with injStamp := b.monStamp x } else b
        let c := b.fld U.mon (F.MON_INJ_CH i)
        if monChan c then b.monBegin (.inj i) c x else b.monBadChan.monNext x (some (.inj (i + 1))) fuel
    | some (.loop m) => (b.setMonAct 3).monBegin (.loop m) (b.actFld (U.pbd m) F.LOOP_SUPV_MON_CH) x
    | _ =>
      match b.mon.waiting with
      | none :: t => (b.setMon fun h => { h with waiting := t }).monNext x (some (.inj 0)) fuel
      | some m :: t => (b.setMon fun h => { h with waiting := t }).monNext x (some (.loop m)) fuel
      | [] =>
        match b.mon.reqs with
        | m :: t => (b.setMon fun h => { h with reqs := t, requestAt := some (monCeil x, m) }).monNext x (some (.loop m)) fuel
        | [] =>
        match b.mon.suspended with
        | some i => (b.setMon fun h => { h with suspended := none }).monNext x (some (.reg i)) fuel
        | none =>
          if b.mon.held then (b.setMon fun h => { h with held := false }).monNext x (some (.reg 0)) fuel
          else b.setMonAct 0

/-- Steps enough for both sequences with every entry refused. -/
def monFuel : Nat := 64

/-- A MON_START write finds the converter busy: the BUSY rejection (R311). -/
def Block.monBusy (b : Block) : Block :=
  ((b.setFlag U.mon F.MON_STAT_REJ true).incSat U.mon F.MON_DROP_REJ_CNT 1).irq U.mon 22

/-- The conversion under way has begun from IDLE in this Tc; `w` is the MON_BURST_STAMP before it. -/
def Block.monBegun (b : Block) (w : Word) : Block := b.setMon fun h => { h with begun := some (b.t, w) }

/-- Triggers of one instant are taken in the order urgent, MON_START, regular, whatever the order of their commands (R315): what a
lower one began in this Tc gives way, a MON_START rejected as BUSY and a regular trigger held, or dropped before a burst (R312).
`urgent` is false for MON_START, `burst` true for its burst. -/
def Block.monYield (b : Block) (urgent burst : Bool) : Block :=
  match b.mon.begun, b.mon.cv with
  | some (t, w), some cv =>
    let idle := fun (b : Block) => (b.setMonAct 0).setMon fun h => { h with cv := none, begun := none }
    if t ≠ b.t then b
    else
      match cv.src with
      | .reg _ =>
        let b := (idle b).setFld U.mon F.MON_STAT_REG_POS 0
        if burst then b.trigDrop else b.setMon fun h => { h with held := true }
      | .single => if urgent then (idle b).monBusy else b
      | .burst _ => if urgent then ((idle b).setReg U.mon R.MON_BURST_STAMP w).monBusy else b
      | _ => b
  | _, _ => b

/-- A regular trigger (R312). -/
def Block.regTrigger (b : Block) : Block :=
  b.monTake fun b =>
    match b.monAct with
    | 0 => (b.monNext (b.t * monTc) (some (.reg 0)) monFuel).monBegun 0
    | 1 | 3 => if b.mon.held then b.trigDrop else b.setMon fun h => { h with held := true }
    | _ => b.trigDrop

/-- A loop request of this very Tc coincides with an urgent trigger: it is dropped, and the converter is as if it had not
been issued (R314). -/
def Block.dropCoincident (b : Block) : Block :=
  match b.mon.requestAt with
  | some (t, m) =>
    if t = b.t then
      let b := b.injDrop
      if b.mon.waiting.contains (some m) then b.setMon fun h => { h with waiting := h.waiting.filter (· ≠ some m), requestAt := none }
      else
        match b.mon.cv with
        | some { src := .loop _, .. } => (b.setMonAct 0).setMon fun h => { h with cv := none, requestAt := none }
        | _ => b
    else b
  | none => b

/-- An urgent trigger (R313): pin and register triggers of one instant merge. -/
def Block.urgentTrigger (b : Block) : Block :=
  b.monTake fun b =>
    if b.mon.urgentAt = some b.t then b
    else
      let b := ((b.setMon fun h => { h with urgentAt := some b.t }).dropCoincident).monYield true false
      match b.monAct with
      | 0 => b.monNext (b.t * monTc) (some (.inj 0)) monFuel
      | 2 => if b.mon.waiting.contains none then b.injDrop else b.setMon fun h => { h with waiting := h.waiting ++ [none] }
      | _ => b.injDrop

/-- MON_TRIG_SEQ: a write of MON_TRIG.SEQ. -/
def execMonTrigSeq (who : Who) (s : State) : Host.Outcome State Fault Refusal :=
  s.did fun b => b.wr who U.mon F.MON_TRIG_SEQ fun b => b.regTrigger

/-- MON_TRIG_INJ: a write of MON_TRIG.INJ. -/
def execMonTrigInj (who : Who) (s : State) : Host.Outcome State Fault Refusal :=
  s.did fun b => b.wr who U.mon F.MON_TRIG_INJ fun b => b.urgentTrigger

/-- MON_TRIG_N_FALL: a qualified falling edge of the pin. -/
def execMonTrigNFall (s : State) : Host.Outcome State Fault Refusal := s.did fun b => b.urgentTrigger

/-- The period of the timer in units: SEQ_PER µs, 0 read as 1. -/
def Block.monPeriod (b : Block) : Nat := max 1 (b.fld U.mon F.MON_CFG_SEQ_PER) * (10 * mon100)

/-- MON_PERIODIC_TIMER: the timer expires with PER_EN = 1. -/
def execMonPeriodicTimer (s : State) : Host.Outcome State Fault Refusal :=
  s.did fun b =>
    if b.flag U.mon F.MON_CFG_PER_EN then
      b.atElapsed (monCeil b.mon.perAt) fun b => (b.setMon fun h => { h with perAt := h.perAt + b.monPeriod }).regTrigger
    else b

/-- A write of MON_CFG: the timer starts with PER_EN. -/
def Block.monCfgWrite (b : Block) (half : Half) (v : Word) : Block :=
  let was := b.flag U.mon F.MON_CFG_PER_EN
  let b := b.setReg U.mon R.MON_CFG (halfMerge half (b.reg U.mon R.MON_CFG) v &&& 0xFFFF3F01)
  if b.flag U.mon F.MON_CFG_PER_EN && !was then b.setMon fun h => { h with perAt := b.t * monTc + b.monPeriod } else b

/-! ## Requests of the loop engine (R314) -/

/-- The loop engine asks for a conversion for PBD `m` in this tick: supervision by the monitor, with no ORX observation and
no head port (R166). -/
def Block.monWants (b : Block) (m : Nat) : Bool :=
  let u := U.pbd m
  (b.pbdH m).sampled && !(b.pbdH m).monAsked && b.actFlag u F.LOOP_PBD_CTRL_SUPV_EN && b.actFlag u F.LOOP_SUPV_MON_EN &&
    (b.supvTxc m).isSome && (b.pbdH m).loopIn.orx.isNone

/-- MON_SUPV_REQUEST: the request for PBD `m`, in ascending order and one at a time, while the converter is IDLE or REGULAR;
held otherwise. As an urgent trigger it comes before what a lower one began in its Tc (R315). -/
def execMonSupvRequest (m : Nat) (s : State) : Host.Outcome State Fault Refusal :=
  s.did fun b =>
    if b.monWants m = false ∨ (List.range m).any (fun j => b.monWants j) then b
    else if b.ownState U.mon ≠ St.active then
      (b.monTake id).setPbdH m { b.pbdH m with monAsked := true }
    else
      let asked := fun (b : Block) => b.setPbdH m { b.pbdH m with monAsked := true }
      if b.mon.urgentAt = some b.t then (asked b).injDrop
      else if monChan (b.actFld (U.pbd m) F.LOOP_SUPV_MON_CH) = false then (asked b).monBadChan
      else
        let note := fun (b : Block) => (asked b).setMon fun h => { h with requestAt := some (b.t, m) }
        let b := b.monYield true false
        match b.monAct with
        | 0 => (note b).monNext (b.t * monTc) (some (.loop m)) monFuel
        | 2 =>
          if b.mon.waiting.any (·.isSome) then (asked b).setMon fun h => { h with reqs := h.reqs ++ [m] }
          else (note b).setMon fun h => { h with waiting := h.waiting ++ [some m] }
        | _ => (asked b).setMon fun h => { h with reqs := h.reqs ++ [m] }

/-- The tick ends: requests that have not started are dropped (R314), and every PBD may ask afresh. -/
def Block.monTick (b : Block) : Block :=
  let b := b.each (List.range 128) fun b m =>
    let b := if b.monWants m then b.injDrop else b
    if (b.pbdH m).monAsked then b.setPbdH m { b.pbdH m with monAsked := false } else b
  let late := (b.mon.waiting.filter (·.isSome)).length + b.mon.reqs.length
  (b.each (List.range late) fun b _ => b.injDrop).setMon fun h => { h with waiting := h.waiting.filter (·.isNone), reqs := [] }

/-! ## Single conversions and bursts (R311, R316) -/

/-- A write of MON_START.GO. -/
def Block.monGo (b : Block) : Block :=
  b.monTake fun b =>
    let c := b.fld U.mon F.MON_SEL_CH
    let b := if monChan c then b.monYield false false else b
    if b.monAct ≠ 0 then b.monBusy
    else
      if monChan c then ((b.setMonAct 1).monBegin .single c (b.t * monTc)).monBegun 0 else b.monBadChan

/-- GO: a write of MON_START.GO. -/
def execMonGo (who : Who) (s : State) : Host.Outcome State Fault Refusal :=
  s.did fun b => b.wr who U.mon F.MON_START_GO fun b => b.monGo

/-- Failed slices. -/
def Block.slicesBad (b : Block) : Nat :=
  let v := b.fld U.mon F.MON_STAT_SLICE_FAIL
  v % 2 + v / 2 % 2 + v / 4 % 2

/-- Samples of a burst: COUNT with 0 read as 1 and above 1,024 as 1,024. -/
def Block.burstCount (b : Block) : Nat := max 1 (min 1024 (b.fld U.mon F.MON_BURST_COUNT))

/-- A write of MON_START.BURST: interleaving is refused with fewer than two good slices (R309). -/
def Block.monBurst (b : Block) : Block :=
  b.monTake fun b =>
    let c := b.fld U.mon F.MON_BURST_CH
    let few := b.flag U.mon F.MON_BURST_ILV && decide (2 ≤ b.slicesBad)
    let b := if monChan c && !few then b.monYield false true else b
    if b.monAct ≠ 0 then b.monBusy
    else
      if monChan c = false then b.monBadChan
      else if few then b.monReject
      else (((b.setMonAct 4).setReg U.mon R.MON_BURST_STAMP b.now).monBegin (.burst 0) c (b.t * monTc)).monBegun (b.reg U.mon R.MON_BURST_STAMP)

/-- BURST: a write of MON_START.BURST. -/
def execMonBurst (who : Who) (s : State) : Host.Outcome State Fault Refusal :=
  s.did fun b => b.wr who U.mon F.MON_START_BURST fun b => b.monBurst

/-! ## Results (R310, R318, R319) -/

/-- Comparator `k` takes a result of its channel (R319). -/
def Block.monCompare (b : Block) (k c code : Nat) (ovr under cold : Bool) : Block :=
  let u := U.mon
  if b.flag u (F.MON_WC_CFG_EN k) = false ∨ b.fld u (F.MON_WC_CFG_CH k) ≠ c ∨ cold then b
  else
    let lo := b.fld u (F.MON_WC_CFG_LO k)
    let hi := b.fld u (F.MON_WC_CFG_HI k)
    let hys := b.fld u (F.MON_WC_CFG_HYS k)
    let cnt := max 1 (b.fld u (F.MON_WC_CFG_CNT k))
    let above := ovr || (!under && decide (hi < code))
    let below := under || (!ovr && decide (code < lo))
    let run := b.fld u (F.MON_WC_STAT_RUN k) + 1
    if b.flag u (F.MON_WC_STAT_OUT k) then
      let back := !ovr && !under && decide (lo + hys ≤ code) && decide (code + hys ≤ hi)
      if back = false then b.setFld u (F.MON_WC_STAT_RUN k) 0
      else if cnt ≤ run then (b.setFlag u (F.MON_WC_STAT_OUT k) false).setFld u (F.MON_WC_STAT_RUN k) 0
      else b.setFld u (F.MON_WC_STAT_RUN k) run
    else if above = false ∧ below = false then b.setFld u (F.MON_WC_STAT_RUN k) 0
    else if cnt ≤ run then
      let b := ((b.setFlag u (F.MON_WC_STAT_OUT k) true).setFlag u (F.MON_WC_STAT_DIR k) above).setFld u (F.MON_WC_STAT_RUN k) 0
      (b.incSat u (F.MON_WC_STAT_EXITS k) 1).irq u (24 + k)
    else b.setFld u (F.MON_WC_STAT_RUN k) run

/-- A write of MON_WC_CFG of comparator `k`: an enable with LO + HYS above HI − HYS is refused; an enabled one starts IN
(R319). -/
def Block.monWcWrite (b : Block) (who : Who) (k : Nat) (half : Half) (v : Word) : Block :=
  let u := U.mon
  let was := b.flag u (F.MON_WC_CFG_EN k)
  let b := b.putReg who u (R.MON_WC_CFG k) half v []
  if b.flag u (F.MON_WC_CFG_EN k) && !was then
    if b.fld u (F.MON_WC_CFG_HI k) < b.fld u (F.MON_WC_CFG_LO k) + 2 * b.fld u (F.MON_WC_CFG_HYS k) then
      (b.setFlag u (F.MON_WC_CFG_EN k) false).monReject
    else (b.setFlag u (F.MON_WC_STAT_OUT k) false).setFld u (F.MON_WC_STAT_RUN k) 0
  else b

/-- A result as a register shows it: code, channel and flags. -/
def monWord (code c : Nat) (ovr under cold : Bool) : Nat :=
  code + c * 2 ^ 16 + bit ovr * 2 ^ 25 + bit under * 2 ^ 26 + bit cold * 2 ^ 27

/-- The result of a conversion goes to its path (R311 to R316). -/
def Block.monResult (b : Block) (μ : Mem) (cv : MonCv) (code : Nat) (ovr under : Bool) : Block :=
  let u := U.mon
  let w := monWord code cv.chan ovr under cv.cold
  let fin := cv.start + 2 * mon100
  match cv.src with
  | .single =>
    let b := if b.flag u F.MON_DATA_NEW then (b.setFlag u F.MON_STAT_OVR true).irq u 17 else b
    let b := ((b.setReg u R.MON_DATA (BitVec.ofNat 64 (w + 2 ^ 24))).setReg u R.MON_DATA_STAMP cv.stamp).irq u 16
    b.monNext fin none monFuel
  | .reg i =>
    (b.setReg u (R.MON_REG_RES i) (BitVec.ofNat 64 (w + (b.fld u F.MON_SEQ_CNT_REG_CNT + 1) % 2 ^ 32 * 2 ^ 32))).monNext fin
      (some (.reg (i + 1))) monFuel
  | .inj i =>
    (b.setReg u (R.MON_INJ_RES i) (BitVec.ofNat 64 (w + (b.fld u F.MON_SEQ_CNT_INJ_CNT + 1) % 2 ^ 32 * 2 ^ 32))).monNext fin
      (some (.inj (i + 1))) monFuel
  | .loop m => (b.setPbdH m { b.pbdH m with monObs := some (code : Int) }).monNext fin none monFuel
  | .burst k =>
    let s := code + bit ovr * 4096 + bit under * 8192 + bit cv.cold * 16384 + 32768
    let b := b.when (k == 0) fun b => b.wipe .monBuf
    let old : Word := if k = 0 then 0 else μ.rd64 .monBuf (k / 4)
    let b := b.put64 .monBuf (k / 4) (Word.setFld old (16 * (k % 4) + 15) (16 * (k % 4)) s)
    if k + 1 < b.burstCount then
      b.monBegin (.burst (k + 1)) cv.chan (cv.start + (if b.flag u F.MON_BURST_ILV then mon100 else 2 * mon100))
    else (b.irq u 20).monNext fin none monFuel

/-- The slice that is out for calibration changes, unless the rotation has stopped (R309). -/
def Block.monHandover (b : Block) : Block :=
  let b := b.setMon fun h => { h with rotDue := false }
  if b.flag U.mon F.MON_STAT_CAL_FROZEN then b
  else b.setFld U.mon F.MON_STAT_CAL_OUT ((b.fld U.mon F.MON_STAT_CAL_OUT + 1) % 3)

/-- A conversion is one of a burst with further samples, which defers a handover to the burst's end (R309). -/
def Block.monBurstGoes (b : Block) (cv : MonCv) : Bool :=
  match cv.src with | .burst k => decide (k + 1 < b.burstCount) | _ => false

/-- MON_CONVERSION_DONE: 200 ns after its start a conversion completes. An input above full scale gives 0xFFF with OR, below
zero 0x000 with UR, any other a code from 0x001 to 0xFFE (R318). -/
def execMonConversionDone (code : Nat) (ovr under : Bool) (s : State) : Host.Outcome State Fault Refusal :=
  s.done fun μ b =>
    match b.mon.cv with
    | none => b
    | some cv => b.atElapsed (monCeil (cv.start + 2 * mon100)) fun b =>
        let under := under && !ovr
        let code := if ovr then 0xFFF else if under then 0 else max 1 (min 0xFFE code)
        let b := b.setMon fun h => { h with cv := none }
        let b := if b.mon.rotDue && !b.monBurstGoes cv then b.monHandover else b
        let b := b.each (List.range 8) fun b k => b.monCompare k cv.chan code ovr under cv.cold
        b.monResult μ cv code ovr under

/-! ## Reference, slices and reads (R309, R317, R321) -/

/-- A write of MON_REF_EN.EN. -/
def Block.monRef (b : Block) (en : Bool) : Block :=
  let was := b.flag U.mon F.MON_REF_EN_EN
  let b := b.setFlag U.mon F.MON_REF_EN_EN en
  if en = false then
    let warm := b.flag U.mon F.MON_REF_EN_WARM
    (b.setFlag U.mon F.MON_REF_EN_WARM false).setMon fun h => { h with warmAt := none, warmTo := if warm then some b.t else h.warmTo }
  else if was then b else b.setMon fun h => { h with warmAt := some (b.t + 2 * msTc) }

/-- MON_REF_EN_WRITE: a write of MON_REF_EN. -/
def execMonRefEnWrite (who : Who) (en : Bool) (s : State) : Host.Outcome State Fault Refusal :=
  s.did fun b => b.wr who U.mon F.MON_REF_EN_EN fun b => b.monRef en

/-- MON_REF_WARM: 2 ms after EN was set. -/
def execMonRefWarm (s : State) : Host.Outcome State Fault Refusal :=
  s.did fun b =>
    match b.mon.warmAt with
    | none => b
    | some t => b.atElapsed t fun b =>
        (b.setFlag U.mon F.MON_REF_EN_WARM true).setMon fun h => { h with warmAt := none, warmFrom := some b.t, warmTo := none, rotateAt := b.t }

/-- A slice fails (R309): the first stops the rotation, the second leaves one slice, the third fences the unit. -/
def Block.monSliceFault (b : Block) (f : Nat) : Block :=
  let u := U.mon
  let v := b.fld u F.MON_STAT_SLICE_FAIL
  if (v >>> f) % 2 = 1 then b
  else
    let b := (b.setFld u F.MON_STAT_SLICE_FAIL (v ||| (1 <<< f))).irq u 23
    match b.slicesBad with
    | 1 => ((b.setFlag u F.MON_STAT_CAL_FROZEN true).setFld u F.MON_STAT_CAL_OUT 3).corrected u C.monSliceSpared
    | 2 => b.corrected u C.monSliceFail
    | _ => b.contained u C.monFail

/-- MON_SLICE_ROTATE: every 100 ms while the reference is warm; `f` is a slice whose correction or self-check has failed, 3 for
none. The handover waits for the end of a conversion or burst under way. -/
def execMonSliceRotate (f : Nat) (s : State) : Host.Outcome State Fault Refusal :=
  s.did fun b =>
    if b.flag U.mon F.MON_REF_EN_WARM = false then b
    else b.atElapsed (b.mon.rotateAt + 100 * msTc) fun b =>
      let b := b.setMon fun h => { h with rotateAt := h.rotateAt + 100 * msTc }
      if f < 3 then b.monSliceFault f
      else if b.mon.cv.isSome then b.setMon fun h => { h with rotDue := true }
      else b.monHandover

/-- A read of MON_DATA clears NEW, of its low half or whole (R311). -/
def Block.monDataRead (b : Block) (half : Half) : Block :=
  let v := b.reg U.mon R.MON_DATA
  let b := if half = .hi then b else b.setFlag U.mon F.MON_DATA_NEW false
  { b with rdata := v &&& halfMask half }

/-- MON_DATA_READ: a read of MON_DATA. -/
def execMonDataRead (who : Who) (half : Half) (s : State) : Host.Outcome State Fault Refusal :=
  s.did fun b => if b.readOk who U.mon then b.monDataRead half else { b with rdata := 0 }

/-- A read of MON_BUF_DATA advances WORD (R321). -/
def Block.monBufRead (b : Block) (μ : Mem) (half : Half) : Block :=
  let i := b.fld U.mon F.MON_BUF_ADDR_WORD
  { b.setFld U.mon F.MON_BUF_ADDR_WORD (i + 1) with rdata := μ.rd64 .monBuf i &&& halfMask half }

/-- MON_BUF_READ: a read of MON_BUF_DATA. -/
def execMonBufRead (who : Who) (half : Half) (s : State) : Host.Outcome State Fault Refusal :=
  s.done fun μ b => if b.readOk who U.mon then b.monBufRead μ half else { b with rdata := 0 }

/-- MON_DROP_CLR: the three counts are cleared (R321). -/
def execMonDropClr (who : Who) (s : State) : Host.Outcome State Fault Refusal :=
  s.did fun b => b.wr who U.mon F.MON_DROP_CLR fun b =>
    ((b.setFld U.mon F.MON_DROP_INJ_DROP 0).setFld U.mon F.MON_DROP_TRIG_DROP 0).setFld U.mon F.MON_DROP_REJ_CNT 0

end Sys2Proof.Machine
end

