-- ==== Sys2Proof/Machine/ZhovoMem.lean ====
section
/-! DEFINITION.
Loads and stores (R214 to R216, R226), DMA (R227), the issue of unit accesses (R218, R228) and the ring instructions
(R229). -/
namespace Sys2Proof.Machine

/-! ## Address spaces (R214 to R216) -/

/-- The memory spaces of an engine, with the offset in the space. -/
inductive Space where
  | imem (off : Nat)
  | dmem (off : Nat)
  | ctx (off : Nat)
  | unmapped

/-- The space of an address of engine `n` (R214, R238). -/
def spaceOf (n a : Nat) : Space :=
  if a < imemSize n then .imem a
  else if 0x100000 ≤ a ∧ a < 0x100000 + dmemSize n then .dmem (a - 0x100000)
  else if n < 32 ∧ 0x1000000 ≤ a ∧ a < 0x2000000 then .ctx (a - 0x1000000)
  else .unmapped

/-- Context `x` was armed from engine `n`'s origin index at user privilege (R216). -/
def Block.ctxOwn (b : Block) (n x : Nat) : Bool :=
  let c := b.ctx x
  c.origin == b.engOrigin n && !c.sys

/-- A load (or, with `st`, a store) at an address is allowed (R214 to R216). -/
def Block.memOk (b : Block) (n : Nat) (sys st : Bool) (a : Nat) : Bool :=
  match spaceOf n a with
  | .imem _ => sys
  | .dmem o => sys || b.dsplit n ≤ o
  | .ctx o => sys || (!st && b.ctxOwn n (o / 64))
  | .unmapped => false

/-- Index of a 16-byte word of an engine's SRAM. -/
def sramIdx (n off : Nat) : Nat := n * 32768 + off / 16

/-- The 16-byte word that holds an address. -/
def Block.memQuad (b : Block) (μ : Mem) (n a : Nat) : Quad :=
  match spaceOf n a with
  | .imem o => μ.rd .imem (sramIdx n o)
  | .dmem o => μ.rd .dmem (sramIdx n o)
  | .ctx o => (b.ctx (o / 64)).quad (o / 16 % 4)
  | .unmapped => 0

/-- Store the 16-byte word that holds an address; a context that is not FREE ignores it and sets CTXBUSY (R216). -/
def Block.memPut (b : Block) (n a : Nat) (q : Quad) : Block :=
  match spaceOf n a with
  | .imem o => b.put .imem (sramIdx n o) q
  | .dmem o => b.put .dmem (sramIdx n o) q
  | .ctx o =>
    let c := b.ctx (o / 64)
    if c.state = Cue.free then b.setCtx (o / 64) (c.putQuad (o / 16 % 4) q)
    else b.setEng n { b.eng n with ctxbusy := true }
  | .unmapped => b

/-- The 64-bit half of a 16-byte word at an address. -/
def quadHalf (q : Quad) (a : Nat) : Word := if a / 8 % 2 = 1 then (q >>> 64).setWidth 64 else q.setWidth 64

/-- A 16-byte word with the half at an address replaced. -/
def quadPut (q : Quad) (a : Nat) (v : Word) : Quad :=
  if a / 8 % 2 = 1 then (q.setWidth 64 : Word).setWidth 128 ||| (v.setWidth 128 <<< 64)
  else ((q >>> 64) <<< 64) ||| v.setWidth 128

/-- A memory instruction: the effective address wa + sext(imm13) × size is checked (DENIED, then MISALIGNED). -/
def Block.zMem (b : Block) (n pr wd wa imm op size : Nat) (st : Bool) (f : Block → EngH → Nat → ZOut) : Block :=
  b.zhovo n pr (insnI op wd wa pr imm) false [wd, wa] fun b h =>
    let a := h.rd64 wa + BitVec.ofInt 64 (sext 13 imm * size)
    if b.memOk n h.sys st a.toNat = false then .fault X.denied 2 a
    else if a.toNat % size ≠ 0 then .fault X.misaligned 1 a
    else f b h a.toNat

/-- LD. -/
def execLd (n pr wd wa imm : Nat) (s : State) : Host.Outcome State Fault Refusal :=
  s.done fun μ b => b.zMem n pr wd wa imm 0x14 16 false fun b h a => b.zSet n (h.wr wd (b.memQuad μ n a))
/-- ST. -/
def execSt (n pr wd wa imm : Nat) (s : State) : Host.Outcome State Fault Refusal :=
  s.did fun b => b.zMem n pr wd wa imm 0x15 16 true fun b h a => .ok (b.memPut n a (h.rd wd))
/-- LDS. -/
def execLds (n pr wd wa imm : Nat) (s : State) : Host.Outcome State Fault Refusal :=
  s.done fun μ b => b.zMem n pr wd wa imm 0x16 8 false fun b h a => b.zSet n (h.wr64 wd (quadHalf (b.memQuad μ n a) a))
/-- STS. -/
def execSts (n pr wd wa imm : Nat) (s : State) : Host.Outcome State Fault Refusal :=
  s.done fun μ b => b.zMem n pr wd wa imm 0x17 8 true fun b h a =>
    .ok (b.memPut n a (quadPut (b.memQuad μ n a) a (h.rd64 wd)))

/-! ## DMA (R227) -/

/-- The range of a transfer's end is allowed to code of a privilege. -/
def Block.dmaOk (b : Block) (n : Nat) (sys dst : Bool) (sp a len : Nat) : Bool :=
  match sp with
  | 0 => 0x100000 + (if sys then 0 else b.dsplit n) ≤ a && a + len ≤ 0x100000 + dmemSize n
  | 1 => !dst && decide (n < 32) && 0x1000000 ≤ a && a + len ≤ 0x2000000 &&
      (sys || (List.range (len / 32)).all fun i => b.ctxOwn n ((a + 32 * i - 0x1000000) / 64))
  | 2 =>
    if sys then a + len ≤ hbmSize
    else
      let base := b.fld (U.ce n) F.CE_DWIN_BASE_BASE * 4096
      base ≤ a && a + len ≤ base + b.fld (U.ce n) F.CE_DWIN_SIZE_SIZE * 4096 && a + len ≤ hbmSize
  | 3 => true
  | _ => false

/-- The 16 bytes at an address, aligned or not. -/
def Block.memQuadAt (b : Block) (μ : Mem) (n a : Nat) : Quad :=
  if a % 16 = 0 then b.memQuad μ n a
  else b.memQuad μ n a >>> (8 * (a % 16)) ||| b.memQuad μ n (a + 16) <<< (128 - 8 * (a % 16))

/-- The transfer that the descriptor at a data SRAM address describes. -/
def Block.dmaDesc (b : Block) (μ : Mem) (n a : Nat) : DmaH :=
  let q0 := b.memQuadAt μ n a
  let q1 := b.memQuadAt μ n (a + 16)
  { src := quadFld q0 63 0, dst := quadFld q0 127 64, len := quadFld q1 31 0, srcSp := quadFld q1 35 32,
    dstSp := quadFld q1 39 36, func := if (b.eng n).sys ∨ 32 ≤ n then 0 else b.fld (U.ce n) F.CE_CFG_FUNC
    busy := true, result := 0 }

/-- Outstanding transfers of an engine. -/
def EngH.dmaBusy (h : EngH) : Nat := ((Store.view h.dma).filter fun x => x.2.busy).length

/-- A transfer starts under one of the free tags; which one is a free value. -/
def Block.dmaStart (b : Block) (n wd : Nat) (d : DmaH) : Block :=
  let (b, i) := b.takeFree
  let h := b.eng n
  let tags := (List.range 16).filter fun t => !(Store.get DmaH.init h.dma t).busy
  let t := tags.getD (Config.dmaTag i % max 1 tags.length) 0
  (b.noteEng n 9).setEng n ({ h with dma := Store.set DmaH.init h.dma t d }.wr64 wd (BitVec.ofNat 64 t))

/-- DMAGO: the checks in the order of R235, and then the start or a block with 16 transfers outstanding. -/
def execDmago (n pr wd wa wb : Nat) (s : State) : Host.Outcome State Fault Refusal :=
  s.done fun μ b => b.zhovo n pr (insnA 0x18 wd wa wb pr 0) (wb != 0) [wd, wa] fun b h =>
    let a := (h.rd64 wa).toNat
    let inDmem := match spaceOf n a with | .dmem o => decide (o + 32 ≤ dmemSize n) | _ => false
    if (inDmem && b.memOk n h.sys false a) = false then .fault X.denied 2 (h.rd64 wa)
    else
      let d := b.dmaDesc μ n a
      if b.dmaOk n h.sys false d.srcSp d.src d.len = false then .fault X.denied 3 (BitVec.ofNat 64 d.src)
      else if b.dmaOk n h.sys true d.dstSp d.dst d.len = false then .fault X.denied 3 (BitVec.ofNat 64 d.dst)
      else if a % 32 ≠ 0 then .fault X.misaligned 2 (h.rd64 wa)
      else if d.src % 32 ≠ 0 then .fault X.misaligned 2 (BitVec.ofNat 64 d.src)
      else if d.dst % 32 ≠ 0 then .fault X.misaligned 2 (BitVec.ofNat 64 d.dst)
      else if d.len = 0 ∨ 16777216 < d.len ∨ d.len % 32 ≠ 0 then .fault X.misaligned 2 (BitVec.ofNat 64 d.len)
      else if h.dmaBusy = 16 then .hold (.dmago wd d)
      else .ok (b.dmaStart n wd d)

/-- DMAGO_WAKE: a DMAGO blocked at 16 outstanding transfers issues when one ends. -/
def execDmagoWake (n : Nat) (s : State) : Host.Outcome State Fault Refusal :=
  s.did fun b =>
    match b.zHeld n with
    | some (.dmago wd d) => if (b.eng n).dmaBusy < 16 then b.zWake n fun b => .ok (b.dmaStart n wd d) else b
    | _ => b

/-- Word `j` of 16 bytes of a transfer's source; `host` holds what the host's memory gives. -/
def Block.dmaSrc (b : Block) (μ : Mem) (n : Nat) (d : DmaH) (host j : Nat) : Quad :=
  match d.srcSp with
  | 0 => μ.rd .dmem (sramIdx n (d.src - 0x100000) + j)
  | 1 => let o := d.src - 0x1000000 + 16 * j
         (b.ctx (o / 64)).quad (o / 16 % 4)
  | 2 => BitVec.ofNat 128 (μ.rdBytes (d.src + 16 * j) 16)
  | _ => BitVec.ofNat 128 (host >>> (128 * j))

/-- The model slot of an HBM address, if it lies in one. -/
def Block.slotAt (b : Block) (a : Nat) : Option Nat :=
  let base := b.regionBase 0
  let i := (a - base) / 4096
  if base ≤ a ∧ a < base + b.regionSize 0 ∧ i < b.bankSlots * b.bankCopies then some (i % b.bankSlots) else none

/-- An HBM address lies in a model slot in use or pending at a lane (R127, R227). -/
def Block.slotHeldAt (b : Block) (a : Nat) : Bool :=
  match b.slotAt a with | some s => b.slotBusy s | none => false

/-- A transfer writes the first `k` words of 16 bytes of its destination. -/
def Block.dmaPut (b : Block) (n : Nat) (d : DmaH) (k : Nat) (src : Nat → Quad) : Block :=
  match d.dstSp with
  | 0 => b.each (List.range k) fun b j => b.put .dmem (sramIdx n (d.dst - 0x100000) + j) (src j)
  | 2 => b.each (List.range k) fun b j =>
      if b.slotHeldAt (d.dst + 16 * j) then b else b.putBytes (d.dst + 16 * j) 16 (src j).toNat
  | _ =>
    let v := (List.range k).foldr (fun j a => a * 2 ^ 128 + (src j).toNat) 0
    if k = 0 then b else { b with hostOut := b.hostOut ++ [{ func := d.func, addr := d.dst, len := 16 * k, data := v }] }

/-- A transfer ends: with success, with a storage error, or with the words of model slots in use left out (R227). -/
def Block.dmaEnd (b : Block) (μ : Mem) (n tag host : Nat) (bad : Bool) : Block :=
  let h := b.eng n
  let d := Store.get DmaH.init h.dma tag
  if d.busy = false then b
  else
    let bad := bad || (d.srcSp == 2 && b.hbmBad d.src d.len) ||
      (d.dstSp == 2 && (List.range (min 64 (d.len / 256 + 2))).any fun j => 256 * j < d.len && b.pcDead (pcOf (d.dst + 256 * j)))
    let (b, i) := b.takeFree
    let k := if bad then 2 * (Config.dmaDone i % (d.len / 32 + 1)) else d.len / 16
    let refused := d.dstSp == 2 && (List.range k).any fun j => b.slotHeldAt (d.dst + 16 * j)
    let b := b.dmaPut n d k (b.dmaSrc μ n d host)
    let res := if bad then 1 else if refused then 2 else 0
    let b := b.setEng n { h with
      dma := Store.set DmaH.init h.dma tag { d with busy := false, result := res }, dmaerr := h.dmaerr || bad }
    b.when (refused && !b.flag (U.cl 0) F.CL_MB_STAT_MB_BUSY) fun b =>
      (b.setFlag (U.cl 0) F.CL_MB_STAT_MB_BUSY true).irq (U.cl 0) 17

/-- DMA_DONE: a transfer ends. `data` is what the host's memory holds at a host source, little-endian. -/
def execDmaDone (n tag data : Nat) (bad : Bool) (s : State) : Host.Outcome State Fault Refusal :=
  s.done fun μ b => b.dmaEnd μ n tag data bad

/-- DMAWAIT: the result of the transfer with tag wa[3:0], or a block until it ends. -/
def execDmawait (n pr wd wa wb : Nat) (s : State) : Host.Outcome State Fault Refusal :=
  s.did fun b => b.zhovo n pr (insnA 0x18 wd wa wb pr 1) (wb != 0) [wd, wa] fun b h =>
    let t := Word.fld (h.rd64 wa) 3 0
    let d := Store.get DmaH.init h.dma t
    if d.busy then .hold (.dmawait wd t) else b.zSet n (h.wr64 wd (BitVec.ofNat 64 d.result))

/-- DMAWAIT_WAKE: a blocked DMAWAIT returns the result when its transfer has ended. -/
def execDmawaitWake (n : Nat) (s : State) : Host.Outcome State Fault Refusal :=
  s.did fun b =>
    match b.zHeld n with
    | some (.dmawait wd t) =>
      let d := Store.get DmaH.init (b.eng n).dma t
      if d.busy then b else b.zWake n fun b => b.zSet n ((b.eng n).wr64 wd (BitVec.ofNat 64 d.result))
    | _ => b

/-- DMAPOLL: p[wd[2:0]] tells whether the transfer with tag wa[3:0] has ended. -/
def execDmapoll (n pr wd wa wb : Nat) (s : State) : Host.Outcome State Fault Refusal :=
  s.did fun b => b.zhovo n pr (insnA 0x18 wd wa wb pr 2) (8 ≤ wd || wb != 0) [wa] fun b h =>
    b.zSet n (h.setPred wd (!(Store.get DmaH.init h.dma (Word.fld (h.rd64 wa) 3 0)).busy))

/-! ## Unit access (R218, R228) -/

/-- The UID and offset of a unit access: DENIED outside the mask of user code, then MISALIGNED. -/
def Block.zUnit (b : Block) (n pr wd wa wb fn : Nat) (wr : Bool) (f : Block → EngH → Nat → Nat → ZOut) : Block :=
  b.zhovo n pr (insnA 0x19 wd wa wb pr fn) false [wd, wa, wb] fun b h =>
    let u := Word.fld (h.rd64 wa) 15 0
    let off := Word.fld (h.rd64 wb) 9 0
    if h.sys = false ∧ b.maskMay n wr u = false then .fault X.denied 1 (BitVec.ofNat 64 u)
    else if off % 8 ≠ 0 then .fault X.misaligned 4 (BitVec.ofNat 64 off)
    else f b h u off

/-- UGET: a read of a unit register starts; wd is interlocked until the data returns. -/
def execUget (n pr wd wa wb : Nat) (s : State) : Host.Outcome State Fault Refusal :=
  s.did fun b => b.zUnit n pr wd wa wb 0 false fun b h u off =>
    (b.noteEng n 8).zSet n { h with gets := h.gets ++ [{ wd := wd, uid := u, off := off, sys := h.sys, seq := h.seq }], seq := h.seq + 1 }

/-- Post a unit write. -/
def EngH.post (h : EngH) (u off : Nat) (v : Word) : EngH :=
  { h with posts := h.posts ++ [{ uid := u, off := off, v := v, sys := h.sys, seq := h.seq }], seq := h.seq + 1 }

/-- UPUT: a unit write is posted, or blocks on a full buffer of 16. -/
def execUput (n pr wd wa wb : Nat) (s : State) : Host.Outcome State Fault Refusal :=
  s.did fun b => b.zUnit n pr wd wa wb 1 true fun b h u off =>
    if 16 ≤ h.posts.length then .hold (.uput u off (h.rd64 wd))
    else (b.noteEng n 7).zSet n (h.post u off (h.rd64 wd))

/-- UPUT_WAKE: a blocked UPUT issues when an entry frees. -/
def execUputWake (n : Nat) (s : State) : Host.Outcome State Fault Refusal :=
  s.did fun b =>
    match b.zHeld n with
    | some (.uput u off v) =>
      if (b.eng n).posts.length < 16 then b.zWake n fun b => (b.noteEng n 7).zSet n ((b.eng n).post u off v) else b
    | _ => b

/-! ## Rings (R229) -/

/-- A ring instruction: the register block, the cursor and the class are checked; `f` takes the ring. -/
def Block.zRing (b : Block) (n pr wd wa wb cur fn : Nat) (classes : List Nat) (f : Block → EngH → Nat → ZOut) : Block :=
  let insn := insnA 0x1A wd wa wb pr (cur + fn)
  b.zhovo n pr insn (wa != 0 || wb != 0) [wd, wd + 1, wd + 2, wd + 3] fun b h =>
    if wd % 4 ≠ 0 ∨ wd = 0 then zIll 5 insn
    else
      let c := Store.get 0 h.cur cur
      let r := Word.fld c 13 0
      if Word.fld c 16 16 = 0 then .fault X.ringFault 1 (BitVec.ofNat 64 r)
      else if classes.contains (Word.fld c 18 17) = false then .fault X.ringFault 2 (BitVec.ofNat 64 r)
      else f b h r

/-- A ring has an entry to pop. -/
def Block.ringHas (b : Block) (r : Nat) : Bool := (b.ring r).en && (b.ring r).occ != 0

/-- A ring takes a push: it is enabled and not full, and backpressure does not hold a CUE ring (R229, R252). -/
def Block.ringRoom (b : Block) (r : Nat) : Bool :=
  let g := b.ring r
  g.en && !g.isFull && !(g.cls == clsCue && b.flag U.dsp F.DSP_STAT_CUE_FULL)

/-- The entry in registers wd to wd + 3. -/
def EngH.entry (h : EngH) (wd : Nat) : Entry :=
  BitVec.ofNat 512 ((List.range 4).foldr (fun i a => a * 2 ^ 128 + (h.rd (wd + i)).toNat) 0)

/-- Registers wd to wd + 3 take an entry. -/
def EngH.putEntry (h : EngH) (wd : Nat) (e : Entry) : EngH :=
  (List.range 4).foldl (fun h i => h.wr (wd + i) ((e >>> (128 * i)).setWidth 128)) h

/-- RPOP.b: an entry of a CMD ring; the engine blocks while the ring is empty, and waits for the entry's data. -/
def execRpopB (n pr wd wa wb cur : Nat) (s : State) : Host.Outcome State Fault Refusal :=
  s.did fun b => b.zRing n pr wd wa wb cur 0x00 [clsCmd] fun b _ r => .hold (.rpop wd r false !(b.ringHas r))

/-- RPOP.n: as RPOP.b where the ring holds an entry, else EMPTY. -/
def execRpopN (n pr wd wa wb cur : Nat) (s : State) : Host.Outcome State Fault Refusal :=
  s.did fun b => b.zRing n pr wd wa wb cur 0x08 [clsCmd] fun b h r =>
    if b.ringHas r then .hold (.rpop wd r true false) else b.zSet n { h with empty := true }

/-- A pending RPOP of engine `n` completes when its ring has an entry. -/
def Block.rpopWake (b : Block) (μ : Mem) (n : Nat) (host : Entry) (bad : Bool) : Block :=
  match b.zHeld n with
  | some (.rpop wd r nb _) =>
    if b.ringHas r && !b.coasting then
      b.zWake n fun b =>
        let g := b.ring r
        let e := b.entryGet μ g g.cons host
        let bad := bad || b.entryBad g g.cons
        let b := b.setRing r { g with cons := (g.cons + 1) % 2 ^ 32 }
        if bad then .skip (b.ringFault r) X.ringFault 3 (BitVec.ofNat 64 g.cons)
        else
          let h := b.eng n
          (b.noteEng n 5).zSet n ({ h with empty := h.empty && !nb }.putEntry wd e)
    else b
  | _ => b

/-- RPOP_WAKE: the entry's data has arrived, from HBM or as the host's memory gives it, or its storage has failed. -/
def execRpopWake (n : Nat) (host : Entry) (bad : Bool) (s : State) : Host.Outcome State Fault Refusal :=
  s.done fun μ b => b.rpopWake μ n host bad

/-- RPUSH.b: an entry onto a CUE, EVT or LOG ring, blocking while it is full. -/
def execRpushB (n pr wd wa wb cur : Nat) (s : State) : Host.Outcome State Fault Refusal :=
  s.did fun b => b.zRing n pr wd wa wb cur 0x10 [clsCue, clsEvt, clsLog] fun b h r =>
    if b.ringRoom r then .ok ((b.ringPush r (h.entry wd)).noteEng n 6) else .hold (.rpush r (h.entry wd))

/-- RPUSH.n: as RPUSH.b where the ring has room, else FULL. -/
def execRpushN (n pr wd wa wb cur : Nat) (s : State) : Host.Outcome State Fault Refusal :=
  s.did fun b => b.zRing n pr wd wa wb cur 0x18 [clsCue, clsEvt, clsLog] fun b h r =>
    if b.ringRoom r then .ok (((b.ringPush r (h.entry wd)).noteEng n 6).setEng n { h with full := false })
    else b.zSet n { h with full := true }

/-- RPUSH_WAKE: a blocked RPUSH.b completes when the ring has room. -/
def execRpushWake (n : Nat) (s : State) : Host.Outcome State Fault Refusal :=
  s.did fun b =>
    match b.zHeld n with
    | some (.rpush r e) => if b.ringRoom r then b.zWake n fun b => .ok ((b.ringPush r e).noteEng n 6) else b
    | _ => b

end Sys2Proof.Machine
end

