-- ==== Sys2Proof/Machine/ZhovoCtl.lean ====
section
/-! DEFINITION.
The control-flow, system and timed instructions of Zhovo (R230 to R233), the watchdog (R236), host requests and the host's
windows (R237, R239). -/
namespace Sys2Proof.Machine

/-! ## Control flow (R230) -/

/-- Target of a branch: its address plus offset23 × 4. -/
def brTarget (pc : Word) (off : Nat) : Word := pc + BitVec.ofInt 64 (sext 23 off * 4)

/-- BR: taken where p[pr] is true. -/
def execBr (n pr off : Nat) (s : State) : Host.Outcome State Fault Refusal :=
  s.did fun b => b.zhovo n pr (insnB 0x24 pr off) false [] fun b h => .jump b (brTarget h.pc off)

/-- CALL: w31 takes the return address. -/
def execCall (n pr off : Nat) (s : State) : Host.Outcome State Fault Refusal :=
  s.did fun b => b.zhovo n pr (insnB 0x25 pr off) false [31] fun b h =>
    .jump (b.setEng n (h.wr64 31 (h.pc + 4))) (brTarget h.pc off)

/-- JR: pc takes wa; a target that is not a multiple of 4 is misaligned. -/
def execJr (n pr wd wa wb : Nat) (s : State) : Host.Outcome State Fault Refusal :=
  s.did fun b => b.zhovo n pr (insnA 0x26 wd wa wb pr 0) (wd != 0 || wb != 0) [wa] fun b h =>
    let t := h.rd64 wa
    if t.toNat % 4 ≠ 0 then .fault X.misaligned 3 t else .jump b t

/-- JRL: as JR, and w31 takes the return address. -/
def execJrl (n pr wd wa wb : Nat) (s : State) : Host.Outcome State Fault Refusal :=
  s.did fun b => b.zhovo n pr (insnA 0x26 wd wa wb pr 1) (wd != 0 || wb != 0) [wa, 31] fun b h =>
    let t := h.rd64 wa
    if t.toNat % 4 ≠ 0 then .fault X.misaligned 3 t else .jump (b.setEng n (h.wr64 31 (h.pc + 4))) t

/-! ## System instructions (R231) -/

/-- TRAP. -/
def execTrap (n pr wd wa wb : Nat) (s : State) : Host.Outcome State Fault Refusal :=
  s.did fun b => b.zhovo n pr (insnA 0x30 wd wa wb pr 0) (wd != 0 || wb != 0) [wa] fun _ h => .trap X.trap (h.rd64 wa)

/-- SYSCALL. -/
def execSyscall (n pr wd wa wb : Nat) (s : State) : Host.Outcome State Fault Refusal :=
  s.did fun b => b.zhovo n pr (insnA 0x30 wd wa wb pr 1) (wd != 0 || wb != 0) [wa] fun _ h => .trap X.syscall (h.rd64 wa)

/-- The tracker runs on engine `n` (R38). -/
def Block.trackerOn (b : Block) (n : Nat) : Bool :=
  b.flag U.sync F.SYNC_CFG_TRK_EN && b.fld U.sync F.SYNC_TRK_CFG_ENGINE == n

/-- RUN changes (R240). -/
def Block.setRun (b : Block) (n : Nat) (v : Bool) : Block :=
  if b.flag (U.ce n) F.CE_USER_CTRL_RUN = v then b else (b.setFlag (U.ce n) F.CE_USER_CTRL_RUN v).irq (U.ce n) 19

/-- The tracker engine runs no user code (R38): user code that stands there, blocked or not, meets HOST_REQ with STOP, and RUN falls.
DEDUCED: a blocked operation of it is abandoned (log entry 105). -/
def Block.trackerTakes (b : Block) : Block :=
  let n := b.fld U.sync F.SYNC_TRK_CFG_ENGINE
  if b.trackerOn n = false then b
  else
    let h := b.eng n
    let b := if h.running ∧ b.inReset = false ∧ h.sys = false then b.exc n X.hostReq 2 0 h.pc else b
    b.setRun n false

/-- ERET: back to epc with the privilege PSYS; system only, and on the warden only to system privilege (R217, R238). -/
def execEret (n pr wd wa wb : Nat) (s : State) : Host.Outcome State Fault Refusal :=
  s.did fun b =>
    let insn := insnA 0x30 wd wa wb pr 2
    (b.zhovo n pr insn (wd != 0 || wa != 0 || wb != 0) [] fun b h =>
      if h.sys = false ∨ (n = 32 ∧ h.psys = false) then zIll 3 insn
      else .jump (b.setEng n { h with sys := h.psys, inexc := false, wdFrom := b.t }) h.epc).when (b.trackerOn n) fun b => b.trackerTakes

/-- Every earlier UPUT of engine `n` has reached its unit and every DMA transfer has ended. -/
def EngH.drained (h : EngH) : Bool := h.posts.isEmpty && h.dmaBusy == 0

/-- FENCE: blocks until every earlier operation has taken effect. -/
def execFenceZ (n pr wd wa wb : Nat) (s : State) : Host.Outcome State Fault Refusal :=
  s.did fun b => b.zhovo n pr (insnA 0x30 wd wa wb pr 3) (wd != 0 || wa != 0 || wb != 0) [] fun b h =>
    if h.drained then .ok b else .hold .fence

/-- FENCE_WAKE: a blocked FENCE completes. -/
def execFenceWake (n : Nat) (s : State) : Host.Outcome State Fault Refusal :=
  s.did fun b =>
    match b.zHeld n with
    | some .fence => if (b.eng n).drained then b.zWake n fun b => .ok b else b
    | _ => b

/-- KICK: the watchdog restarts. -/
def execKick (n pr wd wa wb : Nat) (s : State) : Host.Outcome State Fault Refusal :=
  s.did fun b => b.zhovo n pr (insnA 0x30 wd wa wb pr 4) (wd != 0 || wa != 0 || wb != 0) [] fun b h =>
    b.zSet n { h with wdFrom := b.t }

/-- HALT: the engine stops and its unit reads READY; system only. -/
def execHalt (n pr wd wa wb : Nat) (s : State) : Host.Outcome State Fault Refusal :=
  s.did fun b =>
    let insn := insnA 0x30 wd wa wb pr 5
    b.zhovo n pr insn (wd != 0 || wa != 0 || wb != 0) [] fun _ h => if h.sys then .halt else zIll 3 insn

/-- TRACE: one tracer entry, with the tag in the recorded word. -/
def execTrace (n pr wd wa imm : Nat) (s : State) : Host.Outcome State Fault Refusal :=
  s.did fun b => b.zhovo n pr (insnI 0x31 wd wa pr imm) (wd != 0 || wa != 0) [] fun _ _ => .trace

/-! ## WAITAT (R232) -/

/-- WAITAT: blocks until a stamp, or answers its lateness at once. -/
def execWaitat (n pr wd wa wb : Nat) (s : State) : Host.Outcome State Fault Refusal :=
  s.did fun b => b.zhovo n pr (insnA 0x20 wd wa wb pr 0) (wb != 0) [wd, wa] fun b h =>
    let v := h.rd64 wa
    if stampValid v = false then .fault X.illegal 4 v
    else if b.time.air < tcOf v then .hold (.waitat wd (tcOf v) none)
    else (b.noteEng n 2).zSet n ({ h with late := true }.wr64 wd (BitVec.ofNat 64 (b.time.air - tcOf v)))

/-- A time step from the air time `was`: a wait whose stamp a forward step passes ends late, by the new timeline. -/
def Block.waitsStep (b : Block) (was : Nat) : Block :=
  b.each (List.range 33) fun b n =>
    match (b.eng n).blocked with
    | some (.waitat wd due none) =>
      if was < due ∧ due ≤ b.time.air then
        b.setEng n { b.eng n with blocked := some (.waitat wd due (some (b.time.air - due))) }
      else b
    | _ => b

/-- WAITAT_WAKE: the first cycle at or after the stamp, or at once late where a forward step has passed it. -/
def execWaitatWake (n : Nat) (s : State) : Host.Outcome State Fault Refusal :=
  s.did fun b =>
    match b.zHeld n with
    | some (.waitat wd _ (some l)) =>
      b.zWake n fun b => (b.noteEng n 2).zSet n ({ b.eng n with late := true }.wr64 wd (BitVec.ofNat 64 l))
    | some (.waitat wd due none) =>
      let at_ := (due + engTc n - 1) / engTc n * engTc n
      b.atElapsed (b.elapsedOfAir at_) fun b =>
        if at_ ≤ b.time.air then b.zWake n fun b => b.zSet n ((b.eng n).wr64 wd 0) else b
    | _ => b

/-! ## Arming (R219, R233, R244) -/

/-- The image of 64 bytes at a data SRAM address. -/
def Block.imageAt (b : Block) (μ : Mem) (n a : Nat) : Ctx := Ctx.image fun j => b.memQuad μ n (a + 16 * j)

/-- The fault of an arming instruction on its cue: privilege of the class and the UID mask (R219). -/
def Block.armDenied (b : Block) (n : Nat) (sys : Bool) (c : Ctx) : Option ZOut :=
  if sys then none
  else if c.cls = 3 then some (.fault X.denied 4 (BitVec.ofNat 64 c.target))
  else if b.maskMay n true c.target = false then some (.fault X.denied 1 (BitVec.ofNat 64 c.target))
  else none

/-- A cue that passed its checks takes a context: wd takes its index, or `none` answers for a full store. -/
def Block.armTake (b : Block) (n wd : Nat) (c : Ctx) (full : Block → ZOut) : ZOut :=
  if (cueCheck c c.sys true).isSome then
    let (b, i) := b.armRefused.takeFree
    b.zSet n ((b.eng n).wr64 wd (Config.armRefused i))
  else
    match b.allocCtx with
    | some x =>
      let b := (b.armInto x c).noteEng n 4
      b.zSet n ((b.eng n).wr64 wd (BitVec.ofNat 64 x))
    | none => full b

/-- An arming instruction with an image: `stamp` and `args` patch the image. Its faults come in the order of R235; the image of an
address that is no multiple of 64 is that of the 64 bytes it lies in (DESIGN CHOICE, log entry 103). -/
def Block.zArm (b : Block) (μ : Mem) (n pr wd wa wb fn : Nat) (bad : Bool) (stamp : Block → EngH → Word)
    (args : EngH → Option Word) (full : Nat → Ctx → Block → ZOut) : Block :=
  b.zhovo n pr (insnA 0x20 wd wa wb pr fn) bad [wd, wa, wb] fun b h =>
    let a := (h.rd64 wa).toNat
    let v := stamp b h
    let ok := match spaceOf n a with | .dmem o => decide (o + 64 ≤ dmemSize n) && b.memOk n h.sys false a | _ => false
    if stampValid v = false then .fault X.illegal 4 v
    else if ok = false then .fault X.denied 2 (h.rd64 wa)
    else
      let c := { b.imageAt μ n (a / 64 * 64) with stamp := v, origin := b.engOrigin n, sys := h.sys }
      let c := match args h with
        | some w => { c with args := BitVec.ofNat 256 ((c.args.toNat >>> 64 <<< 64) + w.toNat) }
        | none => c
      match b.armDenied n h.sys c with
      | some o => o
      | none => if a % 64 ≠ 0 then .fault X.misaligned 1 (h.rd64 wa) else b.armTake n wd c (full wd c)

/-- ARM blocks while no context is free. -/
def armBlocks (wd : Nat) (c : Ctx) (_ : Block) : ZOut := .hold (.arm wd c)

/-- ARM. -/
def execArm (n pr wd wa wb : Nat) (s : State) : Host.Outcome State Fault Refusal :=
  s.done fun μ b => b.zArm μ n pr wd wa wb 1 false (fun _ h => h.rd64 wb) (fun _ => none) armBlocks

/-- ARMN: with no free context, wd takes all ones and FULL is set. -/
def execArmn (n pr wd wa wb : Nat) (s : State) : Host.Outcome State Fault Refusal :=
  s.done fun μ b =>
    let b' := b.zArm μ n pr wd wa wb 2 false (fun _ h => h.rd64 wb) (fun _ => none) fun wd _ b =>
      b.zSet n ({ b.eng n with full := true }.wr64 wd (BitVec.allOnes 64))
    if b'.dsp.seq ≠ b.dsp.seq then b'.setEng n { b'.eng n with full := false } else b'

/-- ARMP: argument bytes 0 to 7 take wb.d[1]. -/
def execArmp (n pr wd wa wb : Nat) (s : State) : Host.Outcome State Fault Refusal :=
  s.done fun μ b => b.zArm μ n pr wd wa wb 3 false (fun _ h => h.rd64 wb) (fun h => some (h.rdHi wb)) armBlocks

/-- FIRE: the stamp is air at issue. -/
def execFire (n pr wd wa wb : Nat) (s : State) : Host.Outcome State Fault Refusal :=
  s.done fun μ b => b.zArm μ n pr wd wa wb 4 (wb != 0) (fun b _ => b.now) (fun _ => none) armBlocks

/-- SWAPMODEL: a SWAPMODEL cue of class 1 with the default tolerance. -/
def execSwapmodel (n pr wd wa wb : Nat) (s : State) : Host.Outcome State Fault Refusal :=
  s.did fun b =>
    let insn := insnA 0x20 wd wa wb pr 5
    b.zhovo n pr insn false [wd, wa, wb] fun b h =>
      let v := h.rd64 wb
      let u := Word.fld (h.rd64 wa) 15 0
      if stampValid v = false then .fault X.illegal 4 v
      else if kindOf u ≠ 0x05 ∧ kindOf u ≠ 0x07 then zIll 7 insn
      else
        let c : Ctx := { Ctx.init with
          stamp := v, target := u, action := 0x20, ctrl := 1, origin := b.engOrigin n, sys := h.sys
          args := BitVec.ofNat 256 (Word.fld (h.rd64 wa) 63 32) }
        match b.armDenied n h.sys c with
        | some o => o
        | none => b.armTake n wd c (armBlocks wd c)

/-- ARM_WAKE: a blocked ARM, ARMP, FIRE or SWAPMODEL completes when a context is free. -/
def execArmWake (n : Nat) (s : State) : Host.Outcome State Fault Refusal :=
  s.did fun b =>
    match b.zHeld n with
    | some (.arm wd c) => if b.freeCtxs = 0 then b else b.zWake n fun b => b.armTake n wd c (armBlocks wd c)
    | _ => b

/-- An ARMED context goes FREE before its action (R243): its slot, if a staging holds one, and its model swaps go too. -/
def Block.cancelCtx (b : Block) (x : Nat) : Block :=
  let c := b.ctx x
  let b := (b.slotFree x).freeCtx x
  if c.action = 0x20 then
    b.each b.lanesOn fun b i =>
      if (b.laneH i).swaps.any fun y => y.ctx == x then
        (b.setLaneH i { b.laneH i with swaps := (b.laneH i).swaps.filter fun y => y.ctx ≠ x }).showSwap i
      else b
  else b

/-- The outcome of DISARM and DSP_CANCEL on a context that the caller may cancel (R233). -/
def cancelCode (c : Ctx) (own : Bool) : Nat :=
  if own = false ∨ c.state = Cue.free then 2 else if c.state = Cue.armed then 0 else 1

/-- DISARM: an owned context that is not yet staged is freed. -/
def execDisarm (n pr wd wa wb : Nat) (s : State) : Host.Outcome State Fault Refusal :=
  s.did fun b => b.zhovo n pr (insnA 0x20 wd wa wb pr 6) (wb != 0) [wd, wa] fun b h =>
    let x := (h.rd64 wa).toNat
    let c := b.ctx x
    let code := cancelCode c (decide (x < ctxCount) && c.origin == b.engOrigin n && c.sys == h.sys)
    let b := if code = 0 then b.cancelCtx x else b
    b.zSet n (h.wr64 wd (BitVec.ofNat 64 code))

/-- ARMC: a reserved FREE context that system code has written is armed. -/
def execArmc (n pr wd wa wb : Nat) (s : State) : Host.Outcome State Fault Refusal :=
  s.did fun b =>
    let insn := insnA 0x20 wd wa wb pr 7
    b.zhovo n pr insn false [wd, wa, wb] fun b h =>
      let v := h.rd64 wb
      let x := (h.rd64 wa).toNat
      if h.sys = false then zIll 3 insn
      else if stampValid v = false then .fault X.illegal 4 v
      else if b.fld U.dsp F.DSP_CFG_RESV ≤ x ∨ (b.ctx x).state ≠ Cue.free then b.zSet n (h.wr64 wd (BitVec.allOnes 64))
      else
        let c := { b.ctx x with stamp := v, origin := b.engOrigin n, sys := true }
        if (cueCheck c true true).isSome then
          let (b, i) := b.armRefused.takeFree
          b.zSet n (h.wr64 wd (Config.armRefused i))
        else ((b.armInto x c).noteEng n 4).zSet n (h.wr64 wd (BitVec.ofNat 64 x))

/-! ## Watchdog (R236) -/

/-- WATCHDOG_EXPIRY: the count reaches the limit at an instruction boundary. -/
def execWatchdogExpiry (n : Nat) (s : State) : Host.Outcome State Fault Refusal :=
  s.did fun b =>
    if b.engLive n then
      b.atElapsed ((b.eng n).wdFrom + b.wdLimit n * engTc n) fun b =>
        let cycles := b.wdCount n
        let b := if n < 32 then b.irq (U.ce n) 18 else b
        b.exc n X.watchdog 0 (BitVec.ofNat 64 cycles) (b.eng n).pc
    else b

/-! ## Host requests and windows (R237, R239) -/

/-- The PF, or the VF named in CE_CFG.FUNC, may write CE_USER_CTRL. -/
def Block.userCtl (b : Block) (who : Who) (n : Nat) : Bool :=
  match who with
  | .pf | .mspi => true
  | .vf k => b.fld (U.ce n) F.CE_CFG_FUNC == k
  | _ => false

/-- A host request becomes pending; system code sees it in status.REQ. -/
def Block.userReq (b : Block) (n mask : Nat) : Block :=
  let h := b.eng n
  b.setEng n { h with reqs := h.reqs ||| mask, req := h.req || (h.running && h.sys) }

/-- A write of START. -/
def Block.userStart (b : Block) (who : Who) (n : Nat) : Block :=
  if b.userCtl who n = false then b
  else if b.trackerOn n then b.setFlag (U.ce n) F.CE_USER_CTRL_REFUSED true
  else b.userReq n 1

/-- A write of STOP. -/
def Block.userStop (b : Block) (who : Who) (n : Nat) : Block := if b.userCtl who n then b.userReq n 2 else b

/-- USER_START. -/
def execUserStart (who : Who) (n : Nat) (s : State) : Host.Outcome State Fault Refusal :=
  s.did fun b => b.wr who (U.ce n) F.CE_USER_CTRL_START fun b => b.userStart who n

/-- USER_STOP. -/
def execUserStop (who : Who) (n : Nat) (s : State) : Host.Outcome State Fault Refusal :=
  s.did fun b => b.wr who (U.ce n) F.CE_USER_CTRL_STOP fun b => b.userStop who n

/-- The system runtime starts the user program: user privilege at CE_USER_ENTRY with every register and predicate cleared. -/
def Block.userEnter (b : Block) (n : Nat) : Block :=
  (b.setEng n { b.eng n with
    w := [], p := 0, pc := BitVec.ofNat 64 (b.fld (U.ce n) F.CE_USER_ENTRY_ENTRY), sys := false, psys := false
    inexc := false, wdFrom := b.t }).setRun n true

/-- HOST_REQ_TAKE: HOST_REQ at a boundary of user code, after a watchdog whose count has come (R235); in system code the runtime services the request at its scheduling
point, and refuses a START on the tracker engine (R38). -/
def execHostReqTake (n : Nat) (s : State) : Host.Outcome State Fault Refusal :=
  s.did fun b =>
    let h := b.eng n
    if b.engLive n = false ∨ h.reqs = 0 ∨ 32 ≤ n then b
    else if h.sys = false then if b.wdLimit n ≤ b.wdCount n then b else (b.setEng n { h with reqs := 0 }).exc n X.hostReq h.reqs 0 h.pc
    else
      let b := b.setEng n { h with reqs := 0, req := false }
      let b := if h.reqs / 2 % 2 = 1 then b.setRun n false else b
      if h.reqs % 2 = 0 then b
      else if b.trackerOn n then b.setFlag (U.ce n) F.CE_USER_CTRL_REFUSED true
      else b.userEnter n

/-- CE_IMEM_ADDR advances by 4 after each access of CE_IMEM_DATA. -/
def Block.imemNext (b : Block) (n : Nat) : Block :=
  b.setFld (U.ce n) F.CE_IMEM_ADDR_ADDR (b.fld (U.ce n) F.CE_IMEM_ADDR_ADDR / 4 * 4 + 4)

/-- CE_DMEM_ADDR advances by 8 after each access of CE_DMEM_DATA. -/
def Block.dmemNext (b : Block) (n : Nat) : Block :=
  b.setFld (U.ce n) F.CE_DMEM_ADDR_ADDR (b.fld (U.ce n) F.CE_DMEM_ADDR_ADDR / 8 * 8 + 8)

/-- The 32-bit word of instruction SRAM at a byte offset. -/
def imemWord (μ : Mem) (n a : Nat) : Nat := ((μ.rd .imem (sramIdx n a)).toNat >>> (32 * (a / 4 % 4))) % 2 ^ 32

/-- A window write at a byte offset is taken: the program does not run and the offset lies in the user region. -/
def Block.loadOk (b : Block) (n a split : Nat) : Bool := !b.flag (U.ce n) F.CE_USER_CTRL_RUN && split ≤ a

/-- A write of CE_IMEM_DATA. -/
def Block.imemWrite (b : Block) (μ : Mem) (n : Nat) (half : Half) (v : Word) : Block :=
  let a := b.fld (U.ce n) F.CE_IMEM_ADDR_ADDR / 4 * 4
  let b := if b.loadOk n a (b.isplit n) then
      if half = .hi then b
      else
        let q := (μ.rd .imem (sramIdx n a)).toNat
        let sh := 32 * (a / 4 % 4)
        b.put .imem (sramIdx n a) (BitVec.ofNat 128 (q - (imemWord μ n a <<< sh) + (Word.fld v 31 0 <<< sh)))
    else b.setFlag (U.ce n) F.CE_USER_CTRL_LOAD_BUSY true
  b.imemNext n

/-- A write of CE_DMEM_DATA. -/
def Block.dmemWrite (b : Block) (μ : Mem) (n : Nat) (half : Half) (v : Word) : Block :=
  let a := b.fld (U.ce n) F.CE_DMEM_ADDR_ADDR / 8 * 8
  let b := if b.loadOk n a (b.dsplit n) then
      let q := μ.rd .dmem (sramIdx n a)
      b.put .dmem (sramIdx n a) (quadPut q a (halfMerge half (quadHalf q a) v))
    else b.setFlag (U.ce n) F.CE_USER_CTRL_LOAD_BUSY true
  b.dmemNext n

/-- CE_IMEM_DATA and CE_DMEM_DATA as they read: the system region as zero. -/
def Block.imemRead (b : Block) (μ : Mem) (n : Nat) : Word :=
  let a := b.fld (U.ce n) F.CE_IMEM_ADDR_ADDR / 4 * 4
  if b.isplit n ≤ a then BitVec.ofNat 64 (imemWord μ n a) else 0
def Block.dmemRead (b : Block) (μ : Mem) (n : Nat) : Word :=
  let a := b.fld (U.ce n) F.CE_DMEM_ADDR_ADDR / 8 * 8
  if b.dsplit n ≤ a then quadHalf (μ.rd .dmem (sramIdx n a)) a else 0

/-- IMEM_WRITE. -/
def execImemWrite (who : Who) (n : Nat) (half : Half) (v : Word) (s : State) : Host.Outcome State Fault Refusal :=
  s.done fun μ b => b.wrReg who (U.ce n) R.CE_IMEM_DATA half fun b => b.imemWrite μ n half v

/-- IMEM_READ. -/
def execImemRead (who : Who) (n : Nat) (s : State) : Host.Outcome State Fault Refusal :=
  s.done fun μ b =>
    if b.readOk who (U.ce n) then { b.imemNext n with rdata := b.imemRead μ n } else { b with rdata := 0 }

/-- DMEM_WRITE. -/
def execDmemWrite (who : Who) (n : Nat) (half : Half) (v : Word) (s : State) : Host.Outcome State Fault Refusal :=
  s.done fun μ b => b.wrReg who (U.ce n) R.CE_DMEM_DATA half fun b => b.dmemWrite μ n half v

/-- DMEM_READ. -/
def execDmemRead (who : Who) (n : Nat) (half : Half) (s : State) : Host.Outcome State Fault Refusal :=
  s.done fun μ b =>
    if b.readOk who (U.ce n) then { b.dmemNext n with rdata := b.dmemRead μ n &&& halfMask half } else { b with rdata := 0 }

end Sys2Proof.Machine
end

