-- ==== Sys2Proof/Machine/Sync.lean ====
section
/-! DEFINITION.
Air time (chapter 02): the time sources and their qualification (R37 to R42), selection and the sync state machine (R43,
R44), the estimated time error and the TDD condition (R45, R46), first lock (R47), steps and the tick grid (R48, R49), and
operating and wall time (R50, R51). -/
namespace Sys2Proof.Machine

/-- Tc counts at which the air stamp wraps: 2^39 frames (R7). -/
def airMod : Nat := 2 ^ 39 * frameTc

/-- The residue of `x` nearest to zero, modulo `m`. -/
def nearest (x : Int) (m : Nat) : Int :=
  let r := x % (m : Int)
  if (m : Int) < 2 * r then r - m else r

/-- Change the sync unit's own state. -/
def Block.syn (b : Block) (f : SyncH → SyncH) : Block := { b with sync := f b.sync }

/-- Enable bit of a source (R37). -/
def srcEn (s : Nat) : Fld := match s with | 1 => F.SYNC_CFG_TRK_EN | 2 => F.SYNC_CFG_PPS_EN | _ => F.SYNC_CFG_PTP_EN

/-- Qualification bit of a source. -/
def srcQual (s : Nat) : Fld := match s with | 1 => F.SYNC_STAT_TRK_QUAL | 2 => F.SYNC_STAT_PPS_QUAL | _ => F.SYNC_STAT_PTP_QUAL

/-- Priority field of a source. -/
def srcPrio (s : Nat) : Fld := match s with | 1 => F.SYNC_CFG_PRIO_TRK | 2 => F.SYNC_CFG_PRIO_PPS | _ => F.SYNC_CFG_PRIO_PTP

/-- Accuracy bound of a source in ns (R45). -/
def srcBound (s : Nat) : Nat := match s with | 1 => 20 | 2 => 30 | _ => 50

/-- A source is qualified. -/
def Block.qual (b : Block) (s : Nat) : Bool := b.flag U.sync (srcQual s)

/-- A source is enabled. -/
def Block.srcOn (b : Block) (s : Nat) : Bool := b.flag U.sync (srcEn s)

/-- Place of a source in the priority order: PRIO, then TRK before PPS before PTP (R43). -/
def Block.srcRank (b : Block) (s : Nat) : Nat := b.fld U.sync (srcPrio s) * 4 + s

/-- Qualified, enabled sources. -/
def Block.candidates (b : Block) : List Nat := [1, 2, 3].filter fun s => b.qual s && b.srcOn s

/-- The best qualified, enabled source (R43). -/
def Block.bestSource (b : Block) : Option Nat :=
  b.candidates.foldl (fun o s => match o with | some p => if b.srcRank s < b.srcRank p then some s else o | none => some s) none

def Block.syncState (b : Block) : Nat := b.fld U.sync F.SYNC_STAT_STATE
def Block.syncSource (b : Block) : Nat := b.fld U.sync F.SYNC_STAT_SOURCE
def Block.everLocked (b : Block) : Bool := b.flag U.sync F.SYNC_STAT_EVER_LOCKED

/-- Source time minus the air-time counter, in Tc: the tracker carries no HFN and no EPOCH, which come from SYNC_HFN_SEED
at a tracker-first lock and otherwise from the counter (R39). -/
def Block.srcDiff (b : Block) (s : Nat) : Int :=
  let air : Int := b.time.air
  let el : Int := b.time.elapsed
  match s with
  | 1 =>
    let span := 1024 * frameTc
    if b.everLocked then nearest (b.sync.trkOff + el - air) span
    else
      let upper := b.fld U.sync F.SYNC_HFN_SEED_EPOCH * 1024 + b.fld U.sync F.SYNC_HFN_SEED_HFN
      nearest (((upper * span : Nat) : Int) + (b.sync.trkOff + el) % (span : Int) - air) airMod
  | 2 => nearest (b.sync.ppsOff + el - air) airMod
  | _ => nearest (b.sync.ptpOff + el - air) airMod

/-- A number of Tc in ns. -/
def Block.nsOf (b : Block) (d : Int) : Block × Int := b.roundFree (d * 15625) 30720

/-- More than the step limit (R48). -/
def Block.overLimit (b : Block) (d : Int) : Bool :=
  decide (b.fld U.sync F.SYNC_STEER_STEP_LIM * 30720 < d.natAbs * 15625)

/-- The phase difference to source `s` is measured: SYNC_TE.PHASE takes it (R35, R45). -/
def Block.showPhase (b : Block) (s : Nat) : Block :=
  let (b, ns) := b.nsOf (b.srcDiff s)
  b.setFld U.sync F.SYNC_TE_PHASE (toCode 32 (clampI (-2147483648) 2147483647 ns))

/-- SYNC_XCHK: tracker frame boundary minus that of the other qualified source (R471). DESIGN CHOICE: where PPS and PTP are
both qualified, the one that stands higher in the priority order is compared (log entry 97). -/
def Block.showXchk (b : Block) : Block :=
  let other : Option Nat := if b.qual 2 ∧ (b.qual 3 = false ∨ b.srcRank 2 < b.srcRank 3) then some 2
    else if b.qual 3 then some 3 else none
  match b.qual 1, other with
  | true, some s =>
    let (b, ns) := b.nsOf (nearest (b.srcDiff s - b.srcDiff 1) frameTc)
    (b.setFld U.sync F.SYNC_XCHK_DIFF (toCode 32 ns)).setFlag U.sync F.SYNC_XCHK_VALID true
  | _, _ => b.setFlag U.sync F.SYNC_XCHK_VALID false

/-- A source qualifies. -/
def Block.qualify (b : Block) (s : Nat) : Block :=
  if b.qual s then b
  else (b.setFlag U.sync (srcQual s) true).syn fun y => { y with qualAt := Store.set 0 y.qualAt s (b.t + 1) }

/-- A source loses its qualification: SYNC_XCHK follows, and the state machine takes the loss at the tick boundary (R43,
R471). -/
def Block.lose (b : Block) (s : Nat) : Block :=
  if b.qual s then
    ((b.setFlag U.sync (srcQual s) false).syn fun y => { y with
      qualAt := Store.del y.qualAt s, losses := y.losses ++ [s]
      takeover := if y.takeover = some s then none else y.takeover }).showXchk
  else b

/-- The criteria of a source start afresh. -/
def Block.restartSource (b : Block) (s : Nat) : Block :=
  match s with
  | 1 => b.syn fun y => { y with trkBursts := [], trkCrc := false, trkSfnBad := 0 }
  | 2 => b.syn fun y => { y with ppsRun := 0, ppsEdge := none }
  | _ => b.syn fun y => { y with ptpRun := 0 }

/-- A measurement of source `s`, with the measured frequency error: SYNC_TUNE, and for the selected source the phase, the
frequency means of R45 and the run over the step limit of R48. -/
def Block.measured (b : Block) (s : Nat) (ferr : Int) : Block :=
  let b := b.setFld U.sync F.SYNC_TUNE_FERR (toCode 40 (clampI (-(2 ^ 39)) (2 ^ 39 - 1) ferr))
  let (b, i) := b.takeFree
  let b := b.setFld U.sync F.SYNC_TUNE_PDM (if b.flag U.sync F.SYNC_CFG_DISC then 0 else Config.pdm i)
  let b := b.showXchk
  if b.syncState = 1 ∧ b.syncSource = s then
    let b := b.showPhase s
    let ovr := b.sync.step.isNone && b.overLimit (b.srcDiff s)
    b.syn fun y => { y with fmSum := y.fmSum + ferr, fmCount := y.fmCount + 1, overRun := if ovr then y.overRun + 1 else 0 }
  else b

/-! ## The donor timing tracker (R38, R39, R471) -/

/-- Three boundaries lie within ±40 Tc of one another. -/
def burstsAgree (l : List Int) : Bool :=
  l.length == 3 && l.all fun x => l.all fun y => decide ((nearest (x - y) frameTc).natAbs ≤ 40)

/-- A burst is detected: the donor frame boundary crossed the RXC balls `back` Tc ago, in the frame of number `sfn`. DESIGN
CHOICE: with PCI_ANY = 0 a burst of another cell counts as detected, so that it ends the run of misses, and it breaks the run
of consecutive bursts (log entry 97). -/
def Block.trkBurst (b : Block) (back sfn : Nat) (crc : Bool) (pci ssb : Nat) (rsrp ferr : Int) : Block :=
  let u := U.sync
  if b.flag u F.SYNC_CFG_TRK_EN = false then b
  else
    let b := ((b.setFld u F.SYNC_TRK_STAT_PCI pci).setFlag u F.SYNC_TRK_STAT_CRC_OK crc).setFld u F.SYNC_TRK_STAT_SSB ssb
    let b := (b.setFld u F.SYNC_TRK_STAT_RSRP (dbCode rsrp)).setFld u F.SYNC_TRK_STAT_MISSES 0
    let b := b.when crc fun b => b.setFld u F.SYNC_TRK_STAT_SFN sfn
    if b.flag u F.SYNC_TRK_CFG_PCI_ANY = false ∧ pci ≠ b.fld u F.SYNC_TRK_CFG_PCI then
      b.syn fun y => { y with trkBursts := [] }
    else
      let span := 1024 * frameTc
      -- the TC at the present Tc is the time since the boundary, less ADJ
      let ph : Int := (back : Int) - b.sfld u F.SYNC_REF_ADJ_ADJ - b.t
      let full := ((sfn * frameTc : Nat) : Int) + ph
      let counted := nearest (full - b.sync.trkOff) span
      let wrong := crc && b.sync.trkCrc && decide (frameTc ≤ 2 * counted.natAbs)
      let bad := if crc then (if wrong then b.sync.trkSfnBad + 1 else 0) else b.sync.trkSfnBad
      let off := if crc && !wrong then full else b.sync.trkOff + nearest (ph - b.sync.trkOff) frameTc
      let b := b.syn fun y => { y with
        trkOff := off % (span : Int), trkCrc := y.trkCrc || crc, crcAt := if crc then some b.t else y.crcAt, trkSfnBad := bad, trkBursts := ((ph % (frameTc : Int)) :: y.trkBursts).take 3 }
      let b := if 2 ≤ bad then (b.lose 1).restartSource 1
        else if b.sync.trkCrc ∧ burstsAgree b.sync.trkBursts then b.qualify 1 else b
      b.measured 1 ferr

/-- TRK_BURST_DECODE. -/
def execTrkBurstDecode (back sfn : Nat) (crc : Bool) (pci ssb : Nat) (rsrp ferr : Int) (s : State) :
    Host.Outcome State Fault Refusal := s.did fun b => b.trkBurst back sfn crc pci ssb rsrp ferr

/-- TRK_BURST_MISSED: MISSES counts on after the loss. -/
def execTrkBurstMissed (s : State) : Host.Outcome State Fault Refusal :=
  s.did fun b =>
    if b.flag U.sync F.SYNC_CFG_TRK_EN = false then b
    else
      let b := (b.incSat U.sync F.SYNC_TRK_STAT_MISSES 1).syn fun y => { y with trkBursts := [] }
      if 8 ≤ b.fld U.sync F.SYNC_TRK_STAT_MISSES ∧ b.qual 1 then (b.lose 1).restartSource 1 else b

/-! ## GNSS 1PPS (R40, R42) -/

/-- PPS is lost: the time of day is no longer valid. -/
def Block.ppsLost (b : Block) : Block :=
  ((b.lose 2).setFlag U.sync F.SYNC_TOD_VALID false).syn fun y => { y with todCount := none, todWritten := false }

/-- A rising edge on PPS_IN. -/
def Block.ppsEdgeIn (b : Block) (ferr : Int) : Block :=
  let u := U.sync
  if b.flag u F.SYNC_CFG_PPS_EN = false then b
  else
    let gap : Option Int := b.sync.ppsEdge.map fun e => (b.t : Int) - e - secTc
    let within := match gap with | some g => decide (g.natAbs * 100 ≤ 196608) | none => false
    let early := match gap with | some g => decide (g < 0) && !within | none => false
    let b := b.when early fun b => b.ppsLost
    let b := b.syn fun y => { y with ppsEdge := some b.t, ppsRun := if within then y.ppsRun + 1 else 1 }
    -- a written time of day applies at this edge; otherwise the count has reached it
    let sec := b.fld u F.SYNC_TOD_GPS_SEC
    let valid := b.flag u F.SYNC_TOD_VALID
    let differs := b.sync.todWritten && (match b.sync.todCount with | some c => c != sec | none => false)
    let b := b.when (valid && differs) fun b => b.irq u 21
    let b := b.syn fun y => { y with
      todWritten := false, todCount := if valid then some ((sec + 1) % 2 ^ 40) else none
      ppsOff := if valid then ((sec * secTc : Nat) : Int) + b.sfld u F.SYNC_AIR_OFFSET_OFFSET - b.t else y.ppsOff }
    let b := b.setFld u F.SYNC_TOD_GPS_SEC (sec + 1)
    let b := if valid ∧ 3 ≤ b.sync.ppsRun then b.qualify 2 else b
    b.measured 2 ferr

/-- PPS_EDGE. -/
def execPpsEdge (ferr : Int) (s : State) : Host.Outcome State Fault Refusal := s.did fun b => b.ppsEdgeIn ferr

/-- PPS_TIMEOUT: no edge within 1 s + 1 µs of the last one. -/
def execPpsTimeout (s : State) : Host.Outcome State Fault Refusal :=
  s.did fun b =>
    match b.sync.ppsEdge with
    | some e =>
      if b.flag U.sync F.SYNC_CFG_PPS_EN then b.atElapsed (e + secTc + 1967) fun b => b.ppsLost.restartSource 2 else b
    | none => b

/-- SYNC_TOD_WRITE: the value applies at the next edge. -/
def execSyncTodWrite (who : Who) (half : Half) (v : Word) (s : State) : Host.Outcome State Fault Refusal :=
  s.did fun b => b.wrReg who U.sync R.SYNC_TOD half fun b =>
    (b.putReg who U.sync R.SYNC_TOD half v []).syn fun y => { y with todWritten := true }

/-! ## PTP (R41, R42) -/

/-- The first list stands before the second: at the first place where they differ it has the lower value. -/
def lexLt : List Nat → List Nat → Bool
  | a :: x, b :: y => if a < b then true else if b < a then false else lexLt x y
  | _, _ => false

/-- What the alternate BMCA compares of a master, in order. PRESUMED from ITU-T G.8275.1, which R41 names: class, accuracy,
variance, priority 2, local priority, for a class above 127 the grandmaster's identity, then the steps to it and the port identity
(log entry 105). -/
def Block.ptpRank (b : Block) (m : PtpMaster) : List Nat :=
  [m.cls, m.acc, m.var, m.prio2, b.fld U.sync F.SYNC_PTP_CFG_LOCAL_PRIO] ++ (if 127 < m.cls then [m.gm] else []) ++ [m.steps, m.id]

/-- The master that the alternate BMCA selects (R41). -/
def Block.ptpBest (b : Block) : Option PtpMaster :=
  b.sync.masters.foldl (fun o m => match o with
    | some p => if lexLt (b.ptpRank m) (b.ptpRank p) then some m else o
    | none => some m) none

/-- A PTP frame is received on FH port `port`, which is usable only in UP, and counts as accepted (R267, R268, R281). -/
def Block.ptpFrame (b : Block) (port : Nat) (f : Block → Block) : Block :=
  if b.fhUp port then f (b.incWrap (U.fh port) F.FH_RX_CNT_FRAMES 1) else b

/-- A message on FH port `port` in domain `dom` is for the slave (R41). -/
def Block.ptpTakes (b : Block) (port dom : Nat) : Bool :=
  b.flag U.sync F.SYNC_CFG_PTP_EN && port == b.fld U.sync F.SYNC_PTP_CFG_PORT && dom == b.fld U.sync F.SYNC_PTP_CFG_DOMAIN

/-- A Sync message of the selected master: the servo's phase error `err` in ns. -/
def Block.ptpSync (b : Block) (err : Int) (sec ns : Nat) (ferr : Int) : Block :=
  let gps : Int := ((sec : Int) - 315964819) * secTc + ((ns * 6144 / 3125 : Nat) : Int)
  let b := b.syn fun y => { y with
    ptpOff := gps + b.sfld U.sync F.SYNC_AIR_OFFSET_OFFSET - b.t, ptpRun := if err.natAbs ≤ 100 then y.ptpRun + 1 else 0 }
  let b := if 1000 < err.natAbs then b.lose 3 else if 16 ≤ b.sync.ptpRun then b.qualify 3 else b
  b.measured 3 ferr

/-- PTP_SYNC_RX: a Sync message on a port, with the servo's phase error in ns, the PTP time at the present Tc and the measured
frequency error. Only the selected master's is used. -/
def execPtpSyncRx (port : Nat) (head : PtpHead) (err : Int) (sec ns : Nat) (ferr : Int) (s : State) : Host.Outcome State Fault Refusal :=
  s.did fun b => b.ptpFrame port fun b =>
    if b.ptpTakes port head.dom ∧ b.ptpBest.map (·.id) = some head.src then b.ptpSync err sec ns ferr else b

/-- A master whose announce receipt timeout of three Announce intervals has not come. -/
def PtpMaster.live (m : PtpMaster) (t : Nat) : Bool := decide (t < m.at_ + 3 * m.ivl)

/-- An Announce of the master `m` enters the alternate BMCA; masters that the slave has not selected and that are no longer heard
leave it. -/
def Block.ptpAnnounce (b : Block) (m : PtpMaster) : Block :=
  let best := b.ptpBest.map (·.id)
  b.syn fun y => { y with masters := m :: y.masters.filter fun x => x.id != m.id && (x.live b.t || best == some x.id) }

/-- PTP_ANNOUNCE_RX: an Announce message on a port. -/
def execPtpAnnounceRx (port : Nat) (head : PtpHead) (told : PtpAnnounce) (s : State) : Host.Outcome State Fault Refusal :=
  s.did fun b => b.ptpFrame port fun b =>
    if b.ptpTakes port head.dom then
      b.ptpAnnounce { id := head.src, cls := told.cls, acc := told.acc, var := told.var, prio2 := told.prio2, gm := told.gm,
                      steps := told.steps, at_ := b.t, ivl := told.ivl }
    else b

/-- PTP_ANNOUNCE_TIMEOUT: three Announce intervals of the selected master without an Announce; the masters still heard stay. -/
def execPtpAnnounceTimeout (s : State) : Host.Outcome State Fault Refusal :=
  s.did fun b =>
    match b.ptpBest with
    | some m =>
      b.atElapsed (m.at_ + 3 * m.ivl) fun b =>
        ((b.lose 3).restartSource 3).syn fun y => { y with masters := y.masters.filter fun x => x.live b.t }
    | none => b

/-! ## Steps (R48, R49) -/

/-- A step by `d` is decided: it is applied at the start of the next tick of the old timeline, and but for the first lock
every TDD PBD is squalled. DESIGN CHOICE: while a decided step waits, no other is decided, so that a source switch in that tick
leaves the old source's step to be applied and drops the new one's (log entry 97). -/
def Block.stepDecide (b : Block) (d : Int) (first : Bool) (src : Nat) : Block :=
  match b.sync.step with
  | some _ => b
  | none => b.syn fun y => { y with step := some (d, b.time.tickEnd, first, src), overRun := 0 }

/-- LOCKED is entered, or the source switched (R44, R48): the phase difference is steered or stepped. -/
def Block.lockTo (b : Block) (s : Nat) : Block :=
  let u := U.sync
  let was := b.syncState
  let switched := was == 1 && b.syncSource != s
  let b := (b.setFld u F.SYNC_STAT_STATE 1).setFld u F.SYNC_STAT_SOURCE s
  let b := if was = 1 then b else (b.irq u 16).syn fun y => { y with
    lockStart := b.t, fmStart := b.t, fmSum := 0, fmCount := 0, means := [] }
  let b := b.when switched fun b => b.irq u 17
  let b := (b.syn fun y => { y with overRun := 0, ho := none }).showPhase s
  let d := b.srcDiff s
  if b.overLimit d then b.stepDecide d false s else b

/-- The length of the first tick after a step: to the next multiple of 16,384, merged with the following tick if shorter than
8,192 Tc (R49). -/
def firstTick (air : Nat) : Nat :=
  let gap := tickTc - air % tickTc
  if gap < 8192 then gap + tickTc else gap

/-- A time step and the cellar's interval (R298): it falls in the interval, or gives a new interval's stamp. -/
def Block.celStep (b : Block) : Block :=
  match b.cel.ivFrom with
  | none => b
  | some t =>
    if t = b.t then { b with cel := { b.cel with ivStamp := b.now } }
    else if t + tickTc ≤ b.t then b
    else { b with cel := { b.cel with ivStep := true } }

/-- A time step and the planner: a pending entry comes into force at the end of the tick that the step forms (R49, R67). -/
def Block.planStep (b : Block) : Block :=
  b.each ((Store.view b.pbds).map (·.1)) fun b m =>
    match (b.pbdH m).pendingEntry with
    | some (e, _, started) => b.setPbdH m { b.pbdH m with pendingEntry := some (e, b.time.tickEnd, started) }
    | none => b

/-- TIME_STEP_APPLY. -/
def Block.stepApply (b : Block) : Block :=
  let u := U.sync
  match b.sync.step with
  | some (d, at_, first, src) =>
    if b.t < at_ then b
    else
      let old := b.now
      let air := (((b.time.air : Int) + d) % (airMod : Int)).toNat
      let b := { b with time := { b.time with
        air := air, tickStart := b.t, tickEnd := b.t + firstTick air, cycFrom := (air + 3) / 4 * 4 } }
      let b := (b.waitsStep (tcOf old)).cuesStep.celStep.planStep
      let b := (b.syn fun y => { y with step := none }).setFld u F.SYNC_LAST_STEP_STEP (toCode 64 d)
      let b := ((b.setReg u R.SYNC_STEP_STAMP b.now).incWrap u F.SYNC_STAT_STEPS 1).irq u 18
      let b := b.recEvent 0x04 u [0, old, b.now] [1, 2]
      if first then
        let b := ((b.setFld u F.SYNC_STAT_STATE 1).setFld u F.SYNC_STAT_SOURCE src).setFlag u F.SYNC_STAT_EVER_LOCKED true
        let b := ((b.irq u 16).irq u 22).syn fun y => { y with
          lockStart := b.t, fmStart := b.t, fmSum := 0, fmCount := 0, means := [] }
        let b := if b.ownState u = St.active ∧ b.flag u F.SYNC_STAT_TDD_OK = false then b.setState u St.lull else b
        b.txcRefreshAll.tddHeld
      else b
  | none => b

/-- TIME_STEP_APPLY: a decided step is applied. -/
def execTimeStepApply (s : State) : Host.Outcome State Fault Refusal := s.did fun b => b.stepApply

/-! ## Evaluation at a tick boundary (R43 to R46) -/

/-- Larger of the measured frequency uncertainty and the floor, in 0.01 ppb (R45). SLEW_MAX stands in for the uncertainty of
a short lock only where the CX9 steers (R35; log entry 97). -/
def Block.hoFreq (b : Block) : Nat :=
  let floor := b.fld U.sync F.SYNC_OSC_Y_FLOOR
  if b.t - b.sync.lockStart < 10 * secTc ∧ b.flag U.sync F.SYNC_CFG_DISC = false then
    max floor (b.fld U.sync F.SYNC_STEER_SLEW_MAX * 100)
  else
    let recent := b.sync.means.filter fun x => b.t ≤ x.1 + 100 * secTc
    recent.foldl (fun a x => max a x.2) floor

/-- The selected source is lost and none is qualified (R44, R45). -/
def Block.holdoverStart (b : Block) : Block :=
  let te0 := b.fld U.sync F.SYNC_TE_TE_EST
  let y := b.hoFreq
  ((b.syn fun h => { h with ho := some (te0, b.t, y) }).setFld U.sync F.SYNC_STAT_STATE 2).irq U.sync 16

/-- RESYNC at the boundary: ACQUIRE, and every source meets its criteria again (R44). DESIGN CHOICE: a first-lock step that is
decided and not yet applied is dropped, since its source is no longer qualified; any other decided step stays (log entry
97). -/
def Block.resyncDo (b : Block) : Block :=
  let u := U.sync
  let was := b.syncState
  let b := [1, 2, 3].foldl (fun b s => (b.setFlag u (srcQual s) false).restartSource s) b
  let b := b.syn fun y => { y with
    resync := false, qualAt := [], losses := [], takeover := none, ho := none
    step := match y.step with | some (_, _, true, _) => none | x => x }
  let b := (b.setFld u F.SYNC_STAT_STATE 0).setFld u F.SYNC_STAT_SOURCE 0
  (b.showXchk).when (was != 0) fun b => b.irq u 16

/-- SYNC_EVALUATE (R43, R44): losses before qualifications. DESIGN CHOICE: where the source of a first lock is lost while its
step waits, the step is applied and LOCKED entered, and the loss is taken at a later boundary (log entry 97). -/
def Block.syncEval (b : Block) : Block :=
  let u := U.sync
  if b.sync.resync then b.resyncDo
  else
    let st := b.syncState
    let lost := b.sync.losses.contains b.syncSource && st == 1
    let early := b.sync.step.isSome && !b.everLocked
    let b := if early then b else b.syn fun y => { y with losses := [] }
    if st = 1 then
      if lost then
        let b := b.irq u 20
        match b.bestSource with
        | some s => b.lockTo s
        | none => b.holdoverStart
      else
        match b.sync.takeover with
        | some s =>
          let b := b.syn fun y => { y with takeover := none }
          if b.qual s ∧ b.srcOn s ∧ b.srcRank s < b.srcRank b.syncSource then b.lockTo s else b
        | none =>
          if 3 ≤ b.sync.overRun then b.stepDecide (b.srcDiff b.syncSource) false b.syncSource else b
    else
      match b.bestSource with
      | none => b
      | some s => if b.everLocked then b.lockTo s else b.stepDecide (b.srcDiff s) true s

/-- The one-second means of the frequency error (R45). -/
def Block.freqMeans (b : Block) : Block :=
  if b.syncState = 1 ∧ secTc ≤ b.t - b.sync.fmStart then
    let n := b.sync.fmCount
    let (b, m) := if n = 0 then (b, (0 : Int)) else b.roundFree b.sync.fmSum n
    b.syn fun y => { y with
      fmStart := y.fmStart + secTc, fmSum := 0, fmCount := 0
      means := if n = 0 then y.means else ((y.fmStart + secTc, m.natAbs) :: y.means).take 100 }
  else b

/-- TE_EST_UPDATE (R45). -/
def Block.teUpdate (b : Block) : Block :=
  let u := U.sync
  let top := 4294967295
  match b.syncState, b.sync.ho with
  | 1, _ =>
    b.setFld u F.SYNC_TE_TE_EST (min top ((sext 32 (b.fld u F.SYNC_TE_PHASE)).natAbs + srcBound b.syncSource))
  | 2, some (te0, t0, y) =>
    let t := b.t - t0
    let den := 20000 * secTc * secTc
    let num := te0 * den + y * t * 200 * secTc + b.fld u F.SYNC_OSC_DRIFT * t * t
    let (b, te) := b.roundFree (num : Nat) den
    b.setFld u F.SYNC_TE_TE_EST (min top te.toNat)
  | _, _ => b.setFld u F.SYNC_TE_TE_EST top

/-- HOLDOVER becomes FREE once TE_EST passes FREE_LIM (R44). -/
def Block.freeCheck (b : Block) : Block :=
  let u := U.sync
  if b.syncState = 2 ∧ b.fld u F.SYNC_HO_CFG_FREE_LIM * 1000 < b.fld u F.SYNC_TE_TE_EST then
    (((b.setFld u F.SYNC_STAT_STATE 3).syn fun y => { y with ho := none }).setFld u F.SYNC_TE_TE_EST 4294967295).irq u 16
  else b

/-- The TDD condition (R46, R48, R52): the HOLDOVER cause, TDD_OK and the sync unit's state. -/
def Block.tddCondition (b : Block) : Block :=
  let u := U.sync
  let stepping := match b.sync.step with | some (_, _, first, _) => !first | none => false
  let ok := decide (b.fld u F.SYNC_TE_TE_EST ≤ b.fld u F.SYNC_HO_CFG_BUDGET) && !stepping
  let was := b.flag u F.SYNC_STAT_TDD_OK
  let b := (b.setFlag u F.SYNC_STAT_TDD_OK ok).when (was && !ok) fun b => b.irq u 19
  if b.everLocked = false then b
  else
    let b := b.each (List.range 128) fun b m =>
      let set := (b.fld (U.pbd m) F.PROT_STAT_CAUSE >>> 2) % 2 == 1
      if b.isTdd m ∧ ok = false then (if set then b else b.squall m 2)
      else if set then b.clearHold m 2 else b
    let st := b.ownState u
    if st = St.active ∧ ok = false then b.setState u St.lull
    else if st = St.lull ∧ ok then b.setState u St.active
    else b

/-- The sync unit at a tick boundary. -/
def Block.syncTick (b : Block) : Block :=
  (((b.syncEval).freqMeans).teUpdate).freeCheck.tddCondition

/-! ## The remaining commands -/

/-- The source that takes over next from the selected one, with its hold-off end: of those whose hold-off is over the one of
best priority, else the one whose hold-off ends first (R43). -/
def Block.holdoffDue (b : Block) : Option (Nat × Nat) :=
  if b.syncState ≠ 1 ∨ b.flag U.sync F.SYNC_CFG_AUTO_RETURN = false then none
  else
    let up := b.candidates.filter fun s => b.srcRank s < b.srcRank b.syncSource
    let due := up.map fun s => (s, Store.get 0 b.sync.qualAt s - 1 + b.fld U.sync F.SYNC_STEER_HOLDOFF * secTc)
    let ended := due.filter fun x => decide (x.2 ≤ b.t)
    let before := fun (x y : Nat × Nat) =>
      if ended.isEmpty && x.2 != y.2 then decide (x.2 < y.2) else decide (b.srcRank x.1 < b.srcRank y.1)
    (if ended.isEmpty then due else ended).foldl
      (fun o x => match o with | some p => if before x p then some x else o | none => some x) none

/-- SYNC_HOLDOFF_EXPIRY: the take-over is evaluated at the tick boundary (R43). -/
def execSyncHoldoffExpiry (s : State) : Host.Outcome State Fault Refusal :=
  s.did fun b =>
    match b.holdoffDue with
    | some (src, due) => b.atElapsed due fun b => b.syn fun y => { y with takeover := some src }
    | none => b

/-- RESYNC. -/
def execResync (who : Who) (s : State) : Host.Outcome State Fault Refusal :=
  s.did fun b => b.wr who U.sync F.SYNC_CTRL_RESYNC fun b => b.syn fun y => { y with resync := true }

/-- The tracker's setup is valid (R52). -/
def Block.trkSetupOk (b : Block) : Bool :=
  let u := U.sync
  let p := b.fld u F.SYNC_TRK_CFG_PBD
  let lte := b.flag u F.SYNC_TRK_CFG_RAT
  let scs30 := b.flag u F.SYNC_TRK_CFG_SCS
  let width := if lte then 1080000 else if scs30 then 7200000 else 3600000
  let off := (b.sfld u F.SYNC_TRK_FREQ_OFFSET).natAbs
  decide (0x0100 ≤ p) && decide (p ≤ 0x017E) && p % 2 == 0 && !(lte && scs30) &&
    decide ((2 * off + width) * 50 ≤ 41 * rateHz (b.rateOf (p - 0x0100)))

/-- SYNC_CFG_WRITE: an invalid tracker setup refuses TRK_EN; a source that is disabled is lost. -/
def Block.syncCfg (b : Block) (who : Who) (half : Half) (v : Word) : Block :=
  let u := U.sync
  let was := [1, 2, 3].filter fun s => b.srcOn s
  let bad := halfHas half F.SYNC_CFG_TRK_EN && Word.fld v 0 0 == 1 && !b.srcOn 1 && !b.trkSetupOk
  let b := b.putReg who u R.SYNC_CFG half v (if bad then [F.SYNC_CFG_TRK_EN] else [])
  let b := b.when bad fun b => b.corrected u C.syncCfg
  let b := (was.filter fun s => !b.srcOn s).foldl (fun b s => (if s = 2 then b.ppsLost else b.lose s).restartSource s) b
  let b := if b.srcOn 3 then b else b.syn fun y => { y with masters := [] }
  let b := b.trackerTakes
  let b := if b.srcOn 1 then b else b.setFld u F.SYNC_TRK_STAT_MISSES 0
  b.when (b.flag u F.SYNC_CFG_DISC) fun b => b.setFld u F.SYNC_TUNE_PDM 0

/-- A write of SYNC_PTP_CFG: another slave port or domain has heard no master yet (R41). -/
def Block.ptpCfg (b : Block) (who : Who) (half : Half) (v : Word) : Block :=
  let at_ := fun (b : Block) => (b.fld U.sync F.SYNC_PTP_CFG_PORT, b.fld U.sync F.SYNC_PTP_CFG_DOMAIN)
  let b' := b.putReg who U.sync R.SYNC_PTP_CFG half v []
  if at_ b' = at_ b then b' else b'.syn fun y => { y with masters := [] }

/-- SYNC_CFG_WRITE. -/
def execSyncCfgWrite (who : Who) (half : Half) (v : Word) (s : State) : Host.Outcome State Fault Refusal :=
  s.did fun b => b.wrReg who U.sync R.SYNC_CFG half fun b => b.syncCfg who half v

/-- OPSEC_SECOND: OPSEC counts up while AO is powered. -/
def execOpsecSecond (s : State) : Host.Outcome State Fault Refusal :=
  s.did fun b => if b.host.aoOff then b else
    let n := (b.sync.opsec + 1) % 2 ^ 40
    (b.syn fun y => { y with opsec := n }).setFld U.sync F.SYNC_OPSEC_OPSEC n

/-- A write of SYNC_WALL (R51). -/
def Block.wallWrite (b : Block) (who : Who) (half : Half) (v : Word) : Block :=
  let u := U.sync
  let old := b.fld u F.SYNC_WALL_OFFSET
  let set := b.fld u F.SYNC_WALL_SET
  let b := (b.putReg who u R.SYNC_WALL half v []).setFlag u F.SYNC_WALL_SET true
  let new := b.fld u F.SYNC_WALL_OFFSET
  if new = old then b
  else b.recEvent 0x03 u [BitVec.ofNat 64 (set <<< 16), BitVec.ofInt 64 (sext 48 old), BitVec.ofInt 64 (sext 48 new)] []

/-- SYNC_WALL_WRITE. -/
def execSyncWallWrite (who : Who) (half : Half) (v : Word) (s : State) : Host.Outcome State Fault Refusal :=
  s.did fun b => b.wrReg who U.sync R.SYNC_WALL half fun b => b.wallWrite who half v

end Sys2Proof.Machine
end

