-- ==== Sys2Proof/Machine/Protection.lean ====
section
/-! DEFINITION.
Network protection (chapter 08): the detectors that squall a PBD (R191, R193, R195, R196), the squall commands (R187 to R190,
R197), restart and probation (R198 to R200), the noise-rise guard (R201, R202), the direction of protection writes (R194,
R203) and first light (R204). -/
namespace Sys2Proof.Machine

/-! ## Oscillation detector (R191) -/

/-- Blocks in a window, by rate class. -/
def oscBlocks (r : Nat) : Nat := match r with | 4 => 112 | 3 => 56 | 2 => 28 | 1 => 14 | _ => 7

/-- Some sub-band has grown by at least `grow` over its least power within the window, input-referred. -/
def oscGrown (grow : Int) (now : List Nat) (gNow : Int) (window : List (List Nat × Int)) : Bool :=
  window.any fun w => (now.zip w.1).any fun x => decide (0 < x.1) && dbLe (grow + gNow - w.2) x.1 x.2

/-- The 64th power of geometric over arithmetic mean of 64 powers, as numerator and denominator. -/
def flatness (l : List Nat) : Nat × Nat := (l.foldl (· * ·) 1 * 64 ^ 64, l.sum ^ 64)

/-- The flatness of a block lies at least `flat` below the window's mean, compared exactly in dB. -/
def oscPeaked (flat : Nat) (now : List Nat) (window : List (List Nat × Int)) : Bool :=
  let n : Nat := window.length
  let q : Nat × Nat := flatness now
  let num : Nat := (window.map fun w => (flatness w.1).1).foldl (· * ·) 1
  let den : Nat := (window.map fun w => (flatness w.1).2).foldl (· * ·) 1
  let lhs : Nat := (q.1 ^ n * den) ^ 10 * 10 ^ (n * flat)
  let rhs : Nat := (q.2 ^ n * num) ^ 10
  decide (0 < num) && decide (lhs ≤ rhs)

/-- Length B of a block in Tc: 256 samples. -/
def Block.oscLen (b : Block) (m : Nat) : Nat := 256 * sampleTc (b.rateOf m)

/-- End of the block that is decided next. Blocks end at multiples of B (DESIGN CHOICE, log entry 102); after blocks that nobody
reported they go on from the present one. -/
def Block.oscEnd (b : Block) (m : Nat) : Nat :=
  let n := b.oscLen m
  let h := (b.pbdH m).osc
  if h.last ≠ 0 ∧ b.t ≤ h.last + n + 1024 then h.last + n else (b.t + (n - 1)) / n * n

/-- The detector is on. -/
def Block.oscOn (b : Block) (m : Nat) : Bool := b.pbdOn m && b.flag (U.pbd m) F.PROT_CFG_OSC_EN

/-- The block that ends at elapsed `e` is decided, with its 64 powers: a gated or silent sample empties the window. -/
def Block.oscDecide (b : Block) (m e : Nat) (powers : List Nat) : Block :=
  let u := U.pbd m
  let h := b.pbdH m
  if b.outShut m (e - b.oscLen m) e then b.setPbdH m { h with osc := { OscH.init with last := e } }
  else
    let full := oscBlocks (b.rateOf m)
    let w := if h.osc.last + b.oscLen m = e then h.osc.window else []
    let g := b.gainAt m e
    let trip := w.length == full && oscGrown (b.fld u F.PROT_OSC_GROW) powers g w && oscPeaked (b.fld u F.PROT_OSC_FLAT) powers w
    let b := b.setPbdH m { h with osc := { window := ((powers, g) :: w).take full, last := e } }
    if trip then b.squall m 0 else b

/-- Powers of the 64 sub-bands summed over the transmit slots (R191). -/
def subBands (slots : List (List Nat)) : List Nat := (List.range 64).map fun j => (slots.map fun x => x.getD j 0).sum

/-- OSC_BLOCK: a block has ended, and the detector decides `delay` Tc later, at most 1,024: that Tc is M. -/
def execOscBlock (m : Nat) (slots : List (List Nat)) (delay : Nat) (s : State) : Host.Outcome State Fault Refusal :=
  s.did fun b =>
    if b.oscOn m then
      let e := b.oscEnd m
      b.atElapsed (max b.t (e + min delay 1024)) fun b => b.oscDecide m e (subBands slots)
    else b.setPbdH m { b.pbdH m with osc := OscH.init }

/-! ## Emission watch (R195) -/

/-- The centre of bin `k` lies outside the instances of a TXC: more than 0.41 × rate + 4.8 MHz from the transmit NCO of each (R57). -/
def Block.binOut (b : Block) (insts : List (Nat × Nat)) (k : Nat) : Bool :=
  insts.all fun x =>
    let f : Int := ((b.pbdH x.1).ncoTx * 300000 : Nat)
    let c : Int := (k * 4800000 * 2 ^ 32 : Nat)
    decide ((41 * rateHz (b.rateOf x.1) + 480000000) * 2 ^ 32 < (c - f).natAbs * 100)

/-- The out-of-band power of a block: the bins from 0.4 to 7.2 GHz outside the instances on the observed TXC. -/
def Block.oobPower (b : Block) (k : Nat) (bins : List Nat) : Nat :=
  ((bins.zipIdx.filter fun x => 84 ≤ x.2 && x.2 ≤ 1500 && b.binOut (b.txcH k).insts x.2).map (·.1)).sum

/-- End of the next block of 2,048 Tc: blocks end at its multiples (DESIGN CHOICE, log entry 102). -/
def Block.emwEnd (b : Block) (o : Nat) : Nat :=
  let l := (b.orxH o).emwAt
  if l ≠ 0 ∧ b.t ≤ l + 2048 then l + 2048 else (b.t + 2047) / 2048 * 2048

/-- The watch of ORX `o` runs: EN is set and the ORX steps through its table. -/
def Block.emwOn (b : Block) (o : Nat) : Bool := b.flag (U.orx o) F.ORX_EMW_CFG_EN && (b.orxH o).ticksLeft != 0

/-- Every sample of the block that ends at elapsed `e` is valid: the entry stood throughout, settled, with TX_OFF = 0. -/
def Block.emwValid (b : Block) (o e : Nat) : Bool :=
  let h := b.orxH o
  let lo := e - 2048
  (match h.settles with | x :: _ => x.1 ≤ lo | [] => true) && !spanHit h.settles lo e && !spanHit h.txOffs lo e &&
    (match h.offFrom with | some t => decide (e ≤ t) | none => true)

/-- A block ends now with an out-of-band power of `num`/`den` of ORX full scale. An unevaluated one neither counts nor breaks a run. -/
def Block.emwBlock (b : Block) (o num den : Nat) : Block :=
  let u := U.orx o
  let e := b.fld u F.ORX_STAT_ENTRY
  let valid := b.emwValid o b.t
  let b := b.setOrxH o { b.orxH o with emwAt := b.t }
  if valid = false ∨ b.flag u (F.ORX_EMW_LIM_V e) = false then b
  else
    let (b, level) := b.dbfs num den
    let run := if b.fld u F.ORX_EMW_STAT_ENTRY = e then b.fld u F.ORX_EMW_STAT_RUN else 0
    let above := decide (b.sfld u (F.ORX_EMW_LIM_LIMIT e) < level)
    let run := if above then min 15 (run + 1) else 0
    let b := ((b.setFld u F.ORX_EMW_STAT_OOB (dbCode level)).setFld u F.ORX_EMW_STAT_ENTRY e).setFld u F.ORX_EMW_STAT_RUN run
    if above ∧ max 1 (b.fld u F.ORX_EMW_CFG_N) ≤ run then
      let k := b.fld u F.ORX_STAT_TXC
      let ms := (List.range 128).filter fun m => (b.txcH k).insts.any fun x => x.1 == m
      ((b.incWrap u F.ORX_EMW_STAT_TRIPS 1).irq u 18).each ms fun b m => b.squall m 3
    else b

/-- EMW_BLOCK: the spectrum of a block that ends, `bins` by centre frequency in steps of 4.8 MHz from 0, where `full` is 0 dBFS. -/
def execEmwBlock (o : Nat) (bins : List Nat) (full : Nat) (s : State) : Host.Outcome State Fault Refusal :=
  s.did fun b =>
    if b.emwOn o then
      b.atElapsed (b.emwEnd o) fun b => b.emwBlock o (b.oobPower (b.fld (U.orx o) F.ORX_STAT_TXC) bins) full
    else b

/-! ## Donor overload (R73, R196) -/

/-- The tick that ends is counted as clipped or clean, and the next begins clipped while flagged samples go on. -/
def Block.clipTick (b : Block) (m : Nat) : Block :=
  let u := U.pbd m
  let h := b.pbdH m
  let b := if h.clippedTick then
      (b.incSat u F.PROT_STAT_OVL_RUN 1).setPbdH m { h with clipRun := h.clipRun + 1, cleanRun := 0, clippedTick := false }
    else (b.setFld u F.PROT_STAT_OVL_RUN 0).setPbdH m { h with clipRun := 0, cleanRun := h.cleanRun + 1 }
  match (b.pbdH m).clipUntil with
  | some t =>
    if b.t < t then (b.incWrap u F.PBD_STAT_CLIP_TICKS 1).setPbdH m { b.pbdH m with clippedTick := true }
    else b.setPbdH m { b.pbdH m with clipUntil := none }
  | none => b

/-- OVERLOAD_TRIP: OVL_RUN has reached its trip point with the tick that has just ended; M is that Tc. -/
def execOverloadTrip (m : Nat) (s : State) : Host.Outcome State Fault Refusal :=
  s.did fun b =>
    let u := U.pbd m
    if b.flag u F.PROT_CFG_OVL_EN ∧ b.t = b.time.tickStart ∧ b.fld u F.PROT_STAT_OVL_RUN = 4 + b.fld u F.PROT_CFG_OVL_TICKS ∧
        b.fld u F.PROT_STAT_CAUSE / 16 % 2 = 0 then b.squall m 4
    else b

/-! ## Squall commands (R187 to R190, R197) -/

/-- SQUALL_SEQ_STEP: the earliest step of the sequence of PBD `m`, or of the module for `m` = 128 (R100, R188). -/
def execSquallSeqStep (m : Nat) (s : State) : Host.Outcome State Fault Refusal :=
  s.did fun b =>
    if m < 128 then
      match (b.pbdH m).sqSeq with
      | [] => b
      | (t, _) :: rest => b.atElapsed t fun b => b.setPbdH m { b.pbdH m with sqSeq := rest, osc := OscH.init }
    else
      match b.root.seq with
      | [] => b
      | (t, st) :: rest => b.atElapsed t fun b =>
        let b := { b with root := { b.root with seq := rest } }
        match st with
        | .silent => b
        | .switches => b.strobesDown

/-- SQUALL. -/
def execSquall (who : Who) (m : Nat) (s : State) : Host.Outcome State Fault Refusal :=
  s.did fun b => b.wrFree who (U.pbd m) F.PROT_CTRL_SQUALL fun b => b.squall m 6

/-- Causes HOST and CUE of PBD `m` clear, but for a squall of this Tc (R254). -/
def Block.unsquall (b : Block) (m : Nat) : Block :=
  if b.overridden (U.pbd m) F.PROT_CTRL_UNSQUALL then b else (b.clearHold m 6).clearHold m 7

/-- UNSQUALL: for system privilege only. -/
def execUnsquall (who : Who) (m : Nat) (s : State) : Host.Outcome State Fault Refusal :=
  s.did fun b => b.wr who (U.pbd m) F.PROT_CTRL_UNSQUALL fun b => if whoSys who then b.unsquall m else b.privRefused m

/-- MODULE_SQUALL. -/
def execModuleSquall (who : Who) (s : State) : Host.Outcome State Fault Refusal :=
  s.did fun b => b.wrFree who 0 F.ROOT_SQUALL_SQUALL fun b => b.moduleSquall F.ROOT_SQUALL_HOST false

/-- Module causes HOST and CUE clear, but for a module squall of this Tc (R254). -/
def Block.moduleUnsquall (b : Block) (who : Who) : Block :=
  if b.overridden 0 F.ROOT_SQUALL_UNSQUALL then b
  else if whoSys who then ((b.setFlag 0 F.ROOT_SQUALL_HOST false).setFlag 0 F.ROOT_SQUALL_CUE false).moduleEnd
  else b.correctedBy who 0 C.priv

/-- MODULE_UNSQUALL: for system privilege only. -/
def execModuleUnsquall (who : Who) (s : State) : Host.Outcome State Fault Refusal :=
  s.did fun b => b.wr who 0 F.ROOT_SQUALL_UNSQUALL fun b => b.moduleUnsquall who

/-- MUTE_N_LOW: the level has been taken; the present Tc is M, 8 Tc after the falling edge. In reset only the level is kept. -/
def execMuteNLow (s : State) : Host.Outcome State Fault Refusal :=
  s.did fun b =>
    let b := { b with root := { b.root with muteLow := true, muteRel := false } }
    if b.inReset ∨ b.flag 0 F.ROOT_SQUALL_MUTE_N then b else b.moduleSquall F.ROOT_SQUALL_MUTE_N false

/-- MUTE_N_RELEASE: MUTE_N has been high for 16,384 Tc; the cause clears at the next tick boundary. -/
def execMuteNRelease (s : State) : Host.Outcome State Fault Refusal :=
  s.did fun b => if b.root.muteLow then { b with root := { b.root with muteRel := true } } else b

/-- MUTE_N at a tick boundary. -/
def Block.muteTick (b : Block) : Block :=
  if b.root.muteRel then
    (({ b with root := { b.root with muteLow := false, muteRel := false } }).setFlag 0 F.ROOT_SQUALL_MUTE_N false).moduleEnd
  else b

/-! ## Restart (R198 to R200) -/

/-- A restart is allowed now: no hold cause is set and DUE has come. -/
def Block.restartOk (b : Block) (m : Nat) : Bool :=
  let u := U.pbd m
  let due := b.reg u R.PROT_DUE
  b.squalled m && b.fld u F.PROT_STAT_CAUSE &&& holdMask == 0 && due != BitVec.allOnes 64 && tcOf due ≤ b.time.air &&
    b.ownState u != St.fenced && b.ownState u != St.failed

/-- A RESTART reaches PBD `m`. -/
def Block.restartAsk (b : Block) (m : Nat) : Block :=
  if b.restartOk m then b.setPbdH m { b.pbdH m with restartReq := true } else b.pbdRefused m C.restartEarly

/-- RESTART: for system privilege only. -/
def execRestart (who : Who) (m : Nat) (s : State) : Host.Outcome State Fault Refusal :=
  s.did fun b => b.wr who (U.pbd m) F.PROT_CTRL_RESTART fun b => if whoSys who then b.restartAsk m else b.privRefused m

/-- RESTART_DUE: the system runtime issues RESTART at DUE. -/
def execRestartDue (m : Nat) (s : State) : Host.Outcome State Fault Refusal :=
  s.did fun b =>
    let u := U.pbd m
    let due := b.reg u R.PROT_DUE
    if b.flag u F.PROT_CFG_AUTO_RST = false ∨ b.squalled m = false ∨ due = BitVec.allOnes 64 ∨ b.flag 0 F.FLT_MODE_FATAL then b
    else
      let at_ := if tcOf due ≤ b.time.air then b.t else b.elapsedOfAir (tcOf due)
      if at_ ≤ b.time.tickEnd then
        let b := b.advanceTo at_
        if b.restartOk m then b.restartAsk m else b
      else b

/-- The PBD before a restart of this Tc is noted, in case a squall of the Tc prevails (R189). -/
def Block.restartNote (b : Block) (m : Nat) : Block :=
  let r : Restarted := {
    pbd := m, at_ := b.t, was := b.pbdH m
    regs := [R.PROT_STAT, R.PROT_DUE, R.LOOP_PBD_STAT, R.LOOP_PBD_OUT, R.PBD_GAIN, R.UNIT_IRQ_STAT].map fun off => (off, b.reg (U.pbd m) off)
    running := [1, 3, 6, 7].map fun l => (l, (b.slotH m l).running) }
  { b with loop := { b.loop with restarted := r :: b.loop.restarted.filter fun x => x.at_ == b.t && x.pbd != m } }

/-- A restart attempt takes effect at a tick boundary A (R199). -/
def Block.restartAt (b : Block) (m : Nat) : Block :=
  let u := U.pbd m
  let cold := b.coldGain m
  let b := b.restartNote m
  let b := (b.setFld u F.PROT_STAT_CAUSE (b.fld u F.PROT_STAT_CAUSE &&& holdMask)).setFlag u F.PROT_STAT_SQUALL false
  let b := (b.setReg u R.PROT_DUE (BitVec.allOnes 64)).setFlag u F.PROT_STAT_PROBATION true
  let b := b.setPbdH m { b.pbdH m with
    restartReq := false, reenter := false, sqSeq := [], probEnd := none, gPrev := some cold, gainPending := none, winPending := none, winNext := none
    rampStart := false, rampFine := some (cold * 1024), osc := OscH.init }
  let b := (b.setFlag u F.LOOP_PBD_STAT_RAMP true).setFld u F.LOOP_PBD_OUT_RAMP (dbCode cold)
  let b := b.each [1, 3, 6, 7] fun b l => b.setSlotH m l { b.slotH m l with running := false }
  let b := if b.pbdOn m then (b.setFld u F.PBD_GAIN_CMD (dbCode cold)).showGain m else b
  (b.irq u 29).txcRefreshAll

/-- RESTART_ATTEMPT: the first tick boundary at or after the RESTART, or after a re-entry (R199, R200). -/
def execRestartAttempt (m : Nat) (s : State) : Host.Outcome State Fault Refusal :=
  s.did fun b =>
    let u := U.pbd m
    let h := b.pbdH m
    if b.t ≠ b.time.tickStart ∨ b.flag 0 F.FLT_MODE_FATAL then b
    else if (h.restartReq ∧ b.squalled m) ∨ (h.reenter ∧ b.ownState u = St.active) then
      if b.fld u F.PROT_STAT_CAUSE &&& holdMask = 0 ∧ b.overridden u F.PROT_CTRL_RESTART = false then b.restartAt m
      else b.setPbdH m { h with restartReq := false, reenter := h.reenter && !b.overridden u F.PROT_CTRL_RESTART }
    else b

/-- Probation runs from the end of the ramp for PROB seconds (R200). -/
def Block.probationTick (b : Block) (m : Nat) : Block :=
  let u := U.pbd m
  let h := b.pbdH m
  if b.flag u F.PROT_STAT_PROBATION ∧ h.probEnd.isNone ∧ h.rampFine.isNone ∧ h.rampStart = false then
    b.setPbdH m { h with probEnd := some (b.t + max 1 (b.fld u F.PROT_CFG_PROB) * secTc) }
  else b

/-- PROBATION_END: FAILS returns to 0. -/
def execProbationEnd (m : Nat) (s : State) : Host.Outcome State Fault Refusal :=
  s.did fun b =>
    match (b.pbdH m).probEnd with
    | some t => b.atElapsed t fun b =>
      ((b.setPbdH m { b.pbdH m with probEnd := none }).setFlag (U.pbd m) F.PROT_STAT_PROBATION false).setFld (U.pbd m)
        F.PROT_STAT_FAILS 0
    | none => b

/-- An unfence of PBD `m` passed its self-test: FAILS returns to 0, and the PBD re-enters as at A once it is ACTIVE (R200). -/
def Block.pbdUnfenced (b : Block) (m : Nat) : Block :=
  let b := b.setFld (U.pbd m) F.PROT_STAT_FAILS 0
  b.setPbdH m { b.pbdH m with reenter := true, fencedBy := 0 }

/-! ## Noise-rise guard (R201, R202) -/

/-- The tracker's path loss is fresh. -/
def Block.plFresh (b : Block) : Bool :=
  b.qual 1 && (match b.sync.crcAt with | some t => decide (b.t ≤ t + 200 * msTc) | none => false)

/-- The path loss of the tracker (R201). -/
def Block.plTracker (b : Block) (m : Nat) : Option Int :=
  let u := U.pbd m
  (b.db U.sync F.SYNC_TRK_STAT_RSRP).map fun rsrp =>
    b.sfld u F.PROT_NRG_CFG_SSB_PWR - (rsrp - b.sfld u F.PROT_NRG_PATH_DN_RX_GAIN) + b.sfld u F.PROT_NRG_PATH_PL_OFS

/-- The path loss of PBD `m` becomes stale. -/
def Block.nrgStale (b : Block) (m : Nat) : Block :=
  let u := U.pbd m
  if b.flag u F.PROT_NRG_STAT_STALE then b
  else (b.setPbdH m { b.pbdH m with nrg := { (b.pbdH m).nrg with staleAt := some b.t } }).setFlag u F.PROT_NRG_STAT_STALE true
    |>.irq u 31

/-- The path loss in use at a tick boundary (R202). -/
def Block.pathLoss (b : Block) (m : Nat) : Block × Option Int :=
  let u := U.pbd m
  if b.flag u F.PROT_NRG_PATH_SRC then
    let b := (b.setFlag u F.PROT_NRG_STAT_STALE false).setFlag u F.PROT_NRG_STAT_AT_MIN false
    (b.setPbdH m { b.pbdH m with nrg := { (b.pbdH m).nrg with staleAt := none } }, some (b.sfld u F.PROT_NRG_HOST_PL_HOST))
  else if b.plFresh then
    let pl := (b.plTracker m).map fun x => max (-32767) (min 32767 x)
    let b := (b.setFlag u F.PROT_NRG_STAT_STALE false).setFlag u F.PROT_NRG_STAT_AT_MIN false
    (b.setPbdH m { b.pbdH m with nrg := { fresh := pl, staleAt := none } }, pl)
  else
    let b := b.nrgStale m
    let h := (b.pbdH m).nrg
    match h.fresh with
    | none => (b, none)
    | some p0 =>
      let low := b.sfld u F.PROT_NRG_PATH_PL_MIN
      let (b, pl) :=
        if p0 ≤ low then (b, p0)
        else
          let t := min (b.t - h.staleAt.getD b.t) (10 * secTc)
          let (b, d) := b.roundFree ((p0 - low) * t) (10 * secTc)
          (b, p0 - d)
      (b.setFlag u F.PROT_NRG_STAT_AT_MIN (decide (pl ≤ low)), some pl)

/-- NRG_COMPUTE (R201): PL, m and sp of an UL PBD with L1 enabled; m and sp go to L1. -/
def Block.nrgCompute (b : Block) (m : Nat) : Block × Option (Int × Int) :=
  let u := U.pbd m
  if isUl m = false ∨ b.actFlag u (F.LOOP_CTRL_EN 1) = false then (b, none)
  else
    let (b, pl) := b.pathLoss m
    let cl : Int → Int := fun x => max (-32767) (min 32767 x)
    let sp := cl (-11136 + b.sfld u F.PROT_NRG_CFG_DONOR_NF - b.sfld u F.PROT_NRG_CFG_MARGIN)
    let mm : Option Int := match pl, b.db u F.PBD_GAIN_CMD with
      | some p, some g => some (cl (-11136 + b.sfld u F.PROT_NRG_CFG_UL_NF + g - p))
      | _, _ => none
    let b := ((b.setDb u F.PROT_NRG_STAT_PL pl).setDb u F.PROT_NRG_STAT_N_ARR mm).setDb u F.PROT_NRG_STAT_LIMIT (some sp)
    (b, mm.map fun x => (x, sp))

/-- NRG_PL_STALE: no burst with CRC_OK in 200 ms, or the tracker is not qualified. -/
def execNrgPlStale (m : Nat) (s : State) : Host.Outcome State Fault Refusal :=
  s.did fun b =>
    let u := U.pbd m
    if isUl m = false ∨ b.flag u F.PROT_NRG_PATH_SRC ∨ b.actFlag u (F.LOOP_CTRL_EN 1) = false then b
    else if b.qual 1 then
      match b.sync.crcAt with
      | some t => b.atElapsed (t + 200 * msTc + 1) fun b => b.nrgStale m
      | none => b.nrgStale m
    else b.nrgStale m

/-! ## Protection writes (R194, R203) -/

/-- The way in which a field may move only by system privilege. -/
inductive Guard where
  | raise | lower | change
  deriving DecidableEq, Repr

/-- The guarded fields of a register, whether they are signed, and the direction kept for system privilege (R203). -/
def guardRows (u off : Nat) : List (Fld × Bool × Guard) :=
  if kindOf u = 0x05 then
    if off = R.PROT_CFG then
      [(F.PROT_CFG_OSC_EN, false, .lower), (F.PROT_CFG_MARGIN_EN, false, .lower), (F.PROT_CFG_OVL_EN, false, .lower),
       (F.PROT_CFG_AUTO_RST, false, .raise), (F.PROT_CFG_PROB, false, .lower), (F.PROT_CFG_M_SQUALL, false, .lower),
       (F.PROT_CFG_OVL_TICKS, false, .raise)]
    else if off = R.PROT_OSC then [(F.PROT_OSC_GROW, false, .raise), (F.PROT_OSC_FLAT, false, .raise)]
    else if off = R.PROT_NRG_CFG then
      [(F.PROT_NRG_CFG_MARGIN, true, .lower), (F.PROT_NRG_CFG_UL_NF, true, .lower), (F.PROT_NRG_CFG_SSB_PWR, true, .raise),
       (F.PROT_NRG_CFG_DONOR_NF, true, .raise)]
    else if off = R.PROT_NRG_PATH then
      [(F.PROT_NRG_PATH_DN_RX_GAIN, true, .raise), (F.PROT_NRG_PATH_PL_OFS, true, .raise),
       (F.PROT_NRG_PATH_PL_MIN, true, .raise), (F.PROT_NRG_PATH_SRC, false, .change)]
    else if off = R.PROT_NRG_HOST then [(F.PROT_NRG_HOST_PL_HOST, true, .raise)]
    else if off = R.PROT_FL_CFG then [(F.PROT_FL_CFG_ISO_PROV, true, .change)]
    else []
  else if kindOf u = 0x0E then
    if off = R.ORX_EMW_CFG then [(F.ORX_EMW_CFG_EN, false, .lower), (F.ORX_EMW_CFG_N, false, .raise)]
    else if 0x100 ≤ off ∧ off ≤ 0x178 ∧ off % 8 = 0 then
      [(F.ORX_EMW_LIM_V ((off - 0x100) / 8), false, .lower), (F.ORX_EMW_LIM_LIMIT ((off - 0x100) / 8), true, .raise)]
    else []
  else []

/-- A write would move a guarded field in the direction kept for system privilege. -/
def Block.guarded (b : Block) (u off : Nat) (half : Half) (v : Word) : Bool :=
  (guardRows u off).any fun x =>
    let (f, signed, g) := x
    let w := f.hi + 1 - f.lo
    let new := (clampedFld u f (halfMerge half (b.reg u off) v)).1
    let old := b.fld u f
    let (o, n) : Int × Int := if signed then (sext w old, sext w new)
      else if f = F.PROT_CFG_PROB ∨ f = F.ORX_EMW_CFG_N then ((max 1 old : Nat), (max 1 new : Nat)) else (old, new)
    halfHas half f && (match g with | .raise => decide (o < n) | .lower => decide (n < o) | .change => decide (o ≠ n))

/-- A write of a protection register of a PBD or an ORX: refused as R159 states, or by R194, or plain. -/
def Block.protWrite (b : Block) (who : Who) (u off : Nat) (half : Half) (v : Word) : Block :=
  if whoSys who = false ∧ b.guarded u off half v then
    if kindOf u = 0x05 then b.privRefused (unitIndex u) else b.corrected u C.priv
  else if kindOf u = 0x05 ∧ off = R.PROT_CFG ∧ halfHas half F.PROT_CFG_M_SQUALL ∧
      mMinOk (clampedFld u F.PROT_CFG_M_SQUALL v).1 (b.sfld u (F.LOOP_SETPT_SETPT 0)) = false then b.pbdRefused (unitIndex u) C.cfgProt
  else
    let b := b.putReg who u off half v []
    if kindOf u = 0x05 ∧ off = R.PROT_CFG ∧ b.flag u F.PROT_CFG_OSC_EN = false then
      b.setPbdH (unitIndex u) { b.pbdH (unitIndex u) with osc := OscH.init } else b

/-! ## First light (R204) -/

/-- A loop field takes a value that is in force at once. -/
def Block.loopNow (b : Block) (u : Nat) (f : Fld) (n : Nat) : Block :=
  let b := b.setFld u f n
  let k := regKey u f.off
  { b with loop := { b.loop with act := Store.set (regReset u f.off) b.loop.act k (Word.setFld (b.act u f.off) f.hi f.lo n) } }

/-- Lanes that first light holds READY start (R121, R204). -/
def Block.laneFree (b : Block) (m : Nat) : Block :=
  b.each (((Store.view b.lanes).filter fun x => x.2.flHeld && b.lanePbd x.1 == m).map (·.1)) fun b i =>
    let b := b.setLaneH i { b.laneH i with flHeld := false }
    if b.flag (U.lane i) F.UNIT_CTRL_ENABLE ∧ b.ownState (U.lane i) = St.ready ∧ b.laneConfig i = none then b.laneStart i else b

/-- First light fails: the PBD is squalled with cause HOST. -/
def Block.flFail (b : Block) (m result code : Nat) : Block :=
  let b := ((b.setFld (U.pbd m) F.PROT_FL_STAT_RESULT result).setFlPhase m 5).squall m 6
  b.corrected (U.pbd m) code

/-- The first emission of the module: EMIT_MS takes the whole ms since the release (R440, R444). -/
def Block.emitMs (b : Block) : Block :=
  if b.fld 0 F.HOST_BOOT_EMIT_MS = 0xFFFF then b.setFld 0 F.HOST_BOOT_EMIT_MS (min 0xFFFE ((b.t - b.host.releaseAt) / msTc)) else b

/-- MEASURE begins. -/
def Block.flMeasure (b : Block) (m : Nat) : Block :=
  let b := b.emitMs
  let u := U.pbd m
  let fl := (b.pbdH m).fl
  let b := if fl.kept then b else b.setFld u F.PBD_PROBE_ISO_ISO_PASSIVE (b.fld u F.PROT_FL_CFG_ISO_PROV)
  let cap := match fl.cap with
    | some c => c
    | none => (b.fld u (F.LOOP_SETPT_SETPT 4), b.flag u (F.LOOP_CTRL_EN 4))
  let gain := b.extGain m (b.fld u F.PBD_PLAN_EXT_INIT)
  let b := (b.loopNow u (F.LOOP_SETPT_SETPT 4) (toCode 16 gain)).loopNow u (F.LOOP_CTRL_EN 4) 1
  let b := b.setPbdH m { b.pbdH m with fl := { start := b.t, cap := some cap, leastIso := none, kept := fl.kept, endDue := false } }
  let b := (b.setFld u F.PROT_FL_STAT_PUBS 0).setFlag u F.PBD_PROBE_CFG_EN true
  let b := b.each ((List.range 264).filter fun i => b.lanePbd i == m && b.inService (U.lane i)) fun b i =>
    let b := (b.quietLane i).setLaneState i St.ready
    b.setLaneH i { b.laneH i with flHeld := true }
  b.setFlPhase m 1

/-- FIRST_LIGHT_START and the other moves of first light at a tick boundary. -/
def Block.flTick (b : Block) (m : Nat) : Block :=
  let u := U.pbd m
  let fl := (b.pbdH m).fl
  match b.fld u F.PROT_FL_STAT_PHASE with
  | 0 =>
    if b.ownState u = St.active ∧ b.squalled m = false ∧ b.flag u F.PROT_FL_STAT_MEASURED = false ∧ b.everLocked then
      if b.extGain m (b.fld u F.PBD_PLAN_EXT_INIT) ≤ b.sfld u F.PROT_FL_CFG_ISO_PROV - b.mMin m then b.flMeasure m
      else b.flFail m 1 C.flGain
    else b
  | 2 =>
    if fl.endDue then
      let b := match fl.cap with
        | some (v, en) => (b.loopNow u (F.LOOP_SETPT_SETPT 4) v).loopNow u (F.LOOP_CTRL_EN 4) (bit en)
        | none => b
      ((b.setPbdH m { b.pbdH m with fl := { (b.pbdH m).fl with cap := none, endDue := false, kept := false } }).setFlPhase m 3).rampStart m
    else b
  | 3 =>
    let h := b.pbdH m
    if b.squalled m = false ∧ h.rampStart = false ∧ h.rampFine.isNone then b.setFlPhase m 4 else b
  | _ => b

/-- Lanes held by a MEASURE that is over are free at the boundary. -/
def Block.laneFreeTick (b : Block) : Block :=
  b.each (((Store.view b.lanes).filter fun x => x.2.flHeld).map fun x => b.lanePbd x.1) fun b m =>
    if b.fld (U.pbd m) F.PROT_FL_STAT_PHASE = 1 then b else b.laneFree m

/-- A publication counts for first light (R204). -/
def Block.flPublish (b : Block) (m : Nat) : Block :=
  let u := U.pbd m
  if b.fld u F.PROT_FL_STAT_PHASE ≠ 1 then b
  else
    let margin := b.sfld u F.PBD_PROBE_STAT_MARGIN
    if margin < b.mMin m then b.flFail m 2 C.flIso
    else
      let iso := b.sfld u F.PBD_PROBE_STAT_ISO_EST
      let fl := (b.pbdH m).fl
      let least := match fl.leastIso with | some x => min x iso | none => iso
      let n := b.fld u F.PROT_FL_STAT_PUBS + 1
      let b := (b.setFld u F.PROT_FL_STAT_PUBS n).setPbdH m { b.pbdH m with fl := { fl with leastIso := some least } }
      if max 1 (b.fld u F.PROT_FL_CFG_FL_PUBS) ≤ n then
        let b := (b.setFld u F.PBD_PROBE_ISO_ISO_PASSIVE (dbCode least)).setFlag u F.PROT_FL_STAT_MEASURED true
        let b := b.setPbdH m { b.pbdH m with fl := { (b.pbdH m).fl with start := b.t, endDue := false } }
        (b.setFlPhase m 2).laneFree m
      else b

/-- FL_MEASURE_TIMEOUT. -/
def execFlMeasureTimeout (m : Nat) (s : State) : Host.Outcome State Fault Refusal :=
  s.did fun b =>
    if b.fld (U.pbd m) F.PROT_FL_STAT_PHASE = 1 then
      b.atElapsed ((b.pbdH m).fl.start + 500 * msTc) fun b => b.flFail m 3 C.flTimeout
    else b

/-- FL_TRAIN_END: every lane is in TRACK, or TRAIN_MAX has elapsed; RAMP begins at the next tick boundary. -/
def execFlTrainEnd (m : Nat) (s : State) : Host.Outcome State Fault Refusal :=
  s.did fun b =>
    let u := U.pbd m
    if b.fld u F.PROT_FL_STAT_PHASE ≠ 2 then b
    else
      let mine := (List.range 264).filter fun i => b.lanePbd i == m && b.inService (U.lane i) && (b.leaderOf i).isNone
      let h := b.pbdH m
      let out := h.fl.start + max 1 (b.fld u F.PROT_FL_CFG_TRAIN_MAX) * (100 * msTc)
      if mine.all fun i => b.adapt i == 2 then b.setPbdH m { h with fl := { h.fl with endDue := true } }
      else b.atElapsed out fun b => b.setPbdH m { b.pbdH m with fl := { (b.pbdH m).fl with endDue := true } }

/-- FL_REDO repeats first light from DONE or FAILED; cause HOST clears with FAILED, but for a squall of the same Tc with that cause
(R254). -/
def Block.flRedo (b : Block) (m : Nat) : Block :=
  let u := U.pbd m
  let p := b.fld u F.PROT_FL_STAT_PHASE
  if p = 4 ∨ p = 5 then
    let b := (b.setFlag u F.PROT_FL_STAT_MEASURED false).setPbdH m { b.pbdH m with fl := { (b.pbdH m).fl with kept := false } }
    (b.setFlPhase m 0).when (p == 5 && !b.overridden u F.PROT_CTRL_UNSQUALL) fun b => b.clearHold m 6
  else b

/-- FL_REDO: for system privilege only. -/
def execFlRedo (who : Who) (m : Nat) (s : State) : Host.Outcome State Fault Refusal :=
  s.did fun b => b.wr who (U.pbd m) F.PROT_CTRL_FL_REDO fun b => if whoSys who then b.flRedo m else b.privRefused m

/-! ## Publications (R137, R181, R193) -/

/-- A tick of index 0, 240, 480, 720 or 960 of the frame has just begun. -/
def Block.pubTick (b : Block) : Bool := b.t == b.time.tickStart && b.time.air % frameTc / tickTc % 240 == 0

/-- An estimate of PBD `m` is published: a tenth of the integration was valid and the output chain runs (R137, R181). -/
def Block.published (b : Block) (m : Nat) : Bool :=
  b.everLocked && b.flag (U.mc (2 * m + 1)) F.MC_STAT_RUN && decide (probeSpan ≤ 10 * b.probeValid m)

/-- PROBE_PUBLISH: what the correlator found of the paths, and the sum of the applied net gain over `n` valid samples of the
integration, in 1/64 dB. -/
def execProbePublish (m : Nat) (paths : List (Nat × Nat × Nat × Nat)) (gsum : Int) (n : Nat) (s : State) : Host.Outcome State Fault Refusal :=
  s.did fun b =>
    let u := U.pbd m
    if b.flag u F.PBD_PROBE_CFG_EN = false ∨ b.pbdOn m = false ∨ b.pubTick = false then b
    else
      let runs := b.published m
      let (b, lg) := b.dbRatio (b.loopGain m paths) (2 ^ 48)
      let (b, gbar) := b.roundFree gsum (max 1 n)
      let b := (b.publish m lg gbar runs).probeLevel m
      if runs = false then b
      else
        let b := b.flPublish m
        let trip := b.flag u F.PROT_CFG_MARGIN_EN &&
          decide (b.sfld u F.PBD_PROBE_STAT_MARGIN < b.fld u F.PROT_CFG_M_SQUALL)
        (if trip then b.squall m 1 else b).loopResample

end Sys2Proof.Machine
end

