-- ==== Sys2Proof/Machine/Tree.lean ====
section
/-! DEFINITION.
The moves of a unit between the states of R22: entering service and TEST with the checks of its kind, leaving service with
its ramp-down, and the unfence self-test (R22 to R24, R31, R54, R76, R87, R121 to R123, R179, R367). -/
namespace Sys2Proof.Machine

/-! ## Entering service (R22, R76, R121, R179) -/

/-- PBD `m` with a valid configuration takes its place in ACTIVE or TEST: capacity is reserved (R59), the start entry runs (R67),
and the NCO words take effect. -/
def Block.pbdIn (b : Block) (μ : Mem) (m st : Nat) : Block :=
  let u := U.pbd m
  let b := (b.setState u st).reserve m
  let b := b.setPbdH m { b.pbdH m with ncoRx := b.fld u F.PBD_NCO_RX_WORD, ncoTx := b.fld u F.PBD_NCO_TX_WORD }
  (((b.initEntry μ m).showGain m).headCheckPbd m).txcRefreshAll

/-- PBD `m` is asked into ACTIVE or TEST (R76). -/
def Block.pbdEnter (b : Block) (μ : Mem) (m st : Nat) : Block :=
  match b.pbdConfig m (b.fhOk m) with
  | none => b.pbdIn μ m st
  | some code => b.pbdRefused m code

/-- A spare lane that backs nothing (R31). -/
def Block.idleSpare (b : Block) (i : Nat) : Bool := i % 33 == 32 && !b.flag 0 (F.ROOT_SPARE_LANE_USED (i / 33))

/-- Lane `i` is asked into ACTIVE (R31, R121, R122); a MEASURE of first light at its PBD holds it (R204). -/
def Block.laneEnter (b : Block) (i : Nat) : Block :=
  if b.idleSpare i then b.laneRefused i C.cfgLane
  else match b.laneConfig i with
    | some code => b.laneRefused i code
    | none =>
      if b.fld (U.pbd (b.lanePbd i)) F.PROT_FL_STAT_PHASE = 1 then b.setLaneH i { b.laneH i with flHeld := true }
      else b.laneStart i

/-- A port goes to ACTIVE and begins to train where its group is ON; with an invalid MODE it stays READY and raises CORRECTED, of a code
that the spec does not name (R22, R267, R281; log entry 105). -/
def Block.fhEnter (b : Block) (q : Nat) : Block :=
  if b.fld (U.fh q) F.FH_CFG_MODE = 3 then b.corrected (U.fh q) (Config.fhCfgCode % 256)
  else
    let b := b.setState (U.fh q) St.active
    if b.ownPwr (U.fh q) = Pwr.on then b.fhTrain q else b

/-- A READY unit with ENABLE = 1 goes to ACTIVE where its configuration is valid (R22). -/
def Block.activate (b : Block) (μ : Mem) (u : Nat) : Block :=
  let i := unitIndex u
  match kindOf u with
  | 0x02 => (b.setState u St.active).setRxcH i { b.rxcH i with fillDue := some (b.t + 1024) }
  | 0x03 => (b.setState u St.active).txcRefresh b.t i
  | 0x04 => b
  | 0x05 => b.pbdEnter μ i St.active
  | 0x07 => b.laneEnter i
  | 0x09 => b.fhEnter i
  | 0x19 => (b.mcEnter i St.active).1
  | 0x1A => b.headEnable i
  | _ => b.setState u St.active

/-- A READY unit with TEST_REQ = 1 goes to TEST; a PBD and a chain need a valid configuration (R76, R179). -/
def Block.enterTest (b : Block) (μ : Mem) (u : Nat) : Block :=
  match kindOf u with
  | 0x04 => b
  | 0x05 => b.pbdEnter μ (unitIndex u) St.test
  | 0x07 => b.setLaneState (unitIndex u) St.test
  | 0x19 => (b.mcEnter (unitIndex u) St.test).1
  | _ => b.setState u St.test

/-- Requests held for a unit that has come to READY: TEST first, else ENABLE (R23). -/
def Block.applyHeld (b : Block) (μ : Mem) (u : Nat) : Block :=
  if b.ownState u ≠ St.ready then b
  else if b.flag u F.UNIT_CTRL_TEST_REQ then b.enterTest μ u
  else if b.flag u F.UNIT_CTRL_ENABLE then b.activate μ u
  else b

/-- A unit comes to READY from OFF, and its held requests take effect (R22, R23). -/
def Block.enterReady (b : Block) (μ : Mem) (u : Nat) : Block :=
  if b.ownState u = St.off then (b.setState u St.ready).applyHeld μ u else b

/-! ## Leaving service (R22, R87, R123) -/

/-- Ramp-down time of a unit, none where it leaves at once: 256 Tc for a PBD and for a TXC in TX or MUTED (R65, R87); a lane is
removed at the next tick boundary (R123). -/
def Block.rampTime (b : Block) (u : Nat) : Option Nat :=
  match kindOf u with
  | 0x03 => if b.fld u F.TXC_STAT_CH_STATE = 3 ∨ b.fld u F.TXC_STAT_CH_STATE = 4 then some 256 else none
  | 0x05 => some 256
  | 0x07 => some (b.time.tickEnd - b.t)
  | _ => none

/-- What a unit's kind does when it goes from service to READY. -/
def Block.leaveDo (b : Block) (u : Nat) : Block :=
  if kindOf u = 0x07 then (b.quietLane (unitIndex u)).setLaneState (unitIndex u) St.ready
  else ((b.setState u St.ready).quiet u).when (kindOf u == 0x05) fun b => b.clearLoops (unitIndex u)

/-- What a unit's kind does when it leaves TEST, whatever state it goes to. -/
def Block.leaveQuiet (b : Block) (u : Nat) : Block := b.quiet u

/-- A unit comes to READY, a lane with its gang (R118). -/
def Block.toReady (b : Block) (u : Nat) : Block :=
  if kindOf u = 0x07 then b.setLaneState (unitIndex u) St.ready
  else (b.setState u St.ready).when (kindOf u == 0x05) fun b => b.clearLoops (unitIndex u)

/-- A unit begins to leave service: it ramps down, or goes to READY at once. True where it is READY now. -/
def Block.leave (b : Block) (u : Nat) : Block × Bool :=
  match b.rampTime u with
  | none => (b.leaveDo u, true)
  | some d =>
    if Store.get 0 b.ramping u ≠ 0 then (b, false)
    else
      let b := { b with ramping := Store.set 0 b.ramping u (b.t + d + 1) }
      (if kindOf u = 0x03 then b.txcLeave (unitIndex u) else b, false)

/-! ## The unfence self-test (R22, R24, R367) -/

/-- Time of a kind's self-test in Tc; the most that R367 allows for link training. -/
def selftestTc (u : Nat) : Nat :=
  match kindOf u with
  | 0x02 | 0x03 | 0x0D | 0x0E | 0x0F => msTc
  | 0x06 => 393216
  | 0x0C | 0x0A => 2 * msTc
  | 0x08 | 0x0B => 10 * msTc
  | 0x09 => trainTc
  | 0x12 => 10 * msTc
  | _ => 196608

/-- UNFENCE_REQ at a FENCED unit starts its self-test; a head's is its admission (R275). -/
def Block.unfence (b : Block) (u : Nat) : Block :=
  if b.ownState u ≠ St.fenced ∨ Store.get 0 b.testing u ≠ 0 then b
  else if kindOf u = 0x1A then b.headUnfence (unitIndex u)
  else
    let b := b.when (kindOf u == 0x0D) fun b => b.setFld u F.SY_STAT_STATE 3
    { b with testing := Store.set 0 b.testing u (b.t + selftestTc u + 1) }

/-- The domain of a unit is ON, or is never switched. -/
def Block.domainOn (b : Block) (u : Nat) : Bool :=
  match domainOf u with
  | .pd d => b.fld U.kiln (F.PWR_STAT_PD (d / 16) (d % 16)) == 2
  | _ => true

/-- A pseudo-channel has passed its pattern test: its contents are the pattern's end, zeros, and no sector is uncorrectable
(R294). -/
def Block.pcUnfenced (b : Block) (i : Nat) : Block :=
  let k := i / 32
  let b := { b with
    memOps := b.memOps ++ [MemOp.clearPc i]
    hbm := { b.hbm with ue := b.hbm.ue.filter fun s => pcOf (32 * s) ≠ i } }
  b.setFld (U.hs k) F.HS_STAT_FENCED ((List.range 32).filter fun j => b.ownState (U.pc (32 * k + j)) == St.fenced).length

/-- The hardware behind a spare's UID has passed its self-test: it serves as the spare again and backs nothing (R30, R183;
log entry 96). -/
def Block.spareFree (b : Block) (u : Nat) : Block :=
  let i := unitIndex u
  if kindOf u = 0x07 ∧ i % 33 = 32 then
    (b.setFlag 0 (F.ROOT_SPARE_LANE_USED (i / 33)) false).setFld 0 (F.ROOT_SPARE_LANE_LANE (i / 33)) 0
  else if kindOf u = 0x19 ∧ 296 ≤ i then
    (b.setFlag 0 (F.ROOT_SPARE_MC_USED ((i - 296) / 4) ((i - 296) % 4)) false).setFld 0
      (F.ROOT_SPARE_MC_CHAIN ((i - 296) / 4) ((i - 296) % 4)) 0
  else b

/-- A synthesiser has passed its self-test, which includes a cold calibration of the entry in use (R96): it is LOCKED, or IDLE where
that entry holds no valid word. What the calibration finds is a free value (log entry 98). -/
def Block.syUnfenced (b : Block) (k : Nat) : Block :=
  let u := U.sy k
  let e := b.fld u F.SY_STAT_ENTRY
  if b.hopWordOk k e then
    let (b, i) := b.takeFree
    let b := (b.calResult k e (Config.syCal i) (Config.syCal i / 2 ^ 8) (Config.syCal i / 2 ^ 14)).setFld u F.SY_STAT_STATE 1
    let b := (b.setFld u F.SY_FREQ_WORD (Store.get SyCal.init (b.syH k).cal e).word)
    ((((b.irq u 16).irq u 19).rxcBound k).txcRefreshAll)
  else b.setFld u F.SY_STAT_STATE 0

/-- What a passed self-test brings a kind (R96, R200, R294, R367). -/
def Block.unfenced (b : Block) (u : Nat) : Block :=
  let i := unitIndex u
  match kindOf u with
  | 0x02 => b.setFld u F.TXC_STAT_CH_STATE 1
  | 0x03 => (b.setFld u F.TXC_STAT_CH_STATE 1).txcRefresh b.t i
  | 0x05 => (b.pbdUnfenced i).clearLoops i
  | 0x07 => (b.setLaneState i St.ready).spareFree u
  | 0x08 => b.setFld u F.TS_STAT_CAUSE 0
  | 0x0A => b.setFlag u F.HS_STAT_TRAINED true
  | 0x0B => b.pcUnfenced i
  | 0x0C => (b.setFlag u F.CC_STAT_CLK_LOCK true).txcRefreshAll
  | 0x0D => b.syUnfenced i
  | 0x19 => b.spareFree u
  | 0x0F => ((b.wipeRange .imem (sramIdx i 0) (sramIdx (i + 1) 0)).wipeRange .dmem (sramIdx i 0) (sramIdx (i + 1) 0)).engStart i
  | _ => b

/-- A self-test fails: the unit stays FENCED with CONTAINED SELFTEST (R22, R367), and a sensor raises TS_FAIL besides (R334). -/
def Block.selftestFail (b : Block) (u : Nat) : Block :=
  let b := b.when (kindOf u == 0x0D) fun b => b.setFld u F.SY_STAT_STATE 0
  (b.contained u C.selftest).when (kindOf u == 0x08) fun b => b.tsFail (unitIndex u) 3

/-- A self-test is over. It passes only with the unit's domain ON, and that of a PBD only with a valid configuration (R76,
R367). -/
def Block.selftestEnd (b : Block) (u : Nat) (pass : Bool) : Block :=
  let b := { b with testing := Store.set 0 b.testing u 0 }
  if b.ownState u ≠ St.fenced then b
  else
    let cfg := if kindOf u = 0x05 then (b.pbdConfig (unitIndex u) (b.fhOk (unitIndex u))).isNone else true
    if pass && b.domainOn u && cfg then ((b.setState u St.ready).unfenced u) else b.selftestFail u

/-- SELFTEST_DONE: the self-test of unit `u` ends with its verdict. Link training may end at any time within its limit. -/
def execSelftestDone (u : Nat) (pass : Bool) (s : State) : Host.Outcome State Fault Refusal :=
  s.did fun b =>
    match Store.get 0 b.testing u with
    | 0 => b
    | t + 1 => if kindOf u = 0x09 ∧ b.t ≤ t then b.selftestEnd u pass else b.atElapsed t fun b => b.selftestEnd u pass

end Sys2Proof.Machine
end

