-- ==== Sys2Proof/Machine/Power.lean ====
section
/-! DEFINITION.
The switched power domains (R340 to R343): requests with the holds of R91 and the refusals of R286, the queue of four
transitions, their ends, timeouts and failed rails, and the stops and the restart of kiln (R337 to R339). The state of a
domain stands in PWR_STAT. -/
namespace Sys2Proof.Machine

/-- State of domain `d` (PWR_STAT): 0 OFF, 1 UP, 2 ON, 3 DOWN, 4 RETAIN, 5 QUEUED_UP, 6 QUEUED_DOWN, 7 FAILED. -/
def Block.pd (b : Block) (d : Nat) : Nat := b.fld U.kiln (F.PWR_STAT_PD (d / 16) (d % 16))
def Block.setPd (b : Block) (d st : Nat) : Block := b.setFld U.kiln (F.PWR_STAT_PD (d / 16) (d % 16)) st

/-- Time of a transition in Tc (R340). -/
def pwrTc (d : Nat) (up : Bool) : Nat :=
  if d < 64 then (if up then 196608 else 19661)
  else if d < 72 then (if up then 39322 else 19661)
  else if d < 74 then (if up then 3932160 else 196608)
  else if d < 76 then (if up then 9830400 else 196608)
  else if up then 786432 else 98304

/-- A POWER_REQ of these kinds has no effect: SY and ORX power with their CC (R91). -/
def noPowerReq (u : Nat) : Bool := kindOf u == 0x0D || kindOf u == 0x0E

/-- A unit asks for its domain: POWER_REQ = 1, or a ramp-down that its power-down awaits (R22, R341). -/
def Block.unitWants (b : Block) (u : Nat) : Bool :=
  !noPowerReq u && (b.flag u F.UNIT_CTRL_POWER_REQ || Store.get 0 b.ramping u != 0)

/-- A domain is requested ON (R341). -/
def Block.pdWanted (b : Block) (d : Nat) : Bool := (unitsOfDomain d).any b.unitWants

/-- Domains of the channels of CC domain `d`, and the CC domain of channel domain `d` (R13). -/
def chanDomains (d : Nat) : List Nat :=
  let k := d - 76
  ((List.range 8).map fun j => 8 * k + j) ++ (List.range 8).map fun j => 32 + 8 * k + j
def ccDomain (d : Nat) : Nat := 76 + d % 32 / 8

/-- PWR_INFO follows the queue and the transitions. -/
def Block.showPower (b : Block) : Block :=
  (b.setFld U.kiln F.PWR_INFO_INTRANS b.power.trans.length).setFld U.kiln F.PWR_INFO_QUEUED b.power.queue.length

/-- Change the sequencer's record. -/
def Block.setPower (b : Block) (q : List (Nat × Nat)) (t : List (Nat × Bool × Nat)) : Block :=
  ({ b with power := { b.power with queue := q, trans := t } }).showPower

/-! ## The start and the end of a transition (R22, R90, R91, R340) -/

/-- A unit whose domain loses power holds no channel state, lock or training. -/
def Block.unitDead (b : Block) (u : Nat) : Block :=
  match kindOf u with
  | 0x02 => ((b.setRestoreDue u none).setCalDue u none).setFld u F.TXC_STAT_CH_STATE 0
  | 0x03 =>
    let b := (b.setTxcCh (unitIndex u) 0).setTxcH (unitIndex u)
      { b.txcH (unitIndex u) with seq := [], out := false, paHigh := false, swTx := false, restoreDue := none, calDue := none }
    b.txcRefresh b.t (unitIndex u)
  | 0x0A =>
    let b := if b.flag u F.HS_STAT_TRAINED then b.irq u 18 else b
    b.setFlag u F.HS_STAT_TRAINED false
  | 0x0B => b.hbmDrop (unitIndex u)
  | 0x0C => b.setFlag u F.CC_STAT_CLK_LOCK false
  | 0x0D => b.quietSy (unitIndex u)
  | _ => b

/-- A unit leaves service as its domain loses power. -/
def Block.unitDown (b : Block) (u : Nat) : Block :=
  let st := b.ownState u
  if st = St.active ∨ st = St.lull ∨ st = St.test then b.leaveDo u else b

/-- A unit goes to OFF with its domain; a FENCED or FAILED unit stays so (R24). -/
def Block.unitOff (b : Block) (u : Nat) : Block :=
  let st := b.ownState u
  if st = St.fenced ∨ st = St.failed then b else b.setState u St.off

/-- The units of domain `d` go to OFF with PWR `p`. -/
def Block.domainOff (b : Block) (d p : Nat) : Block :=
  let us := unitsOfDomain d
  let b := b.each us fun b u => (b.unitDown u).unitDead u
  (b.setPwrs us p).each us Block.unitOff

/-- A stack's interface is trained at its power-up (R340). Soft repairs last until a reset retrains the stack (R292). -/
def Block.stackUp (b : Block) (k : Nat) : Block :=
  let b := if b.flag (U.hs k) F.HS_STAT_RETAIN then b.irq (U.hs k) 16 else b
  (b.setFlag (U.hs k) F.HS_STAT_TRAINED true).setFlag (U.hs k) F.HS_STAT_RETAIN false

/-- A unit's domain is ON: it comes to READY, a channel only once it is restored (R22, R87, R90). -/
def Block.unitOn (b : Block) (μ : Mem) (u : Nat) : Block :=
  match kindOf u with
  | 0x02 | 0x03 => b
  | 0x0A => (b.stackUp (unitIndex u)).enterReady μ u
  | 0x0C => ((b.setFlag u F.CC_STAT_CLK_LOCK true).txcRefreshAll).enterReady μ u
  | _ => b.enterReady μ u

/-- The units of domain `d` have power. -/
def Block.domainUp (b : Block) (μ : Mem) (d : Nat) : Block :=
  (b.setPwrs (unitsOfDomain d) Pwr.on).each (unitsOfDomain d) fun b u => b.unitOn μ u

/-- A transition begins: PWR passes UP or DOWN; a channel's calibration restore ends with it (R90). -/
def Block.pwrBegin (b : Block) (d : Nat) (up : Bool) : Block :=
  let b := (b.setPd d (if up then 1 else 3)).setPower b.power.queue (b.power.trans ++ [(d, up, b.t)])
  let b := { b with power := { b.power with failed := b.power.failed.filter (· ≠ d) } }
  let b := if up then b else b.each (unitsOfDomain d) Block.unitDown
  let b := b.setPwrs (unitsOfDomain d) (if up then Pwr.up else Pwr.down)
  if up ∧ d < 64 then b.each (unitsOfDomain d) fun b u => b.setRestoreDue u (some (b.t + pwrTc d true)) else b

/-- The queued request that is served first: the least UID of a requesting unit (R342). -/
def nextPower : List (Nat × Nat) → Option (Nat × Nat)
  | [] => none
  | x :: t =>
    match nextPower t with
    | none => some x
    | some y => if x.2 < y.2 ∨ (x.2 = y.2 ∧ x.1 ≤ y.1) then some x else some y

/-- Queued transitions begin while fewer than four are in progress (R342); at most `n` of them. -/
def Block.pwrServe (b : Block) : Nat → Block
  | 0 => b
  | n + 1 =>
    if 4 ≤ b.power.trans.length then b
    else match nextPower b.power.queue with
      | none => b
      | some (d, q) =>
        let up := b.pd d == 5
        ((b.setPower (b.power.queue.filter (· ≠ (d, q))) b.power.trans).pwrBegin d up).pwrServe n

/-- A transition of domain `d` is queued by a request of unit `u`. -/
def Block.pwrQueue (b : Block) (d u : Nat) (up : Bool) : Block :=
  let b := b.when (b.pd d == 7) fun b => { b with power := { b.power with failed := addOnce d b.power.failed } }
  ((b.setPd d (if up then 5 else 6)).setPower (b.power.queue ++ [(d, u)]) b.power.trans).pwrServe 4

/-- The system runtime runs: HOST_BOOT.PHASE is POWER, CAL or SERVICE (R437). -/
def Block.runtimeUp (b : Block) : Bool := [5, 6, 8].contains (b.fld 0 F.HOST_BOOT_PHASE)

/-- The state of domain `d`, queued up, before its request: FAILED, self-refresh, or OFF. -/
def Block.pdBefore (b : Block) (d : Nat) : Nat :=
  if b.power.failed.contains d then 7 else if 72 ≤ d ∧ d < 74 ∧ b.flag (U.hs (d - 72)) F.HS_STAT_RETAIN then 4 else 0

/-- Domain `d` by itself is brought in line with its requests: `u` is the requesting unit. A reversal of a queued transition removes it,
one of a transition in progress waits for its end (R342); the holds of R91 apply, no domain powers up in THERMAL_OFF or
under the fatal latch or before the system runtime runs (R339, R358, R437). -/
def Block.pwrOne (b : Block) (d u : Nat) : Block :=
  let want := b.pdWanted d
  let drop := fun (b : Block) (st : Nat) =>
    let b := (b.setPd d st).setPower (b.power.queue.filter (·.1 ≠ d)) b.power.trans
    { b with power := { b.power with failed := b.power.failed.filter (· ≠ d) } }
  match b.pd d with
  | 1 | 3 => b
  | 5 => if want then b else drop b (b.pdBefore d)
  | 6 => if want then drop b 2 else b
  | 2 =>
    if want then b
    else if 76 ≤ d ∧ (chanDomains d).any (fun c => b.pd c != 0 && b.pd c != 7) then b
    else b.pwrQueue d u false
  | _ =>
    if want = false ∨ b.thermalOff ∨ b.flag 0 F.FLT_MODE_FATAL ∨ b.runtimeUp = false then b
    else if d < 64 ∧ b.pd (ccDomain d) ≠ 2 then b
    else b.pwrQueue d u true

/-- The requesting unit of domain `d` where no write names one: its lowest unit with POWER_REQ = 1, else its lowest. -/
def Block.requester (b : Block) (d : Nat) : Nat :=
  match (unitsOfDomain d).find? b.unitWants with
  | some u => u
  | none => (unitsOfDomain d).headD 0

/-- What the holds of R91 kept back follows, as the state of domain `d` has changed: a CC's power-down as a channel is no longer queued,
and its channels' power-up as the CC stays ON (R341). -/
def Block.pwrHeld (b : Block) (d : Nat) : Block :=
  if d < 64 then b.pwrOne (ccDomain d) (b.requester (ccDomain d))
  else if 76 ≤ d then b.each (chanDomains d) fun b c => b.pwrOne c (b.requester c)
  else b

/-- Domain `d` and what it held back are brought in line with their requests; `u` is the requesting unit (R341, R342). -/
def Block.pwrEval (b : Block) (d u : Nat) : Block :=
  let was := b.pd d
  let b := b.pwrOne d u
  if (was = 5 ∧ (b.pd d = 0 ∨ b.pd d = 7)) ∨ (was = 6 ∧ b.pd d = 2) then b.pwrHeld d else b

/-- Bring a domain in line with its requests, by itself. -/
def Block.pwrCheck (b : Block) (d : Nat) : Block := b.pwrEval d (b.requester d)

/-- A domain has left its transition. -/
def Block.pwrOut (b : Block) (d : Nat) : Block :=
  b.setPower (b.power.queue.filter (·.1 ≠ d)) (b.power.trans.filter (·.1 ≠ d))

/-- A transition completes, the queue is served, and what its end released follows (R91, R342). -/
def Block.pwrDone (b : Block) (μ : Mem) (d : Nat) (up : Bool) : Block :=
  let hs := decide (72 ≤ d) && decide (d < 74)
  let b := (b.pwrOut d).setPd d (if up then 2 else if hs then 4 else 0)
  let b := if up then b.domainUp μ d else b.domainOff d (if hs then Pwr.retain else Pwr.off)
  let b := if hs ∧ up = false then (b.setFlag (U.hs (d - 72)) F.HS_STAT_RETAIN true).irq (U.hs (d - 72)) 16 else b
  let b := (b.pwrServe 4).pwrCheck d
  if 76 ≤ d ∧ up then b.each (chanDomains d) fun b c => b.pwrCheck c
  else if d < 64 ∧ up = false then b.pwrCheck (ccDomain d)
  else b

/-- DOMAIN_TRANSITION_DONE: the transition of domain `d` completes in its time of R340. -/
def execDomainTransitionDone (d : Nat) (s : State) : Host.Outcome State Fault Refusal :=
  s.done fun μ b =>
    match b.power.trans.find? fun x => x.1 == d with
    | some (_, up, t) => b.atElapsed (t + pwrTc d up) fun b => b.pwrDone μ d up
    | none => b

/-! ## Failures (R343, R456) -/

/-- A domain fails: it is left OFF with its units FENCED, and its owning unit raises CONTAINED. -/
def Block.pwrFail (b : Block) (d code : Nat) : Block :=
  let b := (b.pwrOut d).setPd d 7
  let b := (b.each (unitsOfDomain d) fun b u => (b.fenceUnit u).unitDead u).setPwrs (unitsOfDomain d) Pwr.off
  let b := (b.incSat U.kiln F.PWR_INFO_TIMEOUTS 1).irq U.kiln 21
  let b := (b.contained ((unitsOfDomain d).headD 0) code).pwrServe 4
  if d < 64 then b.pwrHeld d else b

/-- DOMAIN_TIMEOUT: the transition of domain `d` has not completed within four times its time. -/
def execDomainTimeout (d : Nat) (s : State) : Host.Outcome State Fault Refusal :=
  s.did fun b =>
    match b.power.trans.find? fun x => x.1 == d with
    | some (_, up, t) => b.atElapsed (t + 4 * pwrTc d up) fun b => b.pwrFail d C.pwrTimeout
    | none => b

/-- Domains that a switched rail feeds (R456): 0 the converter rails, 1 the HBM rails, 2 the SerDes rails. -/
def railDomains (r : Nat) : List Nat :=
  match r with
  | 0 => List.range 64 ++ [76, 77, 78, 79]
  | 1 => [72, 73]
  | _ => [74, 75]

/-- SWITCHED_RAIL_FAIL: every domain that the rail feeds and that is ON, queued to power down or not, takes PWR_FAIL. -/
def execSwitchedRailFail (r : Nat) (s : State) : Host.Outcome State Fault Refusal :=
  s.did fun b => b.each ((railDomains r).filter fun d => b.pd d == 2 || b.pd d == 6) fun b d => b.pwrFail d C.pwrFail

/-! ## The stops of kiln (R337 to R339) -/

/-- Every switched domain goes OFF without queue, holds and refusals; POWER_REQ keeps its values, and the stacks are left in
self-refresh. -/
def Block.pwrKill (b : Block) : Block :=
  let b := b.setPower [] []
  b.each (List.range 80) fun b d =>
    if b.pd d = 7 then b
    else
      let hs := decide (72 ≤ d) && decide (d < 74)
      let b := b.setPd d (if hs then 4 else 0)
      let b := b.domainOff d (if hs then Pwr.retain else Pwr.off)
      if hs ∧ b.flag (U.hs (d - 72)) F.HS_STAT_RETAIN = false then (b.setFlag (U.hs (d - 72)) F.HS_STAT_RETAIN true).irq (U.hs (d - 72)) 16
      else b

/-- Both stacks enter self-refresh. -/
def Block.pwrRetain (b : Block) : Block :=
  b.each [72, 73] fun b d =>
    if b.pd d = 2 ∨ b.pd d = 6 then
      let b := (b.pwrOut d).setPd d 4
      let b := b.domainOff d Pwr.retain
      (b.setFlag (U.hs (d - 72)) F.HS_STAT_RETAIN true).irq (U.hs (d - 72)) 16
    else b

/-- Every domain whose units request it powers up, in the order of R342. -/
def Block.pwrRestore (b : Block) : Block :=
  let order := [74, 75, 72, 73, 76, 77, 78, 79]
  b.each (List.range 72 ++ order) fun b d => b.pwrCheck d

end Sys2Proof.Machine
end

