-- ==== Sys2Proof/Machine/Kiln.lean ====
section
/-! DEFINITION.
Kiln (chapter 14): the sensors with their filtering, failures and substitutes (R323 to R326, R334, R335), the levels (R327),
the throttle steps and the thermal ceilings (R328 to R333), the stops and the RESUME (R336 to R339). Readings are counted in
units of 1/192 °C, in which the mean of up to four raw samples of 1/16 °C is exact. -/
namespace Sys2Proof.Machine

/-! ## Sensors (R323 to R326) -/

/-- Sensor `n` beside its registers. -/
def Block.tsH (b : Block) (n : Nat) : TsH := Store.get TsH.init b.kiln.ts n
def Block.setTsH (b : Block) (n : Nat) (x : TsH) : Block := { b with kiln := { b.kiln with ts := Store.set TsH.init b.kiln.ts n x } }
def Block.setKiln (b : Block) (f : KilnH → KilnH) : Block := { b with kiln := f b.kiln }

/-- An HBM sensor (R323). -/
def tsHbm (n : Nat) : Bool := 40 ≤ n

/-- Threshold `k` of a sensor in °C: 1 WARN to 4 SHUTDOWN, 5 the absolute limit (R325). -/
def tsThr (n k : Nat) : Nat :=
  if tsHbm n then (match k with | 1 => 85 | 2 => 90 | 3 => 95 | 4 => 100 | _ => 105)
  else (match k with | 1 => 95 | 2 => 100 | 3 => 108 | 4 => 112 | _ => 115)

/-- A temperature in °C in units of 1/192 °C. -/
def tsUnits (c : Nat) : Int := (c * 192 : Nat)

/-- A sensor serves. -/
def Block.tsLive (b : Block) (n : Nat) : Bool :=
  b.ownState (U.ts n) != St.fenced && b.ownState (U.ts n) != St.failed

/-- Neighbours of a sensor (TS_NBR). -/
def Block.tsNbrs (b : Block) (n : Nat) : List Nat :=
  ((List.range 4).filter fun j => b.flag (U.ts n) (F.TS_NBR_V j)).map fun j => b.fld (U.ts n) (F.TS_NBR_NBR j)

/-- The value that kiln uses for a sensor: the newest reading or substitute. -/
def TsH.value (x : TsH) : Int := x.vals.headD 0

/-- The greatest of a list, none where it is empty. -/
def maxI : List Int → Option Int
  | [] => none
  | a :: t => match maxI t with | none => some a | some m => some (max a m)

/-- Least of a list. -/
def minI : List Int → Option Int
  | [] => none
  | a :: t => match minI t with | none => some a | some m => some (min a m)

/-- Span of the last 64 filtered readings; none before the 64th. -/
def TsH.span (x : TsH) : Option Int :=
  if x.filts.length < 64 then none else some ((maxI x.filts).getD 0 - (minI x.filts).getD 0)

/-- A raw sample is taken: the filtered reading is the mean of the last four (R324). -/
def Block.tsRaw (b : Block) (n : Nat) (raw : BitVec 16) : Block :=
  let x := b.tsH n
  let raws := (sext 16 raw.toNat :: x.raws).take 4
  let mean : Int := raws.foldl (fun (a : Int) x => a + x) 0 * ((12 / raws.length : Nat) : Int)
  (b.setTsH n { x with raws := raws, filts := (mean :: x.filts).take 64 }).setFld (U.ts n) F.TS_READ_RAW raw.toNat

/-- Why a live sensor fails now: 1 range, 2 stuck, 0 not (R334). -/
def Block.tsCause (b : Block) (n : Nat) : Nat :=
  let x := b.tsH n
  let raw := x.raws.headD 0
  if raw < -800 ∨ 2400 < raw then 1
  else match x.span with
    | some d =>
      if d < 48 ∧ (b.tsNbrs n).any (fun j => b.tsLive j && (match (b.tsH j).span with | some e => decide (384 ≤ e) | none => false))
      then 2 else 0
    | none => 0

/-- The substitute of a sensor that does not serve: 8 °C above its hottest live neighbour, else above the hottest live sensor
of its kind; none where none is left (R335). -/
def Block.tsSubst (b : Block) (n : Nat) : Option Int :=
  let of := fun (l : List Nat) => maxI ((l.filter b.tsLive).map fun j => (b.tsH j).filts.headD 0)
  match of (b.tsNbrs n) with
  | some v => some (v + 1536)
  | none => (of ((List.range 48).filter fun j => tsHbm j == tsHbm n)).map (· + 1536)

/-- The run of threshold `k` after a value `v`: where T is entered, of values below T - HYS, else of values above T (R326). -/
def tsRun (n k level hys : Nat) (v : Int) (run : Nat) : Nat :=
  if k ≤ level then (if v < tsUnits (tsThr n k) - tsUnits hys then run + 1 else 0)
  else if tsUnits (tsThr n k) < v then run + 1 else 0

/-- HYS in °C. -/
def Block.hys (b : Block) : Nat := max 1 (b.fld U.kiln F.KILN_CFG_HYS)

/-- The level of a sensor moves with its runs: a run of eight enters or leaves its threshold. -/
def Block.tsGrade (b : Block) (n : Nat) (v : Int) : Block :=
  let u := U.ts n
  let x := b.tsH n
  let lv := b.fld u F.TS_READ_LEVEL
  let r := fun k run => tsRun n k lv b.hys v run
  let r1 := r 1 x.run1
  let r2 := r 2 x.run2
  let r3 := r 3 x.run3
  let r4 := r 4 x.run4
  let in_ := fun k (run : Nat) => if 8 ≤ run then !decide (k ≤ lv) else decide (k ≤ lv)
  let new := if in_ 4 r4 then 4 else if in_ 3 r3 then 3 else if in_ 2 r2 then 2 else if in_ 1 r1 then 1 else 0
  let z := fun (run : Nat) => if 8 ≤ run then 0 else run
  let b := b.setTsH n { x with run1 := z r1, run2 := z r2, run3 := z r3, run4 := z r4 }
  let b := (b.setFld u F.TS_READ_RUN (max (max r1 r2) (max r3 r4))).setFld u F.TS_READ_LEVEL new
  b.when (new != lv) fun b => b.irq u 16

/-- A substitute comes into use: it starts at the higher of the sensor's level and the level that its value reaches (R335). -/
def Block.tsFresh (b : Block) (n : Nat) (v : Int) : Block :=
  let u := U.ts n
  let lv := b.fld u F.TS_READ_LEVEL
  let reach := ([1, 2, 3, 4].filter fun k => tsUnits (tsThr n k) < v).length
  let b := b.setTsH n { b.tsH n with run1 := 0, run2 := 0, run3 := 0, run4 := 0 }
  let b := ((b.setFlag u F.TS_READ_SUBST true).setFld u F.TS_READ_RUN 0).setFld u F.TS_READ_LEVEL (max lv reach)
  b.when (lv < reach) fun b => b.irq u 16

/-- The value of a sensor is taken into its page: FILT, PEAK and the last 16 values. -/
def Block.tsShow (b : Block) (n : Nat) (v : Int) : Block :=
  let u := U.ts n
  let b := b.setTsH n { b.tsH n with vals := (v :: (b.tsH n).vals).take 16 }
  let (b, f) := b.roundFree v 12
  let f := clampI (-32767) 32767 f
  let peak := match b.db u F.TS_READ_PEAK with | some p => max p f | none => f
  (b.setFld u F.TS_READ_FILT (toCode 16 f)).setFld u F.TS_READ_PEAK (toCode 16 peak)

/-- Kiln takes the value of sensor `n` after a sample. -/
def Block.tsTake (b : Block) (n : Nat) : Block :=
  let u := U.ts n
  if b.tsLive n then
    let v := (b.tsH n).filts.headD 0
    ((b.setFlag u F.TS_READ_SUBST false).tsShow n v).tsGrade n v
  else match b.tsSubst n with
    | none => b.setKiln fun k => { k with forced := true }
    | some v =>
      let b := b.tsShow n v
      if b.flag u F.TS_READ_SUBST then b.tsGrade n v else b.tsFresh n v

/-! ## Rate of rise (R336) -/

/-- Least-squares slope of values, newest first, as a fraction in units of 1/192 °C per ms. -/
def tsSlope (vals : List Int) : Int × Nat :=
  let l := vals.reverse
  let n := l.length
  let num := (l.foldl (fun (a : Int × Int) y => (a.1 + (2 * a.2 - ((n : Int) - 1)) * y, a.2 + 1)) (0, 0)).1
  if n < 2 then (0, 1) else (6 * num, n * (n * n - 1))

/-- Time left to the absolute limit of sensor `n` as a fraction in ms, none where it is unbounded. -/
def Block.tsLeft (b : Block) (n : Nat) : Option (Nat × Nat) :=
  let x := b.tsH n
  let (num, den) := tsSlope x.vals
  if num ≤ 0 then none else some (((tsUnits (tsThr n 5) - x.value) * (den : Int)).toNat, num.toNat)

/-- Codes of SLOPE and LEFT of a sensor (R344). -/
def Block.tsRate (b : Block) (n : Nat) : Block × Nat × Nat :=
  let (num, den) := tsSlope (b.tsH n).vals
  let (b, sl) := b.roundFree (num * 1024) (den * 192)
  let sl := toCode 16 (clampI (-32768) 32767 sl)
  match b.tsLeft n with
  | none => (b, sl, 0xFFFF)
  | some (p, q) =>
    let (b, ms) := b.roundFree (p : Int) q
    (b, sl, (min ms 0xFFFE).toNat)

/-- The sensor with the highest value: the lowest index among equals. -/
def Block.tsHot (b : Block) : Nat :=
  (List.range 48).foldl (fun h n => if (b.tsH h).value < (b.tsH n).value then n else h) 0

/-- One time left is less than another. -/
def leftLess (a c : Option (Nat × Nat)) : Bool :=
  match a, c with
  | some (p, q), some (p', q') => p * q' < p' * q
  | some _, none => true
  | none, _ => false

/-- The sensor at SHUTDOWN with the least time left, or the hottest where none stands there. -/
def Block.tsWorst (b : Block) : Nat :=
  match (List.range 48).filter fun n => b.fld (U.ts n) F.TS_READ_LEVEL == 4 with
  | [] => b.tsHot
  | a :: t => t.foldl (fun h n => if leftLess (b.tsLeft n) (b.tsLeft h) then n else h) a

/-! ## Throttle (R329 to R333) -/

/-- CEIL_STEPS is the largest STEPS among all PBDs. -/
def Block.showCeil (b : Block) : Block :=
  b.setFld U.kiln F.KILN_STAT_CEIL_STEPS (min 255 ((List.range 128).foldl (fun a m => max a (b.fld (U.pbd m) F.LOOP_THERM_STEPS)) 0))

/-- The thermal ceiling of PBD `m` and its count of steps change (R332). -/
def Block.setTherm (b : Block) (m : Nat) (sp : Int) (n : Nat) : Block :=
  let u := U.pbd m
  (((b.setFld u (F.LOOP_SETPT_SETPT 2) (toCode 16 sp)).loopDirty u (R.LOOP_SETPT 2)).setFld u F.LOOP_THERM_STEPS n)

/-- A downward step of the thermal ceiling of every PBD in service (R332). -/
def Block.ceilDown (b : Block) : Block :=
  let floor := b.sfld U.kiln F.KILN_CFG_FLOOR
  let b := b.each ((List.range 128).filter b.pbdOn) fun b m =>
    let u := U.pbd m
    let sp := b.sfld u (F.LOOP_SETPT_SETPT 2)
    let base := match b.db u F.PBD_GAIN_CMD with | some g => min sp g | none => sp
    let new := max (-32767) (max floor (base - 64))
    let n := b.fld u F.LOOP_THERM_STEPS
    b.setTherm m new (if new < sp then n + 1 else n)
  ((b.setFld U.kiln F.KILN_STAT_STEP 4).showCeil).setKiln fun k => { k with ceilAt := some b.t }

/-- LE_STAT.TUNE_STOP, whose change is an interrupt cause (R171). -/
def Block.setTuneStop (b : Block) (v : Bool) : Block :=
  if b.flag U.le F.LE_STAT_TUNE_STOP = v then b else (b.setFlag U.le F.LE_STAT_TUNE_STOP v).irq U.le 17

/-- CL_STAT.THROTTLE of every cluster, whose change is an interrupt cause (R144). -/
def Block.setThrottle (b : Block) (v : Bool) : Block :=
  b.each (List.range 8) fun b k =>
    if b.flag (U.cl k) F.CL_STAT_THROTTLE = v then b else (b.setFlag (U.cl k) F.CL_STAT_THROTTLE v).irq (U.cl k) 19

/-- A throttle step takes effect: 1 the cellar is held, 2 tracers and auto-tunes stop, 3 adaptation is halved (R329, R387). -/
def Block.throttleStep (b : Block) (n : Nat) : Block :=
  let b := b.setFld U.kiln F.KILN_STAT_STEP n
  match n with
  | 1 => b.celHold true
  | 2 =>
    ((b.each (List.range 4) fun b i =>
      ((b.setFlag U.tally (F.TR_CTRL_RUN i) false).override U.tally (F.TR_CTRL_RUN i).off (fldMask (F.TR_CTRL_RUN i).hi (F.TR_CTRL_RUN i).lo)).setFlag
        U.tally (F.TR_STAT_KILN_STOP i) true).irq U.tally 19).setTuneStop
      true
  | _ => b.setThrottle true

/-- Steps 1 to 3 that are not yet applied. -/
def Block.throttleAll (b : Block) : Block :=
  b.each [1, 2, 3] fun b n => if b.fld U.kiln F.KILN_STAT_STEP < n then b.throttleStep n else b

/-- THROTTLE is entered (R329). -/
def Block.throttleEnter (b : Block) : Block :=
  let g := max 1 (b.fld U.kiln F.KILN_CFG_GRACE) * (10 * msTc)
  let b := ((b.setReg U.kiln R.KILN_THR_STAMP b.now).setFlag U.kiln F.KILN_STAT_REQ true).irq U.kiln 18
  b.setKiln fun k => { k with stepAt := some (b.t + g), riseAt := none, ceilAt := none }

/-- CRIT is entered (R330). -/
def Block.critEnter (b : Block) : Block :=
  let b := ((b.corrected U.kiln C.kilnCrit).throttleAll).ceilDown
  b.setKiln fun k => { k with stepAt := some (b.t + 10 * msTc) }

/-- LEVEL falls below THROTTLE (R331, R332). -/
def Block.throttleLeave (b : Block) : Block :=
  let held := decide (1 ≤ b.fld U.kiln F.KILN_STAT_STEP)
  let b := (b.setFlag U.kiln F.KILN_STAT_REQ false).setFld U.kiln F.KILN_STAT_STEP 0
  let b := b.setThrottle false
  let b := b.setTuneStop false
  let b := b.when held fun b => b.celHold false
  let rise := (List.range 128).any fun m => b.fld (U.pbd m) F.LOOP_THERM_STEPS != 0
  b.setKiln fun k => { k with stepAt := none, ceilAt := none, riseAt := if rise then some (b.t + 100 * msTc) else none }

/-! ## Levels and stops (R327, R336 to R338) -/

/-- LEVEL changes, with its KILN record and its interrupt (R327, R346, R373). -/
def Block.levelShow (b : Block) (new : Nat) : Block :=
  let old := b.fld U.kiln F.KILN_STAT_LEVEL
  if new = old then b
  else
    let w0 := (old <<< 16) + (new <<< 19) + (b.fld U.kiln F.KILN_STAT_HOT <<< 24) + (b.fld U.kiln F.KILN_STAT_HOT_TEMP <<< 32)
    let b := b.setFld U.kiln F.KILN_STAT_LEVEL new
    (b.recEvent 0x05 U.kiln [BitVec.ofNat 64 w0, b.now] [1]).irq U.kiln (if old < new then 16 else 17)

/-- THERMAL_OFF is entered (R337, R338): the strobes go low (R100), and the collector is in RECOVERY (R351). -/
def Block.thermalEnter (b : Block) : Block :=
  let b := b.when (b.fld 0 F.FLT_COLLECT_INFO_PHASE != 3) fun b => b.setPhase 3 true
  ((((b.levelShow 5).setReg U.kiln R.KILN_OFF_STAMP b.now).irq U.kiln 20).rootState).strobesOff

/-- The ramp-down of an orderly stop begins on every TXC and head port (R337): TXCs that were about to transmit do not, and the heads
take MUTE. The silence at its end is `Block.kilnSilent`. -/
def Block.kilnRampDown (b : Block) : Block :=
  (b.each (List.range 32) fun b k =>
    if (b.txcH k).seq.any fun x => x.2 = .full then
      (match b.fld (U.txc k) F.TXC_STAT_CH_STATE with | 1 => b.txcStop k | 4 => b.txcMute k b.t | _ => b)
    else b).muteHeads

/-- Kiln stops the module (R336): in the orderly way with 20 ms or more left, else at once. -/
def Block.kilnStop (b : Block) : Block :=
  if b.kiln.stopping then b
  else
    let n := b.tsWorst
    let orderly := b.kiln.forced || (match b.tsLeft n with | some (p, q) => decide (20 * q ≤ p) | none => true)
    let (b, sl, left) := b.tsRate n
    let w0 := (bit orderly <<< 16) + (n <<< 24) + (b.fld (U.ts n) F.TS_READ_FILT <<< 32)
    let words := [BitVec.ofNat 64 w0, BitVec.ofNat 64 (sl + (left <<< 16))]
    let (b, i) := b.takeFree
    let b := (b.setFlag U.kiln F.KILN_RATE_ORDERLY orderly).contained U.kiln C.kilnShutdown
    if orderly then
      let off := 2162688 + Config.killDelay i % (5898240 - 2162688 + 1)
      ((b.throttleAll).kilnRampDown).setKiln fun k => { k with
        stopping := true, stopWords := words
        stops := [(b.t + msTc, .silent), (b.t + 2162688, .retain), (b.t + off, .off)] }
    else
      let b := (b.moduleSquall F.ROOT_SQUALL_KILN false).thermalEnter
      b.setKiln fun k => { k with
        stopping := true, stopWords := words, stops := [(b.t + Config.killDelay i % 98305, .kill)] }

/-- LEVEL takes a new value below THERMAL_OFF, and the actions of the levels entered and left follow (R327 to R331, R336). -/
def Block.setLevel (b : Block) (new : Nat) : Block :=
  let old := b.fld U.kiln F.KILN_STAT_LEVEL
  if new = old then b
  else
    let b := b.levelShow new
    let b := b.when (decide (old < 2) && decide (2 ≤ new)) fun b => b.throttleEnter
    let b := b.when (decide (old < 3) && decide (3 ≤ new)) fun b => b.critEnter
    let b := b.when (old == 3 && new == 2) fun b =>
      b.setKiln fun k => { k with stepAt := k.ceilAt.map fun t => max b.t (t + 100 * msTc) }
    let b := b.when (decide (2 ≤ old) && decide (new < 2)) fun b => b.throttleLeave
    b.when (new == 4) fun b => b.kilnStop

/-! ## The commands -/

/-- Kiln's view after a sample: the hottest sensor, its rate of rise, and the doubled refresh of the stacks (R328, R344). -/
def Block.kilnShow (b : Block) : Block :=
  let h := b.tsHot
  let b := (b.setFld U.kiln F.KILN_STAT_HOT h).setFld U.kiln F.KILN_STAT_HOT_TEMP (b.fld (U.ts h) F.TS_READ_FILT)
  let (b, sl, left) := b.tsRate h
  let b := (b.setFld U.kiln F.KILN_RATE_SLOPE sl).setFld U.kiln F.KILN_RATE_LEFT left
  b.each [0, 1] fun b k =>
    b.setFlag (U.hs k) F.HS_STAT_REFRESH_2X ((List.range 4).any fun j => 1 ≤ b.fld (U.ts (40 + 4 * k + j)) F.TS_READ_LEVEL)

/-- Every sensor gives a raw sample, and kiln grades the module (R324 to R327, R334, R335). -/
def Block.kilnSample (b : Block) (raws : List (BitVec 16)) : Block :=
  let b := (b.each (List.range 48) fun b n => b.tsRaw n (raws.getD n 0)).setKiln fun k => { k with sampleAt := b.t }
  let bad := ((List.range 48).filter b.tsLive).filterMap fun n => if b.tsCause n = 0 then none else some (n, b.tsCause n)
  let b := b.each bad fun b x => b.tsFail x.1 x.2
  let b := (b.each (List.range 48) fun b n => b.tsTake n).kilnShow
  let top := if b.kiln.forced then 4 else (List.range 48).foldl (fun a n => max a (b.fld (U.ts n) F.TS_READ_LEVEL)) 0
  if b.fld U.kiln F.KILN_STAT_LEVEL < 4 then b.setLevel top else b

/-- TS_SAMPLE: 1 ms after the last samples, every sensor gives a raw sample in 1/16 °C. -/
def execTsSample (raws : List (BitVec 16)) (s : State) : Host.Outcome State Fault Refusal :=
  s.did fun b => if b.inReset then b else b.atElapsed (b.kiln.sampleAt + msTc) fun b => b.kilnSample raws

/-- KILN_STEP: the instant of the next throttle step is reached (R329, R330). -/
def execKilnStep (s : State) : Host.Outcome State Fault Refusal :=
  s.did fun b =>
    match b.kiln.stepAt with
    | none => b
    | some t => b.atElapsed t fun b =>
      let lv := b.fld U.kiln F.KILN_STAT_LEVEL
      if lv < 2 ∨ lv = 5 then b.setKiln fun k => { k with stepAt := none }
      else
        let n := b.fld U.kiln F.KILN_STAT_STEP
        let b := if n < 3 then b.throttleStep (n + 1) else b.ceilDown
        b.setKiln fun k => { k with stepAt := some (b.t + (if lv = 3 then 10 else 100) * msTc) }

/-- Every ceiling that has steps outstanding rises by 1 dB (R332). -/
def Block.ceilUp (b : Block) : Block :=
  let b := b.each ((List.range 128).filter fun m => b.fld (U.pbd m) F.LOOP_THERM_STEPS != 0) fun b m =>
    let n := b.fld (U.pbd m) F.LOOP_THERM_STEPS
    b.setTherm m (if n = 1 then 32767 else min 32767 (b.sfld (U.pbd m) (F.LOOP_SETPT_SETPT 2) + 64)) (n - 1)
  let left := (List.range 128).any fun m => b.fld (U.pbd m) F.LOOP_THERM_STEPS != 0
  (b.showCeil).setKiln fun k => { k with riseAt := if left then some (b.t + 100 * msTc) else none }

/-- THERM_CEIL_RISE: 100 ms after the fall below THROTTLE, and every 100 ms from then on. -/
def execThermCeilRise (s : State) : Host.Outcome State Fault Refusal :=
  s.did fun b =>
    match b.kiln.riseAt with
    | none => b
    | some t => b.atElapsed t fun b =>
      if 2 ≤ b.fld U.kiln F.KILN_STAT_LEVEL then b.setKiln fun k => { k with riseAt := none } else b.ceilUp

/-- Every TXC is silent as THERMAL_OFF is entered (R337). -/
def Block.kilnSilent (b : Block) : Block :=
  let b := b.thermalEnter
  let b := b.each (List.range 32) fun b k =>
    match b.fld (U.txc k) F.TXC_STAT_CH_STATE with
    | 3 | 4 => (b.setTxcCh k 4).setTxcH k { b.txcH k with out := false, paHigh := false, seq := [(b.t + 256, .swRx)] }
    | _ => b
  b.txcRefreshAt b.t

/-- The KILN-SHUTDOWN record (R373). -/
def Block.kilnRecord (b : Block) : Block := b.recEvent 0x06 U.kiln b.kiln.stopWords []

/-- A timed step of a thermal stop (R337, R338). -/
def Block.kilnStopDo (b : Block) (x : KilnStop) : Block :=
  match x with
  | .silent => (b.kilnSilent).kilnRecord
  | .retain => b.pwrRetain
  | .off => b.pwrKill
  | .kill => (b.pwrKill).kilnRecord

/-- KILN_ORDERLY_STEP: the next timed step of a thermal stop is reached. -/
def execKilnOrderlyStep (s : State) : Host.Outcome State Fault Refusal :=
  s.did fun b =>
    match b.kiln.stops with
    | [] => b
    | (t, x) :: rest => b.atElapsed t fun b => (b.setKiln fun k => { k with stops := rest }).kilnStopDo x

/-! ## RESUME (R339) -/

/-- Every live sensor and every substitute lies below the THROTTLE exit level of its kind. -/
def Block.kilnCool (b : Block) : Bool :=
  (List.range 48).all fun n =>
    (!b.tsLive n && (b.tsSubst n).isNone) || decide ((b.tsH n).value < tsUnits (tsThr n 2) - tsUnits b.hys)

/-- THERMAL_OFF is left: THROTTLE and the levels above it are left at every sensor, the level follows from the sensors, the
collector leaves RECOVERY, and the domains power up again. -/
def Block.kilnRestart (b : Block) : Block :=
  let b := b.each (List.range 48) fun b n =>
    let lv := b.fld (U.ts n) F.TS_READ_LEVEL
    let b := (b.setTsH n { b.tsH n with run2 := 0, run3 := 0, run4 := 0 }).setFld (U.ts n) F.TS_READ_LEVEL (min 1 lv)
    b.when (decide (1 < lv)) fun b => b.irq (U.ts n) 16
  let top := (List.range 48).foldl (fun a n => max a (b.fld (U.ts n) F.TS_READ_LEVEL)) 0
  let b := ((b.levelShow top).throttleLeave).setKiln fun k => { k with
    stopping := false, forced := false, stops := [], resume := (List.range 128).filter b.pbdOn }
  let b := (b.setFlag 0 F.ROOT_SQUALL_KILN false).moduleEnd
  let b := b.when (b.fld 0 F.FLT_COLLECT_INFO_PHASE == 3 && !b.flag 0 F.FLT_MODE_FATAL) fun b => b.setPhase 0 false
  ((((b.strobesUp).rootState).txcRefreshAll).pwrRestore)

/-- A write of KILN_CTRL.RESUME. -/
def Block.kilnResume (b : Block) : Block :=
  if b.thermalOff = false then b
  else if b.kilnCool then b.kilnRestart
  else (b.setFlag U.kiln F.KILN_STAT_CFG_REJ true).corrected U.kiln C.resumeHot

/-- KILN_RESUME. -/
def execKilnResume (who : Who) (s : State) : Host.Outcome State Fault Refusal :=
  s.did fun b => b.wr who U.kiln F.KILN_CTRL_RESUME fun b => b.kilnResume

/-- A channel of PBD `m` is back, or asks for no power. -/
def Block.chansBack (b : Block) (m : Nat) : Bool :=
  let ok := fun u => b.ownState u != St.off || !b.flag u F.UNIT_CTRL_POWER_REQ
  ((b.rxSlots m).all fun x => match x.2 with | .rxc k => ok (U.rxc k) | _ => true) &&
    (b.txSlots m).all fun x => match x.2 with | .txc k => ok (U.txc k) | _ => true

/-- At a tick boundary, a ramp from cold gain starts at each PBD in service that has its channels back, which is in margin
unknown until its next publication. -/
def Block.kilnTick (b : Block) : Block :=
  b.each b.kiln.resume fun b m =>
    let drop := fun (b : Block) => b.setKiln fun k => { k with resume := k.resume.filter (· ≠ m) }
    if b.pbdOn m = false then drop b
    else if b.chansBack m then ((drop b).unkSet m { cause := 0, lane := 0, from_ := b.t, cold := false, pub := false }).rampStart m
    else b

end Sys2Proof.Machine
end

