-- ==== Sys2Proof/Machine/Control.lean ====
section
/-! DEFINITION.
The unit tree's commands: UNIT_CTRL with its fan-out to groups (R22 to R27), UNIT_FAULT (R18, R19), the edits of host-defined
groups (R28, R29), the end of a ramp-down, and of a channel's calibration (R90). -/
namespace Sys2Proof.Machine

/-! ## UNIT_CTRL (R18, R22 to R25) -/

/-- A write of UNIT_CTRL: the fields that it gives, and the two actions. -/
structure CtrlW where
  en : Option Bool := none
  test : Option Bool := none
  pow : Option Bool := none
  fence : Bool := false
  unf : Bool := false
  deriving DecidableEq, Repr

/-- The switched domain of a unit. -/
def switched (u : Nat) : Option Nat := match domainOf u with | .pd d => some d | _ => none

/-- Bits of UNIT_CTRL that a write gives. -/
def CtrlW.mask (w : CtrlW) : Nat :=
  bit w.en.isSome + 2 * bit w.fence + 4 * bit w.unf + 8 * bit w.pow.isSome + 16 * bit w.test.isSome

/-- A unit that has left service for READY: its domain follows where POWER_REQ = 0, else what is held for it (R22, R23).
Where other units keep the domain ON, TEST_REQ alone takes the unit on. -/
def Block.afterLeave (b : Block) (μ : Mem) (u : Nat) : Block :=
  match switched u with
  | some d =>
    if b.unitWants u ∨ noPowerReq u then b.applyHeld μ u
    else
      let b := b.pwrEval d u
      if b.pd d = 2 ∧ b.ownState u = St.ready ∧ b.flag u F.UNIT_CTRL_TEST_REQ then b.enterTest μ u else b
  | none => b.applyHeld μ u

/-- A unit leaves service, and goes on at once where it has no ramp-down. -/
def Block.leaveThen (b : Block) (μ : Mem) (u : Nat) : Block :=
  let (b, done) := b.leave u
  if done then b.afterLeave μ u else b

/-- The write takes the unit out of service: TEST_REQ = 1, ENABLE = 0, or POWER_REQ = 0 for a switched unit. -/
def CtrlW.leaves (w : CtrlW) (u : Nat) : Bool :=
  w.test == some true || w.en == some false || (w.pow == some false && (switched u).isSome && !noPowerReq u)

/-- A unit in TEST whose ENABLE is 1 goes to ACTIVE without passing READY (R22); where its configuration is refused it goes to
READY. -/
def Block.testToActive (b : Block) (μ : Mem) (u : Nat) : Block :=
  if kindOf u = 0x05 ∨ kindOf u = 0x19 then b.setState u St.active
  else
    let b := (b.leaveQuiet u).activate μ u
    if b.ownState u = St.test then b.toReady u else b

/-- The state of a unit follows a write of UNIT_CTRL whose bits are stored (R22, R23). A chain leaves TEST by ENABLE = 0 too
(R179). POWER_REQ = 0 takes a unit from TEST to READY and then OFF as it does from ACTIVE (DESIGN CHOICE, log entry 96: the
table has no such row). -/
def Block.ctrlMove (b : Block) (μ : Mem) (u : Nat) (w : CtrlW) : Block :=
  match b.ownState u with
  | 1 =>
    if w.test = some true then b.enterTest μ u
    else if w.en = some true ∧ b.flag u F.UNIT_CTRL_TEST_REQ = false then b.activate μ u else b
  | 2 | 3 => if w.leaves u then b.leaveThen μ u else b
  | 5 =>
    if w.test = some false then
      if b.flag u F.UNIT_CTRL_ENABLE then b.testToActive μ u else b.leaveDo u
    else if w.pow = some false ∧ (switched u).isSome ∧ noPowerReq u = false then b.leaveThen μ u
    else if kindOf u = 0x19 ∧ w.en = some false ∧ w.test = none then b.leaveDo u
    else b
  | _ => b

/-- POWER_REQ as a write gives it: an HS in use refuses 0 (R286). True where it is refused. -/
def Block.ctrlPower (b : Block) (u : Nat) (w : CtrlW) : Block × Bool :=
  match w.pow with
  | none => (b, false)
  | some p =>
    if p = false ∧ kindOf u = 0x0A ∧ b.hsLocked then (b.corrected u C.cfgLocked, true)
    else (b.setFlag u F.UNIT_CTRL_POWER_REQ p, false)

/-- The domain of a unit follows its POWER_REQ (R341). -/
def Block.ctrlDomain (b : Block) (u : Nat) (w : CtrlW) : Block :=
  match w.pow, switched u with
  | some _, some d => if noPowerReq u then b else b.pwrEval d u
  | _, _ => b

/-- A FENCED or FAILED unit takes no write that asks for ENABLE or TEST_REQ (R22, R24, R27). -/
def Block.ctrlShut (b : Block) (u : Nat) (w : CtrlW) : Bool :=
  (b.ownState u == St.fenced || b.ownState u == St.failed) && (w.en == some true || w.test == some true)

/-- ENABLE and TEST_REQ as a unit stores them: a spare lane that backs nothing takes no ENABLE (R31). True where one is
refused. -/
def Block.ctrlBits (b : Block) (u : Nat) (w : CtrlW) : Block × CtrlW × Bool :=
  let spare := kindOf u == 0x07 && b.idleSpare (unitIndex u) && w.en == some true
  let b := if spare then b.laneRefused (unitIndex u) C.cfgLane else b
  let en := if spare then none else w.en
  let b := match en with | some x => b.setFlag u F.UNIT_CTRL_ENABLE x | none => b
  let b := match w.test with | some x => b.setFlag u F.UNIT_CTRL_TEST_REQ x | none => b
  (b, { w with en := en }, spare)

/-- A READY unit has stayed READY where a write asked it into service or TEST: its configuration refuses it (R76, R122,
R179, R281), and no first light holds it. -/
def Block.ctrlStays (b b' : Block) (u : Nat) (w : CtrlW) : Bool :=
  [0x05, 0x07, 0x09, 0x19].contains (kindOf u) && b.ownState u == St.ready && b'.ownState u == St.ready &&
    (w.test == some true || (w.en == some true && !b.flag u F.UNIT_CTRL_TEST_REQ)) && !w.fence &&
    !(kindOf u == 0x07 && (b'.laneH (unitIndex u)).flHeld)

/-- A unit receives a write of UNIT_CTRL. True where it refuses it, in whole or in part (R27). -/
def Block.ctrlUnit (b : Block) (μ : Mem) (u : Nat) (w : CtrlW) : Block × Bool :=
  if u = 0 then (b, false)
  else if kindOf u = 0x07 ∧ (b.leaderOf (unitIndex u)).isSome then (b, true)
  else if b.ctrlShut u w then (b, true)
  else
    let (b, no1) := b.ctrlPower u w
    let w := if no1 then { w with pow := none } else w
    let (b, w, no2) := b.ctrlBits u w
    let failed := b.ownState u == St.failed
    let b :=
      if w.fence then b.fenceUnit u
      else if w.unf then b.unfence u
      else b
    let c := if w.fence ∧ neverFenced u = false ∧ kindOf u ≠ 0x04 then b else b.ctrlMove μ u w
    (c.ctrlDomain u w, no1 || no2 || (failed && w.fence) || b.ctrlStays c u w)

/-! ## Fan-out (R27) -/

/-- Insert into a rising list without repeats. -/
def insertUid (u : Nat) : List Nat → List Nat
  | [] => [u]
  | a :: t => if u < a then u :: a :: t else if u = a then a :: t else a :: insertUid u t

/-- The flattened member set of a unit or group, ascending; `n` bounds the nesting (R28). -/
def Block.flatN (b : Block) (n u : Nat) : List Nat :=
  match n with
  | 0 => []
  | n + 1 =>
    if kindOf u = 0x20 then (b.grpMembers u).foldl (fun l m => (b.flatN n m).foldl (fun l x => insertUid x l) l) []
    else if isBuiltinGroup u then (builtinMembers u).foldl (fun l x => insertUid x l) [u]
    else [u]

/-- The flattened member set. -/
def Block.flat (b : Block) (u : Nat) : List Nat := b.flatN 12 u

/-- The fields of a write that no later-ranked write of the same Tc holds (R255). -/
def Block.ctrlFree (b : Block) (who : Who) (u : Nat) (w : CtrlW) : CtrlW :=
  let held := (b.heldBits who u R.UNIT_CTRL).toNat
  { w with
    en := if held % 2 = 1 then none else w.en
    pow := if held / 8 % 2 = 1 then none else w.pow
    test := if held / 16 % 2 = 1 then none else w.test
    unf := w.unf && !b.overridden u F.UNIT_CTRL_UNFENCE_REQ }

/-- A PBD that RESTART_LIMIT has fenced takes UNFENCE_REQ only from the PF, by itself or on a ring of its own, and from system
privilege (R203). -/
def Block.unfenceMay (b : Block) (who : Who) (u : Nat) : Bool :=
  kindOf u != 0x05 || b.ownState u != St.fenced || (b.pbdH (unitIndex u)).fencedBy != C.restartLimit || whoPfSys who ||
    (match who with
      | .cue _ r _ => r < 16384 && Word.fld (Store.get RingH.init b.rings r).d1 20 16 == 0 && Word.fld (Store.get RingH.init b.rings r).d1 14 8 == 0
      | _ => false)

/-- A copy of a write reaches a unit and its collision order. -/
def Block.ctrlCopy (b : Block) (μ : Mem) (who : Who) (u : Nat) (w : CtrlW) : Block × Bool :=
  let w' := b.ctrlFree who u w
  let b := b.hitMask who u R.UNIT_CTRL (BitVec.ofNat 64 w.mask)
  if w'.unf && !b.unfenceMay who u then
    let y := (b.privRefused (unitIndex u)).ctrlUnit μ u { w' with unf := false }
    (y.1, true)
  else b.ctrlUnit μ u w'

/-- The pseudo-channel `v` receives POWER_REQ = 0 by way of its HS, which refuses it (R286). -/
def Block.pcHeld (b : Block) (us : List Nat) (v : Nat) (w : CtrlW) : Bool :=
  kindOf v == 0x0B && w.pow == some false && b.hsLocked && us.contains (U.hs (unitIndex v / 32))

/-- The copies of a write of UNIT_CTRL reach every unit of the flattened set once, in ascending UID order; with the number of
units that refuse theirs. DEDUCED: a POWER_REQ = 0 that an HS refuses does not reach its pseudo-channels either (log entry 105). -/
def Block.ctrlFan (b : Block) (μ : Mem) (who : Who) (u : Nat) (w : CtrlW) : Block × Nat :=
  (b.flat u).foldl (fun (x : Block × Nat) v =>
    let held := b.pcHeld (b.flat u) v w
    let (b, no) := x.1.ctrlCopy μ who v (if held then { w with pow := none } else w)
    (b, x.2 + bit (no || held))) (b, 0)

/-- A write of UNIT_CTRL of a unit or a group; a host-defined group counts the units that refuse it. -/
def Block.ctrlWrite (b : Block) (μ : Mem) (who : Who) (u : Nat) (w : CtrlW) : Block :=
  let x := b.ctrlFan μ who u w
  if kindOf u = 0x20 then x.1.setFld u F.GRP_STAT_REFUSED (min 65535 x.2) else x.1

/-- The writer reaches a page that the fatal latch alone shuts (R358). -/
def Block.latchOnly (b : Block) (who : Who) (u : Nat) : Bool :=
  b.flag 0 F.FLT_MODE_FATAL && !b.inReset &&
    (match who with | .vf k => !b.linkDown && b.vfMay k true u | .pf => !b.linkDown | _ => true)

/-- What a coast leaves of a host write to UNIT_CTRL: FENCE_REQ and ENABLE = 0 (R411). -/
def coastCtrl (w : CtrlW) : CtrlW := { en := if w.en = some false then some false else none, fence := w.fence }

/-- The writer reaches UNIT_CTRL; under the fatal latch POWER_REQ = 0 alone is taken (R358). -/
def Block.ctrlBy (b : Block) (μ : Mem) (who : Who) (u : Nat) (w : CtrlW) : Block :=
  if reservedUid u then b
  else if b.writeOk who u then
    if b.hostHeld who then
      if w.fence ∨ w.en = some false then b.ctrlWrite μ who u (coastCtrl w) else b.ignored who
    else b.ctrlWrite μ who u w
  else if b.latchOnly who u ∧ w.pow = some false then b.ctrlWrite μ who u { pow := some false }
  else b

/-- ENABLE: a write of UNIT_CTRL.ENABLE. -/
def execEnable (who : Who) (u : Nat) (on : Bool) (s : State) : Host.Outcome State Fault Refusal :=
  s.done fun μ b => b.ctrlBy μ who u { en := some on }

/-- FENCE_REQ: a write of UNIT_CTRL.FENCE_REQ. -/
def execFenceReq (who : Who) (u : Nat) (s : State) : Host.Outcome State Fault Refusal :=
  s.done fun μ b => b.ctrlBy μ who u { fence := true }

/-- UNFENCE_REQ: a write of UNIT_CTRL.UNFENCE_REQ. -/
def execUnfenceReq (who : Who) (u : Nat) (s : State) : Host.Outcome State Fault Refusal :=
  s.done fun μ b => b.ctrlBy μ who u { unf := true }

/-- POWER_REQ: a write of UNIT_CTRL.POWER_REQ. -/
def execPowerReq (who : Who) (u : Nat) (on : Bool) (s : State) : Host.Outcome State Fault Refusal :=
  s.done fun μ b => b.ctrlBy μ who u { pow := some on }

/-- TEST_REQ: a write of UNIT_CTRL.TEST_REQ. -/
def execTestReq (who : Who) (u : Nat) (on : Bool) (s : State) : Host.Outcome State Fault Refusal :=
  s.done fun μ b => b.ctrlBy μ who u { test := some on }

/-- A unit's ramp-down is over (R22). -/
def Block.rampDone (b : Block) (μ : Mem) (u : Nat) : Block :=
  let b := { b with ramping := Store.set 0 b.ramping u 0 }
  -- a TXC that has ramped down is in STANDBY before its unit is READY
  let b := if kindOf u = 0x03 ∧ (b.txcH (unitIndex u)).seq.any (fun x => x.2 = .standby) then
      b.setTxcH (unitIndex u) { b.txcH (unitIndex u) with seq := [(b.t + 256, .swRx)], out := false, paHigh := false } else b
  let b := if kindOf u = 0x03 then b.setTxcCh (unitIndex u) 1 else b
  if b.ownState u = St.active ∨ b.ownState u = St.lull ∨ b.ownState u = St.test then (b.leaveDo u).afterLeave μ u else b

/-- RAMP_DOWN_DONE: the ramp-down of unit `u` is over. -/
def execRampDownDone (u : Nat) (s : State) : Host.Outcome State Fault Refusal :=
  s.done fun μ b =>
    match Store.get 0 b.ramping u with
    | 0 => b
    | t + 1 => b.atElapsed t fun b => b.rampDone μ u

/-! ## UNIT_FAULT (R18, R19) -/

/-- A write of the W1C bits of UNIT_FAULT: where none of [18:16] is left, CODE and CLASS read zero; the faults of its Tc are
applied after it. -/
def Block.faultClear (b : Block) (u : Nat) (v : Word) : Block :=
  let w := b.reg u R.UNIT_FAULT &&& ~~~(v &&& BitVec.ofNat 64 0x30000)
  let w := if Word.fld w 18 16 = 0 then Word.setFld w 9 0 0 else w
  (b.setReg u R.UNIT_FAULT w).each (b.faultsNow u) Block.holdFault

/-- UNIT_FAULT_CLEAR. -/
def execUnitFaultClear (who : Who) (u : Nat) (v : Word) (s : State) : Host.Outcome State Fault Refusal :=
  s.did fun b =>
    if reservedUid u then b else b.wrMask who u R.UNIT_FAULT (v &&& BitVec.ofNat 64 0x30000) fun b => b.faultClear u v

/-- CNT_CLR: CORR_CNT returns to 0, and the CORRECTED faults of its Tc count after it (R19, R254). -/
def Block.cntClear (b : Block) (u : Nat) : Block :=
  b.setFld u F.UNIT_FAULT_CORR_CNT (min 65535 ((b.faultsNow u).filter fun e => e.cls == 1).length)

/-- CNT_CLR. -/
def execCntClr (who : Who) (u : Nat) (s : State) : Host.Outcome State Fault Refusal :=
  s.did fun b => if reservedUid u then b else b.wr who u F.UNIT_FAULT_CNT_CLR (·.cntClear u)

/-! ## Host-defined groups (R28, R29) -/

/-- Members of a group with the edits that wait for the next Tc. -/
def Block.edited (b : Block) (g : Nat) : List Nat :=
  match b.edits.find? fun e => e.1 == g with
  | some e => e.2
  | none => b.grpMembers g

/-- Host-defined groups that have members or an edit under way. -/
def Block.hostGroups (b : Block) : List Nat := (b.groups.map (·.1) ++ b.edits.map (·.1)).foldl (fun l x => insertUid x l) []

/-- Nesting levels below a group (R28). -/
def Block.depthN (b : Block) (n g : Nat) : Nat :=
  match n with
  | 0 => 0
  | n + 1 =>
    if kindOf g = 0x20 then
      (b.edited g).foldl (fun d m => if kindOf m = 0x20 ∨ isBuiltinGroup m then max d (1 + b.depthN n m) else d) 0
    else 0

/-- Nesting levels below a group as its members stand (R29). -/
def Block.depthNow (b : Block) (n g : Nat) : Nat :=
  match n with
  | 0 => 0
  | n + 1 =>
    if kindOf g = 0x20 then
      (b.grpMembers g).foldl (fun d m => if kindOf m = 0x20 ∨ isBuiltinGroup m then max d (1 + b.depthNow n m) else d) 0
    else 0

/-- A group is reached from another, itself included. -/
def Block.reachN (b : Block) (n from_ g : Nat) : Bool :=
  match n with
  | 0 => false
  | n + 1 => from_ == g || (kindOf from_ == 0x20 && (b.edited from_).any fun m => b.reachN n m g)

/-- An edit of group `g` waits for the next Tc. -/
def Block.setEdit (b : Block) (g : Nat) (l : List Nat) : Block :=
  { b with edits := (b.edits.filter (·.1 ≠ g)) ++ [(g, l)] }

/-- RESULT of an edit: the first check that fails (R28), in the codes of GRP_STAT. -/
def Block.editResult (b : Block) (g u : Nat) (add : Bool) : Nat :=
  if reservedUid u then 6
  else if protectedUid u then 1
  else if add = false then (if (b.edited g).contains u then 0 else 8)
  else if (b.edited g).contains u then 7
  else if 255 ≤ (b.edited g).length then 2
  else if 8 ≤ (b.hostGroups.filter fun h => (b.edited h).contains u).length then 5
  else if b.reachN 12 u g then 3
  else
    let b' := b.setEdit g (insertUid u (b.edited g))
    if (g :: b.hostGroups).any fun h => 8 < b'.depthN 12 h then 4 else 0

/-- A write of GRP_EDIT: OP 1 add, 2 remove, 3 remove all. -/
def Block.grpEdit (b : Block) (g u op : Nat) : Block :=
  match op with
  | 1 =>
    let r := b.editResult g u true
    let b := b.setFld g F.GRP_STAT_RESULT r
    if r = 0 then b.setEdit g (insertUid u (b.edited g)) else b
  | 2 =>
    let r := b.editResult g u false
    let b := b.setFld g F.GRP_STAT_RESULT r
    if r = 0 then b.setEdit g ((b.edited g).filter (· ≠ u)) else b
  | 3 => (b.setFld g F.GRP_STAT_RESULT 0).setEdit g []
  | _ => b

/-- A write of GRP_EDIT by a writer. -/
def Block.grpBy (b : Block) (who : Who) (g u op : Nat) : Block :=
  if kindOf g = 0x20 then b.wrReg who g R.GRP_EDIT .lo fun b => b.grpEdit g u op else b

/-- GRP_ADD. -/
def execGrpAdd (who : Who) (g u : Nat) (s : State) : Host.Outcome State Fault Refusal := s.did fun b => b.grpBy who g u 1

/-- GRP_REMOVE. -/
def execGrpRemove (who : Who) (g u : Nat) (s : State) : Host.Outcome State Fault Refusal := s.did fun b => b.grpBy who g u 2

/-- GRP_REMOVE_ALL. -/
def execGrpRemoveAll (who : Who) (g u : Nat) (s : State) : Host.Outcome State Fault Refusal := s.did fun b => b.grpBy who g u 3

/-! ## Calibration of a channel (R84, R90) -/

/-- A channel that came to STANDBY from OFF takes what is held for its unit (R23). -/
def Block.chanHeld (b : Block) (μ : Mem) (was u : Nat) : Block :=
  if was = St.off ∧ b.ownState u = St.ready then b.applyHeld μ u else b

/-- CAL_RESTORE_DONE: 60 µs after the domain's power-up the restore of channel `u` is complete; `bad` marks the slices that
fail the check of R84, `trimBad` a DAC trim that fails. -/
def execCalRestoreDone (u bad : Nat) (trimBad : Bool) (s : State) : Host.Outcome State Fault Refusal :=
  s.done fun μ b =>
    match (if kindOf u = 0x02 ∨ kindOf u = 0x03 then b.restoreDue u else none) with
    | some t => b.atElapsed t fun b => (b.restoreDone μ u bad trimBad).chanHeld μ (b.ownState u) u
    | none => b

/-- FOREGROUND_CAL_DONE: the foreground calibration of channel `u` ends with its corrections; the slices of `bad` fail. -/
def execForegroundCalDone (u : Nat) (corr : List Word) (bad : Nat) (s : State) : Host.Outcome State Fault Refusal :=
  s.done fun μ b =>
    match (if kindOf u = 0x02 ∨ kindOf u = 0x03 then b.calDue u else none) with
    | some t => b.atElapsed t fun b =>
      ((((b.setCalDue u none).setCorr u corr bad).chanReady u).chanHeld μ (b.ownState u) u)
    | none => b

end Sys2Proof.Machine
end

