-- ==== Sys2Proof/Machine/DspOps.lean ====
section
/-! DEFINITION.
The dispatcher (R243 to R252, R260, R262): staging, acknowledgment, waiting, issue and expiry, retirement with its
notification and repeat, cancellation, and the start of a model prefetch (R128). -/
namespace Sys2Proof.Machine

/-- Late classes of actions (R245, R248). -/
inductive LateClass where
  | s | e | v | m
  deriving DecidableEq, Repr

/-- The late class that R245 gives an action. -/
def lateTable (c : Ctx) : LateClass :=
  match c.action with
  | 0x02 | 0x03 => if c.arg 0 1 % 2 = 0 then .s else .e
  | 0x04 | 0x15 | 0x16 | 0x3F => .s
  | 0x10 => .m
  | 0x14 => .v
  | 0x31 => if c.arg 1 1 % 2 = 0 then .s else .e
  | _ => .e

/-- A late cue expires beyond its tolerance: class E, and class V with a value above the cap in force while L4 is enabled. -/
def Block.mayExpire (b : Block) (c : Ctx) : Bool :=
  match lateTable c with
  | .e => true
  | .v => b.actFlag c.target (F.LOOP_CTRL_EN 4) && decide (b.actS c.target (F.LOOP_SETPT_SETPT 4) < sext 16 (c.arg 0 2))
  | _ => false

/-! ## Staging (R247) -/

/-- Cues that may be staged now: ARMED with E at most 8,192 Tc ahead, no slot yet, and room in their unit's shadow. -/
def Block.stageable (b : Block) : List (Nat × Ctx) :=
  (Store.view b.ctxs).filter fun x => x.2.state == Cue.armed && !x.2.slot && decide (x.2.e - 8192 ≤ (b.time.air : Int)) &&
    decide ((b.time.air : Int) ≤ x.2.e) && decide (b.shadowUsed x.2.target < 16)

/-- CUE_STAGE: the dispatcher stages the first cue in the order of R247, at most one in a Tc, and none while a cue waits. -/
def Block.cueStage (b : Block) : Block :=
  if b.flag 0 F.FLT_MODE_FATAL ∨ b.dsp.stagedAt = b.t + 1 ∨ 2048 ≤ b.inflight ∨ b.waitingCues.isEmpty = false then b
  else
    match firstCue b.stageable with
    | some (x, c) =>
      let b := b.setCtx x { c with slot := true, slotAt := b.t }
      ({ b with dsp := { b.dsp with stagedAt := b.t + 1 } }).slotTaken
    | none => b

/-- CUE_STAGE. -/
def execCueStage (s : State) : Host.Outcome State Fault Refusal := s.did (·.cueStage)

/-- A staged SWAPMODEL stands at its lanes. -/
def Block.swapStaged (b : Block) (x : Nat) : Block :=
  b.each (b.swapLanes (b.ctx x).target) fun b i =>
    match (b.laneH i).swaps.find? fun y => y.ctx == x with
    | some y => b.setSwap i { y with staged := true }
    | none => b

/-- The shadow write of context `x` is acknowledged: it is STAGED. -/
def Block.ackStage (b : Block) (x : Nat) : Block :=
  let c := b.ctx x
  let b := (b.note 32 1 1).setCtx x { c with state := Cue.staged }
  if c.action = 0x20 then b.swapStaged x else b

/-- CUE_SHADOW_ACK: the shadow write of context `x` is acknowledged, at or before E. -/
def execCueShadowAck (x : Nat) (s : State) : Host.Outcome State Fault Refusal :=
  s.did fun b =>
    let c := b.ctx x
    if c.state = Cue.armed ∧ c.slot ∧ (b.time.air : Int) ≤ c.e then b.ackStage x else b

/-- CUE_WAIT: an ARMED cue reaches E without a slot, or unacknowledged, and waits. A write staged its transport bound or more before E
has reached its unit by then and is acknowledged (R247). -/
def execCueWait (x : Nat) (s : State) : Host.Outcome State Fault Refusal :=
  s.did fun b =>
    let c := b.ctx x
    if c.state = Cue.armed then
      b.atElapsed (b.elapsedOfAir c.e.toNat) fun b =>
        if c.slot ∧ c.slotAt + shadowTc c.target ≤ b.t then b.ackStage x
        else
          let b := b.slotFree x
          b.setCtx x { b.ctx x with state := Cue.waiting }
    else b

/-! ## Retirement (R247, R248) -/

/-- Lateness as the context and the registers hold it. -/
def lateSat (l : Int) : Nat := min (2 ^ 32 - 1) l.toNat

/-- An occurrence has executed, late or in time, or was refused or failed: 1 EXECUTED, 2 LATE, 4 REFUSED, 5 FAILED. -/
def Block.retireAs (b : Block) (x res : Nat) (late : Int) : Block :=
  let b := b.slotFree x
  let c := b.ctx x
  let l := lateSat late
  let b := b.setCtx x { c with
    state := Cue.done, result := res, lateness := l, occ := (c.occ + 1) % 2 ^ 32, effAt := b.now }
  let b := if res = 1 then b.note 32 2 1 else if res = 2 then b.note 32 3 1 else if res = 3 then b.note 32 4 1
    else if res = 4 then b.note 32 5 1 else b
  if res = 2 then
    (b.incSat U.dsp F.DSP_LATE_CNT_LATE 1).setFld U.dsp F.DSP_PEAK_LATE_MAX (max l (b.fld U.dsp F.DSP_PEAK_LATE_MAX))
  else if 4 ≤ res then b.incSat U.dsp F.DSP_REJ_CNT_EXEC_REJ 1
  else b

/-- The reports of an expiry (R248, R262, R263). -/
def Block.expiryReport (b : Block) (x : Nat) : Block :=
  let c := b.ctx x
  let b := (b.incSat U.dsp F.DSP_LATE_CNT_EXPIRED 1).setFld U.dsp F.DSP_LAST_EXP_CTX x
  let b := (b.setFld U.dsp F.DSP_LAST_EXP_ACTION c.action).setFld U.dsp F.DSP_LAST_EXP_TARGET c.target
  ((b.setReg U.dsp R.DSP_LAST_EXP_STAMP c.stamp).irq U.dsp 19).corrected U.dsp C.cueExpired

/-- An occurrence expires: no effect, and its slot is freed at the next Tc. -/
def Block.expire (b : Block) (x : Nat) (late : Int) : Block :=
  let b := b.setCtx x { b.ctx x with slot := true }
  let b := (b.slotTaken.retireAs x 3 late).expiryReport x
  let c := b.ctx x
  if c.action = 0x20 then b.each (b.swapLanes c.target) fun b i => b.swapExpire i x else b

/-- The WAITING cue that is first in order takes a slot: it expires, or is issued, at most one issue in a Tc (R248, R251). -/
def Block.cueIssue (b : Block) : Block :=
  if b.flag 0 F.FLT_MODE_FATAL ∨ 2048 ≤ b.inflight then b
  else
    match firstCue b.waitingCues with
    | none => b
    | some (x, c) =>
      let il := (b.time.air : Int) - c.e
      if b.mayExpire c ∧ (c.tolTc : Int) < il then b.expire x il
      else if b.dsp.issuedAt = b.t + 1 then b
      else
        let b := b.setCtx x { c with slot := true, state := Cue.issued, lateness := lateSat il }
        ({ b with dsp := { b.dsp with issuedAt := b.t + 1 } }).slotTaken

/-- CUE_ISSUE. -/
def execCueIssue (s : State) : Host.Outcome State Fault Refusal := s.did (·.cueIssue)

/-- The result of a DIRECTION occurrence whose parts have all been reached: FAILED, EXPIRED, LATE or EXECUTED (R72, R96). -/
def Block.dirResult (b : Block) (x : Nat) : Block :=
  let c := b.ctx x
  let h := b.pbH (c.target - 0x0080)
  let late : Int := c.lateness
  if h.dirFail.contains x then b.retireAs x 5 late
  else if h.dirExpired.contains x then (b.retireAs x 3 late).expiryReport x
  else if h.dirLate.contains x then b.retireAs x 2 late
  else b.retireAs x 1 0

/-- The result of an occurrence whose action waited for lock: FAILED, LATE or EXECUTED, with the stamp of its effect (R96). -/
def Block.lockResult (b : Block) (x : Nat) : Block :=
  let c := b.ctx x
  let late : Int := c.lateness
  let b := if b.dsp.fails.contains x then ({ b with dsp := { b.dsp with fails := b.dsp.fails.erase x } }).retireAs x 5 late
    else b.retireAs x (if 0 < late then 2 else 1) late
  b.setCtx x { b.ctx x with effAt := c.effAt }

/-- Parts of an occurrence have yet to be reached: steps of a direction switch, or lock at a TXC (R72, R96). -/
def Block.cueParts (b : Block) (x : Nat) : Bool :=
  let c := b.ctx x
  c.result = 0 && (if c.action = 0x10 then (b.pbH (c.target - 0x0080)).steps.any fun y => y.ctx == x
    else (List.range 32).any fun k => (b.txcH k).waitCtx == some x)

/-- A notification is asked for (R260). -/
def notifyAsked (c : Ctx) : Bool :=
  c.ctrl / 4 % 2 == 1 || (c.ctrl / 8 % 2 == 1 && 2 ≤ c.result && c.result ≤ 5)

/-- The repeat rule re-arms a retired context, or frees it (R249). -/
def Block.rearm (b : Block) (x : Nat) : Block :=
  let c := b.ctx x
  if c.period = 0 ∨ c.count = 0 then b.freeCtx x
  else
    let gap := (b.time.air : Int) - (tcOf c.stamp + c.period - b.cueAdv c)
    let k := if (c.period : Int) < gap then (gap / c.period).toNat else 0
    let k := if c.count = 65535 then k else min k (c.count - 1)
    let b := match lateTable c with
      | .e | .v => (b.note 32 4 k).incSat U.dsp F.DSP_LATE_CNT_EXPIRED k
      | _ => b
    b.placeCtx x { c with
      stamp := stampOf (tcOf c.stamp + (1 + k) * c.period), occ := (c.occ + k) % 2 ^ 32
      count := if c.count = 65535 then 65535 else c.count - 1 - k }

/-- A DONE context posts its notification and is re-armed or freed (R243). An occurrence retires when all its parts have been
reached. -/
def Block.cueRetire (b : Block) (x : Nat) : Block :=
  let c := b.ctx x
  if c.state ≠ Cue.done then b
  else if b.cueParts x then b
  else
    let b := if c.result ≠ 0 then b else if c.action = 0x10 then b.dirResult x else b.lockResult x
    let c := b.ctx x
    let b := if notifyAsked c then
        match b.notifyRing c.origin with
        | some r => b.notifyPost r (notifyEntry x c)
        | none => b
      else b
    b.rearm x

/-- CUE_RETIRE. -/
def execCueRetire (x : Nat) (s : State) : Host.Outcome State Fault Refusal := s.did (·.cueRetire x)

/-! ## Host operations (R243, R262) -/

/-- The writer may cancel a context: the PF any, another function one popped from its own rings. -/
def Block.mayCancel (b : Block) (who : Who) (x : Nat) : Bool :=
  match who with
  | .pf | .mspi => true
  | .vf k => (b.ctx x).origin < 16384 && (b.ring (b.ctx x).origin).func == k
  | _ => false

/-- A write of DSP_CANCEL. -/
def Block.dspCancel (b : Block) (who : Who) (x : Nat) : Block :=
  let code := cancelCode (b.ctx x) (b.mayCancel who x)
  let b := if code = 0 then b.cancelCtx x else b
  b.setFld U.dsp F.DSP_CANCEL_RESULT code

/-- DSP_CANCEL. -/
def execDspCancel (who : Who) (x : Nat) (s : State) : Host.Outcome State Fault Refusal :=
  s.did fun b => b.wr who U.dsp F.DSP_CANCEL_CTX fun b => b.dspCancel who x

/-- DSP_PEAK.CLR clears both peaks. -/
def Block.dspPeakClr (b : Block) : Block :=
  (b.setFld U.dsp F.DSP_PEAK_INFLIGHT 0).setFld U.dsp F.DSP_PEAK_LATE_MAX 0

/-- DSP_PEAK_CLR. -/
def execDspPeakClr (who : Who) (s : State) : Host.Outcome State Fault Refusal :=
  s.did fun b => b.wr who U.dsp F.DSP_PEAK_CLR fun b => b.dspPeakClr

/-! ## Model prefetch (R128, R129) -/

/-- MODEL_PREFETCH_START: at S − LEAD, or at the swap before it if that is later, the prefetch for the cue in context `x`
begins at lane `i`. -/
def execModelPrefetchStart (i x : Nat) (s : State) : Host.Outcome State Fault Refusal :=
  s.did fun b =>
    let c := b.ctx x
    let st := tcOf c.stamp
    let key := c.arg 0 4
    let prev := ((b.laneH i).swaps.filter fun y => y.ctx ≠ x ∧ y.stamp < st).foldl (fun a y => max a y.stamp) 0
    let at_ := max (st - b.fld (U.lane i) F.LANE_PF_LEAD) prev
    if c.action = 0x20 ∧ c.state ≠ Cue.free ∧ c.state ≠ Cue.done ∧ (b.swapLanes c.target).contains i ∧
        (b.leaderOf i).isNone ∧ b.inService (U.lane i) ∧ b.keyDirOk i key then
      b.atElapsed (b.elapsedOfAir at_) fun b => b.prefetchStart i x key st
    else b

end Sys2Proof.Machine
end

