-- ==== Sys2Proof/Machine/Recorder.lean ====
section
/-! DEFINITION.
The event recorder (R371 to R382): records in MRAM, repeat counting, staging and loss, the end of recording, clearing and
reading. -/
namespace Sys2Proof.Machine

/-- First byte beyond the main area, and the places of the FULL and after-full LOST records (R371). -/
def mainEnd : Nat := 0x3FE000
def fullAt : Nat := 0x3FF000
def lostAt : Nat := 0x3FF010

/-! Record types of the recorder's own (R373). -/
namespace Rt
def clear : Nat := 0x0B
def lifecycle : Nat := 0x0C
def powerUp : Nat := 0x0A
def firmware : Nat := 0x08
def protect : Nat := 0x09
def lost : Nat := 0x3E
def full : Nat := 0x3F
end Rt

/-! ## Digest and header (R372, R376) -/

/-- One bit of the CRC-32 of IEEE 802.3, reflected. -/
def crcBit (c : Nat) : Nat → Nat
  | 0 => c
  | n + 1 => crcBit (if c % 2 = 1 then (c / 2) ^^^ 0xEDB88320 else c / 2) n

/-- The CRC-32 of a list of bytes. -/
def crc32 (l : List Nat) : BitVec 32 :=
  BitVec.ofNat 32 ((l.foldl (fun c x => crcBit (c ^^^ x) 8) 0xFFFFFFFF) ^^^ 0xFFFFFFFF)

/-- The digest of an event's payload: every byte but REPEAT and the words left out. -/
def RecEv.digest (e : RecEv) : BitVec 32 :=
  crc32 ((List.range (8 * e.words.length)).filterMap fun k =>
    if k < 2 ∨ e.excl.contains (k / 8) then none else some (Word.fld (e.words.getD (k / 8) 0) (8 * (k % 8) + 7) (8 * (k % 8))))

/-- CLASS, INJ, SAME_CYCLE and COINCIDENT of an event. -/
def RecEv.flags (e : RecEv) : Nat := e.cls + 4 * bit e.inj + 8 * bit e.same + 16 * bit e.coin

/-- Length of a record in bytes. -/
def RecEv.len (e : RecEv) : Nat := 16 + 8 * e.words.length

/-- The two header words of a record. -/
def RecEv.header (e : RecEv) (seq : Nat) : Word × Word :=
  (BitVec.ofNat 64 (e.words.length + 1 + (e.typ <<< 5) + (e.flags <<< 11) + (e.uid <<< 16) + (seq <<< 32)),
   BitVec.ofNat 64 (e.opsec + (e.pwrcyc <<< 40)))

/-! ## State of the recorder -/

def Block.setRec (b : Block) (f : RecH → RecH) : Block := { b with recd := f b.recd }

/-- REC_STAT shows the recorder. -/
def Block.showRec (b : Block) : Block :=
  let b := b.setFlag U.rec F.REC_STAT_CLEARING b.recd.clearing.isSome
  let b := b.setFlag U.rec F.REC_STAT_BUSY b.recd.writing.isSome
  b.setFld U.rec F.REC_STAT_STAGED b.recd.staging.length

/-- An event takes the operating counters and the instant of its arrival (R375). -/
def Block.recStamp (b : Block) (e : RecEv) : RecEv :=
  { e with opsec := b.sync.opsec, pwrcyc := b.sync.pwrcyc, arrival := b.t }

/-- An event of the recorder's own. -/
def Block.recOwn (b : Block) (typ uid : Nat) (words : List Word) : RecEv :=
  b.recStamp { typ := typ, cls := 0, inj := false, same := false, coin := false, uid := uid, words := words, excl := []
               cyc := 0, opsec := 0, pwrcyc := 0, arrival := 0 }

/-- Store a record's words at an MRAM offset. -/
def Block.putRecord (b : Block) (off seq : Nat) (e : RecEv) : Block :=
  let (h0, h1) := e.header seq
  let b := (b.put64 .mram (off / 8) h0).put64 .mram (off / 8 + 1) h1
  b.each (List.range e.words.length) fun b j => b.put64 .mram (off / 8 + 2 + j) (e.words.getD j 0)

/-- A record is committed (R377). -/
def Block.commitRecord (b : Block) (off : Nat) (e : RecEv) : Block :=
  let seq := b.fld U.rec F.REC_SEQ_HEAD_HEAD + 1
  let b := (b.putRecord off seq e).setFld U.rec F.REC_SEQ_HEAD_HEAD seq
  let b := (b.incWrap U.rec F.REC_SEQ_HEAD_CHG 1).irq U.rec 16
  b.when (e.typ == Rt.lost) fun b => b.irq U.rec 17

/-! ## Staging and the match test (R376, R378, R379) -/

/-- The event is identical to the newest record and arrives within the window. -/
def Block.recMatch (b : Block) (e : RecEv) : Bool :=
  match b.recd.newest with
  | some n =>
    let win := b.fld U.rec F.REC_CFG_WIN * 10 * msTc
    e.typ != Rt.lost && e.typ != Rt.full && n.typ != Rt.lost && n.typ == e.typ && n.uid == e.uid && n.flags == e.flags &&
      n.digest == e.digest && decide (e.arrival < n.arrival + win) && decide (n.rep < 65535)
  | none => false

/-- A count into the after-full LOST record; a LOST event's own count is already in TOTAL. -/
def Block.countAfter (b : Block) (e : RecEv) : Block :=
  let n := if e.typ = Rt.lost then Word.fld (e.words.headD 0) 47 16 else 1
  let b := b.incSat U.rec F.REC_LOST_AFTER_FULL n
  if e.typ = Rt.lost then b else b.incSat U.rec F.REC_LOST_TOTAL 1

/-- An entry leaves the staging buffer: the MRAM write that it brings begins. -/
def Block.recTake (b : Block) (e : RecEv) : Block :=
  if b.recMatch e then b.setRec fun h => { h with writing := some .increment }
  else if b.flag U.rec F.REC_STAT_FULL then
    (b.countAfter e).setRec fun h => { h with writing := some .afterFull }
  else if b.fld U.rec F.REC_STAT_NEXT + e.len ≤ mainEnd then b.setRec fun h => { h with writing := some (.record e) }
  else b.setRec fun h => { h with writing := some (.full e) }

/-- The next staged entry leaves the buffer; the entry that it frees takes a LOST record while losses are pending. -/
def Block.recNext (b : Block) : Block :=
  if b.recd.writing.isSome ∨ b.recd.clearing.isSome then b
  else
    match b.recd.staging with
    | [] => b
    | e :: t =>
      let n := b.recd.pendingLost
      let lost := if n = 0 then [] else [b.recOwn Rt.lost U.rec [BitVec.ofNat 64 (min n (2 ^ 32 - 1) <<< 16)]]
      (b.setRec fun h => { h with staging := t ++ lost, pendingLost := 0 }).recTake e

/-- An event reaches the recorder. -/
def Block.recArrive (b : Block) (e : RecEv) : Block :=
  let e := b.recStamp e
  if b.recd.writing.isNone ∧ b.recd.clearing.isNone ∧ b.recd.staging.isEmpty then b.recTake e
  else if b.recd.staging.length < 64 then b.setRec fun h => { h with staging := h.staging ++ [e] }
  else
    ((b.setRec fun h => { h with pendingLost := h.pendingLost + 1 }).incSat U.rec F.REC_LOST_TOTAL 1).corrected U.rec C.recLost

/-- The first event on its way reaches the recorder. -/
def Block.recPop (b : Block) : Block :=
  match b.recd.incoming with
  | e :: t => ((b.setRec fun h => { h with incoming := t }).recArrive e).showRec
  | [] => b

/-- The first event is a fault of the collector cycle that still runs: others may yet come before it (R361, R374). -/
def Block.recOpen (b : Block) : Bool :=
  match b.recd.incoming with
  | e :: _ => e.typ == 0x01 && b.time.running && e.words.getD 1 0 == b.cycleStamp && e.words.getD 1 0 != 0
  | [] => false

/-- REC_EVENT: the first event on its way reaches the recorder, a fault no earlier than its collector cycle has ended. -/
def execRecEvent (s : State) : Host.Outcome State Fault Refusal :=
  s.did fun b => if b.recOpen then b.atElapsed (b.t + (4 - b.time.air % 4)) (·.recPop) else b.recPop

/-! ## MRAM writes (R377, R379) -/

/-- The write of a record ends. -/
def Block.recordDone (b : Block) (e : RecEv) : Block :=
  let off := b.fld U.rec F.REC_STAT_NEXT
  let b := (b.commitRecord off e).setFld U.rec F.REC_STAT_NEXT (off + e.len)
  b.setRec fun h => { h with newest := some {
    typ := e.typ, uid := e.uid, flags := e.flags, digest := e.digest, arrival := e.arrival, off := off, rep := 0 } }

/-- The write of an increment ends. -/
def Block.incrementDone (b : Block) (μ : Mem) : Block :=
  match b.recd.newest with
  | some n =>
    let i := n.off / 8 + 2
    let b := b.put64 .mram i (Word.setFld (μ.rd64 .mram i) 15 0 (n.rep + 1))
    (b.setRec fun h => { h with newest := some { n with rep := n.rep + 1 } }).incWrap U.rec F.REC_SEQ_HEAD_CHG 1
  | none => b

/-- The write of FULL ends: the record that did not fit and the pending losses are counted. -/
def Block.fullDone (b : Block) (e : RecEv) : Block :=
  let b := b.commitRecord fullAt (b.recOwn Rt.full U.rec [])
  let b := ((b.setFlag U.rec F.REC_STAT_FULL true).irq U.rec 18).corrected U.rec C.recFull
  let b := (b.incSat U.rec F.REC_LOST_AFTER_FULL b.recd.pendingLost).countAfter e
  b.setRec fun h => { h with pendingLost := 0, writing := some .afterFull }

/-- The write of the after-full LOST record, or of its w0, ends. -/
def Block.afterFullDone (b : Block) : Block :=
  let w0 : Word := BitVec.ofNat 64 (b.fld U.rec F.REC_LOST_AFTER_FULL <<< 16)
  if b.recd.afterFull then (b.put64 .mram (lostAt / 8 + 2) w0).incWrap U.rec F.REC_SEQ_HEAD_CHG 1
  else (b.commitRecord lostAt (b.recOwn Rt.lost U.rec [w0])).setRec fun h => { h with afterFull := true }

/-- The erase begins (R382). -/
def Block.eraseStart (b : Block) : Block :=
  let old := (b.fld U.rec F.REC_SEQ_HEAD_HEAD, b.fld U.rec F.REC_LOST_TOTAL)
  ((b.setReg U.rec R.REC_LOST 0).setFlag U.rec F.REC_STAT_FULL false).setRec fun h =>
    { h with clearing := some old, clearAsk := false }

/-- REC_WRITE_DONE: the MRAM write in progress completes, and the next staged event starts, or a clear that waited. -/
def execRecWriteDone (s : State) : Host.Outcome State Fault Refusal :=
  s.done fun μ b =>
    match b.recd.writing with
    | none => b
    | some w =>
      let b := b.setRec fun h => { h with writing := none }
      let b := match w with
        | .record e => b.recordDone e
        | .increment => b.incrementDone μ
        | .full e => b.fullDone e
        | .afterFull => b.afterFullDone
      (if b.recd.clearAsk ∧ b.recd.writing.isNone then b.eraseStart else b.recNext).showRec

/-! ## Clearing (R382) -/

/-- REC_CTRL.CLEAR. -/
def Block.recClear (b : Block) (who : Who) : Block :=
  if whoWarden who = false ∨ b.recd.clearing.isSome then b
  else if b.recd.writing.isSome then b.setRec fun h => { h with clearAsk := true }
  else b.eraseStart.showRec

/-- REC_CLEAR: a write of REC_CTRL.CLEAR. -/
def execRecClear (who : Who) (s : State) : Host.Outcome State Fault Refusal :=
  s.did fun b => b.wr who U.rec F.REC_CTRL_CLEAR fun b => b.recClear who

/-- The main area and the reserve are erased; SEQ restarts at 1. -/
def Block.recErase (b : Block) : Block :=
  let b := (b.wipeRange .mram 0 (mainEnd / 8)).wipeRange .mram (fullAt / 8) 0x80000
  let b := ((b.setFld U.rec F.REC_SEQ_HEAD_HEAD 0).setFld U.rec F.REC_STAT_NEXT 0).setFlag U.rec F.REC_STAT_FULL false
  b.setRec fun h => { h with newest := none, afterFull := false, clearing := none }

/-- REC_CLEAR_DONE: the erase completes, and CLEAR is written first. -/
def execRecClearDone (s : State) : Host.Outcome State Fault Refusal :=
  s.did fun b =>
    match b.recd.clearing with
    | none => b
    | some (head, total) =>
      let b := b.recErase.irq U.rec 19
      (b.recTake (b.recOwn Rt.clear U.rec [0, BitVec.ofNat 64 (head + (total <<< 32))])).showRec

/-! ## The window (R380) -/

/-- Who may read the recorder's window and page. -/
def recReader (who : Who) : Bool := whoPfSys who || whoWarden who

/-- A byte of the MRAM as the window shows it: the counter area and bytes beyond the end read as zero. -/
def mramByte (μ : Mem) (a : Nat) : Nat :=
  if a < mainEnd ∨ (fullAt ≤ a ∧ a < 0x400000) then Word.fld (μ.rd64 .mram (a / 8)) (8 * (a % 8) + 7) (8 * (a % 8)) else 0

/-- 8 bytes of the window from byte `k` on, lowest byte first, as the management SPI reads them. -/
def Block.recWindow (b : Block) (μ : Mem) (k : Nat) : Word :=
  let at_ := b.fld U.rec F.REC_CURSOR_OFFSET * 8 + k
  BitVec.ofNat 64 ((List.range 8).foldl (fun a i => a + (mramByte μ (at_ + i) <<< (8 * i))) 0)

end Sys2Proof.Machine
end

