-- ==== Sys2Proof/Machine/Tally.lean ====
section
/-! DEFINITION.
The tally and the tracers (R383 to R388, R391): settings of counters, sweeps, the reading of counters and of the sweep buffer,
and the stopping and clearing of tracers. -/
namespace Sys2Proof.Machine

def Block.setTal (b : Block) (f : TallyH → TallyH) : Block := { b with tally := f b.tally }

/-! ## Counters (R383, R384) -/

/-- TALLY_CSEL names counter `ctr` of block `blk`, and the setting is one that R383 defines. -/
def ccfgValid (blk ctr : Nat) (w : Word) : Bool :=
  decide (blk < 56) && decide (ctr < (if blk < 36 then 12 else 4)) &&
    (if ctr < 4 then decide (ccfgSel w < srcCount blk) else decide (ccfgSel w < 10))

/-- The counter that TALLY_CSEL names. -/
def Block.cselIdx (b : Block) : Option Nat :=
  let blk := b.fld U.tally F.TALLY_CSEL_BLOCK
  let ctr := b.fld U.tally F.TALLY_CSEL_CTR
  if blk < 56 ∧ ctr < (if blk < 36 then 12 else 4) then some (ctrIdx blk ctr) else none

/-- Latest setting of a counter, in force or waiting. -/
def Block.ccfgOf (b : Block) (i : Nat) : Word :=
  match b.tally.pend.find? fun x => x.1 == i with
  | some x => x.2
  | none => Store.get 0 b.tally.cfg i

/-- The bits of TALLY_CCFG. -/
def ccfgMask : Word := 0x9F0FFFFF#64

/-- A write of TALLY_CCFG. -/
def Block.ccfgWrite (b : Block) (half : Half) (v : Word) : Block :=
  let blk := b.fld U.tally F.TALLY_CSEL_BLOCK
  let ctr := b.fld U.tally F.TALLY_CSEL_CTR
  let w := v &&& ccfgMask
  if half = .hi then b
  else if ccfgValid blk ctr w then
    let i := ctrIdx blk ctr
    b.setTal fun h => { h with pend := (h.pend.filter fun x => x.1 ≠ i) ++ [(i, w)] }
  else b.setFlag U.tally F.TALLY_STAT_CFG_REJ true

/-- TALLY_CCFG_WRITE. -/
def execTallyCcfgWrite (who : Who) (half : Half) (v : Word) (s : State) : Host.Outcome State Fault Refusal :=
  s.did fun b => b.wrReg who U.tally R.TALLY_CCFG half fun b => b.ccfgWrite half v

/-- The settings written in the tick that ended take effect, and their counters start from zero. -/
def Block.ccfgTick (b : Block) : Block :=
  b.setTal fun h => { h with
    pend := []
    cfg := h.pend.foldl (fun c x => Store.set 0 c x.1 x.2) h.cfg
    ctrs := h.pend.foldl (fun c x => Store.set 0 c x.1 0) h.ctrs }

/-- TALLY_CTRL.CLR: every counter is zero. -/
def Block.tallyClr (b : Block) : Block := b.setTal fun h => { h with ctrs := [] }

/-- TALLY_CLR. -/
def execTallyClr (who : Who) (s : State) : Host.Outcome State Fault Refusal :=
  s.did fun b => b.wr who U.tally F.TALLY_CTRL_CLR (·.tallyClr)

/-- Counters and the sweep buffer answer the PF and the warden (R388). -/
def tallyReader (who : Who) : Bool :=
  match who with | .pf | .mspi => true | _ => whoWarden who

/-- TALLY_CVAL as it reads. -/
def Block.cval (b : Block) : Word :=
  match b.cselIdx with | some i => Store.get 0 b.tally.ctrs i | none => 0

/-! ## Sweeps (R385) -/

/-- Counters of a sweep. -/
def sweepLen : Nat := 512

/-- A sweep starts, is held, or is dropped. -/
def Block.sweepStart (b : Block) : Block :=
  if b.tally.pos.isNone then
    (b.setTal fun h => { h with pos := some 0 }).setFlag U.tally F.TALLY_STAT_BUSY true
  else if b.flag U.tally F.TALLY_STAT_HELD = false then b.setFlag U.tally F.TALLY_STAT_HELD true
  else (b.incSat U.tally F.TALLY_STAT_DROPS 1).irq U.tally 17

/-- TALLY_SWEEP: a write of TALLY_CTRL.SWEEP. -/
def execTallySweep (who : Who) (s : State) : Host.Outcome State Fault Refusal :=
  s.did fun b => b.wr who U.tally F.TALLY_CTRL_SWEEP (·.sweepStart)

/-- Length of the period in Tc; 1 and 2 ms are read as 3. -/
def Block.sweepPeriod (b : Block) : Nat := max 3 (b.fld U.tally F.TALLY_CFG_PERIOD) * msTc

/-- A write of TALLY_CFG: the period counts from the write. -/
def Block.tallyCfg (b : Block) (v : Word) : Block :=
  (b.setFld U.tally F.TALLY_CFG_PERIOD (Word.fld v 15 0)).setTal fun h => { h with perAt := b.t }

/-- TALLY_PERIODIC: the period ends. -/
def execTallyPeriodic (s : State) : Host.Outcome State Fault Refusal :=
  s.did fun b =>
    if b.fld U.tally F.TALLY_CFG_PERIOD = 0 ∨ b.inReset then b
    else
      let due := b.tally.perAt + b.sweepPeriod
      b.atElapsed due fun b => (b.setTal fun h => { h with perAt := due }).sweepStart

/-- Words of a sweep entry in the buffer: value with block and counter, and the stamp. -/
def Block.capture1 (b : Block) (i : Nat) : Block :=
  let (blk, ctr) := ctrAt i
  let v := (Store.get (0 : Word) b.tally.ctrs i).toNat
  (b.put64 .tallyBuf (2 * i) (BitVec.ofNat 64 (v + (blk <<< 48) + (ctr <<< 56) + (1 <<< 60)))).put64 .tallyBuf (2 * i + 1) b.now

/-- TALLY_CAPTURE: the next counter of the sweep is captured. -/
def execTallyCapture (s : State) : Host.Outcome State Fault Refusal :=
  s.did fun b =>
    match b.tally.pos with
    | some i => if i < sweepLen then (b.capture1 i).setTal fun h => { h with pos := some (i + 1) } else b
    | none => b

/-- TALLY_SWEEP_DONE: the sweep ends, and a held start begins. -/
def execTallySweepDone (s : State) : Host.Outcome State Fault Refusal :=
  s.did fun b =>
    if b.tally.pos = some sweepLen then
      let b := (b.incWrap U.tally F.TALLY_STAT_SWEEPS 1).irq U.tally 16
      let b := (b.setTal fun h => { h with pos := none }).setFlag U.tally F.TALLY_STAT_BUSY false
      if b.flag U.tally F.TALLY_STAT_HELD then (b.setFlag U.tally F.TALLY_STAT_HELD false).sweepStart else b
    else b

/-- TALLY_BUF_LO as it reads: V marks an entry of the current or last sweep. -/
def Block.bufLo (b : Block) (μ : Mem) : Word :=
  let i := b.fld U.tally F.TALLY_BUF_ADDR_ENTRY
  let w := μ.rd64 .tallyBuf (2 * i)
  match b.tally.pos with
  | some n => if i < n then w else Word.setFld w 60 60 0
  | none => w

/-- TALLY_BUF_HI as it reads. -/
def Block.bufHi (b : Block) (μ : Mem) : Word := μ.rd64 .tallyBuf (2 * b.fld U.tally F.TALLY_BUF_ADDR_ENTRY + 1)

/-- ENTRY advances after a read of TALLY_BUF_HI. -/
def Block.bufNext (b : Block) : Block :=
  b.setFld U.tally F.TALLY_BUF_ADDR_ENTRY (b.fld U.tally F.TALLY_BUF_ADDR_ENTRY + 1)

/-- TALLY_BUF_READ: a read of TALLY_BUF_HI. -/
def execTallyBufRead (who : Who) (half : Half) (s : State) : Host.Outcome State Fault Refusal :=
  s.done fun μ b =>
    if b.readOk who U.tally ∧ tallyReader who then { b.bufNext with rdata := b.bufHi μ &&& halfMask half }
    else { b with rdata := 0 }

/-! ## Tracers (R387, R391) -/

/-- A write of TR_CTRL: RUN going to 1 takes the stamp; a stop by kiln in the same Tc prevails (R254). -/
def Block.trCtrl (b : Block) (t : Nat) (v : Word) : Block :=
  let u := U.tally
  let was := b.flag u (F.TR_CTRL_RUN t)
  let stop := b.overridden u (F.TR_CTRL_RUN t)
  let b := ((b.setFld u (F.TR_CTRL_RUN t) (if stop then 0 else Word.fld v 0 0)).setFld u (F.TR_CTRL_STOP_FULL t) (Word.fld v 1 1)).setFld u
    (F.TR_CTRL_ENG t) (Word.fld v 15 8)
  if was = false ∧ b.flag u (F.TR_CTRL_RUN t) then b.setReg u (R.TR_START t) b.now else b

/-- TR_CTRL.CLR. -/
def Block.tracerClr (b : Block) (t : Nat) : Block :=
  if b.flag U.tally (F.TR_CTRL_RUN t) then b else b.setReg U.tally (R.TR_STAT t) 0

/-- TRACER_CLR: a write of TR_CTRL.CLR. -/
def execTracerClr (who : Who) (t : Nat) (s : State) : Host.Outcome State Fault Refusal :=
  s.did fun b => b.wr who U.tally (F.TR_CTRL_CLR t) fun b => b.tracerClr t

/-- 8 bytes of the tracer window (R388). -/
def tracerWord (μ : Mem) (off : Nat) : Word := ((μ.rd .tracer (off / 16)) >>> (off / 8 % 2 * 64)).setWidth 64

end Sys2Proof.Machine
end

