-- ==== Sys2Proof/Machine/Warden.lean ====
section
/-! DEFINITION.
The warden (chapter 17): tokens and protection changes, staging of images, activation with its coast, probation and commit, and
saves. -/
namespace Sys2Proof.Machine

def Block.setWdn (b : Block) (f : WdnH → WdnH) : Block := { b with wdn := f b.wdn }
def Block.setOtp (b : Block) (f : OtpH → OtpH) : Block := { b with otp := f b.otp }
def Block.setBoot (b : Block) (f : BootH → BootH) : Block := { b with boot := f b.boot }

/-- The host source of a command: 1 the PF, 2 the management SPI, as WDN_STG_STAT.OWNER codes it. -/
def hostSrc (who : Who) : Option Nat := match who with | .pf => some 1 | .mspi => some 2 | _ => none

/-- A little-endian number of bytes. -/
def bytesNum (l : List Nat) : Nat := l.foldr (fun x a => a * 256 + x) 0

/-! ## Image slots (R401, R403 to R405) -/

/-- Bytes of an image slot: 44 MiB. -/
def slotSize : Nat := 0x2C00000

def slotRam (k : Nat) : Ram := if k = 0 then .slotA else .slotB
def slotByte (μ : Mem) (k a : Nat) : Nat := Word.fld (μ.rd64 (slotRam k) (a / 8)) (8 * (a % 8) + 7) (8 * (a % 8))
def slotBytes (μ : Mem) (k off n : Nat) : List Nat := (List.range n).map fun i => slotByte μ k (off + i)
def slotNum (μ : Mem) (k off n : Nat) : Nat := bytesNum (slotBytes μ k off n)

/-- SVN in [39:32] and RELEASE in [31:0] of the image in a slot (R417). -/
def slotVer (μ : Mem) (k : Nat) : Nat := (slotNum μ k 10 1 <<< 32) + slotNum μ k 12 4

/-- The settings schemas that the image in a slot imports. -/
def slotSchemas (μ : Mem) (k : Nat) : Nat × Nat := (slotNum μ k 16 2, slotNum μ k 18 2)

/-- The key in force of a role: that of its highest burned slot (R395). -/
def OtpH.key (o : OtpH) (role : Nat) : Option Nat :=
  (match role with | 1 => o.vendor | 2 => o.owner | 3 => o.site | _ => []).getLast?

/-- One signature of the signature block verifies under a role's key (R395, R404). -/
def sigOk (o : OtpH) (μ : Mem) (k role sig pubAt mlAt hash : Nat) : Bool :=
  let pub := slotBytes μ k (sig + pubAt) 97
  let ml := slotBytes μ k (sig + mlAt) 1952
  o.key role == some (Config.sha384 (if o.hybrid then pub ++ ml else pub)) &&
    Config.ecdsaOk pub hash (slotBytes μ k (sig + pubAt + 104) 96) &&
    (!o.hybrid || (slotNum μ k 11 1 % 2 == 1 && Config.mldsaOk ml [hash] (slotBytes μ k (sig + mlAt + 1952) 3309)))

/-- The check of an image (R405): 0 acceptable, 3 IMG_AUTH, 4 IMG_ROLLBACK, as the RES fields code them. -/
def imageCheck (o : OtpH) (μ : Mem) (k : Nat) : Nat :=
  let n := slotNum μ k 28 4
  let total := slotNum μ k 20 4
  let sig := slotNum μ k 24 4
  let types := (List.range (min n 16)).map fun c => slotNum μ k (64 + 64 * c) 2
  let hash := Config.sha384 (slotBytes μ k 0 4096)
  let form := slotNum μ k 0 8 == 0x4E415A4557524F44 && slotNum μ k 8 2 == 1 && decide (total ≤ slotSize) && decide (4 ≤ n) &&
    decide (n ≤ 16) && [1, 2, 3, 4].all fun t => types.count t == 1
  let signed := sigOk o μ k 1 sig 0 400 hash && (o.lc == 0 || sigOk o μ k 2 sig 200 5661 hash)
  let whole := (List.range (min n 16)).all fun c =>
    let at_ := slotNum μ k (64 + 64 * c + 4) 4
    let len := slotNum μ k (64 + 64 * c + 8) 4
    decide (at_ + len ≤ total) && slotNum μ k (64 + 64 * c + 16) 48 == Config.sha384 (slotBytes μ k at_ len)
  if (form && signed && whole) = false then 3 else if slotNum μ k 10 1 < o.floor then 4 else 0

/-- The writes that copy `n` bytes of a slot to HBM. -/
def copyOps (μ : Mem) (k off n dst : Nat) : List MemOp :=
  let base := ramBase (slotRam k)
  .clearHbm dst (dst + n) ::
    ((μ.words.filter fun x => base + off / 8 ≤ x.1 && x.1 < base + (off + n + 7) / 8).flatMap fun x =>
      (List.range 8).filterMap fun j =>
        let a := (x.1 - base) * 8 + j
        if off ≤ a ∧ a < off + n then some (MemOp.byte (dst + (a - off)) (BitVec.ofNat 8 (x.2.toNat >>> (8 * j)))) else none)

/-- Base of a half of the activation buffer, the last 128 MiB of SCRATCH (R407). -/
def Block.actBase (b : Block) (half : Nat) : Nat := b.regionBase 3 + b.regionSize 3 - 2 ^ 27 + half * 2 ^ 26

/-- The components of a slot's image are copied into a half of the activation buffer, each at its offset in the image. -/
def Block.copyImage (b : Block) (μ : Mem) (k half : Nat) : Block :=
  b.each (List.range (min (slotNum μ k 28 4) 16)) fun b c =>
    let at_ := slotNum μ k (64 + 64 * c + 4) 4
    let len := slotNum μ k (64 + 64 * c + 8) 4
    let dst := b.actBase half + at_
    b.putOps dst len (copyOps μ k at_ len dst)

/-- A FIRMWARE record with its event and versions (R417). -/
def Block.fwRecord (b : Block) (event old new : Nat) : Block :=
  b.recEvent Rt.firmware U.warden [BitVec.ofNat 64 (event <<< 16), BitVec.ofNat 64 old, BitVec.ofNat 64 new] []

/-! ## Nonce and tokens (R396, R397) -/

/-- WDN_SEC_CTRL.NONCE_REQ. -/
def Block.nonceReq (b : Block) (who : Who) : Block :=
  if (hostSrc who).isNone then b
  else
    let (b, i) := b.takeFree
    let n := Config.nonce i % 2 ^ 256
    let b := b.setWdn fun w => { w with nonce := some n, nonceAt := b.t }
    b.each (List.range 4) fun b j => b.setReg U.warden (R.WDN_NONCE j) (BitVec.ofNat 64 (n >>> (64 * j)))

/-- NONCE_REQ. -/
def execNonceReq (who : Who) (s : State) : Host.Outcome State Fault Refusal :=
  s.did fun b => b.wr who U.warden F.WDN_SEC_CTRL_NONCE_REQ fun b => b.nonceReq who

/-- Place of the selected word of the token buffers. -/
def Block.tokIdx (b : Block) : Nat := b.fld U.warden F.WDN_TOK_ADDR_BUF * 1024 + b.fld U.warden F.WDN_TOK_ADDR_WORD

/-- A write of WDN_TOK_DATA. -/
def Block.tokWrite (b : Block) (μ : Mem) (who : Who) (half : Half) (v : Word) : Block :=
  if (hostSrc who).isNone then b
  else
    let b := b.put64 .token b.tokIdx (halfMerge half (μ.rd64 .token b.tokIdx) v)
    b.when (b.flag U.warden F.WDN_TOK_ADDR_AUTOINC) fun b =>
      b.setFld U.warden F.WDN_TOK_ADDR_WORD (b.fld U.warden F.WDN_TOK_ADDR_WORD + 1)

/-- TOKEN_WRITE. -/
def execTokenWrite (who : Who) (half : Half) (v : Word) (s : State) : Host.Outcome State Fault Refusal :=
  s.done fun μ b => b.wrReg who U.warden R.WDN_TOK_DATA half fun b => b.tokWrite μ who half v

def tokByte (μ : Mem) (buf i : Nat) : Nat := Word.fld (μ.rd64 .token (buf * 1024 + i / 8)) (8 * (i % 8) + 7) (8 * (i % 8))
def tokBytes (μ : Mem) (buf off n : Nat) : List Nat := (List.range n).map fun i => tokByte μ buf (off + i)
def tokNum (μ : Mem) (buf off n : Nat) : Nat := bytesNum (tokBytes μ buf off n)

/-! Fields of a token (R396). -/
def tokRole (μ : Mem) (buf : Nat) : Nat := tokNum μ buf 2 1
def tokChange (μ : Mem) (buf : Nat) : Nat := tokNum μ buf 3 1
def tokArg (μ : Mem) (buf : Nat) : Nat := tokNum μ buf 48 48

/-- A token's public key hashes to its role's key, or to ARG for NEWKEY. -/
def tokKeyOk (o : OtpH) (μ : Mem) (buf : Nat) : Bool :=
  let pub := tokBytes μ buf 96 97
  let h := Config.sha384 (if o.hybrid then pub ++ tokBytes μ buf 296 1952 else pub)
  if tokRole μ buf = 4 then h == tokArg μ buf else o.key (tokRole μ buf) == some h

/-- A token's signatures verify. -/
def tokSigOk (o : OtpH) (μ : Mem) (buf : Nat) : Bool :=
  Config.ecdsaOk (tokBytes μ buf 96 97) (Config.sha384 (tokBytes μ buf 0 200)) (tokBytes μ buf 200 96) &&
    (!o.hybrid || Config.mldsaOk (tokBytes μ buf 296 1952) (tokBytes μ buf 0 2248) (tokBytes μ buf 2248 3309))

/-! ## Protection changes (R398 to R400) -/

/-- Two roles, in either order. -/
def rolePair (a c x y : Nat) : Bool := (a == x && c == y) || (a == y && c == x)

/-- The roles form a pair that R398 lists for a change. -/
def rolesOk (o : OtpH) (change arg a c : Nat) : Bool :=
  a != c &&
    match change with
    | 0x01 | 0x02 | 0x07 => rolePair a c 1 2
    | 0x03 => if o.owner.isEmpty then rolePair a c 1 4 else rolePair a c 2 1 || rolePair a c 2 3
    | 0x04 => if o.site.isEmpty then rolePair a c 2 4 else rolePair a c 3 2
    | 0x05 =>
      (match arg % 256 with
       | 1 => rolePair a c 1 2
       | 2 => rolePair a c 2 3
       | 3 => rolePair a c 2 1 || rolePair a c 2 3
       | _ => a != 4 && c != 4)
    | 0x06 => rolePair a c 2 3 || rolePair a c 2 1
    | _ => true

/-- LEGACY as the OTP gives it: the parity of the burned bits (R354). -/
def OtpH.legacyOn (o : OtpH) : Bool := o.legacy % 2 == 1

/-- The life-cycle state permits the change and its argument is valid (R394, R398). -/
def changeOk (o : OtpH) (change arg : Nat) : Bool :=
  o.lc != 4 &&
    match change with
    | 0x01 => o.lc == 3 && arg == 0
    | 0x02 => true
    | 0x03 => !o.owner.isEmpty || decide (o.lc ≤ 1)
    | 0x04 => !o.site.isEmpty || decide (o.lc ≤ 1)
    | 0x05 =>
      let hy := arg / 256 % 256
      decide (o.lc < arg % 256) && decide (arg % 256 ≤ 4) && decide (arg < 65536) && (hy == 0 || (hy == 1 && o.lc == 0))
    | 0x06 => arg == bit (!o.legacyOn)
    | 0x07 => decide (arg < 2 ^ 64)
    | _ => false

/-- An OTP slot or bit is free for the change. -/
def slotFreeFor (o : OtpH) (change : Nat) : Bool :=
  match change with
  | 0x02 => decide (o.vendor.length < 4)
  | 0x03 => decide (o.owner.length < 4)
  | 0x04 => decide (o.site.length < 4)
  | 0x06 => decide (o.legacy < 16)
  | _ => true

/-- The first check of R399 that fails, as its RESULT; 1 where every check passes. -/
def Block.applyCheck (b : Block) (μ : Mem) : Nat :=
  let o := b.otp
  let len := if o.hybrid then 5557 else 296
  let both := fun (f : Nat → Bool) => f 0 && f 1
  let change := tokChange μ 0
  if b.coasting ∨ b.wdn.lcDue.isSome then 2
  else if both (fun k => tokNum μ k 0 2 == 1 && tokNum μ k 4 4 == len) = false then 11
  else if both (fun k => tokNum μ k 8 8 == (b.reg 0 R.ROOT_SERIAL).toNat) = false then 3
  else if both (fun k => b.wdn.nonce == some (tokNum μ k 16 32)) = false then 4
  else if b.wdn.nonceAt + 600 * secTc < b.t then 5
  else if both (fun k => tokKeyOk o μ k) = false ∨ both (fun k => tokSigOk o μ k) = false then 6
  else if tokChange μ 1 ≠ change ∨ tokArg μ 1 ≠ tokArg μ 0 then 8
  else if rolesOk o change (tokArg μ 0) (tokRole μ 0) (tokRole μ 1) = false then 7
  else if changeOk o change (tokArg μ 0) = false then 9
  else if slotFreeFor o change = false then 10
  else 1

/-- The rows of pseudo-channel `i` that MEM-REPAIR records of the main area name (R373), from an MRAM offset on. -/
def repairRows (μ : Mem) (i : Nat) : Nat → Nat → Nat → List Nat
  | 0, _, _ => []
  | n + 1, off, next =>
    if next ≤ off then []
    else
      let h := μ.rd64 .mram (off / 8)
      let rest := repairRows μ i n (off + 8 * (Word.fld h 4 0 + 1)) next
      if Word.fld h 10 5 = 0x07 ∧ Word.fld h 31 16 = U.pc i then (μ.rd64 .mram (off / 8 + 3)).toNat :: rest else rest

/-- Hard repairs of pseudo-channel `i` authorised and not yet made, and those made. -/
def OtpH.hardPend (o : OtpH) (i : Nat) : Nat := (o.hard.filter fun x => x.1 == i && !x.2.2).length
def OtpH.hardDone (o : OtpH) (i : Nat) : Nat := (o.hard.filter fun x => x.1 == i && x.2.2).length

/-- Every recorded row of a masked pseudo-channel is authorised, up to HARD_LEFT (R293, R400). -/
def Block.hardAuthorise (b : Block) (μ : Mem) (i : Nat) : Block :=
  let rows := repairRows μ i 261632 0 (b.fld U.rec F.REC_STAT_NEXT)
  let b := b.each rows fun b row =>
    if (b.otp.hard.any fun x => x.1 == i && x.2.1 == row) ∨ b.fld (U.pc i) F.PC_REPAIR_HARD_LEFT ≤ b.otp.hardPend i then b
    else b.setOtp fun o => { o with hard := o.hard ++ [(i, row, false)] }
  b.setFld (U.pc i) F.PC_REPAIR_HARD_PEND (b.otp.hardPend i)

/-- An accepted change takes effect (R400). A life-cycle change begins with the outputs' sequence of R355 (R394). -/
def Block.applyChange (b : Block) (μ : Mem) (change arg : Nat) : Block :=
  match change with
  | 0x01 => b.setWdn fun w => { w with debug := true }
  | 0x02 => b.setOtp fun o => { o with vendor := o.vendor ++ [arg] }
  | 0x03 => b.setOtp fun o => { o with owner := o.owner ++ [arg] }
  | 0x04 => b.setOtp fun o => { o with site := o.site ++ [arg] }
  | 0x05 => (b.setWdn fun w => { w with lcDue := some (arg % 256, arg / 256 % 256 == 1) }).safeSequence
  | 0x06 => (b.setOtp fun o => { o with legacy := o.legacy + 1 }).setFlag U.warden F.WDN_SEC_STAT_PENDING true
  | _ => b.each ((List.range 64).filter fun i => (arg >>> i) % 2 == 1) fun b i => b.hardAuthorise μ i

/-- The PROTECT record of a change (R400). -/
def Block.protectRecord (b : Block) (change r0 r1 arg : Nat) : Block :=
  b.recEvent Rt.protect U.warden
    [BitVec.ofNat 64 ((change <<< 16) + ((r0 % 8) <<< 24) + ((r1 % 8) <<< 27)), BitVec.ofNat 64 arg] []

/-- WDN_SEC_CTRL.APPLY (R399). -/
def Block.secApply (b : Block) (μ : Mem) (who : Who) : Block :=
  if (hostSrc who).isNone then b
  else
    let u := U.warden
    let r := b.applyCheck μ
    let b := (b.setWdn fun w => { w with nonce := none }).setFld u F.WDN_SEC_STAT_RESULT r
    let change := tokChange μ 0
    let arg := tokArg μ 0
    let b := if r = 1 then
        let b := b.incWrap u F.WDN_SEC_STAT_APPLIED 1
        let b := b.when (change != 0x05) fun b => b.protectRecord change (tokRole μ 0) (tokRole μ 1) arg
        b.applyChange μ change arg
      else b.corrected u C.tokenBad
    b.irq u 16

/-- APPLY of tokens that name one change. -/
def Block.applyOnly (b : Block) (μ : Mem) (who : Who) (change : Nat) : Block :=
  if tokChange μ 0 = change then b.wrFree who U.warden F.WDN_SEC_CTRL_APPLY fun b => b.secApply μ who else b

/-- APPLY: a write of WDN_SEC_CTRL.APPLY. -/
def execSecApply (who : Who) (s : State) : Host.Outcome State Fault Refusal :=
  s.done fun μ b => b.wrFree who U.warden F.WDN_SEC_CTRL_APPLY fun b => b.secApply μ who

/-- DEBUG_UNLOCK: an APPLY of tokens that name it. -/
def execDebugUnlock (who : Who) (s : State) : Host.Outcome State Fault Refusal := s.done fun μ b => b.applyOnly μ who 0x01

/-- KEY_VENDOR: an APPLY of tokens that name it. -/
def execKeyVendor (who : Who) (s : State) : Host.Outcome State Fault Refusal := s.done fun μ b => b.applyOnly μ who 0x02

/-- KEY_OWNER: an APPLY of tokens that name it. -/
def execKeyOwner (who : Who) (s : State) : Host.Outcome State Fault Refusal := s.done fun μ b => b.applyOnly μ who 0x03

/-- KEY_SITE: an APPLY of tokens that name it. -/
def execKeySite (who : Who) (s : State) : Host.Outcome State Fault Refusal := s.done fun μ b => b.applyOnly μ who 0x04

/-- LEGACY: an APPLY of tokens that name it. -/
def execLegacyBit (who : Who) (s : State) : Host.Outcome State Fault Refusal := s.done fun μ b => b.applyOnly μ who 0x06

/-- HARD_REPAIR: an APPLY of tokens that name it. -/
def execHardRepair (who : Who) (s : State) : Host.Outcome State Fault Refusal := s.done fun μ b => b.applyOnly μ who 0x07

/-! ## Staging (R409, R410) -/

/-! Results of the RES fields. -/
namespace Res
def ok : Nat := 0
def busy : Nat := 1
def expired : Nat := 2
def imgAuth : Nat := 3
def imgRollback : Nat := 4
def rejected : Nat := 5
def notAllowed : Nat := 6
end Res

/-- Result of the last command of a source. -/
def Block.setRes (b : Block) (src r : Nat) : Block :=
  b.setFld U.warden (if src = 1 then F.WDN_STG_STAT_RES_PF else F.WDN_STG_STAT_RES_MSPI) r

/-- State of the session (WDN_STG_STAT). -/
def Block.stg (b : Block) : Nat := b.fld U.warden F.WDN_STG_STAT_STATE
def Block.setStg (b : Block) (n : Nat) : Block := b.setFld U.warden F.WDN_STG_STAT_STATE n
def Block.stgOwner (b : Block) : Nat := b.fld U.warden F.WDN_STG_STAT_OWNER

/-- A session exists. -/
def Block.stgOpen (b : Block) : Bool := b.stgOwner != 0

/-- Start-up stands in recovery (R408). -/
def Block.recovery (b : Block) : Bool := b.fld 0 F.HOST_BOOT_PHASE == 10

/-- The slot that a session writes: the one that is not RUNNING. -/
def Block.target (b : Block) : Nat := 1 - b.boot.running % 2

/-- Probation is in force (R416). -/
def Block.probation (b : Block) : Bool := b.wdn.probAt.isSome

/-- The session ends. -/
def Block.stgEnd (b : Block) : Block := (b.setStg (if b.recovery then 6 else 0)).setFld U.warden F.WDN_STG_STAT_OWNER 0

/-- The header of the target slot is erased. -/
def Block.eraseHeader (b : Block) : Block := b.wipeRange (slotRam b.target) 0 512

/-- WDN_STG_CTRL.OPEN. -/
def Block.stgOpenDo (b : Block) (who : Who) : Block :=
  match hostSrc who with
  | none => b
  | some src =>
    if b.otp.lc = 4 then b.setRes src Res.notAllowed
    else if b.coasting ∨ b.probation ∨ b.stgOpen then b.setRes src Res.busy
    else
      let b := ((b.setStg 1).setFld U.warden F.WDN_STG_STAT_OWNER src).setRes src Res.ok
      let b := b.setFlag U.warden F.WDN_STG_IMG_REJ_SET (Store.get 0 b.boot.rejected b.target != 0)
      b.setWdn fun w => { w with stgAt := b.t, erased := [] }

/-- OPEN: a write of WDN_STG_CTRL.OPEN. -/
def execStgOpen (who : Who) (s : State) : Host.Outcome State Fault Refusal :=
  s.did fun b => b.wrFree who U.warden F.WDN_STG_CTRL_OPEN fun b => b.stgOpenDo who

/-- A write of WDN_STG_DATA. The image has to be verified again after it. -/
def Block.stgData (b : Block) (μ : Mem) (who : Who) (half : Half) (v : Word) : Block :=
  let off := b.fld U.warden F.WDN_STG_ADDR_OFFSET / 8 * 8
  if hostSrc who ≠ some b.stgOwner ∨ (b.stg ≠ 1 ∧ b.stg ≠ 3) then b
  else
    let sec := off / 65536
    let r := slotRam b.target
    let fresh := !b.wdn.erased.contains sec
    let old : Word := if fresh then 0 else μ.rd64 r (off / 8)
    let b := if off < slotSize then
        let b := b.when fresh fun b =>
          (b.wipeRange r (sec * 8192) (sec * 8192 + 8192)).setWdn fun w => { w with erased := w.erased ++ [sec] }
        b.put64 r (off / 8) (halfMerge half old v)
      else b
    let b := (b.setStg 1).setFld U.warden F.WDN_STG_ADDR_OFFSET (off + 8)
    b.setWdn fun w => { w with stgAt := b.t }

/-- STG_DATA_WRITE. -/
def execStgDataWrite (who : Who) (half : Half) (v : Word) (s : State) : Host.Outcome State Fault Refusal :=
  s.done fun μ b => b.wrReg who U.warden R.WDN_STG_DATA half fun b => b.stgData μ who half v

/-- A command of the session: the other source's answers BUSY, and one without a session or in a state that does not take it
answers NOT_ALLOWED. -/
def Block.stgCmd (b : Block) (who : Who) (states : List Nat) (f : Nat → Block → Block) : Block :=
  match hostSrc who with
  | none => b
  | some src =>
    if b.coasting then b.setRes src Res.busy
    else if b.stgOpen = false then b.setRes src Res.notAllowed
    else if b.stgOwner ≠ src then b.setRes src Res.busy
    else if states.contains b.stg = false then b.setRes src Res.notAllowed
    else f src ((b.setRes src Res.ok).setWdn fun w => { w with stgAt := b.t })

/-- CLOSE: a write of WDN_STG_CTRL.CLOSE. -/
def Block.stgCloseDo (b : Block) (who : Who) : Block := b.stgCmd who [1, 3] fun _ b => b.setStg 2

def execStgClose (who : Who) (s : State) : Host.Outcome State Fault Refusal :=
  s.did fun b => b.wr who U.warden F.WDN_STG_CTRL_CLOSE fun b => b.stgCloseDo who

/-- The staged image is verified: it is copied into the half that the running image does not use, and in recovery secure boot
starts again from its slot (R408, R410). -/
def Block.verified (b : Block) (μ : Mem) (src : Nat) : Block :=
  let k := b.target
  let v := slotVer μ k
  let b := ((b.setStg 3).setRes src Res.ok).fwRecord 1 (slotVer μ b.boot.running) v
  let b := (b.setFld U.warden F.WDN_STG_IMG_SVN (v >>> 32)).setFld U.warden F.WDN_STG_IMG_RELEASE v
  if b.recovery then
    let b := (b.setBoot fun x => { x with committed := k }).setWdn fun w => { w with restarted := true }
    ((b.setFld 0 F.HOST_BOOT_PHASE 3).setStg 0).setFld U.warden F.WDN_STG_STAT_OWNER 0
  else b.copyImage μ k (1 - b.wdn.half % 2)

/-- The staged image is rejected, and the session ends. -/
def Block.rejectImage (b : Block) (μ : Mem) (src res : Nat) : Block :=
  let b := if res = Res.imgAuth then b.corrected U.warden C.imgAuth
    else if res = Res.imgRollback then b.corrected U.warden C.imgRollback else b
  ((b.setRes src res).fwRecord 2 (slotVer μ b.boot.running) (slotVer μ b.target)).stgEnd

/-- STG_VERIFY_DONE: the check of CLOSE ends. -/
def execStgVerifyDone (s : State) : Host.Outcome State Fault Refusal :=
  s.done fun μ b =>
    if b.stg ≠ 2 ∨ b.inReset then b
    else
      let src := b.stgOwner
      let k := b.target
      let r := imageCheck b.otp μ k
      let r := if r = 0 ∧ Store.get 0 b.boot.rejected k = slotNum μ k 12 4 + 1 then Res.rejected else r
      (if r = 0 then b.verified μ src else b.rejectImage μ src r).irq U.warden 17

/-- ABORT: a write of WDN_STG_CTRL.ABORT. -/
def Block.stgAbortDo (b : Block) (who : Who) : Block := b.stgCmd who [1, 2, 3] fun _ b => b.eraseHeader.stgEnd

def execStgAbort (who : Who) (s : State) : Host.Outcome State Fault Refusal :=
  s.did fun b => b.wr who U.warden F.WDN_STG_CTRL_ABORT fun b => b.stgAbortDo who

/-- STG_SESSION_EXPIRY: a session with no write for 60 s ends. -/
def execStgSessionExpiry (s : State) : Host.Outcome State Fault Refusal :=
  s.did fun b =>
    if b.stgOpen ∧ (b.stg = 1 ∨ b.stg = 3) ∧ b.coasting = false then
      b.atElapsed (b.wdn.stgAt + 60 * secTc) fun b => ((b.setRes b.stgOwner Res.expired).eraseHeader.stgEnd).irq U.warden 18
    else b

/-! ## Activation and the coast (R411 to R415) -/

/-- A coast starts. -/
def Block.coastStart (b : Block) (phase : Nat) (back revert : Bool) : Block :=
  (b.setWdn fun w => { w with coast := some { phase := phase, start := b.t, back := back, revert := revert } }).setStg
    (if back then 5 else 4)

/-- WDN_STG_CTRL.ACTIVATE. -/
def Block.stgActivateDo (b : Block) (who : Who) : Block :=
  b.stgCmd who [1, 2, 3] fun src b =>
    if b.stg ≠ 3 ∨ b.recovery then b.setRes src Res.notAllowed else b.coastStart 0 false false

/-- ACTIVATE: a write of WDN_STG_CTRL.ACTIVATE. -/
def execStgActivate (who : Who) (s : State) : Host.Outcome State Fault Refusal :=
  s.did fun b => b.wr who U.warden F.WDN_STG_CTRL_ACTIVATE fun b => b.stgActivateDo who

/-- Every running cue engine is suspended at an instruction boundary. -/
def Block.pauseEngines (b : Block) : Block :=
  b.each (List.range 32) fun b n => if (b.eng n).running then b.setEng n { b.eng n with paused := true } else b

/-- The engines run on: user code where it stopped, system code from the start of the new runtime. -/
def Block.resumeEngines (b : Block) : Block :=
  b.each (List.range 32) fun b n =>
    let h := b.eng n
    if h.running ∧ h.paused then (if h.sys then b.engStart n else b.setEng n { h with paused := false }) else b

/-- The system data regions of the engines are cleared (R412). -/
def Block.clearSystemData (b : Block) : Block :=
  b.each (List.range 32) fun b n => b.wipeRange .dmem (sramIdx n 0) (sramIdx n 0 + b.dsplit n / 16)

/-- Bits of a register that settings hold: its RW fields. -/
def rwMask (u off : Nat) : Word :=
  match regAt u off with
  | some (d, _) => d.rows.foldl (fun m r => match r.acc with | .rw => m ||| fldMask r.hi r.lo | _ => m) 0
  | none => 0

/-- The settings as the unit registers hold them now: the RW fields of every register that is not at its reset value. -/
def Block.settingsNow (b : Block) : Store Word :=
  ((Store.view b.regs).map fun x => (x.1, x.2 &&& rwMask (x.1 / 1024) (x.1 % 1024))).filter fun x =>
    x.2 != (regReset (x.1 / 1024) (x.1 % 1024) &&& rwMask (x.1 / 1024) (x.1 % 1024))

/-- Settings of a copy that differ from the unit registers. -/
def Block.settingsDiff (b : Block) : Nat :=
  (b.boot.setRegs.filter fun x => (b.reg (x.1 / 1024) (x.1 % 1024) &&& rwMask (x.1 / 1024) (x.1 % 1024)) != x.2).length +
    (b.settingsNow.filter fun x => !(b.boot.setRegs.any fun y => y.1 == x.1)).length

/-- An import during a coast (R413): it succeeds where a copy verifies, its SCHEMA lies in the range of the image in slot `k`,
and the runtime's own checks accept it. Each import reads LEGACY again (R354). -/
def Block.coastImport (b : Block) (μ : Mem) (k : Nat) (ok : Bool) : Block × Bool :=
  let u := U.warden
  let (lo, hi) := slotSchemas μ k
  let good := ok && b.boot.setOk && decide (lo ≤ b.boot.setSchema) && decide (b.boot.setSchema ≤ hi)
  let b := (b.setFlag 0 F.FLT_MODE_LEGACY b.otp.legacyOn).setFlag u F.WDN_SEC_STAT_PENDING false
  let b := (b.setFld u F.WDN_SET_SCHEMA b.boot.setSchema).setFld u F.WDN_SET_COPY b.boot.setCopy
  ((b.setFld u F.WDN_SET_DIFF (min 65535 b.settingsDiff)).setFld u F.WDN_SET_IMPORT (if good then 1 else 3), good)

/-- The coast ends: its length is shown, the engines run on, and the session is over. -/
def Block.coastOver (b : Block) (c : CoastH) : Block :=
  let b := b.setFld U.warden F.WDN_ACT_LAST_US (min 65535 ((b.t - c.start) * 1000000 / secTc))
  (((b.setWdn fun w => { w with coast := none }).resumeEngines).setStg 0).setFld U.warden F.WDN_STG_STAT_OWNER 0

/-- The staged image runs, on probation (R412, R416). -/
def Block.activated (b : Block) (μ : Mem) (c : CoastH) : Block :=
  let old := slotVer μ b.boot.running
  let k := b.target
  let b := (b.setBoot fun x => { x with running := k, probation := true }).coastOver c
  let b := b.setWdn fun w => { w with probAt := some b.t, half := 1 - w.half % 2 }
  (b.fwRecord 3 old (slotVer μ k)).irq U.warden 19

/-- A fallback or a revert is complete (R414, R416). -/
def Block.fellBack (b : Block) (μ : Mem) (c : CoastH) : Block :=
  let owner := b.stgOwner
  let b := (b.coastOver c).incSat U.warden F.WDN_ACT_FALLBACKS 1
  let b := if c.revert then
      let old := slotVer μ b.boot.running
      let b := b.setBoot fun x => { x with running := x.committed, probation := false }
      (b.setWdn fun w => { w with probAt := none, half := 1 - w.half % 2 }).fwRecord 6 old (slotVer μ b.boot.running)
    else
      let k := b.target
      let b := b.setBoot fun x => { x with rejected := Store.set 0 x.rejected k (slotNum μ k 12 4 + 1) }
      let b := (b.corrected U.warden C.fwFallback).setFlag U.warden F.WDN_STG_IMG_REJ_SET true
      ((if owner = 0 then b else b.setRes owner Res.rejected).fwRecord 5 (slotVer μ k) (slotVer μ b.boot.running))
  b.irq U.warden 20

/-- One phase of a coast is over; `ok` is the verdict of the runtime's own checks on the settings. -/
def Block.coastStep (b : Block) (μ : Mem) (c : CoastH) (ok : Bool) : Block :=
  let go := fun (b : Block) (n : Nat) => b.setWdn fun w => { w with coast := some { c with phase := n } }
  match c.phase with
  | 0 => go b.pauseEngines 1
  | 1 => go (b.engStart 32) 2
  | 2 => go b.clearSystemData 3
  | 3 =>
    let k := if c.revert then b.boot.committed else if c.back then b.boot.running else b.target
    let (b, good) := b.coastImport μ k ok
    if good ∨ c.back then go b 4
    else (b.setWdn fun w => { w with coast := some { c with phase := 2, back := true } }).setStg 5
  | _ => if c.back then b.fellBack μ c else b.activated μ c

/-- COAST_PHASE_DONE: a phase ends; the FATAL safe state abandons the activation. -/
def execCoastPhaseDone (ok : Bool) (s : State) : Host.Outcome State Fault Refusal :=
  s.done fun μ b =>
    match b.wdn.coast with
    | none => b
    | some c =>
      if b.flag 0 F.FLT_MODE_FATAL then
        b.coastAbandon
      else b.coastStep μ c ok

/-! ## Commit, revert and saves (R402, R416) -/

/-- The running image is committed. -/
def Block.commitDo (b : Block) (μ : Mem) : Block :=
  let k := b.boot.running
  let old := slotVer μ b.boot.committed
  let b := b.setBoot fun x => { x with committed := k, probation := false }
  let b := b.setOtp fun o => { o with floor := max o.floor (slotNum μ k 10 1) }
  let b := b.setWdn fun w => { w with probAt := none }
  (b.fwRecord 4 old (slotVer μ k)).irq U.warden 21

/-- A command of probation: BUSY outside it and in a coast. -/
def Block.probCmd (b : Block) (who : Who) (f : Block → Block) : Block :=
  match hostSrc who with
  | none => b
  | some src =>
    if b.coasting ∨ b.probation = false then b.setRes src Res.busy else f (b.setRes src Res.ok)

/-- COMMIT: a write of WDN_STG_CTRL.COMMIT. -/
def execStgCommit (who : Who) (s : State) : Host.Outcome State Fault Refusal :=
  s.done fun μ b => b.wrFree who U.warden F.WDN_STG_CTRL_COMMIT fun b => b.probCmd who fun b => b.commitDo μ

/-- AUTO_COMMIT: 600 s after probation began. -/
def execAutoCommit (s : State) : Host.Outcome State Fault Refusal :=
  s.done fun μ b =>
    match b.wdn.probAt with
    | some t => if b.coasting ∨ b.inReset then b else b.atElapsed (t + 600 * secTc) fun b => b.commitDo μ
    | none => b

/-- The second coast of a REVERT starts: every engine is paused. -/
def Block.revertDo (b : Block) : Block := (b.coastStart 2 true true).pauseEngines

/-- REVERT: a write of WDN_STG_CTRL.REVERT. -/
def execStgRevert (who : Who) (s : State) : Host.Outcome State Fault Refusal :=
  s.did fun b => b.wr who U.warden F.WDN_STG_CTRL_REVERT fun b => b.probCmd who (·.revertDo)

/-- A save is asked for: BUSY in a coast. -/
def Block.saveAsk (b : Block) (who : Who) (kind : Nat) : Block :=
  match hostSrc who with
  | none => b
  | some src =>
    if b.coasting then b.setRes src Res.busy
    else (b.setRes src Res.ok).setWdn fun w => { w with saves := w.saves ++ [kind] }

/-- SAVE_SET: a write of WDN_STG_CTRL.SAVE_SET. -/
def execSaveSet (who : Who) (s : State) : Host.Outcome State Fault Refusal :=
  s.did fun b => b.wrFree who U.warden F.WDN_STG_CTRL_SAVE_SET fun b => b.saveAsk who 0

/-- SAVE_CAL: a write of WDN_STG_CTRL.SAVE_CAL. -/
def execSaveCal (who : Who) (s : State) : Host.Outcome State Fault Refusal :=
  s.did fun b => b.wrFree who U.warden F.WDN_STG_CTRL_SAVE_CAL fun b => b.saveAsk who 1

/-- The settings are written to the copy that is not in use, with the newest schema of the running image. -/
def Block.saveSettings (b : Block) (μ : Mem) : Block :=
  b.setBoot fun x => { x with
    setOk := true, setCopy := if x.setOk then 1 - x.setCopy % 2 else x.setCopy, setSchema := (slotSchemas μ x.running).2
    sizes := (List.range 5).map fun i => b.fld (U.hs 0) (F.MEM_REGION_SIZE i), setRegs := b.settingsNow }

/-- The present corrections of the channels that are ON are written to the calibration store (R90, R402). -/
def Block.saveCorrections (b : Block) : Block :=
  let b := b.each ((List.range 32).filter fun k => b.ownPwr (U.rxc k) == Pwr.on) fun b k =>
    let u := U.rxc k
    let b := b.each (List.range 17) fun b j => b.put64 .calStore (calEntry u j) (Store.get (0 : Word) (b.rxcH k).corr j)
    b.put64 .calStore (calEntry u 63) 1
  b.each ((List.range 32).filter fun k => b.ownPwr (U.txc k) == Pwr.on) fun b k =>
    let u := U.txc k
    (b.put64 .calStore (calEntry u 0) (b.txcH k).trim).put64 .calStore (calEntry u 63) 1

/-- SAVE_DONE: the oldest save completes. -/
def execSaveDone (s : State) : Host.Outcome State Fault Refusal :=
  s.done fun μ b =>
    match b.wdn.saves with
    | [] => b
    | k :: rest =>
      let b := b.setWdn fun w => { w with saves := rest }
      (if k = 0 then b.saveSettings μ else b.saveCorrections).irq U.warden 22

end Sys2Proof.Machine
end

