-- ==== Sys2Proof/Machine/HostIf.lean ====
section
/-! DEFINITION.
The host interface (chapter 18): interrupt vectors, routes and MSI-X tables (R425, R426), unit reset (R436), PERST_N and
function-level resets (R428, R438), and errors of the endpoint (R429). -/
namespace Sys2Proof.Machine

/-- Change what the host side holds beside its registers. -/
def Block.setHost (b : Block) (f : HostH → HostH) : Block := { b with host := f b.host }

/-- The PF, with whose access the management SPI acts too (R432). -/
def whoPf (who : Who) : Bool := match who with | .pf | .mspi => true | _ => false

/-! ## Vectors and routes (R425, R426) -/

/-- A write of HOST_VEC: refused with REJ where PF_VECS would be 0, where the blocks would not fit, or while LOCKED. -/
def Block.vecWrite (b : Block) (who : Who) (half : Half) (v : Word) : Block :=
  if whoPf who = false ∨ half = .hi then b
  else
    let b := b.when (Word.fld v 25 25 == 1) fun b => b.setFlag 0 F.HOST_VEC_REJ false
    let pf := Word.fld v 11 0
    let (vf, c) := clampedFld 0 F.HOST_VEC_VF_VECS v
    let b := b.when c fun b => b.correctedBy who 0 C.clamp
    if pf = 0 ∨ 2048 < pf + b.fld 0 F.HOST_PCIE_NUM_VFS * vf ∨ b.flag 0 F.HOST_VEC_LOCKED then b.setFlag 0 F.HOST_VEC_REJ true
    else (b.setFld 0 F.HOST_VEC_PF_VECS pf).setFld 0 F.HOST_VEC_VF_VECS vf

/-- HOST_VEC_WRITE. -/
def execHostVecWrite (who : Who) (half : Half) (v : Word) (s : State) : Host.Outcome State Fault Refusal :=
  s.did fun b => b.wrReg who 0 R.HOST_VEC half fun b => b.vecWrite who half v

/-- Bits that the fields of HOST_ROUTE name. -/
def routeMask : Word := BitVec.ofNat 64 0x87FF001FFFFFFFFF

/-- The route entry that HOST_ROUTE shows. -/
def Block.routeSel (b : Block) : Word := Store.get (0 : Word) b.host.routes (b.fld 0 F.HOST_ROUTE_SEL_ENTRY)

/-- A write of HOST_ROUTE: refused with ROUTE_REJ where VEC lies outside the block of FUNC. -/
def Block.routeWrite (b : Block) (who : Who) (half : Half) (v : Word) : Block :=
  if whoPf who = false then b
  else
    let w := halfMerge half b.routeSel v &&& routeMask
    if b.vecInBlock (Word.fld w 36 32) (Word.fld w 58 48) then
      b.setHost fun h => { h with routes := Store.set (0 : Word) h.routes (b.fld 0 F.HOST_ROUTE_SEL_ENTRY) w }
    else b.setHost fun h => { h with routeRej := true }

/-- HOST_ROUTE_WRITE. -/
def execHostRouteWrite (who : Who) (half : Half) (v : Word) (s : State) : Host.Outcome State Fault Refusal :=
  s.did fun b => b.wrReg who 0 R.HOST_ROUTE half fun b => b.routeWrite who half v

/-- Bits that the fields of HOST_VF_UID name. -/
def vfUidMask : Word := BitVec.ofNat 64 0x80000003FFFFFFFF

/-- Place of the range entry that HOST_VF_UID shows: VF 0 and 17 to 31 are taken as 1 (R444). -/
def Block.vfUidIdx (b : Block) : Nat :=
  let k := b.fld 0 F.HOST_VF_SEL_VF
  (if k = 0 ∨ 16 < k then 1 else k) * 8 + b.fld 0 F.HOST_VF_SEL_RANGE

/-- A write of HOST_VF_UID (R422). -/
def Block.vfUidWrite (b : Block) (who : Who) (half : Half) (v : Word) : Block :=
  if whoPf who = false then b
  else b.setHost fun h => { h with vfUid := Store.set (0 : Word) h.vfUid b.vfUidIdx
                                     (halfMerge half (Store.get (0 : Word) h.vfUid b.vfUidIdx) v &&& vfUidMask) }

/-! ## MSI-X tables (R423, R426) -/

/-- A function reaches the endpoint: not in reset, the link up, no fatal latch (R358, R428). -/
def Block.endpointUp (b : Block) : Bool := !b.inReset && !b.linkDown && !b.flag 0 F.FLT_MODE_FATAL

/-- Write dword `d` of entry `j` of a function's MSI-X table: address low and high, data, and the mask bit. Unmasking sends a
message that waits. -/
def Block.msixWrite (b : Block) (func j d : Nat) (v : BitVec 32) : Block :=
  let (first, n) := b.vecBlock func
  if b.endpointUp = false ∨ n ≤ j then b
  else
    let k := msixKey func j
    let e := Store.get msixReset b.host.msix k
    let e : MsixEnt := match d with
      | 0 => { e with addr := (e.addr &&& ~~~(fldMask 31 0)) ||| v.setWidth 64 }
      | 1 => { e with addr := (e.addr &&& fldMask 31 0) ||| (v.setWidth 64 <<< 32) }
      | 2 => { e with data := v }
      | _ => { e with masked := v.getLsbD 0 }
    if e.pend ∧ e.masked = false then
      (b.setHost fun h => { h with msix := Store.set msixReset h.msix k { e with pend := false } }).sendVec func (first + j)
    else b.setHost fun h => { h with msix := Store.set msixReset h.msix k e }

/-- MSIX_TABLE_WRITE: function `func` writes dword `d` of entry `j` of its table. -/
def execMsixTableWrite (func j d : Nat) (v : BitVec 32) (s : State) : Host.Outcome State Fault Refusal :=
  s.did fun b => b.msixWrite func j d v

/-! ## Unit reset (R436) -/

/-- Fields of a kind's registers that report the present state of the unit, its stack or its head: a unit reset, which
touches registers alone, leaves what they report (R434). -/
def liveFields (kind : Nat) : List Fld :=
  match kind with
  | 0x02 => [F.RXC_STAT_CH_STATE, F.RXC_STAT_CAL_FROZEN, F.RXC_STAT_SY_WAIT, F.RXC_STAT_WEIGHT, F.RXC_SLICE_OUT, F.RXC_SLICE_FAILED, F.RXC_SLICE_ROT]
  | 0x03 => [F.TXC_STAT_CH_STATE, F.TXC_STAT_GATE, F.TXC_STAT_SY_WAIT, F.TXC_STAT_WEIGHT, F.TXC_STAT_MUTE_SRC]
  | 0x06 => [F.CL_MB_STAT_BUSY]
  | 0x08 => [F.TS_READ_RAW, F.TS_READ_FILT, F.TS_READ_LEVEL, F.TS_READ_SUBST, F.TS_READ_RUN]
  | 0x09 => [F.FH_STAT_LINK, F.FH_STAT_HEADS, F.FH_LANE_PHY0, F.FH_LANE_PHY1, F.FH_LANE_FAILED, F.FH_STAT_SPARED, F.FH_BUDGET_EGRESS,
      F.FH_BUDGET_INGRESS, F.FH_BUDGET_STREAMS]
  | 0x0A => [F.HS_STAT_TRAINED, F.HS_STAT_RETAIN, F.HS_STAT_REFRESH_2X, F.HS_STAT_FENCED, F.MEM_REGION_SIZE 4] ++
      (List.range 5).map F.MEM_REGION_BASE
  | 0x0B => [F.PC_STAT_OUTST, F.PC_REPAIR_SOFT_LEFT, F.PC_REPAIR_SOFT_USED, F.PC_REPAIR_HARD_LEFT, F.PC_REPAIR_HARD_PEND]
  | 0x0C => [F.CC_STAT_CLK_LOCK, F.CC_RFFE_STAT_BUSY]
  | 0x0D => [F.SY_STAT_STATE, F.SY_STAT_QUEUED, F.SY_STAT_ENTRY, F.SY_FREQ_WORD]
  | 0x1A => [F.HD_CAP_PORTS, F.HD_CAP_FMT, F.HD_CAP_RATES, F.HD_CAP_DMAX, F.HD_HEAD_LAT_HEAD_DL, F.HD_HEAD_LAT_HEAD_UL,
      F.HD_LAT_D_DL, F.HD_LAT_D_UL, F.HD_PATH_TP, F.HD_STAT_MUTED, F.HD_STAT_STALE, F.HD_STAT_FLOWS, F.HD_STAT_OFFSET,
      F.HD_MAC_MAC] ++ (List.range 32).flatMap fun i => [F.HD_FLOW_PBD i, F.HD_FLOW_PORT i, F.HD_FLOW_FMT i, F.HD_FLOW_V i]
  | _ => []

/-- Bits of a register that a unit reset keeps: what is live, and RWL fields, which the seal has locked (R407). -/
def resetKeeps (u off : Nat) : Word :=
  let live := (liveFields (kindOf u)).foldl (fun m f => if f.off = off then m ||| fldMask f.hi f.lo else m) (0 : Word)
  match regAt u off with
  | some (d, _) => d.rows.foldl (fun m r => if r.acc = .rwl then m ||| fldMask r.hi r.lo else m) live
  | none => live

/-- A unit reset returns this register of a page to its reset value. -/
def resetTakes (off : Nat) : Bool :=
  0x040 ≤ off || off == R.UNIT_CTRL || off == R.UNIT_FAULT || off == R.UNIT_IRQ_STAT

/-- The kind registers of a unit, UNIT_CTRL, UNIT_FAULT and UNIT_IRQ_STAT return to their reset values, and with them the copies
of loop registers and RFFE dividers that were in force. What follows the registers follows them here: the binding to a synthesiser
(R93), the transmit gate (R89), the chains' decimation (R176) and the stop of an ORX (R108). -/
def Block.unitReset (b : Block) (u : Nat) : Block :=
  let on := kindOf u == 0x0E && b.flag u F.ORX_CTRL_RUN
  let offs := (b.regs.filter fun x => x.1 / 1024 == u && resetTakes (x.1 % 1024)).map fun x => x.1 % 1024
  let b := b.each offs fun b o =>
    let k := resetKeeps u o
    b.setReg u o ((b.reg u o &&& k) ||| (regReset u o &&& ~~~k))
  let b := { b with loop := { b.loop with
    act := b.loop.act.filter fun x => x.1 / 1024 != u
    dirty := b.loop.dirty.filter fun k => k / 1024 != u } }
  let i := unitIndex u
  match kindOf u with
  | 0x02 => b.setFlag u F.RXC_STAT_SY_WAIT (match b.boundSy u with | some k => !b.syLocked k | none => false)
  | 0x03 => b.txcRefreshAll
  | 0x04 => b.mcRateFollow i
  | 0x0C => b.setCcH i { b.ccH i with divs := [], cueHigh := 0 }
  | 0x0E => if on then b.setOrxH i { b.orxH i with startDue := false, stopDue := true } else b
  | _ => b

/-- A UID that HOST_URST refuses: the module root, 0x04E0 to 0x04E8, host-defined groups and reserved UIDs. -/
def urstRefused (u : Nat) : Bool := protectedUid u || kindOf u == 0x20 || reservedUid u

/-- HOST_URST. The reset acts at the Tc after the write: that Tc passes, but for a write in a tick's last. -/
def Block.urst (b : Block) (who : Who) (u : Nat) : Block :=
  if whoPf who = false ∧ whoSys who = false then b
  else
    let done := fun (b : Block) (r : Nat) => (b.setFld 0 F.HOST_URST_RESULT r).irq 0 28
    if urstRefused u then done b 2
    else
      let st := b.state u
      if st = St.off ∨ st = St.ready ∨ st = St.fenced then
        let b := ((b.atEdge (b.t + 1) id).unitReset u)
        let b := match switched u with | some d => b.pwrEval d u | none => b
        done b 0
      else done b 1

/-- HOST_URST: a write of HOST_URST.UID. -/
def execHostUrst (who : Who) (u : Nat) (s : State) : Host.Outcome State Fault Refusal :=
  s.did fun b => b.wr who 0 F.HOST_URST_UID fun b => b.urst who u

/-! ## PERST_N and function-level resets (R428, R438) -/

/-- Rings are disabled. -/
def Block.ringsOff (b : Block) (p : RingH → Bool) : Block :=
  b.each (((Store.view b.rings).filter fun x => p x.2).map (·.1)) fun b r => b.setRing r { b.ring r with d1 := Word.setFld (b.ring r).d1 15 15 0 }

/-- Every ring in host memory is disabled with FAULT, and engine DMA to or from host addresses ends with result 1. -/
def Block.hostLost (b : Block) (μ : Mem) : Block :=
  let rs := ((Store.view b.rings).filter fun x => x.2.inHost).map (·.1)
  let b := (b.ringsOff (·.inHost)).each rs fun b r => b.ringFault r
  b.each (Store.view b.engs) fun b x =>
    b.each ((Store.view x.2.dma).filter fun y => y.2.busy && (y.2.srcSp == 3 || y.2.dstSp == 3)) fun b y =>
      let (b, i) := b.takeFree
      b.dmaEnd μ x.1 y.1 (Config.hostData i) true

/-- The PCIe configuration returns to reset: MSI-X tables, HOST_VEC and the virtual functions. -/
def Block.pcieReset (b : Block) : Block :=
  let b := b.setReg 0 R.HOST_VEC (regReset 0 R.HOST_VEC)
  let b := (b.setFld 0 F.HOST_PCIE_NUM_VFS 0).setFlag 0 F.HOST_PCIE_VF_EN false
  b.setHost fun h => { h with msix := [] }

/-- HOST_PCIE shows the link: it trains once REFCLK has qualified and nothing holds the endpoint in reset. -/
def Block.showLink (b : Block) : Block :=
  let up := b.sync.refOk && !b.linkDown
  (b.setFld 0 F.HOST_PCIE_SPEED (if up then b.host.linkTo.1 else 0)).setFld 0 F.HOST_PCIE_WIDTH (if up then b.host.linkTo.2 else 0)

/-- PERST_N_ASSERT: the link goes down, rings in host memory and DMA to the host end, and the PCIe side resets. -/
def execPerstNAssert (s : State) : Host.Outcome State Fault Refusal :=
  s.done fun μ b =>
    if b.host.perstLow then b
    else
      let b := (b.setHost fun h => { h with perstLow := true }).showLink
      if b.inReset then b
      else (((b.hostLost μ).pcieReset).incSat 0 F.HOST_PCIE_PERSTS 1).irq 0 26

/-- PERST_N_RELEASE: the link trains, to the speed and width that the operands give. -/
def execPerstNRelease (speed width : Nat) (s : State) : Host.Outcome State Fault Refusal :=
  s.did fun b =>
    if b.host.perstLow then
      let b := b.setHost fun h => { h with perstLow := false, linkTo := (speed, width) }
      b.when (!b.inReset) (·.showLink)
    else b

/-- FLR_VF: the rings of VF `k` are disabled, the user programs of its engines are stopped, and its MSI-X table is cleared. -/
def execFlrVf (k : Nat) (s : State) : Host.Outcome State Fault Refusal :=
  s.did fun b =>
    if b.endpointUp then
      let b := b.ringsOff fun g => g.func == k
      let b := b.each ((List.range 32).filter fun n => b.fld (U.ce n) F.CE_CFG_FUNC == k) fun b n => b.userReq n 2
      let b := b.setHost fun h => { h with msix := h.msix.filter fun x => x.1 / 2048 != k }
      (b.incSat 0 F.HOST_PCIE_FLRS 1).irq 0 26
    else b

/-- FLR_PF: as PERST_N without loss of the link. -/
def execFlrPf (s : State) : Host.Outcome State Fault Refusal :=
  s.done fun μ b =>
    if b.endpointUp then (((b.hostLost μ).pcieReset).incSat 0 F.HOST_PCIE_FLRS 1).irq 0 26 else b

/-! ## Errors of the endpoint (R429) -/

/-- HOST_READ_TIMEOUT: a read of host memory for engine `n` has not completed within 50 ms: its DMA transfer under a tag below
16, with `data` as what had come, else its RPOP; for `n` 33 the ring engine's own read. -/
def execHostReadTimeout (n tag data : Nat) (s : State) : Host.Outcome State Fault Refusal :=
  s.done fun μ b =>
    if n = 33 then
      match b.nextCueRing with
      | some r => if (b.ring r).inHost then b.ringPop μ 0 true else b
      | none => b
    else if tag < 16 then
      if (Store.get DmaH.init (b.eng n).dma tag).srcSp = 3 then b.dmaEnd μ n tag data true else b
    else
      match b.zHeld n with
      | some (.rpop _ r _ _) => if (b.ring r).inHost then b.rpopWake μ n 0 true else b
      | _ => b

/-- PCIE_ERR: the endpoint reports an error through AER. -/
def execPcieErr (s : State) : Host.Outcome State Fault Refusal :=
  s.did fun b => if b.inReset then b else (b.incSat 0 F.HOST_PCIE_ERRS 1).correctedRoot C.pcieErr 11

end Sys2Proof.Machine
end

