-- ==== Sys2Proof/Machine/Reads.lean ====
section
/-! DEFINITION.
What a register reads as (R6, R11, R12): the stored value, and over it the fields that report the present state. Reads that
have an effect of their own make it. -/
namespace Sys2Proof.Machine

/-- Overlay fields on a register's value. -/
def overlay (w : Word) (l : List (Fld × Nat)) : Word := l.foldl (fun w x => Word.setFld w x.1.hi x.1.lo x.2) w

/-- The header as it reads (R18, R26): identity, STATE and PWR with the aggregates of a group. A host-defined group stores no
UNIT_CTRL fields (R27). -/
def Block.readHdr (b : Block) (u off : Nat) : Word :=
  let w := b.reg u off
  if off = R.UNIT_ID then
    let port := match (b.hdH (unitIndex u)).port with | some q => U.fh q | none => 0
    overlay w [(F.UNIT_ID_UID, u), (F.UNIT_ID_KIND, kindOf u), (F.UNIT_ID_PARENT, parentOf u port)]
  else if off = R.UNIT_STATE then
    overlay w [(F.UNIT_STATE_STATE, b.state u), (F.UNIT_STATE_PWR, b.pwr u), (F.UNIT_STATE_MEMBERS, (b.members u).length)]
  else if off = R.UNIT_CTRL ∧ kindOf u = 0x20 then 0
  else w

/-- A host-defined group's registers (R29). -/
def Block.readGrp (b : Block) (g off : Nat) : Word :=
  let w := b.reg g off
  let l := b.members g
  if off = R.GRP_STAT then
    overlay w [(F.GRP_STAT_DIRECT, l.length), (F.GRP_STAT_DEPTH, b.depthNow 10 g), (F.GRP_STAT_FLAT, (b.flat g).length)]
  else if 0x100 ≤ off ∧ off < 0x300 then
    let i := (off - 0x100) / 8
    overlay 0 ((List.range 4).map fun j => (⟨off, 16 * j + 15, 16 * j⟩, l.getD (4 * i + j) 0))
  else w

/-- The worst unit among 0x0001 to 0x0FFF: its STATE and the lowest UID in it (R32). -/
def Block.worst (b : Block) : Nat × Nat :=
  (List.range 0x1000).foldl (fun a u =>
    if u = 0 ∨ reservedUid u then a
    else
      let st := b.state u
      if a.2 = 0 ∨ stateRank a.1 < stateRank st then (st, u) else a) (0, 0)

/-- The module root's registers. -/
def Block.readRoot (b : Block) (off : Nat) : Word :=
  let w := b.reg 0 off
  if off = R.ROOT_WORST then
    let x := b.worst
    overlay 0 [(F.ROOT_WORST_STATE, x.1), (F.ROOT_WORST_UID, x.2)]
  else if off = R.FLT_PIN then overlay w [(F.FLT_PIN_LEVEL, bit b.pinLow)]
  else if off = R.HOST_ROUTE then b.routeSel
  else if off = R.HOST_VF_UID then Store.get (0 : Word) b.host.vfUid b.vfUidIdx
  else w

/-- The transmit gate of a PBD is open with its direction valid: after the first lock, unsqualled, at every TXC of its
transmit slots (R47, R89). -/
def Block.pbdGate (b : Block) (m : Nat) : Bool :=
  b.demand m && b.everLocked && b.modOk && !b.squalled m &&
    (b.txSlots m).all fun x => match x.2 with | .txc k => b.flag (U.txc k) F.TXC_STAT_GATE | _ => true

/-- A PBD's registers. DESIGN CHOICE: PBD_PROBE_ISO.COLD reads ISO_PASSIVE − M_min from reset on, −960, where its table has 0 (log entry
104). -/
def Block.readPbd (b : Block) (μ : Mem) (m off : Nat) : Word :=
  let u := U.pbd m
  let b := b.gainSettle m
  let w := b.reg u off
  if off = R.PBD_STAT then
    let r := b.rateOf m
    overlay w [(F.PBD_STAT_GATE, bit (b.pbdGate m)), (F.PBD_STAT_LATENCY, if r ≤ 4 then latencyTc r else 0),
      (F.PBD_STAT_CLIP_NOW, bit (match (b.pbdH m).clipUntil with | some t => b.t < t | none => false))]
  else if off = R.PBD_FCOEF_DATA then
    μ.rd64 .fcoef (m * 512 + b.fld u F.PBD_FCOEF_ADDR_BANK * 256 + b.fld u F.PBD_FCOEF_ADDR_INDEX)
  else if off = R.PBD_PROBE_ISO then overlay w [(F.PBD_PROBE_ISO_COLD, toCode 16 (b.coldGain m))]
  else w

/-- A cluster's registers (R127, R141): every page shows the same CL_MB registers. -/
def Block.readCl (b : Block) (k off : Nat) : Word :=
  let w := b.reg (U.cl (if R.CL_MB_ADDR ≤ off ∧ off ≤ R.CL_MB_STAT then 0 else k)) off
  let on := b.lanesOn.filter fun i => i / 33 == k
  if off = R.CL_STAT then
    overlay w [(F.CL_STAT_ACTIVE, ((List.range 33).filter fun j => b.inService (U.lane (33 * k + j))).length),
      (F.CL_STAT_LR, (on.filter b.laneLr).length)]
  else if off = R.CL_CAP then overlay w [(F.CL_CAP_USED, on.foldl (fun a i => a + b.laneUnits i) 0)]
  else if off = R.CL_MBANK then
    overlay w [(F.CL_MBANK_SLOTS, b.bankSlots), (F.CL_MBANK_COPIES, b.bankCopies),
      (F.CL_MBANK_VALID, (b.bank.valid.filter fun x => x.2 == 1).length)]
  else w

/-- A converter chiplet's registers (R113). -/
def Block.readCc (b : Block) (μ : Mem) (k off : Nat) : Word :=
  let u := U.cc k
  let slot := b.fld u F.CC_SEQ_ADDR_SLOT
  if off = R.CC_SEQ_DATA then μ.rd64 .ccSeq ((k * 256 + slot) * 8 + b.fld u F.CC_SEQ_ADDR_FRAME)
  else if off = R.CC_SEQ_TIME then
    let d := b.slotTime k (seqFrames μ k slot)
    BitVec.ofNat 64 (if d < 65536 then d else Config.seqTimeWide d % 65536)
  else if off = R.CC_STB_LEVEL then BitVec.ofNat 64 ((List.range 32).foldl (fun a i => a + (bit (b.strobe k i) <<< i)) 0)
  else b.reg u off

/-- A synthesiser's registers (R114). A hop leaves LOCKED 256 Tc after its start (R95). -/
def Block.readSy (b : Block) (k off : Nat) : Word :=
  let u := U.sy k
  let x := Store.get SyCal.init (b.syH k).cal (b.fld u F.SY_CAL_ADDR_ENTRY)
  if off = R.SY_CAL_DATA0 then BitVec.ofNat 64 x.word
  else if off = R.SY_CAL_DATA1 then
    overlay 0 [(F.SY_CAL_DATA1_VCO_BAND, x.band), (F.SY_CAL_DATA1_CP_TRIM, x.trim), (F.SY_CAL_DATA1_LF_STATE, x.lf),
      (F.SY_CAL_DATA1_TEMP, toCode 8 x.temp), (F.SY_CAL_DATA1_VALID, bit x.valid)]
  else if off = R.SY_STAT then
    match (b.syH k).hop with
    | some (_, start, _) =>
      if (b.syH k).wasLocked ∧ b.t < start + 256 then overlay (b.reg u off) [(F.SY_STAT_STATE, 1)] else b.reg u off
    | none => b.reg u off
  else b.reg u off

/-- The loop engine's registers (R170): stages 6 and 7 read zero, and every stage but S0 has one mantissa. -/
def Block.readLe (b : Block) (μ : Mem) (off : Nat) : Word :=
  if off = R.LE_LUT_DATA then
    μ.rd64 .lut (lutIndex (b.fld U.le F.LE_LUT_ADDR_PBD) (b.fld U.le F.LE_LUT_ADDR_SLOT) (b.fld U.le F.LE_LUT_ADDR_ENTRY))
  else if off = R.LE_BF_DATA then
    let h := b.slotH (b.fld U.le F.LE_BF_ADDR_PBD) (b.fld U.le F.LE_BF_ADDR_SLOT)
    let s : Stage := match b.fld U.le F.LE_BF_ADDR_STAGE with
      | 0 => h.s0 | 1 => h.s1 | 2 => h.s2 | 3 => h.s3 | 4 => h.s4 | 5 => h.s5 | _ => Stage.init
    let m1 := if b.fld U.le F.LE_BF_ADDR_STAGE = 0 then s.m1 else 0
    overlay 0 [(F.LE_BF_DATA_M0, toCode 24 s.m0), (F.LE_BF_DATA_E, toCode 8 s.e), (F.LE_BF_DATA_M1, toCode 24 m1)]
  else b.reg U.le off

/-- What blocks an engine, in the codes of CE_STAT.BLK. -/
def blkCode : Option Blk → Nat
  | none => 0
  | some (.waitat ..) => 1
  | some (.rpop ..) => 2
  | some (.rpush ..) => 3
  | some (.arm ..) => 4
  | some (.dmago ..) => 5
  | some (.dmawait ..) => 5
  | some .fence => 6
  | some (.uput ..) => 7

/-- An engine's registers (R239). -/
def Block.readCe (b : Block) (n off : Nat) : Word :=
  let w := b.reg (U.ce n) off
  let h := b.eng n
  if off = R.CE_STAT then
    overlay w [(F.CE_STAT_MODE, if h.running = false then 0 else if h.sys then 1 else 2),
      (F.CE_STAT_BLOCKED, bit h.block.isSome), (F.CE_STAT_INEXC, bit h.inexc), (F.CE_STAT_BLK, blkCode h.block)]
  else if off = R.CE_WDOG then overlay w [(F.CE_WDOG_COUNT, min 65535 (b.wdCount n / 1024))]
  else w

/-- The dispatcher's registers (R262); its descriptor and context windows answer only the PF and the warden. -/
def Block.readDsp (b : Block) (who : Who) (off : Nat) : Word :=
  let w := b.reg U.dsp off
  let g := b.ring (b.fld U.dsp F.DSP_RING_SEL_RING)
  if off = R.DSP_STAT then
    overlay w [(F.DSP_STAT_FREE, b.freeCtxs), (F.DSP_STAT_INFLIGHT, b.inflight), (F.DSP_STAT_AT_BOUND, bit (b.inflight == 2048)),
      (F.DSP_STAT_WAITING, min 65535 b.waitingCues.length)]
  else if off = R.DSP_OVF then overlay w [(F.DSP_OVF_LEN, b.ovfLen)]
  else if off = R.DSP_HORIZON then b.horizon
  else if off = R.DSP_RING_SEL ∨ off = R.DSP_CTX_SEL then (if dspWindow who then w else 0)
  else if R.DSP_RING_D0 ≤ off ∧ off ≤ R.DSP_RING_D3 then
    if dspWindow who = false then 0
    else if off = R.DSP_RING_D0 then g.base
    else if off = R.DSP_RING_D1 then g.d1
    else if off = R.DSP_RING_D2 then overlay 0 [(F.DSP_RING_D2_PROD, g.prod), (F.DSP_RING_D2_CONS, g.cons)]
    else
      overlay 0 [(F.DSP_RING_D3_REFUSED, g.refused), (F.DSP_RING_D3_LOST, g.lost), (⟨R.DSP_RING_D3, 46, 32⟩, g.notify),
        (F.DSP_RING_D3_FAULT, bit g.fault)]
  else if 0x0C0 ≤ off ∧ off < 0x100 then
    if dspWindow who then
      let i := (off - 0x0C0) / 8
      quadHalf ((b.ctx (b.fld U.dsp F.DSP_CTX_SEL_CTX)).quad (i / 2)) (8 * i)
    else 0
  else w

/-- Whole seconds from an elapsed instant to now. -/
def Block.secs (b : Block) (t : Nat) : Nat := (b.t - t) / secTc

/-- WDN_LC as the OTP, the seal and the debug port give it (R394, R395, R398, R400). -/
def Block.wdnLc (b : Block) : List (Fld × Nat) :=
  let o := b.otp
  [(F.WDN_LC_STATE, o.lc), (F.WDN_LC_SEALED, bit b.host.isSealed), (F.WDN_LC_DEBUG, bit (o.lc == 0 || b.wdn.debug)),
    (F.WDN_LC_HYBRID, bit o.hybrid), (F.WDN_LC_VENDOR_KEYS, o.vendor.length), (F.WDN_LC_OWNER_KEYS, o.owner.length),
    (F.WDN_LC_SITE_KEYS, o.site.length), (F.WDN_LC_LEGACY_FLIPS, o.legacy)]

/-- WDN_RUN: the image that runs, from the seal on (R417). -/
def Block.wdnRun (b : Block) (μ : Mem) : List (Fld × Nat) :=
  if b.host.isSealed then
    let v := slotVer μ b.boot.running
    [(F.WDN_RUN_SVN, v >>> 32), (F.WDN_RUN_SLOT, b.boot.running), (F.WDN_RUN_PROBATION, bit b.wdn.probAt.isSome),
      (F.WDN_RUN_COMMITTED, b.boot.committed), (F.WDN_RUN_RELEASE, v),
      (F.WDN_RUN_PROB_LEFT, match b.wdn.probAt with | some t => 600 - min 600 (b.secs t) | none => 0)]
  else []

/-- The warden's registers (R419). -/
def Block.readWdn (b : Block) (μ : Mem) (who : Who) (off : Nat) : Word :=
  let w := b.reg U.warden off
  match who with
  | .vf _ => if 0x040 ≤ off then 0 else w
  | _ =>
    if off = R.WDN_SEC_STAT then
      overlay w [(F.WDN_SEC_STAT_AGE, if b.wdn.nonce.isSome then min 1023 (b.secs b.wdn.nonceAt) else 0)]
    else if off = R.WDN_STG_STAT then
      overlay w [(F.WDN_STG_STAT_IDLE, if b.stgOpen then min 60 (b.secs b.wdn.stgAt) else 0)]
    else if off = R.WDN_LC then overlay w b.wdnLc
    else if off = R.WDN_FLOOR then overlay w [(F.WDN_FLOOR_FLOOR, b.otp.floor)]
    else if off = R.WDN_RUN then overlay w (b.wdnRun μ)
    else if off = R.WDN_TOK_DATA then μ.rd64 .token b.tokIdx
    else w

/-- The tally's registers: counters and the sweep buffer answer only the PF and the warden (R388). -/
def Block.readTally (b : Block) (μ : Mem) (who : Who) (off : Nat) : Word :=
  if off = R.TALLY_CCFG then (match b.cselIdx with | some i => b.ccfgOf i | none => 0)
  else if off = R.TALLY_CVAL then (if tallyReader who then b.cval else 0)
  else if off = R.TALLY_BUF_LO then (if tallyReader who then b.bufLo μ else 0)
  else b.reg U.tally off

/-- A register's value as a reader of its page finds it (R11). -/
def Block.readReg (b : Block) (μ : Mem) (who : Who) (u off : Nat) : Word :=
  if b.readOk who u = false ∨ reservedUid u ∨ 0x400 ≤ off then 0
  else if u = U.rec ∧ recReader who = false then 0
  else if off < 0x040 then b.readHdr u off
  else
    let i := unitIndex u
    match kindOf u with
    | 0x01 => b.readRoot off
    | 0x04 => if off = R.PB_CB_DATA then
          μ.rd64 .cb (cbIndex i (b.fld u F.PB_CB_ADDR_SIDE) (b.fld u F.PB_CB_ADDR_ENTRY) (b.fld u F.PB_CB_ADDR_WORD))
        else b.reg u off
    | 0x05 => b.readPbd μ i off
    | 0x02 => if off = R.RXC_CAL_DATA then Store.get (0 : Word) (b.rxcH i).corr (b.fld u F.RXC_CAL_ADDR_SLICE) else b.reg u off
    | 0x06 => b.readCl i off
    | 0x07 => if (b.leaderOf i).isSome then 0
        else if off = R.LANE_STAT then overlay (b.reg u off) [(F.LANE_STAT_DIV_CNT, min 7 (b.divsRecent i).length)]
        else b.reg u off
    | 0x0C => b.readCc μ i off
    | 0x0D => b.readSy i off
    | 0x0F => b.readCe i off
    | 0x10 => b.readWdn μ who off
    | 0x11 => b.readLe μ off
    | 0x13 => b.reg u off
    | 0x14 => if off = R.KILN_STAT then
          overlay (b.reg u off) [(F.KILN_STAT_FAILED, ((List.range 48).filter fun n => b.ownState (U.ts n) == St.fenced).length)]
        else b.reg u off
    | 0x15 => b.readTally μ who off
    | 0x16 => if off = R.CEL_SDATA then b.celEntry (b.fld U.cel F.CEL_SADDR_ENTRY)
        else if off = R.CEL_STAT then overlay (b.reg u off) [(F.CEL_STAT_UNITS, b.celUnits)]
        else b.reg u off
    | 0x17 => b.readDsp who off
    | 0x18 => if off = R.SYNC_AIR then b.now
        else if off = R.SYNC_OPSEC then overlay (b.reg u off) [(F.SYNC_OPSEC_PWRCYC, b.sync.pwrcyc)]
        else b.reg u off
    | 0x19 => if off = R.MC_COEF_DATA then
          μ.rd64 .mcCoef (i * 32 + b.fld u F.MC_COEF_ADDR_SET * 16 + b.fld u F.MC_COEF_ADDR_INDEX)
        else b.reg u off
    | 0x20 => b.readGrp u off
    | _ => b.reg u off

/-- The eight bytes of BAR4 from offset `a` on as a reader of the recorder window and the tracer windows finds them (R380, R388, R424). A
VF reads zero, and so does every other offset; the reads of the cellar window are requests for HBM (R301, `execHbmRequest`). -/
def Block.bar4Read (b : Block) (μ : Mem) (who : Who) (a : Nat) : Word :=
  if b.readOk who 0 = false ∨ recReader who = false then 0
  else if a < 0x1000 then b.recWindow μ (a / 8 * 8)
  else if 0x10000 ≤ a ∧ a < 0x50000 ∧ tallyReader who then tracerWord μ (a - 0x10000)
  else 0

/-- A lane's tap as LANE_TAP_DATA reads it; the address advances. -/
def Block.tapRead (b : Block) (i : Nat) : Block :=
  { b.tapNext i with rdata := Store.get (0 : Word) (b.tapsNow i) (b.fld (U.lane i) F.LANE_TAP_ADDR_TAP) }

/-- A read of a whole register, with the effect that the read of a data window has; the value is left in `rdata`. -/
def Block.readAct (b : Block) (μ : Mem) (who : Who) (u off : Nat) : Block :=
  let v := b.readReg μ who u off
  let i := unitIndex u
  if b.readOk who u = false ∨ reservedUid u then { b with rdata := 0 }
  else
    match kindOf u with
    | 0x06 => if off = R.CL_MB_DATA then b.mbRead μ i .both else { b with rdata := v }
    | 0x07 => if off = R.LANE_TAP_DATA ∧ (b.leaderOf i).isNone then b.tapRead i else { b with rdata := v }
    | 0x0F => if off = R.CE_IMEM_DATA then { b.imemNext i with rdata := b.imemRead μ i }
        else if off = R.CE_DMEM_DATA then { b.dmemNext i with rdata := b.dmemRead μ i }
        else { b with rdata := v }
    | 0x12 => if off = R.MON_DATA then b.monDataRead .both
        else if off = R.MON_BUF_DATA then b.monBufRead μ .both
        else { b with rdata := v }
    | 0x15 => if off = R.TALLY_BUF_HI then
          (if tallyReader who then { b.bufNext with rdata := b.bufHi μ } else { b with rdata := 0 })
        else { b with rdata := v }
    | _ => { b with rdata := v }

end Sys2Proof.Machine
end

