-- ==== Sys2Proof/Machine/Write.lean ====
section
/-! DEFINITION.
A write of any register (R11, R12, R358, R411): the effect that its chapter gives each register, page by page, with who may
write it; and the commands that write registers as such. -/
namespace Sys2Proof.Machine

/-- A one-bit field that a half gives, none where the half leaves it out. -/
def given (half : Half) (v : Word) (f : Fld) : Option Bool := if halfHas half f then some (Word.fld v f.hi f.lo != 0) else none

/-- The array index of a register at `off` in an array that begins at `base`. -/
def regIdx (base off : Nat) : Nat := (off - base) / 8

/-- A write of UNIT_CTRL as the half gives it. -/
def ctrlOf (half : Half) (v : Word) : CtrlW :=
  { en := given half v F.UNIT_CTRL_ENABLE, test := given half v F.UNIT_CTRL_TEST_REQ
    pow := given half v F.UNIT_CTRL_POWER_REQ, fence := asks half v F.UNIT_CTRL_FENCE_REQ
    unf := asks half v F.UNIT_CTRL_UNFENCE_REQ }

/-- The header registers but for UNIT_CTRL (R18, R20). -/
def Block.writeHdr (b : Block) (who : Who) (u off : Nat) (half : Half) (v : Word) : Block :=
  if off = R.UNIT_FAULT then
    (b.faultClear u (v &&& halfMask half)).when (asks half v F.UNIT_FAULT_CNT_CLR) (·.cntClear u)
  else if off = R.UNIT_IRQ_EN then b.irqChange u fun b => b.putReg who u off half v []
  else b.putReg who u off half v []

/-- The module root's registers (R207, R369, R444). -/
def Block.writeRoot (b : Block) (who : Who) (off : Nat) (half : Half) (v : Word) : Block :=
  if off = R.ROOT_SQUALL then
    if asks half v F.ROOT_SQUALL_SQUALL then b.moduleSquall F.ROOT_SQUALL_HOST false
    else b.when (asks half v F.ROOT_SQUALL_UNSQUALL) (·.moduleUnsquall who)
  else if off = R.FLT_CFG then b.when (whoWarden who) fun b => b.putReg who 0 off half v []
  else if off = R.FLT_CTRL then
    let b := b.when (asks half v F.FLT_CTRL_SAFE_CLR) (·.safeClr who)
    let b := b.when (asks half v F.FLT_CTRL_FIRST_CLR) (·.firstClr who)
    b.when (asks half v F.FLT_CTRL_BIST) (·.bistStart who)
  else if off = R.FLT_PIN then b.when (halfHas half F.FLT_PIN_DRIVE) (·.pinDrive who (Word.fld v 0 0 == 1))
  else if off = R.FLT_PIN_MASK then b.when (whoPfSys who) fun b => b.putReg who 0 off half v []
  else if off = R.FLT_INJ_GO then b.when (asks half v F.FLT_INJ_GO_GO) (·.inject who)
  else if off = R.HOST_VEC then b.vecWrite who half v
  else if off = R.HOST_ROUTE then b.routeWrite who half v
  else if off = R.HOST_VF_SEL then b.when (whoPf who) fun b => b.putReg who 0 off half v []
  else if off = R.HOST_VF_UID then b.vfUidWrite who half v
  else if off = R.HOST_URST then b.when (half != .hi) (·.urst who (Word.fld v 15 0))
  else b.putReg who 0 off half v []

/-- A PB's registers (R69, R74, R77): PB_CFG and the port slots are refused in service. -/
def Block.writePb (b : Block) (μ : Mem) (who : Who) (n off : Nat) (half : Half) (v : Word) : Block :=
  let u := U.pb n
  if off ≤ R.PB_SV_RX1 ∧ (b.pbdOn (2 * n) ∨ b.pbdOn (2 * n + 1)) then
    let b := if b.flag u F.PB_STAT_CFG_REJ then b else (b.setFlag u F.PB_STAT_CFG_REJ true).irq u 19
    b.correctedBy who u C.cfgLocked
  else if off = R.PB_TDD_SWITCH then b.tddCommit n (halfMerge half (b.reg u off) v)
  else if off = R.PB_CB_DATA then b.cbWrite μ n half v
  else (b.putReg who u off half v []).when (off == R.PB_CFG) fun b => b.mcRateFollow n

/-- A PBD's own registers (R61, R74, R78, R135): an EXT entry in force is refused, TAPS of the bank in use is ignored, and with
EN going to 0 the probe no longer bounds the margin; what R74 delays to the next tick boundary waits for it. DESIGN CHOICE: a PBD_PLAN write
with DG_HI below DG_LO is stored as written (log entry 104). -/
def Block.writePbd (b : Block) (who : Who) (m off : Nat) (half : Half) (v : Word) : Block :=
  let u := U.pbd m
  if off = R.PBD_NCO_RX then b.ncoWrite m false half v
  else if off = R.PBD_NCO_TX then b.ncoWrite m true half v
  else if off = R.PBD_BEAM then (b.beamChange m half v).1
  else if off = R.PBD_FILT then
    let held := [(F.PBD_FILT_TAPS0, false), (F.PBD_FILT_TAPS1, true)].filter fun x => b.bankBusy m x.2 && halfHas half x.1
    (b.putReg who u off half v (held.map (·.1))).when (!held.isEmpty) (·.filtBusy m)
  else if off = R.PBD_FCOEF_DATA then b.when (halfHas half F.PBD_FCOEF_DATA_COEF) (·.fcoefWrite m v)
  else if 0x0A0 ≤ off ∧ off < 0x120 then
    if b.pbdOn m ∧ b.fld u F.PBD_GAIN_EXT_IDX = regIdx 0x0A0 off then b.pbdRefused m C.cfgLocked
    else (b.pathHold m off).putReg who u off half v []
  else if off = R.PBD_PROBE_CFG then
    let was := b.flag u F.PBD_PROBE_CFG_EN
    let b := b.putReg who u off half v []
    b.when (was && !b.flag u F.PBD_PROBE_CFG_EN) fun b =>
      b.unkSet m { cause := 0, lane := 0, from_ := b.t, cold := false, pub := false }
  else if off = R.PBD_PROBE_ISO then
    if whoSys who = false ∧ halfHas half F.PBD_PROBE_ISO_ISO_PASSIVE then b.privRefused m else (b.putReg who u off half v []).showGain m
  else if off = R.PROT_CTRL then
    let rest := [F.PROT_CTRL_UNSQUALL, F.PROT_CTRL_RESTART, F.PROT_CTRL_FL_REDO].filter (asks half v)
    if asks half v F.PROT_CTRL_SQUALL then b.squall m 6
    else if rest.isEmpty then b
    else if whoSys who = false then b.privRefused m
    else
      let b := b.when (rest.contains F.PROT_CTRL_UNSQUALL) (·.unsquall m)
      let b := b.when (rest.contains F.PROT_CTRL_RESTART) (·.restartAsk m)
      b.when (rest.contains F.PROT_CTRL_FL_REDO) (·.flRedo m)
  else if 0x190 ≤ off ∧ off < 0x200 then b.protWrite who u off half v
  else if loopOff off then b.loopWrite who m off half v
  else (b.pathHold m off).putReg who u off half v []

/-- A synthesiser's registers (R95, R111). -/
def Block.writeSy (b : Block) (μ : Mem) (who : Who) (k off : Nat) (half : Half) (v : Word) : Block :=
  let u := U.sy k
  if off = R.SY_HOP then
    let b := b.when (asks half v F.SY_HOP_GO) fun b => (b.hopAsk who k (Word.fld v F.SY_HOP_ENTRY.hi F.SY_HOP_ENTRY.lo)).1
    b.when (asks half v F.SY_HOP_SAVE) (·.sySave μ k)
  else if off = R.SY_CAL_DATA0 then b.syCalWrite k false half v
  else if off = R.SY_CAL_DATA1 then b.syCalWrite k true half v
  else b.putReg who u off half v []

/-- A converter chiplet's registers (R99, R103, R104, R113). -/
def Block.writeCc (b : Block) (μ : Mem) (who : Who) (c off : Nat) (half : Half) (v : Word) : Block :=
  let u := U.cc c
  if 0x048 ≤ off ∧ off ≤ 0x060 then
    let x := regIdx 0x048 off
    if half = .hi then b
    else (b.putReg who u off half v [F.CC_RFFE_DIV x]).rffeDiv who c x (Word.fld v 10 0)
  else if off = R.CC_SEQ_DATA then b.seqWrite μ c half v
  else if off = R.CC_RFFE_CMD then (if half = .hi then b else b.rffeCmd c (halfMerge half 0 v))
  else if off = R.CC_SEQ_GO then b.when (half != .hi) fun b => (b.seqAsk μ c (Word.fld v 7 0)).1
  else if 0x100 ≤ off ∧ off < 0x200 then b.stbCfg who c (regIdx 0x100 off) half v
  else b.putReg who u off half v []

/-- A cluster's registers (R127, R141): the CL_MB registers of every page are the same. -/
def Block.writeCl (b : Block) (μ : Mem) (who : Who) (k off : Nat) (half : Half) (v : Word) : Block :=
  if off = R.CL_MB_DATA then b.mbWrite μ k half v
  else if off = R.CL_MB_CTRL then
    let op := woFld half v F.CL_MB_CTRL_OP
    let slot := woFld half v F.CL_MB_CTRL_SLOT
    if op = 1 then b.mbValid k slot 1
    else if op = 2 then b.mbValid k slot 0
    else if op = 3 then { b.bankBegin k with bank := { (b.bankBegin k).bank with valid := [] } }
    else b
  else if R.CL_MB_ADDR ≤ off ∧ off ≤ R.CL_MB_STAT then b.putReg who (U.cl 0) off half v []
  else b.putReg who (U.cl k) off half v []

/-- A lane's registers (R31, R118, R122, R142): a follower ignores writes, a spare that backs nothing takes no configuration,
LANE_CFG and LANE_WIN are refused in service, and LANE_KEY is ignored there. -/
def Block.writeLane (b : Block) (who : Who) (i off : Nat) (half : Half) (v : Word) : Block :=
  let u := U.lane i
  let on := b.inService u || b.ownState u == St.test
  if (b.leaderOf i).isSome then b
  else if off < R.LANE_CMD ∧ b.idleSpare i then b.laneRefused i C.cfgLane
  else if off < R.LANE_ADAPT ∧ on then b.laneRefused i C.cfgLocked
  else if off = R.LANE_KEY ∧ on then b
  else if off = R.LANE_CMD then
    let b := b.when (asks half v F.LANE_CMD_RESUME) (·.laneResume i)
    let b := b.when (asks half v F.LANE_CMD_ZERO) (·.laneZero i)
    b.when (asks half v F.LANE_CMD_SAVE) (·.laneSave i)
  else if off = R.LANE_TAP_DATA then (if half = .hi then b.tapNext i else b.tapWrite i v)
  else b.putReg who u off half v []

/-- The loop engine's registers (R170). -/
def Block.writeLe (b : Block) (who : Who) (off : Nat) (half : Half) (v : Word) : Block :=
  if off = R.LE_PEAK then b.when (asks half v F.LE_PEAK_CLR) fun b => b.setFld U.le F.LE_PEAK_PEAK 0
  else if off = R.LE_LUT_DATA then (if half = .hi then b else b.lutWrite v)
  else b.putReg who U.le off half v []

/-- A chain's registers (R182 to R185). -/
def Block.writeMc (b : Block) (who : Who) (c off : Nat) (half : Half) (v : Word) : Block :=
  let u := U.mc c
  if off = R.MC_TAP ∨ off = R.MC_CFG ∨ off = R.MC_COEF_ADDR ∨ off = R.MC_COEF_DATA then b.mcConfigWrite who c off half v
  else if off = R.MC_CTRL then
    let b := b.when (asks half v F.MC_CTRL_SYNC) fun b => b.mcTrigger b.t
    b.when (asks half v F.MC_CTRL_PEAK_CLR) fun b => b.setFld u F.MC_PEAK_HOLD_HOLD noValue
  else b.putReg who u off half v []

/-- The registers of an engine that only the warden writes (R239). -/
def ceWarden (off : Nat) : Bool :=
  (R.CE_CFG ≤ off && off ≤ R.CE_DWIN_SIZE) || (0x080 ≤ off && off < 0x100)

/-- A cue engine's registers (R237, R239). -/
def Block.writeCe (b : Block) (μ : Mem) (who : Who) (n off : Nat) (half : Half) (v : Word) : Block :=
  let u := U.ce n
  if ceWarden off ∧ whoWarden who = false then b
  else if off = R.CE_CFG then
    let low := (halfHas half F.CE_CFG_ORIGIN && decide (Word.fld (halfMerge half (b.reg u off) v) 14 0 < 16386))
    b.putReg who u off half v (if low then [F.CE_CFG_ORIGIN] else [])
  else if off = R.CE_PART then b.when (!b.flag u F.CE_USER_CTRL_RUN) fun b => b.putReg who u off half v []
  else if off = R.CE_USER_CTRL then
    if whoSys who then
      let b := b.putReg who u off half v [F.CE_USER_CTRL_RUN]
      match given half v F.CE_USER_CTRL_RUN with | some r => b.setRun n r | none => b
    else if b.userCtl who n then
      let b := b.putReg who u off half v [F.CE_USER_CTRL_RUN]
      let b := b.when (asks half v F.CE_USER_CTRL_START) (·.userStart who n)
      b.when (asks half v F.CE_USER_CTRL_STOP) (·.userStop who n)
    else b
  else if off = R.CE_IMEM_DATA then b.imemWrite μ n half v
  else if off = R.CE_DMEM_DATA then b.dmemWrite μ n half v
  else b.putReg who u off half v []

/-- The dispatcher's registers (R252, R262). -/
def Block.writeDsp (b : Block) (who : Who) (off : Nat) (half : Half) (v : Word) : Block :=
  if off = R.DSP_CFG then b.when (whoWarden who) fun b => (b.putReg who U.dsp off half v []).dspFull
  else if off = R.DSP_PEAK then b.when (asks half v F.DSP_PEAK_CLR) (·.dspPeakClr)
  else if off = R.DSP_CANCEL then b.when (half != .hi) (·.dspCancel who (Word.fld v 17 0))
  else if R.DSP_RING_D0 ≤ off ∧ off ≤ R.DSP_RING_D3 then b.ringDesc who off half v
  else if off = R.DSP_RING_SEL ∨ off = R.DSP_CTX_SEL then b.when (dspWindow who) fun b => b.putReg who U.dsp off half v []
  else b.putReg who U.dsp off half v []

/-- A head's registers (R273, R280, R282). -/
def Block.writeHd (b : Block) (who : Who) (h off : Nat) (half : Half) (v : Word) : Block :=
  let u := U.hd h
  let st := b.ownState u
  if off = R.HD_SERIAL ∨ off = R.HD_BIND then b.when (st == St.off || st == St.fenced) fun b => b.putReg who u off half v []
  else if off = R.HD_CFG ∨ off = R.HD_PATH then (b.putReg who u off half v []).headCheck h
  else if off = R.HD_CTRL then b.when (asks half v F.HD_CTRL_REALIGN) (·.realign h true)
  else if off = R.HD_GPIO then
    b.when (halfHas half F.HD_GPIO_LEVEL) fun b => b.headGpio h (Word.fld v 15 0) (b.time.air + b.fld u F.HD_LAT_D_DL)
  else b.putReg who u off half v []

/-- The cellar's registers (R299, R302, R306). -/
def Block.writeCel (b : Block) (μ : Mem) (who : Who) (off : Nat) (half : Half) (v : Word) : Block :=
  let u := U.cel
  let st := b.fld u F.CEL_STAT_STATE
  if off = R.CEL_CTRL then
    let b := match given half v F.CEL_CTRL_RUN with
      | some r => if r = b.flag u F.CEL_CTRL_RUN then b else b.celRun r
      | none => b
    let b := b.when (asks half v F.CEL_CTRL_FREEZE) (·.celFreeze who)
    let b := b.when (asks half v F.CEL_CTRL_REARM) (·.celRearm)
    let b := b.when (asks half v F.CEL_CTRL_RPL_START) (·.rplStart μ)
    b.when (asks half v F.CEL_CTRL_RPL_STOP) (·.rplEnd)
  else if off = R.CEL_CFG then
    let held := (st == 1 || st == 2 || st == 4) && halfHas half F.CEL_CFG_PRE && (clampedFld u F.CEL_CFG_PRE v).1 != b.fld u F.CEL_CFG_PRE
    (b.putReg who u off half v (if held then [F.CEL_CFG_PRE] else [])).when held fun b => b.correctedBy who u C.cfgLocked
  else if off = R.CEL_SDATA then b.when (whoPfSys who) (·.sdataWrite half v)
  else if off = R.CEL_WIN ∨ off = R.CEL_RPL_CFG ∨ off = R.CEL_RPL_FROM ∨ off = R.CEL_RPL_STAT then
    b.when (whoPfSys who) fun b => b.putReg who u off half v []
  else b.putReg who u off half v []

/-- The monitor converter's registers (R309 to R321). -/
def Block.writeMon (b : Block) (who : Who) (off : Nat) (half : Half) (v : Word) : Block :=
  let u := U.mon
  if off = R.MON_CFG then b.monCfgWrite half v
  else if off = R.MON_REF_EN then (match given half v F.MON_REF_EN_EN with | some e => b.monRef e | none => b)
  else if off = R.MON_START then
    (b.when (asks half v F.MON_START_GO) (·.monGo)).when (asks half v F.MON_START_BURST) (·.monBurst)
  else if off = R.MON_TRIG then
    let seq := asks half v F.MON_TRIG_SEQ
    let inj := asks half v F.MON_TRIG_INJ
    (b.when inj (·.urgentTrigger)).when seq (·.regTrigger)
  else if off = R.MON_DROP then
    b.when (asks half v F.MON_DROP_CLR) fun b =>
      ((b.setFld u F.MON_DROP_INJ_DROP 0).setFld u F.MON_DROP_TRIG_DROP 0).setFld u F.MON_DROP_REJ_CNT 0
  else if 0x300 ≤ off ∧ off < 0x380 ∧ off % 0x10 = 0 then b.monWcWrite who ((off - 0x300) / 0x10) half v
  else b.putReg who u off half v []

/-- The tally's registers (R383 to R391). -/
def Block.writeTally (b : Block) (who : Who) (off : Nat) (half : Half) (v : Word) : Block :=
  let u := U.tally
  if off = R.TALLY_CTRL then
    (b.when (asks half v F.TALLY_CTRL_SWEEP) (·.sweepStart)).when (asks half v F.TALLY_CTRL_CLR) (·.tallyClr)
  else if off = R.TALLY_CFG then b.when (half != .hi) (·.tallyCfg v)
  else if off = R.TALLY_CCFG then b.ccfgWrite half v
  else if 0x100 ≤ off ∧ off < 0x180 ∧ off % 0x20 = 0 then
    let t := (off - 0x100) / 0x20
    if half = .hi then b else (b.trCtrl t v).when (asks half v (F.TR_CTRL_CLR t)) (·.tracerClr t)
  else b.putReg who u off half v []

/-- The warden's registers: WDN_SEC_CTRL, the token buffers and the staging registers answer only the PF and the management
SPI (R419). -/
def Block.writeWdn (b : Block) (μ : Mem) (who : Who) (off : Nat) (half : Half) (v : Word) : Block :=
  if whoPf who = false then b
  else if off = R.WDN_SEC_CTRL then
    (b.when (asks half v F.WDN_SEC_CTRL_NONCE_REQ) (·.nonceReq who)).when (asks half v F.WDN_SEC_CTRL_APPLY) (·.secApply μ who)
  else if off = R.WDN_TOK_DATA then b.tokWrite μ who half v
  else if off = R.WDN_STG_DATA then b.stgData μ who half v
  else if off = R.WDN_STG_CTRL then
    let b := b.when (asks half v F.WDN_STG_CTRL_OPEN) (·.stgOpenDo who)
    let b := b.when (asks half v F.WDN_STG_CTRL_CLOSE) (·.stgCloseDo who)
    let b := b.when (asks half v F.WDN_STG_CTRL_ABORT) (·.stgAbortDo who)
    let b := b.when (asks half v F.WDN_STG_CTRL_ACTIVATE) (·.stgActivateDo who)
    let b := b.when (asks half v F.WDN_STG_CTRL_COMMIT) (·.probCmd who fun b => b.commitDo μ)
    let b := b.when (asks half v F.WDN_STG_CTRL_REVERT) (·.probCmd who (·.revertDo))
    let b := b.when (asks half v F.WDN_STG_CTRL_SAVE_SET) (·.saveAsk who 0)
    b.when (asks half v F.WDN_STG_CTRL_SAVE_CAL) (·.saveAsk who 1)
  else b.putReg who U.warden off half v []

/-- A stack's registers: the MEM_REGION registers take writes of the warden alone and are the same in both pages, and the SIZE of
CELLAR is read only (R304). -/
def Block.writeHs (b : Block) (who : Who) (u off : Nat) (half : Half) (v : Word) : Block :=
  if off < 0x060 then b.putReg who u off half v []
  else if whoWarden who ∧ off < 0x080 then
    let b := b.putReg who (U.hs 0) off half v []
    b.setReg (U.hs 1) off (b.reg (U.hs 0) off)
  else b

/-- The effect of a write at its unit, for a writer that reaches the page. -/
def Block.writeEff (b : Block) (μ : Mem) (who : Who) (u off : Nat) (half : Half) (v : Word) : Block :=
  let i := unitIndex u
  if off < 0x040 then b.writeHdr who u off half v
  else
    match kindOf u with
    | 0x01 => b.writeRoot who off half v
    | 0x02 =>
      let b := b.putReg who u off half v []
      b.when (off == R.RXC_CFG) fun b =>
        b.setFlag u F.RXC_STAT_SY_WAIT (match b.boundSy u with | some k => !b.syLocked k | none => false)
    | 0x03 => (b.putReg who u off half v []).when (off == R.TXC_CFG) (·.txcRefreshAll)
    | 0x04 => b.writePb μ who i off half v
    | 0x05 => b.writePbd who i off half v
    | 0x06 => b.writeCl μ who i off half v
    | 0x07 => b.writeLane who i off half v
    | 0x08 => b.when (off != R.TS_NBR || whoWarden who) fun b => b.putReg who u off half v []
    | 0x0A => b.writeHs who u off half v
    | 0x0B =>
      if off = R.PC_STAT then b.when (asks half v F.PC_STAT_PEAK_CLR) fun b => b.setFld u F.PC_STAT_PEAK 0
      else b.putReg who u off half v []
    | 0x0C => b.writeCc μ who i off half v
    | 0x0D => b.writeSy μ who i off half v
    | 0x0E =>
      if off = R.ORX_CTRL then
        let b := b.putReg who u off half v [F.ORX_CTRL_RUN]
        match given half v F.ORX_CTRL_RUN with | some r => b.orxRun who i r | none => b
      else if off = R.ORX_EMW_CFG ∨ 0x100 ≤ off then b.protWrite who u off half v
      else b.putReg who u off half v []
    | 0x0F => b.writeCe μ who i off half v
    | 0x10 => b.writeWdn μ who off half v
    | 0x11 => b.writeLe who off half v
    | 0x12 => b.writeMon who off half v
    | 0x13 =>
      if off = R.REC_CFG then b.when (whoSys who) fun b => b.putReg who u off half v []
      else if off = R.REC_CTRL then b.when (asks half v F.REC_CTRL_CLEAR) (·.recClear who)
      else b.putReg who u off half v []
    | 0x14 =>
      if off = R.KILN_CFG then b.when (whoSys who) fun b => b.putReg who u off half v []
      else if off = R.KILN_CTRL then b.when (asks half v F.KILN_CTRL_RESUME) (·.kilnResume)
      else b.putReg who u off half v []
    | 0x15 => b.writeTally who off half v
    | 0x16 => b.writeCel μ who off half v
    | 0x17 => b.writeDsp who off half v
    | 0x18 =>
      if off = R.SYNC_CFG then b.syncCfg who half v
      else if off = R.SYNC_CTRL then b.when (asks half v F.SYNC_CTRL_RESYNC) fun b => b.syn fun y => { y with resync := true }
      else if off = R.SYNC_TOD then (b.putReg who u off half v []).syn fun y => { y with todWritten := true }
      else if off = R.SYNC_PTP_CFG then b.ptpCfg who half v
      else if off = R.SYNC_TRK_CFG then (b.putReg who u off half v []).trackerTakes
      else if off = R.SYNC_WALL then b.wallWrite who half v
      else b.putReg who u off half v []
    | 0x19 => b.writeMc who i off half v
    | 0x1A => b.writeHd who i off half v
    | 0x20 =>
      if off = R.GRP_EDIT then b.when (half != .hi) fun b => b.grpEdit u (Word.fld v 15 0) (Word.fld v 17 16)
      else b.putReg who u off half v []
    | _ => b.putReg who u off half v []

/-- What a coast takes of a host write (R411): squalls, and the commands of the warden that answer BUSY. -/
def Block.coastWrite (b : Block) (μ : Mem) (who : Who) (u off : Nat) (half : Half) (v : Word) : Option Block :=
  if kindOf u = 0x05 ∧ off = R.PROT_CTRL ∧ asks half v F.PROT_CTRL_SQUALL then
    some (b.wrFree who u F.PROT_CTRL_SQUALL fun b => b.squall (unitIndex u) 6)
  else if u = 0 ∧ off = R.ROOT_SQUALL ∧ asks half v F.ROOT_SQUALL_SQUALL then
    some (b.wrFree who 0 F.ROOT_SQUALL_SQUALL fun b => b.moduleSquall F.ROOT_SQUALL_HOST false)
  else if u = U.warden ∧ off = R.WDN_SEC_CTRL ∧ asks half v F.WDN_SEC_CTRL_APPLY then
    some (b.wrFree who u F.WDN_SEC_CTRL_APPLY fun b => b.secApply μ who)
  else if u = U.warden ∧ off = R.WDN_STG_CTRL then
    let w := v &&& (fldMask 0 0 ||| fldMask F.WDN_STG_CTRL_COMMIT.hi F.WDN_STG_CTRL_COMMIT.lo |||
      fldMask F.WDN_STG_CTRL_SAVE_SET.hi F.WDN_STG_CTRL_SAVE_SET.lo ||| fldMask F.WDN_STG_CTRL_SAVE_CAL.hi F.WDN_STG_CTRL_SAVE_CAL.lo)
    if w &&& halfMask half = 0 then none else some (b.wrFree who u F.WDN_STG_CTRL_OPEN fun b => b.writeWdn μ who off half w)
  else none

/-- A write of a register by a writer: UNIT_CTRL by its own rules, REC_CURSOR under the fatal latch too (R358, R380), what a coast
takes, and every other register. -/
def Block.writeFull (b : Block) (μ : Mem) (who : Who) (u off : Nat) (half : Half) (v : Word) : Block :=
  if reservedUid u ∨ off % 8 ≠ 0 ∨ 0x400 ≤ off then b
  else if off = R.UNIT_CTRL then b.ctrlBy μ who u (ctrlOf half v)
  else if u = U.rec ∧ off = R.REC_CURSOR ∧ b.latchOnly who u then b.putReg who u off half v []
  else
    match (if b.hostHeld who then b.coastWrite μ who u off half v else none) with
    | some b => b
    | none => b.wrReg who u off half fun b => b.writeEff μ who u off half v

/-- REGISTER_WRITE. -/
def execRegisterWrite (who : Who) (u off : Nat) (half : Half) (v : Word) (s : State) : Host.Outcome State Fault Refusal :=
  s.done fun μ b => b.writeFull μ who u off half v

/-- REG_ALIGN: a PCIe access of illegal width or alignment is ignored, or reads as zero (R11). -/
def execRegAlign (who : Who) (write : Bool) (_u : Nat) (s : State) : Host.Outcome State Fault Refusal :=
  s.did fun b =>
    match whoFunc who with
    | some _ =>
      if b.inReset ∨ b.linkDown then b
      else if write then b.correctedBy who 0 C.regAlign
      else { b.correctedBy who 0 C.regAlign with rdata := 0 }
    | none => b

/-! ## Unit accesses of the engines (R228) -/

/-- The writer that engine `n` is. -/
def engWho (n : Nat) (sys : Bool) : Who := if n < 32 then .engine n sys else .warden

/-- A get whose earlier posted writes to the same unit have all arrived. -/
def EngH.getReady (h : EngH) (g : GetR) : Bool := !h.posts.any fun p => p.uid == g.uid && p.seq < g.seq

/-- UGET_DONE: the oldest get of engine `n` that may go on returns its data. -/
def execUgetDone (n : Nat) (s : State) : Host.Outcome State Fault Refusal :=
  s.done fun μ b =>
    let h := b.eng n
    match h.gets.find? h.getReady with
    | some g =>
      let b := b.readAct μ (engWho n g.sys) g.uid g.off
      b.setEng n (({ b.eng n with gets := (b.eng n).gets.filter fun x => x.seq != g.seq } : EngH).wr64 g.wd b.rdata)
    | none => b

/-- UPUT_ARRIVE: the oldest posted write of engine `n` reaches its unit, as a class 2 or 3 write. -/
def execUputArrive (n : Nat) (s : State) : Host.Outcome State Fault Refusal :=
  s.done fun μ b =>
    match (b.eng n).posts with
    | p :: rest =>
      (b.setEng n { b.eng n with posts := rest }).writeFull μ (engWho n p.sys) p.uid p.off .both p.v
    | [] => b

end Sys2Proof.Machine
end

