-- ==== Sys2Proof/Machine/Cues.lean ====
section
/-! DEFINITION.
The effects of the cue actions (R245): a staged action takes effect at its own Tc, an issued one at once (R247, R248), in
the collision order of R255, and the occurrence retires with the unit's answer. -/
namespace Sys2Proof.Machine

/-- The writer that a cue is (R219, R242). -/
def cueWho (c : Ctx) : Who := .cue c.cls c.origin c.sys

/-- The unit answered a write by a CORRECTED report other than CLAMP since `b`: it refused it (R12, R244). -/
def Block.refusedSince (b b' : Block) (u : Nat) : Bool :=
  let was := if b'.flt.cycleAt = b.flt.cycleAt then b.flt.cycle.length else 0
  (b'.flt.cycle.drop was).any fun e => e.uid == u && e.cls == 1 && e.code != C.clamp

/-- An action at a unit that the cue reaches: its collision is counted, and its effect answers whether it was taken. -/
def Block.cueAt (b : Block) (c : Ctx) (f : Fld) (eff : Block → Block × Bool) : Block × Bool :=
  if b.writeOk (cueWho c) c.target then eff (b.hit (cueWho c) c.target f) else (b, false)

/-- An action that sets the fields `fs` at a unit that the cue reaches, as one write of them: its collision is counted once; where a write
ranked after it has set the first of them in this Tc, it is applied and leaves nothing (R255). -/
def Block.cueSets (b : Block) (c : Ctx) (fs : List Fld) (eff : Block → Block × Bool) : Block × Bool :=
  let who := cueWho c
  if b.writeOk who c.target then
    let lost := match fs with | f :: _ => b.outranked who c.target f | [] => false
    let b := b.hitMasks who c.target (fs.map fun f => (f.off, fldMask f.hi f.lo))
    if lost then (b, true) else eff b
  else (b, false)

/-! ## WRITE -/

/-- A register's value with a mask replaced; the W1C and WO bits outside the mask stay zero, so that they do not act. -/
def maskedValue (u off : Nat) (old mask v : Word) : Word :=
  let acts := match regAt u off with
    | some (d, _) => (d.rows.filter fun r => r.acc == .wo || r.acc == .w1c).foldl (fun m r => m ||| fldMask r.hi r.lo) 0
    | none => 0
  (old &&& ~~~mask &&& ~~~acts) ||| (v &&& mask)

/-- A field that a masked write of UNIT_CTRL gives. -/
def maskGives (mask v : Word) (f : Fld) : Option Bool :=
  if Word.fld mask f.hi f.lo = 1 then some (Word.fld v f.hi f.lo == 1) else none

/-- The write of UNIT_CTRL that a masked write is. -/
def maskedCtrl (mask v : Word) : CtrlW :=
  { en := maskGives mask v F.UNIT_CTRL_ENABLE, test := maskGives mask v F.UNIT_CTRL_TEST_REQ
    pow := maskGives mask v F.UNIT_CTRL_POWER_REQ
    fence := maskGives mask v F.UNIT_CTRL_FENCE_REQ == some true
    unf := maskGives mask v F.UNIT_CTRL_UNFENCE_REQ == some true }

/-- UNIT_CTRL of a unit or a group takes the write of a cue. It is refused where every copy is refused. -/
def Block.cueCtrl (b : Block) (μ : Mem) (c : Ctx) (w : CtrlW) : Block × Bool :=
  if b.writeOk (cueWho c) c.target then
    let n := (b.ctrlFan μ (cueWho c) c.target w).2
    (b.ctrlWrite μ (cueWho c) c.target w, n == 0 || n < (b.flat c.target).length)
  else (b, false)

/-- A WRITE cue of HD_GPIO applies at its stamp at the head (R278, R282). -/
def Block.cueGpio (b : Block) (c : Ctx) (v : Word) : Block :=
  b.headGpio (unitIndex c.target) (Word.fld v 15 0) (tcOf c.stamp)

/-- WRITE: a masked write of a register of the target's page. -/
def Block.cueWrite (b : Block) (μ : Mem) (c : Ctx) : Block × Bool :=
  let u := c.target
  let off := c.arg 0 2
  let mask : Word := BitVec.ofNat 64 (c.arg 8 8)
  let v : Word := BitVec.ofNat 64 (c.arg 16 8)
  if off % 8 ≠ 0 ∨ 0x400 ≤ off then (b, false)
  else if off = R.UNIT_CTRL then b.cueCtrl μ c (maskedCtrl mask v)
  else if b.writeOk (cueWho c) u then
    let b0 := b.hitMask (cueWho c) u off mask
    let w := maskedValue u off (b0.readReg μ (cueWho c) u off) mask v
    let b1 := if kindOf u = 0x1A ∧ off = R.HD_GPIO then b0.cueGpio c w else b0.writeEff μ (cueWho c) u off .both w
    (b1, !b0.refusedSince b1 u)
  else (b, false)

/-! ## The other actions -/

/-- DIRECTION: the steps of both sides are scheduled from the stamp (R70); it acts on the TDD switch state (R253). -/
def Block.cueDirection (b : Block) (x : Nat) (c : Ctx) : Block × Bool :=
  if b.writeOk (cueWho c) c.target ∧ b.flag c.target F.PB_CFG_DUPLEX then
    ((b.hitMask (cueWho c) c.target tddState 1).dirCue (unitIndex c.target) (c.arg 0 1 % 2 == 1) (tcOf c.stamp) c.tolTc x, true)
  else (b, false)

/-- BEAM: PBD_BEAM takes the value. -/
def Block.cueBeam (b : Block) (c : Ctx) : Block × Bool :=
  if b.writeOk (cueWho c) c.target then
    let lost := b.heldBits (cueWho c) c.target R.PBD_BEAM == BitVec.allOnes 64
    let b := b.hitMask (cueWho c) c.target R.PBD_BEAM (halfMask .both)
    if lost then (b, true) else b.beamChange (unitIndex c.target) .both (BitVec.ofNat 64 (c.arg 0 8))
  else (b, false)

/-- FBANK: the filter banks switch at once. -/
def Block.cueFbank (b : Block) (c : Ctx) : Block × Bool :=
  b.cueSets c [F.PBD_CTRL_FBANK] fun b => (b.fbankCue (unitIndex c.target) (c.arg 0 1 % 2 == 1), true)

/-- RETUNE: both NCO words with T0 at the stamp. -/
def Block.cueRetune (b : Block) (c : Ctx) : Block × Bool :=
  b.cueSets c [F.PBD_NCO_RX_WORD, F.PBD_NCO_TX_WORD] fun b =>
    (b.retuneCue (unitIndex c.target)
      (Word.fld (BitVec.ofNat 64 (c.arg 0 8)) F.PBD_NCO_RX_WORD.hi F.PBD_NCO_RX_WORD.lo)
      (Word.fld (BitVec.ofNat 64 (c.arg 8 8)) F.PBD_NCO_TX_WORD.hi F.PBD_NCO_TX_WORD.lo), true)

/-- CAP: SETPT of L4, enabled. -/
def Block.cueCap (b : Block) (c : Ctx) : Block × Bool :=
  b.cueSets c [F.LOOP_SETPT_SETPT 4, F.LOOP_CTRL_EN 4] fun b => b.capCue (cueWho c) (unitIndex c.target) (sext 16 (c.arg 0 2))

/-- LULL: SETPT of L4 falls to the lull level. -/
def Block.cueLull (b : Block) (c : Ctx) : Block × Bool :=
  b.cueSets c [F.LOOP_SETPT_SETPT 4, F.LOOP_CTRL_EN 4] fun b => (b.lullCue (unitIndex c.target), true)

/-- SQUALL: cause CUE (R187). At its stamp the ramp begins at M, a late one's within 512 Tc (R188). -/
def Block.cueSquall (b : Block) (c : Ctx) : Block × Bool :=
  b.cueAt c F.PROT_CTRL_SQUALL fun b =>
    (if b.time.air ≤ tcOf c.stamp then b.squallAt (unitIndex c.target) 7 b.t else b.squall (unitIndex c.target) 7, true)

/-- UNSQUALL: for system privilege only. -/
def Block.cueUnsquall (b : Block) (c : Ctx) : Block × Bool :=
  b.cueAt c F.PROT_CTRL_UNSQUALL fun b =>
    if c.sys then (b.unsquall (unitIndex c.target), true) else (b.privRefused (unitIndex c.target), false)

/-- RESTART: for system privilege only. -/
def Block.cueRestart (b : Block) (c : Ctx) : Block × Bool :=
  b.cueAt c F.PROT_CTRL_RESTART fun b =>
    if c.sys then (b.restartAsk (unitIndex c.target), b.restartOk (unitIndex c.target))
    else (b.privRefused (unitIndex c.target), false)

/-- SWAPMODEL at one lane: a swap that took place at its Tc is done (R128). -/
def Block.cueSwapAt (b : Block) (x : Nat) (c : Ctx) (i : Nat) : Block × Bool :=
  let u := U.lane i
  let key := c.arg 0 4
  if ((b.laneH i).swaps.any fun y => y.ctx == x) = false ∧ b.reg u R.LANE_SWAP_STAMP = stampOf (tcOf c.stamp) ∧
      b.fld u F.LANE_KEY_KEY = key then (b, true)
  else (b.hit (cueWho c) u F.LANE_KEY_KEY).swapExec i x key (tcOf c.stamp)

/-- SWAPMODEL at every lane that the target names; refused where all of them refuse. -/
def Block.cueSwap (b : Block) (x : Nat) (c : Ctx) : Block × Bool :=
  let lanes := b.swapLanes c.target
  if b.writeOk (cueWho c) c.target then
    let y := lanes.foldl (fun (y : Block × Bool) i =>
      let (b, ok) := y.1.cueSwapAt x c i
      (b, y.2 || ok)) (b, false)
    (y.1, y.2 || lanes.isEmpty)
  else (b, false)

/-- MSYNC: a decimator reset 64 Tc after the cue's stamp, a late cue's too (R184). -/
def Block.cueMsync (b : Block) (c : Ctx) : Block × Bool :=
  b.cueAt c F.MC_CTRL_SYNC fun b => (b.mcTrigger (b.t - (b.time.air - tcOf c.stamp)), true)

/-- HOP: a synthesiser hop (R95). -/
def Block.cueHop (b : Block) (c : Ctx) : Block × Bool :=
  b.cueAt c F.SY_HOP_GO fun b => b.hopAsk (cueWho c) (unitIndex c.target) (c.arg 0 2 % 4096)

/-- STROBE: a strobe in CUE function (R99, R101). -/
def Block.cueStrobe (b : Block) (c : Ctx) : Block × Bool :=
  let i := c.arg 0 1 % 32
  if b.writeOk (cueWho c) c.target then
    let b0 := b.hitMask (cueWho c) c.target R.CC_STB_LEVEL (fldMask i i)
    let y := b0.strobeCue (unitIndex c.target) i (c.arg 1 1 % 2 == 1)
    (y.1, y.2 && !b0.refusedSince y.1 c.target)
  else (b, false)

/-- RFFE: a sequence starts, or waits (R104, R105). -/
def Block.cueRffe (b : Block) (μ : Mem) (c : Ctx) : Block × Bool :=
  b.cueAt c F.CC_SEQ_GO_SEQ fun b => b.seqAsk μ (unitIndex c.target) (c.arg 0 1)

/-- MODSQUALL: the module cause CUE (R190). -/
def Block.cueModsquall (b : Block) (c : Ctx) : Block × Bool :=
  b.cueAt c F.ROOT_SQUALL_SQUALL fun b => (b.moduleSquall F.ROOT_SQUALL_CUE (decide (b.time.air ≤ tcOf c.stamp)), true)

/-- The effect of a cue by its ACTION, and whether its unit took it. -/
def Block.cueDo (b : Block) (μ : Mem) (x : Nat) (c : Ctx) : Block × Bool :=
  match c.action with
  | 0x00 => (b, true)
  | 0x01 => b.cueWrite μ c
  | 0x02 => b.cueCtrl μ c { en := some (c.arg 0 1 % 2 == 1) }
  | 0x03 => b.cueCtrl μ c { pow := some (c.arg 0 1 % 2 == 1) }
  | 0x04 => b.cueCtrl μ c { fence := true }
  | 0x10 => b.cueDirection x c
  | 0x11 => b.cueBeam c
  | 0x12 => b.cueFbank c
  | 0x13 => b.cueRetune c
  | 0x14 => b.cueCap c
  | 0x15 => b.cueLull c
  | 0x16 => b.cueSquall c
  | 0x17 => b.cueUnsquall c
  | 0x18 => b.cueRestart c
  | 0x20 => b.cueSwap x c
  | 0x21 => b.cueMsync c
  | 0x30 => b.cueHop c
  | 0x31 => b.cueStrobe c
  | 0x32 => b.cueRffe μ c
  | 0x3F => b.cueModsquall c
  | _ => (b, false)

/-! ## The instant, and retirement -/

/-- The air count at which a staged action takes effect: E, and the stamp for a BEAM, which local ports take there (R278). -/
def cueActs (c : Ctx) : Nat := if c.action = 0x11 then tcOf c.stamp else c.e.toNat

/-- A DIRECTION occurrence has been handed to its unit: its slot frees, and it retires when its parts have been reached. -/
def Block.cueHanded (b : Block) (x : Nat) (late : Int) : Block :=
  let b := b.slotFree x
  let c := b.ctx x
  let h := b.pbH (unitIndex c.target)
  let b := b.setPbH (unitIndex c.target) { h with dirLate := if 0 < late then addOnce x h.dirLate else h.dirLate }
  b.setCtx x { c with state := Cue.done, result := 0, lateness := lateSat late, effAt := b.now }

/-- The TXCs whose demand an action has made while their synthesiser calibrates or settles (R96): a demand that has arisen, or a wait
that an unmute has begun. -/
def Block.lockWaits (b b' : Block) : List Nat :=
  (List.range 32).filter fun k => b'.syPending k &&
    (!b.txcDemand k || (b'.flag (U.txc k) F.TXC_STAT_SY_WAIT && !b.flag (U.txc k) F.TXC_STAT_SY_WAIT))

/-- An ENABLE or an unmute that created transmit demand waits with its TXCs for lock: its occurrence retires when they no longer
wait, as failed where one of them has timed out (R96). -/
def Block.cueLocking (b : Block) (x : Nat) (late : Int) (ks : List Nat) : Block :=
  let b := b.each ks fun b k => b.setTxcH k { b.txcH k with waitCtx := some x }
  let b := b.slotFree x
  b.setCtx x { b.ctx x with state := Cue.done, result := 0, lateness := lateSat late, effAt := b.now }

/-- A cue's action takes effect now and its occurrence retires: EXECUTED, LATE, or REFUSED by its unit. -/
def Block.cueNow (b : Block) (μ : Mem) (x : Nat) (late : Int) : Block :=
  let c := b.ctx x
  let y := b.cueDo μ x c
  if y.2 = false then y.1.retireAs x 4 late
  else if c.action = 0x10 then y.1.cueHanded x late
  else if (c.action = 0x01 ∨ c.action = 0x02) ∧ (b.lockWaits y.1).isEmpty = false then y.1.cueLocking x late (b.lockWaits y.1)
  else y.1.retireAs x (if 0 < late then 2 else 1) late

/-- The action of context `x` takes effect: a staged one at its Tc, an issued one now. Nothing acts under the fatal latch
(R358). -/
def Block.cueEffect (b : Block) (μ : Mem) (x : Nat) : Block :=
  let c := b.ctx x
  if b.flag 0 F.FLT_MODE_FATAL then b
  else if c.state = Cue.staged then b.atElapsed (b.elapsedOfAir (cueActs c)) fun b => b.cueNow μ x 0
  else if c.state = Cue.issued then b.cueNow μ x ((b.time.air : Int) - c.e)
  else b

/-- `cueEffect` where the context holds the action `a`. -/
def Block.cueOf (b : Block) (μ : Mem) (x a : Nat) : Block := if (b.ctx x).action = a then b.cueEffect μ x else b

/-- CUE_EFFECT. -/
def execCueEffect (x : Nat) (s : State) : Host.Outcome State Fault Refusal := s.done fun μ b => b.cueEffect μ x
/-- CUE_MARK. -/
def execCueMark (x : Nat) (s : State) : Host.Outcome State Fault Refusal := s.done fun μ b => b.cueOf μ x 0x00
/-- CUE_WRITE. -/
def execCueWrite (x : Nat) (s : State) : Host.Outcome State Fault Refusal := s.done fun μ b => b.cueOf μ x 0x01
/-- CUE_ENABLE. -/
def execCueEnable (x : Nat) (s : State) : Host.Outcome State Fault Refusal := s.done fun μ b => b.cueOf μ x 0x02
/-- CUE_POWER. -/
def execCuePower (x : Nat) (s : State) : Host.Outcome State Fault Refusal := s.done fun μ b => b.cueOf μ x 0x03
/-- CUE_FENCE. -/
def execCueFence (x : Nat) (s : State) : Host.Outcome State Fault Refusal := s.done fun μ b => b.cueOf μ x 0x04
/-- CUE_DIRECTION. -/
def execCueDirection (x : Nat) (s : State) : Host.Outcome State Fault Refusal := s.done fun μ b => b.cueOf μ x 0x10
/-- CUE_BEAM. -/
def execCueBeam (x : Nat) (s : State) : Host.Outcome State Fault Refusal := s.done fun μ b => b.cueOf μ x 0x11
/-- CUE_FBANK. -/
def execCueFbank (x : Nat) (s : State) : Host.Outcome State Fault Refusal := s.done fun μ b => b.cueOf μ x 0x12
/-- CUE_RETUNE. -/
def execCueRetune (x : Nat) (s : State) : Host.Outcome State Fault Refusal := s.done fun μ b => b.cueOf μ x 0x13
/-- CUE_CAP. -/
def execCueCap (x : Nat) (s : State) : Host.Outcome State Fault Refusal := s.done fun μ b => b.cueOf μ x 0x14
/-- CUE_LULL. -/
def execCueLull (x : Nat) (s : State) : Host.Outcome State Fault Refusal := s.done fun μ b => b.cueOf μ x 0x15
/-- CUE_SQUALL. -/
def execCueSquall (x : Nat) (s : State) : Host.Outcome State Fault Refusal := s.done fun μ b => b.cueOf μ x 0x16
/-- CUE_UNSQUALL. -/
def execCueUnsquall (x : Nat) (s : State) : Host.Outcome State Fault Refusal := s.done fun μ b => b.cueOf μ x 0x17
/-- CUE_RESTART. -/
def execCueRestart (x : Nat) (s : State) : Host.Outcome State Fault Refusal := s.done fun μ b => b.cueOf μ x 0x18
/-- CUE_SWAPMODEL. -/
def execCueSwapmodel (x : Nat) (s : State) : Host.Outcome State Fault Refusal := s.done fun μ b => b.cueOf μ x 0x20
/-- CUE_MSYNC. -/
def execCueMsync (x : Nat) (s : State) : Host.Outcome State Fault Refusal := s.done fun μ b => b.cueOf μ x 0x21
/-- CUE_HOP. -/
def execCueHop (x : Nat) (s : State) : Host.Outcome State Fault Refusal := s.done fun μ b => b.cueOf μ x 0x30
/-- CUE_STROBE. -/
def execCueStrobe (x : Nat) (s : State) : Host.Outcome State Fault Refusal := s.done fun μ b => b.cueOf μ x 0x31
/-- CUE_RFFE. -/
def execCueRffe (x : Nat) (s : State) : Host.Outcome State Fault Refusal := s.done fun μ b => b.cueOf μ x 0x32
/-- CUE_MODSQUALL. -/
def execCueModsquall (x : Nat) (s : State) : Host.Outcome State Fault Refusal := s.done fun μ b => b.cueOf μ x 0x3F

end Sys2Proof.Machine
end

