-- ==== Sys2Proof/Machine/Mspi.lean ====
section
/-! DEFINITION.
The management SPI (R430 to R432): a complete request frame, its checks and its status, the access that it makes with the
rights of the PF, and the response. -/
namespace Sys2Proof.Machine

/-! Status bytes (R432). -/
namespace Ms
def ok : Nat := 1
def busy : Nat := 2
def denied : Nat := 3
def crc : Nat := 4
def notReady : Nat := 5
def badCmd : Nat := 6
def align : Nat := 7
end Ms

/-- The bytes of a number, most significant first. -/
def msbBytes (n v : Nat) : List Nat := (List.range n).map fun i => (v >>> (8 * (n - 1 - i))) % 256

/-- The request CRC of a frame (R431). -/
def mspiCrc (cmd u off : Nat) (data : List Nat) : Nat := crc8 (cmd :: (msbBytes 2 u ++ msbBytes 2 off ++ data))

/-- The response to a frame goes out, counted by its status (R431, R432). -/
def Block.mspiSend (b : Block) (status : Nat) (data : Option Word) : Block :=
  let b := b.incWrap 0 F.HOST_MSPI_FRAMES 1
  let b := b.when (status != Ms.ok) fun b => ((b.incSat 0 F.HOST_MSPI_ERRS 1).correctedRoot C.mspiErr 10).irq 0 27
  let b := b.when (status == Ms.busy) fun b => b.incSat 0 F.HOST_MSPI_BUSY 1
  let d := if status = Ms.ok then data else none
  let r : MspiResp := {
    status := status, data := d
    crc := d.map fun v => BitVec.ofNat 8 (crc8 (status :: msbBytes 8 v.toNat)) }
  { b with host := { b.host with mspi := b.host.mspi ++ [r] } }

/-- The core die has finished sparge: so says its phase or, where start-up has halted later, what the host side holds (R430, R437). -/
def Block.coreServed (b : Block) : Bool := [3, 4, 5, 6, 8, 10].contains (b.fld 0 F.HOST_BOOT_PHASE) || b.host.sparged

/-- Pages that are served before that (R430). -/
def keelPage (u : Nat) : Bool :=
  u == 0 || u == U.warden || u == U.rec || u == U.kiln || u == U.mon || u == U.ts 22 || u == U.ts 23

/-- In VOID, only register reads of the root and warden pages are answered (R394). -/
def Block.mspiVoid (b : Block) (u : Nat) (write : Bool) : Bool := b.voided && (write || !(u == 0 || u == U.warden))

/-- The writes that a coast takes over the management SPI: squalls, and UNIT_CTRL with FENCE_REQ or ENABLE = 0 (R411). -/
def coastTakes (u off : Nat) (v : Word) : Bool :=
  (off == R.UNIT_CTRL && ((ctrlOf .both v).fence || (ctrlOf .both v).en == some false)) ||
    (kindOf u == 0x05 && off == R.PROT_CTRL && asks .both v F.PROT_CTRL_SQUALL) ||
    (u == 0 && off == R.ROOT_SQUALL && asks .both v F.ROOT_SQUALL_SQUALL)

/-- A command or a datum of a staging session. -/
def stgAsk (u off : Nat) (v : Word) : Bool :=
  u == U.warden && (off == R.WDN_STG_DATA || (off == R.WDN_STG_CTRL &&
    (asks .both v F.WDN_STG_CTRL_OPEN || asks .both v F.WDN_STG_CTRL_CLOSE || asks .both v F.WDN_STG_CTRL_ABORT ||
      asks .both v F.WDN_STG_CTRL_ACTIVATE)))

/-- A write that is refused as BUSY: by a coast, or by a session that the PF owns (R432). -/
def Block.mspiBusy (b : Block) (u off : Nat) (v : Word) : Bool :=
  (b.coasting && !coastTakes u off v) || (stgAsk u off v && b.stgOwner == 1)

/-- The first check that a READ or a WRITE fails, as its status. -/
def Block.mspiCheck (b : Block) (cmd u off : Nat) (data : List Nat) (crc : Nat) (write : Option Word) : Nat :=
  if crc ≠ mspiCrc cmd u off data then Ms.crc
  else if off % 8 ≠ 0 then Ms.align
  else if b.coreServed = false ∧ keelPage u = false then Ms.notReady
  else if 0x400 ≤ off ∨ b.mspiVoid u write.isSome then Ms.denied
  else
    match write with
    | some v => if b.mspiBusy u off v then Ms.busy else Ms.ok
    | none => Ms.ok

/-- A frame whose request is complete is answered from 1 ms after the release of POR_N on (R430). -/
def Block.mspiFrame (b : Block) (f : Block → Block) : Block :=
  if b.inReset then b
  else if b.host.resetKind = 2 then f b
  else b.atElapsed (b.host.releaseAt + msTc) f

/-- MSPI_READ. -/
def execMspiRead (u off crc : Nat) (s : State) : Host.Outcome State Fault Refusal :=
  s.done fun μ b => b.mspiFrame fun b =>
    let st := b.mspiCheck 1 u off [] crc none
    if st = Ms.ok then
      let b := b.readAct μ .mspi u off
      b.mspiSend st (some b.rdata)
    else b.mspiSend st none

/-- MSPI_WRITE: a refused command of the warden still leaves its result for the management SPI. -/
def execMspiWrite (u off : Nat) (v : Word) (crc : Nat) (s : State) : Host.Outcome State Fault Refusal :=
  s.done fun μ b => b.mspiFrame fun b =>
    let st := b.mspiCheck 2 u off (msbBytes 8 v.toNat) crc (some v)
    let b := if st = Ms.ok ∨ st = Ms.busy then b.writeFull μ .mspi u off .both v else b
    b.mspiSend st none

/-- MSPI_READ_WIN: 8 bytes of the recorder window from a byte offset on (R380). -/
def execMspiReadWin (u off crc : Nat) (s : State) : Host.Outcome State Fault Refusal :=
  s.done fun μ b => b.mspiFrame fun b =>
    if crc ≠ mspiCrc 3 u off [] then b.mspiSend Ms.crc none
    else if 4088 < off ∨ b.voided then b.mspiSend Ms.denied none
    else b.mspiSend Ms.ok (some (b.recWindow μ off))

/-- MSPI_ID: ROOT_PART. -/
def execMspiId (u off crc : Nat) (s : State) : Host.Outcome State Fault Refusal :=
  s.did fun b => b.mspiFrame fun b =>
    if crc ≠ mspiCrc 4 u off [] then b.mspiSend Ms.crc none else b.mspiSend Ms.ok (some (b.reg 0 R.ROOT_PART))

/-- MSPI_BAD_CMD: a frame with an undefined CMD. -/
def execMspiBadCmd (_cmd : Nat) (s : State) : Host.Outcome State Fault Refusal :=
  s.did fun b => b.mspiFrame fun b => b.mspiSend Ms.badCmd none

end Sys2Proof.Machine
end

