-- ==== Sys2Proof/Machine/Tick.lean ====
section
/-! DEFINITION.
A control-tick boundary (R34): what the tick that ends leaves behind, and what every unit of the block does at the boundary,
in the order below. The boundaries are the ends of the ticks that R49 forms. -/
namespace Sys2Proof.Machine

/-- The pool closes at its instant, commanded or not (R146, R165). -/
def Block.tickPool (b : Block) (μ : Mem) : Block :=
  if b.loop.closed then b else (b.advanceTo b.poolEnd).poolClose μ

/-- The boundary's Tc comes: the tick that starts is 16,384 Tc long. -/
def Block.tickMove (b : Block) : Block :=
  let len := b.time.tickEnd - b.time.tickStart
  let b := b.advanceTo b.time.tickEnd
  { b with time := { b.time with tickStart := b.t, tickEnd := b.t + tickTc }, loop := { b.loop with closed := false, tickLen := len } }

/-- Saturation of a TXC's sum in the tick that has ended, where it has emitted instances: OCLIP, and one more tick counted (R86). -/
def Block.sumTick (b : Block) (k : Nat) : Block :=
  let u := U.txc k
  if (b.txcH k).emitted = false ∧ ((b.txcH k).out = false ∨ (b.txcH k).insts = []) then b
  else
    let (b, i) := b.takeFree
    if Config.sumClip i then
      let b := if b.flag u F.TXC_STAT_OCLIP then b else (b.setFlag u F.TXC_STAT_OCLIP true).irq u 16
      b.incWrap u F.TXC_OCLIP_CNT_TICKS 1
    else b

/-- The figures of the tick that has ended: saturation, frames sent, overload, lanes, dropped monitor requests, and tally settings. -/
def Block.tickFigures (b : Block) : Block :=
  let b := b.each (List.range 32) fun b k => b.sumTick k
  let b := b.fhSent (b.time.air - b.loop.tickLen) b.time.air
  let b := b.each (List.range 128) fun b m => b.clipTick m
  let b := b.underrunTick
  let b := b.each b.lanesOn fun b i => b.laneTick i
  let b := b.probeTicks
  b.monTick.ccfgTick

/-- Turns of the background calibration count the ticks of a channel in STANDBY or RX (R83). -/
def Block.turnTick (b : Block) (k : Nat) : Block :=
  let ch := b.fld (U.rxc k) F.RXC_STAT_CH_STATE
  if ch = 1 ∨ ch = 2 then b.setRxcH k { b.rxcH k with turnTicks := min 984 ((b.rxcH k).turnTicks + 1) } else b

/-- An observation entry that is settled at the boundary, at a TXC in TX, is valid from here on (R166). -/
def Block.steadyTick (b : Block) (o : Nat) : Block :=
  let h := b.orxH o
  if h.ticksLeft = 0 then b else b.setOrxH o { h with steady := h.settleEnd.isNone && !b.flag (U.orx o) F.ORX_STAT_TX_OFF }

/-- A TXC's gate and its emission are watched afresh in the tick that starts (R86, R166). -/
def Block.gateTick (b : Block) (k : Nat) : Block :=
  let h := b.txcH k
  b.setTxcH k { h with gateShut := !b.flag (U.txc k) F.TXC_STAT_GATE, emitted := h.out && !h.insts.isEmpty }

/-- A requested filter-bank switch takes effect (R61). -/
def Block.fbankTick (b : Block) (m : Nat) : Block :=
  if b.flag (U.pbd m) F.PBD_CTRL_FBANK = b.flag (U.pbd m) F.PBD_STAT_FBANK_ACT then b else b.fbankSwitch m

/-- Every unit's own boundary: time sources first, then the protection's module causes, the safe state's release, kiln's
resume, heads, filter banks, receivers, chains and the cellar. -/
def Block.tickUnits (b : Block) : Block :=
  let b := b.syncTick.muteTick.safeTick.kilnTick.headTick
  let b := b.each b.lanesOn fun b i => b.headTrack i
  let b := b.each (List.range 128) fun b m => b.fbankTick m
  let b := b.each (List.range 32) fun b k => (b.turnTick k).gateTick k
  let b := b.each (List.range 8) fun b o => (b.orxTick o).steadyTick o
  b.chainTick.celTick

/-- A PBD's probation and first light at the boundary (R200, R204). -/
def Block.tickLight (b : Block) (m : Nat) : Block := (b.probationTick m).flTick m

/-- The guard's figures and the engine's inputs of a PBD at the boundary (R146, R201). -/
def Block.tickSample (b : Block) (m : Nat) : Block :=
  let (b, nrg) := b.nrgCompute m
  b.loopSample m nrg

/-- The loop engine at the boundary: settings apply (R157), commands come into force, inputs are sampled, and the tick's cycles are known (R162). The latch of a FATAL fault
has stopped it (R358). -/
def Block.tickLoop (b : Block) (μ : Mem) : Block :=
  if b.flag 0 F.FLT_MODE_FATAL then b
  else
    let b := (b.each (List.range 128) fun b m => b.gainClose m).loopApply μ
    let b := b.each (List.range 128) fun b m => b.tickGain μ m
    let b := b.each (List.range 128) fun b m => b.tickLight m
    let b := b.laneFreeTick
    let b := b.each (List.range 128) fun b m => b.tickSample m
    { b with loop := { b.loop with charge := (splitPool b.pool b.work 0).2.2 } }

/-- The dispatcher and the runtime at the boundary (R246, R261, R271); in a coast the runtime pauses (R411). -/
def Block.tickCues (b : Block) : Block :=
  if b.flag 0 F.FLT_MODE_FATAL then b
  else
    let b := b.ovfMigrate.dirEarly
    if b.coasting then b else b.runtimeTick

/-- The tick boundary. -/
def Block.tickBoundary (b : Block) (μ : Mem) : Block :=
  if b.time.running = false ∨ b.inReset then b
  else (((b.tickPool μ).tickMove.tickFigures.tickUnits).tickLoop μ).tickCues

/-- TICK_BOUNDARY: the tick ends and the next begins. -/
def execTickBoundary (s : State) : Host.Outcome State Fault Refusal := s.done fun μ b => b.tickBoundary μ

end Sys2Proof.Machine
end

