-- ==== Sys2Proof/Machine/Startup.lean ====
section
/-! DEFINITION.
Resets and start-up: what each reset keeps (R303, R434), the pins and rails (R435, R455, R456), REFCLK (R36), the start-up
sequence (R437 to R440) with secure boot (R407, R408) and settings import, and the reset of a life-cycle change (R394). -/
namespace Sys2Proof.Machine

/-! ## What a reset keeps (R434) -/

def Block.keepReg (b o : Block) (u off : Nat) : Block := b.setReg u off (o.reg u off)
def Block.keepFld (b o : Block) (u : Nat) (f : Fld) : Block := b.setFld u f (o.fld u f)

/-- The host side after a reset: what was sent, the pins, and the speed of the link's partner. -/
def HostH.afterReset (h : HostH) : HostH :=
  { HostH.init with
    msgs := h.msgs, mspi := h.mspi, perstLow := h.perstLow, linkTo := h.linkTo, porLow := h.porLow, rstLow := h.rstLow
    railLow := h.railLow, aoOff := h.aoOff, resetKind := h.resetKind, releaseAt := h.releaseAt }

/-- Kiln after RST_N: its levels stay (R339). -/
def KilnH.afterRst (k : KilnH) : KilnH :=
  { KilnH.init with ts := k.ts, sampleAt := k.sampleAt, stepAt := k.stepAt, forced := k.forced }

/-- The fatal latch with its registers, through every reset but VDD_AO's removal (R347, R351, R363). -/
def Block.keepLatch (b o : Block) : Block :=
  if o.flag 0 F.FLT_MODE_FATAL then
    let b := (b.setFlag 0 F.FLT_MODE_FATAL true).each [R.FLT_FATAL, R.FLT_FATAL_STAMP, R.FLT_COLLECT] fun b r => b.keepReg o 0 r
    b.setFld 0 F.FLT_COLLECT_INFO_PHASE 3
  else b

/-- What stands in the MRAM and the AO counters (R50, R371). -/
def Block.keepAo (b o : Block) : Block :=
  ((((b.keepFld o U.rec F.REC_SEQ_HEAD_HEAD).keepFld o U.rec F.REC_STAT_FULL).keepFld o U.rec F.REC_STAT_NEXT).keepReg o U.rec
    R.REC_LOST).keepReg o U.sync R.SYNC_OPSEC

/-- What RST_N keeps beside that: SYNC_WALL, and kiln's levels (R339, R434). -/
def Block.keepRst (b o : Block) : Block :=
  let b := (b.keepReg o U.sync R.SYNC_WALL).keepFld o 0 F.HOST_PCIE_PERSTS
  let b := (b.keepFld o U.kiln F.KILN_STAT_LEVEL).keepFld o U.kiln F.KILN_STAT_REQ
  let b := (b.keepReg o U.kiln R.KILN_THR_STAMP).keepReg o U.kiln R.KILN_OFF_STAMP
  b.each (List.range 48) fun b n => b.keepFld o (U.ts n) F.TS_READ_LEVEL

/-- A FAILED unit stays so through a reset, until its built-in test passes and while the fatal latch is set; with the latch
its UNIT_FAULT.FATAL stays too (R18, R24). A failed slice keeps its mark until its built-in test (R85). -/
def Block.keepFailed (b o : Block) : Block :=
  b.each (Store.view o.regs) fun b x =>
    let u := x.1 / 1024
    if x.1 % 1024 = R.UNIT_STATE ∧ o.ownState u = St.failed then b.keepFld o u F.UNIT_STATE_STATE
    else if x.1 % 1024 = R.UNIT_FAULT ∧ o.flag 0 F.FLT_MODE_FATAL then b.keepFld o u F.UNIT_FAULT_FATAL
    else if x.1 % 1024 = R.RXC_SLICE ∧ kindOf u = 0x02 then b.keepFld o u F.RXC_SLICE_FAILED
    else b

/-- The block in reset: POR_N, a sagged rail and VDD_AO are deep, RST_N is not. SRAM and HBM are erased by the sparge that
follows (R303). -/
def Block.resetAll (o : Block) (deep : Bool) : Block :=
  let t := o.t
  let r : RecH := { RecH.init with afterFull := o.recd.afterFull }
  let y : SyncH := { SyncH.init with opsec := o.sync.opsec, pwrcyc := o.sync.pwrcyc }
  let k : KilnH := if deep then { KilnH.init with sampleAt := t } else o.kiln.afterRst
  let m : RootH := { RootH.init with muteLow := o.root.muteLow }
  let c : Time := { Time.init with elapsed := t, tickStart := t, tickEnd := t + tickTc }
  let b : Block := { Block.init with
    time := c, free := o.free, otp := o.otp, boot := o.boot, host := o.host.afterReset, root := m, recd := r, sync := y
    kiln := k, hostOut := o.hostOut, hdOut := o.hdOut, rdata := o.rdata, fhBeat := t / msTc * msTc + msTc }
  let b := (b.keepLatch o).keepAo o
  if deep then b else b.keepRst o

/-- A reset that leaves VDD_AO in place. -/
def Block.resetOn (o : Block) (deep : Bool) : Block := (o.resetAll deep).keepFailed o

/-! ## The start of a start-up (R354, R360, R374, R433, R437) -/

/-- FAULT_N is driven low within 1 ms of a release with the latch set. -/
def Block.pinAtRelease (b : Block) : Block :=
  let (b, i) := b.takeFree
  ({ b with flt := { b.flt with pinLowAt := some (b.t + Config.pinDelay i % (msTc + 1)) } }).setFlag 0 F.FLT_PIN_DRIVE true

/-- HOST_BOOT as a release leaves it: BOOT_MODE is sampled, except in VOID. -/
def Block.bootMode (b : Block) (mode : Nat) : Block :=
  let b := ((b.setFld 0 F.HOST_BOOT_BOOT_MODE mode).setFlag 0 F.HOST_BOOT_BOOT_BAD (mode == 3 && !b.voided)).setFld 0
    F.HOST_BOOT_LAST_RESET b.host.resetKind
  b.setHost fun h => { h with releaseAt := b.t, pcieHeld := mode == 2 && !b.voided }

/-- The event of a POWER-UP record: 0 VDD_AO, 1 POR_N, 2 RST_N. -/
def Block.powerUp (b : Block) (kind : Nat) : Block :=
  b.recEvent 0x0A 0 (powerUpEv kind (b.flag 0 F.FLT_MODE_FATAL)).words []

/-- Module causes that outlast a reset take effect again. -/
def Block.causesAgain (b : Block) : Block :=
  let b := if b.root.muteLow then b.moduleSquall F.ROOT_SQUALL_MUTE_N false else b
  if b.thermalOff then b.moduleSquall F.ROOT_SQUALL_KILN false else b

/-- A release: start-up begins at its first step. -/
def Block.start (b : Block) (mode : Nat) : Block :=
  let b := (b.bootMode mode).setFlag 0 F.FLT_MODE_LEGACY b.otp.legacyOn
  let b := if b.flag 0 F.FLT_MODE_FATAL then (b.setState 0 St.failed).pinAtRelease else b.setPhase 1 false
  (b.powerUp (if b.host.resetKind = 2 then 2 else 1)).causesAgain

/-- Start-up begins once nothing holds the device in reset. -/
def Block.releaseStart (b : Block) (mode : Nat) : Block := if b.inReset then b else b.start mode

/-! ## Pins and rails (R435, R455, R456) -/

/-- A deep reset begins; before the first release after a power-up its kind stays that of VDD_AO. -/
def Block.deepReset (b : Block) : Block :=
  (b.setHost fun h => { h with resetKind := if h.porLow ∧ h.resetKind = 0 then 0 else 1 }).resetOn true

/-- POR_N_ASSERT. -/
def execPorNAssert (s : State) : Host.Outcome State Fault Refusal :=
  s.did fun b =>
    if b.host.aoOff ∨ b.host.porLow then b else b.deepReset.setHost fun h => { h with porLow := true }

/-- POR_N_RELEASE: BOOT_MODE is sampled. -/
def execPorNRelease (mode : Nat) (s : State) : Host.Outcome State Fault Refusal :=
  s.did fun b =>
    if b.host.aoOff ∨ b.host.porLow = false then b
    else (b.setHost fun h => { h with porLow := false }).releaseStart mode

/-- RST_N resets the device. DEDUCED: where kiln was stopping it in the orderly way, the reset has silenced the outputs, so THERMAL_OFF is
entered with the records of the stop (R327, R337, R339; log entry 105). -/
def Block.stopReset (b : Block) : Block :=
  if b.fld U.kiln F.KILN_STAT_LEVEL = 4 then
    let o := (b.setRec fun h => { h with incoming := [] }).thermalEnter.kilnRecord
    let b := o.resetOn false
    b.setRec fun h => { h with incoming := o.recd.incoming }
  else b.resetOn false

/-- RST_N_ASSERT: within a reset of POR_N the reset stays that of POR_N. -/
def execRstNAssert (s : State) : Host.Outcome State Fault Refusal :=
  s.did fun b =>
    if b.host.aoOff ∨ b.host.rstLow then b
    else if b.inReset then b.setHost fun h => { h with rstLow := true }
    else (b.setHost fun h => { h with rstLow := true, resetKind := 2 }).stopReset

/-- RST_N_RELEASE: BOOT_MODE is sampled. -/
def execRstNRelease (mode : Nat) (s : State) : Host.Outcome State Fault Refusal :=
  s.did fun b =>
    if b.host.rstLow then (b.setHost fun h => { h with rstLow := false }).releaseStart mode else b

/-- VDD_AO_POWER_UP: PWRCYC counts, OPSEC resumes one beyond the last committed value, and POR_N is low (R50, R374, R455). -/
def execVddAoPowerUp (s : State) : Host.Outcome State Fault Refusal :=
  s.did fun b =>
    if b.host.aoOff then
      let n := (b.sync.opsec + 1) % 2 ^ 40
      let b := b.setHost fun h => { h with aoOff := false, porLow := true, resetKind := 0 }
      let b := b.syn fun y => { y with opsec := n, pwrcyc := min (2 ^ 24 - 1) (y.pwrcyc + 1) }
      (b.setFld U.sync F.SYNC_OPSEC_OPSEC n).powerUp 0
    else b

/-- VDD_AO_REMOVAL: every state but that of the MRAM, the OTP, the boot flash and the AO counters is lost, the fatal latch too. -/
def execVddAoRemoval (s : State) : Host.Outcome State Fault Refusal :=
  s.did fun b =>
    if b.host.aoOff then b
    else
      let b := (b.setFlag 0 F.FLT_MODE_FATAL false).resetAll true
      b.setHost fun h => { h with aoOff := true, porLow := false, rstLow := false, railLow := false, resetKind := 0 }

/-- AO_RAIL_DROP: as an assertion of POR_N. -/
def execAoRailDrop (s : State) : Host.Outcome State Fault Refusal :=
  s.did fun b =>
    if b.host.aoOff ∨ b.host.railLow then b else b.deepReset.setHost fun h => { h with railLow := true }

/-- AO_RAIL_RETURN: the reset that the keel forced ends, with BOOT_MODE sampled. -/
def execAoRailReturn (mode : Nat) (s : State) : Host.Outcome State Fault Refusal :=
  s.did fun b =>
    if b.host.railLow then (b.setHost fun h => { h with railLow := false }).releaseStart mode else b

/-! ## REFCLK (R36) -/

/-- REFCLK has not qualified yet, in the ROM phase. -/
def Block.refWait (b : Block) : Bool := !b.inReset && b.fld 0 F.HOST_BOOT_PHASE == 0 && !b.sync.refOk

/-- REFCLK_QUALIFY: from 10 ms after the release on, air time runs, and the link may train. -/
def execRefclkQualify (s : State) : Host.Outcome State Fault Refusal :=
  s.did fun b =>
    if b.refWait then
      let b := b.advanceTo (b.host.releaseAt + 10 * msTc)
      let b := (b.syn fun y => { y with refOk := true }).showLink
      let c : Time := { b.time with running := true, air := 0, tickStart := b.t, tickEnd := b.t + tickTc }
      { b with time := c }
    else b

/-- Every switched domain goes OFF, the HBM interfaces too (R439). -/
def Block.domainsOff (b : Block) : Block :=
  let b := b.setPower [] []
  b.each (List.range 80) fun b d =>
    if b.pd d = 7 ∨ b.pd d = 0 then b else (b.setPd d 0).domainOff d Pwr.off

/-- Start-up ends in PHASE 8, 9 or 10. -/
def Block.startEnd (b : Block) (phase : Nat) : Block := (b.setFld 0 F.HOST_BOOT_PHASE phase).irq 0 29

/-- Start-up halts in collector mode (R353, R358, R439). -/
def Block.halt (b : Block) : Block := b.domainsOff.startEnd 9

/-- REFCLK_QUAL_TIMEOUT: 100 ms after the release start-up halts with the clock bit set. -/
def execRefclkQualTimeout (s : State) : Host.Outcome State Fault Refusal :=
  s.did fun b => if b.refWait then ((b.advanceTo (b.host.releaseAt + 100 * msTc)).collect 0).halt else b

/-- REF_LOST: FATAL at the root; the air-time counter stops where REFCLK has stopped. -/
def execRefLost (stopped : Bool) (s : State) : Host.Outcome State Fault Refusal :=
  s.did fun b =>
    if b.inReset ∨ b.sync.refOk = false then b
    else
      let b := (b.fatal 0 C.refLost 0).syn fun y => { y with refOk := false }
      if stopped then { b with time := { b.time with running := false } } else b

/-! ## Built-in test (R293, R353) -/

/-- The spare that repairs a failed lane or chain in built-in test (R30). -/
def Block.bistSpare (b : Block) (u : Nat) : Option Nat :=
  let ok := fun s => b.ownState s != St.fenced && b.ownState s != St.failed
  if kindOf u = 0x07 ∧ unitIndex u % 33 ≠ 32 then
    let k := unitIndex u / 33
    if b.flag 0 (F.ROOT_SPARE_LANE_USED k) = false ∧ ok (U.lane (33 * k + 32)) then some (U.lane (33 * k + 32)) else none
  else if kindOf u = 0x19 then
    ((List.range 24).find? fun j => U.mc (296 + j) != u && !b.flag 0 (F.ROOT_SPARE_MC_USED (j / 4) (j % 4)) && ok (U.mc (296 + j))).map fun j => U.mc (296 + j)
  else none

/-- A built-in test failure left unrepaired (R353): a sensor's counts as repaired by substitution while another of its kind serves, one
in an essential class is FATAL at the root, and any other makes its unit FAILED. -/
def Block.bistFault (b : Block) (u path : Nat) : Block :=
  let c := blockClass u C.bistFail path
  if kindOf u = 0x08 then
    let n := unitIndex u
    let b := b.tsFail n 3
    b.when ((List.range 48).all fun j => tsHbm j != tsHbm n || !b.tsLive j) fun b => b.fatal 0 C.bistFatal 6
  else if essentialClass c then b.fatal 0 C.bistFatal c
  else b.faultRaise u C.bistFail path

/-- One failure that a start-up phase finds: a spare repairs it, a slice of an RXC, which `path` names, is marked (R84), a sensor is
fenced, and every other has the reaction of its code. -/
def Block.startItem (b : Block) (u code path : Nat) : Block :=
  if code = C.spared then
    match b.bistSpare u with
    | some s =>
      let b := b.faultReport u C.spared 1 false false path
      (((b.faultReport s C.bistFail 2 false false path).fenceUnit s).exchange u s).containedSide s C.bistFail path
    | none => b.bistFault u path
  else if code = C.sliceSpared ∧ kindOf u = 0x02 then b.sliceFail (unitIndex u) (path % 17)
  else if code = C.bistFail then b.bistFault u path
  else b.faultRaise u code path

def Block.startItems (b : Block) (fails : List (Nat × Nat × Nat)) : Block :=
  b.each fails fun b x => b.startItem x.1 x.2.1 x.2.2

/-- The authorised hard repairs are burned, and the stacks report their repair resources (R292, R293, R305). -/
def Block.repairRows (b : Block) : Block :=
  let b := b.setOtp fun o => { o with hard := o.hard.map fun x => (x.1, x.2.1, true) }
  b.each (List.range 64) fun b i =>
    let u := U.pc i
    let b := (b.setFld u F.PC_REPAIR_SOFT_LEFT (Config.softLeft i)).setFld u F.PC_REPAIR_SOFT_USED 0
    (b.setFld u F.PC_REPAIR_HARD_LEFT (Config.hardLeft i - b.otp.hardDone i)).setFld u F.PC_REPAIR_HARD_PEND 0

/-- PD72 and PD73 power up for the training, with POWER_REQ = 1 at their units (R21). -/
def Block.hbmUp (b : Block) (μ : Mem) : Block :=
  b.each [72, 73] fun b d =>
    ((b.setPd d 2).each (unitsOfDomain d) fun b u => b.setFlag u F.UNIT_CTRL_POWER_REQ true).domainUp μ d

/-- The built-in test of this reset lifts FAILED, but not under the fatal latch (R24), and the marks of failed slices (R85); what fails
again becomes FAILED or is marked anew. -/
def Block.bistPassed (b : Block) : Block :=
  let b := b.each (List.range 32) fun b k => b.setFld (U.rxc k) F.RXC_SLICE_FAILED 0
  if b.flag 0 F.FLT_MODE_FATAL then b
  else b.each (((Store.view b.regs).filter fun x => x.1 % 1024 == R.UNIT_STATE && b.ownState (x.1 / 1024) == St.failed).map
    (·.1 / 1024)) fun b u => b.setState u St.off

/-- Built-in test ends; under the fatal latch start-up halts (R358). -/
def Block.bistEnd (b : Block) (μ : Mem) (fails : List (Nat × Nat × Nat)) : Block :=
  let b := b.bistPassed.startItems fails
  if b.flag 0 F.FLT_MODE_FATAL then b.halt
  else
    let b := b.repairRows
    (if b.thermalOff then b else b.hbmUp μ).setFld 0 F.HOST_BOOT_PHASE 2

/-! ## Sparge (R303) -/

/-- SRAM that sparge erases. -/
def sramList : List Ram := [.cb, .fcoef, .lut, .lutAct, .mcCoef, .ccSeq, .imem, .dmem, .ctx, .tallyBuf, .tracer, .monBuf, .token]

/-- Sparge ends: all SRAM and all HBM read as zeros. -/
def Block.spargeEnd (b : Block) (fails : List (Nat × Nat × Nat)) : Block :=
  let b := (b.startItems fails).each sramList fun b r => b.wipe r
  let b := { b with memOps := b.memOps ++ [MemOp.clearHbm 0 hbmSize], hbm := { b.hbm with ue := [] } }
  (b.setHost fun h => { h with sparged := true }).setFld 0 F.HOST_BOOT_PHASE 3

/-! ## Secure boot (R285, R405 to R408) -/

/-- An image slot lists some content. -/
def slotListed (μ : Mem) (k : Nat) : Bool :=
  μ.words.any fun x => ramBase (slotRam k) ≤ x.1 && x.1 < ramBase (slotRam k) + slotSize / 8

/-- The check of a slot: of the image that it lists, else the verdict `v` on what the factory left in it, coded 0 acceptable,
1 IMG_AUTH, 2 IMG_ROLLBACK. -/
def Block.slotCheck (b : Block) (μ : Mem) (k v : Nat) : Nat :=
  if slotListed μ k then imageCheck b.otp μ k else match v with | 0 => 0 | 1 => 3 | _ => 4

/-- Size of a region in units of 64 MiB as the boot section gives it: none where it is missing or out of range. -/
def regionOk (i : Nat) (v : Option Nat) : Option Nat :=
  match i, v with
  | 0, some n => if [4, 8, 16, 32, 64].contains n then some n else none
  | 1, some n => if n ≤ 16 then some n else none
  | 2, some n => if n ≤ 32 then some n else none
  | 3, some n => if 2 ≤ n ∧ n ≤ 128 then some n else none
  | _, _ => none

def regionDefault (i : Nat) : Nat := match i with | 0 => 16 | 1 => 16 | 2 => 32 | _ => 128

/-- The size and the base of a region, as both HS pages show them (R304). -/
def Block.setRegion (b : Block) (i size base : Nat) : Block :=
  b.each [U.hs 0, U.hs 1] fun b u => (b.setFld u (F.MEM_REGION_SIZE i) size).setFld u (F.MEM_REGION_BASE i) base

/-- The warden carves the HBM regions (R285). -/
def Block.carve (b : Block) : Block :=
  let (b, base) := (List.range 4).foldl (fun (x : Block × Nat) i =>
    let size := regionOk i (if b.boot.setOk then b.boot.sizes[i]? else none)
    let b := if size.isNone then x.1.corrected (U.hs 0) C.memCarve else x.1
    let n := size.getD (regionDefault i)
    (b.setRegion i n x.2, x.2 + n)) (b, 0)
  b.setRegion 4 (2048 - base) base

/-- Recovery (R408, R439). -/
def Block.recover (b : Block) : Block := (b.startEnd 10).setStg 6

/-- A slot fails its check. -/
def Block.slotFault (b : Block) (r : Nat) : Block :=
  if r = 3 then b.corrected U.warden C.imgAuth else if r = 4 then b.corrected U.warden C.imgRollback else b

/-- Secure boot from slot `k` completes and seals. -/
def Block.bootFrom (b : Block) (μ : Mem) (k : Nat) : Block :=
  let old := b.boot.committed
  let was := b.boot.running
  let b := if k = old then b
    else (b.setBoot fun x => { x with committed := k }).fwRecord 9 (slotVer μ old) (slotVer μ k)
  let b := if b.boot.probation then b.fwRecord 7 (slotVer μ was) (slotVer μ k) else b
  let b := (b.setBoot fun x => { x with running := k, probation := false }).carve
  let b := (b.copyImage μ k 0).engStart 32
  ((b.setHost fun h => { h with isSealed := true }).setState 0 St.ready).setFld 0 F.HOST_BOOT_PHASE 4

/-- The ROM checks the COMMITTED slot, then the other. -/
def Block.secureBoot (b : Block) (μ : Mem) (va vb : Nat) : Block :=
  let k := b.boot.committed % 2
  let forced := b.fld 0 F.HOST_BOOT_BOOT_MODE == 1 && !b.wdn.restarted
  if b.voided ∨ forced then b.recover
  else
    let r := b.slotCheck μ k (if k = 0 then va else vb)
    if r = 0 then b.bootFrom μ k
    else
      let b := b.slotFault r
      let r := b.slotCheck μ (1 - k) (if k = 0 then vb else va)
      if r = 0 then b.bootFrom μ (1 - k) else (b.slotFault r).recover

/-! ## Settings import and the start of the runtime (R21, R61, R94, R402, R407, R413, R440) -/

/-- Settings of a copy that verifies under a schema of the image are written to the registers, UNIT_CTRL apart. -/
def Block.settingsIn (b : Block) (μ : Mem) : Block :=
  b.each b.boot.setRegs fun b x =>
    let off := x.1 % 1024
    if off = R.UNIT_CTRL ∨ (kindOf (x.1 / 1024) = 0x04 ∧ off = R.PB_TDD_SWITCH) then b
    else b.writeFull μ .runtime (x.1 / 1024) off .both x.2

/-- UNIT_CTRL of the settings: the units that are requested power up and are enabled. -/
def Block.ctrlIn (b : Block) (μ : Mem) : Block :=
  b.each (b.boot.setRegs.filter fun x => x.1 % 1024 == R.UNIT_CTRL) fun b x => b.ctrlBy μ .runtime (x.1 / 1024) (ctrlOf .both x.2)

/-- The settings store is read. True where a copy is imported. -/
def Block.importSet (b : Block) (μ : Mem) : Block × Bool :=
  let u := U.warden
  let (lo, hi) := slotSchemas μ b.boot.running
  let good := b.boot.setOk && decide (lo ≤ b.boot.setSchema) && decide (b.boot.setSchema ≤ hi)
  let b := (b.setFlag 0 F.FLT_MODE_LEGACY b.otp.legacyOn).setFlag u F.WDN_SEC_STAT_PENDING false
  let b := if b.boot.setOk then (b.setFld u F.WDN_SET_SCHEMA b.boot.setSchema).setFld u F.WDN_SET_COPY b.boot.setCopy else b
  if good then ((b.settingsIn μ).setFld u F.WDN_SET_IMPORT 1, true)
  else
    let v := slotVer μ b.boot.running
    ((b.setFld u F.WDN_SET_IMPORT 2).fwRecord 8 v v, false)

/-- Filter bank 0 of every PBD, from the loop tables of the image (R61). -/
def Block.filterIn (b : Block) : Block :=
  b.each (List.range 128) fun b m => b.each (List.range 256) fun b i =>
    b.put64 .fcoef (m * 512 + i) (BitVec.ofNat 64 (Config.filter0 m i % 2 ^ 18))

/-- The stores of the synthesisers, from the calibration store (R94). -/
def Block.syIn (b : Block) (μ : Mem) : Block :=
  b.each (List.range 8) fun b k =>
    let base := ramBase .calStore + syEntry k 0
    let l := (μ.words.filter fun x => base ≤ x.1 && x.1 < base + 4096).map fun x => (x.1 - base, syUnpack x.2)
    b.setSyH k { b.syH k with cal := l.filter fun x => x.2 != SyCal.init }

/-- Each TDD pattern is committed at the first lock (R440). -/
def Block.tddIn (b : Block) : Block :=
  b.each ((List.range 64).filter fun n => b.flag (U.pb n) F.PB_CFG_DUPLEX && b.reg (U.pb n) R.PB_TDD_P1 != 0) fun b n => b.tddCommit n 0

/-- Units outside the switched domains that are OFF come to READY; heads wait to be discovered (R21). -/
def Block.unitsReady (b : Block) : Block :=
  b.each ((List.range 0x1000).filter fun u => u != 0 && !reservedUid u && kindOf u != 0x1A && (switched u).isNone) fun b u =>
    if b.ownState u = St.off then b.setState u St.ready else b

/-- The units that are ACTIVE under the runtime (R21). -/
def runtimeUnits : List Nat := [U.warden, U.le, U.rec, U.kiln, U.dsp, U.sync]

/-- The system runtime starts (R21, R32, R351, R437). -/
def Block.runtimeStart (b : Block) : Block :=
  let b := if b.thermalOff then b.setPhase 3 true else b.setPhase 0 false
  let b := ((b.setFld 0 F.HOST_BOOT_PHASE 5).each (List.range 32) fun b n => b.engStart n).unitsReady
  let b := b.each runtimeUnits fun b u => if b.ownState u = St.ready then b.setState u St.active else b
  (b.setState 0 St.active).rootState

/-- Import ends and the runtime starts: requested domains power up. -/
def Block.importEnd (b : Block) (μ : Mem) : Block :=
  let (b, good) := b.importSet μ
  let b := (b.filterIn.syIn μ).tddIn.runtimeStart
  (if good then b.ctrlIn μ else b).pwrRestore

/-- Converter calibration begins at every channel that is ON (R437). -/
def Block.calStart (b : Block) : Block :=
  let b := b.each ((List.range 32).flatMap fun k => [U.rxc k, U.txc k]) fun b u =>
    if b.ownPwr u = Pwr.on then b.setCalDue u (some b.t) else b
  b.setFld 0 F.HOST_BOOT_PHASE 6

/-- Every calibration has ended: the device is in service. -/
def Block.calEnd (b : Block) : Block :=
  if ((List.range 32).flatMap fun k => [U.rxc k, U.txc k]).any fun u => (b.calDue u).isSome then b
  else (b.setFld 0 F.HOST_BOOT_UP_MS (min 65535 ((b.t - b.host.releaseAt) / msTc))).startEnd 8

/-- The warden's built-in test run ends, and with it the TEST phase, if a FATAL fault or THERMAL_OFF has not begun RECOVERY (R351). -/
def Block.testEnd (b : Block) : Block := if b.fld 0 F.FLT_COLLECT_INFO_PHASE = 2 then b.setPhase 0 false else b

/-- A start-up phase is over. In service the same command ends the warden's built-in test run, whose end has no row of its own
(DESIGN CHOICE, log entry 103). -/
def Block.startupNext (b : Block) (μ : Mem) (fails : List (Nat × Nat × Nat)) (va vb : Nat) : Block :=
  let p := b.fld 0 F.HOST_BOOT_PHASE
  if b.inReset then b
  else if b.flag 0 F.FLT_MODE_FATAL ∧ 2 ≤ p ∧ p ≤ 6 then b.halt
  else match p with
    | 0 => if b.sync.refOk then b.setFld 0 F.HOST_BOOT_PHASE 1 else b
    | 1 => b.bistEnd μ fails
    | 2 => b.spargeEnd fails
    | 3 => b.secureBoot μ va vb
    | 4 => b.importEnd μ
    | 5 => b.calStart
    | 6 => b.calEnd
    | 8 => if b.fld 0 F.FLT_COLLECT_INFO_PHASE = 2 then (b.startItems fails).testEnd else b
    | _ => b

/-- STARTUP_PHASE_DONE: `fails` are the failures that the phase finds, `va` and `vb` the verdicts on the slots' factory
content. -/
def execStartupPhaseDone (fails : List (Nat × Nat × Nat)) (va vb : Nat) (s : State) : Host.Outcome State Fault Refusal :=
  s.done fun μ b => b.startupNext μ fails va vb

/-- FAULT_RAISE: an essential class that fails in built-in test halts start-up (R353). -/
def execFaultRaise (u code path : Nat) (s : State) : Host.Outcome State Fault Refusal :=
  s.did fun b =>
    if b.inReset ∨ reservedUid u then b
    else
      let c := if code = C.bistFail then b.bistFault u path else b.faultRaise u code path
      let fatal := code == C.bistFatal || (code == C.bistFail && c.flag 0 F.FLT_MODE_FATAL)
      if fatal ∧ c.fld 0 F.HOST_BOOT_PHASE < 8 then c.halt else c

/-! ## The reset of a life-cycle change (R303, R394) -/

/-- The stores that a change to RETURNED or VOID erases. -/
def Block.storesErase (b : Block) : Block :=
  ((b.wipe .setStore).wipe .calStore).setBoot fun x => { x with setOk := false, setCopy := 0, setSchema := 0, sizes := [], setRegs := [] }

/-- LIFECYCLE: the OTP is burned, the device resets as by RST_N, the MRAM is erased, and LIFECYCLE is the first record. -/
def execLifecycle (mode : Nat) (s : State) : Host.Outcome State Fault Refusal :=
  s.did fun b =>
    match b.wdn.lcDue with
    | none => b
    | some (target, hy) =>
      if b.inReset then b
      else
        let b := b.setOtp fun o => { o with lc := target, hybrid := o.hybrid || hy }
        let b := ((b.setHost fun h => { h with resetKind := 2 }).resetOn false).recErase.setReg U.rec R.REC_LOST 0
        let b := if 3 ≤ target then b.storesErase else b
        (b.recEvent Rt.lifecycle 0 [BitVec.ofNat 64 (target <<< 16)] []).start mode

end Sys2Proof.Machine
end

