-- ==== Sys2Proof/Machine/ZhovoScalar.lean ====
section
/-! DEFINITION.
The integer, compare, predicate, special-register and immediate instructions of Zhovo (R211, R213, R222, R223). -/
namespace Sys2Proof.Machine

/-! ## Shared shapes -/

/-- A scalar instruction of two sources. -/
def Block.zBin (b : Block) (n pr wd wa wb fn : Nat) (f : Word → Word → Word) : Block :=
  b.zhovo n pr (insnA 0x00 wd wa wb pr fn) false [wd, wa, wb] fun b h => b.zSet n (h.wr64 wd (f (h.rd64 wa) (h.rd64 wb)))

/-- An instruction of one source, whose wb field is not used. -/
def Block.zUn (b : Block) (n pr wd wa wb fn : Nat) (f : Quad → Quad) : Block :=
  b.zhovo n pr (insnA 0x00 wd wa wb pr fn) (wb != 0) [wd, wa] fun b h => b.zSet n (h.wr wd (f (h.rd wa)))

/-- A compare into predicate wd[2:0]. -/
def Block.zCmp (b : Block) (n pr wd wa wb fn : Nat) (f : Word → Word → Bool) : Block :=
  b.zhovo n pr (insnA 0x01 wd wa wb pr fn) (8 ≤ wd) [wa, wb] fun b h => b.zSet n (h.setPred wd (f (h.rd64 wa) (h.rd64 wb)))

/-- An operation on predicates. -/
def Block.zPred (b : Block) (n pr wd wa wb fn : Nat) (f : Bool → Bool → Bool) : Block :=
  b.zhovo n pr (insnA 0x01 wd wa wb pr fn) (8 ≤ wd || 8 ≤ wa || 8 ≤ wb) [] fun b h =>
    b.zSet n (h.setPred wd (f (h.pred wa) (h.pred wb)))

/-- An immediate instruction. -/
def Block.zImm (b : Block) (n pr wd wa imm op : Nat) (bad : Bool) (f : Word → Word) : Block :=
  b.zhovo n pr (insnI op wd wa pr imm) bad [wd, wa] fun b h => b.zSet n (h.wr64 wd (f (h.rd64 wa)))

/-- sext(imm13) as a word. -/
def sextImm (imm : Nat) : Word := BitVec.ofInt 64 (sext 13 imm)

/-- Shift amounts are the low six bits of a word. -/
def sh6 (v : Word) : Nat := Word.fld v 5 0

/-- Leading zeros of a word. -/
def clz64 (v : Word) : Nat := 64 - (List.range 64).foldl (fun a i => if Word.fld v i i = 1 then i + 1 else a) 0

/-- Set bits of a word. -/
def popc64 (v : Word) : Nat := (List.range 64).foldl (fun a i => a + Word.fld v i i) 0

/-- EXTR: field of length L = wb[13:8], 0 meaning 64, at wb[5:0]. -/
def extr (a c : Word) : Word :=
  let l := if Word.fld c 13 8 = 0 then 64 else Word.fld c 13 8
  BitVec.ofNat 64 ((a.toNat >>> sh6 c) % 2 ^ l)

/-! ## Integer instructions (R222) -/

/-- ADD. -/
def execAdd (n pr wd wa wb : Nat) (s : State) : Host.Outcome State Fault Refusal := s.did (·.zBin n pr wd wa wb 0x00 (· + ·))
/-- SUB. -/
def execSub (n pr wd wa wb : Nat) (s : State) : Host.Outcome State Fault Refusal := s.did (·.zBin n pr wd wa wb 0x01 (· - ·))
/-- AND. -/
def execAnd (n pr wd wa wb : Nat) (s : State) : Host.Outcome State Fault Refusal := s.did (·.zBin n pr wd wa wb 0x02 (· &&& ·))
/-- OR. -/
def execOr (n pr wd wa wb : Nat) (s : State) : Host.Outcome State Fault Refusal := s.did (·.zBin n pr wd wa wb 0x03 (· ||| ·))
/-- XOR. -/
def execXor (n pr wd wa wb : Nat) (s : State) : Host.Outcome State Fault Refusal := s.did (·.zBin n pr wd wa wb 0x04 (· ^^^ ·))
/-- ANDN. -/
def execAndn (n pr wd wa wb : Nat) (s : State) : Host.Outcome State Fault Refusal :=
  s.did (·.zBin n pr wd wa wb 0x05 fun a c => a &&& ~~~c)
/-- SHL. -/
def execShl (n pr wd wa wb : Nat) (s : State) : Host.Outcome State Fault Refusal :=
  s.did (·.zBin n pr wd wa wb 0x06 fun a c => a <<< sh6 c)
/-- SHR. -/
def execShr (n pr wd wa wb : Nat) (s : State) : Host.Outcome State Fault Refusal :=
  s.did (·.zBin n pr wd wa wb 0x07 fun a c => a >>> sh6 c)
/-- SAR. -/
def execSar (n pr wd wa wb : Nat) (s : State) : Host.Outcome State Fault Refusal :=
  s.did (·.zBin n pr wd wa wb 0x08 fun a c => a.sshiftRight (sh6 c))
/-- MUL: the low 64 bits of the product. -/
def execMul (n pr wd wa wb : Nat) (s : State) : Host.Outcome State Fault Refusal := s.did (·.zBin n pr wd wa wb 0x09 (· * ·))
/-- MULH: the high 64 bits of the signed product. -/
def execMulh (n pr wd wa wb : Nat) (s : State) : Host.Outcome State Fault Refusal :=
  s.did (·.zBin n pr wd wa wb 0x0A fun a c => BitVec.ofInt 64 (a.toInt * c.toInt / 2 ^ 64))
/-- MIN, signed. -/
def execMinS (n pr wd wa wb : Nat) (s : State) : Host.Outcome State Fault Refusal :=
  s.did (·.zBin n pr wd wa wb 0x0B fun a c => if a.toInt ≤ c.toInt then a else c)
/-- MAX, signed. -/
def execMaxS (n pr wd wa wb : Nat) (s : State) : Host.Outcome State Fault Refusal :=
  s.did (·.zBin n pr wd wa wb 0x0C fun a c => if a.toInt ≤ c.toInt then c else a)
/-- MINU. -/
def execMinu (n pr wd wa wb : Nat) (s : State) : Host.Outcome State Fault Refusal :=
  s.did (·.zBin n pr wd wa wb 0x0D fun a c => if a.toNat ≤ c.toNat then a else c)
/-- MAXU. -/
def execMaxu (n pr wd wa wb : Nat) (s : State) : Host.Outcome State Fault Refusal :=
  s.did (·.zBin n pr wd wa wb 0x0E fun a c => if a.toNat ≤ c.toNat then c else a)
/-- CLZ. -/
def execClz (n pr wd wa wb : Nat) (s : State) : Host.Outcome State Fault Refusal :=
  s.did (·.zUn n pr wd wa wb 0x0F fun a => BitVec.ofNat 128 (clz64 (a.setWidth 64)))
/-- POPC. -/
def execPopc (n pr wd wa wb : Nat) (s : State) : Host.Outcome State Fault Refusal :=
  s.did (·.zUn n pr wd wa wb 0x10 fun a => BitVec.ofNat 128 (popc64 (a.setWidth 64)))
/-- EXTR. -/
def execExtr (n pr wd wa wb : Nat) (s : State) : Host.Outcome State Fault Refusal := s.did (·.zBin n pr wd wa wb 0x11 extr)
/-- MOVQ: all 128 bits. -/
def execMovq (n pr wd wa wb : Nat) (s : State) : Host.Outcome State Fault Refusal := s.did (·.zUn n pr wd wa wb 0x12 id)
/-- HI: the upper 64 bits. -/
def execHiQ (n pr wd wa wb : Nat) (s : State) : Host.Outcome State Fault Refusal :=
  s.did (·.zUn n pr wd wa wb 0x15 fun a => a >>> 64)

/-- AIRADD: air stamp plus signed Tc, carried as R8 gives, EPOCH modulo 2^19. -/
def execAiradd (n pr wd wa wb : Nat) (s : State) : Host.Outcome State Fault Refusal :=
  s.did fun b => b.zhovo n pr (insnA 0x00 wd wa wb pr 0x13) false [wd, wa, wb] fun b h =>
    let a := h.rd64 wa
    if stampValid a = false then .fault X.illegal 4 a
    else b.zSet n (h.wr64 wd (stampOf (((tcOf a : Int) + (h.rd64 wb).toInt) % ((2 ^ 39 * frameTc : Nat) : Int)).toNat))

/-- AIRDIF: the signed difference of two air stamps in Tc. -/
def execAirdif (n pr wd wa wb : Nat) (s : State) : Host.Outcome State Fault Refusal :=
  s.did fun b => b.zhovo n pr (insnA 0x00 wd wa wb pr 0x14) false [wd, wa, wb] fun b h =>
    let a := h.rd64 wa
    let c := h.rd64 wb
    if stampValid a = false then .fault X.illegal 4 a
    else if stampValid c = false then .fault X.illegal 4 c
    else b.zSet n (h.wr64 wd (BitVec.ofInt 64 ((tcOf a : Int) - tcOf c)))

/-- JOIN: wd[63:0] from wa, wd[127:64] from wb. -/
def execJoin (n pr wd wa wb : Nat) (s : State) : Host.Outcome State Fault Refusal :=
  s.did fun b => b.zhovo n pr (insnA 0x00 wd wa wb pr 0x16) false [wd, wa, wb] fun b h =>
    b.zSet n (h.wr wd ((h.rd64 wa).setWidth 128 ||| ((h.rd64 wb).setWidth 128 <<< 64)))

/-! ## Compares and predicates (R222) -/

/-- CMP.EQ. -/
def execCmpEq (n pr wd wa wb : Nat) (s : State) : Host.Outcome State Fault Refusal :=
  s.did (·.zCmp n pr wd wa wb 0x00 fun a c => a == c)
/-- CMP.NE. -/
def execCmpNe (n pr wd wa wb : Nat) (s : State) : Host.Outcome State Fault Refusal :=
  s.did (·.zCmp n pr wd wa wb 0x01 fun a c => a != c)
/-- CMP.LT. -/
def execCmpLt (n pr wd wa wb : Nat) (s : State) : Host.Outcome State Fault Refusal :=
  s.did (·.zCmp n pr wd wa wb 0x02 fun a c => a.toInt < c.toInt)
/-- CMP.LE. -/
def execCmpLe (n pr wd wa wb : Nat) (s : State) : Host.Outcome State Fault Refusal :=
  s.did (·.zCmp n pr wd wa wb 0x03 fun a c => a.toInt ≤ c.toInt)
/-- CMP.LTU. -/
def execCmpLtu (n pr wd wa wb : Nat) (s : State) : Host.Outcome State Fault Refusal :=
  s.did (·.zCmp n pr wd wa wb 0x04 fun a c => a.toNat < c.toNat)
/-- CMP.LEU. -/
def execCmpLeu (n pr wd wa wb : Nat) (s : State) : Host.Outcome State Fault Refusal :=
  s.did (·.zCmp n pr wd wa wb 0x05 fun a c => a.toNat ≤ c.toNat)
/-- PAND. -/
def execPand (n pr wd wa wb : Nat) (s : State) : Host.Outcome State Fault Refusal := s.did (·.zPred n pr wd wa wb 0x10 (· && ·))
/-- POR. -/
def execPor (n pr wd wa wb : Nat) (s : State) : Host.Outcome State Fault Refusal := s.did (·.zPred n pr wd wa wb 0x11 (· || ·))
/-- PXOR. -/
def execPxor (n pr wd wa wb : Nat) (s : State) : Host.Outcome State Fault Refusal := s.did (·.zPred n pr wd wa wb 0x12 (· != ·))
/-- PANDN. -/
def execPandn (n pr wd wa wb : Nat) (s : State) : Host.Outcome State Fault Refusal :=
  s.did (·.zPred n pr wd wa wb 0x13 fun p q => p && !q)

/-! ## Immediate instructions (R223) -/

/-- ADDI. -/
def execAddi (n pr wd wa imm : Nat) (s : State) : Host.Outcome State Fault Refusal :=
  s.did (·.zImm n pr wd wa imm 0x08 false fun a => a + sextImm imm)
/-- ANDI. -/
def execAndi (n pr wd wa imm : Nat) (s : State) : Host.Outcome State Fault Refusal :=
  s.did (·.zImm n pr wd wa imm 0x09 false fun a => a &&& sextImm imm)
/-- ORI. -/
def execOri (n pr wd wa imm : Nat) (s : State) : Host.Outcome State Fault Refusal :=
  s.did (·.zImm n pr wd wa imm 0x0A false fun a => a ||| BitVec.ofNat 64 imm)
/-- XORI. -/
def execXori (n pr wd wa imm : Nat) (s : State) : Host.Outcome State Fault Refusal :=
  s.did (·.zImm n pr wd wa imm 0x0B false fun a => a ^^^ BitVec.ofNat 64 imm)
/-- SHLI: imm13[12:6] must be zero. -/
def execShli (n pr wd wa imm : Nat) (s : State) : Host.Outcome State Fault Refusal :=
  s.did (·.zImm n pr wd wa imm 0x0C (64 ≤ imm) fun a => a <<< imm)
/-- SHRI. -/
def execShri (n pr wd wa imm : Nat) (s : State) : Host.Outcome State Fault Refusal :=
  s.did (·.zImm n pr wd wa imm 0x0D (64 ≤ imm) fun a => a >>> imm)
/-- SARI. -/
def execSari (n pr wd wa imm : Nat) (s : State) : Host.Outcome State Fault Refusal :=
  s.did (·.zImm n pr wd wa imm 0x0E (64 ≤ imm) fun a => a.sshiftRight imm)
/-- CATI. -/
def execCati (n pr wd wa imm : Nat) (s : State) : Host.Outcome State Fault Refusal :=
  s.did (·.zImm n pr wd wa imm 0x0F false fun a => (a <<< 13) ||| BitVec.ofNat 64 imm)

/-- CMPI: p[wd[2:0]] takes the comparison that wd[4:3] names. -/
def execCmpi (n pr wd wa imm : Nat) (s : State) : Host.Outcome State Fault Refusal :=
  s.did fun b => b.zhovo n pr (insnI 0x10 wd wa pr imm) false [wa] fun b h =>
    let a := h.rd64 wa
    let i := sextImm imm
    b.zSet n (h.setPred (wd % 8) (match wd / 8 with
      | 0 => a == i | 1 => a != i | 2 => decide (a.toInt < i.toInt) | _ => decide (a.toNat < i.toNat)))

/-! ## Special registers (R211 to R213) -/

/-- The special register of a number, none for a reserved one or one that user code may not read. -/
def Block.special (b : Block) (n k : Nat) : Option Word :=
  let h := b.eng n
  match k with
  | 0 => some h.pc
  | 1 => some h.status
  | 2 => some (if b.time.running then stampOf (b.time.air - b.time.air % engTc n) else 0)
  | 3 => if h.sys then some h.epc else none
  | 4 => if h.sys then some h.ecause else none
  | 5 => if h.sys then some h.evalue else none
  | 6 => some (BitVec.ofNat 64 ((b.t - b.host.releaseAt) / engTc n))
  | 7 => some (BitVec.ofNat 64 (engUid n + ((if n < 32 then n else 0) <<< 16) + (bit (n == 32) <<< 24)))
  | k => if 8 ≤ k ∧ k < 16 then some (Store.get 0 h.cur (k - 8)) else none

/-- MFS: wd takes a special register. -/
def execMfs (n pr wd wa wb k : Nat) (s : State) : Host.Outcome State Fault Refusal :=
  s.did fun b => b.zhovo n pr (insnA 0x05 wd wa wb pr k) (wa != 0 || wb != 0) [wd] fun b h =>
    match b.special n k with
    | some v => b.zSet n (h.wr64 wd v)
    | none => zIll 3 (insnA 0x05 wd wa wb pr k)

/-- A ring is owned by engine `n` for code of a privilege (R213). -/
def ringOwned (n : Nat) (sys : Bool) (owner : Nat) : Bool :=
  if n < 32 then owner == 32 + n || (sys && owner == 64 + n) else owner == 127

/-- The cursor that a write of a cursor register gives (R213). -/
def Block.cursorOf (b : Block) (v : Word) : Word :=
  let r := Word.fld v 13 0
  BitVec.ofNat 64 (r + (Word.fld v 16 16 <<< 16) + ((b.ring r).cls <<< 17))

/-- MTS: a special register takes wa; a cursor with V checks the ring's owner. -/
def execMts (n pr wd wa wb k : Nat) (s : State) : Host.Outcome State Fault Refusal :=
  s.did fun b => b.zhovo n pr (insnA 0x05 wd wa wb pr (0x80 + k)) (wd != 0 || wb != 0) [wa] fun b h =>
    let v := h.rd64 wa
    let ill := zIll 3 (insnA 0x05 wd wa wb pr (0x80 + k))
    match k with
    | 1 => b.zSet n (h.setStatus v)
    | 3 => if h.sys then b.zSet n { h with epc := v } else ill
    | 4 => if h.sys then b.zSet n { h with ecause := BitVec.ofNat 64 (Word.fld v 15 0) } else ill
    | 5 => if h.sys then b.zSet n { h with evalue := v } else ill
    | k =>
      if 8 ≤ k ∧ k < 16 then
        let r := Word.fld v 13 0
        if Word.fld v 16 16 = 1 ∧ ringOwned n h.sys (b.ring r).owner = false then .fault X.ringFault 4 (BitVec.ofNat 64 r)
        else b.zSet n { h with cur := Store.set 0 h.cur (k - 8) (b.cursorOf v) }
      else ill

end Sys2Proof.Machine
end

