-- ==== Sys2Proof/Machine/Dispatch.lean ====
section
/-! DEFINITION.
The dispatch: one arm per command, each a direct call of its meaning. -/
namespace Sys2Proof.Machine

/-- The effect of a command on everything but the queue. -/
def exec (i : Instr) (s : State) : Host.Outcome State Fault Refusal :=
  match i with
  | .registerWrite who u off h v => Sys2Proof.Machine.execRegisterWrite who u off h v s
  | .regAlign who write u => Sys2Proof.Machine.execRegAlign who write u s
  | .enable who u on => Sys2Proof.Machine.execEnable who u on s
  | .fenceReq who u => Sys2Proof.Machine.execFenceReq who u s
  | .unfenceReq who u => Sys2Proof.Machine.execUnfenceReq who u s
  | .selftestDone u pass => Sys2Proof.Machine.execSelftestDone u pass s
  | .powerReq who u on => Sys2Proof.Machine.execPowerReq who u on s
  | .testReq who u on => Sys2Proof.Machine.execTestReq who u on s
  | .rampDownDone u => Sys2Proof.Machine.execRampDownDone u s
  | .unitFaultClear who u v => Sys2Proof.Machine.execUnitFaultClear who u v s
  | .cntClr who u => Sys2Proof.Machine.execCntClr who u s
  | .grpAdd who g u => Sys2Proof.Machine.execGrpAdd who g u s
  | .grpRemove who g u => Sys2Proof.Machine.execGrpRemove who g u s
  | .grpRemoveAll who g u => Sys2Proof.Machine.execGrpRemoveAll who g u s
  | .tickBoundary => Sys2Proof.Machine.execTickBoundary s
  | .refclkQualify => Sys2Proof.Machine.execRefclkQualify s
  | .refclkQualTimeout => Sys2Proof.Machine.execRefclkQualTimeout s
  | .refLost stopped => Sys2Proof.Machine.execRefLost stopped s
  | .trkBurstDecode back sfn crc pci ssb rsrp ferr => Sys2Proof.Machine.execTrkBurstDecode back sfn crc pci ssb rsrp ferr s
  | .trkBurstMissed => Sys2Proof.Machine.execTrkBurstMissed s
  | .ppsEdge ferr => Sys2Proof.Machine.execPpsEdge ferr s
  | .ppsTimeout => Sys2Proof.Machine.execPpsTimeout s
  | .syncTodWrite who h v => Sys2Proof.Machine.execSyncTodWrite who h v s
  | .ptpSyncRx port head err sec ns ferr => Sys2Proof.Machine.execPtpSyncRx port head err sec ns ferr s
  | .ptpAnnounceRx port head told => Sys2Proof.Machine.execPtpAnnounceRx port head told s
  | .ptpAnnounceTimeout => Sys2Proof.Machine.execPtpAnnounceTimeout s
  | .syncHoldoffExpiry => Sys2Proof.Machine.execSyncHoldoffExpiry s
  | .resync who => Sys2Proof.Machine.execResync who s
  | .syncCfgWrite who h v => Sys2Proof.Machine.execSyncCfgWrite who h v s
  | .timeStepApply => Sys2Proof.Machine.execTimeStepApply s
  | .opsecSecond => Sys2Proof.Machine.execOpsecSecond s
  | .syncWallWrite who h v => Sys2Proof.Machine.execSyncWallWrite who h v s
  | .tddCommit who n stamp => Sys2Proof.Machine.execTddCommit who n stamp s
  | .tddPatternApply n => Sys2Proof.Machine.execTddPatternApply n s
  | .pbCbDataWrite who n h v => Sys2Proof.Machine.execPbCbDataWrite who n h v s
  | .beamWrite who m h v => Sys2Proof.Machine.execBeamWrite who m h v s
  | .fbankWrite who m bank => Sys2Proof.Machine.execFbankWrite who m bank s
  | .fcoefWrite who m h v => Sys2Proof.Machine.execFcoefWrite who m h v s
  | .ncoWrite who m tx h v => Sys2Proof.Machine.execNcoWrite who m tx h v s
  | .retuneStart m => Sys2Proof.Machine.execRetuneStart m s
  | .retuneNcoSwitch m => Sys2Proof.Machine.execRetuneNcoSwitch m s
  | .retuneRefilled m => Sys2Proof.Machine.execRetuneRefilled m s
  | .retuneDone m => Sys2Proof.Machine.execRetuneDone m s
  | .extInitSettled m => Sys2Proof.Machine.execExtInitSettled m s
  | .plannerSeqStart m => Sys2Proof.Machine.execPlannerSeqStart m s
  | .rxcOverrange k => Sys2Proof.Machine.execRxcOverrange k s
  | .rxcOvrEpisodeEnd k => Sys2Proof.Machine.execRxcOvrEpisodeEnd k s
  | .directionSeqStep n => Sys2Proof.Machine.execDirectionSeqStep n s
  | .bgCalHandover k corr selfOk => Sys2Proof.Machine.execBgCalHandover k corr selfOk s
  | .calRestoreDone u bad trimBad => Sys2Proof.Machine.execCalRestoreDone u bad trimBad s
  | .foregroundCalDone u corr bad => Sys2Proof.Machine.execForegroundCalDone u corr bad s
  | .rxcPipelineFilled k => Sys2Proof.Machine.execRxcPipelineFilled k s
  | .muteSeqStep k => Sys2Proof.Machine.execMuteSeqStep k s
  | .ccClkLost c => Sys2Proof.Machine.execCcClkLost c s
  | .syHopGo who k e => Sys2Proof.Machine.execSyHopGo who k e s
  | .syHopSave who k => Sys2Proof.Machine.execSyHopSave who k s
  | .syCalWrite who k second h v => Sys2Proof.Machine.execSyCalWrite who k second h v s
  | .syLockAcquired k band trim lf => Sys2Proof.Machine.execSyLockAcquired k band trim lf s
  | .syCalTimeout k => Sys2Proof.Machine.execSyCalTimeout k s
  | .syLockTimeout k => Sys2Proof.Machine.execSyLockTimeout k s
  | .syUnlock k => Sys2Proof.Machine.execSyUnlock k s
  | .stbCfgWrite who c k h v => Sys2Proof.Machine.execStbCfgWrite who c k h v s
  | .ccSeqGo who c seq => Sys2Proof.Machine.execCcSeqGo who c seq s
  | .rffeHeldStart c => Sys2Proof.Machine.execRffeHeldStart c s
  | .rffeSeqDone c => Sys2Proof.Machine.execRffeSeqDone c s
  | .rffeCmd who c h v => Sys2Proof.Machine.execRffeCmd who c h v s
  | .rffeFrameDone c data perr => Sys2Proof.Machine.execRffeFrameDone c data perr s
  | .ccSeqDataWrite who c h v => Sys2Proof.Machine.execCcSeqDataWrite who c h v s
  | .rffeDivWrite who c x d => Sys2Proof.Machine.execRffeDivWrite who c x d s
  | .orxRunWrite who o on => Sys2Proof.Machine.execOrxRunWrite who o on s
  | .orxDwellAdvance o => Sys2Proof.Machine.execOrxDwellAdvance o s
  | .orxSettleEnd o => Sys2Proof.Machine.execOrxSettleEnd o s
  | .laneBlockEnd k re im pw => Sys2Proof.Machine.execLaneBlockEnd k re im pw s
  | .laneTrackWindow k => Sys2Proof.Machine.execLaneTrackWindow k s
  | .laneDiverge k => Sys2Proof.Machine.execLaneDiverge k s
  | .modelPrefetchStart k x => Sys2Proof.Machine.execModelPrefetchStart k x s
  | .modelPrefetchDone k ok => Sys2Proof.Machine.execModelPrefetchDone k ok s
  | .modelSwapDeadline k => Sys2Proof.Machine.execModelSwapDeadline k s
  | .modelSwap k => Sys2Proof.Machine.execModelSwap k s
  | .modelDeferredSwap k => Sys2Proof.Machine.execModelDeferredSwap k s
  | .modelWriteDone k => Sys2Proof.Machine.execModelWriteDone k s
  | .laneResume who k => Sys2Proof.Machine.execLaneResume who k s
  | .laneZero who k => Sys2Proof.Machine.execLaneZero who k s
  | .laneSave who k => Sys2Proof.Machine.execLaneSave who k s
  | .mbDataWrite who k h v => Sys2Proof.Machine.execMbDataWrite who k h v s
  | .mbDataRead who k h => Sys2Proof.Machine.execMbDataRead who k h s
  | .setValid who k slot => Sys2Proof.Machine.execSetValid who k slot s
  | .clearValid who k slot => Sys2Proof.Machine.execClearValid who k slot s
  | .clearAllValid who k => Sys2Proof.Machine.execClearAllValid who k s
  | .mbAccessDone k => Sys2Proof.Machine.execMbAccessDone k s
  | .tapDataWrite who k h v => Sys2Proof.Machine.execTapDataWrite who k h v s
  | .tapDataRead who k => Sys2Proof.Machine.execTapDataRead who k s
  | .dlyUnderrun k => Sys2Proof.Machine.execDlyUnderrun k s
  | .probePublish m paths gsum n => Sys2Proof.Machine.execProbePublish m paths gsum n s
  | .loopPoolClose => Sys2Proof.Machine.execLoopPoolClose s
  | .loopDeadline m => Sys2Proof.Machine.execLoopDeadline m s
  | .plausibility m => Sys2Proof.Machine.execPlausibility m s
  | .lullDlClear m => Sys2Proof.Machine.execLullDlClear m s
  | .clrPlaus who m => Sys2Proof.Machine.execClrPlaus who m s
  | .rampStart who m => Sys2Proof.Machine.execRampStart who m s
  | .rampStop who m => Sys2Proof.Machine.execRampStop who m s
  | .clipBackoffStart m => Sys2Proof.Machine.execClipBackoffStart m s
  | .clipBackoffEnd m => Sys2Proof.Machine.execClipBackoffEnd m s
  | .tuneReq who m l on => Sys2Proof.Machine.execTuneReq who m l on s
  | .autotuneDone m l => Sys2Proof.Machine.execAutotuneDone m l s
  | .autotuneAbort m l => Sys2Proof.Machine.execAutotuneAbort m l s
  | .loopRegWrite who m off h v => Sys2Proof.Machine.execLoopRegWrite who m off h v s
  | .lutWrite who h v => Sys2Proof.Machine.execLutWrite who h v s
  | .lePeakClr who => Sys2Proof.Machine.execLePeakClr who s
  | .mcOutput c re im conv => Sys2Proof.Machine.execMcOutput c re im conv s
  | .msyncNEdge => Sys2Proof.Machine.execMsyncNEdge s
  | .mcSync who c => Sys2Proof.Machine.execMcSync who c s
  | .decimResetApply => Sys2Proof.Machine.execDecimResetApply s
  | .peakClr who c => Sys2Proof.Machine.execPeakClr who c s
  | .mcConfigWrite who c off h v => Sys2Proof.Machine.execMcConfigWrite who c off h v s
  | .oscBlock m slots delay => Sys2Proof.Machine.execOscBlock m slots delay s
  | .squallSeqStep m => Sys2Proof.Machine.execSquallSeqStep m s
  | .emwBlock o bins full => Sys2Proof.Machine.execEmwBlock o bins full s
  | .overloadTrip m => Sys2Proof.Machine.execOverloadTrip m s
  | .squall who m => Sys2Proof.Machine.execSquall who m s
  | .unsquall who m => Sys2Proof.Machine.execUnsquall who m s
  | .restart who m => Sys2Proof.Machine.execRestart who m s
  | .flRedo who m => Sys2Proof.Machine.execFlRedo who m s
  | .moduleSquall who => Sys2Proof.Machine.execModuleSquall who s
  | .moduleUnsquall who => Sys2Proof.Machine.execModuleUnsquall who s
  | .muteNLow => Sys2Proof.Machine.execMuteNLow s
  | .muteNRelease => Sys2Proof.Machine.execMuteNRelease s
  | .restartDue m => Sys2Proof.Machine.execRestartDue m s
  | .restartAttempt m => Sys2Proof.Machine.execRestartAttempt m s
  | .probationEnd m => Sys2Proof.Machine.execProbationEnd m s
  | .nrgPlStale m => Sys2Proof.Machine.execNrgPlStale m s
  | .flMeasureTimeout m => Sys2Proof.Machine.execFlMeasureTimeout m s
  | .flTrainEnd m => Sys2Proof.Machine.execFlTrainEnd m s
  | .add n pr wd wa wb => Sys2Proof.Machine.execAdd n pr wd wa wb s
  | .sub n pr wd wa wb => Sys2Proof.Machine.execSub n pr wd wa wb s
  | .and n pr wd wa wb => Sys2Proof.Machine.execAnd n pr wd wa wb s
  | .or n pr wd wa wb => Sys2Proof.Machine.execOr n pr wd wa wb s
  | .xor n pr wd wa wb => Sys2Proof.Machine.execXor n pr wd wa wb s
  | .andn n pr wd wa wb => Sys2Proof.Machine.execAndn n pr wd wa wb s
  | .shl n pr wd wa wb => Sys2Proof.Machine.execShl n pr wd wa wb s
  | .shr n pr wd wa wb => Sys2Proof.Machine.execShr n pr wd wa wb s
  | .sar n pr wd wa wb => Sys2Proof.Machine.execSar n pr wd wa wb s
  | .mul n pr wd wa wb => Sys2Proof.Machine.execMul n pr wd wa wb s
  | .mulh n pr wd wa wb => Sys2Proof.Machine.execMulh n pr wd wa wb s
  | .minS n pr wd wa wb => Sys2Proof.Machine.execMinS n pr wd wa wb s
  | .maxS n pr wd wa wb => Sys2Proof.Machine.execMaxS n pr wd wa wb s
  | .minu n pr wd wa wb => Sys2Proof.Machine.execMinu n pr wd wa wb s
  | .maxu n pr wd wa wb => Sys2Proof.Machine.execMaxu n pr wd wa wb s
  | .clz n pr wd wa wb => Sys2Proof.Machine.execClz n pr wd wa wb s
  | .popc n pr wd wa wb => Sys2Proof.Machine.execPopc n pr wd wa wb s
  | .extr n pr wd wa wb => Sys2Proof.Machine.execExtr n pr wd wa wb s
  | .movq n pr wd wa wb => Sys2Proof.Machine.execMovq n pr wd wa wb s
  | .airadd n pr wd wa wb => Sys2Proof.Machine.execAiradd n pr wd wa wb s
  | .airdif n pr wd wa wb => Sys2Proof.Machine.execAirdif n pr wd wa wb s
  | .hiQ n pr wd wa wb => Sys2Proof.Machine.execHiQ n pr wd wa wb s
  | .join n pr wd wa wb => Sys2Proof.Machine.execJoin n pr wd wa wb s
  | .cmpEq n pr wd wa wb => Sys2Proof.Machine.execCmpEq n pr wd wa wb s
  | .cmpNe n pr wd wa wb => Sys2Proof.Machine.execCmpNe n pr wd wa wb s
  | .cmpLt n pr wd wa wb => Sys2Proof.Machine.execCmpLt n pr wd wa wb s
  | .cmpLe n pr wd wa wb => Sys2Proof.Machine.execCmpLe n pr wd wa wb s
  | .cmpLtu n pr wd wa wb => Sys2Proof.Machine.execCmpLtu n pr wd wa wb s
  | .cmpLeu n pr wd wa wb => Sys2Proof.Machine.execCmpLeu n pr wd wa wb s
  | .pand n pr wd wa wb => Sys2Proof.Machine.execPand n pr wd wa wb s
  | .por n pr wd wa wb => Sys2Proof.Machine.execPor n pr wd wa wb s
  | .pxor n pr wd wa wb => Sys2Proof.Machine.execPxor n pr wd wa wb s
  | .pandn n pr wd wa wb => Sys2Proof.Machine.execPandn n pr wd wa wb s
  | .mfs n pr wd wa wb k => Sys2Proof.Machine.execMfs n pr wd wa wb k s
  | .mts n pr wd wa wb k => Sys2Proof.Machine.execMts n pr wd wa wb k s
  | .addi n pr wd wa imm => Sys2Proof.Machine.execAddi n pr wd wa imm s
  | .andi n pr wd wa imm => Sys2Proof.Machine.execAndi n pr wd wa imm s
  | .ori n pr wd wa imm => Sys2Proof.Machine.execOri n pr wd wa imm s
  | .xori n pr wd wa imm => Sys2Proof.Machine.execXori n pr wd wa imm s
  | .shli n pr wd wa imm => Sys2Proof.Machine.execShli n pr wd wa imm s
  | .shri n pr wd wa imm => Sys2Proof.Machine.execShri n pr wd wa imm s
  | .sari n pr wd wa imm => Sys2Proof.Machine.execSari n pr wd wa imm s
  | .cati n pr wd wa imm => Sys2Proof.Machine.execCati n pr wd wa imm s
  | .cmpi n pr wd wa imm => Sys2Proof.Machine.execCmpi n pr wd wa imm s
  | .ladd n pr wd wa wb view => Sys2Proof.Machine.execLadd n pr wd wa wb view s
  | .lsub n pr wd wa wb view => Sys2Proof.Machine.execLsub n pr wd wa wb view s
  | .ladds n pr wd wa wb view => Sys2Proof.Machine.execLadds n pr wd wa wb view s
  | .lsubs n pr wd wa wb view => Sys2Proof.Machine.execLsubs n pr wd wa wb view s
  | .lmul n pr wd wa wb view => Sys2Proof.Machine.execLmul n pr wd wa wb view s
  | .lmulq n pr wd wa wb view => Sys2Proof.Machine.execLmulq n pr wd wa wb view s
  | .lmin n pr wd wa wb view => Sys2Proof.Machine.execLmin n pr wd wa wb view s
  | .lmax n pr wd wa wb view => Sys2Proof.Machine.execLmax n pr wd wa wb view s
  | .lshl n pr wd wa wb view => Sys2Proof.Machine.execLshl n pr wd wa wb view s
  | .lshr n pr wd wa wb view => Sys2Proof.Machine.execLshr n pr wd wa wb view s
  | .lsar n pr wd wa wb view => Sys2Proof.Machine.execLsar n pr wd wa wb view s
  | .lbcst n pr wd wa wb view => Sys2Proof.Machine.execLbcst n pr wd wa wb view s
  | .labs n pr wd wa wb view => Sys2Proof.Machine.execLabs n pr wd wa wb view s
  | .cmul n pr wd wa wb => Sys2Proof.Machine.execCmul n pr wd wa wb s
  | .cmac n pr wd wa wb => Sys2Proof.Machine.execCmac n pr wd wa wb s
  | .cmulj n pr wd wa wb => Sys2Proof.Machine.execCmulj n pr wd wa wb s
  | .cmacj n pr wd wa wb => Sys2Proof.Machine.execCmacj n pr wd wa wb s
  | .cscal n pr wd wa wb => Sys2Proof.Machine.execCscal n pr wd wa wb s
  | .cpow n pr wd wa wb => Sys2Proof.Machine.execCpow n pr wd wa wb s
  | .csum n pr wd wa wb => Sys2Proof.Machine.execCsum n pr wd wa wb s
  | .bfpack n pr wd wa wb => Sys2Proof.Machine.execBfpack n pr wd wa wb s
  | .bfunlo n pr wd wa wb => Sys2Proof.Machine.execBfunlo n pr wd wa wb s
  | .bfunhi n pr wd wa wb => Sys2Proof.Machine.execBfunhi n pr wd wa wb s
  | .bfnorm n pr wd wa wb => Sys2Proof.Machine.execBfnorm n pr wd wa wb s
  | .bfchk n pr wd wa wb => Sys2Proof.Machine.execBfchk n pr wd wa wb s
  | .bfflag n pr wd wa wb => Sys2Proof.Machine.execBfflag n pr wd wa wb s
  | .ld n pr wd wa imm => Sys2Proof.Machine.execLd n pr wd wa imm s
  | .st n pr wd wa imm => Sys2Proof.Machine.execSt n pr wd wa imm s
  | .lds n pr wd wa imm => Sys2Proof.Machine.execLds n pr wd wa imm s
  | .sts n pr wd wa imm => Sys2Proof.Machine.execSts n pr wd wa imm s
  | .dmago n pr wd wa wb => Sys2Proof.Machine.execDmago n pr wd wa wb s
  | .dmagoWake n => Sys2Proof.Machine.execDmagoWake n s
  | .dmaDone n tag data bad => Sys2Proof.Machine.execDmaDone n tag data bad s
  | .dmawait n pr wd wa wb => Sys2Proof.Machine.execDmawait n pr wd wa wb s
  | .dmawaitWake n => Sys2Proof.Machine.execDmawaitWake n s
  | .dmapoll n pr wd wa wb => Sys2Proof.Machine.execDmapoll n pr wd wa wb s
  | .uget n pr wd wa wb => Sys2Proof.Machine.execUget n pr wd wa wb s
  | .ugetDone n => Sys2Proof.Machine.execUgetDone n s
  | .uput n pr wd wa wb => Sys2Proof.Machine.execUput n pr wd wa wb s
  | .uputWake n => Sys2Proof.Machine.execUputWake n s
  | .uputArrive n => Sys2Proof.Machine.execUputArrive n s
  | .rpopB n pr wd wa wb cur => Sys2Proof.Machine.execRpopB n pr wd wa wb cur s
  | .rpopN n pr wd wa wb cur => Sys2Proof.Machine.execRpopN n pr wd wa wb cur s
  | .rpopWake n host bad => Sys2Proof.Machine.execRpopWake n host bad s
  | .rpushB n pr wd wa wb cur => Sys2Proof.Machine.execRpushB n pr wd wa wb cur s
  | .rpushN n pr wd wa wb cur => Sys2Proof.Machine.execRpushN n pr wd wa wb cur s
  | .rpushWake n => Sys2Proof.Machine.execRpushWake n s
  | .br n pr off => Sys2Proof.Machine.execBr n pr off s
  | .call n pr off => Sys2Proof.Machine.execCall n pr off s
  | .jr n pr wd wa wb => Sys2Proof.Machine.execJr n pr wd wa wb s
  | .jrl n pr wd wa wb => Sys2Proof.Machine.execJrl n pr wd wa wb s
  | .trap n pr wd wa wb => Sys2Proof.Machine.execTrap n pr wd wa wb s
  | .syscall n pr wd wa wb => Sys2Proof.Machine.execSyscall n pr wd wa wb s
  | .eret n pr wd wa wb => Sys2Proof.Machine.execEret n pr wd wa wb s
  | .fenceZ n pr wd wa wb => Sys2Proof.Machine.execFenceZ n pr wd wa wb s
  | .fenceWake n => Sys2Proof.Machine.execFenceWake n s
  | .kick n pr wd wa wb => Sys2Proof.Machine.execKick n pr wd wa wb s
  | .halt n pr wd wa wb => Sys2Proof.Machine.execHalt n pr wd wa wb s
  | .trace n pr wd wa imm => Sys2Proof.Machine.execTrace n pr wd wa imm s
  | .waitat n pr wd wa wb => Sys2Proof.Machine.execWaitat n pr wd wa wb s
  | .waitatWake n => Sys2Proof.Machine.execWaitatWake n s
  | .arm n pr wd wa wb => Sys2Proof.Machine.execArm n pr wd wa wb s
  | .armWake n => Sys2Proof.Machine.execArmWake n s
  | .armn n pr wd wa wb => Sys2Proof.Machine.execArmn n pr wd wa wb s
  | .armp n pr wd wa wb => Sys2Proof.Machine.execArmp n pr wd wa wb s
  | .fire n pr wd wa wb => Sys2Proof.Machine.execFire n pr wd wa wb s
  | .swapmodel n pr wd wa wb => Sys2Proof.Machine.execSwapmodel n pr wd wa wb s
  | .disarm n pr wd wa wb => Sys2Proof.Machine.execDisarm n pr wd wa wb s
  | .armc n pr wd wa wb => Sys2Proof.Machine.execArmc n pr wd wa wb s
  | .watchdogExpiry n => Sys2Proof.Machine.execWatchdogExpiry n s
  | .hostReqTake n => Sys2Proof.Machine.execHostReqTake n s
  | .userStart who n => Sys2Proof.Machine.execUserStart who n s
  | .userStop who n => Sys2Proof.Machine.execUserStop who n s
  | .imemWrite who n h v => Sys2Proof.Machine.execImemWrite who n h v s
  | .imemRead who n => Sys2Proof.Machine.execImemRead who n s
  | .dmemWrite who n h v => Sys2Proof.Machine.execDmemWrite who n h v s
  | .dmemRead who n h => Sys2Proof.Machine.execDmemRead who n h s
  | .cueRingPop host bad => Sys2Proof.Machine.execCueRingPop host bad s
  | .cueStage => Sys2Proof.Machine.execCueStage s
  | .cueShadowAck x => Sys2Proof.Machine.execCueShadowAck x s
  | .cueWait x => Sys2Proof.Machine.execCueWait x s
  | .cueIssue => Sys2Proof.Machine.execCueIssue s
  | .cueEffect x => Sys2Proof.Machine.execCueEffect x s
  | .cueRetire x => Sys2Proof.Machine.execCueRetire x s
  | .cueMark x => Sys2Proof.Machine.execCueMark x s
  | .cueWrite x => Sys2Proof.Machine.execCueWrite x s
  | .cueEnable x => Sys2Proof.Machine.execCueEnable x s
  | .cuePower x => Sys2Proof.Machine.execCuePower x s
  | .cueFence x => Sys2Proof.Machine.execCueFence x s
  | .cueDirection x => Sys2Proof.Machine.execCueDirection x s
  | .cueBeam x => Sys2Proof.Machine.execCueBeam x s
  | .cueFbank x => Sys2Proof.Machine.execCueFbank x s
  | .cueRetune x => Sys2Proof.Machine.execCueRetune x s
  | .cueCap x => Sys2Proof.Machine.execCueCap x s
  | .cueLull x => Sys2Proof.Machine.execCueLull x s
  | .cueSquall x => Sys2Proof.Machine.execCueSquall x s
  | .cueUnsquall x => Sys2Proof.Machine.execCueUnsquall x s
  | .cueRestart x => Sys2Proof.Machine.execCueRestart x s
  | .cueSwapmodel x => Sys2Proof.Machine.execCueSwapmodel x s
  | .cueMsync x => Sys2Proof.Machine.execCueMsync x s
  | .cueHop x => Sys2Proof.Machine.execCueHop x s
  | .cueStrobe x => Sys2Proof.Machine.execCueStrobe x s
  | .cueRffe x => Sys2Proof.Machine.execCueRffe x s
  | .cueModsquall x => Sys2Proof.Machine.execCueModsquall x s
  | .dspCancel who x => Sys2Proof.Machine.execDspCancel who x s
  | .dspPeakClr who => Sys2Proof.Machine.execDspPeakClr who s
  | .doorbell who r v => Sys2Proof.Machine.execDoorbell who r v s
  | .ringDescriptorWrite who off h v => Sys2Proof.Machine.execRingDescriptorWrite who off h v s
  | .fhTrainingDone q => Sys2Proof.Machine.execFhTrainingDone q s
  | .fhTrainTimeout q => Sys2Proof.Machine.execFhTrainTimeout q s
  | .fhFecLoss q => Sys2Proof.Machine.execFhFecLoss q s
  | .fhLaneFail g l => Sys2Proof.Machine.execFhLaneFail g l s
  | .fhIqFrameRx q h f fmt16 order bad corr unc => Sys2Proof.Machine.execFhIqFrameRx q h f fmt16 order bad corr unc s
  | .fhUlSampleMissing h f => Sys2Proof.Machine.execFhUlSampleMissing h f s
  | .fhOtherFrameRx q pause corr unc => Sys2Proof.Machine.execFhOtherFrameRx q pause corr unc s
  | .helloRx q serial mac ports fmt rates dl ul dmax => Sys2Proof.Machine.execHelloRx q serial mac ports fmt rates dl ul dmax s
  | .statusRx h off lost late mute => Sys2Proof.Machine.execStatusRx h off lost late mute s
  | .beatSend => Sys2Proof.Machine.execBeatSend s
  | .hdLossTimeout h => Sys2Proof.Machine.execHdLossTimeout h s
  | .hdAdmitTimeout h => Sys2Proof.Machine.execHdAdmitTimeout h s
  | .hdRealignReq who h => Sys2Proof.Machine.execHdRealignReq who h s
  | .hdGpioWrite who hd h v => Sys2Proof.Machine.execHdGpioWrite who hd h v s
  | .hbmRequest by_ o wr => Sys2Proof.Machine.execHbmRequest by_ o wr s
  | .hbmComplete by_ o wr ecc => Sys2Proof.Machine.execHbmComplete by_ o wr ecc s
  | .softRepairDone k => Sys2Proof.Machine.execSoftRepairDone k s
  | .patrolScrub k err row => Sys2Proof.Machine.execPatrolScrub k err row s
  | .pcPeakClr who k => Sys2Proof.Machine.execPcPeakClr who k s
  | .cellarRun who run => Sys2Proof.Machine.execCellarRun who run s
  | .celFreeze who => Sys2Proof.Machine.execCelFreeze who s
  | .celRearm who => Sys2Proof.Machine.execCelRearm who s
  | .rplStart who => Sys2Proof.Machine.execRplStart who s
  | .rplStop who => Sys2Proof.Machine.execRplStop who s
  | .cellarIntervalEnd data => Sys2Proof.Machine.execCellarIntervalEnd data s
  | .cellarRecordWritten => Sys2Proof.Machine.execCellarRecordWritten s
  | .replayBegin => Sys2Proof.Machine.execReplayBegin s
  | .replayFeed => Sys2Proof.Machine.execReplayFeed s
  | .celSdataWrite who h v => Sys2Proof.Machine.execCelSdataWrite who h v s
  | .monGo who => Sys2Proof.Machine.execMonGo who s
  | .monBurst who => Sys2Proof.Machine.execMonBurst who s
  | .monTrigSeq who => Sys2Proof.Machine.execMonTrigSeq who s
  | .monTrigInj who => Sys2Proof.Machine.execMonTrigInj who s
  | .monTrigNFall => Sys2Proof.Machine.execMonTrigNFall s
  | .monPeriodicTimer => Sys2Proof.Machine.execMonPeriodicTimer s
  | .monSupvRequest m => Sys2Proof.Machine.execMonSupvRequest m s
  | .monConversionDone code ovr under => Sys2Proof.Machine.execMonConversionDone code ovr under s
  | .monRefEnWrite who en => Sys2Proof.Machine.execMonRefEnWrite who en s
  | .monRefWarm => Sys2Proof.Machine.execMonRefWarm s
  | .monDataRead who h => Sys2Proof.Machine.execMonDataRead who h s
  | .monBufRead who h => Sys2Proof.Machine.execMonBufRead who h s
  | .monSliceRotate f => Sys2Proof.Machine.execMonSliceRotate f s
  | .monDropClr who => Sys2Proof.Machine.execMonDropClr who s
  | .tsSample raws => Sys2Proof.Machine.execTsSample raws s
  | .kilnStep => Sys2Proof.Machine.execKilnStep s
  | .thermCeilRise => Sys2Proof.Machine.execThermCeilRise s
  | .kilnOrderlyStep => Sys2Proof.Machine.execKilnOrderlyStep s
  | .kilnResume who => Sys2Proof.Machine.execKilnResume who s
  | .domainTransitionDone d => Sys2Proof.Machine.execDomainTransitionDone d s
  | .domainTimeout d => Sys2Proof.Machine.execDomainTimeout d s
  | .switchedRailFail r => Sys2Proof.Machine.execSwitchedRailFail r s
  | .faultRaise u code path => Sys2Proof.Machine.execFaultRaise u code path s
  | .safeStateStep => Sys2Proof.Machine.execSafeStateStep s
  | .safeClr who => Sys2Proof.Machine.execSafeClr who s
  | .firstClr who => Sys2Proof.Machine.execFirstClr who s
  | .bistRun who => Sys2Proof.Machine.execBistRun who s
  | .faultPinDriveWrite who on => Sys2Proof.Machine.execFaultPinDriveWrite who on s
  | .faultPulseEnd => Sys2Proof.Machine.execFaultPulseEnd s
  | .fltInjGo who => Sys2Proof.Machine.execFltInjGo who s
  | .recEvent => Sys2Proof.Machine.execRecEvent s
  | .recWriteDone => Sys2Proof.Machine.execRecWriteDone s
  | .recClear who => Sys2Proof.Machine.execRecClear who s
  | .recClearDone => Sys2Proof.Machine.execRecClearDone s
  | .tallySweep who => Sys2Proof.Machine.execTallySweep who s
  | .tallyPeriodic => Sys2Proof.Machine.execTallyPeriodic s
  | .tallyCapture => Sys2Proof.Machine.execTallyCapture s
  | .tallySweepDone => Sys2Proof.Machine.execTallySweepDone s
  | .tallyClr who => Sys2Proof.Machine.execTallyClr who s
  | .tallyCcfgWrite who h v => Sys2Proof.Machine.execTallyCcfgWrite who h v s
  | .tallyBufRead who h => Sys2Proof.Machine.execTallyBufRead who h s
  | .tracerClr who t => Sys2Proof.Machine.execTracerClr who t s
  | .nonceReq who => Sys2Proof.Machine.execNonceReq who s
  | .tokenWrite who h v => Sys2Proof.Machine.execTokenWrite who h v s
  | .debugUnlock who => Sys2Proof.Machine.execDebugUnlock who s
  | .keyVendor who => Sys2Proof.Machine.execKeyVendor who s
  | .keyOwner who => Sys2Proof.Machine.execKeyOwner who s
  | .keySite who => Sys2Proof.Machine.execKeySite who s
  | .lifecycle mode => Sys2Proof.Machine.execLifecycle mode s
  | .legacyBit who => Sys2Proof.Machine.execLegacyBit who s
  | .hardRepair who => Sys2Proof.Machine.execHardRepair who s
  | .stgOpen who => Sys2Proof.Machine.execStgOpen who s
  | .stgDataWrite who h v => Sys2Proof.Machine.execStgDataWrite who h v s
  | .stgClose who => Sys2Proof.Machine.execStgClose who s
  | .stgVerifyDone => Sys2Proof.Machine.execStgVerifyDone s
  | .stgAbort who => Sys2Proof.Machine.execStgAbort who s
  | .stgSessionExpiry => Sys2Proof.Machine.execStgSessionExpiry s
  | .stgActivate who => Sys2Proof.Machine.execStgActivate who s
  | .coastPhaseDone ok => Sys2Proof.Machine.execCoastPhaseDone ok s
  | .stgCommit who => Sys2Proof.Machine.execStgCommit who s
  | .autoCommit => Sys2Proof.Machine.execAutoCommit s
  | .stgRevert who => Sys2Proof.Machine.execStgRevert who s
  | .saveSet who => Sys2Proof.Machine.execSaveSet who s
  | .saveCal who => Sys2Proof.Machine.execSaveCal who s
  | .saveDone => Sys2Proof.Machine.execSaveDone s
  | .perstNAssert => Sys2Proof.Machine.execPerstNAssert s
  | .perstNRelease speed width => Sys2Proof.Machine.execPerstNRelease speed width s
  | .flrVf k => Sys2Proof.Machine.execFlrVf k s
  | .flrPf => Sys2Proof.Machine.execFlrPf s
  | .hostVecWrite who h v => Sys2Proof.Machine.execHostVecWrite who h v s
  | .hostRouteWrite who h v => Sys2Proof.Machine.execHostRouteWrite who h v s
  | .msixTableWrite func j d v => Sys2Proof.Machine.execMsixTableWrite func j d v s
  | .hostUrst who u => Sys2Proof.Machine.execHostUrst who u s
  | .hostReadTimeout n tag data => Sys2Proof.Machine.execHostReadTimeout n tag data s
  | .pcieErr => Sys2Proof.Machine.execPcieErr s
  | .mspiRead u off crc => Sys2Proof.Machine.execMspiRead u off crc s
  | .mspiWrite u off v crc => Sys2Proof.Machine.execMspiWrite u off v crc s
  | .mspiReadWin u off crc => Sys2Proof.Machine.execMspiReadWin u off crc s
  | .mspiId u off crc => Sys2Proof.Machine.execMspiId u off crc s
  | .porNAssert => Sys2Proof.Machine.execPorNAssert s
  | .rstNAssert => Sys2Proof.Machine.execRstNAssert s
  | .porNRelease mode => Sys2Proof.Machine.execPorNRelease mode s
  | .rstNRelease mode => Sys2Proof.Machine.execRstNRelease mode s
  | .vddAoPowerUp => Sys2Proof.Machine.execVddAoPowerUp s
  | .vddAoRemoval => Sys2Proof.Machine.execVddAoRemoval s
  | .aoRailDrop => Sys2Proof.Machine.execAoRailDrop s
  | .startupPhaseDone fails va vb => Sys2Proof.Machine.execStartupPhaseDone fails va vb s
  | .aoRailReturn mode => Sys2Proof.Machine.execAoRailReturn mode s
  | .hdStatusStale h => Sys2Proof.Machine.execHdStatusStale h s
  | .hdLatencyMeasured h tp => Sys2Proof.Machine.execHdLatencyMeasured h tp s
  | .secApply who => Sys2Proof.Machine.execSecApply who s
  | .mspiBadCmd cmd => Sys2Proof.Machine.execMspiBadCmd cmd s

end Sys2Proof.Machine
end

