-- ==== Sys2Proof/Machine/Idle.lean ====
section
/-! DEFINITION.
What a step does on an empty queue: one Tc passes (R7, R34), up to the last Tc before the next tick boundary, which is a
command of its own. -/
namespace Sys2Proof.Machine

/-- One Tc passes, but never the tick boundary. -/
def Block.idle (b : Block) : Block :=
  if b.time.running = false ∨ b.time.elapsed + 1 < b.time.tickEnd then b.advanceTo (b.time.elapsed + 1) else b

/-- The machine idles for one Tc: nothing but time passes. -/
def State.idle (s : State) : State := { s with blk := s.blk.idle }

end Sys2Proof.Machine
end

