-- ==== Sys2Proof/Machine/Step.lean ====
section
/-! DEFINITION.
One step of the block: the command at the front of the queue acts on the rest; on an empty queue one Tc passes. -/
namespace Sys2Proof.Machine

/-- Take the command at the front of the queue and carry it out with the queue's rest. -/
def step (s : State) : Host.Outcome State Fault Refusal :=
  match s.pending with
  | [] => .next s.idle
  | c :: rest => exec c { s with pending := rest }

/-- The state with the command that a word spells in front of its queue; unchanged where the word spells none. -/
def State.withFetchWord (s : State) (nbits w : Nat) : State :=
  match decodeTableWord nbits w with
  | some c => { s with pending := c :: s.pending }
  | none => s

end Sys2Proof.Machine
end

