-- ==== Sys2Proof/Safety.lean ====
section
/-! DEFINITION.
What counts as a safe run: every command completes, and the memories keep their canonical form. -/
namespace Sys2Proof.Safety

open Sys2Proof.Machine

/-- The memories are in their canonical form. -/
def memOk (s : State) : Prop := s.mem.wf = true

/-- A command completes: it answers a next state, with no fault and no refusal. -/
def completes (c : Instr) (s : State) : Prop := ∃ t, exec c s = .next t

/-- A step answers a next state. -/
def runs (s : State) : Prop := ∃ t, step s = .next t

end Sys2Proof.Safety
end

