-- ==== Sys2Proof/Certificates/Slice0/Obligations.lean ====
section
/-! DEFINITION.
The statements for the provers. Helpers in `Sys2Proof.Spec` say what several statements share; each statement is an
`Obligations.<Name>`. -/
namespace Sys2Proof.Spec

open Sys2Proof.Machine

/-- `c` completes from `s`, in a state that satisfies `P`. -/
def Ends (c : Instr) (s : State) (P : State → Prop) : Prop := ∃ t, exec c s = .next t ∧ P t

/-- Nothing of an earlier command waits: no memory write, and no lane for its taps. Every command leaves the machine so
(`Obligations.CommandsSettle`). -/
abbrev Settled (s : State) : Prop := (s.blk.lanes.all fun x => !x.2.loadDue) = true ∧ s.blk.memOps = []

/-- Every byte of HBM and every word of a RAM, but for those that `free` names, reads as before. -/
def MemKept (s t : State) (free : Ram → Nat → Bool) : Prop :=
  (∀ a, t.mem.rdByte a = s.mem.rdByte a) ∧ ∀ r i, i < 2 ^ 40 → free r i = false → t.mem.rd r i = s.mem.rd r i

/-- No memory changes. -/
def MemSame (s t : State) : Prop := t.mem = s.mem

/-- Every register but those that `free` names reads as before. -/
def RegsKept (s t : State) (free : Nat → Nat → Bool) : Prop :=
  ∀ u off, off < 1024 → free u off = false → t.blk.reg u off = s.blk.reg u off

/-! ## Zhovo: what an instruction of an engine leaves -/

/-- Engine `n` issues its next instruction under a true predicate, inside its fetch region, with no register of `regs` waiting
for a UGET. -/
abbrev Issues (s : State) (n pr : Nat) (regs : List Nat) : Prop :=
  Settled s ∧ s.blk.engLive n = true ∧ s.blk.fetchOk n (s.blk.eng n).pc = true ∧ (s.blk.eng n).pred pr = true ∧
    ((s.blk.eng n).gets.all fun g => g.wd == 0 || !regs.contains g.wd) = true

/-- An instruction of engine `n` leaves everything else: the other engines, every register but those of its CE page and of the
tally, every context, and all memory but the tracers and what `free` names. -/
def Elsewhere (s t : State) (n : Nat) (free : Ram → Nat → Bool) : Prop :=
  (∀ k, k ≠ n → t.blk.eng k = s.blk.eng k) ∧ RegsKept s t (fun u _ => u == U.ce n || u == U.tally) ∧
    t.blk.ctxs = s.blk.ctxs ∧ MemKept s t (fun r i => r == .tracer || free r i)

/-- Engine `n` is left as `h` with the program counter `pc`; only its tracer sampling count may differ. -/
def EngineIs (t : State) (n : Nat) (h : EngH) (pc : Word) : Prop :=
  { t.blk.eng n with samp := 0 } = { h with samp := 0, pc := pc }

/-- An instruction retires with the engine as `h` and the next address, and changes nothing elsewhere. -/
def Retires (s t : State) (n : Nat) (h : EngH) : Prop :=
  EngineIs t n h ((s.blk.eng n).pc + 4) ∧ Elsewhere s t n fun _ _ => false

/-- The two-source scalar instructions with their operations (R222). -/
def scalarOps : List ((Nat → Nat → Nat → Nat → Nat → Instr) × (Word → Word → Word)) :=
  [(.add, fun a b => a + b), (.sub, fun a b => a - b), (.and, fun a b => a &&& b), (.or, fun a b => a ||| b),
    (.xor, fun a b => a ^^^ b), (.andn, fun a b => a &&& ~~~b), (.shl, fun a b => a <<< (b.toNat % 64)),
    (.shr, fun a b => a >>> (b.toNat % 64)), (.sar, fun a b => a.sshiftRight (b.toNat % 64)), (.mul, fun a b => a * b),
    (.mulh, fun a b => ((a.signExtend 128 * b.signExtend 128) >>> 64).setWidth 64),
    (.minS, fun a b => if a.toInt ≤ b.toInt then a else b), (.maxS, fun a b => if a.toInt ≤ b.toInt then b else a),
    (.minu, fun a b => if a.toNat ≤ b.toNat then a else b), (.maxu, fun a b => if a.toNat ≤ b.toNat then b else a),
    (.extr, fun a b =>
      let l := if b.toNat / 256 % 64 = 0 then 64 else b.toNat / 256 % 64
      BitVec.ofNat 64 ((a.toNat >>> (b.toNat % 64)) % 2 ^ l))]

end Sys2Proof.Spec

open Sys2Proof Sys2Proof.Machine Sys2Proof.Spec

/-- R209: w0 reads as zero and discards writes, a scalar result clears the upper half, and p0 reads true and discards writes;
every other register and predicate keeps its value. -/
def Obligations.ZhovoRegisterFile : Prop :=
  ∀ (h : EngH) (r : Nat) (v : Word) (q : Quad) (i : Nat) (p : Bool),
    h.rd 0 = 0 ∧ (h.wr64 r v).rd r = (if r = 0 then 0 else v.setWidth 128) ∧ (h.wr r q).rd r = (if r = 0 then 0 else q) ∧
      (∀ k, k ≠ r → (h.wr r q).rd k = h.rd k) ∧ { h.wr r q with w := [] } = { h with w := [] } ∧
      h.pred 0 = true ∧ (∀ j, (h.setPred i p).pred j = if j ≠ 0 ∧ j = i then p else h.pred j) ∧
      { h.setPred i p with p := 0 } = { h with p := 0 }

/-- R222: the two-source scalar instructions write their result to wd, pc goes on by 4, and nothing else changes. -/
def Sys2Proof.Spec.ZhovoScalarResults : Prop :=
  ∀ x ∈ scalarOps, ∀ (n pr wd wa wb : Nat) (s : State), Issues s n pr [wd, wa, wb] →
    Ends (x.1 n pr wd wa wb) s fun t =>
      let h := s.blk.eng n
      Retires s t n (h.wr64 wd (x.2 (h.rd64 wa) (h.rd64 wb)))

/-- R220: under a false predicate an instruction has no effect but its retirement; here for every instruction of op 0x00 to 0x01 of
two sources and for the immediates. -/
def Obligations.ZhovoFalsePredicate : Prop :=
  ∀ (n pr wd wa wb imm off : Nat) (s : State), Settled s → s.blk.engLive n = true →
    s.blk.fetchOk n (s.blk.eng n).pc = true → (s.blk.eng n).pred pr = false →
      ∀ i ∈ (scalarOps.map fun x => x.1 n pr wd wa wb) ++ [Instr.clz n pr wd wa wb, .popc n pr wd wa wb, .movq n pr wd wa wb,
        .hiQ n pr wd wa wb, .join n pr wd wa wb, .airadd n pr wd wa wb, .airdif n pr wd wa wb, .addi n pr wd wa imm,
        .ld n pr wd wa imm, .st n pr wd wa imm, .br n pr off, .call n pr off, .jr n pr wd wa wb, .trap n pr wd wa wb,
        .syscall n pr wd wa wb, .eret n pr wd wa wb, .halt n pr wd wa wb, .uput n pr wd wa wb, .arm n pr wd wa wb],
        Ends i s fun t => Retires s t n (s.blk.eng n)

/-- R222: CLZ and POPC count the leading zeros and the set bits, MOVQ copies 128 bits, HI takes the upper half, JOIN joins two
low halves; AIRADD carries a valid stamp on, modulo the epochs, and AIRDIF answers the signed difference in Tc. -/
def Sys2Proof.Spec.ZhovoUnaryAndAirResults : Prop :=
  ∀ (n pr wd wa wb : Nat) (s : State), Issues s n pr [wd, wa, wb] →
    let h := s.blk.eng n
    let a := h.rd64 wa
    let c := h.rd64 wb
    (Ends (.clz n pr wd wa 0) s fun t => ∃ k, k ≤ 64 ∧ (∀ i, i < k → a.getLsbD (63 - i) = false) ∧
        (k < 64 → a.getLsbD (63 - k) = true) ∧ Retires s t n (h.wr64 wd (BitVec.ofNat 64 k))) ∧
    (Ends (.popc n pr wd wa 0) s fun t =>
        Retires s t n (h.wr64 wd (BitVec.ofNat 64 ((List.range 64).countP fun i => a.getLsbD i)))) ∧
    (Ends (.movq n pr wd wa 0) s fun t => Retires s t n (h.wr wd (h.rd wa))) ∧
    (Ends (.hiQ n pr wd wa 0) s fun t => Retires s t n (h.wr64 wd ((h.rd wa).extractLsb' 64 64))) ∧
    (Ends (.join n pr wd wa wb) s fun t => Retires s t n (h.wr wd (c ++ a))) ∧
    (stampValid a = true → Ends (.airadd n pr wd wa wb) s fun t => ∃ v, stampValid v = true ∧
        (tcOf v : Int) = ((tcOf a : Int) + c.toInt) % (2 ^ 39 * 19660800) ∧ Retires s t n (h.wr64 wd v)) ∧
    (stampValid a = true → stampValid c = true → Ends (.airdif n pr wd wa wb) s fun t =>
        Retires s t n (h.wr64 wd (BitVec.ofInt 64 ((tcOf a : Int) - tcOf c))))

namespace Sys2Proof.Spec

/-- The compares (R222). -/
def compareOps : List ((Nat → Nat → Nat → Nat → Nat → Instr) × (Word → Word → Bool)) :=
  [(.cmpEq, fun a b => a == b), (.cmpNe, fun a b => a != b), (.cmpLt, fun a b => a.slt b), (.cmpLe, fun a b => a.sle b),
    (.cmpLtu, fun a b => a.ult b), (.cmpLeu, fun a b => a.ule b)]

/-- The operations on predicates (R222). -/
def predicateOps : List ((Nat → Nat → Nat → Nat → Nat → Instr) × (Bool → Bool → Bool)) :=
  [(.pand, and), (.por, or), (.pxor, xor), (.pandn, fun p q => p && !q)]

/-- The immediate instructions (R223): an immediate below 64 for the shifts, of 13 bits for the others. -/
def immediateOps : List ((Nat → Nat → Nat → Nat → Nat → Instr) × Nat × (Word → BitVec 13 → Word)) :=
  [(.addi, 8192, fun a i => a + i.signExtend 64), (.andi, 8192, fun a i => a &&& i.signExtend 64),
    (.ori, 8192, fun a i => a ||| i.setWidth 64), (.xori, 8192, fun a i => a ^^^ i.setWidth 64),
    (.shli, 64, fun a i => a <<< i.toNat), (.shri, 64, fun a i => a >>> i.toNat), (.sari, 64, fun a i => a.sshiftRight i.toNat),
    (.cati, 8192, fun a i => (a <<< 13) ||| i.setWidth 64)]

/-- The comparison that bits [4:3] of CMPI's wd name. -/
def cmpiOp (k : Nat) (a b : Word) : Bool :=
  if k = 0 then a == b else if k = 1 then a != b else if k = 2 then a.slt b else a.ult b

end Sys2Proof.Spec

/-- R222, R223: a compare writes its answer to the predicate of wd, CMPI to that of wd[2:0] under the comparison of wd[4:3], and
the predicate operations combine two predicates; no register changes. -/
def Sys2Proof.Spec.ZhovoCompareResults : Prop :=
  ∀ (n pr wd wa wb imm : Nat) (s : State), imm < 8192 → wd < 8 →
    let h := s.blk.eng n
    (∀ x ∈ compareOps, Issues s n pr [wa, wb] → Ends (x.1 n pr wd wa wb) s fun t =>
      Retires s t n (h.setPred wd (x.2 (h.rd64 wa) (h.rd64 wb)))) ∧
    (∀ x ∈ predicateOps, wa < 8 → wb < 8 → Issues s n pr [] → Ends (x.1 n pr wd wa wb) s fun t =>
      Retires s t n (h.setPred wd (x.2 (h.pred wa) (h.pred wb)))) ∧
    ∀ k, k < 4 → Issues s n pr [wa] → Ends (.cmpi n pr (8 * k + wd) wa imm) s fun t =>
      Retires s t n (h.setPred wd (cmpiOp k (h.rd64 wa) ((BitVec.ofNat 13 imm).signExtend 64)))

/-- R223: the immediate instructions write their result to wd, and nothing else changes. -/
def Sys2Proof.Spec.ZhovoImmediateResults : Prop :=
  ∀ x ∈ immediateOps, ∀ (n pr wd wa imm : Nat) (s : State), imm < x.2.1 → Issues s n pr [wd, wa] →
    Ends (x.1 n pr wd wa imm) s fun t =>
      let h := s.blk.eng n
      Retires s t n (h.wr64 wd (x.2.2 (h.rd64 wa) (BitVec.ofNat 13 imm)))

namespace Sys2Proof.Spec

/-- The bits of the status register (R212). -/
def statusBits (h : EngH) : List Bool :=
  [h.late, h.empty, h.full, h.sat, h.bferr, h.ctxbusy, h.dmaerr, h.req, h.sys, h.psys, h.inexc]

/-- A word whose bit `i` is element `i` of a list, and whose other bits are 0. -/
abbrev hasBits (v : Word) (l : List Bool) : Prop := ∀ i, i < 64 → v.getLsbD i = (l[i]?).getD false

/-- Cursor register fields: ring [13:0], V [16], class [18:17] (R213). -/
def cursorWord (ring v cls : Nat) : Word := BitVec.ofNat 64 (ring + v * 2 ^ 16 + cls * 2 ^ 17)

end Sys2Proof.Spec

/-- R211 to R213: MFS reads pc, status, air time, the exception registers (system code only), the cycle count and the cursors;
MTS writes bits [7:0] of status, the exception registers from system code, and a cursor with the class of its ring, whose owner
it checks where V is set. -/
def Obligations.ZhovoSpecialRegisters : Prop :=
  ∀ (n pr wd : Nat) (s : State), Issues s n pr [wd] →
    let h := s.blk.eng n
    (∀ (k : Nat) (v : Word), ((k = 0 ∧ v = h.pc) ∨ (k = 1 ∧ hasBits v (statusBits h)) ∨
        (k = 2 ∧ s.blk.time.running = true ∧ v = stampOf (s.blk.time.air - s.blk.time.air % engTc n)) ∨
        (k = 3 ∧ h.sys = true ∧ v = h.epc) ∨ (k = 4 ∧ h.sys = true ∧ v = h.ecause) ∨ (k = 5 ∧ h.sys = true ∧ v = h.evalue) ∨
        (k = 6 ∧ v = BitVec.ofNat 64 ((s.blk.t - s.blk.host.releaseAt) / engTc n)) ∨
        (k = 7 ∧ n ≤ 32 ∧ v = BitVec.ofNat 64 (if n = 32 then 0x04E0 + 2 ^ 24 else 0x04C0 + n + n * 2 ^ 16)) ∨
        (8 ≤ k ∧ k < 16 ∧ v = Store.get 0 h.cur (k - 8))) →
      Ends (.mfs n pr wd 0 0 k) s fun t => Retires s t n (h.wr64 wd v)) ∧
    let v := h.rd64 wd
    (Ends (.mts n pr 0 wd 0 1) s fun t => Retires s t n
        { h with late := v.getLsbD 0, empty := v.getLsbD 1, full := v.getLsbD 2, sat := v.getLsbD 3, bferr := v.getLsbD 4
                 ctxbusy := v.getLsbD 5, dmaerr := v.getLsbD 6, req := v.getLsbD 7 }) ∧
    (h.sys = true → (Ends (.mts n pr 0 wd 0 3) s fun t => Retires s t n { h with epc := v }) ∧
      (Ends (.mts n pr 0 wd 0 4) s fun t => Retires s t n { h with ecause := v &&& 0xFFFF }) ∧
      Ends (.mts n pr 0 wd 0 5) s fun t => Retires s t n { h with evalue := v }) ∧
    ∀ k, k < 8 → (v.getLsbD 16 = true → ringOwned n h.sys (s.blk.ring (v.toNat % 2 ^ 14)).owner = true) →
      Ends (.mts n pr 0 wd 0 (8 + k)) s fun t => Retires s t n
        { h with cur := Store.set 0 h.cur k (cursorWord (v.toNat % 2 ^ 14) (bit (v.getLsbD 16)) (s.blk.ring (v.toNat % 2 ^ 14)).cls) }

/-- R222: every integer instruction: the two-source scalars, and the one-source, join and air-stamp instructions. -/
def Obligations.ZhovoIntegerInstructions : Prop := ZhovoScalarResults ∧ ZhovoUnaryAndAirResults

/-- R222, R223: the compares, the predicate operations and the immediate instructions. -/
def Obligations.ZhovoComparesAndImmediates : Prop := ZhovoCompareResults ∧ ZhovoImmediateResults

namespace Sys2Proof.Spec

/-- A lane instruction: whether it saturates, whether wb is unused, and its exact result from the lane width, the lanes of
wa and wb and lane 0 of wa (R224). -/
structure LaneOp where
  op : Nat → Nat → Nat → Nat → Nat → Nat → Instr
  sat : Bool
  one : Bool
  f : (w : Nat) → BitVec w → BitVec w → BitVec w → Int

/-- The lane instructions (R224). -/
def laneOps : List LaneOp :=
  [⟨.ladd, false, false, fun _ a b _ => (a.toNat + b.toNat : Int)⟩, ⟨.lsub, false, false, fun _ a b _ => (a.toNat : Int) - b.toNat⟩,
    ⟨.ladds, true, false, fun _ a b _ => a.toInt + b.toInt⟩, ⟨.lsubs, true, false, fun _ a b _ => a.toInt - b.toInt⟩,
    ⟨.lmul, false, false, fun _ a b _ => (a.toNat * b.toNat : Int)⟩,
    ⟨.lmulq, true, false, fun w a b _ => (a.toInt * b.toInt + 2 ^ (w - 2)) / 2 ^ (w - 1)⟩,
    ⟨.lmin, false, false, fun _ a b _ => min a.toInt b.toInt⟩, ⟨.lmax, false, false, fun _ a b _ => max a.toInt b.toInt⟩,
    ⟨.lshl, false, false, fun w a b _ => (a.toNat : Int) * 2 ^ (b.toNat % w)⟩,
    ⟨.lshr, false, false, fun w a b _ => (a.toNat : Int) / 2 ^ (b.toNat % w)⟩,
    ⟨.lsar, false, false, fun w a b _ => a.toInt / 2 ^ (b.toNat % w)⟩, ⟨.lbcst, false, true, fun _ _ _ z => z.toInt⟩,
    ⟨.labs, true, true, fun _ a _ _ => (a.toInt.natAbs : Int)⟩]

/-- The signed range of `w` bits. -/
abbrev fits (w : Nat) (x : Int) : Prop := -(2 ^ (w - 1)) ≤ x ∧ x < 2 ^ (w - 1)

/-- A value limited to the signed range of `w` bits. -/
def limit (w : Nat) (x : Int) : Int := max (-(2 ^ (w - 1))) (min (2 ^ (w - 1) - 1) x)

/-- The components of complex lane `i`: I in the upper half (R210). -/
def re (q : Quad) (i : Nat) : Int := (q.extractLsb' (32 * i + 16) 16).toInt
def im (q : Quad) (i : Nat) : Int := (q.extractLsb' (32 * i) 16).toInt

/-- The product of two complex numbers, or of the first and the conjugate of the second, shifted right by 15 and rounded. -/
def cProduct (conj : Bool) (a b : Int × Int) : Int × Int :=
  let q := if conj then -b.2 else b.2
  (rneShift (a.1 * b.1 - a.2 * q) 15, rneShift (a.1 * q + a.2 * b.1) 15)

/-- The complex products: the instruction, conjugate, accumulating, and by lane 0 of wb (R224). -/
def complexOps : List ((Nat → Nat → Nat → Nat → Nat → Instr) × Bool × Bool × Bool) :=
  [(.cmul, false, false, false), (.cmac, false, true, false), (.cmulj, true, false, false), (.cmacj, true, true, false),
    (.cscal, false, false, true)]

/-- The eight samples of two registers, those of the first before those of the second. -/
def samples (q r : Quad) (k : Nat) : Int × Int := if k < 4 then (re q k, im q k) else (re r (k - 4), im r (k - 4))

/-- Mantissa pair `k` of a BF128 word. -/
def mantissa (q : Quad) (k : Nat) : Int × Int := ((q.extractLsb' (14 * k + 7) 7).toInt, (q.extractLsb' (14 * k) 7).toInt)

/-- Every component of eight samples fits exponent `e` (R225). -/
abbrev fitsExp (x : Nat → Int × Int) (e : Nat) : Prop := ∀ k, k < 8 → fits 7 (rneShift (x k).1 e) ∧ fits 7 (rneShift (x k).2 e)

/-- A BF128 word packs eight samples with flags (R225, R295): the least exponent that fits every component, or 9 with
saturation, rounded mantissas, and the CRC. -/
def packs (q : Quad) (flags : Nat) (x : Nat → Int × Int) : Prop :=
  let e := (q.extractLsb' 124 4).toNat
  (fitsExp x e ∨ (e = 9 ∧ ∀ j, j ≤ 9 → ¬fitsExp x j)) ∧ e ≤ 9 ∧ (∀ j, j < e → ¬fitsExp x j) ∧
    (q.extractLsb' 120 4).toNat = flags ∧ bfCrc q.toNat = (q.extractLsb' 112 8).toNat ∧
    ∀ k, k < 8 → mantissa q k = (limit 7 (rneShift (x k).1 e), limit 7 (rneShift (x k).2 e))

/-- Sample `k` of a BF128 word: zero where its exponent or its CRC is wrong (R225). -/
def unpacked (q : Quad) (k : Nat) : Int × Int :=
  let e := (q.extractLsb' 124 4).toNat
  if e ≤ 9 ∧ bfCrc q.toNat = (q.extractLsb' 112 8).toNat then ((mantissa q k).1 * 2 ^ e, (mantissa q k).2 * 2 ^ e) else (0, 0)

end Sys2Proof.Spec

/-- R210, R224: a lane instruction computes every lane of its view on its own, modulo the lane width or saturating, and SAT is
set where a lane saturates. -/
def Obligations.ZhovoLaneResults : Prop :=
  ∀ x ∈ laneOps, ∀ (n pr wd wa wb view w : Nat) (s : State), (view, w) ∈ [(0, 64), (1, 32), (2, 16)] → (x.one = true → wb = 0) →
    Issues s n pr [wd, wa, wb] → Ends (x.op n pr wd wa wb view) s fun t =>
      let h := s.blk.eng n
      let v := fun i => x.f w ((h.rd wa).extractLsb' (w * i) w) ((h.rd wb).extractLsb' (w * i) w) ((h.rd wa).extractLsb' 0 w)
      ∃ (q : Quad) (sat : Bool), (∀ i, i < 128 / w → q.extractLsb' (w * i) w = BitVec.ofInt w (if x.sat then limit w (v i) else v i)) ∧
        (sat = true ↔ x.sat = true ∧ ∃ i, i < 128 / w ∧ ¬fits w (v i)) ∧
        Retires s t n ({ h with sat := h.sat || sat }.wr wd q)

/-- R224: rounding after a right shift by k is to nearest, with ties to even. -/
def Sys2Proof.Spec.RoundingIsNearestTiesToEven : Prop :=
  ∀ (x : Int) (k : Nat),
    let d := fun y : Int => 2 * (x - y * 2 ^ k).natAbs
    d (rneShift x k) ≤ 2 ^ k ∧ (d (rneShift x k) = 2 ^ k → rneShift x k % 2 = 0) ∧
      ∀ y, (d y < 2 ^ k ∨ (d y = 2 ^ k ∧ y % 2 = 0)) → y = rneShift x k

/-- R224: the complex products round to nearest even after the shift by 15 and saturate, the accumulating ones saturate the sum
too; CPOW answers I² + Q² exactly, and CSUM the saturated sum of the lanes in lane 0. -/
def Obligations.ZhovoComplexResults : Prop :=
  ∀ (n pr wd wa wb : Nat) (s : State), Issues s n pr [wd, wa, wb] →
    let h := s.blk.eng n
    let a := h.rd wa
    (∀ x ∈ complexOps, Ends (x.1 n pr wd wa wb) s fun t => ∃ (q : Quad) (sat : Bool),
      let c := fun i => if x.2.2.2 then 0 else i
      let p := fun i => cProduct x.2.1 (re a i, im a i) (re (h.rd wb) (c i), im (h.rd wb) (c i))
      let r := fun i => ((if x.2.2.1 then re (h.rd wd) i else 0) + limit 16 (p i).1,
        (if x.2.2.1 then im (h.rd wd) i else 0) + limit 16 (p i).2)
      (∀ i, i < 4 → re q i = limit 16 (r i).1 ∧ im q i = limit 16 (r i).2) ∧
        (sat = true ↔ ∃ i, i < 4 ∧ ¬(fits 16 (p i).1 ∧ fits 16 (p i).2 ∧ fits 16 (r i).1 ∧ fits 16 (r i).2)) ∧
        Retires s t n ({ h with sat := h.sat || sat }.wr wd q)) ∧
    (wb = 0 → Ends (.cpow n pr wd wa wb) s fun t => ∃ q : Quad,
      (∀ i, i < 4 → ((q.extractLsb' (32 * i) 32).toNat : Int) = re a i * re a i + im a i * im a i) ∧ Retires s t n (h.wr wd q)) ∧
    (wb = 0 → Ends (.csum n pr wd wa wb) s fun t => ∃ (q : Quad) (sat : Bool),
      let z := (re a 0 + re a 1 + re a 2 + re a 3, im a 0 + im a 1 + im a 2 + im a 3)
      q.extractLsb' 32 96 = 0 ∧ re q 0 = limit 16 z.1 ∧ im q 0 = limit 16 z.2 ∧
        (sat = true ↔ ¬(fits 16 z.1 ∧ fits 16 z.2)) ∧ Retires s t n ({ h with sat := h.sat || sat }.wr wd q))

/-- R225, R295: BFPACK and BFNORM pack eight samples at the least exponent that fits, BFUNLO and BFUNHI unpack four, BFCHK
tells whether CRC and exponent are good, and BFFLAG puts new flags under a new CRC; an exponent above 9 sets BFERR. A block whose CRC
fails unpacks as zero too (R296). -/
def Obligations.ZhovoBlockFloatResults : Prop :=
  ∀ (n pr wd wa wb : Nat) (s : State), Issues s n pr [wd, wa, wb] →
    let h := s.blk.eng n
    let a := h.rd wa
    let err := { h with bferr := h.bferr || decide (9 < (a.extractLsb' 124 4).toNat) }
    (Ends (.bfpack n pr wd wa wb) s fun t => ∃ q, packs q 0 (samples a (h.rd wb)) ∧ Retires s t n (h.wr wd q)) ∧
    (∀ x ∈ [(Instr.bfunlo, 0), (Instr.bfunhi, 4)], wb = 0 → Ends (x.1 n pr wd wa wb) s fun t => ∃ q : Quad,
      (∀ i, i < 4 → (re q i, im q i) = unpacked a (x.2 + i)) ∧ Retires s t n (err.wr wd q)) ∧
    (wb = 0 → Ends (.bfnorm n pr wd wa wb) s fun t => ∃ q,
      packs q (a.extractLsb' 120 4).toNat (unpacked a) ∧ Retires s t n (err.wr wd q)) ∧
    (wb = 0 → wd < 8 → Ends (.bfchk n pr wd wa wb) s fun t => Retires s t n
      (h.setPred wd (decide (bfCrc a.toNat = (a.extractLsb' 112 8).toNat ∧ (a.extractLsb' 124 4).toNat ≤ 9)))) ∧
    Ends (.bfflag n pr wd wa wb) s fun t => ∃ q : Quad,
      q.extractLsb' 0 112 = a.extractLsb' 0 112 ∧ q.extractLsb' 124 4 = a.extractLsb' 124 4 ∧
        q.extractLsb' 120 4 = (h.rd64 wb).extractLsb' 0 4 ∧ bfCrc q.toNat = (q.extractLsb' 112 8).toNat ∧
        Retires s t n (h.wr wd q)

/-- R296: the CRC-8 of a BF128 word has the polynomial 0x07 and the initial value 0xFF, most significant bit first. Here: the
shift register's rule for one byte, and that a list is taken byte after byte. -/
def Sys2Proof.Spec.BlockFloatCrc : Prop :=
  crc8 [] = 0xFF ∧
    (∀ (l : List Nat) (x : Nat), (∀ y ∈ l ++ [x], y < 256) → crc8 l < 256 ∧ ∃ r : Nat → Nat,
      r 0 = crc8 l ^^^ x ∧ r 8 = crc8 (l ++ [x]) ∧
        ∀ i, i < 8 → r (i + 1) = ((r i * 2) % 256) ^^^ (if r i < 128 then 0 else 7)) ∧
    ∀ q, bfCrc q = crc8 (((q >>> 120) % 256) :: (List.range 14).map fun i => (q >>> (104 - 8 * i)) % 256)

/-- R296: the CRC covers bits [127:120] and [111:0]; a word whose CRC fails or whose exponent exceeds 9 unpacks as zero; a block of zeros has CRC
0x90, and an all-zero word fails the CRC. -/
def Sys2Proof.Spec.BlockFloatInvalid : Prop :=
  bfCrc 0 = 0x90 ∧ bfCrc (0x90 * 2 ^ 112) = 0x90 ∧ bfCrc 0 ≠ 0 ∧
    ∀ (n pr wd wa : Nat) (s : State), Issues s n pr [wd, wa] →
      let h := s.blk.eng n
      let a := h.rd wa
      (bfCrc a.toNat ≠ (a.extractLsb' 112 8).toNat ∨ 9 < (a.extractLsb' 124 4).toNat) →
        let err := { h with bferr := h.bferr || decide (9 < (a.extractLsb' 124 4).toNat) }
        (Ends (.bfunlo n pr wd wa 0) s fun t => Retires s t n (err.wr wd 0)) ∧ Ends (.bfunhi n pr wd wa 0) s fun t => Retires s t n (err.wr wd 0)

/-- R296: the CRC-8 of a BF128 word, and what fails it. -/
def Obligations.BlockFloatCrc : Prop := Sys2Proof.Spec.BlockFloatCrc ∧ BlockFloatInvalid

/-- R224: rounding to nearest with ties to even. -/
def Obligations.RoundingIsNearestTiesToEven : Prop := Sys2Proof.Spec.RoundingIsNearestTiesToEven

namespace Sys2Proof.Spec

/-- A load or store of `size` bytes at wa + sext(imm13) × size (R226). -/
def memAddr (h : EngH) (wa imm size : Nat) : Nat := (h.rd64 wa + (BitVec.ofNat 13 imm).signExtend 64 * BitVec.ofNat 64 size).toNat

/-- The word of an SRAM of engine `n` that holds a byte offset. -/
def sramWord (n off : Nat) : Nat := n * 32768 + off / 16

/-- The address lies in instruction or data SRAM at `off`, where code of the engine's privilege may load and store (R214, R215). -/
abbrev inSram (s : State) (n a : Nat) (r : Ram) (off : Nat) : Prop :=
  ((r = .imem ∧ off = a ∧ a < (if n < 32 then 0x20000 else 0x40000) ∧ (s.blk.eng n).sys = true) ∨
    (r = .dmem ∧ 0x100000 ≤ a ∧ off = a - 0x100000 ∧ off < (if n < 32 then 0x40000 else 0x80000) ∧
      ((s.blk.eng n).sys = true ∨ s.blk.fld (U.ce n) F.CE_PART_DSPLIT * 4096 ≤ off)))

/-- The half of a 16-byte word at an address. -/
def half (q : Quad) (a : Nat) : Word := q.extractLsb' (64 * (a / 8 % 2)) 64

/-- A context-store address of a cue engine (R216). -/
abbrev inCtx (n a x j : Nat) : Prop := n < 32 ∧ 0x1000000 ≤ a ∧ a < 0x2000000 ∧ x = (a - 0x1000000) / 64 ∧ j = (a - 0x1000000) / 16 % 4

end Sys2Proof.Spec

/-- R214, R215, R226: LD, LDS, ST and STS at an aligned address of instruction or data SRAM move 16 or 8 bytes; a store changes
these bytes and no others, and a load changes no memory. -/
def Obligations.ZhovoSramAccess : Prop :=
  ∀ (n pr wd wa imm a off : Nat) (r : Ram) (s : State), Issues s n pr [wd, wa] → n ≤ 32 → inSram s n a r off →
    let h := s.blk.eng n
    let i := sramWord n off
    (a = memAddr h wa imm 16 → a % 16 = 0 →
      (Ends (.ld n pr wd wa imm) s fun t => Retires s t n (h.wr wd (s.mem.rd r i))) ∧
      Ends (.st n pr wd wa imm) s fun t => t.mem.rd r i = h.rd wd ∧ EngineIs t n h (h.pc + 4) ∧
        Elsewhere s t n fun r' i' => r' == r && i' == i) ∧
    (a = memAddr h wa imm 8 → a % 8 = 0 →
      (Ends (.lds n pr wd wa imm) s fun t => Retires s t n (h.wr64 wd (half (s.mem.rd r i) a))) ∧
      Ends (.sts n pr wd wa imm) s fun t => half (t.mem.rd r i) a = h.rd64 wd ∧
        half (t.mem.rd r i) (a + 8) = half (s.mem.rd r i) (a + 8) ∧ EngineIs t n h (h.pc + 4) ∧
        Elsewhere s t n fun r' i' => r' == r && i' == i)

/-- R216, R241: a load from the context store reads the context's 16-byte word; a store of system code writes the image fields of a
FREE context and leaves the dispatcher's own, and at any other context it only sets CTXBUSY. -/
def Sys2Proof.Spec.ZhovoContextStoreAccess : Prop :=
  ∀ (n pr wd wa imm a x j : Nat) (s : State), Issues s n pr [wd, wa] → inCtx n a x j → a = memAddr (s.blk.eng n) wa imm 16 → a % 16 = 0 →
    let h := s.blk.eng n
    let c := s.blk.ctx x
    ((h.sys = true ∨ (c.origin = s.blk.fld (U.ce n) F.CE_CFG_ORIGIN ∧ c.sys = false)) →
      Ends (.ld n pr wd wa imm) s fun t => Retires s t n (h.wr wd (c.quad j))) ∧
    (h.sys = true → c.state = Cue.free → Ends (.st n pr wd wa imm) s fun t =>
      EngineIs t n h (h.pc + 4) ∧ t.blk.ctx x = c.putQuad j (h.rd wd) ∧ (∀ y, y ≠ x → t.blk.ctx y = s.blk.ctx y) ∧
        (∀ k, k ≠ n → t.blk.eng k = s.blk.eng k) ∧ RegsKept s t (fun u _ => u == U.ce n || u == U.tally) ∧
        MemKept s t fun r _ => r == .tracer) ∧
    (h.sys = true → c.state ≠ Cue.free → Ends (.st n pr wd wa imm) s fun t => Retires s t n { h with ctxbusy := true })

/-- R241: the 64 bytes of a context: stamp, target, action, control, tolerance, origin, privilege, period, count, state, result,
lateness, occurrence and arguments each stand at their bytes, for fields within their widths. -/
def Sys2Proof.Spec.ContextImageFields : Prop :=
  ∀ c : Ctx, c.target < 2 ^ 16 → c.action < 2 ^ 8 → c.ctrl < 2 ^ 8 → c.tol < 2 ^ 16 → c.origin < 2 ^ 15 → c.period < 2 ^ 32 →
    c.count < 2 ^ 16 → c.state < 2 ^ 8 → c.result < 2 ^ 8 → c.lateness < 2 ^ 32 → c.occ < 2 ^ 32 →
      let q := c.quad
      (q 0).extractLsb' 0 64 = c.stamp ∧ ((q 0).extractLsb' 64 16).toNat = c.target ∧ ((q 0).extractLsb' 80 8).toNat = c.action ∧
        ((q 0).extractLsb' 88 8).toNat = c.ctrl ∧ ((q 0).extractLsb' 96 16).toNat = c.tol ∧
        ((q 0).extractLsb' 112 15).toNat = c.origin ∧ (q 0).getLsbD 127 = c.sys ∧ ((q 1).extractLsb' 0 32).toNat = c.period ∧
        ((q 1).extractLsb' 32 16).toNat = c.count ∧ ((q 1).extractLsb' 48 8).toNat = c.state ∧
        ((q 1).extractLsb' 56 8).toNat = c.result ∧ ((q 1).extractLsb' 64 32).toNat = c.lateness ∧
        ((q 1).extractLsb' 96 32).toNat = c.occ ∧ q 2 = c.args.extractLsb' 0 128 ∧ q 3 = c.args.extractLsb' 128 128 ∧
        Ctx.image q = { Ctx.init with stamp := c.stamp, target := c.target, action := c.action, ctrl := c.ctrl, tol := c.tol
                                      period := c.period, count := c.count, args := c.args }

namespace Sys2Proof.Spec

/-- An instruction retires with the engine as `h` and control at `pc`. -/
def Jumps (s t : State) (n : Nat) (h : EngH) (pc : Word) : Prop := EngineIs t n h pc ∧ Elsewhere s t n fun _ _ => false

/-- Exception entry of an engine that stood as `h` (R235), with the return address `epc`. -/
def Entered (s t : State) (n : Nat) (h : EngH) (cause detail : Nat) (val epc : Word) : Prop :=
  t.blk.eng n = { h with
    epc := epc, ecause := BitVec.ofNat 64 (cause + detail * 256), evalue := val, psys := h.sys, sys := true, inexc := true
    pc := s.blk.vec n, wdFrom := s.blk.t, req := h.req || h.reqs != 0, blocked := none }

/-- The target of a branch at `pc` (R220). -/
def branchTo (pc : Word) (off : Nat) : Word := pc + (BitVec.ofNat 23 off).signExtend 64 * 4

/-- The tracer of engine `n` writes an entry for TRACE: it runs, the engine is enabled, and no other entry is of this cycle. -/
abbrev traceOn (s : State) (n : Nat) : Prop :=
  n < 32 ∧ s.blk.flag U.tally (F.TR_CTRL_RUN (n / 8)) = true ∧ (s.blk.fld U.tally (F.TR_CTRL_ENG (n / 8)) >>> (n % 8)) % 2 = 1 ∧
    (Store.get TrLast.init s.blk.tally.last (n / 8)).cycle ≠ s.blk.t / 2 + 1

end Sys2Proof.Spec

/-- R230: BR and CALL go to their own address plus offset23 × 4, JR and JRL to wa, a multiple of 4; CALL and JRL leave the return
address in w31. -/
def Sys2Proof.Spec.ZhovoControlFlow : Prop :=
  ∀ (n pr wa off : Nat) (s : State), Issues s n pr [wa, 31] → off < 2 ^ 23 →
    let h := s.blk.eng n
    (Ends (.br n pr off) s fun t => Jumps s t n h (branchTo h.pc off)) ∧
    (Ends (.call n pr off) s fun t => Jumps s t n (h.wr64 31 (h.pc + 4)) (branchTo h.pc off)) ∧
    ((h.rd64 wa).toNat % 4 = 0 → (Ends (.jr n pr 0 wa 0) s fun t => Jumps s t n h (h.rd64 wa)) ∧
      Ends (.jrl n pr 0 wa 0) s fun t => Jumps s t n (h.wr64 31 (h.pc + 4)) (h.rd64 wa))

/-- R38, R231, R236, R387: KICK restarts the watchdog; FENCE retires once nothing is outstanding; ERET goes to epc with the privilege PSYS and
leaves the handler, but to user code of the tracker's engine it meets HOST_REQ with STOP; HALT stops the engine, whose unit reads READY; TRACE writes one tracer entry with its word, or nothing while the
tracer is off. -/
def Sys2Proof.Spec.ZhovoSystemInstructions : Prop :=
  ∀ (n pr imm : Nat) (s : State), Issues s n pr [] →
    let h := s.blk.eng n
    (Ends (.kick n pr 0 0 0) s fun t => Retires s t n { h with wdFrom := s.blk.t }) ∧
    (h.posts = [] → (∀ x ∈ h.dma, x.2.busy = false) → Ends (.fenceZ n pr 0 0 0) s fun t => Retires s t n h) ∧
    (h.sys = true → (n = 32 → h.psys = true) →
      (s.blk.trackerOn n = true → h.psys = true ∧ s.blk.flag (U.ce n) F.CE_USER_CTRL_RUN = false) → Ends (.eret n pr 0 0 0) s fun t =>
        Jumps s t n { h with sys := h.psys, inexc := false, wdFrom := s.blk.t } h.epc) ∧
    (h.sys = true → h.psys = false → n < 32 → s.blk.trackerOn n = true → Ends (.eret n pr 0 0 0) s fun t => ∃ samp,
      Entered s t n { h with samp := samp, sys := false, inexc := false } 10 2 0 h.epc ∧ t.blk.flag (U.ce n) F.CE_USER_CTRL_RUN = false) ∧
    (h.sys = true → n ≤ 32 → Ends (.halt n pr 0 0 0) s fun t =>
      EngineIs t n { h with running := false } (h.pc + 4) ∧ t.blk.ownState (U.ce n) = 1 ∧
        (∀ k, k ≠ n → t.blk.eng k = s.blk.eng k) ∧ t.blk.ctxs = s.blk.ctxs ∧
        RegsKept s t (fun u _ => u == U.ce n || u == U.tally || (s.blk.groupsOver (U.ce n)).contains u) ∧
        MemKept s t fun r _ => r == .tracer) ∧
    (pr < 8 → imm < 8192 → (Ends (.trace n pr 0 0 imm) s fun t => Retires s t n h) ∧
      (traceOn s n → Ends (.trace n pr 0 0 imm) s fun t =>
        let i := n / 8 * 4096 + s.blk.fld U.tally (F.TR_STAT_WPTR (n / 8))
        ((t.mem.rd .tracer i).extractLsb' 0 32).toNat = 0x31 * 2 ^ 26 + pr * 2 ^ 13 + imm ∧
          ((t.mem.rd .tracer i).extractLsb' 48 5).toNat = n ∧
          MemKept s t fun r i' => r == .tracer && i' == i) ∧
      (n < 32 → s.blk.flag U.tally (F.TR_CTRL_RUN (n / 8)) = false → Ends (.trace n pr 0 0 imm) s fun t => MemSame s t))

/-- R231, R236, R387: KICK, FENCE, ERET, HALT and TRACE. -/
def Obligations.ZhovoSystemInstructions : Prop := Sys2Proof.Spec.ZhovoSystemInstructions

namespace Sys2Proof.Spec

/-- A CORRECTED fault is reported at `u`: the class bit, CORR_CNT and the interrupt cause, and nothing beside the pages of `u` and
of the root. -/
def Corrected (s t : State) (u : Nat) : Prop :=
  t.blk.flag u F.UNIT_FAULT_CORRECTED = true ∧
    t.blk.fld u F.UNIT_FAULT_CORR_CNT = min (2 ^ (F.UNIT_FAULT_CORR_CNT.hi + 1 - F.UNIT_FAULT_CORR_CNT.lo) - 1)
      (s.blk.fld u F.UNIT_FAULT_CORR_CNT + 1) ∧
    (t.blk.reg u R.UNIT_IRQ_STAT).getLsbD 1 = true

/-- A fault of user code of CE `n`: entry with the faulting address, the latch, the count and ZH_USER_EXC (R235). -/
def UserFault (s t : State) (n cause detail : Nat) (val : Word) : Prop :=
  let h := s.blk.eng n
  let u := U.ce n
  Entered s t n h cause detail val h.pc ∧ t.blk.reg u R.CE_EXC = BitVec.ofNat 64 (cause + detail * 256) ∧
    t.blk.reg u R.CE_EXC_PC = h.pc ∧ t.blk.reg u R.CE_EXC_VAL = val ∧
    t.blk.fld u F.CE_STAT_EXC_CNT = (s.blk.fld u F.CE_STAT_EXC_CNT + 1) % 2 ^ (F.CE_STAT_EXC_CNT.hi + 1 - F.CE_STAT_EXC_CNT.lo) ∧
    Corrected s t u ∧ (t.blk.reg u R.UNIT_IRQ_STAT).getLsbD 16 = true ∧ (∀ k, k ≠ n → t.blk.eng k = s.blk.eng k) ∧
    t.blk.ctxs = s.blk.ctxs ∧ RegsKept s t (fun v _ => v == u || v == 0) ∧ MemSame s t

/-- A fault in system code or in a handler of CE `n`: the engine stops, CE_EXC latches it with SYS = 1, and the unit is FENCED with
ZH_SYS_FAULT (R236). -/
def SystemStop (s t : State) (n cause detail : Nat) (val : Word) : Prop :=
  let u := U.ce n
  (t.blk.eng n).running = false ∧ (t.blk.eng n).w = (s.blk.eng n).w ∧ (t.blk.eng n).pc = (s.blk.eng n).pc ∧
    t.blk.reg u R.CE_EXC = BitVec.ofNat 64 (cause + detail * 256 + 2 ^ 16) ∧ t.blk.reg u R.CE_EXC_PC = (s.blk.eng n).pc ∧
    t.blk.reg u R.CE_EXC_VAL = val ∧ (s.blk.ownState u ≠ 6 → t.blk.ownState u = 4) ∧
    t.blk.flag u F.UNIT_FAULT_CONTAINED = true ∧ (t.blk.reg u R.UNIT_IRQ_STAT).getLsbD 17 = true ∧
    (∀ k, k ≠ n → t.blk.eng k = s.blk.eng k) ∧ t.blk.ctxs = s.blk.ctxs ∧ t.blk.rings = s.blk.rings ∧ MemSame s t

/-- CE `n` fetches an instruction under a true predicate. -/
abbrev Fetches (s : State) (n pr : Nat) : Prop :=
  Settled s ∧ n < 32 ∧ s.blk.engLive n = true ∧ s.blk.fetchOk n (s.blk.eng n).pc = true ∧ (s.blk.eng n).pred pr = true

/-- Engine `n` waits for none of its UGETs. -/
abbrev NoGets (s : State) (n : Nat) : Prop := (s.blk.eng n).gets = []

/-- The faults that an instruction raises on some operands (R213, R220, R224, R226 to R230, R234): the instruction, the condition,
the cause, the detail and the value. -/
inductive Faulting (s : State) (n pr : Nat) : Instr → Nat → Nat → Word → Prop where
  | unusedClz (wd wa wb) : wb ≠ 0 → Faulting s n pr (.clz n pr wd wa wb) 1 2 (BitVec.ofNat 64 (insnA 0x00 wd wa wb pr 0x0F))
  | unusedCmp (wd wa wb) : 8 ≤ wd → Faulting s n pr (.cmpLt n pr wd wa wb) 1 2 (BitVec.ofNat 64 (insnA 0x01 wd wa wb pr 0x02))
  | unusedShift (wd wa imm) : 64 ≤ imm → Faulting s n pr (.shli n pr wd wa imm) 1 2 (BitVec.ofNat 64 (insnI 0x0C wd wa pr imm))
  | view (wd wa wb) : NoGets s n → Faulting s n pr (.ladd n pr wd wa wb 3) 1 1 (BitVec.ofNat 64 (insnA 0x02 wd wa wb pr 0xC0))
  | readOnly (wa) : NoGets s n → Faulting s n pr (.mts n pr 0 wa 0 0) 1 3 (BitVec.ofNat 64 (insnA 0x05 0 wa 0 pr 0x80))
  | privileged : (s.blk.eng n).sys = false → Faulting s n pr (.halt n pr 0 0 0) 1 3 (BitVec.ofNat 64 (insnA 0x30 0 0 0 pr 5))
  | eret : (s.blk.eng n).sys = false → Faulting s n pr (.eret n pr 0 0 0) 1 3 (BitVec.ofNat 64 (insnA 0x30 0 0 0 pr 2))
  | stamp (wd wa wb) : NoGets s n → stampValid ((s.blk.eng n).rd64 wa) = false →
      Faulting s n pr (.airadd n pr wd wa wb) 1 4 ((s.blk.eng n).rd64 wa)
  | waitStamp (wd wa) : NoGets s n → stampValid ((s.blk.eng n).rd64 wa) = false →
      Faulting s n pr (.waitat n pr wd wa 0) 1 4 ((s.blk.eng n).rd64 wa)
  | entryRegs (wd c) : NoGets s n → (wd % 4 ≠ 0 ∨ wd = 0) → c < 8 →
      Faulting s n pr (.rpopB n pr wd 0 0 c) 1 5 (BitVec.ofNat 64 (insnA 0x1A wd 0 0 pr c))
  | swapTarget (wd wa wb) : NoGets s n → stampValid ((s.blk.eng n).rd64 wb) = true →
      kindOf (((s.blk.eng n).rd64 wa).toNat % 2 ^ 16) ∉ [5, 7] →
      Faulting s n pr (.swapmodel n pr wd wa wb) 1 7 (BitVec.ofNat 64 (insnA 0x20 wd wa wb pr 5))
  | unit (wd wa wb u) : NoGets s n → u = ((s.blk.eng n).rd64 wa).toNat % 2 ^ 16 → (s.blk.eng n).sys = false →
      s.blk.maskMay n true u = false → Faulting s n pr (.uput n pr wd wa wb) 2 1 (BitVec.ofNat 64 u)
  | space (wd wa imm a) : NoGets s n → a = memAddr (s.blk.eng n) wa imm 16 → 0x140000 ≤ a → a < 0x1000000 →
      Faulting s n pr (.ld n pr wd wa imm) 2 2 (BitVec.ofNat 64 a)
  | systemData (wd wa imm a) : NoGets s n → a = memAddr (s.blk.eng n) wa imm 8 → a < 0x20000 → (s.blk.eng n).sys = false →
      Faulting s n pr (.sts n pr wd wa imm) 2 2 (BitVec.ofNat 64 a)
  | misaligned (wd wa imm a off) : NoGets s n → a = memAddr (s.blk.eng n) wa imm 16 → inSram s n a .dmem off → a % 16 ≠ 0 →
      Faulting s n pr (.st n pr wd wa imm) 3 1 (BitVec.ofNat 64 a)
  | jump (wa) : NoGets s n → ((s.blk.eng n).rd64 wa).toNat % 4 ≠ 0 → Faulting s n pr (.jr n pr 0 wa 0) 3 3 ((s.blk.eng n).rd64 wa)
  | offset (wd wa wb) : NoGets s n → ((s.blk.eng n).sys = true ∨ s.blk.maskMay n false (((s.blk.eng n).rd64 wa).toNat % 2 ^ 16) = true) →
      ((s.blk.eng n).rd64 wb).toNat % 8 ≠ 0 →
      Faulting s n pr (.uget n pr wd wa wb) 3 4 (BitVec.ofNat 64 (((s.blk.eng n).rd64 wb).toNat % 2 ^ 10))
  | cursor (wd c) : NoGets s n → wd % 4 = 0 → wd ≠ 0 → c < 8 → (Store.get 0 (s.blk.eng n).cur c).getLsbD 16 = false →
      Faulting s n pr (.rpushN n pr wd 0 0 c) 4 1 (BitVec.ofNat 64 ((Store.get 0 (s.blk.eng n).cur c).toNat % 2 ^ 14))
  | ringClass (wd c) : NoGets s n → wd % 4 = 0 → wd ≠ 0 → c < 8 → (Store.get 0 (s.blk.eng n).cur c).getLsbD 16 = true →
      ((Store.get 0 (s.blk.eng n).cur c).extractLsb' 17 2).toNat = 1 →
      Faulting s n pr (.rpushB n pr wd 0 0 c) 4 2 (BitVec.ofNat 64 ((Store.get 0 (s.blk.eng n).cur c).toNat % 2 ^ 14))

end Sys2Proof.Spec

/-- R234, R235: a fault of user code enters the handler at CE_VEC with the faulting address, cause, detail and value, latches them
into CE_EXC, adds one to EXC_CNT and raises ZH_USER_EXC; the instruction itself has no effect. -/
def Obligations.ZhovoUserFaults : Prop :=
  ∀ (n pr : Nat) (s : State) (i : Instr) (cause detail : Nat) (val : Word), Fetches s n pr → (s.blk.eng n).sys = false →
    (s.blk.eng n).inexc = false → Faulting s n pr i cause detail val → Ends i s fun t => UserFault s t n cause detail val

/-- R236: the same faults in system code or inside a handler stop the engine and fence its unit. -/
def Obligations.ZhovoSystemFaultsStop : Prop :=
  ∀ (n pr : Nat) (s : State) (i : Instr) (cause detail : Nat) (val : Word), Fetches s n pr →
    ((s.blk.eng n).sys = true ∨ (s.blk.eng n).inexc = true) → Faulting s n pr i cause detail val →
      Ends i s fun t => SystemStop s t n cause detail val

/-- R215, R235: a fetch outside the region of the running privilege raises DENIED with detail 5, whatever the instruction; here at
ADD, ADDI, BR, LD and ARM. -/
def Sys2Proof.Spec.ZhovoFetchDenied : Prop :=
  ∀ (n pr wd wa wb imm : Nat) (s : State), Settled s → n < 32 → s.blk.engLive n = true →
    s.blk.fetchOk n (s.blk.eng n).pc = false → (s.blk.eng n).inexc = false → (s.blk.eng n).sys = false →
      ∀ i ∈ [Instr.add n pr wd wa wb, .addi n pr wd wa imm, .br n pr imm, .ld n pr wd wa imm, .arm n pr wd wa wb],
        Ends i s fun t => UserFault s t n 2 5 (s.blk.eng n).pc

/-- R215, R217: what code of each privilege of a cue engine may fetch: system code below the split, user code at or above it,
both inside the 128 KiB of instruction SRAM. -/
def Sys2Proof.Spec.ZhovoFetchRegions : Prop :=
  ∀ (b : Block) (n : Nat) (pc : Word), n < 32 →
    (b.fetchOk n pc = true ↔ pc.toNat < 0x20000 ∧
      ((b.eng n).sys = true ↔ pc.toNat < b.fld (U.ce n) F.CE_PART_ISPLIT * 4096))

/-- R231, R235: TRAP and SYSCALL retire and enter the handler with epc at the next instruction and evalue from wa; they latch nothing
into CE_EXC and raise no fault. -/
def Obligations.ZhovoTrapAndSyscall : Prop :=
  ∀ (n pr wa : Nat) (s : State), Issues s n pr [wa] → n < 32 → (s.blk.eng n).inexc = false →
    ∀ x ∈ [(Instr.trap n pr 0 wa 0, 9), (Instr.syscall n pr 0 wa 0, 8)], Ends x.1 s fun t => ∃ samp,
      let h := { s.blk.eng n with samp := samp }
      Entered s t n h x.2 0 (h.rd64 wa) (h.pc + 4) ∧
        t.blk.reg (U.ce n) R.CE_EXC = s.blk.reg (U.ce n) R.CE_EXC ∧ t.blk.reg (U.ce n) R.UNIT_FAULT = s.blk.reg (U.ce n) R.UNIT_FAULT ∧
        Elsewhere s t n fun _ _ => false

/-- R215: where code of each privilege may fetch, and DENIED elsewhere. -/
def Obligations.ZhovoFetch : Prop := ZhovoFetchDenied ∧ ZhovoFetchRegions

/-- R216: user code that loads a context of another origin or privilege, or stores to the context store, takes DENIED with detail 2. -/
def Sys2Proof.Spec.ZhovoContextStoreDenied : Prop :=
  ∀ (n pr wd wa imm a x j : Nat) (s : State), Issues s n pr [wd, wa] → inCtx n a x j → a = memAddr (s.blk.eng n) wa imm 16 → a % 16 = 0 →
    (s.blk.eng n).sys = false → (s.blk.eng n).inexc = false →
      (¬((s.blk.ctx x).origin = s.blk.fld (U.ce n) F.CE_CFG_ORIGIN ∧ (s.blk.ctx x).sys = false) →
        Ends (.ld n pr wd wa imm) s fun t => UserFault s t n 2 2 (BitVec.ofNat 64 a)) ∧
      Ends (.st n pr wd wa imm) s fun t => UserFault s t n 2 2 (BitVec.ofNat 64 a)

/-- R216, R241: loads from and stores to the context store, what user code is denied there, and the places of a context's fields. -/
def Obligations.ZhovoContextStore : Prop := ZhovoContextStoreAccess ∧ ZhovoContextStoreDenied ∧ ContextImageFields

/-- R230: BR and CALL under a false predicate go on by 4, and a JR or JRL target that is no multiple of 4 raises MISALIGNED with detail 3, in user code
and in system code. -/
def Sys2Proof.Spec.ZhovoJumpFaults : Prop :=
  ∀ (n pr wa off : Nat) (s : State),
    (Settled s → s.blk.engLive n = true → s.blk.fetchOk n (s.blk.eng n).pc = true → (s.blk.eng n).pred pr = false →
      (Ends (.br n pr off) s fun t => Retires s t n (s.blk.eng n)) ∧ Ends (.call n pr off) s fun t => Retires s t n (s.blk.eng n)) ∧
    ∀ i ∈ [Instr.jr n pr 0 wa 0, .jrl n pr 0 wa 0], Issues s n pr [wa] → n < 32 → ((s.blk.eng n).rd64 wa).toNat % 4 ≠ 0 →
      ((s.blk.eng n).sys = false → (s.blk.eng n).inexc = false → Ends i s fun t => UserFault s t n 3 3 ((s.blk.eng n).rd64 wa)) ∧
      ((s.blk.eng n).sys = true ∨ (s.blk.eng n).inexc = true → Ends i s fun t => SystemStop s t n 3 3 ((s.blk.eng n).rd64 wa))

/-- R230: the control-flow instructions, their misaligned targets, and a target outside the fetch region, denied when it is fetched. -/
def Obligations.ZhovoControlFlow : Prop := Sys2Proof.Spec.ZhovoControlFlow ∧ ZhovoJumpFaults ∧ ZhovoFetchDenied

namespace Sys2Proof.Spec

/-- Engine `n` runs and holds at a blocked operation. -/
abbrev Held (s : State) (n : Nat) (k : Blk) : Prop :=
  Settled s ∧ (s.blk.eng n).running = true ∧ (s.blk.eng n).paused = false ∧ s.blk.inReset = false ∧ (s.blk.eng n).blocked = some k

/-- An instruction blocks: the engine stands where it stood, and nothing else changes. -/
def Blocks (s t : State) (n : Nat) (k : Blk) : Prop :=
  (∃ insn, t.blk.eng n = { s.blk.eng n with blocked := some k, blockAt := s.blk.t, insn := insn }) ∧
    (∀ j, j ≠ n → t.blk.eng j = s.blk.eng j) ∧ t.blk.regs = s.blk.regs ∧ t.blk.ctxs = s.blk.ctxs ∧ t.blk.rings = s.blk.rings ∧
    MemSame s t

/-- A blocked instruction completes with the engine as `h`; it restarts the watchdog (R236). -/
def Resumes (s t : State) (n : Nat) (h : EngH) : Prop :=
  EngineIs t n { h with blocked := none, wdFrom := s.blk.t } ((s.blk.eng n).pc + 4) ∧ Elsewhere s t n fun _ _ => false

/-- The unit and offset of a unit access (R228). -/
def unitOf (h : EngH) (wa : Nat) : Nat := (h.rd64 wa).toNat % 2 ^ 16
def offsetOf (h : EngH) (wb : Nat) : Nat := (h.rd64 wb).toNat % 2 ^ 10

/-- The writer that engine `n` is at a privilege. -/
def asWriter (n : Nat) (sys : Bool) : Who := if n < 32 then .engine n sys else .warden

end Sys2Proof.Spec

/-- R218, R228: UGET asks for a register and UPUT posts a write of it, where the mask of user code allows the unit and the offset is a
multiple of 8; UPUT blocks on a full buffer of 16 and goes on when an entry frees. -/
def Sys2Proof.Spec.ZhovoUnitAccess : Prop :=
  ∀ (n pr wd wa wb u off : Nat) (s : State), Issues s n pr [wd, wa, wb] → u = unitOf (s.blk.eng n) wa →
    off = offsetOf (s.blk.eng n) wb → off % 8 = 0 →
    let h := s.blk.eng n
    let v := h.rd64 wd
    ((h.sys = true ∨ s.blk.maskMay n false u = true) → Ends (.uget n pr wd wa wb) s fun t => Retires s t n
      { h with gets := h.gets ++ [{ wd := wd, uid := u, off := off, sys := h.sys, seq := h.seq }], seq := h.seq + 1 }) ∧
    ((h.sys = true ∨ s.blk.maskMay n true u = true) →
      (h.posts.length < 16 → Ends (.uput n pr wd wa wb) s fun t => Retires s t n
        { h with posts := h.posts ++ [{ uid := u, off := off, v := v, sys := h.sys, seq := h.seq }], seq := h.seq + 1 }) ∧
      (16 ≤ h.posts.length → Ends (.uput n pr wd wa wb) s fun t => Blocks s t n (.uput u off v)))

/-- R228: a blocked UPUT posts its write when an entry frees; the oldest posted write reaches its unit as the register write of its
engine; a UGET whose earlier writes to the unit have arrived takes the register's value, here at units whose reads have no effect. -/
def Sys2Proof.Spec.ZhovoUnitAccessArrives : Prop :=
  ∀ (n : Nat) (s : State), Settled s →
    let h := s.blk.eng n
    (∀ u off v, Held s n (.uput u off v) → h.posts.length < 16 → Ends (.uputWake n) s fun t => Resumes s t n
      { h with posts := h.posts ++ [{ uid := u, off := off, v := v, sys := h.sys, seq := h.seq }], seq := h.seq + 1 }) ∧
    (∀ p rest, h.posts = p :: rest → ∃ t, exec (.uputArrive n) s = .next t ∧
      exec (.registerWrite (asWriter n p.sys) p.uid p.off .both p.v) { s with blk := s.blk.setEng n { h with posts := rest } } = .next t) ∧
    ∀ g rest, h.gets = g :: rest → (∀ p ∈ h.posts, p.uid = g.uid → g.seq ≤ p.seq) → (∀ x ∈ rest, x.seq ≠ g.seq) →
      kindOf g.uid ∉ [0x06, 0x07, 0x0F, 0x12, 0x15] → Ends (.ugetDone n) s fun t =>
        t.blk.eng n = { h with gets := rest }.wr64 g.wd (s.blk.readReg s.mem (asWriter n g.sys) g.uid g.off) ∧
          (∀ k, k ≠ n → t.blk.eng k = s.blk.eng k) ∧ t.blk.regs = s.blk.regs ∧ t.blk.ctxs = s.blk.ctxs ∧ MemSame s t

namespace Sys2Proof.Spec

/-- The DMA descriptor at an address of data SRAM (R227): source and destination addresses, length and spaces. -/
abbrev descAt (s : State) (n a : Nat) (d : DmaH) : Prop :=
  let q0 := s.mem.rd .dmem (sramWord n (a - 0x100000))
  let q1 := s.mem.rd .dmem (sramWord n (a - 0x100000 + 16))
  d.src = (q0.extractLsb' 0 64).toNat ∧ d.dst = (q0.extractLsb' 64 64).toNat ∧ d.len = (q1.extractLsb' 0 32).toNat ∧
    d.srcSp = (q1.extractLsb' 32 4).toNat ∧ d.dstSp = (q1.extractLsb' 36 4).toNat ∧
    d.func = (if (s.blk.eng n).sys = true ∨ 32 ≤ n then 0 else s.blk.fld (U.ce n) F.CE_CFG_FUNC) ∧ d.busy = true ∧ d.result = 0

/-- A transfer that DMAGO takes (R227): windows that allow it, alignment to 32 bytes, and a length of 32 bytes to 16 MiB. -/
abbrev goodDma (s : State) (n : Nat) (d : DmaH) : Prop :=
  s.blk.dmaOk n (s.blk.eng n).sys false d.srcSp d.src d.len = true ∧ s.blk.dmaOk n (s.blk.eng n).sys true d.dstSp d.dst d.len = true ∧
    d.src % 32 = 0 ∧ d.dst % 32 = 0 ∧ d.len % 32 = 0 ∧ 0 < d.len ∧ d.len ≤ 2 ^ 24

/-- A transfer starts under a tag that is free; which one, the spec leaves open. -/
def Starts (s t : State) (n wd : Nat) (d : DmaH) (P : EngH → Prop) : Prop :=
  ∃ tag, tag < 16 ∧ (Store.get DmaH.init (s.blk.eng n).dma tag).busy = false ∧
    P ({ s.blk.eng n with dma := Store.set DmaH.init (s.blk.eng n).dma tag d }.wr64 wd (BitVec.ofNat 64 tag)) ∧
      Elsewhere s t n fun _ _ => false

end Sys2Proof.Spec

/-- R227: DMAGO starts the transfer that an aligned descriptor in data SRAM describes and answers its tag, or blocks with 16
outstanding; DMAPOLL and DMAWAIT tell its end and its result, and DMAWAIT blocks until then. The tag is a free value. -/
def Sys2Proof.Spec.ZhovoDmaInstructions : Prop :=
  ∀ (n pr wd wa a : Nat) (s : State), Issues s n pr [wd, wa] →
    let h := s.blk.eng n
    let tag := (h.rd64 wa).toNat % 16
    (∀ d off, a = (h.rd64 wa).toNat → inSram s n a .dmem off → off + 32 ≤ (if n < 32 then 0x40000 else 0x80000) → a % 32 = 0 →
      descAt s n a d → goodDma s n d →
      (h.dmaBusy < 16 → Ends (.dmago n pr wd wa 0) s fun t => Starts s t n wd d fun g => EngineIs t n g (h.pc + 4)) ∧
      (h.dmaBusy = 16 → Ends (.dmago n pr wd wa 0) s fun t => Blocks s t n (.dmago wd d))) ∧
    (wd < 8 → Ends (.dmapoll n pr wd wa 0) s fun t =>
      Retires s t n (h.setPred wd (!(Store.get DmaH.init h.dma tag).busy))) ∧
    ((Store.get DmaH.init h.dma tag).busy = false → Ends (.dmawait n pr wd wa 0) s fun t =>
      Retires s t n (h.wr64 wd (BitVec.ofNat 64 (Store.get DmaH.init h.dma tag).result))) ∧
    ((Store.get DmaH.init h.dma tag).busy = true → Ends (.dmawait n pr wd wa 0) s fun t => Blocks s t n (.dmawait wd tag))

/-- R227, R231: a blocked DMAGO starts when a transfer has ended, a blocked DMAWAIT answers its result, and a blocked FENCE goes on
when nothing is outstanding. -/
def Sys2Proof.Spec.ZhovoDmaWakes : Prop :=
  ∀ (n : Nat) (s : State),
    let h := s.blk.eng n
    (∀ wd d, Held s n (.dmago wd d) → h.dmaBusy < 16 → Ends (.dmagoWake n) s fun t => Starts s t n wd d fun g =>
        EngineIs t n { g with blocked := none, wdFrom := s.blk.t } (h.pc + 4)) ∧
    (∀ wd tag, Held s n (.dmawait wd tag) → (Store.get DmaH.init h.dma tag).busy = false → Ends (.dmawaitWake n) s fun t =>
      Resumes s t n (h.wr64 wd (BitVec.ofNat 64 (Store.get DmaH.init h.dma tag).result))) ∧
    (Held s n .fence → h.posts = [] → (∀ x ∈ h.dma, x.2.busy = false) → Ends (.fenceWake n) s fun t => Resumes s t n h)

/-- R227: a transfer that ends well has moved its bytes from HBM to data SRAM, and from data SRAM to host memory in one write; its tag
reads ended with result 0, and nothing else of the engine changes. -/
def Sys2Proof.Spec.ZhovoDmaMovesData : Prop :=
  ∀ (n tag data off : Nat) (s : State) (d : DmaH), Settled s → n ≤ 32 → d = Store.get DmaH.init (s.blk.eng n).dma tag → d.busy = true →
    let h := s.blk.eng n
    let done := { h with dma := Store.set DmaH.init h.dma tag { d with busy := false, result := 0 } }
    (d.srcSp = 2 → d.dstSp = 0 → d.dst = 0x100000 + off → off % 16 = 0 → off + d.len ≤ 0x80000 → s.blk.hbmBad d.src d.len = false →
      Ends (.dmaDone n tag data false) s fun t => t.blk.eng n = done ∧ t.blk.regs = s.blk.regs ∧
        (∀ j, j < d.len / 16 → t.mem.rd .dmem (sramWord n off + j) = BitVec.ofNat 128 (s.mem.rdBytes (d.src + 16 * j) 16)) ∧
        MemKept s t fun r i => r == .dmem && decide (sramWord n off ≤ i) && decide (i < sramWord n off + d.len / 16)) ∧
    (d.srcSp = 0 → d.dstSp = 3 → d.src = 0x100000 + off → 16 ≤ d.len → Ends (.dmaDone n tag data false) s fun t =>
      t.blk.eng n = done ∧ t.blk.regs = s.blk.regs ∧ MemSame s t ∧ ∃ v, t.blk.hostOut = s.blk.hostOut ++
        [{ func := d.func, addr := d.dst, len := 16 * (d.len / 16), data := v }] ∧
        ∀ j, j < d.len / 16 → v / 2 ^ (128 * j) % 2 ^ 128 = (s.mem.rd .dmem (sramWord n off + j)).toNat)

namespace Sys2Proof.Spec

/-- A cursor of engine `n` names ring `r` of a class in a list (R213, R229). -/
abbrev Cursor (s : State) (n c r : Nat) (classes : List Nat) : Prop :=
  let v := Store.get 0 (s.blk.eng n).cur c
  v.getLsbD 16 = true ∧ r = v.toNat % 2 ^ 14 ∧ (v.extractLsb' 17 2).toNat ∈ classes

/-- Registers wd to wd + 3 as an entry of 64 bytes, byte 0 lowest (R229). -/
def entryOf (h : EngH) (wd : Nat) : Entry := h.rd (wd + 3) ++ h.rd (wd + 2) ++ h.rd (wd + 1) ++ h.rd wd

/-- An entry goes onto ring `r` in HBM whose place serves: it stands at the producer's place, the producer moves on, and no other byte
or ring changes. -/
def Pushed (s t : State) (r : Nat) (e : Entry) : Prop :=
  let g := s.blk.ring r
  (t.blk.ring r).prod = (g.prod + 1) % 2 ^ 32 ∧ (t.blk.ring r).cons = g.cons ∧ (t.blk.ring r).d1 = g.d1 ∧
    (t.blk.ring r).base = g.base ∧ (∀ k, k ≠ r → t.blk.ring k = s.blk.ring k) ∧
    (g.inHost = true → t.blk.hostOut = s.blk.hostOut ++
      [{ func := g.func, addr := g.base.toNat + 64 * (g.prod % 2 ^ g.log2), len := 64, data := e.toNat }]) ∧
    (g.inHost = false →
      let a := s.blk.regionBase 1 + g.base.toNat + 64 * (g.prod % 2 ^ g.log2)
      (∀ i, i < 64 → s.blk.pcDead (pcOf (a + i)) = false → t.mem.rdByte (a + i) = e.extractLsb' (8 * i) 8) ∧
        ∀ x, x < a ∨ a + 64 ≤ x → t.mem.rdByte x = s.mem.rdByte x)

/-- Ring `r` takes a push (R229, R252). -/
abbrev hasRoom (s : State) (r : Nat) : Prop :=
  let g := s.blk.ring r
  g.en = true ∧ g.occ < 2 ^ g.log2 ∧ (g.cls = 0 → s.blk.flag U.dsp F.DSP_STAT_CUE_FULL = false)

/-- Ring `r` has an entry to pop. -/
abbrev hasEntry (s : State) (r : Nat) : Prop := (s.blk.ring r).en = true ∧ (s.blk.ring r).occ ≠ 0

/-- Everything but the ring side, the engine and what it may touch stays. -/
def RingElsewhere (s t : State) (n : Nat) : Prop :=
  (∀ k, k ≠ n → t.blk.eng k = s.blk.eng k) ∧ RegsKept s t (fun u _ => u == U.ce n || u == U.tally) ∧ t.blk.ctxs = s.blk.ctxs

end Sys2Proof.Spec

/-- R229: with a valid cursor of an allowed class, RPUSH.b and RPUSH.n push the entry of wd to wd + 3 onto a ring with room; on a full ring
RPUSH.b blocks and RPUSH.n sets FULL; on an empty ring RPOP.b blocks and RPOP.n sets EMPTY; on another ring both wait for the entry's
data and do not block. -/
def Sys2Proof.Spec.ZhovoRingInstructions : Prop :=
  ∀ (n pr wd c r : Nat) (s : State), Issues s n pr [wd, wd + 1, wd + 2, wd + 3] → wd ∈ [4, 8, 12, 16, 20, 24, 28] → c < 8 →
    let h := s.blk.eng n
    (Cursor s n c r [0, 2, 3] → hasRoom s r →
      (Ends (.rpushB n pr wd 0 0 c) s fun t => EngineIs t n h (h.pc + 4) ∧ Pushed s t r (entryOf h wd) ∧ RingElsewhere s t n) ∧
      Ends (.rpushN n pr wd 0 0 c) s fun t => EngineIs t n { h with full := false } (h.pc + 4) ∧ Pushed s t r (entryOf h wd) ∧
        RingElsewhere s t n) ∧
    (Cursor s n c r [0, 2, 3] → ¬hasRoom s r →
      (Ends (.rpushB n pr wd 0 0 c) s fun t => Blocks s t n (.rpush r (entryOf h wd))) ∧
      Ends (.rpushN n pr wd 0 0 c) s fun t => t.blk.rings = s.blk.rings ∧ Retires s t n { h with full := true }) ∧
    (Cursor s n c r [1] →
      (hasEntry s r → (Ends (.rpopB n pr wd 0 0 c) s fun t => Blocks s t n (.rpop wd r false false)) ∧
        Ends (.rpopN n pr wd 0 0 c) s fun t => Blocks s t n (.rpop wd r true false)) ∧
      (¬hasEntry s r → Ends (.rpopB n pr wd 0 0 c) s fun t => Blocks s t n (.rpop wd r false true)) ∧
      (¬hasEntry s r → Ends (.rpopN n pr wd 0 0 c) s fun t => t.blk.rings = s.blk.rings ∧ Retires s t n { h with empty := true }))

/-- R229, R235: a pending RPOP takes the entry at the consumer index, from HBM or as host memory answers, into wd to wd + 3, and the
consumer index moves on, and only the RPOP that blocks restarts the watchdog; an entry whose storage has failed is skipped with RING_FAULT 3; a blocked RPUSH.b pushes when the ring
has room. -/
def Sys2Proof.Spec.ZhovoRingWakes : Prop :=
  ∀ (n wd r : Nat) (nb waits : Bool) (host e : Entry) (s : State), n < 32 →
    let h := s.blk.eng n
    let g := s.blk.ring r
    (Held s n (.rpop wd r nb waits) → (nb = true → waits = false) → wd ∈ [4, 8, 12, 16, 20, 24, 28] → hasEntry s r → s.blk.coasting = false →
      (s.blk.entryBad g g.cons = false → Ends (.rpopWake n host false) s fun t =>
        (t.blk.ring r) = { g with cons := (g.cons + 1) % 2 ^ 32 } ∧ (∀ k, k ≠ r → t.blk.ring k = s.blk.ring k) ∧
          RingElsewhere s t n ∧ (∃ e, (g.inHost = true → e = host) ∧
            (g.inHost = false → e = BitVec.ofNat 512 (s.mem.rdBytes (s.blk.regionBase 1 + g.base.toNat + 64 * (g.cons % 2 ^ g.log2)) 64)) ∧
            entryOf (t.blk.eng n) wd = e) ∧
          { t.blk.eng n with w := [], samp := 0 } = { h with
            w := [], samp := 0, blocked := none, wdFrom := if waits then s.blk.t else h.wdFrom, pc := h.pc + 4, empty := h.empty && !nb } ∧
          ∀ k, (k < wd ∨ wd + 4 ≤ k) → (t.blk.eng n).rd k = h.rd k) ∧
      (h.sys = false → h.inexc = false → Ends (.rpopWake n host true) s fun t =>
        (t.blk.ring r).cons = (g.cons + 1) % 2 ^ 32 ∧ (t.blk.ring r).fault = true ∧
          (t.blk.eng n).ecause = 0x304 ∧ (t.blk.eng n).evalue = BitVec.ofNat 64 g.cons ∧ (t.blk.eng n).pc = s.blk.vec n ∧
          (t.blk.eng n).w = h.w)) ∧
    (Held s n (.rpush r e) → hasRoom s r → Ends (.rpushWake n) s fun t =>
      EngineIs t n { h with blocked := none, wdFrom := s.blk.t } (h.pc + 4) ∧ Pushed s t r e ∧ RingElsewhere s t n)

/-- R218, R228: UGET and UPUT from issue to arrival. -/
def Obligations.ZhovoUnitAccesses : Prop := ZhovoUnitAccess ∧ ZhovoUnitAccessArrives

/-- R229: the ring instructions at issue, and their completion. -/
def Obligations.ZhovoRings : Prop := ZhovoRingInstructions ∧ ZhovoRingWakes

/-- R227, R231: the DMA instructions and FENCE, at issue and when what they wait for has ended, and the bytes that a transfer moves. -/
def Obligations.ZhovoDma : Prop := ZhovoDmaInstructions ∧ ZhovoDmaWakes ∧ ZhovoDmaMovesData

namespace Sys2Proof.Spec

/-- A context is armed (R243, R246, R247): it takes the image, the stamp, the origin and the privilege, its place by its first effect
Tc E, and the next arming number; a cue whose E lies in the past waits for its issue. -/
def armedAs (s : State) (c : Ctx) (stamp : Word) (origin : Nat) (sys : Bool) : Ctx :=
  let c := { c with stamp := stamp, origin := origin, sys := sys }
  let e := s.blk.cueE c
  { c with
    seq := s.blk.dsp.seq, result := 0, lateness := 0, occ := 0, effAt := 0, e := e, slot := false
    state := if e ≤ (s.blk.time.air : Int) then 3 else 1
    ovf := decide ((s.blk.time.air : Int) + 19660800 < e) }

/-- One arming: context `x` is as given, the others stay, the arming number goes on, and beside the engine and the tally only the pages of the
dispatcher and of the root change (R252). -/
def Arms (s t : State) (n x : Nat) (c : Ctx) : Prop :=
  t.blk.ctx x = c ∧ (∀ y, y ≠ x → t.blk.ctx y = s.blk.ctx y) ∧ t.blk.dsp.seq = s.blk.dsp.seq + 1 ∧
    (∀ k, k ≠ n → t.blk.eng k = s.blk.eng k) ∧ t.blk.rings = s.blk.rings ∧
    RegsKept s t (fun u _ => u == U.ce n || u == U.tally || u == U.dsp || u == 0) ∧ MemKept s t fun r _ => r == .tracer

/-- The origin index of an engine's cues (R218, R238). -/
def originOf (s : State) (n : Nat) : Nat := if n < 32 then s.blk.fld (U.ce n) F.CE_CFG_ORIGIN else 16385

/-- The image of 64 bytes at an aligned address of data SRAM (R241). -/
def imageOf (s : State) (n a : Nat) : Ctx := Ctx.image fun j => s.mem.rd .dmem (sramWord n (a - 0x100000) + j)

/-- A cue that an engine may arm: a valid stamp, a defined action that fits its target, a sound repeat and class, class 3 from system
code only, and for user code a target inside its mask (R219, R244). -/
abbrev mayArm (s : State) (n : Nat) (c : Ctx) (sys : Bool) : Prop :=
  cueCheck c sys true = none ∧ (sys = true ∨ (c.cls ≠ 3 ∧ s.blk.maskMay n true c.target = true))

/-- Engine `n` issues an arming instruction whose image lies at an aligned address of data SRAM. -/
abbrev ArmsFrom (s : State) (n pr wd wa wb a : Nat) : Prop :=
  Issues s n pr [wd, wa, wb] ∧ a = ((s.blk.eng n).rd64 wa).toNat ∧ a % 64 = 0 ∧ ∃ off, inSram s n a .dmem off ∧
    off + 64 ≤ (if n < 32 then 0x40000 else 0x80000)

end Sys2Proof.Spec

/-- R219, R233, R243, R244: ARM, ARMN, ARMP and FIRE arm the image at wa into a free context and answer its index: with the stamp of wb,
for ARMP with argument bytes 0 to 7 from the upper half of wb, and for FIRE with the present air time. ARMN clears FULL. -/
def Sys2Proof.Spec.ZhovoArming : Prop :=
  ∀ (n pr wd wa wb a x : Nat) (s : State), ArmsFrom s n pr wd wa wb a → s.blk.allocCtx = some x →
    let h := s.blk.eng n
    let v := h.rd64 wb
    let im := imageOf s n a
    let as := fun (c : Ctx) (v : Word) => armedAs s c v (originOf s n) h.sys
    (stampValid v = true → mayArm s n { im with stamp := v } h.sys →
      (Ends (.arm n pr wd wa wb) s fun t =>
        EngineIs t n (h.wr64 wd (BitVec.ofNat 64 x)) (h.pc + 4) ∧ Arms s t n x (as im v)) ∧
      (Ends (.armn n pr wd wa wb) s fun t =>
        EngineIs t n ({ h with full := false }.wr64 wd (BitVec.ofNat 64 x)) (h.pc + 4) ∧ Arms s t n x (as im v)) ∧
      Ends (.armp n pr wd wa wb) s fun t => EngineIs t n (h.wr64 wd (BitVec.ofNat 64 x)) (h.pc + 4) ∧
        Arms s t n x (as { im with args := im.args.extractLsb' 64 192 ++ (h.rd wb).extractLsb' 64 64 } v)) ∧
    (wb = 0 → stampValid s.blk.now = true → mayArm s n { im with stamp := s.blk.now } h.sys → Ends (.fire n pr wd wa wb) s fun t =>
      EngineIs t n (h.wr64 wd (BitVec.ofNat 64 x)) (h.pc + 4) ∧ Arms s t n x (as im s.blk.now))

/-- R233: SWAPMODEL arms a SWAPMODEL cue of class 1 for the PBD or lane in wa[15:0] with the model slot of wa[63:32]; ARMC arms a reserved
context that system code has written. -/
def Sys2Proof.Spec.ZhovoSwapmodelAndArmc : Prop :=
  ∀ (n pr wd wa wb x : Nat) (s : State), Issues s n pr [wd, wa, wb] → stampValid ((s.blk.eng n).rd64 wb) = true →
    let h := s.blk.eng n
    let a := h.rd64 wa
    let u := a.toNat % 2 ^ 16
    let c : Ctx := { Ctx.init with target := u, action := 0x20, ctrl := 1, args := BitVec.ofNat 256 (a.toNat / 2 ^ 32) }
    (kindOf u ∈ [5, 7] → (h.sys = true ∨ s.blk.maskMay n true u = true) → s.blk.allocCtx = some x →
      Ends (.swapmodel n pr wd wa wb) s fun t => EngineIs t n (h.wr64 wd (BitVec.ofNat 64 x)) (h.pc + 4) ∧
        Arms s t n x (armedAs s c (h.rd64 wb) (originOf s n) h.sys)) ∧
    (h.sys = true → x = a.toNat → x < s.blk.fld U.dsp F.DSP_CFG_RESV → (s.blk.ctx x).state = 0 →
      cueCheck { s.blk.ctx x with stamp := h.rd64 wb } true true = none → Ends (.armc n pr wd wa wb) s fun t =>
        EngineIs t n (h.wr64 wd (BitVec.ofNat 64 x)) (h.pc + 4) ∧
          Arms s t n x (armedAs s (s.blk.ctx x) (h.rd64 wb) (originOf s n) true))

/-- R233, R252: with no free context ARMN answers all ones and sets FULL, ARM, ARMP and FIRE block, and a blocked arming takes a context
when one is free. -/
def Sys2Proof.Spec.ZhovoArmingWithoutContext : Prop :=
  ∀ (n pr wd wa wb a x : Nat) (c : Ctx) (s : State),
    let h := s.blk.eng n
    (ArmsFrom s n pr wd wa wb a → s.blk.allocCtx = none → stampValid (h.rd64 wb) = true →
      mayArm s n { imageOf s n a with stamp := h.rd64 wb } h.sys →
      (Ends (.armn n pr wd wa wb) s fun t => Retires s t n ({ h with full := true }.wr64 wd (BitVec.allOnes 64))) ∧
      Ends (.arm n pr wd wa wb) s fun t => Blocks s t n
        (.arm wd { imageOf s n a with stamp := h.rd64 wb, origin := originOf s n, sys := h.sys })) ∧
    (Held s n (.arm wd c) → s.blk.allocCtx = some x → cueCheck c c.sys true = none → Ends (.armWake n) s fun t =>
      EngineIs t n ({ h with blocked := none, wdFrom := s.blk.t }.wr64 wd (BitVec.ofNat 64 x)) (h.pc + 4) ∧
        Arms s t n x (armedAs s c c.stamp c.origin c.sys))

/-- R232: WAITAT holds the engine until the first cycle at or after its stamp and then answers 0; a stamp that is already past, or that a
forward time step passes while it waits, answers the lateness in Tc at once and sets LATE. -/
def Sys2Proof.Spec.ZhovoWaitat : Prop :=
  ∀ (n pr wd wa due : Nat) (s : State),
    let h := s.blk.eng n
    let v := h.rd64 wa
    (Issues s n pr [wd, wa] → stampValid v = true → s.blk.time.air < tcOf v →
      Ends (.waitat n pr wd wa 0) s fun t => Blocks s t n (.waitat wd (tcOf v) none)) ∧
    (Issues s n pr [wd, wa] → stampValid v = true → tcOf v ≤ s.blk.time.air →
      Ends (.waitat n pr wd wa 0) s fun t => Retires s t n ({ h with late := true }.wr64 wd (BitVec.ofNat 64 (s.blk.time.air - tcOf v)))) ∧
    (Held s n (.waitat wd due none) → (due + engTc n - 1) / engTc n * engTc n ≤ s.blk.time.air →
      s.blk.time.elapsed < s.blk.time.tickEnd → Ends (.waitatWake n) s fun t => Resumes s t n (h.wr64 wd 0)) ∧
    (∀ l, Held s n (.waitat wd due (some l)) → Ends (.waitatWake n) s fun t =>
      Resumes s t n ({ h with late := true }.wr64 wd (BitVec.ofNat 64 l))) ∧
    ∀ was, (s.blk.eng n).blocked = some (.waitat wd due none) → n < 33 → was < due → due ≤ s.blk.time.air →
      (s.blk.waitsStep was).eng n = { h with blocked := some (.waitat wd due (some (s.blk.time.air - due))) }

/-- R233, R243: DISARM frees an owned context that is ARMED and answers 0; it answers 1 for one that is already on its way, and 2 otherwise. -/
def Sys2Proof.Spec.ZhovoDisarm : Prop :=
  ∀ (n pr wd wa x : Nat) (s : State), Issues s n pr [wd, wa] → x = ((s.blk.eng n).rd64 wa).toNat →
    let h := s.blk.eng n
    let c := s.blk.ctx x
    let own := x < 262144 ∧ c.origin = originOf s n ∧ c.sys = h.sys
    (own → c.state = 1 → c.slot = false → c.action ≠ 0x20 → Ends (.disarm n pr wd wa 0) s fun t =>
      EngineIs t n (h.wr64 wd 0) (h.pc + 4) ∧ (t.blk.ctx x).state = 0 ∧ (∀ y, y ≠ x → t.blk.ctx y = s.blk.ctx y) ∧
        (∀ k, k ≠ n → t.blk.eng k = s.blk.eng k) ∧
        RegsKept s t (fun u _ => u == U.ce n || u == U.tally || u == U.dsp || u == 0) ∧ MemKept s t fun r _ => r == .tracer) ∧
    (own → 2 ≤ c.state → Ends (.disarm n pr wd wa 0) s fun t => Retires s t n (h.wr64 wd 1)) ∧
    (¬own ∨ c.state = 0 → Ends (.disarm n pr wd wa 0) s fun t => Retires s t n (h.wr64 wd 2))

/-- R236: an engine whose watchdog has counted its limit takes WATCHDOG with the cycles counted; a user program enters the handler with
epc at its next instruction, and the CE unit shows cause 18. -/
def Sys2Proof.Spec.ZhovoWatchdog : Prop :=
  ∀ (n : Nat) (s : State), Settled s → n < 32 → s.blk.engLive n = true → (s.blk.eng n).sys = false → (s.blk.eng n).inexc = false →
    s.blk.t = (s.blk.eng n).wdFrom + max 1 (s.blk.fld (U.ce n) F.CE_WDOG_LIMIT) * 1024 * 2 → s.blk.t < s.blk.time.tickEnd →
      Ends (.watchdogExpiry n) s fun t =>
        UserFault s t n 5 0 (BitVec.ofNat 64 (max 1 (s.blk.fld (U.ce n) F.CE_WDOG_LIMIT) * 1024)) ∧
          (t.blk.reg (U.ce n) R.UNIT_IRQ_STAT).getLsbD 18 = true

/-- R235, R237: START and STOP become pending host requests; a request is taken at a boundary of user code that has no watchdog due, as
HOST_REQ with the request bits as its detail, and latches nothing. A START on the tracker's engine is REFUSED. -/
def Sys2Proof.Spec.ZhovoHostRequests : Prop :=
  ∀ (n : Nat) (who : Who) (s : State), Settled s → n < 32 →
    let h := s.blk.eng n
    let u := U.ce n
    (s.blk.writeOk who u = true → s.blk.hostHeld who = false → s.blk.userCtl who n = true →
      (s.blk.trackerOn n = false → Ends (.userStart who n) s fun t =>
        t.blk.eng n = { h with reqs := h.reqs ||| 1, req := h.req || (h.running && h.sys) }) ∧
      (s.blk.trackerOn n = true → Ends (.userStart who n) s fun t =>
        t.blk.eng n = h ∧ t.blk.flag u F.CE_USER_CTRL_REFUSED = true) ∧
      Ends (.userStop who n) s fun t =>
        t.blk.eng n = { h with reqs := h.reqs ||| 2, req := h.req || (h.running && h.sys) }) ∧
    (s.blk.engLive n = true → h.sys = false → h.inexc = false → h.reqs ≠ 0 →
      s.blk.t < h.wdFrom + max 1 (s.blk.fld u F.CE_WDOG_LIMIT) * 1024 * 2 → Ends (.hostReqTake n) s fun t =>
      t.blk.eng n = { h with
        reqs := 0, epc := h.pc, ecause := BitVec.ofNat 64 (10 + h.reqs * 256), evalue := 0, psys := false, sys := true, inexc := true
        pc := s.blk.vec n, wdFrom := s.blk.t, blocked := none } ∧
        t.blk.regs = s.blk.regs ∧ (∀ k, k ≠ n → t.blk.eng k = s.blk.eng k) ∧ MemSame s t)

/-- R237, R239: while the user program does not run, a window write at or above the split stores its word, one below it or while the program
runs only sets LOAD_BUSY, and a read answers the word, 0 below the split; each access moves the address on. -/
def Obligations.ZhovoHostWindows : Prop :=
  ∀ (n : Nat) (who : Who) (v : Word) (s : State), Settled s → n < 32 →
    let u := U.ce n
    let a := s.blk.fld u F.CE_IMEM_ADDR_ADDR / 4 * 4
    let d := s.blk.fld u F.CE_DMEM_ADDR_ADDR / 8 * 8
    let is := s.blk.fld u F.CE_PART_ISPLIT * 4096
    let ds := s.blk.fld u F.CE_PART_DSPLIT * 4096
    let run := s.blk.flag u F.CE_USER_CTRL_RUN
    let w := fun (μ : Mem) => (μ.rd .imem (sramWord n a)).extractLsb' (32 * (a / 4 % 4)) 32
    let kept := fun (t : State) (r : Ram) (i : Nat) =>
      MemKept s t (fun r' i' => r' == r && i' == i) ∧ RegsKept s t fun u' _ => u' == u
    (s.blk.writeOk who u = true → s.blk.hostHeld who = false → s.blk.time.coll = [] →
      (run = false → is ≤ a → Ends (.imemWrite who n .both v) s fun t => w t.mem = v.extractLsb' 0 32 ∧
        (∀ j, j < 4 → j ≠ a / 4 % 4 →
          (t.mem.rd .imem (sramWord n a)).extractLsb' (32 * j) 32 = (s.mem.rd .imem (sramWord n a)).extractLsb' (32 * j) 32) ∧
        t.blk.fld u F.CE_IMEM_ADDR_ADDR = (a + 4) % 2 ^ (F.CE_IMEM_ADDR_ADDR.hi + 1 - F.CE_IMEM_ADDR_ADDR.lo) ∧ kept t .imem (sramWord n a)) ∧
      (run = false → ds ≤ d → Ends (.dmemWrite who n .both v) s fun t => half (t.mem.rd .dmem (sramWord n d)) d = v ∧
        half (t.mem.rd .dmem (sramWord n d)) (d + 8) = half (s.mem.rd .dmem (sramWord n d)) (d + 8) ∧
        t.blk.fld u F.CE_DMEM_ADDR_ADDR = (d + 8) % 2 ^ (F.CE_DMEM_ADDR_ADDR.hi + 1 - F.CE_DMEM_ADDR_ADDR.lo) ∧ kept t .dmem (sramWord n d)) ∧
      (run = true ∨ a < is → Ends (.imemWrite who n .both v) s fun t =>
        t.blk.flag u F.CE_USER_CTRL_LOAD_BUSY = true ∧ MemSame s t)) ∧
    (s.blk.readOk who u = true →
      (Ends (.imemRead who n) s fun t => t.blk.rdata = (if is ≤ a then (w s.mem).setWidth 64 else 0) ∧ MemSame s t ∧
        t.blk.fld u F.CE_IMEM_ADDR_ADDR = (a + 4) % 2 ^ (F.CE_IMEM_ADDR_ADDR.hi + 1 - F.CE_IMEM_ADDR_ADDR.lo)) ∧
      Ends (.dmemRead who n .both) s fun t => t.blk.rdata = (if ds ≤ d then half (s.mem.rd .dmem (sramWord n d)) d else 0) ∧
        MemSame s t ∧ t.blk.fld u F.CE_DMEM_ADDR_ADDR = (d + 8) % 2 ^ (F.CE_DMEM_ADDR_ADDR.hi + 1 - F.CE_DMEM_ADDR_ADDR.lo))

/-- R232, R233: WAITAT and DISARM. -/
def Obligations.ZhovoWaitatAndDisarm : Prop := ZhovoWaitat ∧ ZhovoDisarm

/-- R236, R237: the watchdog and the host's requests. -/
def Obligations.ZhovoWatchdogAndHostRequests : Prop := ZhovoWatchdog ∧ ZhovoHostRequests

/-- R219, R233, R243, R252: ARM, ARMN, ARMP, FIRE, SWAPMODEL and ARMC, with and without a free context. -/
def Obligations.ZhovoArmingInstructions : Prop := ZhovoArming ∧ ZhovoSwapmodelAndArmc ∧ ZhovoArmingWithoutContext

/-- A step takes the command in front of the queue and is that command's meaning with the rest of the queue. -/
def Obligations.StepRunsTheCommandInFront : Prop :=
  ∀ (c : Instr) (rest : List Instr) (s : State), s.pending = c :: rest → step s = exec c { s with pending := rest }

/-- Every command completes from every state, leaves the queue as it is, and leaves nothing of its own waiting. -/
def Obligations.CommandsCompleteAndSettle : Prop :=
  ∀ (c : Instr) (s : State), Ends c s fun t => t.pending = s.pending ∧ Settled t

/-- The memories keep their canonical form through every step. -/
def Obligations.StepKeepsMemoryCanonical : Prop :=
  ∀ s t : State, s.mem.wf = true → step s = .next t → t.mem.wf = true

/-- R7, R34: on an empty queue one Tc passes, but not the tick boundary, which is a command of its own (model's choice, log entry 2): the
air count and the elapsed count go on by one, and nothing but the clock and the tally changes while no group edit waits. Each
Tc has its own stamp. -/
def Obligations.EmptyQueueLetsOneTcPass : Prop :=
  ∀ s : State, s.pending = [] → ∃ t, step s = .next t ∧ t.mem = s.mem ∧ t.pending = [] ∧
    (s.blk.time.running = false ∨ s.blk.t + 1 < s.blk.time.tickEnd → t.blk.t = s.blk.t + 1 ∧
      t.blk.time.air = (if s.blk.time.running then s.blk.time.air + 1 else s.blk.time.air) ∧ t.blk.time.coll = [] ∧
      (s.blk.edits = [] → t.blk = { s.blk with time := t.blk.time, tally := t.blk.tally, free := t.blk.free })) ∧
    (s.blk.time.running = true → s.blk.time.tickEnd ≤ s.blk.t + 1 → t = s) ∧
    ∀ m n : Nat, m < 2 ^ 39 * 19660800 → n < 2 ^ 39 * 19660800 → stampOf m = stampOf n → m = n

/-- What reset leaves: no memory listed, in canonical form, an empty queue, nothing waiting; RW and RO fields at the reset values of their
tables (here: UNIT_STATE of a switched receiver and of the loop engine, UNIT_CTRL, WDOG limit, splits, origin, PHASE, and the first and the
last group), no contexts, no rings, no members, and no lock held. -/
def Obligations.ResetState : Prop :=
  let s := State.reset
  s.mem.wf = true ∧ s.mem = {} ∧ s.pending = [] ∧ Settled s ∧ s.blk.ctxs = [] ∧ s.blk.rings = [] ∧ s.blk.groups = [] ∧
    s.blk.fld (U.rxc 0) F.UNIT_STATE_STATE = 0 ∧ s.blk.fld (U.rxc 0) F.UNIT_STATE_PWR = 0 ∧ s.blk.reg (U.rxc 31) R.UNIT_CTRL = 0 ∧
    s.blk.fld (U.ce 5) F.CE_WDOG_LIMIT = 1024 ∧ s.blk.fld (U.ce 5) F.CE_PART_ISPLIT = 16 ∧ s.blk.fld (U.ce 5) F.CE_PART_DSPLIT = 16 ∧
    s.blk.fld (U.ce 5) F.CE_CFG_ORIGIN = 16391 ∧ s.blk.fld (U.ce 5) F.CE_USER_ENTRY_ENTRY = 0x10000 ∧ s.blk.fld 0 F.HOST_BOOT_PHASE = 0 ∧
    s.blk.members 0x1000 = [] ∧ s.blk.members 0x1FFF = [] ∧ s.blk.everLocked = false ∧ s.blk.flag 0 F.FLT_MODE_FATAL = false ∧
    (s.blk.eng 3).sys = true ∧ (s.blk.eng 3).psys = true ∧ (s.blk.eng 3).inexc = false

namespace Sys2Proof.Spec

/-- A writer reaches the page of a unit, and no coast holds the write back (R358, R411, R422). -/
abbrev Takes (s : State) (who : Who) (u : Nat) : Prop := Settled s ∧ s.blk.writeOk who u = true ∧ s.blk.hostHeld who = false

/-- Two table rows of a register share no bit, and each lies in the register. -/
abbrev rowsApart (d : RegDef) : Prop :=
  (d.rows.Pairwise fun a b => a.hi < b.lo ∨ b.hi < a.lo) ∧ ∀ r ∈ d.rows, r.lo ≤ r.hi ∧ r.hi < 64

/-- The interrupt cause `n` of unit `u` is set. -/
def Cause (t : State) (u n : Nat) : Prop := (t.blk.reg u R.UNIT_IRQ_STAT).getLsbD n = true

end Sys2Proof.Spec

/-- R11, R12: a write of a plain register, whole or of one half, here at a temperature sensor and at a pseudo-channel: RO and WO fields
stay, RW fields take the half's bits, W1C bits clear where a one is written; no other register of the page changes, but for the
header where a value is clamped or another write of the Tc is met. -/
def Sys2Proof.Spec.RegisterWriteByAccessCode : Prop :=
  ∀ (who : Who) (u off i : Nat) (half : Half) (v : Word) (d : RegDef) (s : State), Takes s who u → s.blk.time.coll = [] →
    kindOf u ∈ [0x08, 0x0B] → 0x040 ≤ off → off < 0x400 → off % 8 = 0 → (kindOf u = 0x0B → off ≠ R.PC_STAT) →
    (kindOf u = 0x08 → off ≠ R.TS_NBR) → regAt u off = some (d, i) → rowsApart d →
      Ends (.registerWrite who u off half v) s fun t =>
        (∀ r ∈ d.rows, let f : Fld := ⟨off, r.hi, r.lo⟩
          let old := s.blk.reg u off
          ((r.acc = .ro ∨ r.acc = .wo) → t.blk.fld u f = s.blk.fld u f) ∧
          (r.acc = .w1c → t.blk.fld u f = Word.fld (old &&& ~~~(v &&& halfMask half)) r.hi r.lo) ∧
          (r.acc = .rw → (r.rng = .any ∨ r.rng = .code8000) → t.blk.fld u f = Word.fld ((old &&& ~~~(halfMask half)) ||| (v &&& halfMask half)) r.hi r.lo)) ∧
        RegsKept s t (fun u' off' => (u' == u && (off' == off || off' < 0x040)) || u' == 0) ∧ MemSame s t

/-- R11, R18, R19: a PCIe access of illegal width raises REG_ALIGN at the root and reads as zero; a W1C write of UNIT_FAULT clears the class
bits it names, never FATAL, and CODE and CLASS with the last of them, but a fault of the write's own Tc comes after it and keeps its class bit;
CNT_CLR clears the count alone, but for the
CORRECTED faults of its own Tc. -/
def Sys2Proof.Spec.FaultRegisterWrites : Prop :=
  ∀ (who : Who) (u : Nat) (v : Word) (s : State), Settled s →
    (s.blk.inReset = false → s.blk.linkDown = false → (who = .pf ∨ ∃ k, who = .vf k) →
      (Ends (.regAlign who true u) s fun t => Corrected s t 0 ∧ RegsKept s t (fun u' _ => u' == 0) ∧ MemSame s t) ∧
      Ends (.regAlign who false u) s fun t => Corrected s t 0 ∧ t.blk.rdata = 0 ∧ RegsKept s t (fun u' _ => u' == 0) ∧ MemSame s t) ∧
    (reservedUid u = false → Takes s who u →
      (Ends (.unitFaultClear who u v) s fun t => ∀ e ∈ s.blk.faultsNow u,
        (e.cls = 1 → t.blk.flag u F.UNIT_FAULT_CORRECTED = true) ∧ (e.cls = 2 → t.blk.flag u F.UNIT_FAULT_CONTAINED = true)) ∧
      (s.blk.faultsNow u = [] → Ends (.unitFaultClear who u v) s fun t =>
        let bits := (s.blk.reg u R.UNIT_FAULT &&& ~~~(v &&& 0x30000))
        (t.blk.fld u F.UNIT_FAULT_CORR_CNT = s.blk.fld u F.UNIT_FAULT_CORR_CNT) ∧
        (∀ i, 16 ≤ i → i ≤ 18 → (t.blk.reg u R.UNIT_FAULT).getLsbD i = bits.getLsbD i) ∧
        t.blk.fld u F.UNIT_FAULT_CODE = (if bits.extractLsb' 16 3 = 0 then 0 else s.blk.fld u F.UNIT_FAULT_CODE) ∧
        t.blk.fld u F.UNIT_FAULT_CLASS = (if bits.extractLsb' 16 3 = 0 then 0 else s.blk.fld u F.UNIT_FAULT_CLASS) ∧
        RegsKept s t (fun u' off => u' == u && (off == R.UNIT_FAULT || off == R.UNIT_COLLIDE || off == R.UNIT_IRQ_STAT)) ∧ MemSame s t) ∧
      Ends (.cntClr who u) s fun t => t.blk.fld u F.UNIT_FAULT_CORR_CNT = min 65535 ((s.blk.faultsNow u).filter fun e => e.cls == 1).length ∧
        t.blk.reg u R.UNIT_FAULT &&& ~~~0x0000FFFF00000000 = s.blk.reg u R.UNIT_FAULT &&& ~~~0x0000FFFF00000000 ∧
        RegsKept s t (fun u' off => u' == u && (off == R.UNIT_FAULT || off == R.UNIT_COLLIDE || off == R.UNIT_IRQ_STAT)) ∧ MemSame s t)

/-- R11, R12, R18, R19: plain register writes, illegal accesses, and the writes of UNIT_FAULT. -/
def Obligations.RegisterAccess : Prop := RegisterWriteByAccessCode ∧ FaultRegisterWrites

namespace Sys2Proof.Spec

/-- An event is due now, and not at the boundary that ends the tick. -/
abbrev DueNow (s : State) (t : Nat) : Prop := t = s.blk.t ∧ s.blk.t < s.blk.time.tickEnd

/-- A unit that is no group and follows no gang leader. -/
abbrev Single (s : State) (u : Nat) : Prop :=
  reservedUid u = false ∧ u ≠ 0 ∧ isBuiltinGroup u = false ∧ kindOf u ≠ 0x20 ∧
    (kindOf u = 0x07 → s.blk.leaderOf (unitIndex u) = none)

/-- A unit changes to STATE `st`: it reads `st`, CHANGES goes on by one and UNIT_STAMP takes the present stamp (R18). -/
def Moves (s t : State) (u st : Nat) : Prop :=
  t.blk.ownState u = st ∧ t.blk.fld u F.UNIT_STATE_CHANGES = (s.blk.fld u F.UNIT_STATE_CHANGES + 1) % 2 ^ 32 ∧
    t.blk.reg u R.UNIT_STAMP = s.blk.now ∧ Cause t u 0

/-- Kinds that enter and leave service at once, with no configuration of their own (R22): sensors, pseudo-channels, synthesisers and
observation receivers. -/
abbrev plainKind (u : Nat) : Prop := kindOf u ∈ [0x08, 0x0B, 0x0D, 0x0E]

/-- The self-test times of R367 in Tc, for the kinds with a fixed time. -/
def selftestTime : List (Nat × Nat) :=
  [(0x02, 1966080), (0x03, 1966080), (0x05, 196608), (0x07, 196608), (0x08, 19660800), (0x0B, 19660800), (0x0D, 1966080), (0x0E, 1966080), (0x0F, 1966080), (0x12, 19660800), (0x19, 196608)]

/-- A slice's correction is within its limits (R84): offset 512, gain 31,457 and skew 2,000. -/
abbrev withinLimits (c : Word) : Prop :=
  (c.extractLsb' 0 16).toInt.natAbs ≤ 512 ∧ (c.extractLsb' 16 16).toInt.natAbs ≤ 31457 ∧ (c.extractLsb' 32 16).toInt.natAbs ≤ 2000

/-- No host-defined group has members, so that no group's aggregate moves beside a unit's. -/
abbrev NoGroups (s : State) : Prop := s.blk.groups = []

end Sys2Proof.Spec

/-- R18, R22, R24: a write of UNIT_CTRL moves a unit: ENABLE and TEST_REQ take a READY unit to ACTIVE and TEST, ENABLE = 0 and TEST_REQ = 0
take it back, and FENCE_REQ fences a unit from any state but FAILED, with ENABLE and TEST_REQ cleared; a FENCED or FAILED unit takes no ENABLE = 1;
UNFENCE_REQ starts the self-test of its kind; that of a PBD which RESTART_LIMIT has fenced needs the PF or system privilege (R203). -/
def Obligations.UnitControl : Prop :=
  ∀ (who : Who) (u : Nat) (s : State), Takes s who u → s.blk.time.coll = [] → Single s u → NoGroups s →
    let st := s.blk.ownState u
    (plainKind u → st = 1 → s.blk.flag u F.UNIT_CTRL_TEST_REQ = false →
      Ends (.enable who u true) s fun t => Moves s t u 2 ∧ t.blk.flag u F.UNIT_CTRL_ENABLE = true) ∧
    (plainKind u → st = 2 → Ends (.enable who u false) s fun t => t.blk.flag u F.UNIT_CTRL_ENABLE = false) ∧
    (kindOf u = 0x08 → st = 2 → s.blk.flag u F.UNIT_CTRL_TEST_REQ = false → Ends (.enable who u false) s fun t => Moves s t u 1) ∧
    (plainKind u → st = 1 → Ends (.testReq who u true) s fun t => Moves s t u 5 ∧ t.blk.flag u F.UNIT_CTRL_TEST_REQ = true) ∧
    (plainKind u → st = 5 → s.blk.flag u F.UNIT_CTRL_ENABLE = false → Ends (.testReq who u false) s fun t =>
      Moves s t u 1 ∧ t.blk.flag u F.UNIT_CTRL_TEST_REQ = false) ∧
    (neverFenced u = false → st ≠ 4 → st ≠ 6 → kindOf u ∈ [0x02, 0x08, 0x09, 0x0B, 0x0D, 0x0E, 0x0F, 0x12, 0x19, 0x1A] →
      Ends (.fenceReq who u) s fun t => Moves s t u 4 ∧ t.blk.flag u F.UNIT_CTRL_ENABLE = false ∧
        t.blk.flag u F.UNIT_CTRL_TEST_REQ = false) ∧
    (st ≠ 6 → kindOf u ∈ [0x03, 0x05, 0x07] → Ends (.fenceReq who u) s fun t =>
      t.blk.ownState u = 4 ∧ t.blk.flag u F.UNIT_CTRL_ENABLE = false ∧ t.blk.flag u F.UNIT_CTRL_TEST_REQ = false) ∧
    (st = 4 → Store.get 0 s.blk.testing u = 0 →
      (∀ x ∈ selftestTime, kindOf u = x.1 → (kindOf u = 0x05 → (s.blk.pbdH (unitIndex u)).fencedBy ≠ C.restartLimit ∨ whoPfSys who = true) →
        Ends (.unfenceReq who u) s fun t => t.blk.ownState u = 4 ∧ Store.get 0 t.blk.testing u = s.blk.t + x.2 + 1) ∧
      (kindOf u = 0x05 → (s.blk.pbdH (unitIndex u)).fencedBy = C.restartLimit → ((∃ k, who = .vf k) ∨ ∃ n, who = .engine n false) →
        Ends (.unfenceReq who u) s fun t => t.blk.ownState u = 4 ∧ Store.get 0 t.blk.testing u = 0)) ∧
    (st = 4 ∨ st = 6 → Ends (.enable who u true) s fun t => t.blk.ownState u = st ∧
      t.blk.flag u F.UNIT_CTRL_ENABLE = s.blk.flag u F.UNIT_CTRL_ENABLE)

/-- R22, R24, R65, R367: what an asked move ends with: a PBD is READY once its 256 Tc of ramp are over; a passed self-test leaves a unit whose
domain is ON READY, a failed one leaves it FENCED with CONTAINED SELFTEST. -/
def Sys2Proof.Spec.UnitMovesEnd : Prop :=
  ∀ (u t0 : Nat) (s : State), Settled s → Single s u → NoGroups s →
    (kindOf u = 0x05 → Store.get 0 s.blk.ramping u = t0 + 1 → DueNow s t0 → s.blk.ownState u ∈ [2, 3] → s.blk.flag u F.UNIT_CTRL_TEST_REQ = false →
      s.blk.flag u F.UNIT_CTRL_ENABLE = false → Ends (.rampDownDone u) s fun t =>
        t.blk.ownState u = 1 ∧ Store.get 0 t.blk.ramping u = 0) ∧
    (Store.get 0 s.blk.testing u = t0 + 1 → DueNow s t0 → s.blk.ownState u = 4 → kindOf u ∈ [0x08, 0x0D, 0x0E, 0x12] →
      (s.blk.domainOn u = true → Ends (.selftestDone u true) s fun t => Moves s t u 1 ∧ Store.get 0 t.blk.testing u = 0) ∧
      Ends (.selftestDone u false) s fun t => t.blk.ownState u = 4 ∧ t.blk.flag u F.UNIT_FAULT_CONTAINED = true ∧
        Store.get 0 t.blk.testing u = 0)

/-- R84, R90: a channel whose calibration restore passes, with every stored correction within its limits, is READY in STANDBY with the
corrections that the store holds; one that fails
runs a foreground calibration of at most 20 ms with CORRECTED CAL_RESTORE, and is READY when it ends. -/
def Sys2Proof.Spec.ChannelCalibration : Prop :=
  ∀ (u t0 bad : Nat) (corr : List Word) (s : State), Settled s → Single s u → NoGroups s → kindOf u ∈ [0x02, 0x03] →
    s.blk.ownState u = 0 → s.blk.flag u F.UNIT_CTRL_TEST_REQ = false → s.blk.flag u F.UNIT_CTRL_ENABLE = false →
    (s.blk.restoreDue u = some t0 → DueNow s t0 →
      (s.mem.rd .calStore (calEntry u 63) ≠ 0 → (kindOf u = 0x02 → ∀ j, j < 17 → withinLimits (s.mem.rd64 .calStore (calEntry u j))) →
        Ends (.calRestoreDone u 0 false) s fun t =>
        Moves s t u 1 ∧ t.blk.restoreDue u = none ∧ t.blk.fld u F.TXC_STAT_CH_STATE = 1 ∧
          (kindOf u = 0x02 → ∀ j, j < 17 → Store.get 0 (t.blk.rxcH (unitIndex u)).corr j =
            s.mem.rd64 .calStore (calEntry u j) &&& 0xFFFFFFFFFFFF)) ∧
      (s.mem.rd .calStore (calEntry u 63) = 0 → Ends (.calRestoreDone u 0 false) s fun t => ∃ d, d ≤ 39321600 ∧
        t.blk.calDue u = some (s.blk.t + d) ∧ t.blk.ownState u = 0 ∧ Corrected s t u ∧ MemSame s t)) ∧
    (s.blk.calDue u = some t0 → DueNow s t0 → bad = 0 → Ends (.foregroundCalDone u corr bad) s fun t =>
      Moves s t u 1 ∧ t.blk.calDue u = none ∧ t.blk.fld u F.TXC_STAT_CH_STATE = 1)

/-- R28, R29: an edit that passes its checks answers OK and gives the group its new members at the Tc after the edit, in ascending order; one
that fails answers the first check that fails and changes no member; removing all never fails. A UID of no group is added to a group while no
other group has members. -/
def Obligations.GroupEdits : Prop :=
  ∀ (who : Who) (g u : Nat) (s : State), Takes s who g → kindOf g = 0x20 → g < 0x2000 →
    let l := s.blk.edited g
    (NoGroups s → s.blk.edits = [] → reservedUid u = false → protectedUid u = false → kindOf u ≠ 0x20 → isBuiltinGroup u = false →
      Ends (.grpAdd who g u) s fun t => t.blk.fld g F.GRP_STAT_RESULT = 0 ∧ t.blk.edited g = [u] ∧ t.blk.groups = s.blk.groups ∧ MemSame s t) ∧
    (∀ r, s.blk.editResult g u true = r → Ends (.grpAdd who g u) s fun t => t.blk.fld g F.GRP_STAT_RESULT = r ∧
      t.blk.groups = s.blk.groups ∧ (r = 0 → t.blk.edited g = insertUid u l) ∧ (r ≠ 0 → t.blk.edits = s.blk.edits) ∧ MemSame s t) ∧
    (Ends (.grpRemove who g u) s fun t => t.blk.groups = s.blk.groups ∧
      (reservedUid u = false → protectedUid u = false → u ∈ l → t.blk.fld g F.GRP_STAT_RESULT = 0 ∧ t.blk.edited g = l.filter (· ≠ u)) ∧
      (reservedUid u = false → protectedUid u = false → u ∉ l → t.blk.fld g F.GRP_STAT_RESULT = 8 ∧ t.blk.edits = s.blk.edits)) ∧
    (Ends (.grpRemoveAll who g u) s fun t => t.blk.fld g F.GRP_STAT_RESULT = 0 ∧ t.blk.edited g = [] ∧ t.blk.groups = s.blk.groups) ∧
    (reservedUid u = true → s.blk.editResult g u true = 6) ∧ (reservedUid u = false → protectedUid u = true → s.blk.editResult g u true = 1) ∧
    (reservedUid u = false → protectedUid u = false → u ∈ l → s.blk.editResult g u true = 7) ∧
    (reservedUid u = false → protectedUid u = false → u ∉ l → 255 ≤ l.length → s.blk.editResult g u true = 2) ∧
    (s.blk.edits = [(g, l)] → s.blk.time.running = true → s.blk.t + 1 < s.blk.time.tickEnd → s.pending = [] →
      ∃ t, step s = .next t ∧ t.blk.grpMembers g = l ∧ t.blk.edits = [])

namespace Sys2Proof.Spec

/-- The time of a transition of domain `d` (R340). -/
def transitionTime (d : Nat) (up : Bool) : Nat :=
  if d < 64 then (if up then 196608 else 19661) else if d < 72 then (if up then 39322 else 19661)
  else if d < 74 then (if up then 3932160 else 196608) else if d < 76 then (if up then 9830400 else 196608)
  else if up then 786432 else 98304

/-- STATE of a domain in PWR_STAT: 0 OFF, 1 UP, 2 ON, 3 DOWN, 4 RETAIN, 5 and 6 queued, 7 FAILED. -/
def pdState (s : State) (d : Nat) : Nat := s.blk.fld U.kiln (F.PWR_STAT_PD (d / 16) (d % 16))

end Sys2Proof.Spec

/-- R341, R342: POWER_REQ = 1 at a unit of an OFF domain stores the request and starts its transition, while fewer than four are in
progress and none waits, or queues it behind four; here at the fronthaul ports, whose domains nothing holds. -/
def Sys2Proof.Spec.PowerRequests : Prop :=
  ∀ (who : Who) (q : Nat) (s : State), q < 8 → Takes s who (U.fh q) → s.blk.time.coll = [] →
    let d := 74 + q / 4
    pdState s d = 0 → s.blk.ownState (U.fh q) = 0 → s.blk.thermalOff = false → s.blk.runtimeUp = true → s.blk.flag 0 F.FLT_MODE_FATAL = false →
    s.blk.power.queue = [] →
    (s.blk.power.trans.length < 4 → Ends (.powerReq who (U.fh q) true) s fun t =>
      t.blk.flag (U.fh q) F.UNIT_CTRL_POWER_REQ = true ∧ pdState t d = 1 ∧ t.blk.ownPwr (U.fh q) = 1 ∧
        t.blk.power.trans = s.blk.power.trans ++ [(d, true, s.blk.t)] ∧ t.blk.power.queue = []) ∧
    (4 ≤ s.blk.power.trans.length → Ends (.powerReq who (U.fh q) true) s fun t =>
      t.blk.flag (U.fh q) F.UNIT_CTRL_POWER_REQ = true ∧ pdState t d = 5 ∧ t.blk.power.trans = s.blk.power.trans ∧
        t.blk.power.queue = [(d, U.fh q)])

/-- R340, R343, R456: a transition ends in its time, ON or OFF; one that has not ended in four times its time, or an ON domain whose rail
fails, leaves the domain FAILED and OFF, counts it, and frees its place at once; a failed rail leaves the domains of other rails alone. -/
def Sys2Proof.Spec.PowerTransitions : Prop :=
  ∀ (d t0 : Nat) (up : Bool) (s : State), Settled s → d = 74 ∨ d = 75 → s.blk.power.queue = [] →
    (s.blk.power.trans = [(d, up, t0)] → DueNow s (t0 + transitionTime d up) → 
      (up = true → ∃ q, q < 4 ∧ s.blk.flag (U.fh (4 * (d - 74) + q)) F.UNIT_CTRL_POWER_REQ = true) →
      (up = false → ∀ q, q < 4 → s.blk.flag (U.fh (4 * (d - 74) + q)) F.UNIT_CTRL_POWER_REQ = false ∧
        Store.get 0 s.blk.ramping (U.fh (4 * (d - 74) + q)) = 0) → Ends (.domainTransitionDone d) s fun t =>
        pdState t d = (if up then 2 else 0) ∧ t.blk.power.trans = [] ∧ t.blk.power.queue = [] ∧
          ∀ q, q < 4 → t.blk.ownPwr (U.fh (4 * (d - 74) + q)) = (if up then 2 else 0)) ∧
    (s.blk.power.trans = [(d, up, t0)] → DueNow s (t0 + 4 * transitionTime d up) → Ends (.domainTimeout d) s fun t =>
      pdState t d = 7 ∧ t.blk.power.trans = [] ∧ Cause t U.kiln 21 ∧
        (∀ q, q < 4 → t.blk.ownPwr (U.fh (4 * (d - 74) + q)) = 0) ∧
        t.blk.fld U.kiln F.PWR_INFO_TIMEOUTS =
          min (2 ^ (F.PWR_INFO_TIMEOUTS.hi + 1 - F.PWR_INFO_TIMEOUTS.lo) - 1) (s.blk.fld U.kiln F.PWR_INFO_TIMEOUTS + 1)) ∧
    (pdState s 74 = 2 → pdState s 75 = 0 → Ends (.switchedRailFail 2) s fun t => pdState t 74 = 7 ∧ pdState t 75 = 0 ∧
      (∀ e, e < 74 ∨ 76 ≤ e → e < 80 → pdState t e = pdState s e) ∧ t.blk.flag (U.fh 0) F.UNIT_FAULT_CONTAINED = true)

/-- R340 to R343: power requests and the ends of transitions. -/
def Obligations.PowerDomains : Prop := PowerRequests ∧ PowerTransitions

/-- R22, R65, R84, R90, R367: the ends of ramps, of self-tests and of a channel's calibration. -/
def Obligations.UnitMovesComplete : Prop := UnitMovesEnd ∧ ChannelCalibration

namespace Sys2Proof.Spec

/-- What every reset of the device keeps (R434): the fatal latch with FLT_FATAL, the OTP, the boot flash, OPSEC, PWRCYC and the recorder's MRAM
with its counts; and what it loses: contexts, rings, engines, groups. The memories stand until the sparge that follows. -/
def DeviceReset (s t : State) : Prop :=
  t.blk.flag 0 F.FLT_MODE_FATAL = s.blk.flag 0 F.FLT_MODE_FATAL ∧
    (s.blk.flag 0 F.FLT_MODE_FATAL = true → t.blk.reg 0 R.FLT_FATAL = s.blk.reg 0 R.FLT_FATAL ∧
      t.blk.reg 0 R.FLT_FATAL_STAMP = s.blk.reg 0 R.FLT_FATAL_STAMP) ∧
    t.blk.otp = s.blk.otp ∧ t.blk.boot = s.blk.boot ∧ t.blk.sync.opsec = s.blk.sync.opsec ∧ t.blk.sync.pwrcyc = s.blk.sync.pwrcyc ∧
    t.blk.reg U.sync R.SYNC_OPSEC = s.blk.reg U.sync R.SYNC_OPSEC ∧ t.blk.reg U.rec R.REC_LOST = s.blk.reg U.rec R.REC_LOST ∧
    t.blk.fld U.rec F.REC_SEQ_HEAD_HEAD = s.blk.fld U.rec F.REC_SEQ_HEAD_HEAD ∧ t.blk.fld U.rec F.REC_STAT_NEXT = s.blk.fld U.rec F.REC_STAT_NEXT ∧
    t.blk.ctxs = [] ∧ t.blk.rings = [] ∧ t.blk.engs = [] ∧ t.blk.groups = [] ∧ t.blk.time.running = false ∧ t.blk.everLocked = false ∧ MemSame s t

/-- Every register outside the root, the recorder and the sync unit, and outside what `free` names, is at its reset value; but a FAILED unit
stays FAILED until its built-in test passes (R24), an RXC keeps the mark of its failed slice (R85), and the copies of the fatal latch stand with
it (R18). -/
def RegsReset (s t : State) (free : Nat → Bool) : Prop :=
  (∀ u, s.blk.ownState u = 6 → t.blk.ownState u = 6) ∧ (s.blk.flag 0 F.FLT_MODE_FATAL = true → ∀ u, s.blk.flag u F.UNIT_FAULT_FATAL = true →
    t.blk.flag u F.UNIT_FAULT_FATAL = true) ∧
  (∀ k, k < 32 → t.blk.fld (U.rxc k) F.RXC_SLICE_FAILED = s.blk.fld (U.rxc k) F.RXC_SLICE_FAILED) ∧
  ∀ u off, off < 1024 → u ≠ 0 → u ≠ U.rec → u ≠ U.sync → free u = false → (off = R.UNIT_STATE → s.blk.ownState u ≠ 6) →
    (off = R.UNIT_FAULT → s.blk.flag 0 F.FLT_MODE_FATAL = false) →
    (off = R.RXC_SLICE → kindOf u = 0x02 → s.blk.fld u F.RXC_SLICE_FAILED = 0) → t.blk.reg u off = regReset u off

/-- No module cause waits to take effect again at a release. -/
abbrev NoCauses (s : State) : Prop := s.blk.root.muteLow = false ∧ s.blk.thermalOff = false

/-- The device is released (R351, R374, R433): BOOT_MODE is sampled, start-up stands at its first step, without the latch the collector enters
START-UP with an empty FLT_COLLECT, and a POWER-UP event leaves for the recorder. -/
def Released (s t : State) (mode : Nat) : Prop :=
  t.blk.inReset = false ∧ t.blk.fld 0 F.HOST_BOOT_BOOT_MODE = mode ∧ t.blk.fld 0 F.HOST_BOOT_PHASE = s.blk.fld 0 F.HOST_BOOT_PHASE ∧
    t.blk.fld 0 F.HOST_BOOT_LAST_RESET = s.blk.host.resetKind ∧ t.blk.host.releaseAt = s.blk.t ∧
    (∃ e : RecEv, e.typ = 0x0A ∧ t.blk.recd.incoming = s.blk.recd.incoming ++ [e]) ∧
    (s.blk.flag 0 F.FLT_MODE_FATAL = false → t.blk.fld 0 F.FLT_COLLECT_INFO_PHASE = 1 ∧ t.blk.reg 0 R.FLT_COLLECT = 0) ∧ MemSame s t

end Sys2Proof.Spec

/-- R18, R24, R85, R303, R434, R435, R455: POR_N, a sagged always-on rail and RST_N reset every unit and keep what R434 names, and the state of a FAILED unit with
the copies of the fatal latch, and the mark of a failed slice; RST_N keeps SYNC_WALL and kiln's levels too; VDD_AO's removal loses the fatal latch; VDD_AO's return counts PWRCYC and resumes OPSEC one on. -/
def Sys2Proof.Spec.ResetsKeepAndLose : Prop :=
  ∀ s : State, Settled s → s.blk.host.aoOff = false →
    (s.blk.host.porLow = false → Ends .porNAssert s fun t => DeviceReset s t ∧ t.blk.host.porLow = true ∧ t.blk.inReset = true ∧
      t.blk.reg U.sync R.SYNC_WALL = 0 ∧ RegsReset s t fun _ => false) ∧
    (s.blk.host.railLow = false → Ends .aoRailDrop s fun t => DeviceReset s t ∧ t.blk.host.railLow = true ∧ t.blk.inReset = true ∧
      RegsReset s t fun _ => false) ∧
    (s.blk.inReset = false → Ends .rstNAssert s fun t => DeviceReset s t ∧ t.blk.host.rstLow = true ∧ t.blk.host.resetKind = 2 ∧
      t.blk.reg U.sync R.SYNC_WALL = s.blk.reg U.sync R.SYNC_WALL ∧ t.blk.fld U.kiln F.KILN_STAT_LEVEL = s.blk.fld U.kiln F.KILN_STAT_LEVEL ∧
      RegsReset s t fun u => u == U.kiln || kindOf u == 0x08) ∧
    (Ends .vddAoRemoval s fun t => t.blk.host.aoOff = true ∧ t.blk.flag 0 F.FLT_MODE_FATAL = false ∧ t.blk.otp = s.blk.otp ∧
      t.blk.sync.opsec = s.blk.sync.opsec ∧ t.blk.reg U.sync R.SYNC_WALL = 0 ∧ MemSame s t ∧
      ∀ u off, off < 1024 → u ≠ 0 → u ≠ U.rec → u ≠ U.sync → t.blk.reg u off = regReset u off)

/-- R50, R351, R374, R433, R437: a release starts start-up from its first step, once no other pin or rail holds the device. -/
def Sys2Proof.Spec.Releases : Prop :=
  ∀ (mode : Nat) (s : State), Settled s → mode < 4 → s.blk.host.resetKind < 3 →
    (s.blk.host.aoOff = true → Ends .vddAoPowerUp s fun t => t.blk.host.aoOff = false ∧ t.blk.host.porLow = true ∧
      t.blk.fld U.sync F.SYNC_OPSEC_OPSEC = (s.blk.sync.opsec + 1) % 2 ^ 40 ∧ t.blk.sync.pwrcyc = min 16777215 (s.blk.sync.pwrcyc + 1) ∧
      (∃ e : RecEv, e.typ = 0x0A ∧ t.blk.recd.incoming = s.blk.recd.incoming ++ [e])) ∧
    (s.blk.host.aoOff = false → NoCauses s →
      (s.blk.host.porLow = true → s.blk.host.rstLow = false → s.blk.host.railLow = false → Ends (.porNRelease mode) s fun t => Released s t mode) ∧
      (s.blk.host.porLow = true → s.blk.host.rstLow = true → Ends (.porNRelease mode) s fun t => t.blk.inReset = true ∧ t.blk.regs = s.blk.regs) ∧
      (s.blk.host.rstLow = true → s.blk.host.porLow = false → s.blk.host.railLow = false → Ends (.rstNRelease mode) s fun t => Released s t mode) ∧
      (s.blk.host.railLow = true → s.blk.host.porLow = false → s.blk.host.rstLow = false → Ends (.aoRailReturn mode) s fun t => Released s t mode))

/-- R36, R352: REFCLK qualifies from 10 ms after the release on, and air time starts; where it has not in 100 ms start-up halts in PHASE 9 with
the clock bit of FLT_COLLECT; its loss is FATAL at the root with REF_LOST, and the counter stops with the clock. -/
def Sys2Proof.Spec.ReferenceClock : Prop :=
  ∀ s : State, Settled s → s.blk.inReset = false →
    (s.blk.refWait = true → s.blk.host.releaseAt + 19660800 ≤ s.blk.t → Ends .refclkQualify s fun t =>
      t.blk.time.running = true ∧ t.blk.time.air = 0 ∧ t.blk.t = s.blk.t ∧ t.blk.time.tickEnd = s.blk.t + 16384 ∧ t.blk.sync.refOk = true ∧
        RegsKept s t (fun u off => u == 0 && off == R.HOST_PCIE) ∧ MemSame s t) ∧
    (s.blk.refWait = true → s.blk.host.releaseAt + 196608000 ≤ s.blk.t → s.blk.fld 0 F.FLT_COLLECT_INFO_PHASE = 1 →
      Ends .refclkQualTimeout s fun t => t.blk.fld 0 F.HOST_BOOT_PHASE = 9 ∧ (t.blk.reg 0 R.FLT_COLLECT).getLsbD 0 = true ∧ Cause t 0 29 ∧ MemSame s t) ∧
    (s.blk.sync.refOk = true → s.blk.flag 0 F.FLT_MODE_FATAL = false → ∀ stopped, Ends (.refLost stopped) s fun t =>
      t.blk.flag 0 F.FLT_MODE_FATAL = true ∧ t.blk.ownState 0 = 6 ∧ t.blk.sync.refOk = false ∧
        (stopped = true → t.blk.time.running = false) ∧ t.blk.fld 0 F.UNIT_FAULT_CODE = C.refLost ∧ t.blk.fld 0 F.UNIT_FAULT_CLASS = 3 ∧ Cause t 0 3 ∧
        MemSame s t)

namespace Sys2Proof.Spec

/-- SRAM that sparge erases (R303). -/
def sparged : List Ram := [.cb, .fcoef, .lut, .lutAct, .mcCoef, .ccSeq, .imem, .dmem, .ctx, .tallyBuf, .tracer, .monBuf, .token]

/-- Start-up stands in PHASE `p` with no fatal latch. -/
abbrev InPhase (s : State) (p : Nat) : Prop :=
  Settled s ∧ s.blk.inReset = false ∧ s.blk.flag 0 F.FLT_MODE_FATAL = false ∧ s.blk.fld 0 F.HOST_BOOT_PHASE = p

end Sys2Proof.Spec

/-- R303, R407, R408, R437: the phases of start-up follow one another; sparge leaves every SRAM word and every byte of HBM zero; secure boot from a
slot that passes seals, with the warden's engine running; with both slots refused the ROM enters recovery in PHASE 10; the runtime starts with
the cue engines in system code; and the device is in service once no channel calibrates. In service the same command ends the warden's TEST phase (model's choice, log entry 103). -/
def Sys2Proof.Spec.StartUpPhases : Prop :=
  ∀ (va vb : Nat) (s : State),
    (InPhase s 0 → s.blk.sync.refOk = true → Ends (.startupPhaseDone [] va vb) s fun t => t.blk.fld 0 F.HOST_BOOT_PHASE = 1 ∧ MemSame s t) ∧
    (InPhase s 1 → Ends (.startupPhaseDone [] va vb) s fun t => t.blk.fld 0 F.HOST_BOOT_PHASE = 2 ∧
      (s.blk.thermalOff = false → pdState t 72 = 2 ∧ pdState t 73 = 2) ∧ MemSame s t) ∧
    (InPhase s 2 → Ends (.startupPhaseDone [] va vb) s fun t => t.blk.fld 0 F.HOST_BOOT_PHASE = 3 ∧
      (∀ r ∈ sparged, ∀ i, i < 2 ^ 40 → t.mem.rd r i = 0) ∧ (∀ a, a < 2 ^ 37 → t.mem.rdByte a = 0) ∧
      ∀ r, r ∉ sparged → ∀ i, i < 2 ^ 40 → t.mem.rd r i = s.mem.rd r i) ∧
    (InPhase s 3 → s.blk.voided = false → s.blk.fld 0 F.HOST_BOOT_BOOT_MODE ≠ 1 → s.blk.boot.committed = 0 → s.blk.boot.probation = false →
      s.mem.words = [] →
      (Ends (.startupPhaseDone [] 0 vb) s fun t => t.blk.fld 0 F.HOST_BOOT_PHASE = 4 ∧ t.blk.host.isSealed = true ∧ t.blk.boot.running = 0 ∧
        (t.blk.eng 32).running = true ∧ (t.blk.eng 32).sys = true ∧ t.blk.ownState 0 = 1) ∧
      Ends (.startupPhaseDone [] 1 2) s fun t => t.blk.fld 0 F.HOST_BOOT_PHASE = 10 ∧ t.blk.host.isSealed = s.blk.host.isSealed ∧ Cause t 0 29 ∧
        t.blk.flag U.warden F.UNIT_FAULT_CORRECTED = true) ∧
    (InPhase s 4 → s.blk.boot.setOk = false → Ends (.startupPhaseDone [] va vb) s fun t => t.blk.fld 0 F.HOST_BOOT_PHASE = 5 ∧
      t.blk.fld U.warden F.WDN_SET_IMPORT = 2 ∧ ∀ n, n < 32 → (t.blk.eng n).running = true ∧ (t.blk.eng n).sys = true ∧ (t.blk.eng n).pc = 0) ∧
    (InPhase s 5 → Ends (.startupPhaseDone [] va vb) s fun t => t.blk.fld 0 F.HOST_BOOT_PHASE = 6 ∧
      ∀ k, k < 32 → s.blk.ownPwr (U.rxc k) = 2 → t.blk.calDue (U.rxc k) = some s.blk.t) ∧
    (InPhase s 6 → (∀ k, k < 32 → s.blk.calDue (U.rxc k) = none ∧ s.blk.calDue (U.txc k) = none) → Ends (.startupPhaseDone [] va vb) s fun t =>
      t.blk.fld 0 F.HOST_BOOT_PHASE = 8 ∧ t.blk.fld 0 F.HOST_BOOT_UP_MS = min 65535 ((s.blk.t - s.blk.host.releaseAt) / 1966080) ∧ Cause t 0 29) ∧
    (InPhase s 8 → s.blk.fld 0 F.FLT_COLLECT_INFO_PHASE = 2 → Ends (.startupPhaseDone [] va vb) s fun t =>
      t.blk.fld 0 F.FLT_COLLECT_INFO_PHASE = 0 ∧ t.blk.fld 0 F.HOST_BOOT_PHASE = 8 ∧ MemSame s t)

/-- R303, R374, R394: a life-cycle change burns its state, resets the device as RST_N does, erases the recorder's MRAM with its LOST count, and for
RETURNED and VOID the settings and calibration stores; LIFECYCLE is the first record, POWER-UP the second. -/
def Sys2Proof.Spec.LifeCycleChange : Prop :=
  ∀ (mode target : Nat) (hy : Bool) (s : State), Settled s → s.blk.wdn.lcDue = some (target, hy) → s.blk.inReset = false → mode < 4 → NoCauses s →
    Ends (.lifecycle mode) s fun t => t.blk.otp.lc = target ∧ t.blk.otp.hybrid = (s.blk.otp.hybrid || hy) ∧ t.blk.reg U.rec R.REC_LOST = 0 ∧
      t.blk.fld U.rec F.REC_SEQ_HEAD_HEAD = 0 ∧ t.blk.fld 0 F.HOST_BOOT_PHASE = 0 ∧ t.blk.fld 0 F.HOST_BOOT_LAST_RESET = 2 ∧ t.blk.ctxs = [] ∧
      (∃ e f : RecEv, e.typ = 0x0C ∧ f.typ = 0x0A ∧ t.blk.recd.incoming = [e, f]) ∧
      (∀ i, i < 2 ^ 40 → (target = 3 ∨ target = 4 → t.mem.rd .setStore i = 0 ∧ t.mem.rd .calStore i = 0) ∧
        (target < 3 → t.mem.rd .setStore i = s.mem.rd .setStore i ∧ t.mem.rd .calStore i = s.mem.rd .calStore i))

/-- R36, R303, R394, R407, R408, R434, R435, R437: resets, releases, REFCLK, the phases of start-up and the reset of a life-cycle change. -/
def Obligations.ResetsAndReleases : Prop := ResetsKeepAndLose ∧ Releases

/-- R36, R303, R394, R407, R408, R437: REFCLK, the phases of start-up, and the reset of a life-cycle change. -/
def Obligations.StartUp : Prop := ReferenceClock ∧ StartUpPhases ∧ LifeCycleChange

namespace Sys2Proof.Spec

/-- Kinds whose fence has no effect on other units: sensors, ports, synthesisers, observation receivers, cue engines. -/
abbrev loneKind (u : Nat) : Prop := kindOf u ∈ [0x08, 0x09, 0x0D, 0x0E, 0x0F]

/-- The word of a captured fault: UID, CODE, CLASS, V. -/
def faultWord (u code cls : Nat) : Word := BitVec.ofNat 64 (u + code * 2 ^ 16 + cls * 2 ^ 24 + 2 ^ 31)

end Sys2Proof.Spec

/-- R54, R347, R350, R353, R358, R361, R363: a fault is reported at its unit and takes the reaction of its class. CORRECTED counts, CONTAINED fences
its unit unless its code does not, a failed built-in test leaves it FAILED, a sensor FENCED while another of its kind serves, and a unit of an
essential class fatal; FATAL fails the unit (R54: but no PB) and the root, sets the latch and FAULT_N, and stops the cue engines; at start-up
it halts. -/
def Sys2Proof.Spec.FaultsByClass : Prop :=
  ∀ (u code path : Nat) (s : State), Settled s → s.blk.inReset = false → reservedUid u = false →
    (classOf code = 1 → Ends (.faultRaise u code path) s fun t =>
      Corrected s t u ∧ t.blk.ownState u = s.blk.ownState u ∧ RegsKept s t (fun v _ => v == u || v == 0) ∧ MemSame s t) ∧
    (classOf code = 2 → code ≠ C.bistFail → loneKind u → s.blk.fld u F.UNIT_FAULT_CLASS < 3 →
      Ends (.faultRaise u code path) s fun t => t.blk.flag u F.UNIT_FAULT_CONTAINED = true ∧ t.blk.fld u F.UNIT_FAULT_CODE = code % 256 ∧
        t.blk.fld u F.UNIT_FAULT_CLASS = 2 ∧ Cause t u 2 ∧ MemSame s t ∧
        t.blk.ownState u = (if notFencing code = true ∨ s.blk.ownState u = 6 then s.blk.ownState u else 4) ∧
        (kindOf u = 0x08 → s.blk.flt.captured = [] → t.blk.reg 0 R.FLT_FIRST = faultWord u code 2 ∧ Cause t 0 22)) ∧
    (code = C.bistFail → (loneKind u → kindOf u ≠ 0x08 → Ends (.faultRaise u code path) s fun t =>
        t.blk.flag u F.UNIT_FAULT_CONTAINED = true ∧ t.blk.ownState u = 6 ∧ Cause t u 2 ∧ MemSame s t) ∧
      (u ∈ [0x04E3, 0x04E5, 0x04E6, 0x04E8] → Ends (.faultRaise u code path) s fun t =>
        t.blk.flag u F.UNIT_FAULT_CONTAINED = true ∧ t.blk.ownState u = 6 ∧ Cause t u 2 ∧
          t.blk.flag 0 F.FLT_MODE_FATAL = s.blk.flag 0 F.FLT_MODE_FATAL ∧ MemSame s t) ∧
      (∀ n j, u = U.ts n → n < 48 → j < 48 → j ≠ n → (40 ≤ j ↔ 40 ≤ n) → s.blk.ownState (U.ts j) ∉ [4, 6] → s.blk.ownState u ≠ 6 →
        Ends (.faultRaise u code path) s fun t => t.blk.ownState u = 4 ∧ t.blk.fld u F.TS_STAT_CAUSE = 3 ∧
          t.blk.flag u F.UNIT_FAULT_CONTAINED = true ∧ Cause t u 17 ∧ t.blk.flag 0 F.FLT_MODE_FATAL = s.blk.flag 0 F.FLT_MODE_FATAL ∧ MemSame s t) ∧
      (kindOf u ∈ [0x10, 0x11, 0x14, 0x17] → Ends (.faultRaise u code path) s fun t => t.blk.flag 0 F.FLT_MODE_FATAL = true ∧
        t.blk.ownState 0 = 6 ∧ Cause t 0 3 ∧ (s.blk.fld 0 F.HOST_BOOT_PHASE < 8 → t.blk.fld 0 F.HOST_BOOT_PHASE = 9) ∧ MemSame s t)) ∧
    (classOf code = 3 → kindOf u = 0x04 → Ends (.faultRaise u code path) s fun t => t.blk.flag 0 F.FLT_MODE_FATAL = true ∧
      t.blk.ownState 0 = 6 ∧ t.blk.ownState u = s.blk.ownState u ∧ Cause t u 3 ∧ MemSame s t) ∧
    (classOf code = 3 → u = 0 ∨ kindOf u = 0x08 → Ends (.faultRaise u code path) s fun t =>
      t.blk.flag 0 F.FLT_MODE_FATAL = true ∧ t.blk.ownState u = 6 ∧ t.blk.ownState 0 = 6 ∧ t.blk.flag 0 F.FLT_PIN_DRIVE = true ∧ Cause t u 3 ∧
        t.blk.flag u F.UNIT_FAULT_FATAL = true ∧ MemSame s t ∧ (code = C.bistFatal → s.blk.fld 0 F.HOST_BOOT_PHASE < 8 → t.blk.fld 0 F.HOST_BOOT_PHASE = 9) ∧
        (s.blk.flag 0 F.FLT_MODE_FATAL = false → (∀ n, n < 32 → (t.blk.eng n).running = false) ∧ t.blk.fld 0 F.FLT_COLLECT_INFO_PHASE = 3 ∧
          (s.blk.flag 0 F.FLT_FATAL_V = false → t.blk.reg 0 R.FLT_FATAL = faultWord u code 3)))

/-- R355, R357, R362: the steps of a safe state; SAFE_CLR, accepted once every unit that set the state is FENCED, FAILED or cleared, and else
refused with CLR_REJ; FIRST_CLR empties FLT_FIRST, every FLT_NEXT and LOST. -/
def Sys2Proof.Spec.SafeStates : Prop :=
  ∀ (who : Who) (s : State), Settled s →
    (∀ t0 st rest, s.blk.flt.safeSeq = (t0, st) :: rest → DueNow s t0 → Ends .safeStateStep s fun t =>
      t.blk.flt.safeSeq = rest ∧ (st = .rampDown → t.blk.root.safeCmd = true) ∧
        (st = .strobes → ∀ c, c < 4 → (t.blk.ccH c).waiting = none ∧ (t.blk.ccH c).cmd = none ∧ (∀ r ∈ (t.blk.ccH c).running, r.cut = true) ∧
          ((s.blk.ccH c).running = [] → (t.blk.ccH c).running = [])) ∧ MemSame s t) ∧
    (Takes s who 0 → whoSys who = true → s.blk.flag 0 F.FLT_MODE_SAFE = true → s.blk.flt.safeAt ≠ some s.blk.t →
      ((∀ u ∈ s.blk.flt.safeSetters, s.blk.ownState u ∈ [4, 6] ∨ s.blk.flag u F.UNIT_FAULT_CONTAINED = false) → Ends (.safeClr who) s fun t =>
        t.blk.flag 0 F.FLT_MODE_SAFE = false ∧ Cause t 0 21 ∧ t.blk.root.safeUp = true ∧ t.blk.flt.safeSetters = [] ∧
          RegsKept s t (fun v _ => v == 0) ∧ MemSame s t) ∧
      ((∃ u ∈ s.blk.flt.safeSetters, s.blk.ownState u ∉ [4, 6] ∧ s.blk.flag u F.UNIT_FAULT_CONTAINED = true) → Ends (.safeClr who) s fun t =>
        t.blk.flag 0 F.FLT_MODE_SAFE = true ∧ t.blk.flag 0 F.FLT_MODE_CLR_REJ = true ∧ RegsKept s t (fun v _ => v == 0) ∧ MemSame s t)) ∧
    (Takes s who 0 → who = .pf → Ends (.safeClr who) s fun t => Corrected s t 0 ∧
      t.blk.flag 0 F.FLT_MODE_SAFE = s.blk.flag 0 F.FLT_MODE_SAFE ∧ RegsKept s t (fun v _ => v == 0) ∧ MemSame s t) ∧
    (Takes s who 0 → whoPfSys who = true → Ends (.firstClr who) s fun t => t.blk.reg 0 R.FLT_FIRST = 0 ∧ t.blk.reg 0 R.FLT_FIRST_STAMP = 0 ∧
      (∀ j, j < 16 → t.blk.reg 0 (R.FLT_NEXT j) = 0) ∧ t.blk.fld 0 F.FLT_NEXT_CNT_COUNT = 0 ∧ t.blk.fld 0 F.FLT_NEXT_CNT_LOST = 0 ∧
      RegsKept s t (fun v _ => v == 0) ∧ MemSame s t)

/-- R351, R359, R364, R365: a TEST phase, FAULT_N under DRIVE and its pulse, and injection: refused with INJ_REFUSED, or counted and reported at
the selected unit, without a reaction where DRY = 1. -/
def Sys2Proof.Spec.FaultTests : Prop :=
  ∀ (who : Who) (on : Bool) (s : State),
    (Takes s .warden 0 → s.blk.fld 0 F.FLT_COLLECT_INFO_PHASE = 0 → Ends (.bistRun .warden) s fun t =>
      t.blk.fld 0 F.FLT_COLLECT_INFO_PHASE = 2 ∧ t.blk.reg 0 R.FLT_COLLECT = 0 ∧ RegsKept s t (fun v _ => v == 0) ∧ MemSame s t) ∧
    (Takes s who 0 → whoPfSys who = true → (on = false → s.blk.overridden 0 F.FLT_PIN_DRIVE = false) →
      Ends (.faultPinDriveWrite who on) s fun t => t.blk.flag 0 F.FLT_PIN_DRIVE = on ∧
      (on = true → t.blk.pinLow = true) ∧ (on = false → s.blk.flt.pulseEnd = none → t.blk.pinLow = false) ∧
      t.blk.fld 0 F.FLT_PIN_ASSERTS = s.blk.fld 0 F.FLT_PIN_ASSERTS ∧ RegsKept s t (fun v _ => v == 0) ∧ MemSame s t) ∧
    (∀ t0, Settled s → s.blk.flt.pulseEnd = some t0 → DueNow s t0 → Ends .faultPulseEnd s fun t => t.blk.flag 0 F.FLT_PIN_PULSE = false ∧
      t.blk.flt.pulseEnd = none ∧ (s.blk.flag 0 F.FLT_PIN_DRIVE = false → t.blk.pinLow = false) ∧ RegsKept s t (fun v off => v == 0 && off == R.FLT_PIN) ∧
      MemSame s t) ∧
    let u := s.blk.fld 0 F.FLT_INJ_SEL_UID
    let cls := s.blk.fld 0 F.FLT_INJ_SEL_CLASS
    let dry := s.blk.flag 0 F.FLT_INJ_SEL_DRY
    let refused := s.blk.flag 0 F.FLT_CFG_INJ_EN = false ∨ whoPfSys who = false ∨ cls = 0 ∨ classOf (s.blk.fld 0 F.FLT_INJ_SEL_CODE) = 0 ∨
      (cls = 3 ∧ dry = false ∧ s.blk.lcTest = false)
    Takes s who 0 → (refused → Ends (.fltInjGo who) s fun t => t.blk.flag 0 F.FLT_INJ_STAT_REFUSED = true ∧ Cause t 0 25 ∧ Cause t 0 1 ∧
        t.blk.fld 0 F.FLT_INJ_STAT_COUNT = s.blk.fld 0 F.FLT_INJ_STAT_COUNT ∧ MemSame s t) ∧
      (¬ refused → reservedUid u = false → dry = true → Ends (.fltInjGo who) s fun t =>
        t.blk.fld 0 F.FLT_INJ_STAT_COUNT = min 65535 (s.blk.fld 0 F.FLT_INJ_STAT_COUNT + 1) ∧ t.blk.ownState u = s.blk.ownState u ∧
          Cause t u cls ∧ (cls = 2 → t.blk.flag u F.UNIT_FAULT_CONTAINED = true) ∧ t.blk.flag 0 F.FLT_MODE_FATAL = s.blk.flag 0 F.FLT_MODE_FATAL ∧
          t.blk.flag u F.UNIT_FAULT_FATAL = s.blk.flag u F.UNIT_FAULT_FATAL ∧ MemSame s t)

/-- R347 to R365: the classes of faults, the safe states and their release, the pin and injection. -/
def Obligations.FaultHandling : Prop := FaultsByClass ∧ SafeStates ∧ FaultTests

/-- R34, R49, R357, R358: at a tick boundary the clock stands at the boundary's Tc and the next tick is 16,384 Tc long; a released safe state
lets the TXCs go; under the latch no cue moves. Without a running clock, or in reset, nothing happens. -/
def Obligations.TickBoundary : Prop :=
  ∀ s : State, Settled s →
    (s.blk.time.running = true → s.blk.inReset = false → s.blk.t < s.blk.time.tickEnd → Ends .tickBoundary s fun t =>
      t.blk.t = s.blk.time.tickEnd ∧ t.blk.time.air = s.blk.time.air + (s.blk.time.tickEnd - s.blk.t) ∧ t.blk.time.running = true ∧
        t.blk.time.tickStart = s.blk.time.tickEnd ∧ t.blk.time.tickEnd = s.blk.time.tickEnd + 16384 ∧ t.blk.loop.closed = false ∧
        (s.blk.root.safeUp = true → t.blk.root.safeUp = false ∧ t.blk.root.safeCmd = false) ∧
        (s.blk.flag 0 F.FLT_MODE_FATAL = true → t.blk.ctxs = s.blk.ctxs)) ∧
    (s.blk.time.running = false ∨ s.blk.inReset = true → Ends .tickBoundary s fun t => t = s)

namespace Sys2Proof.Spec

/-- Only registers of one unit change. -/
def OnlyUnit (s t : State) (u : Nat) : Prop := RegsKept s t (fun v _ => v == u) ∧ MemSame s t

/-- Tc in a frame. -/
def frame : Nat := 19660800

end Sys2Proof.Spec

/-- R37, R38: a burst that is decoded shows itself in SYNC_TRK_STAT; one of another cell ends the row of bursts; the third of a row whose
boundaries agree qualifies the tracker once PBCH has decoded. A missed burst counts, and the eighth loses the source. Nothing is taken while TRK_EN
is 0. -/
def Sys2Proof.Spec.TrackerBursts : Prop :=
  ∀ (back sfn pci ssb : Nat) (crc : Bool) (rsrp ferr : Int) (s : State), Settled s → sfn < 1024 → pci < 1024 → ssb < 64 →
    (s.blk.flag U.sync F.SYNC_CFG_TRK_EN = false → (Ends (.trkBurstDecode back sfn crc pci ssb rsrp ferr) s fun t => t = s) ∧
      Ends .trkBurstMissed s fun t => t = s) ∧
    (s.blk.flag U.sync F.SYNC_CFG_TRK_EN = true →
      (Ends (.trkBurstDecode back sfn crc pci ssb rsrp ferr) s fun t => t.blk.fld U.sync F.SYNC_TRK_STAT_PCI = pci ∧
        t.blk.flag U.sync F.SYNC_TRK_STAT_CRC_OK = crc ∧ t.blk.fld U.sync F.SYNC_TRK_STAT_SSB = ssb ∧ t.blk.fld U.sync F.SYNC_TRK_STAT_MISSES = 0 ∧
        (crc = true → t.blk.fld U.sync F.SYNC_TRK_STAT_SFN = sfn) ∧
        (s.blk.flag U.sync F.SYNC_TRK_CFG_PCI_ANY = false → pci ≠ s.blk.fld U.sync F.SYNC_TRK_CFG_PCI →
          t.blk.sync.trkBursts = [] ∧ t.blk.reg U.sync R.SYNC_STAT = s.blk.reg U.sync R.SYNC_STAT) ∧
        (∀ x y rest, let ph := ((back : Int) - s.blk.sfld U.sync F.SYNC_REF_ADJ_ADJ - s.blk.t) % frame
          s.blk.sync.trkBursts = x :: y :: rest → burstsAgree [ph, x, y] = true → crc = false → s.blk.sync.trkCrc = true → s.blk.sync.trkSfnBad < 2 →
          s.blk.flag U.sync F.SYNC_TRK_CFG_PCI_ANY = true → t.blk.flag U.sync F.SYNC_STAT_TRK_QUAL = true) ∧ OnlyUnit s t U.sync) ∧
      Ends .trkBurstMissed s fun t => t.blk.fld U.sync F.SYNC_TRK_STAT_MISSES = min 65535 (s.blk.fld U.sync F.SYNC_TRK_STAT_MISSES + 1) ∧
        t.blk.sync.trkBursts = [] ∧ t.blk.flag U.sync F.SYNC_STAT_TRK_QUAL =
          (s.blk.flag U.sync F.SYNC_STAT_TRK_QUAL && decide (s.blk.fld U.sync F.SYNC_TRK_STAT_MISSES < 7)) ∧ OnlyUnit s t U.sync)

/-- R40: an edge takes the written time of day and counts on; the third edge 1 s ± 1 µs after the one before qualifies PPS, an early one and a late
one lose it with the time of day. -/
def Sys2Proof.Spec.PulsePerSecond : Prop :=
  ∀ (ferr : Int) (s : State), Settled s → s.blk.flag U.sync F.SYNC_CFG_PPS_EN = true →
    let sec := s.blk.fld U.sync F.SYNC_TOD_GPS_SEC
    (s.blk.flag U.sync F.SYNC_TOD_VALID = true → Ends (.ppsEdge ferr) s fun t => t.blk.fld U.sync F.SYNC_TOD_GPS_SEC = (sec + 1) % 2 ^ 40 ∧
      t.blk.sync.ppsEdge = some s.blk.t ∧
      (s.blk.sync.ppsEdge = none → t.blk.sync.ppsRun = 1 ∧ t.blk.flag U.sync F.SYNC_STAT_PPS_QUAL = s.blk.flag U.sync F.SYNC_STAT_PPS_QUAL) ∧
      (∀ e, s.blk.sync.ppsEdge = some e →
        (e + 1966080000 ≤ s.blk.t + 1966 → s.blk.t ≤ e + 1966080000 + 1966 → t.blk.sync.ppsRun = s.blk.sync.ppsRun + 1 ∧
          (2 ≤ s.blk.sync.ppsRun → t.blk.flag U.sync F.SYNC_STAT_PPS_QUAL = true)) ∧
        (s.blk.t + 1966 < e + 1966080000 → t.blk.flag U.sync F.SYNC_STAT_PPS_QUAL = false ∧ t.blk.flag U.sync F.SYNC_TOD_VALID = false)) ∧
      (∀ c, s.blk.sync.todWritten = true → s.blk.sync.todCount = some c → c ≠ sec → (∀ e, s.blk.sync.ppsEdge = some e → e + 1966080000 ≤ s.blk.t + 1966) →
        Cause t U.sync 21) ∧ OnlyUnit s t U.sync) ∧
    ∀ e, s.blk.sync.ppsEdge = some e → DueNow s (e + 1966080000 + 1967) → Ends .ppsTimeout s fun t =>
      t.blk.flag U.sync F.SYNC_STAT_PPS_QUAL = false ∧ t.blk.flag U.sync F.SYNC_TOD_VALID = false ∧ t.blk.sync.ppsRun = 0 ∧
        OnlyUnit s t U.sync

/-- R41, R42: the sixteenth Sync in a row of the selected master within ±100 ns qualifies PTP, one beyond ±1 µs loses it, and so do three
Announce intervals of it without an Announce, which leaves the choice to the masters still heard; an Announce enters its master among
those that the alternate BMCA compares (the model's order of comparison is log entry 105); of messages with PTP off, of another port or
domain, and of the Sync messages of a master that is not selected, only the frame is counted, and on a port that is not UP nothing is. A time of day is written for the next edge. -/
def Sys2Proof.Spec.PrecisionTime : Prop :=
  ∀ (who : Who) (port dom src sec ns : Nat) (a m : PtpMaster) (err ferr : Int) (v : Word) (s : State), Settled s →
    let announce := Instr.ptpAnnounceRx port ⟨dom, a.id⟩ ⟨a.ivl, a.cls, a.acc, a.var, a.prio2, a.gm, a.steps⟩
    let frame := fun (t : State) => t.blk.fld (U.fh port) F.FH_RX_CNT_FRAMES = (s.blk.fld (U.fh port) F.FH_RX_CNT_FRAMES + 1) % 2 ^ 32 ∧ MemSame s t
    let counted := fun (t : State) => frame t ∧ t.blk.sync = s.blk.sync ∧ RegsKept s t fun v off => v == U.fh port && off == R.FH_RX_CNT
    (s.blk.fld (U.fh port) F.FH_STAT_LINK ≠ 2 → (Ends (.ptpSyncRx port ⟨dom, src⟩ err sec ns ferr) s fun t => t = s) ∧ Ends announce s fun t => t = s) ∧
    (port < 8 → s.blk.fld (U.fh port) F.FH_STAT_LINK = 2 →
     (s.blk.flag U.sync F.SYNC_CFG_PTP_EN = true → port = s.blk.fld U.sync F.SYNC_PTP_CFG_PORT → dom = s.blk.fld U.sync F.SYNC_PTP_CFG_DOMAIN →
      (s.blk.ptpBest = some m → m.id = src → Ends (.ptpSyncRx port ⟨dom, src⟩ err sec ns ferr) s fun t =>
        t.blk.sync.ptpOff = ((sec : Int) - 315964819) * 1966080000 + ((ns * 6144 / 3125 : Nat) : Int) +
          s.blk.sfld U.sync F.SYNC_AIR_OFFSET_OFFSET - s.blk.t ∧
        (err.natAbs ≤ 100 → t.blk.sync.ptpRun = s.blk.sync.ptpRun + 1 ∧ (15 ≤ s.blk.sync.ptpRun → t.blk.flag U.sync F.SYNC_STAT_PTP_QUAL = true)) ∧
        (100 < err.natAbs → t.blk.sync.ptpRun = 0) ∧ (1000 < err.natAbs → t.blk.flag U.sync F.SYNC_STAT_PTP_QUAL = false) ∧ frame t ∧
        RegsKept s t fun v off => v == U.sync || (v == U.fh port && off == R.FH_RX_CNT)) ∧
      (s.blk.ptpBest.map (·.id) ≠ some src → Ends (.ptpSyncRx port ⟨dom, src⟩ err sec ns ferr) s counted) ∧
      (a.at_ = s.blk.t → Ends announce s fun t => ∃ l, t.blk.sync = { s.blk.sync with masters := l } ∧ frame t ∧
        (RegsKept s t fun v off => v == U.fh port && off == R.FH_RX_CNT) ∧
        a ∈ l ∧ (∀ x ∈ l, x = a ∨ (x ∈ s.blk.sync.masters ∧ x.id ≠ a.id)) ∧
        ∀ x ∈ s.blk.sync.masters, x.id ≠ a.id → (s.blk.t < x.at_ + 3 * x.ivl ∨ s.blk.ptpBest = some x) → x ∈ l)) ∧
     (s.blk.flag U.sync F.SYNC_CFG_PTP_EN = false ∨ port ≠ s.blk.fld U.sync F.SYNC_PTP_CFG_PORT ∨ dom ≠ s.blk.fld U.sync F.SYNC_PTP_CFG_DOMAIN →
      (Ends (.ptpSyncRx port ⟨dom, src⟩ err sec ns ferr) s counted) ∧ Ends announce s counted)) ∧
    (s.blk.ptpBest = some m → DueNow s (m.at_ + 3 * m.ivl) → Ends .ptpAnnounceTimeout s fun t =>
      t.blk.flag U.sync F.SYNC_STAT_PTP_QUAL = false ∧ t.blk.sync.ptpRun = 0 ∧ OnlyUnit s t U.sync ∧
        ∀ x, x ∈ t.blk.sync.masters ↔ x ∈ s.blk.sync.masters ∧ s.blk.t < x.at_ + 3 * x.ivl) ∧
    (Takes s who U.sync → s.blk.time.coll = [] → Ends (.syncTodWrite who .both v) s fun t => t.blk.sync.todWritten = true ∧
      t.blk.fld U.sync F.SYNC_TOD_GPS_SEC = Word.fld v 39 0 ∧ t.blk.fld U.sync F.SYNC_TOD_VALID = Word.fld v 63 63 ∧
      RegsKept s t (fun u off => u == U.sync && off == R.SYNC_TOD) ∧ MemSame s t)

/-- R37 to R42: the three time sources. -/
def Obligations.TimeSources : Prop := TrackerBursts ∧ PulsePerSecond ∧ PrecisionTime

namespace Sys2Proof.Spec

/-- A better source than the selected one: qualified, enabled, with a lower PRIO, or TRK before PPS before PTP at equal values (R43). -/
abbrev outranks (s : State) (a : Nat) : Prop :=
  s.blk.qual a = true ∧ s.blk.srcOn a = true ∧ s.blk.srcRank a < s.blk.srcRank s.blk.syncSource

end Sys2Proof.Spec

/-- R44, R48, R49: a decided step moves the counter by d at its instant, with the first tick after it as R49 forms it, SYNC_LAST_STEP, the count of
steps and the record; at the first lock LOCKED and EVER_LOCKED come with it. Before its instant nothing happens. -/
def Sys2Proof.Spec.TimeSteps : Prop :=
  ∀ (d : Int) (at_ src : Nat) (first : Bool) (s : State), Settled s → s.blk.sync.step = some (d, at_, first, src) →
    (s.blk.t < at_ → Ends .timeStepApply s fun t => t = s) ∧
    (at_ ≤ s.blk.t → src < 4 → Ends .timeStepApply s fun t =>
      let air := (((s.blk.time.air : Int) + d) % ((2 ^ 39 * frame : Nat) : Int)).toNat
      let gap := 16384 - air % 16384
      t.blk.time.air = air ∧ t.blk.t = s.blk.t ∧ t.blk.time.tickStart = s.blk.t ∧
        t.blk.time.tickEnd = s.blk.t + (if gap < 8192 then gap + 16384 else gap) ∧ t.blk.sync.step = none ∧
        t.blk.reg U.sync R.SYNC_LAST_STEP = BitVec.ofInt 64 d ∧ t.blk.reg U.sync R.SYNC_STEP_STAMP = t.blk.now ∧
        t.blk.fld U.sync F.SYNC_STAT_STEPS = (s.blk.fld U.sync F.SYNC_STAT_STEPS + 1) % 65536 ∧ Cause t U.sync 18 ∧
        (first = true → t.blk.syncState = 1 ∧ t.blk.syncSource = src ∧ t.blk.everLocked = true ∧ Cause t U.sync 22) ∧ MemSame s t)

/-- R43, R44, R46: at a boundary without a qualified source the first lock waits, with TE_EST at its top; the first source to qualify has its step
decided for the next boundary; the loss of the selected one with no other starts HOLDOVER; RESYNC goes to ACQUIRE and takes every qualification. -/
def Sys2Proof.Spec.SyncAtTheBoundary : Prop :=
  ∀ s : State, Settled s → s.blk.time.running = true → s.blk.inReset = false → s.blk.t < s.blk.time.tickEnd → s.blk.sync.step = none →
    (s.blk.syncState = 0 → s.blk.sync.resync = false → s.blk.candidates = [] → Ends .tickBoundary s fun t => t.blk.syncState = 0 ∧
      t.blk.fld U.sync F.SYNC_TE_TE_EST = 4294967295 ∧ t.blk.flag U.sync F.SYNC_STAT_TDD_OK = false) ∧
    (s.blk.syncState = 0 → s.blk.sync.resync = false → s.blk.everLocked = false → s.blk.candidates ≠ [] → Ends .tickBoundary s fun t =>
      ∃ d src, src ∈ s.blk.candidates ∧ (∀ x ∈ s.blk.candidates, s.blk.srcRank src ≤ s.blk.srcRank x) ∧
        t.blk.sync.step = some (d, s.blk.time.tickEnd + 16384, true, src)) ∧
    (s.blk.syncState = 1 → s.blk.sync.resync = false → s.blk.syncSource ∈ s.blk.sync.losses → s.blk.candidates = [] → s.blk.everLocked = true →
      Ends .tickBoundary s fun t => (t.blk.syncState = 2 ∨ t.blk.syncState = 3) ∧ Cause t U.sync 20 ∧ Cause t U.sync 16) ∧
    (s.blk.sync.resync = true → Ends .tickBoundary s fun t => t.blk.syncState = 0 ∧ t.blk.syncSource = 0 ∧ t.blk.sync.resync = false ∧
      (∀ x, x ∈ [1, 2, 3] → t.blk.qual x = false) ∧ t.blk.everLocked = s.blk.everLocked)

/-- R38, R43, R44, R50, R51, R52: a hold-off that ends has its source taken over at the boundary; RESYNC is noted; a source whose enable is written 0
is lost, and a tracker setup that is not valid refuses TRK_EN with SYNC_CFG; OPSEC counts a second; a changed wall offset leaves a TIME-SET event. -/
def Sys2Proof.Spec.SyncCommands : Prop :=
  ∀ (who : Who) (v : Word) (s : State),
    (∀ a due, Settled s → s.blk.holdoffDue = some (a, due) → DueNow s due → outranks s a ∧ Ends .syncHoldoffExpiry s fun t =>
      t.blk = { s.blk with sync := { s.blk.sync with takeover := some a } } ∧ MemSame s t) ∧
    (Takes s who U.sync → s.blk.time.coll = [] →
      (Ends (.resync who) s fun t => t.blk.sync.resync = true ∧ t.blk.regs = s.blk.regs ∧ MemSame s t) ∧
      (Ends (.syncCfgWrite who .both v) s fun t =>
        (v.getLsbD 1 = false → s.blk.srcOn 2 = true → t.blk.srcOn 2 = false ∧ t.blk.qual 2 = false ∧ (s.blk.qual 2 = true → 2 ∈ t.blk.sync.losses)) ∧
        (v.getLsbD 2 = true → t.blk.srcOn 3 = true ∧ t.blk.qual 3 = s.blk.qual 3) ∧
        (v.getLsbD 0 = true → s.blk.srcOn 1 = false → s.blk.trkSetupOk = false → t.blk.srcOn 1 = false ∧ Cause t U.sync 1 ∧
          t.blk.flag U.sync F.UNIT_FAULT_CORRECTED = true) ∧ MemSame s t) ∧
      (Ends (.syncWallWrite who .both v) s fun t => t.blk.fld U.sync F.SYNC_WALL_OFFSET = Word.fld v 47 0 ∧ t.blk.fld U.sync F.SYNC_WALL_SET = 1 ∧
        (Word.fld v 47 0 = s.blk.fld U.sync F.SYNC_WALL_OFFSET → t.blk.recd = s.blk.recd) ∧
        (Word.fld v 47 0 ≠ s.blk.fld U.sync F.SYNC_WALL_OFFSET → ∃ e : RecEv, e.typ = 0x03 ∧ t.blk.recd.incoming = s.blk.recd.incoming ++ [e]) ∧
        RegsKept s t (fun u off => u == U.sync && off == R.SYNC_WALL) ∧ MemSame s t)) ∧
    (Settled s → s.blk.host.aoOff = false → Ends .opsecSecond s fun t => t.blk.sync.opsec = (s.blk.sync.opsec + 1) % 2 ^ 40 ∧
      t.blk.fld U.sync F.SYNC_OPSEC_OPSEC = (s.blk.sync.opsec + 1) % 2 ^ 40 ∧ RegsKept s t (fun u off => u == U.sync && off == R.SYNC_OPSEC) ∧ MemSame s t)

/-- R38, R43 to R52: time steps, the sync unit at the boundary, and its commands. -/
def Obligations.SyncAndSteps : Prop := TimeSteps ∧ SyncAtTheBoundary ∧ SyncCommands

/-- R69, R71, R440: a commit keeps its stamp; a malformed stamp is refused with TDD_RESULT 3; before the first lock the commit waits, and
after it a pattern that fails its checks is refused with its TDD_RESULT, and one that passes is pending for the first even-frame start at or after both its stamp and the present plus 40 ms; there it
applies. -/
def Sys2Proof.Spec.TddPatterns : Prop :=
  ∀ (who : Who) (n : Nat) (stamp : Word) (s : State), n < 64 →
    let u := U.pb n
    let pat : TddPat := { p1 := s.blk.reg u R.PB_TDD_P1, p2 := s.blk.reg u R.PB_TDD_P2, mu := s.blk.fld u F.PB_CFG_MU, taofs := s.blk.fld u F.PB_CFG_TAOFS }
    let code := s.blk.tddCheck n pat
    let start := (max (tcOf stamp) (s.blk.time.air + 78643200) + 39321599) / 39321600 * 39321600
    (Takes s who u → s.blk.time.coll = [] → Ends (.tddCommit who n stamp) s fun t => t.blk.reg u R.PB_TDD_SWITCH = stamp ∧
      (s.blk.everLocked = false → stampValid stamp = true → t.blk.fld u F.PB_STAT_TDD_RESULT = 1 ∧ (t.blk.pbH n).heldCommit = some stamp) ∧
      (stampValid stamp = false → t.blk.fld u F.PB_STAT_TDD_RESULT = 3 ∧ Cause t u 17 ∧ t.blk.pbH n = s.blk.pbH n) ∧
      (s.blk.everLocked = true → stampValid stamp = true → code ≠ 0 → t.blk.fld u F.PB_STAT_TDD_RESULT = code % 16 ∧ Cause t u 17 ∧
        (t.blk.pbH n).pending = (s.blk.pbH n).pending) ∧
      (s.blk.everLocked = true → stampValid stamp = true → code = 0 → t.blk.fld u F.PB_STAT_TDD_RESULT = 1 ∧
        t.blk.reg u R.PB_TDD_APPLIED = stampOf start ∧ (t.blk.pbH n).pending = some (pat, start)) ∧ MemSame s t) ∧
    ∀ p at_, Settled s → (s.blk.pbH n).pending = some (p, at_) → DueNow s (s.blk.elapsedOfAir at_) → Ends (.tddPatternApply n) s fun t =>
      (t.blk.pbH n).applied = some p ∧ (t.blk.pbH n).pending = none ∧ (t.blk.pbH n).cues = (s.blk.pbH n).nextCues ∧
        t.blk.fld u F.PB_STAT_TDD_RESULT = 2 ∧ Cause t u 16 ∧ MemSame s t

/-- R70, R72: the next step of a direction change acts at its instant: the receive gates and directions move. A step toward emission that comes
later than its tolerance expires and leaves the side gated until its next direction cue begins, and so do those after it; one toward the
safer state never expires, and the receive gate closes in either case. -/
def Sys2Proof.Spec.DirectionSteps : Prop :=
  ∀ (n : Nat) (x : DirSched) (rest : List DirSched) (s : State), Settled s → (s.blk.pbH n).steps = x :: rest → DueNow s (s.blk.elapsedOfAir x.due) →
    let late := s.blk.time.air - x.due
    let was := (s.blk.pbH n).side x.side
    let side := if x.step ∈ [.rampDown, .rxGateSwTx] then { was with shut := false, ctx := x.ctx } else was
    let expired := x.step ∈ [.rxGateSwTx, .txBegin, .paHigh, .txOn] ∧ (x.tol < late ∨ side.shut = true)
    Ends (.directionSeqStep n) s fun t => (t.blk.pbH n).steps = rest ∧ MemSame s t ∧
      (¬ expired → (0 < late → x.ctx ∈ (t.blk.pbH n).dirLate) ∧
        (x.step = .rampDown → (t.blk.pbH n).side x.side = { side with rxOpen := false }) ∧
        (x.step = .silent → (t.blk.pbH n).side x.side = { side with demand := false, dir := .none }) ∧
        (x.step = .rxOpen → (t.blk.pbH n).side x.side = { side with dir := x.dir, rxOpen := true }) ∧
        (x.step = .rxGateSwTx → (t.blk.pbH n).side x.side = { side with rxOpen := false, dir := .none }) ∧
        (x.step = .txBegin → (t.blk.pbH n).side x.side = { side with demand := true }) ∧
        (x.step = .full → (t.blk.pbH n).side x.side = (if side.shut then side else { side with dir := x.dir }))) ∧
      (expired → (t.blk.pbH n).side x.side =
          { side with demand := false, dir := .none, shut := true, rxOpen := side.rxOpen && x.step != .rxGateSwTx } ∧
        x.ctx ∈ (t.blk.pbH n).dirExpired ∧ t.blk.regs = s.blk.regs)

/-- R61, R63, R77, R78, R278: a codebook word, a beam, a bank and a coefficient are written; an entry or a bank in use, be it at a head's ports
alone, and a beam of a side without beams refuse, each with its flag and cause. A bank that CTRL.FBANK asks for is in use from the next boundary on. -/
def Sys2Proof.Spec.CodebooksAndFilters : Prop :=
  ∀ (who : Who) (n m : Nat) (half : Half) (bank : Bool) (v : Word) (s : State), n < 64 → m < 128 → s.blk.time.coll = [] →
    let u := U.pb n
    let side := s.blk.fld u F.PB_CB_ADDR_SIDE
    let entry := s.blk.fld u F.PB_CB_ADDR_ENTRY
    let i := cbIndex n side entry (s.blk.fld u F.PB_CB_ADDR_WORD)
    let cur := if side = 1 then F.PBD_BEAM_SV else F.PBD_BEAM_DN
    let j := m * 512 + s.blk.fld (U.pbd m) F.PBD_FCOEF_ADDR_BANK * 256 + s.blk.fld (U.pbd m) F.PBD_FCOEF_ADDR_INDEX
    let inUse := s.blk.bankBusy m (s.blk.flag (U.pbd m) F.PBD_FCOEF_ADDR_BANK)
    (Takes s who u → (s.blk.fld (U.pbd (2 * n)) cur ≠ entry ∧ s.blk.fld (U.pbd (2 * n + 1)) cur ≠ entry →
        (side = 1 → ∀ h ∈ s.blk.pbHeads n, ∀ d, d < 2 → Word.fld (s.blk.headBeam (2 * n + d) h) 25 16 ≠ entry) → Ends (.pbCbDataWrite who n half v) s fun t =>
        t.mem.rd64 .cb i = halfMerge half (s.mem.rd64 .cb i) v ∧ MemKept s t (fun r k => r == .cb && k == i) ∧
          RegsKept s t (fun w off => w == u && off == R.PB_CB_ADDR) ∧
          (s.blk.flag u F.PB_CB_ADDR_AUTOINC = false ∨ half = .lo → t.blk.regs = s.blk.regs) ∧
          (s.blk.flag u F.PB_CB_ADDR_AUTOINC = true → half ≠ .lo →
            t.blk.fld u F.PB_CB_ADDR_WORD = (s.blk.fld u F.PB_CB_ADDR_WORD + 1) % 4 ∧
            t.blk.fld u F.PB_CB_ADDR_ENTRY = (if s.blk.fld u F.PB_CB_ADDR_WORD = 3 then (entry + 1) % 1024 else entry))) ∧
      (s.blk.fld (U.pbd (2 * n)) cur = entry ∨ (side = 1 ∧ ∃ h ∈ s.blk.pbHeads n, Word.fld (s.blk.headBeam (2 * n) h) 25 16 = entry) → Ends (.pbCbDataWrite who n half v) s fun t => t.blk.flag u F.PB_STAT_CB_BUSY = true ∧ Cause t u 18 ∧
        RegsKept s t (fun w off => w == u && (off == R.PB_STAT || off == R.UNIT_IRQ_STAT)) ∧ MemSame s t)) ∧
    (Takes s who (U.pbd m) →
      (Ends (.beamWrite who m .both v) s fun t =>
        (s.blk.flag (U.pb (m / 2)) F.PB_CFG_BEAM_DN = true → t.blk.fld (U.pbd m) F.PBD_BEAM_DN = Word.fld v 9 0) ∧
        (s.blk.flag (U.pb (m / 2)) F.PB_CFG_BEAM_SV = true → t.blk.fld (U.pbd m) F.PBD_BEAM_SV = Word.fld v 25 16) ∧
        (s.blk.flag (U.pb (m / 2)) F.PB_CFG_BEAM_DN = false → t.blk.fld (U.pbd m) F.PBD_BEAM_DN = s.blk.fld (U.pbd m) F.PBD_BEAM_DN ∧
          (Word.fld v 9 0 ≠ s.blk.fld (U.pbd m) F.PBD_BEAM_DN → t.blk.flag (U.pbd m) F.PBD_STAT_BEAM_REJ = true ∧ Cause t (U.pbd m) 21)) ∧
        RegsKept s t (fun w off => w == U.pbd m && (off == R.PBD_BEAM || off == R.PBD_STAT || off == R.UNIT_IRQ_STAT)) ∧ MemSame s t) ∧
      (Ends (.fbankWrite who m bank) s fun t => t.blk.flag (U.pbd m) F.PBD_CTRL_FBANK = bank ∧
        RegsKept s t (fun w off => w == U.pbd m && off == R.PBD_CTRL) ∧ MemSame s t) ∧
      (inUse = false → half ≠ .hi → Ends (.fcoefWrite who m half v) s fun t =>
        t.mem.rd64 .fcoef j = v &&& 0x3FFFF ∧ MemKept s t (fun r k => r == .fcoef && k == j) ∧
          t.blk.fld (U.pbd m) F.PBD_FCOEF_ADDR_INDEX = (s.blk.fld (U.pbd m) F.PBD_FCOEF_ADDR_INDEX + 1) % 256 ∧
          RegsKept s t (fun w off => w == U.pbd m && off == R.PBD_FCOEF_ADDR)) ∧
      (inUse = true → half ≠ .hi → Ends (.fcoefWrite who m half v) s fun t => t.blk.flag (U.pbd m) F.PBD_STAT_FILT_BUSY = true ∧ Cause t (U.pbd m) 20 ∧
        RegsKept s t (fun w off => w == U.pbd m && (off == R.PBD_STAT || off == R.UNIT_IRQ_STAT)) ∧ MemSame s t)) ∧
    (Settled s → s.blk.time.running = true → s.blk.inReset = false → Ends .tickBoundary s fun t =>
      t.blk.flag (U.pbd m) F.PBD_STAT_FBANK_ACT = s.blk.flag (U.pbd m) F.PBD_CTRL_FBANK)

/-- R75: a write of an NCO word asks a PBD in service for a retune, which starts at the first boundary 256 Tc after it, switches to the words of
that boundary at T0 + 256, is
refilled at T0 + 256 + L, when the PBD's lanes re-train but for a FROZEN one (log entry 98), and done at T0 + 512 + L; a request
during one is held. Out of service the word alone changes. -/
def Sys2Proof.Spec.Retunes : Prop :=
  ∀ (who : Who) (m : Nat) (tx : Bool) (v : Word) (s : State), m < 128 →
    let u := U.pbd m
    let h := s.blk.pbdH m
    let f := if tx then F.PBD_NCO_TX_WORD else F.PBD_NCO_RX_WORD
    let lat := latencyTc (s.blk.rateOf m)
    (Takes s who u → s.blk.time.coll = [] → Ends (.ncoWrite who m tx .both v) s fun t => t.blk.fld u f = Word.fld v 47 0 ∧
      (s.blk.pbdOn m = false → t.blk.pbdH m = h) ∧ (s.blk.pbdOn m = true → h.retune = .idle → (t.blk.pbdH m).retune = .asked s.blk.t) ∧
      (∀ t0, s.blk.pbdOn m = true → h.retune = .ramp t0 → (t.blk.pbdH m).retune = .ramp t0 ∧ (t.blk.pbdH m).heldRetune = some s.blk.t) ∧
      RegsKept s t (fun w off => w == u && off == f.off) ∧ MemSame s t) ∧
    (Settled s →
      (∀ r, h.retune = .asked r → h.cueNco = none →
        (s.blk.t = s.blk.time.tickStart → r + 256 ≤ s.blk.t → Ends (.retuneStart m) s fun t => (t.blk.pbdH m).retune = .ramp s.blk.t ∧
          (t.blk.pbdH m).ncoNext = some (s.blk.fld u F.PBD_NCO_RX_WORD, s.blk.fld u F.PBD_NCO_TX_WORD) ∧ t.blk.flag u F.PBD_STAT_RETUNING = true ∧ RegsKept s t (fun w off => w == u && off == R.PBD_STAT) ∧ MemSame s t) ∧
        (s.blk.t < r + 256 → Ends (.retuneStart m) s fun t => t = s)) ∧
      (∀ t0, h.retune = .ramp t0 → DueNow s (t0 + 256) → Ends (.retuneNcoSwitch m) s fun t => (t.blk.pbdH m).retune = .refill t0 ∧
        ((t.blk.pbdH m).ncoRx, (t.blk.pbdH m).ncoTx) = h.ncoNext.getD (s.blk.fld u F.PBD_NCO_RX_WORD, s.blk.fld u F.PBD_NCO_TX_WORD) ∧ MemSame s t) ∧
      (∀ t0, h.retune = .refill t0 → DueNow s (t0 + 256 + lat) → Ends (.retuneRefilled m) s fun t => (t.blk.pbdH m).retune = .rise t0 ∧
        (∀ i, i < 264 → s.blk.lanePbd i = m → s.blk.adapt i ≠ 0 → s.blk.adapt i ≠ 4 → t.blk.adapt i = 1) ∧ MemSame s t) ∧
      (∀ t0, h.retune = .rise t0 → DueNow s (t0 + 512 + lat) → Ends (.retuneDone m) s fun t =>
        (t.blk.pbdH m).retune = (match h.heldRetune with | none => .idle | some r => .asked (max r s.blk.t)) ∧ (t.blk.pbdH m).heldRetune = none ∧
          t.blk.flag u F.PBD_STAT_RETUNING = false ∧ Cause t u 18 ∧ MemSame s t) ∧
      ∀ t0, h.extSettle = some t0 → DueNow s t0 → Ends (.extInitSettled m) s fun t =>
        (t.blk.pbdH m).extGate = false ∧ (t.blk.pbdH m).extSettle = none ∧ t.blk.regs = s.blk.regs ∧ MemSame s t)

/-- R61 to R78: patterns, directions, codebooks, filter banks, retunes and the start entry. -/
def Obligations.Passbands : Prop := TddPatterns ∧ DirectionSteps ∧ CodebooksAndFilters ∧ Retunes

/-- R82, R87: overrange counts in RX alone, once for an episode, and OVR_NOW lasts 1,024 Tc beyond it; an enabled receiver is in RX once its pipeline is
filled; the next step of a transmitter's sequence acts. -/
def Sys2Proof.Spec.ChannelEvents : Prop :=
  ∀ (k : Nat) (s : State), Settled s → k < 32 →
    let u := U.rxc k
    let fresh := ∀ l, (s.blk.rxcH k).lastOvr = some l → l + 1024 < s.blk.t
    (s.blk.fld u F.RXC_STAT_CH_STATE ≠ 2 → Ends (.rxcOverrange k) s fun t => t = s) ∧
    (s.blk.fld u F.RXC_STAT_CH_STATE = 2 → Ends (.rxcOverrange k) s fun t => t.blk.flag u F.RXC_STAT_OVR = true ∧
      t.blk.flag u F.RXC_STAT_OVR_NOW = true ∧ (t.blk.rxcH k).lastOvr = some s.blk.t ∧
      (fresh → t.blk.fld u F.RXC_OVR_CNT_COUNT = min 4294967295 (s.blk.fld u F.RXC_OVR_CNT_COUNT + 1) ∧ t.blk.reg u R.RXC_OVR_STAMP = s.blk.now) ∧
      (¬ fresh → t.blk.fld u F.RXC_OVR_CNT_COUNT = s.blk.fld u F.RXC_OVR_CNT_COUNT) ∧
      (∀ x ∈ (s.blk.rxcH k).insts, x.1 < 128 → t.blk.flag (U.pbd x.1) F.PBD_STAT_INPUT_CLIP = true) ∧ MemSame s t) ∧
    (∀ l, (s.blk.rxcH k).lastOvr = some l → DueNow s (l + 1024) → Ends (.rxcOvrEpisodeEnd k) s fun t => t.blk.flag u F.RXC_STAT_OVR_NOW = false ∧
      RegsKept s t (fun v off => v == u && off == R.RXC_STAT) ∧ MemSame s t) ∧
    (∀ d, (s.blk.rxcH k).fillDue = some d → DueNow s d → Ends (.rxcPipelineFilled k) s fun t => t.blk.fld u F.RXC_STAT_CH_STATE = 2 ∧
      (t.blk.rxcH k).fillDue = none ∧ RegsKept s t (fun v off => v == u && off == R.RXC_STAT) ∧ MemSame s t) ∧
    ∀ d st rest, (s.blk.txcH k).seq = (d, st) :: rest → DueNow s d → Ends (.muteSeqStep k) s fun t =>
      (st = .silent → (t.blk.txcH k).out = false ∧ (t.blk.txcH k).paHigh = false) ∧ (st = .swRx → (t.blk.txcH k).swTx = false) ∧
      (st = .swTx → (t.blk.txcH k).swTx = true) ∧ (st = .paHigh → (t.blk.txcH k).paHigh = true) ∧
      (st = .rampUp → (t.blk.txcH k).out = true) ∧
      (st = .full → t.blk.fld (U.txc k) F.TXC_STAT_CH_STATE = 3 ∧ (t.blk.txcH k).out = true) ∧
      (st = .standby → t.blk.fld (U.txc k) F.TXC_STAT_CH_STATE = 1 ∧ (t.blk.txcH k).out = false) ∧
      (st ∈ [.silent, .swTx, .paHigh, .rampUp] ∨ (st = .swRx ∧ s.blk.fld (U.txc k) F.TXC_STAT_CH_STATE ≠ 1) ∨
          (st = .pass ∧ s.blk.muteSrc k = 0) → (t.blk.txcH k).seq = rest ∧ t.blk.regs = s.blk.regs) ∧
      (st = .full ∨ st = .standby → (t.blk.txcH k).seq = rest) ∧ MemSame s t

/-- R83, R84, R92: the slice that is out returns with its corrections after 984 ticks, and the next one leaves; a first failure freezes the rotation
with SLICE_SPARED, a second fences the channel. A converter clock that loses lock mutes its transmitters and fences the chiplet and its
members. -/
def Sys2Proof.Spec.SlicesAndClocks : Prop :=
  ∀ (k c : Nat) (corr : Word) (ok : Bool) (s : State), Settled s → k < 32 → c < 4 →
    let u := U.rxc k
    let j := s.blk.fld u F.RXC_SLICE_OUT
    let failed := s.blk.fld u F.RXC_SLICE_FAILED
    let turn := (s.blk.fld u F.RXC_STAT_CH_STATE = 1 ∨ s.blk.fld u F.RXC_STAT_CH_STATE = 2) ∧ 984 ≤ (s.blk.rxcH k).turnTicks ∧
      s.blk.t = s.blk.time.tickStart ∧ s.blk.flag u F.RXC_CFG_BG_HOLD = false ∧ s.blk.flag u F.RXC_STAT_CAL_FROZEN = false
    (¬ turn → Ends (.bgCalHandover k corr ok) s fun t => t = s) ∧
    (turn → j < 17 →
      (withinLimits corr → ok = true → Ends (.bgCalHandover k corr ok) s fun t => t.blk.fld u F.RXC_SLICE_OUT = (j + 1) % 17 ∧
        Store.get 0 (t.blk.rxcH k).corr j = corr &&& 0xFFFFFFFFFFFF ∧ (t.blk.rxcH k).turnTicks = 0 ∧
        t.blk.fld u F.RXC_SLICE_ROT = (s.blk.fld u F.RXC_SLICE_ROT + (if j = 16 then 1 else 0)) % 65536 ∧
        RegsKept s t (fun v off => v == u && off == R.RXC_SLICE) ∧ MemSame s t) ∧
      (¬ withinLimits corr ∨ ok = false → failed.testBit j = false →
        Ends (.bgCalHandover k corr ok) s fun t => t.blk.fld u F.RXC_SLICE_FAILED = failed ||| 2 ^ j ∧ Cause t u 17 ∧ MemSame s t ∧
          (failed = 0 → t.blk.flag u F.RXC_STAT_CAL_FROZEN = true ∧ t.blk.flag u F.UNIT_FAULT_CORRECTED = true ∧
            t.blk.ownState u = s.blk.ownState u) ∧
          (failed ≠ 0 → t.blk.flag u F.UNIT_FAULT_CONTAINED = true ∧ (s.blk.ownState u ≠ 6 → t.blk.ownState u = 4)))) ∧
    (s.blk.flag (U.cc c) F.CC_STAT_CLK_LOCK = true → Ends (.ccClkLost c) s fun t => t.blk.flag (U.cc c) F.CC_STAT_CLK_LOCK = false ∧
      t.blk.flag (U.cc c) F.CC_STAT_CLK_LOST = true ∧ t.blk.flag (U.cc c) F.UNIT_FAULT_CONTAINED = true ∧ Cause t (U.cc c) 16 ∧
      (∀ x ∈ builtinMembers (U.cc c), s.blk.ownState x ≠ 6 → t.blk.ownState x = 4) ∧ MemSame s t)

/-- R82 to R84, R87, R88, R92: the channels of the converters. -/
def Obligations.ConverterChannels : Prop := ChannelEvents ∧ SlicesAndClocks

namespace Sys2Proof.Spec

/-- Entry `e` of the store of synthesiser `k`. -/
def syEnt (s : State) (k e : Nat) : SyCal := Store.get SyCal.init (s.blk.syH k).cal e

/-- The chiplet is within 30 °C of the entry's temperature, which makes a hop to a valid entry warm (R94); sums of four sensors in 1/16 °C. -/
abbrev warmHop (s : State) (k e : Nat) : Prop :=
  (syEnt s k e).valid = true ∧ -1920 ≤ s.blk.ccTemp (k / 2) - 64 * (syEnt s k e).temp ∧ s.blk.ccTemp (k / 2) - 64 * (syEnt s k e).temp ≤ 1920

/-- No hop of synthesiser `k` has been asked for in this Tc. -/
abbrev NoAsks (s : State) (k : Nat) : Prop := (s.blk.syH k).asksAt ≠ s.blk.t ∨ (s.blk.syH k).asks = []

/-- Synthesiser `k` hops to entry `e`, warm or cold, since now. -/
def Hops (s t : State) (k e : Nat) : Prop :=
  t.blk.fld (U.sy k) F.SY_STAT_ENTRY = e ∧ t.blk.fld (U.sy k) F.SY_FREQ_WORD = (syEnt s k e).word % 2 ^ 32 ∧
    (warmHop s k e → (t.blk.syH k).hop = some (e, s.blk.t, false) ∧ t.blk.fld (U.sy k) F.SY_STAT_STATE = 2) ∧
    (¬ warmHop s k e → (t.blk.syH k).hop = some (e, s.blk.t, true) ∧ t.blk.fld (U.sy k) F.SY_STAT_STATE = 3)

end Sys2Proof.Spec

/-- R93, R94, R95: a hop to an entry with a valid word starts, or waits behind the one in progress; of two requests of one Tc the first in
the order of R255 starts and the other waits; an invalid word is refused with SY_RANGE. The
store takes a frequency word, which ends VALID, but not at the entry in use; it is saved in the calibration store. -/
def Sys2Proof.Spec.SynthesiserCommands : Prop :=
  ∀ (who : Who) (k e : Nat) (v : Word) (s : State), k < 8 → e < 4096 → Takes s who (U.sy k) → s.blk.time.coll = [] →
    let u := U.sy k
    let a := s.blk.fld u F.SY_CAL_ADDR_ENTRY
    (s.blk.usable u = true → syWordOk (syEnt s k e).word = true →
      (NoAsks s k → (s.blk.syH k).hop = none → Ends (.syHopGo who k e) s fun t => Hops s t k e ∧ MemSame s t) ∧
      (∀ x start c, NoAsks s k → (s.blk.syH k).hop = some (x, start, c) → start < s.blk.t → Ends (.syHopGo who k e) s fun t => (t.blk.syH k).queued = some e ∧ (t.blk.syH k).hop = (s.blk.syH k).hop ∧
        t.blk.flag u F.SY_STAT_QUEUED = true ∧ RegsKept s t (fun w off => w == u && off == R.SY_STAT) ∧ MemSame s t) ∧
      (∀ c0 i0 e0 c, (s.blk.syH k).asksAt = s.blk.t → (s.blk.syH k).asks = [(c0, i0, e0)] → (s.blk.syH k).hop = some (e0, s.blk.t, c) →
        let first := rankedBefore (whoClass who) (s.blk.whoIdx who) c0 i0
        Ends (.syHopGo who k e) s fun t => (∃ d, (t.blk.syH k).hop = some (if first then e else e0, s.blk.t, d)) ∧
          (t.blk.syH k).queued = some (if first then e0 else e) ∧ t.blk.flag u F.SY_STAT_QUEUED = true ∧ MemSame s t)) ∧
    (s.blk.usable u = true → syWordOk (syEnt s k e).word = false → Ends (.syHopGo who k e) s fun t => Corrected s t u ∧
      t.blk.syH k = s.blk.syH k ∧ RegsKept s t (fun w _ => w == u || w == 0) ∧ MemSame s t) ∧
    (Store.wf SyCal.init (s.blk.syH k).cal = true → (∀ x ∈ (s.blk.syH k).cal, x.1 < 4096) → Ends (.syHopSave who k) s fun t =>
      (∀ j, j < 4096 → t.mem.rd .calStore (syEntry k j) = if syEnt s k j = SyCal.init then 0 else syPack (syEnt s k j)) ∧
        (∀ b, t.mem.rdByte b = s.mem.rdByte b) ∧ t.blk.regs = s.blk.regs) ∧
    (s.blk.fld u F.SY_STAT_STATE = 0 ∨ s.blk.fld u F.SY_STAT_ENTRY ≠ a → Ends (.syCalWrite who k false .both v) s fun t =>
      syEnt t k a = { syEnt s k a with word := Word.fld v 31 0, valid := false } ∧ (∀ j, j ≠ a → syEnt t k j = syEnt s k j) ∧
        t.blk.regs = s.blk.regs ∧ MemSame s t) ∧
    (s.blk.fld u F.SY_STAT_STATE ≠ 0 → s.blk.fld u F.SY_STAT_ENTRY = a → Ends (.syCalWrite who k false .both v) s fun t =>
      t.blk.flag u F.SY_STAT_CAL_BUSY = true ∧ t.blk.syH k = s.blk.syH k ∧
        RegsKept s t (fun w off => w == u && (off == R.SY_STAT || off == R.UNIT_IRQ_STAT)) ∧ MemSame s t)

/-- R94, R96, R97: a lock ends a hop from 256 Tc on to 6 µs beyond, or 400 µs for a cold hop, which stores its result; a cold hop that has not locked in 1 ms, and a relock or a
waiting transmitter beyond LOCK_MAX, fence the synthesiser; a lost lock waits for LOCK_MAX, and a relock counts SY_UNLOCK. -/
def Sys2Proof.Spec.SynthesiserLocks : Prop :=
  ∀ (k e start band trim lf : Nat) (cold : Bool) (s : State), k < 8 → Settled s →
    let u := U.sy k
    let h := s.blk.syH k
    (h.hop = some (e, start, cold) → h.queued = none →
      (start + 256 ≤ s.blk.t → s.blk.t ≤ start + 256 + (if cold then 786432 else 11797) → Ends (.syLockAcquired k band trim lf) s fun t => t.blk.fld u F.SY_STAT_STATE = 1 ∧ Cause t u 16 ∧
        (t.blk.syH k).hop = none ∧ (cold = false → (t.blk.syH k).cal = h.cal) ∧
        (cold = true → Cause t u 19 ∧ (syEnt t k e).valid = true ∧ (syEnt t k e).band = band % 256 ∧ (syEnt t k e).trim = trim % 64 ∧
          (syEnt t k e).lf = lf % 65536 ∧ (syEnt t k e).word = (syEnt s k e).word) ∧ MemSame s t) ∧
      (s.blk.t < start + 256 ∨ start + 256 + (if cold then 786432 else 11797) < s.blk.t →
        Ends (.syLockAcquired k band trim lf) s fun t => t = s) ∧
      (cold = true → DueNow s (start + 1966080) → s.blk.ownState u ≠ 6 → Ends (.syCalTimeout k) s fun t =>
        t.blk.flag u F.UNIT_FAULT_CONTAINED = true ∧ t.blk.ownState u = 4 ∧ (t.blk.syH k).hop = none ∧ MemSame s t)) ∧
    (s.blk.fld u F.SY_STAT_STATE = 1 → Ends (.syUnlock k) s fun t => t.blk.fld u F.SY_STAT_STATE = 2 ∧ Cause t u 17 ∧
      (t.blk.syH k).relock = some (s.blk.t + s.blk.lockMax k) ∧ MemSame s t) ∧
    (∀ d, h.hop = none → h.relock = some d → s.blk.t ≤ d → Ends (.syLockAcquired k band trim lf) s fun t => t.blk.fld u F.SY_STAT_STATE = 1 ∧
      (t.blk.syH k).relock = none ∧ t.blk.fld u F.SY_STAT_UNLOCKS = min 65535 (s.blk.fld u F.SY_STAT_UNLOCKS + 1) ∧
      t.blk.flag u F.UNIT_FAULT_CORRECTED = true ∧ Cause t u 16 ∧ MemSame s t) ∧
    (∀ d, s.blk.lockDue k = some d → DueNow s d → s.blk.ownState u ≠ 6 → Ends (.syLockTimeout k) s fun t =>
      t.blk.flag u F.UNIT_FAULT_CONTAINED = true ∧ t.blk.ownState u = 4 ∧ MemSame s t ∧
        ∀ x, x < 32 → s.blk.boundSy (U.txc x) = some k → (∀ w, (s.blk.txcH x).waitFrom = some w → w + s.blk.lockMax k ≤ s.blk.t) →
          (s.blk.txcH x).waitFrom ≠ none → t.blk.flag (U.txc x) F.TXC_STAT_LOCK_FAIL = true)

/-- R93 to R97: the synthesisers. -/
def Obligations.Synthesisers : Prop := SynthesiserCommands ∧ SynthesiserLocks

namespace Sys2Proof.Spec

/-- Word of the sequence store of CC `c`. -/
def seqWord (c slot frame : Nat) : Nat := (c * 256 + slot) * 8 + frame

/-- No bus of any chiplet is busy, and every bus is on. -/
abbrev busesIdle (s : State) : Prop := ∀ c, c < 4 → ∀ x, x < 4 → s.blk.busBusy c x = false ∧ s.blk.busOff c x = false

end Sys2Proof.Spec

/-- R99, R101, R103, R105, R113: a strobe's function, a frame of a slot and a bus divider are written: a strobe bound to a transmitting channel refuses, an
odd or outlying divider is rounded and clamped with CLAMP, and a frame of an unsupported type is refused with CFG_RFFE. -/
def Sys2Proof.Spec.FrontEndWrites : Prop :=
  ∀ (who : Who) (c i x d : Nat) (v : Word) (s : State), c < 4 → i < 32 → x < 4 → d < 2048 → Takes s who (U.cc c) → s.blk.time.coll = [] →
    let u := U.cc c
    let fn := s.blk.fld u (F.CC_STB_CFG_FUNC i)
    let ch := s.blk.fld (U.txc (s.blk.fld u (F.CC_STB_CFG_TXC i))) F.TXC_STAT_CH_STATE
    let locked := (fn = 2 ∨ fn = 3) ∧ (ch = 3 ∨ ch = 4)
    let slot := s.blk.fld u F.CC_SEQ_ADDR_SLOT
    let j := seqWord c slot (s.blk.fld u F.CC_SEQ_ADDR_FRAME)
    let even := max 38 (min 2046 (d + d % 2))
    (¬ locked → Ends (.stbCfgWrite who c i .both v) s fun t => t.blk.fld u (F.CC_STB_CFG_FUNC i) = (if 5 < Word.fld v 2 0 then 0 else Word.fld v 2 0) ∧
      t.blk.fld u (F.CC_STB_CFG_TXC i) = Word.fld v 12 8 ∧ RegsKept s t (fun w off => w == u && off == R.CC_STB_CFG i) ∧ MemSame s t) ∧
    (locked → Ends (.stbCfgWrite who c i .both v) s fun t => t.blk.fld u (F.CC_STB_CFG_FUNC i) = fn ∧ Corrected s t u ∧ MemSame s t) ∧
    (Ends (.rffeDivWrite who c x d) s fun t => t.blk.fld u (F.CC_RFFE_DIV x) = even ∧ (even ≠ d → t.blk.flag u F.UNIT_FAULT_CORRECTED = true) ∧
      (s.blk.busBusy c x = false → t.blk.divOf c x = even) ∧ (s.blk.busBusy c x = true → t.blk.divOf c x = s.blk.divOf c x) ∧ MemSame s t) ∧
    ((∀ r ∈ (s.blk.ccH c).running, r.slot ≠ slot) →
      (Word.fld v 5 2 ≤ 5 → Ends (.ccSeqDataWrite who c .both v) s fun t => t.mem.rd64 .ccSeq j = v &&& 0xFFFFFFFFFFFF3F3F ∧
        MemKept s t (fun r w => r == .ccSeq && w == j) ∧ RegsKept s t (fun w off => w == u && off == R.CC_SEQ_ADDR)) ∧
      (5 < Word.fld v 5 2 → Ends (.ccSeqDataWrite who c .both v) s fun t => Corrected s t u ∧ MemSame s t)) ∧
    ((∃ r ∈ (s.blk.ccH c).running, r.slot = slot) → Ends (.ccSeqDataWrite who c .both v) s fun t => t.blk.flag u F.CC_RFFE_STAT_SEQ_BUSY = true ∧
      RegsKept s t (fun w off => w == u && off == R.CC_RFFE_STAT) ∧ MemSame s t)

/-- R104, R105, R106: a sequence starts at every chiplet with a frame in it where its buses are idle, waits where one is busy, and is refused with
RFFE_BUSY where one is off, also where that came while it waited; a slot ends after its time; a host frame runs on its bus, another waits behind it, and DONE tells the
end of the last with what it read. In a safe state none starts. -/
def Sys2Proof.Spec.FrontEndBuses : Prop :=
  ∀ (who : Who) (c seq data : Nat) (perr : Bool) (v : Word) (s : State), c < 4 → seq < 256 →
    let u := U.cc c
    let h := s.blk.ccH c
    let used := seqBuses s.mem seq
    let fs := seqFrames s.mem c seq
    let still := s.blk.rffeStill = true
    let done := fun (f : Word) (t : State) =>
      Cause t u 19 ∧ MemSame s t ∧ (Word.fld f 5 2 = 8 → t.blk.fld u F.CC_RFFE_RESP_DATA = data % 256 ∧ t.blk.flag u F.CC_RFFE_RESP_PERR = perr ∧
        (perr = true → t.blk.flag u F.CC_RFFE_STAT_PERR = true ∧ t.blk.flag u F.UNIT_FAULT_CORRECTED = true))
    (Takes s who u → s.blk.time.coll = [] → still → Word.fld v 5 2 ≠ 0 →
      (Ends (.ccSeqGo who c seq) s fun t => t.blk.ccH c = h ∧ t.blk.regs = s.blk.regs ∧ MemSame s t) ∧
      Ends (.rffeCmd who c .both v) s fun t => t.blk.ccH c = h ∧ t.blk.regs = s.blk.regs ∧ MemSame s t) ∧
    (Takes s who u → s.blk.time.coll = [] → ¬ still →
      (busesIdle s → Ends (.ccSeqGo who c seq) s fun t => MemSame s t ∧
        (fs = [] → (t.blk.ccH c).running = h.running) ∧
        (fs ≠ [] → (t.blk.ccH c).running = h.running ++ [{ slot := seq, buses := slotBuses fs, due := s.blk.t + s.blk.slotTime c fs }])) ∧
      ((∀ x ∈ used, s.blk.busOff x.1 x.2 = false) → (∃ x ∈ used, s.blk.busBusy x.1 x.2 = true) → h.waiting = none → Ends (.ccSeqGo who c seq) s fun t =>
        (t.blk.ccH c).waiting = some seq ∧ (t.blk.ccH c).running = h.running ∧ t.blk.regs = s.blk.regs ∧ MemSame s t) ∧
      ((∃ x ∈ used, s.blk.busOff x.1 x.2 = true) → Ends (.ccSeqGo who c seq) s fun t => Corrected s t u ∧ Cause t u 18 ∧
        t.blk.fld u F.CC_RFFE_STAT_DROP = min 65535 (s.blk.fld u F.CC_RFFE_STAT_DROP + 1) ∧ (t.blk.ccH c).waiting = h.waiting ∧ MemSame s t) ∧
      (busesIdle s → h.cmdRunning = none → 1 ≤ Word.fld v 5 2 → Word.fld v 5 2 ≤ 5 → Ends (.rffeCmd who c .both v) s fun t =>
        t.blk.flag u F.CC_RFFE_RESP_DONE = false ∧
          (t.blk.ccH c).cmdRunning = some (v, s.blk.t + frameBits v * s.blk.divOf c (Word.fld v 1 0)) ∧ MemSame s t) ∧
      ((s.blk.busBusy c (Word.fld v 1 0) = true ∨ h.cmdRunning ≠ none) → s.blk.busOff c (Word.fld v 1 0) = false → h.cmd = none → 1 ≤ Word.fld v 5 2 → Word.fld v 5 2 ≤ 5 →
        Ends (.rffeCmd who c .both v) s fun t => (t.blk.ccH c).cmd = some v ∧ (t.blk.ccH c).cmdRunning = h.cmdRunning ∧
          t.blk.flag u F.CC_RFFE_RESP_DONE = false ∧ MemSame s t) ∧
      (cmdTypeOk (Word.fld v 5 2) = false → Ends (.rffeCmd who c .both v) s fun t => Corrected s t u ∧ t.blk.ccH c = h ∧ MemSame s t)) ∧
    (Settled s →
      (still → Ends (.rffeHeldStart c) s fun t => t = s) ∧
      (¬ still → (∃ x ∈ used, s.blk.busOff x.1 x.2 = true) → h.waiting = some seq → Ends (.rffeHeldStart c) s fun t => (t.blk.ccH c).waiting = none ∧
        (t.blk.ccH c).running = h.running ∧ Corrected s t u ∧ Cause t u 18 ∧ MemSame s t) ∧
      (¬ still → busesIdle s → h.waiting = some seq → Ends (.rffeHeldStart c) s fun t => (t.blk.ccH c).waiting = none ∧ MemSame s t ∧
        (fs ≠ [] → (t.blk.ccH c).running = h.running ++ [{ slot := seq, buses := slotBuses fs, due := s.blk.t + s.blk.slotTime c fs }])) ∧
      (∀ r, h.running = [r] → h.cmd = none → DueNow s r.due → Ends (.rffeSeqDone c) s fun t => (t.blk.ccH c).running = [] ∧
        (h.cmdRunning = none → t.blk.fld u F.CC_RFFE_STAT_BUSY = 0) ∧ RegsKept s t (fun w off => w == u && off == R.CC_RFFE_STAT) ∧ MemSame s t) ∧
      (∀ f d, h.cmdRunning = some (f, d) → h.cmd = none → DueNow s d → Ends (.rffeFrameDone c data perr) s fun t =>
        t.blk.flag u F.CC_RFFE_RESP_DONE = true ∧ (t.blk.ccH c).cmdRunning = none ∧ done f t) ∧
      ∀ f d g, h.cmdRunning = some (f, d) → h.cmd = some g → h.running = [] → ¬ still → s.blk.busOff c (Word.fld g 1 0) = false → DueNow s d →
        Ends (.rffeFrameDone c data perr) s fun t =>
          t.blk.flag u F.CC_RFFE_RESP_DONE = false ∧ (t.blk.ccH c).cmdRunning.map Prod.fst = some g ∧ (t.blk.ccH c).cmd = none ∧ done f t)

/-- R67, R105, R107, R108, R112: the planner starts its sequence at its instant, or gives the entry up with RFFE_LATE, and so where that instant has passed, or in a safe state; a dwell table is started and stopped at
a boundary and moves from entry to entry; settling ends after its time. -/
def Sys2Proof.Spec.PlannerAndObservation : Prop :=
  ∀ (who : Who) (m o e at_ : Nat) (on : Bool) (s : State), m < 128 → o < 8 →
    let u := U.orx o
    let n := s.blk.fld u F.ORX_CTRL_N_ENT
    let seq := s.blk.pathFld m (F.PBD_EXT_SEQ e)
    let h := s.blk.orxH o
    (Settled s → (s.blk.pbdH m).pendingEntry = some (e, at_, false) → s.blk.planStart s.mem m e at_ = (s.blk.t : Int) → DueNow s s.blk.t →
      (s.blk.rffeStill = true → Ends (.plannerSeqStart m) s fun t => (t.blk.pbdH m).pendingEntry = none ∧ t.blk.ccs = s.blk.ccs ∧ t.blk.regs = s.blk.regs ∧ MemSame s t) ∧
      (s.blk.rffeStill = false → s.blk.seqBlocked s.mem seq = [] → Ends (.plannerSeqStart m) s fun t => (t.blk.pbdH m).pendingEntry = some (e, at_, true) ∧ MemSame s t ∧
        ∀ c, c < 4 → seqFrames s.mem c seq ≠ [] → (t.blk.ccH c).running = (s.blk.ccH c).running ++
          [{ slot := seq, buses := slotBuses (seqFrames s.mem c seq), due := s.blk.t + s.blk.slotTime c (seqFrames s.mem c seq) }]) ∧
      (s.blk.rffeStill = false → s.blk.seqBlocked s.mem seq ≠ [] → Ends (.plannerSeqStart m) s fun t => (t.blk.pbdH m).pendingEntry = none ∧ MemSame s t ∧
        ∀ c ∈ s.blk.seqBlocked s.mem seq, t.blk.flag (U.cc c) F.CC_RFFE_STAT_SEQ_LATE = true ∧ t.blk.flag (U.cc c) F.UNIT_FAULT_CORRECTED = true)) ∧
    (Settled s → (s.blk.pbdH m).pendingEntry = some (e, at_, false) → s.blk.planStart s.mem m e at_ < (s.blk.t : Int) → Ends (.plannerSeqStart m) s fun t =>
      (t.blk.pbdH m).pendingEntry = none ∧ MemSame s t ∧ ∀ c, c < 4 → seqFrames s.mem c seq ≠ [] →
        t.blk.flag (U.cc c) F.CC_RFFE_STAT_SEQ_LATE = true ∧ t.blk.flag (U.cc c) F.UNIT_FAULT_CORRECTED = true) ∧
    (Takes s who u → s.blk.time.coll = [] →
      (on = true → (n = 0 ∨ 16 < n) → Ends (.orxRunWrite who o on) s fun t => t.blk.flag u F.ORX_CTRL_RUN = s.blk.flag u F.ORX_CTRL_RUN ∧
        t.blk.flag u F.UNIT_FAULT_CORRECTED = true ∧ t.blk.orxH o = h ∧ MemSame s t) ∧
      ((on = true → 1 ≤ n ∧ n ≤ 16) → s.blk.flag u F.ORX_CTRL_RUN ≠ on → Ends (.orxRunWrite who o on) s fun t => t.blk.flag u F.ORX_CTRL_RUN = on ∧
        (t.blk.orxH o).startDue = on ∧ (t.blk.orxH o).stopDue = !on ∧ RegsKept s t (fun w off => w == u && off == R.ORX_CTRL) ∧ MemSame s t)) ∧
    (Settled s → h.adv = true → s.blk.fld u F.ORX_STAT_ENTRY + 1 < h.table.length → h.table.length ≤ 16 → Ends (.orxDwellAdvance o) s fun t =>
      let w := h.table[s.blk.fld u F.ORX_STAT_ENTRY + 1]?.getD 0
      t.blk.fld u F.ORX_STAT_ENTRY = s.blk.fld u F.ORX_STAT_ENTRY + 1 ∧ t.blk.fld u F.ORX_STAT_TXC = Word.fld w 4 0 ∧
        (t.blk.orxH o).pos = Word.fld w 10 8 ∧ (t.blk.orxH o).ticksLeft = max 1 (Word.fld w 23 16) ∧
        (t.blk.orxH o).settleEnd = (if Word.fld w 44 32 = 0 then none else some (s.blk.t + Word.fld w 44 32)) ∧ MemSame s t) ∧
    ∀ d, Settled s → h.settleEnd = some d → DueNow s d → Ends (.orxSettleEnd o) s fun t => (t.blk.orxH o).settleEnd = none ∧
      t.blk.flag u F.ORX_STAT_SETTLING = false ∧ RegsKept s t (fun w off => w == u && off == R.ORX_STAT) ∧ MemSame s t

/-- R67, R99 to R113: strobes, front-end buses, the planner's sequences and observation receivers. -/
def Obligations.FrontEnd : Prop := FrontEndWrites ∧ FrontEndBuses ∧ PlannerAndObservation

namespace Sys2Proof.Spec

/-- Lane `i` adapts: it leads or stands alone, is ACTIVE, and is neither OFF nor FROZEN. -/
abbrev Adapts (s : State) (i : Nat) : Prop := s.blk.ownState (U.lane i) = 2 ∧ s.blk.adapt i ≠ 0 ∧ s.blk.adapt i ≠ 4

/-- A part of a stored tap. -/
def tapPart (taps : Store Word) (k : Nat) (im : Bool) : Int :=
  let v := Store.get (0 : Word) taps k
  if im then sext 16 (Word.fld v 15 0) else sext 16 (Word.fld v 31 16)

/-- Only the pages of lane `i`, of its PBD and of its gang's followers change, and no memory. -/
def LaneOnly (s t : State) (i : Nat) : Prop :=
  RegsKept s t (fun u _ => u == U.lane i || u == U.pbd (s.blk.lanePbd i) || (s.blk.followers i).any (fun f => u == U.lane f)) ∧ MemSame s t

/-- The cause `n` of margin unknown stands for lane `i` at its PBD (R131). -/
def Unknown (t : State) (i n : Nat) : Prop := ((t.blk.pbdH (t.blk.lanePbd i)).unknown.any fun x => x.cause == n && x.lane == i) = true

end Sys2Proof.Spec

/-- R120, R122: a block ends BLOCK samples after the one before. One that no hold condition stops moves every tap by its share of its gradient, to the
nearest stored value on either side, from the 64th sample after it on; a held block leaves the taps; the next block runs under LANE_ADAPT as it stands.
The model's `refMuted` holds a lane whose reference lies on a head out of service (R276). The direction of rounding, and a tap beyond its code, are open (log entries 4 and 5); that blocks follow each other from the lane's start is the model's
choice (log entry 100). -/
def Sys2Proof.Spec.AdaptationBlocks : Prop :=
  ∀ (i pw : Nat) (re im : List Int) (s : State), i < 264 → Settled s →
    let u := U.lane i
    let h := s.blk.laneH i
    let w := h.blockAdapt.getD (s.blk.reg u R.LANE_ADAPT)
    let fld := fun (f : Fld) => Word.fld w f.hi f.lo
    let period := sampleTc (s.blk.laneRate i)
    let len := 64 * 2 ^ min 6 (fld F.LANE_ADAPT_BLOCK) * period
    let now := s.blk.tapsNow i
    let gated := s.blk.instShut (s.blk.lanePbd i) (s.blk.fld u F.LANE_CFG_RX_SLOT) (s.blk.t - len) s.blk.t = true
    let holds := fld F.LANE_ADAPT_ADAPT_EN = 0 ∨ gated ∨ h.blockBad = true ∨ levelBelow (sext 16 (fld F.LANE_ADAPT_REF_MIN)) pw (2 ^ 40) = true ∨
      s.blk.refMuted i = true
    let den : Int := (2 ^ (fld F.LANE_ADAPT_MU_E + 8) * (if s.blk.flag (U.cl (i / 33)) F.CL_STAT_THROTTLE then 2 else 1) * (pw + 1) *
      2 ^ s.blk.fld u F.LANE_CFG_SCALE : Nat)
    let mu : Int := (max 1 (fld F.LANE_ADAPT_MU_M) * 2 ^ 15 : Nat)
    let n := min (min re.length im.length) (s.blk.fld u F.LANE_STAT_TAPS)
    let next := fun (t : State) => (t.blk.laneH i).blockAt = s.blk.t ∧ (t.blk.laneH i).blockAdapt = some (s.blk.reg u R.LANE_ADAPT)
    (¬ Adapts s i → Ends (.laneBlockEnd i re im pw) s fun t => t = s) ∧
    (Adapts s i → DueNow s (h.blockAt + len) → 0 < len →
      (holds → Ends (.laneBlockEnd i re im pw) s fun t => (t.blk.laneH i).taps = h.taps ∧ (t.blk.laneH i).next = h.next ∧ (t.blk.laneH i).held = true ∧
        next t ∧ t.blk.regs = s.blk.regs ∧ MemSame s t) ∧
      (¬ holds → Store.wf 0 now = true → Ends (.laneBlockEnd i re im pw) s fun t => ∃ taps,
        (t.blk.laneH i).next = some (s.blk.t + 64 * period, taps) ∧ (t.blk.laneH i).taps = now ∧
        (∀ k, k < n → ∀ p : Bool,
          let want := tapPart now k p * den + mu * (if p then im.getD k 0 else re.getD k 0);
          -32768 * den ≤ want → want ≤ 32767 * den → (tapPart taps k p * den - want).natAbs < den.natAbs) ∧
        (∀ k, n ≤ k → Store.get 0 taps k = Store.get 0 now k) ∧
        t.blk.adapt i = (if s.blk.adapt i = 3 then (if h.wasTrack then 2 else 1) else s.blk.adapt i) ∧ next t ∧ LaneOnly s t i))

/-- R121, R133, R134: 64 ticks of RESID within 1 dB lead from TRAIN to TRACK with their mean as BASE, and a wider spread does not; the fourth excess tick in
TRACK freezes the lane in LULL with LANE_DIVERGE and reverts it to its slot's copy under the cold cap; the fourth divergence in 10 s fences it. -/
def Sys2Proof.Spec.TrackAndDiverge : Prop :=
  ∀ (i : Nat) (s : State), i < 264 → Settled s →
    let u := U.lane i
    let h := s.blk.laneH i
    let sum := h.window.foldl (fun a x => a + x) 0
    let slot := s.blk.fld u F.LANE_KEY_SLOT
    let recent := (h.divs.filter fun d => s.blk.t < d + 19660800000).length
    let now := s.blk.tapsNow i
    (h.window.length = 64 → (∀ x ∈ h.window, -32767 ≤ x ∧ x ≤ 32767) →
      (s.blk.adapt i = 1 → (∀ x ∈ h.window, ∀ y ∈ h.window, x - y ≤ 64) → Ends (.laneTrackWindow i) s fun t => t.blk.adapt i = 2 ∧ Cause t u 18 ∧
        (64 * sext 16 (t.blk.fld u F.LANE_RESID_BASE) - sum).natAbs < 64 ∧ (t.blk.laneH i).window = [] ∧ LaneOnly s t i) ∧
      (s.blk.adapt i = 1 → (∃ x ∈ h.window, ∃ y ∈ h.window, 64 < x - y) → Ends (.laneTrackWindow i) s fun t => t = s) ∧
      (s.blk.adapt i = 2 → ∀ base, s.blk.db u F.LANE_RESID_BASE = some base → Ends (.laneTrackWindow i) s fun t => t.blk.adapt i = 2 ∧
        (sum ≤ 64 * (base + 192) → (64 * sext 16 (t.blk.fld u F.LANE_RESID_BASE) - sum).natAbs < 64) ∧
        (64 * (base + 192) < sum → t.blk.regs = s.blk.regs) ∧ (t.blk.laneH i).window = [] ∧ LaneOnly s t i)) ∧
    (s.blk.adapt i = 2 → s.blk.fld u F.LANE_RESID_EXCESS = 4 → s.blk.ownState u = 2 → s.blk.lanePbd i < 128 →
      (3 ≤ recent → Ends (.laneDiverge i) s fun t => t.blk.ownState u = 4 ∧ t.blk.adapt i = 0 ∧ t.blk.flag u F.UNIT_FAULT_CONTAINED = true ∧
        (t.blk.laneH i).taps = [] ∧ MemSame s t) ∧
      (recent < 3 → Ends (.laneDiverge i) s fun t => t.blk.adapt i = 4 ∧ t.blk.ownState u = 3 ∧ t.blk.flag u F.LANE_STAT_DIVERGED = true ∧
        t.blk.flag u F.UNIT_FAULT_CONTAINED = true ∧ Cause t u 17 ∧ (t.blk.divsRecent i).length = recent + 1 ∧
        t.blk.flag (U.pbd (s.blk.lanePbd i)) F.PBD_PROBE_STAT_COLD_CAP = true ∧ MemSame s t ∧
        (s.blk.slotValid slot = false → (t.blk.laneH i).taps = [] ∧ (t.blk.laneH i).revert = false) ∧
        (s.blk.slotValid slot = true → h.shadow = some slot → (t.blk.laneH i).taps = h.shadowTaps ∧ (t.blk.laneH i).revert = false) ∧
        (s.blk.slotValid slot = true → h.shadow ≠ some slot → t.blk.tapsNow i = now ∧ (t.blk.laneH i).revert = true ∧ Unknown t i 5)))

/-- R121, R129, R131, R140: RESUME takes a FROZEN lane back to TRAIN and ACTIVE; ZERO loads zero taps under the cold cap and trains; SAVE starts a write of the
taps to the slot in use; an underrun of a long-reach lane is CORRECTED, marked, and holds the cold cap. -/
def Sys2Proof.Spec.LaneCommands : Prop :=
  ∀ (who : Who) (i : Nat) (s : State), i < 264 → s.blk.leaderOf i = none → s.blk.lanePbd i < 128 →
    let u := U.lane i
    let h := s.blk.laneH i
    let pu := U.pbd (s.blk.lanePbd i)
    (Takes s who u → s.blk.time.coll = [] →
      (s.blk.adapt i = 4 → Ends (.laneResume who i) s fun t => t.blk.adapt i = 1 ∧ (t.blk.laneH i).taps = h.taps ∧
        (s.blk.ownState u = 3 → t.blk.ownState u = 2) ∧ MemSame s t) ∧
      (s.blk.adapt i ≠ 4 → Ends (.laneResume who i) s fun t => t.blk.regs = s.blk.regs ∧ t.blk.laneH i = h ∧ MemSame s t) ∧
      (s.blk.adapt i ≠ 0 → Ends (.laneZero who i) s fun t => t.blk.adapt i = 1 ∧ t.blk.tapsNow i = [] ∧ t.blk.flag u F.LANE_KEY_FROM_BANK = false ∧
        Unknown t i 4 ∧ t.blk.flag pu F.PBD_PROBE_STAT_COLD_CAP = true ∧ MemSame s t) ∧
      (s.blk.adapt i ≠ 0 → Ends (.laneSave who i) s fun t => (t.blk.laneH i).writing = h.writing ++ [(s.blk.fld u F.LANE_KEY_SLOT, s.blk.tapsNow i)] ∧
        t.blk.regs = s.blk.regs ∧ MemSame s t)) ∧
    (Settled s → s.blk.adapt i ≠ 0 → s.blk.laneLr i = true → Ends (.dlyUnderrun i) s fun t => t.blk.flag u F.LANE_STAT_DLY_UNDERRUN = true ∧
      Corrected s t u ∧ (t.blk.laneH i).blockBad = true ∧ Unknown t i 7 ∧ t.blk.flag pu F.PBD_PROBE_STAT_COLD_CAP = true ∧
      (s.blk.flag u F.LANE_STAT_DLY_UNDERRUN = false → Cause t u 19) ∧ MemSame s t) ∧
    (Settled s → s.blk.laneLr i = false → Ends (.dlyUnderrun i) s fun t => t = s)

/-- R120, R121, R129, R131, R133, R134, R140: lanes adapt, reach TRACK, diverge, and take their commands. -/
def Obligations.LaneAdaptation : Prop := AdaptationBlocks ∧ TrackAndDiverge ∧ LaneCommands

namespace Sys2Proof.Spec

/-- The swap `x` has taken place at lane `i` (R128): the shadow buffer's taps apply, the lane trains, and the prefetch of the next swap begins (R129). -/
def Swapped (s t : State) (i : Nat) (x : Swap) : Prop :=
  let left := (s.blk.laneH i).swaps.filter (fun y => y.ctx != x.ctx)
  t.blk.tapsNow i = (s.blk.laneH i).shadowTaps ∧ (t.blk.laneH i).swaps.map Swap.ctx = left.map Swap.ctx ∧
    (∀ y, (left.find? fun z => !z.failed) = some y → ((t.blk.laneH i).swaps.any fun z => z.ctx == y.ctx && z.started) = true) ∧
    t.blk.adapt i = 1 ∧ t.blk.flag (U.lane i) F.LANE_KEY_FROM_BANK = x.bank ∧ t.blk.fld (U.lane i) F.LANE_KEY_KEY = x.key % 2 ^ 32 ∧ t.blk.reg (U.lane i) R.LANE_SWAP_STAMP = s.blk.now ∧
    Cause t (U.lane i) 20 ∧ (x.bank = false → Unknown t i 4)

/-- The write-back of R129 is accepted at lane `i`: TRACK, and RESID at most BASE + 1 dB. -/
abbrev keepsModel (s : State) (i : Nat) : Prop :=
  s.blk.adapt i = 2 ∧ s.blk.db (U.lane i) F.LANE_RESID_RESID ≠ none ∧ s.blk.db (U.lane i) F.LANE_RESID_BASE ≠ none ∧
    s.blk.sfld (U.lane i) F.LANE_RESID_RESID ≤ s.blk.sfld (U.lane i) F.LANE_RESID_BASE + 64

/-- Word `w` of a copy of a model slot starts here in HBM (R124). -/
def bankAddr (s : State) (slot copy w : Nat) : Nat := s.blk.copyAddr slot (s.blk.copyOf slot copy) + 8 * w

/-- The MODEL region lies within HBM, and no pseudo-channel or sector of it fails to serve. -/
abbrev bankServes (s : State) : Prop :=
  s.blk.regionBase 0 + s.blk.regionSize 0 ≤ hbmSize ∧ s.blk.hbm.ue = [] ∧ ∀ p, p < 64 → s.blk.pcDead p = false

end Sys2Proof.Spec

/-- R128 to R130: a prefetch starts at S − LEAD; a complete one takes the bank's taps, or with an error clears VALID and leaves the lane as it runs, and
with one copy a slot it waits for a write of that slot; at S − 2,048 one that is incomplete, or has not begun, is late and counted; the next swap's prefetch follows; at S a staged swap with its prefetch
complete takes place, writing the outgoing taps back if R129 allows it, and a deferred one 2,048 Tc after its prefetch is complete. -/
def Sys2Proof.Spec.ModelSwaps : Prop :=
  ∀ (i x at_ : Nat) (w : Swap) (rest : List Swap) (s : State), i < 264 → Settled s → s.blk.lanePbd i < 128 → s.blk.leaderOf i = none →
    let u := U.lane i
    let h := s.blk.laneH i
    let c := s.blk.ctx x
    let key := c.arg 0 4
    let st := tcOf c.stamp
    let wb := s.blk.adaptFld i F.LANE_ADAPT_WB = 1
    (c.action = 0x20 → c.state = Cue.armed → c.target = u → s.blk.inService u = true → s.blk.keyDirOk i key = true → h.swaps = [] →
      at_ = st - s.blk.fld u F.LANE_PF_LEAD → DueNow s (s.blk.elapsedOfAir at_) → Ends (.modelPrefetchStart i x) s fun t =>
        (t.blk.laneH i).swaps = [{ ctx := x, stamp := st, key := key, slot := s.blk.keySlot i key, started := true, bank := s.blk.slotValid (s.blk.keySlot i key),
                                     done := if s.blk.slotValid (s.blk.keySlot i key) then none else some s.blk.t }] ∧
        (s.blk.slotValid (s.blk.keySlot i key) = false → (t.blk.laneH i).shadowTaps = []) ∧
        t.blk.flag u F.LANE_STAT_SWAP_PENDING = true ∧ RegsKept s t (fun v off => v == u && off == R.LANE_STAT) ∧ MemSame s t) ∧
    (h.swaps = w :: rest → w.started = true → w.done = none → w.failed = false →
      (s.blk.slotWriting w.slot = true → ∀ ok, Ends (.modelPrefetchDone i ok) s fun t => t = s) ∧
      (s.blk.slotWriting w.slot = false → s.blk.slotBad w.slot = false → Ends (.modelPrefetchDone i true) s fun t => (t.blk.laneH i).shadow = some w.slot ∧
        (t.blk.laneH i).shadowTaps = s.blk.bankTaps s.mem w.slot ∧ (t.blk.laneH i).swaps.head? = some { w with done := some s.blk.t } ∧
        t.blk.regs = s.blk.regs ∧ MemSame s t) ∧
      (s.blk.slotWriting w.slot = false → (∀ y ∈ rest, y.ctx ≠ w.ctx ∧ y.failed = false) → Ends (.modelPrefetchDone i false) s fun t =>
        t.blk.slotValid w.slot = false ∧ t.blk.flag u F.LANE_STAT_MODEL_ERR = true ∧ Corrected s t u ∧
        ((∀ y l, rest = y :: l → y.started = true) → t.blk.laneH i = { h with swaps := (if w.exe then [] else [{ w with failed := true }]) ++ rest }) ∧
        (∀ y l, rest = y :: l → ((t.blk.laneH i).swaps.any fun z => z.ctx == y.ctx && z.started) = true) ∧ Cause t (U.cl (i / 33)) 18 ∧ MemSame s t)) ∧
    (h.swaps = w :: rest → w.done = none →
      (w.late = false → 2048 ≤ w.stamp → DueNow s (s.blk.elapsedOfAir (w.stamp - 2048)) → (∀ y ∈ rest, y.ctx ≠ w.ctx) →
        (∀ y ∈ s.blk.swapsDue i, y.late = false → y.done = none → w.stamp ≤ y.stamp) → Ends (.modelSwapDeadline i) s fun t =>
        (t.blk.laneH i).swaps = { w with late := true } :: rest ∧ t.blk.flag u F.LANE_STAT_MODEL_LATE = true ∧
        t.blk.fld u F.LANE_STAT_LATE_CNT = min (2 ^ (F.LANE_STAT_LATE_CNT.hi + 1 - F.LANE_STAT_LATE_CNT.lo) - 1) (s.blk.fld u F.LANE_STAT_LATE_CNT + 1) ∧
        t.blk.reg u R.LANE_LATE_STAMP = stampOf w.stamp ∧ Corrected s t u ∧ (t.blk.laneH i).taps = h.taps ∧ MemSame s t)) ∧
    (h.swaps = w :: rest → w.failed = false → s.blk.t < s.blk.time.tickEnd →
      (w.staged = true → w.done ≠ none → w.late = false → s.blk.time.air = w.stamp → Ends (.modelSwap i) s fun t => Swapped s t i w ∧ MemSame s t ∧
        (wb → keepsModel s i → (t.blk.laneH i).writing = h.writing ++ [(s.blk.fld u F.LANE_KEY_SLOT, s.blk.tapsNow i)]) ∧
        (wb → ¬ keepsModel s i → (t.blk.laneH i).writing = h.writing ∧ t.blk.flag u F.LANE_STAT_WB_SKIP = true) ∧
        (¬ wb → (t.blk.laneH i).writing = h.writing)) ∧
      (w.late = false → w.done = none → Ends (.modelSwap i) s fun t => t = s) ∧
      (w.late = true → w.exe = true → w.done = some (s.blk.t - 2048) → 2048 ≤ s.blk.t → Ends (.modelDeferredSwap i) s fun t => Swapped s t i w ∧ MemSame s t))

/-- R124, R127, R129: a write of a model to the bank goes to the oldest copy, which becomes the newest with its slot VALID; it puts each tap in its four
bytes, least significant byte first, and zero elsewhere in the slot. -/
def Sys2Proof.Spec.ModelWrites : Prop :=
  ∀ (i slot : Nat) (taps : Store Word) (rest : List (Nat × Store Word)) (s : State), i < 264 → Settled s →
    (s.blk.laneH i).writing = (slot, taps) :: rest → slot < s.blk.bankSlots → Store.wf 0 taps = true → (∀ x ∈ taps, x.1 < 1024) → bankServes s →
    s.mem.wf = true → Ends (.modelWriteDone i) s fun t =>
      let c := (Store.get 0 s.blk.bank.newest slot + 1) % s.blk.bankCopies
      let a := s.blk.copyAddr slot c
      (t.blk.laneH i).writing = rest ∧ t.blk.slotValid slot = true ∧ t.blk.copyOf slot 0 = c ∧ t.blk.regs = s.blk.regs ∧
        (∀ b, b < a ∨ a + 4096 ≤ b → t.mem.rdByte b = s.mem.rdByte b) ∧ (∀ r j, t.mem.rd r j = s.mem.rd r j) ∧
        ∀ k, k < 1024 → t.mem.rdBytes (a + 4 * k) 4 = Word.fld (Store.get 0 taps k) 31 0

/-- R127, R141, R142: bank words are written to the newest copy and read from the copy that COPY names, with RANGE beyond the slots and MB_BUSY at a slot in
use; VALID is set and cleared; the end of an access clears BUSY with its cause; tap words go to the tap memory in OFF or a held HOLD, and read back. -/
def Sys2Proof.Spec.BankAndTapAccess : Prop :=
  ∀ (who : Who) (k i : Nat) (v : Word) (s : State), k < 8 → i < 264 → s.blk.time.coll = [] →
    let u := U.cl 0
    let slot := s.blk.fld u F.CL_MB_ADDR_SLOT
    let w := s.blk.fld u F.CL_MB_ADDR_WORD
    let a := bankAddr s slot 0 w
    let copy := s.blk.fld u F.CL_MB_ADDR_COPY
    let nextWord := fun (t : State) => s.blk.flag u F.CL_MB_ADDR_AUTOINC = true → t.blk.fld u F.CL_MB_ADDR_WORD = (w + 1) % 512
    let mb := fun (x off : Nat) => x == u && (off == R.CL_MB_ADDR || off == R.CL_MB_STAT)
    let tap := s.blk.fld (U.lane i) F.LANE_TAP_ADDR_TAP
    let open_ := s.blk.adapt i = 0 ∨ (s.blk.adapt i = 3 ∧ s.blk.adaptFld i F.LANE_ADAPT_ADAPT_EN = 0)
    let tapMoves := fun (t : State) => t.blk.fld (U.lane i) F.LANE_TAP_ADDR_TAP = (tap + 1) % 1024
    (Takes s who (U.cl k) →
      (slot < s.blk.bankSlots → s.blk.slotBusy slot = false → bankServes s → Ends (.mbDataWrite who k .both v) s fun t =>
        t.mem.rdBytes a 8 = v.toNat ∧ (∀ b, b < a ∨ a + 8 ≤ b → t.mem.rdByte b = s.mem.rdByte b) ∧ (∀ r j, t.mem.rd r j = s.mem.rd r j) ∧ nextWord t ∧
        t.blk.flag u F.CL_MB_STAT_BUSY = true ∧ RegsKept s t mb) ∧
      (slot < s.blk.bankSlots → s.blk.slotBusy slot = true → Ends (.mbDataWrite who k .both v) s fun t => t.blk.flag u F.CL_MB_STAT_MB_BUSY = true ∧
        nextWord t ∧ RegsKept s t (fun x off => mb x off || (x == U.cl k && off == R.UNIT_IRQ_STAT)) ∧ MemSame s t) ∧
      (s.blk.bankSlots ≤ slot → Ends (.mbDataWrite who k .both v) s fun t => t.blk.flag u F.CL_MB_STAT_RANGE = true ∧
        RegsKept s t (fun x off => x == u && off == R.CL_MB_STAT) ∧ MemSame s t) ∧
      ∀ sl, (sl < s.blk.bankSlots →
          (Ends (.setValid who k sl) s fun t => t.blk.slotValid sl = true ∧ RegsKept s t mb ∧ MemSame s t) ∧
          Ends (.clearValid who k sl) s fun t => t.blk.slotValid sl = false ∧ RegsKept s t mb ∧ MemSame s t) ∧
        (s.blk.bankSlots ≤ sl → Ends (.setValid who k sl) s fun t => t.blk.flag u F.CL_MB_STAT_RANGE = true ∧ t.blk.bank = s.blk.bank ∧ MemSame s t) ∧
        Ends (.clearAllValid who k) s fun t => t.blk.slotValid sl = false ∧ RegsKept s t mb ∧ MemSame s t) ∧
    (Settled s → s.blk.readOk who (U.cl k) = true → slot < s.blk.bankSlots → copy < s.blk.bankCopies → bankServes s → Ends (.mbDataRead who k .both) s fun t =>
      t.blk.rdata.toNat = s.mem.rdBytes (bankAddr s slot copy w) 8 ∧ nextWord t ∧ RegsKept s t mb ∧ MemSame s t) ∧
    (Settled s → s.blk.readOk who (U.cl k) = true → s.blk.bankSlots ≤ slot → Ends (.mbDataRead who k .both) s fun t =>
      t.blk.rdata = 0 ∧ t.blk.flag u F.CL_MB_STAT_RANGE = true ∧ MemSame s t) ∧
    (Settled s → Store.get 0 s.blk.bank.busy k ≠ 0 → (∀ x ∈ s.blk.bank.busy, x.1 = k) → Ends (.mbAccessDone k) s fun t =>
      t.blk.flag u F.CL_MB_STAT_BUSY = false ∧ Cause t (U.cl k) 16 ∧ MemSame s t) ∧
    (Takes s who (U.lane i) → s.blk.leaderOf i = none →
      (open_ → Ends (.tapDataWrite who i .both v) s fun t => Store.get 0 (t.blk.tapsNow i) tap = (v &&& 0xFFFFFFFF) ∧
        tapMoves t ∧ RegsKept s t (fun x off => x == U.lane i && off == R.LANE_TAP_ADDR) ∧ MemSame s t) ∧
      (s.blk.time.coll = [] → Ends (.tapDataWrite who i .hi v) s fun t => tapMoves t ∧ t.blk.laneH i = s.blk.laneH i ∧ MemSame s t) ∧
      (¬ open_ → Ends (.tapDataWrite who i .both v) s fun t => t.blk.flag (U.lane i) F.LANE_STAT_CFG_REJ = true ∧
        tapMoves t ∧ t.blk.laneH i = s.blk.laneH i ∧ MemSame s t)) ∧
    (Settled s → s.blk.readOk who (U.lane i) = true → s.blk.leaderOf i = none → Ends (.tapDataRead who i) s fun t =>
      t.blk.rdata = Store.get 0 (s.blk.tapsNow i) tap ∧ tapMoves t ∧ MemSame s t)

/-- R124, R127 to R130, R141, R142: the model bank, the swaps of models, and the accesses to the bank and the tap memory. -/
def Obligations.ModelBank : Prop := ModelSwaps ∧ ModelWrites ∧ BankAndTapAccess

namespace Sys2Proof.Spec

/-- PBD `m` has not restarted in this very Tc: a squall would take that restart back (R189). -/
abbrev noRestart (s : State) (m : Nat) : Prop := (s.blk.loop.restarted.any fun x => x.pbd == m && x.at_ == s.blk.t) = false

/-- The cue in context `x` has action `a` and acts now: staged at its Tc, or issued with the lateness `late` (R247, R248). -/
abbrev Acting (s : State) (x a : Nat) (late : Int) : Prop :=
  let c := s.blk.ctx x
  c.action = a ∧ Settled s ∧ s.blk.time.coll = [] ∧ s.blk.flag 0 F.FLT_MODE_FATAL = false ∧ s.blk.inReset = false ∧ s.blk.voided = false ∧
    ((c.state = 2 ∧ late = 0 ∧ DueNow s (s.blk.elapsedOfAir (cueActs c))) ∨ (c.state = 4 ∧ late = (s.blk.time.air : Int) - c.e))

/-- The occurrence in context `x` retires with result `res` (R247, R248): its slot is given up, LATE counts and EXEC_REJ
counts. -/
def CueEnds (s t : State) (x res : Nat) (late : Int) : Prop :=
  let c := s.blk.ctx x
  t.blk.ctx x = { c with
    slot := false, state := 5, result := res, lateness := min (2 ^ 32 - 1) late.toNat, occ := (c.occ + 1) % 2 ^ 32, effAt := s.blk.now } ∧
  (res = 2 → t.blk.fld U.dsp F.DSP_LATE_CNT_LATE = min (2 ^ (F.DSP_LATE_CNT_LATE.hi + 1 - F.DSP_LATE_CNT_LATE.lo) - 1) (s.blk.fld U.dsp F.DSP_LATE_CNT_LATE + 1)) ∧
  (4 ≤ res → t.blk.fld U.dsp F.DSP_REJ_CNT_EXEC_REJ =
    min (2 ^ (F.DSP_REJ_CNT_EXEC_REJ.hi + 1 - F.DSP_REJ_CNT_EXEC_REJ.lo) - 1) (s.blk.fld U.dsp F.DSP_REJ_CNT_EXEC_REJ + 1)) ∧
  (∀ y, y ≠ x → t.blk.ctx y = s.blk.ctx y)

/-- The occurrence is executed, in time or late. -/
def Executes (s t : State) (x : Nat) (late : Int) : Prop := CueEnds s t x (if 0 < late then 2 else 1) late

/-- Only the page of `u` and the dispatcher's page change, and no memory. -/
def CueOnly (s t : State) (u : Nat) : Prop := RegsKept s t (fun v _ => v == u || v == U.dsp) ∧ MemSame s t

end Sys2Proof.Spec

/-- R243, R245, R358: CUE_EFFECT of a context is the effect of its action; a context that is neither staged nor issued, and any under the fatal latch, does
nothing. -/
def Sys2Proof.Spec.CueEffects : Prop :=
  ∀ (x : Nat) (s : State), Settled s →
    (∀ p ∈ ([(0x00, .cueMark x), (0x01, .cueWrite x), (0x02, .cueEnable x), (0x03, .cuePower x), (0x04, .cueFence x), (0x10, .cueDirection x),
        (0x11, .cueBeam x), (0x12, .cueFbank x), (0x13, .cueRetune x), (0x14, .cueCap x), (0x15, .cueLull x), (0x16, .cueSquall x),
        (0x17, .cueUnsquall x), (0x18, .cueRestart x), (0x20, .cueSwapmodel x), (0x21, .cueMsync x), (0x30, .cueHop x), (0x31, .cueStrobe x),
        (0x32, .cueRffe x), (0x3F, .cueModsquall x)] : List (Nat × Instr)),
      ((s.blk.ctx x).action = p.1 → ∃ t, exec (.cueEffect x) s = .next t ∧ exec p.2 s = .next t) ∧
        ((s.blk.ctx x).action ≠ p.1 → Ends p.2 s fun t => t = s)) ∧
    ((s.blk.flag 0 F.FLT_MODE_FATAL = true ∨ ((s.blk.ctx x).state ≠ 2 ∧ (s.blk.ctx x).state ≠ 4)) → Ends (.cueEffect x) s fun t => t = s)

/-- R245: with no transmit demand that could wait for a synthesiser (R96), MARK has no effect of its own; WRITE replaces the masked bits of a register, here of a temperature sensor or a pseudo-channel; ENABLE, POWER and FENCE
write UNIT_CTRL. -/
def Sys2Proof.Spec.CuesAtUnits : Prop :=
  ∀ (x i : Nat) (d : RegDef) (late : Int) (s : State), NoGroups s → (∀ k, k < 32 → s.blk.txcDemand k = false) →
    let c := s.blk.ctx x
    let u := c.target
    let off := c.arg 0 2
    let mask : Word := BitVec.ofNat 64 (c.arg 8 8)
    let v : Word := BitVec.ofNat 64 (c.arg 16 8)
    let on := c.arg 0 1 % 2 = 1
    (Acting s x 0x00 late → Ends (.cueMark x) s fun t => Executes s t x late ∧ RegsKept s t (fun w _ => w == U.dsp) ∧ MemSame s t) ∧
    (Acting s x 0x01 late →
      (kindOf u ∈ [0x08, 0x0B] → 0x040 ≤ off → off < 0x400 → off % 8 = 0 → (kindOf u = 0x0B → off ≠ R.PC_STAT) → (kindOf u = 0x08 → off ≠ R.TS_NBR) →
        regAt u off = some (d, i) → rowsApart d → Ends (.cueWrite x) s fun t => Executes s t x late ∧
          (∀ r ∈ d.rows, let f : Fld := ⟨off, r.hi, r.lo⟩
            let old := s.blk.reg u off
            ((r.acc = .ro ∨ r.acc = .wo) → t.blk.fld u f = s.blk.fld u f) ∧ (r.acc = .w1c → t.blk.fld u f = Word.fld (old &&& ~~~(v &&& mask)) r.hi r.lo) ∧
            (r.acc = .rw → (r.rng = .any ∨ r.rng = .code8000) → t.blk.fld u f = Word.fld ((old &&& ~~~mask) ||| (v &&& mask)) r.hi r.lo)) ∧
          RegsKept s t (fun w off' => (w == u && (off' == off || off' < 0x040)) || w == U.dsp || w == 0) ∧ MemSame s t) ∧
      (off % 8 ≠ 0 → Ends (.cueWrite x) s fun t => CueEnds s t x 4 late ∧ RegsKept s t (fun w _ => w == U.dsp) ∧ MemSame s t)) ∧
    (Acting s x 0x02 late → Single s u → plainKind u →
      (on → s.blk.ownState u = 1 → s.blk.flag u F.UNIT_CTRL_TEST_REQ = false → Ends (.cueEnable x) s fun t => Executes s t x late ∧
        Moves s t u 2 ∧ t.blk.flag u F.UNIT_CTRL_ENABLE = true ∧ MemSame s t) ∧
      (¬ on → kindOf u = 0x08 → s.blk.ownState u = 2 → s.blk.flag u F.UNIT_CTRL_TEST_REQ = false → Ends (.cueEnable x) s fun t => Executes s t x late ∧
        Moves s t u 1 ∧ t.blk.flag u F.UNIT_CTRL_ENABLE = false ∧ MemSame s t)) ∧
    (Acting s x 0x03 late → Single s u → kindOf u = 0x02 → ¬ on → s.blk.ownState u = 0 → Ends (.cuePower x) s fun t => Executes s t x late ∧
      t.blk.flag u F.UNIT_CTRL_POWER_REQ = false ∧ MemSame s t) ∧
    (Acting s x 0x04 late → Single s u → plainKind u → s.blk.ownState u ≠ 6 → s.blk.ownState u ≠ 4 → Ends (.cueFence x) s fun t => Executes s t x late ∧
      Moves s t u 4 ∧ t.blk.flag u F.UNIT_CTRL_ENABLE = false ∧ MemSame s t)

/-- R61, R63, R70, R75, R245: DIRECTION schedules the steps of both sides at its passband and retires with them; BEAM, FBANK and RETUNE act at a passband
direction; a passband without duplex and a side without beams refuse. -/
def Sys2Proof.Spec.CuesAtPassbands : Prop :=
  ∀ (x k : Nat) (late : Int) (s : State), k < 128 →
    let c := s.blk.ctx x
    let n := k / 2
    let u := U.pbd k
    let rx := c.arg 0 8 % 2 ^ 48
    let tx := c.arg 8 8 % 2 ^ 48
    let bank := decide (c.arg 0 1 % 2 = 1)
    let words := fun (t : State) => t.blk.fld u F.PBD_NCO_RX_WORD = rx ∧ t.blk.fld u F.PBD_NCO_TX_WORD = tx
    (Acting s x 0x10 late → c.target = U.pb n →
      (s.blk.flag (U.pb n) F.PB_CFG_DUPLEX = true → Ends (.cueDirection x) s fun t => (t.blk.ctx x).state = 5 ∧ (t.blk.ctx x).result = 0 ∧
        (t.blk.ctx x).slot = false ∧ (∀ y ∈ (s.blk.pbH n).steps, y ∈ (t.blk.pbH n).steps) ∧
        (∀ st ∈ [DirStep.rampDown, .silent, .swRx, .rxOpen, .rxGateSwTx, .txBegin, .full], (t.blk.pbH n).steps.any (fun y => y.step == st && y.ctx == x) = true) ∧
        t.blk.regs = s.blk.regs ∧ MemSame s t) ∧
      (s.blk.flag (U.pb n) F.PB_CFG_DUPLEX = false → Ends (.cueDirection x) s fun t => CueEnds s t x 4 late ∧ t.blk.pbH n = s.blk.pbH n ∧
        CueOnly s t U.dsp)) ∧
    (c.target = u →
      (Acting s x 0x11 late → s.blk.flag (U.pb n) F.PB_CFG_BEAM_DN = true → s.blk.flag (U.pb n) F.PB_CFG_BEAM_SV = true → Ends (.cueBeam x) s fun t =>
        Executes s t x late ∧ t.blk.fld u F.PBD_BEAM_DN = c.arg 0 8 % 1024 ∧ t.blk.fld u F.PBD_BEAM_SV = c.arg 0 8 / 65536 % 1024 ∧ CueOnly s t u) ∧
      (Acting s x 0x11 late → s.blk.flag (U.pb n) F.PB_CFG_BEAM_DN = false → c.arg 0 8 % 1024 ≠ s.blk.fld u F.PBD_BEAM_DN → Ends (.cueBeam x) s fun t =>
        CueEnds s t x 4 late ∧ t.blk.flag u F.PBD_STAT_BEAM_REJ = true ∧ t.blk.fld u F.PBD_BEAM_DN = s.blk.fld u F.PBD_BEAM_DN ∧ CueOnly s t u) ∧
      (Acting s x 0x12 late → Ends (.cueFbank x) s fun t => Executes s t x late ∧ t.blk.flag u F.PBD_CTRL_FBANK = bank ∧
        t.blk.flag u F.PBD_STAT_FBANK_ACT = bank ∧ CueOnly s t u) ∧
      (Acting s x 0x13 late →
        (s.blk.pbdOn k = false → Ends (.cueRetune x) s fun t => Executes s t x late ∧ words t ∧ t.blk.pbdH k = s.blk.pbdH k ∧ CueOnly s t u) ∧
        (s.blk.pbdOn k = true → (s.blk.pbdH k).retune = .idle → Ends (.cueRetune x) s fun t => Executes s t x late ∧ words t ∧
          (t.blk.pbdH k).retune = .ramp s.blk.t ∧ t.blk.flag u F.PBD_STAT_RETUNING = true ∧ CueOnly s t u) ∧
        ∀ t0, s.blk.pbdOn k = true → (s.blk.pbdH k).retune = .ramp t0 → Ends (.cueRetune x) s fun t => Executes s t x late ∧
          (t.blk.pbdH k).heldRetune = some s.blk.t ∧ (t.blk.pbdH k).cueNco = some (rx, tx) ∧ (t.blk.pbdH k).retune = .ramp t0 ∧ CueOnly s t U.dsp))

/-- R159, R187, R190, R194, R245: CAP and LULL write L4, and CAP may not raise it above the lull level at user privilege; SQUALL sets cause CUE, at its stamp with
the ramp from that Tc on, UNSQUALL ends HOST and CUE, RESTART asks for the restart, these two at system privilege alone; MODSQUALL sets the module cause CUE. -/
def Sys2Proof.Spec.CuesOfProtection : Prop :=
  ∀ (x m : Nat) (late : Int) (s : State), m < 128 →
    let c := s.blk.ctx x
    let u := U.pbd m
    let cap := max (-32767) (sext 16 (c.arg 0 2))
    let old := s.blk.sfld u (F.LOOP_SETPT_SETPT 4)
    let cause := s.blk.fld u F.PROT_STAT_CAUSE
    (c.target = u →
      (Acting s x 0x14 late → (c.sys = true ∨ cap ≤ old ∨ cap ≤ s.blk.lullLevel m) → Ends (.cueCap x) s fun t => Executes s t x late ∧
        t.blk.sfld u (F.LOOP_SETPT_SETPT 4) = cap ∧ t.blk.flag u (F.LOOP_CTRL_EN 4) = true ∧
        (sext 16 (c.arg 0 2) = -32768 → t.blk.flag u F.UNIT_FAULT_CORRECTED = true) ∧
        (sext 16 (c.arg 0 2) ≠ -32768 →
          RegsKept s t (fun w off => w == U.dsp || (w == u && (off == R.LOOP_SETPT 4 || off == R.LOOP_CTRL 4))) ∧ MemSame s t)) ∧
      (Acting s x 0x14 late → c.sys = false → old < cap → s.blk.lullLevel m < cap → Ends (.cueCap x) s fun t => CueEnds s t x 4 late ∧
        t.blk.sfld u (F.LOOP_SETPT_SETPT 4) = old ∧ t.blk.flag u F.PBD_STAT_CFG_REJ = true ∧ Corrected s t u ∧ MemSame s t) ∧
      (Acting s x 0x15 late → Ends (.cueLull x) s fun t => Executes s t x late ∧ t.blk.sfld u (F.LOOP_SETPT_SETPT 4) = min old (s.blk.lullLevel m) ∧
        t.blk.flag u (F.LOOP_CTRL_EN 4) = true ∧
        RegsKept s t (fun w off => w == U.dsp || (w == u && (off == R.LOOP_SETPT 4 || off == R.LOOP_CTRL 4))) ∧ MemSame s t) ∧
      (Acting s x 0x16 late → Ends (.cueSquall x) s fun t => Executes s t x late ∧ (t.blk.fld u F.PROT_STAT_CAUSE).testBit 7 = true ∧
        (s.blk.squalled m = false → noRestart s m → s.blk.time.air ≤ tcOf c.stamp →
          (t.blk.pbdH m).sqSeq = [(s.blk.t + 256, .silent), (s.blk.t + 512, .switches)]) ∧ MemSame s t) ∧
      (Acting s x 0x17 late → c.sys = true → Ends (.cueUnsquall x) s fun t => Executes s t x late ∧
        (t.blk.fld u F.PROT_STAT_CAUSE).testBit 6 = false ∧ (t.blk.fld u F.PROT_STAT_CAUSE).testBit 7 = false ∧ MemSame s t) ∧
      (Acting s x 0x17 late → c.sys = false → Ends (.cueUnsquall x) s fun t => CueEnds s t x 4 late ∧ t.blk.fld u F.PROT_STAT_CAUSE = cause ∧
        Corrected s t u ∧ MemSame s t) ∧
      (Acting s x 0x18 late → c.sys = true → s.blk.restartOk m = true → Ends (.cueRestart x) s fun t => Executes s t x late ∧
        (t.blk.pbdH m).restartReq = true ∧ CueOnly s t U.dsp) ∧
      (Acting s x 0x18 late → c.sys = false ∨ s.blk.restartOk m = false → Ends (.cueRestart x) s fun t => CueEnds s t x 4 late ∧
        (t.blk.pbdH m).restartReq = (s.blk.pbdH m).restartReq ∧ Corrected s t u ∧ MemSame s t)) ∧
    (Acting s x 0x3F late → c.target = 0 → Ends (.cueModsquall x) s fun t => Executes s t x late ∧ t.blk.flag 0 F.ROOT_SQUALL_CUE = true ∧
      t.blk.flag 0 F.ROOT_SQUALL_ACTIVE = true ∧ MemSame s t ∧
      (s.blk.flag 0 F.ROOT_SQUALL_ACTIVE = false → t.blk.reg 0 R.ROOT_SQ_STAMP = s.blk.now ∧ Cause t 0 16 ∧ (t.blk.fld u F.PROT_STAT_CAUSE).testBit 5 = true))

/-- R128, R130, R184, R245: SWAPMODEL whose swap is not ready is late at its lane, one that took place at its Tc is done, and a key of the other direction is
refused; MSYNC resets the decimators 64 Tc after its stamp. -/
def Sys2Proof.Spec.CuesAtLanes : Prop :=
  ∀ (x k : Nat) (late : Int) (s : State), k < 264 →
    let c := s.blk.ctx x
    let key := c.arg 0 4
    (Acting s x 0x20 late → c.target = U.lane k → s.blk.leaderOf k = none →
      (s.blk.reg (U.lane k) R.LANE_SWAP_STAMP = stampOf (tcOf c.stamp) → s.blk.fld (U.lane k) F.LANE_KEY_KEY = key →
        (∀ y ∈ (s.blk.laneH k).swaps, y.ctx ≠ x) → Ends (.cueSwapmodel x) s fun t => Executes s t x late ∧ CueOnly s t U.dsp) ∧
      (∀ w, (s.blk.laneH k).swaps = [w] → w.ctx = x → w.done = none → w.late = false → w.failed = false → s.blk.inService (U.lane k) = true → s.blk.keyDirOk k key = true →
        s.blk.lanePbd k < 128 → Ends (.cueSwapmodel x) s fun t => Executes s t x late ∧ Unknown t k 2 ∧ t.blk.flag (U.lane k) F.LANE_STAT_MODEL_LATE = true ∧
          Corrected s t (U.lane k) ∧ (t.blk.laneH k).swaps = [{ w with late := true, exe := true }] ∧ (t.blk.laneH k).taps = (s.blk.laneH k).taps ∧
          MemSame s t) ∧
      (s.blk.inService (U.lane k) = true → s.blk.keyDirOk k key = false → (s.blk.laneH k).swaps = [] → s.blk.reg (U.lane k) R.LANE_SWAP_STAMP ≠ stampOf (tcOf c.stamp) →
        Ends (.cueSwapmodel x) s fun t => CueEnds s t x 4 late ∧ Corrected s t (U.lane k) ∧ t.blk.laneH k = s.blk.laneH k ∧ MemSame s t)) ∧
    (Acting s x 0x21 late → kindOf c.target = 0x19 → Ends (.cueMsync x) s fun t => Executes s t x late ∧ s.blk.t - (s.blk.time.air - tcOf c.stamp) + 64 ∈ t.blk.mcResets ∧
      CueOnly s t U.dsp)

/-- R95, R99, R101, R105, R245, R356: HOP hops or waits; STROBE drives a line in CUE function; RFFE starts its sequence; an invalid word, a line in another
function, a bus that is off and a safe state refuse. -/
def Sys2Proof.Spec.CuesAtFrontEnds : Prop :=
  ∀ (x k : Nat) (late : Int) (s : State),
    let c := s.blk.ctx x
    let e := c.arg 0 2 % 4096
    let line := c.arg 0 1 % 32
    let up := c.arg 1 1 % 2 = 1
    let seq := c.arg 0 1
    (k < 8 → c.target = U.sy k → Acting s x 0x30 late → s.blk.usable (U.sy k) = true →
      (syWordOk (syEnt s k e).word = true → NoAsks s k → (s.blk.syH k).hop = none → Ends (.cueHop x) s fun t => Executes s t x late ∧ Hops s t k e ∧ MemSame s t) ∧
      (∀ e0 start cold, syWordOk (syEnt s k e).word = true → NoAsks s k → (s.blk.syH k).hop = some (e0, start, cold) → start < s.blk.t → Ends (.cueHop x) s fun t => Executes s t x late ∧ (t.blk.syH k).queued = some e ∧
        t.blk.flag (U.sy k) F.SY_STAT_QUEUED = true ∧ CueOnly s t (U.sy k)) ∧
      (syWordOk (syEnt s k e).word = false → Ends (.cueHop x) s fun t => CueEnds s t x 4 late ∧ Corrected s t (U.sy k) ∧ t.blk.syH k = s.blk.syH k ∧ MemSame s t)) ∧
    (k < 4 → c.target = U.cc k →
      (Acting s x 0x31 late → s.blk.fld (U.cc k) (F.CC_STB_CFG_FUNC line) = 5 → (¬ up ∨ (s.blk.root.strobesLow = false ∧ s.blk.strobeHold = false)) →
        Ends (.cueStrobe x) s fun t => Executes s t x late ∧ (t.blk.ccH k).cueHigh.testBit line = decide up ∧
          (∀ j, j ≠ line → (t.blk.ccH k).cueHigh.testBit j = (s.blk.ccH k).cueHigh.testBit j) ∧ CueOnly s t U.dsp) ∧
      (Acting s x 0x31 late → s.blk.fld (U.cc k) (F.CC_STB_CFG_FUNC line) ≠ 5 → Ends (.cueStrobe x) s fun t => CueEnds s t x 4 late ∧ Corrected s t (U.cc k) ∧
        t.blk.ccH k = s.blk.ccH k ∧ MemSame s t) ∧
      (Acting s x 0x32 late → s.blk.rffeStill = true → Ends (.cueRffe x) s fun t => CueEnds s t x 4 late ∧ t.blk.ccs = s.blk.ccs ∧ CueOnly s t U.dsp) ∧
      (Acting s x 0x32 late → s.blk.rffeStill = false → busesIdle s → seqFrames s.mem k seq ≠ [] → Ends (.cueRffe x) s fun t => Executes s t x late ∧
        (t.blk.ccH k).running = (s.blk.ccH k).running ++
          [{ slot := seq, buses := slotBuses (seqFrames s.mem k seq), due := s.blk.t + s.blk.slotTime k (seqFrames s.mem k seq) }] ∧ MemSame s t) ∧
      (Acting s x 0x32 late → s.blk.rffeStill = false → (∃ b ∈ seqBuses s.mem seq, s.blk.busOff b.1 b.2 = true) → Ends (.cueRffe x) s fun t => CueEnds s t x 4 late ∧ Cause t (U.cc k) 18 ∧
        (t.blk.ccH k).waiting = (s.blk.ccH k).waiting ∧ MemSame s t))

/-- R245: the effects of the cue actions. -/
def Obligations.CueActions : Prop := CueEffects ∧ CuesAtUnits ∧ CuesAtPassbands ∧ CuesOfProtection ∧ CuesAtLanes ∧ CuesAtFrontEnds

namespace Sys2Proof.Spec

/-- Context `x` alone changes among the contexts. -/
def CtxOnly (s t : State) (x : Nat) : Prop := ∀ y, y ≠ x → t.blk.ctx y = s.blk.ctx y

/-- An action that always expires beyond its tolerance (class E of R245), here those whose class does not depend on their argument. -/
abbrev classE (a : Nat) : Prop := a ∈ [0x00, 0x01, 0x11, 0x12, 0x13, 0x17, 0x18, 0x20, 0x21, 0x30, 0x32]

/-- An action toward the safer state, which never expires (class S of R245). -/
abbrev classS (a : Nat) : Prop := a ∈ [0x04, 0x15, 0x16, 0x3F]

/-- A 64-byte entry of a ring as a cue image (R241). -/
def entryCue (e : Entry) : Ctx :=
  { stamp := e.setWidth 64, target := (e.toNat >>> 64) % 2 ^ 16, action := (e.toNat >>> 80) % 2 ^ 8, ctrl := (e.toNat >>> 88) % 2 ^ 8
    tol := (e.toNat >>> 96) % 2 ^ 16, period := (e.toNat >>> 128) % 2 ^ 32, count := (e.toNat >>> 160) % 2 ^ 16, args := (e >>> 256).setWidth 256 }

end Sys2Proof.Spec

/-- R247, R250, R251: the cue that is first in the order of staging takes a slot, at most one in a Tc and none while a cue waits or 2,048 are in flight; an
acknowledgment by E stages it; a cue that comes to E without one waits, unless its write was sent its transport bound or more before E, by which it has
reached the unit (log entry 103). -/
def Sys2Proof.Spec.StagingAndWaiting : Prop :=
  ∀ (x : Nat) (s : State), Settled s → Store.wf Ctx.init s.blk.ctxs = true →
    let c := s.blk.ctx x
    let full := s.blk.flag 0 F.FLT_MODE_FATAL = true ∨ s.blk.dsp.stagedAt = s.blk.t + 1 ∨ 2048 ≤ s.blk.inflight ∨ ∃ y ∈ s.blk.ctxs, y.2.state = 3
    (full → Ends .cueStage s fun t => t = s) ∧
    (¬ full → c.state = 1 → c.slot = false → c.e - 8192 ≤ s.blk.time.air → s.blk.time.air ≤ c.e → s.blk.shadowUsed c.target < 16 →
      (∀ y ∈ s.blk.stageable, y.1 ≠ x → cueBefore c y.2 = true) → Ends .cueStage s fun t => t.blk.ctx x = { c with slot := true, slotAt := s.blk.t } ∧
        t.blk.dsp.stagedAt = s.blk.t + 1 ∧ CtxOnly s t x ∧ CueOnly s t U.dsp) ∧
    (c.state = 1 → c.slot = true → s.blk.time.air ≤ c.e → Ends (.cueShadowAck x) s fun t => t.blk.ctx x = { c with state := 2 } ∧
      CtxOnly s t x ∧ t.blk.regs = s.blk.regs ∧ MemSame s t) ∧
    (c.state ≠ 1 ∨ c.slot = false → Ends (.cueShadowAck x) s fun t => t = s) ∧
    (c.state = 1 → DueNow s (s.blk.elapsedOfAir c.e.toNat) → Ends (.cueWait x) s fun t =>
      t.blk.ctx x = (if c.slot = true ∧ c.slotAt + shadowTc c.target ≤ s.blk.t then { c with state := 2 } else { c with slot := false, state := 3 }) ∧
      CtxOnly s t x ∧ t.blk.regs = s.blk.regs ∧ MemSame s t) ∧
    (c.state ≠ 1 → Ends (.cueWait x) s fun t => t = s)

/-- R248, R250, R251: the waiting cue that is first in order is issued with its lateness, or expires with no effect where its class expires and the lateness
is beyond its tolerance. -/
def Sys2Proof.Spec.IssueAndExpiry : Prop :=
  ∀ (x : Nat) (s : State), Settled s → Store.wf Ctx.init s.blk.ctxs = true → s.blk.flag 0 F.FLT_MODE_FATAL = false → s.blk.inflight < 2048 →
    let c := s.blk.ctx x
    let il := (s.blk.time.air : Int) - c.e
    let tol : Int := if c.tol = 0 then 256 else c.tol
    c.state = 3 → (∀ y ∈ s.blk.waitingCues, y.1 ≠ x → cueBefore c y.2 = true) →
      ((il ≤ tol ∨ classS c.action) → s.blk.dsp.issuedAt ≠ s.blk.t + 1 → Ends .cueIssue s fun t =>
        t.blk.ctx x = { c with slot := true, state := 4, lateness := min (2 ^ 32 - 1) il.toNat } ∧ t.blk.dsp.issuedAt = s.blk.t + 1 ∧ CtxOnly s t x ∧
          CueOnly s t U.dsp) ∧
      ((il ≤ tol ∨ classS c.action) → s.blk.dsp.issuedAt = s.blk.t + 1 → Ends .cueIssue s fun t => t = s) ∧
      (tol < il → classE c.action → c.action ≠ 0x20 → Ends .cueIssue s fun t => CueEnds s t x 3 il ∧
        t.blk.fld U.dsp F.DSP_LATE_CNT_EXPIRED = min (2 ^ (F.DSP_LATE_CNT_EXPIRED.hi + 1 - F.DSP_LATE_CNT_EXPIRED.lo) - 1)
          (s.blk.fld U.dsp F.DSP_LATE_CNT_EXPIRED + 1) ∧
        t.blk.fld U.dsp F.DSP_LAST_EXP_CTX = x % 2 ^ 18 ∧ t.blk.fld U.dsp F.DSP_LAST_EXP_ACTION = c.action % 256 ∧
        t.blk.fld U.dsp F.DSP_LAST_EXP_TARGET = c.target % 65536 ∧ t.blk.reg U.dsp R.DSP_LAST_EXP_STAMP = c.stamp ∧ Cause t U.dsp 19 ∧
        Corrected s t U.dsp ∧ MemSame s t)

/-- R243, R249, R260, R262: a retired context posts its notification, where it asks for one, as the next entry of its ring, and goes FREE, or is armed again one
period on with COUNT one lower, but not before all its parts have been reached; a cancellation frees an ARMED context alone; PEAK_CLR clears both peaks. -/
def Sys2Proof.Spec.RetirementAndCancel : Prop :=
  ∀ (who : Who) (x r : Nat) (s : State), Settled s → s.blk.flag U.dsp F.DSP_STAT_CUE_FULL = false → 0 < s.blk.freeCtxs →
    let c := s.blk.ctx x
    let g := s.blk.ring r
    let asked := (Word.fld (BitVec.ofNat 64 c.ctrl) 2 2 = 1) ∨ (Word.fld (BitVec.ofNat 64 c.ctrl) 3 3 = 1 ∧ 2 ≤ c.result ∧ c.result ≤ 5)
    let e2 : Int := tcOf c.stamp + c.period - s.blk.cueAdv c
    let again := { c with stamp := stampOf (tcOf c.stamp + c.period), count := if c.count = 65535 then 65535 else c.count - 1, occ := c.occ % 2 ^ 32 }
    let a := s.blk.regionBase 1 + g.base.toNat + 64 * (g.prod % 2 ^ g.log2)
    let at_ := fun (t : State) (o n : Nat) => t.mem.rdBytes (a + o) n
    (c.state ≠ 5 ∨ s.blk.cueParts x = true → Ends (.cueRetire x) s fun t => t = s) ∧
    (c.state = 5 → c.result ≠ 0 → ¬ asked →
      (c.period = 0 ∨ c.count = 0 → Ends (.cueRetire x) s fun t => t.blk.ctx x = { c with state := 0, slot := false, ovf := false } ∧ CtxOnly s t x ∧
        t.blk.regs = s.blk.regs ∧ MemSame s t) ∧
      (c.period ≠ 0 → c.count ≠ 0 → s.blk.cueE again = e2 → s.blk.time.air ≤ e2 + c.period → Ends (.cueRetire x) s fun t =>
        t.blk.ctx x = { again with
          e := e2, slot := false, state := if e2 ≤ s.blk.time.air then 3 else 1, ovf := decide ((s.blk.time.air : Int) + 19660800 < e2) } ∧
        CtxOnly s t x ∧ RegsKept s t (fun _ _ => false) ∧ MemSame s t)) ∧
    (c.state = 5 → c.result ≠ 0 → asked → c.period = 0 → c.origin = r → r < 16384 → g.notify = 16384 + r → g.en = true → g.cls = clsEvt → g.inHost = false →
      g.isFull = false → g.lossDue = 0 → g.func = 31 → a + 64 ≤ hbmSize → s.blk.pcDead (pcOf a) = false → c.target < 2 ^ 16 → c.action < 2 ^ 8 →
      c.result < 2 ^ 8 → c.ctrl < 2 ^ 8 → c.lateness < 2 ^ 32 → c.occ < 2 ^ 32 → x < 2 ^ 24 → a % 64 = 0 →
      Ends (.cueRetire x) s fun t => (t.blk.ctx x).state = 0 ∧ (t.blk.ring r).prod = (g.prod + 1) % 2 ^ 32 ∧ CtxOnly s t x ∧ t.blk.regs = s.blk.regs ∧
        at_ t 0 8 = c.stamp.toNat ∧ at_ t 8 8 = c.effAt.toNat ∧ at_ t 16 3 = x ∧ at_ t 19 1 = c.action ∧ at_ t 20 2 = c.target ∧ at_ t 22 1 = c.result ∧
        at_ t 23 1 = c.ctrl ∧ at_ t 24 4 = c.lateness ∧ at_ t 28 4 = c.occ ∧ at_ t 32 31 = 0 ∧ at_ t 63 1 = 1 ∧
        (∀ b, b < a ∨ a + 64 ≤ b → t.mem.rdByte b = s.mem.rdByte b) ∧ ∀ m j, t.mem.rd m j = s.mem.rd m j) ∧
    (Takes s .pf U.dsp → s.blk.time.coll = [] →
      (c.state = 1 → c.action ≠ 0x20 → Ends (.dspCancel .pf x) s fun t => (t.blk.ctx x).state = 0 ∧ t.blk.fld U.dsp F.DSP_CANCEL_RESULT = 0 ∧ CtxOnly s t x ∧
        RegsKept s t (fun u off => u == U.dsp && off == R.DSP_CANCEL) ∧ MemSame s t) ∧
      (c.state ≠ 1 → Ends (.dspCancel .pf x) s fun t => t.blk.fld U.dsp F.DSP_CANCEL_RESULT = (if c.state = 0 then 2 else 1) ∧ t.blk.ctxs = s.blk.ctxs ∧
        RegsKept s t (fun u off => u == U.dsp && off == R.DSP_CANCEL) ∧ MemSame s t)) ∧
    (Takes s who U.dsp → s.blk.time.coll = [] → Ends (.dspPeakClr who) s fun t => t.blk.fld U.dsp F.DSP_PEAK_INFLIGHT = 0 ∧
      t.blk.fld U.dsp F.DSP_PEAK_LATE_MAX = 0 ∧ RegsKept s t (fun u off => u == U.dsp && off == R.DSP_PEAK) ∧ MemSame s t)

/-- R256, R258, R262: a doorbell moves PROD of a CUE or CMD ring and CONS of an EVT or LOG ring for its own function, unless it would move back or overfill, which
is a fault of the ring with RING_INDEX; a descriptor is written while the ring is off, and enabled only where it is valid. -/
def Sys2Proof.Spec.DoorbellsAndDescriptors : Prop :=
  ∀ (who : Who) (r v : Nat) (w : Word) (s : State), r < 16384 → v < 2 ^ 32 →
    let g := s.blk.ring r
    let ahead := (v + 2 ^ 32 - g.cons) % 2 ^ 32
    let behind := (g.prod + 2 ^ 32 - v) % 2 ^ 32
    let feeds := g.cls = 0 ∨ g.cls = 1
    let en := Word.fld w 15 15 = 1
    let new := { g with d1 := w &&& d1Mask }
    let others := fun (t : State) => ∀ q, q ≠ r → t.blk.ring q = s.blk.ring q
    (Settled s → s.blk.inReset = false → s.blk.linkDown = false → s.blk.flag 0 F.FLT_MODE_FATAL = false →
      (whoFunc who ≠ some g.func → Ends (.doorbell who r v) s fun t => t = s) ∧
      (whoFunc who = some g.func → feeds → g.occ ≤ ahead → ahead ≤ 2 ^ g.log2 → Ends (.doorbell who r v) s fun t => t.blk.ring r = { g with prod := v } ∧
        others t ∧ t.blk.regs = s.blk.regs ∧ MemSame s t) ∧
      (whoFunc who = some g.func → ¬ feeds → g.lossDue = 0 → behind ≤ g.occ → Ends (.doorbell who r v) s fun t =>
        t.blk.ring r = { g with cons := v, raised := false } ∧ others t ∧ t.blk.regs = s.blk.regs ∧ MemSame s t) ∧
      (whoFunc who = some g.func → (feeds ∧ (ahead < g.occ ∨ 2 ^ g.log2 < ahead)) ∨ (¬ feeds ∧ g.occ < behind) → Ends (.doorbell who r v) s fun t =>
        t.blk.ring r = { g with fault := true } ∧ others t ∧ Corrected s t U.dsp ∧ Cause t U.dsp 20 ∧ MemSame s t)) ∧
    (Takes s who U.dsp → s.blk.time.coll = [] → s.blk.fld U.dsp F.DSP_RING_SEL_RING = r → dspWindow who = true →
      (g.en = false → Ends (.ringDescriptorWrite who R.DSP_RING_D0 .both w) s fun t => t.blk.ring r = { g with base := w } ∧ others t ∧ MemSame s t) ∧
      (g.en = true → Ends (.ringDescriptorWrite who R.DSP_RING_D0 .both w) s fun t => t.blk.ring r = g ∧ others t ∧ MemSame s t) ∧
      (g.en = true → ¬ en → Ends (.ringDescriptorWrite who R.DSP_RING_D1 .both w) s fun t => (t.blk.ring r).en = false ∧
        { t.blk.ring r with d1 := 0 } = { g with d1 := 0 } ∧ others t ∧ MemSame s t) ∧
      (g.en = false → Word.fld w 14 8 < 64 → ¬ en → Ends (.ringDescriptorWrite who R.DSP_RING_D1 .both w) s fun t => t.blk.ring r = new ∧ others t ∧ MemSame s t) ∧
      (g.en = false → Word.fld w 14 8 < 64 → en → s.blk.ringValid new = true → Ends (.ringDescriptorWrite who R.DSP_RING_D1 .both w) s fun t =>
        (t.blk.ring r).en = true ∧ (t.blk.ring r).prod = 0 ∧ (t.blk.ring r).cons = 0 ∧ (t.blk.ring r).log2 = Word.fld w 4 0 ∧ others t ∧ MemSame s t) ∧
      (g.en = false → Word.fld w 14 8 < 64 → en → (Word.fld w 4 0 < 4 ∨ 24 < Word.fld w 4 0) → Ends (.ringDescriptorWrite who R.DSP_RING_D1 .both w) s fun t =>
        (t.blk.ring r).en = false ∧ Corrected s t U.dsp ∧ others t ∧ MemSame s t) ∧
      Ends (.ringDescriptorWrite who R.DSP_RING_D3 .both w) s fun t => (t.blk.ring r).notify = Word.fld w 46 32 ∧
        (t.blk.ring r).fault = (g.fault && decide (Word.fld w 47 47 = 0)) ∧ (t.blk.ring r).prod = g.prod ∧ others t ∧ MemSame s t)

/-- R244, R252, R258: the ring engine pops the next entry of an enabled CUE ring and arms it into the lowest allocatable context; an entry that fails a check, or
cannot be read, is skipped with its count and its code or the ring's fault; none is popped while CUE_FULL stands, and a pop may not come within 8 Tc of
another. -/
def Sys2Proof.Spec.CueRingPops : Prop :=
  ∀ (host : Entry) (r x : Nat) (s : State), Settled s → r < 16384 → s.blk.flag 0 F.FLT_MODE_FATAL = false → s.blk.coasting = false →
    let g := s.blk.ring r
    let e : Entry := if g.inHost then host else BitVec.ofNat 512 (s.mem.rdBytes (s.blk.regionBase 1 + g.base.toNat + 64 * (g.cons % 2 ^ g.log2)) 64)
    let c := entryCue e
    let sys := decide (64 ≤ g.owner)
    let moved := { g with cons := (g.cons + 1) % 2 ^ 32 }
    let E := s.blk.cueE c
    (s.blk.flag U.dsp F.DSP_STAT_CUE_FULL = true → Ends (.cueRingPop host false) s fun t => t = s) ∧
    (s.blk.flag U.dsp F.DSP_STAT_CUE_FULL = false → s.blk.nextCueRing = some r → s.blk.allocCtx = some x → 1 < s.blk.freeCtxs → s.blk.t < s.blk.time.tickEnd →
      (s.blk.dsp.poppedAt ≠ 0 → s.blk.t < s.blk.dsp.poppedAt + 7 → Ends (.cueRingPop host false) s fun t => (t.blk.ring r).cons = (if
        s.blk.dsp.poppedAt + 7 < s.blk.time.tickEnd then (g.cons + 1) % 2 ^ 32 else g.cons)) ∧
      ((s.blk.dsp.poppedAt = 0 ∨ s.blk.dsp.poppedAt + 7 ≤ s.blk.t) → s.blk.entryBad g g.cons = false →
        (cueCheck c sys (s.blk.ringAllowed g c.target) = none → Ends (.cueRingPop host false) s fun t => t.blk.ring r = moved ∧
          t.blk.ctx x = { c with
            origin := r, sys := sys, seq := s.blk.dsp.seq, e := E, state := if E ≤ s.blk.time.air then 3 else 1
            ovf := decide ((s.blk.time.air : Int) + 19660800 < E) } ∧
          t.blk.dsp.lastRing = r ∧ t.blk.dsp.poppedAt = s.blk.t + 1 ∧ CtxOnly s t x ∧ t.blk.regs = s.blk.regs ∧ MemSame s t) ∧
        (cueCheck c sys (s.blk.ringAllowed g c.target) ≠ none → Ends (.cueRingPop host false) s fun t =>
          t.blk.ring r = { moved with refused := min 65535 (g.refused + 1) } ∧ Corrected s t U.dsp ∧ t.blk.ctxs = s.blk.ctxs ∧
          t.blk.fld U.dsp F.DSP_REJ_CNT_ARM_REJ =
            min (2 ^ (F.DSP_REJ_CNT_ARM_REJ.hi + 1 - F.DSP_REJ_CNT_ARM_REJ.lo) - 1) (s.blk.fld U.dsp F.DSP_REJ_CNT_ARM_REJ + 1) ∧ MemSame s t)) ∧
      ((s.blk.dsp.poppedAt = 0 ∨ s.blk.dsp.poppedAt + 7 ≤ s.blk.t) → Ends (.cueRingPop host true) s fun t => t.blk.ring r = { moved with fault := true } ∧
        t.blk.ctxs = s.blk.ctxs ∧ Cause t U.dsp 20 ∧ MemSame s t)) ∧
    (∀ k : Ctx, ∀ sy al : Bool, (stampValid k.stamp = false ∨ kindOf k.target = 0 ∨ k.action ∈ [0x05, 0x0F, 0x19, 0x22, 0x33, 0x3E, 0x40, 0xFF] ∨
      (k.period ≠ 0 ∧ k.period < 8192) ∨ (k.period = 0 ∧ k.count ≠ 0) ∨ 16 ≤ k.ctrl ∨ (k.ctrl % 4 = 3 ∧ sy = false) ∨ al = false) → cueCheck k sy al ≠ none)

/-- R243 to R252, R256 to R262: the dispatcher and its rings. -/
def Obligations.DispatcherAndRings : Prop :=
  StagingAndWaiting ∧ IssueAndExpiry ∧ RetirementAndCancel ∧ DoorbellsAndDescriptors ∧ CueRingPops

namespace Sys2Proof.Spec

/-- Bit `k` of PROT_STAT.CAUSE of PBD `m` (R187): 0 OSC, 1 MARGIN, 2 HOLDOVER, 3 EMISSION, 4 OVERLOAD, 5 MODULE, 6 HOST, 7 CUE. -/
def causeBit (s : State) (m k : Nat) : Bool := (s.blk.fld (U.pbd m) F.PROT_STAT_CAUSE).testBit k

/-- PBD `m` is squalled by cause `k` (R187, R188, R198, R200): the cause and SQUALL are set, on entry with the stamp, the count and the sequence, whose ramp
begins within 512 Tc; a probation ends, failed for an automatic cause; DUE is set, or reads all ones with a hold cause. -/
def Squalls (s t : State) (m k : Nat) : Prop :=
  let u := U.pbd m
  let fails := s.blk.fld u F.PROT_STAT_FAILS
  let failed := s.blk.flag u F.PROT_STAT_PROBATION = true ∧ k ∉ [2, 5, 6, 7]
  let fails' := if failed then min 8 (fails + 1) else fails
  t.blk.fld u F.PROT_STAT_CAUSE = s.blk.fld u F.PROT_STAT_CAUSE ||| 2 ^ k ∧ t.blk.squalled m = true ∧ t.blk.flag u F.PROT_STAT_PROBATION = false ∧
    t.blk.fld u F.PROT_STAT_FAILS = fails' ∧ t.blk.flag u F.UNIT_FAULT_CORRECTED = true ∧
    (s.blk.squalled m = false → t.blk.reg u R.PROT_SQ_STAMP = s.blk.now ∧ Cause t u 28 ∧
      t.blk.fld u F.PROT_STAT_SQUALLS = (s.blk.fld u F.PROT_STAT_SQUALLS + 1) % 2 ^ (F.PROT_STAT_SQUALLS.hi + 1 - F.PROT_STAT_SQUALLS.lo) ∧
      ((t.blk.pbdH m).sqSeq.map Prod.snd) = [.silent, .switches] ∧
      (∀ x ∈ (t.blk.pbdH m).sqSeq, s.blk.t + 256 ≤ x.1 ∧ x.1 ≤ s.blk.t + 1024)) ∧
    (s.blk.squalled m = true → t.blk.reg u R.PROT_SQ_STAMP = s.blk.reg u R.PROT_SQ_STAMP ∧ (t.blk.pbdH m).sqSeq = (s.blk.pbdH m).sqSeq) ∧
    (t.blk.fld u F.PROT_STAT_CAUSE &&& 0xE4 ≠ 0 → t.blk.reg u R.PROT_DUE = BitVec.allOnes 64) ∧
    (t.blk.fld u F.PROT_STAT_CAUSE &&& 0xE4 = 0 → t.blk.reg u R.PROT_DUE =
      stampOf ((max (t.blk.pbdH m).tHold (tcOf (t.blk.reg u R.PROT_SQ_STAMP) + 2 ^ min fails' 6 * 1966080000) + 16383) / 16384 * 16384))

/-- `v`, in 1/64 dB, is the level of the power num/den in dBFS, converted to ±0.01 dB, that is 16/25 of a code, and −120 dB below that (R173). -/
def IsLevel (v : Int) (num den : Nat) : Prop :=
  (dbLe (-7680) num den = false → v = -7680) ∧ (dbLe (-7680) num den = true → fineLe (25 * v - 16) num den = true ∧ fineLe (25 * v + 16) num den = false)

/-- `v` is the code of the power ratio num/den, rounded to a neighbouring code, and 0x8001 below the codes (R10). -/
def IsRatio (v : Int) (num den : Nat) : Prop :=
  -32767 ≤ v ∧ (-32767 < v → dbLe (v - 1) num den = true) ∧ dbLe (v + 1) num den = false

/-- A squall by cause `k` does not bring FAILS to 8. -/
abbrev notLast (s : State) (m k : Nat) : Prop :=
  k ∈ [2, 5, 6, 7] ∨ s.blk.flag (U.pbd m) F.PROT_STAT_PROBATION = false ∨ s.blk.fld (U.pbd m) F.PROT_STAT_FAILS < 7

end Sys2Proof.Spec

/-- R191, R195, R196: of the blocks of the oscillation detector, a silent one empties the window, one before the window is full joins it, and one that has
grown and peaked trips, at most 1,024 Tc after its end; a block of the emission watch with every sample valid is compared with the entry's limit, and the Nth
above it squalls every PBD of the channel; the tick in which the clipped ones reach OVL_TICKS + 4 trips the overload squall at its end. That blocks end at
multiples of their length is the model's choice (log entry 102). -/
def Sys2Proof.Spec.Detectors : Prop :=
  ∀ (m o k delay full : Nat) (slots : List (List Nat)) (bins : List Nat) (s : State), m < 128 → o < 8 → Settled s →
    let u := U.pbd m
    let h := s.blk.pbdH m
    let v := U.orx o
    let w := h.osc.window
    let n := oscBlocks (s.blk.rateOf m)
    let len := 256 * sampleTc (s.blk.rateOf m)
    let powers := (List.range 64).map fun j => (slots.map fun x => x.getD j 0).sum
    let blockEnd := h.osc.last + len
    let g := s.blk.gainAt m blockEnd
    let on := s.blk.pbdOn m = true ∧ s.blk.flag u F.PROT_CFG_OSC_EN = true
    let silent := s.blk.outShut m (blockEnd - len) blockEnd
    let e := s.blk.fld v F.ORX_STAT_ENTRY
    let watched := s.blk.flag v F.ORX_EMW_CFG_EN = true ∧ (s.blk.orxH o).ticksLeft ≠ 0
    let judged := s.blk.emwValid o s.blk.t = true ∧ s.blk.flag v (F.ORX_EMW_LIM_V e) = true
    let oob := s.blk.oobPower (s.blk.fld v F.ORX_STAT_TXC) bins
    let run := if s.blk.fld v F.ORX_EMW_STAT_ENTRY = e then s.blk.fld v F.ORX_EMW_STAT_RUN else 0
    let emwPage := fun (t : State) => RegsKept s t (fun x off => x == v && off == R.ORX_EMW_STAT)
    (¬ on → Ends (.oscBlock m slots delay) s fun t => (t.blk.pbdH m).osc = OscH.init ∧ t.blk.regs = s.blk.regs ∧ MemSame s t) ∧
    (on → h.osc.last ≠ 0 → delay ≤ 1024 → DueNow s (blockEnd + delay) →
      (silent = true → Ends (.oscBlock m slots delay) s fun t => (t.blk.pbdH m).osc = { window := [], last := blockEnd } ∧ t.blk.regs = s.blk.regs ∧
        MemSame s t) ∧
      (silent = false → w.length < n → Ends (.oscBlock m slots delay) s fun t => (t.blk.pbdH m).osc = { window := (powers, g) :: w, last := blockEnd } ∧
        t.blk.regs = s.blk.regs ∧ MemSame s t) ∧
      (silent = false → w.length = n → oscGrown (s.blk.fld u F.PROT_OSC_GROW) powers g w = true → oscPeaked (s.blk.fld u F.PROT_OSC_FLAT) powers w = true →
        notLast s m 0 → noRestart s m → Ends (.oscBlock m slots delay) s fun t => Squalls s t m 0 ∧ MemSame s t) ∧
      (silent = false → w.length = n →
        oscGrown (s.blk.fld u F.PROT_OSC_GROW) powers g w = false ∨ oscPeaked (s.blk.fld u F.PROT_OSC_FLAT) powers w = false →
        Ends (.oscBlock m slots delay) s fun t => (t.blk.pbdH m).osc = { window := ((powers, g) :: w).take n, last := blockEnd } ∧ t.blk.regs = s.blk.regs ∧
          MemSame s t)) ∧
    (¬ watched → Ends (.emwBlock o bins full) s fun t => t = s) ∧
    (watched → (s.blk.orxH o).emwAt ≠ 0 → DueNow s ((s.blk.orxH o).emwAt + 2048) →
      (¬ judged → Ends (.emwBlock o bins full) s fun t => (t.blk.orxH o).emwAt = s.blk.t ∧ t.blk.regs = s.blk.regs ∧ MemSame s t) ∧
      (judged → 0 < full → oob ≤ full * 2 ^ 64 → Ends (.emwBlock o bins full) s fun t => ∃ level : Int, IsLevel level oob full ∧
        (t.blk.orxH o).emwAt = s.blk.t ∧ t.blk.sfld v F.ORX_EMW_STAT_OOB = level ∧ MemSame s t ∧
        let above := s.blk.sfld v (F.ORX_EMW_LIM_LIMIT e) < level
        (¬ above → t.blk.fld v F.ORX_EMW_STAT_RUN = 0 ∧ emwPage t) ∧
        (above → run + 1 < max 1 (s.blk.fld v F.ORX_EMW_CFG_N) → run < 15 → t.blk.fld v F.ORX_EMW_STAT_RUN = run + 1 ∧ emwPage t) ∧
        (above → max 1 (s.blk.fld v F.ORX_EMW_CFG_N) ≤ run + 1 → run < 15 → k = s.blk.fld v F.ORX_STAT_TXC → (∃ x ∈ (s.blk.txcH k).insts, x.1 = m) →
          (∀ x ∈ (s.blk.txcH k).insts, x.1 = m) → notLast s m 3 → noRestart s m → Squalls s t m 3 ∧ Cause t v 18 ∧
            t.blk.fld v F.ORX_EMW_STAT_TRIPS = (s.blk.fld v F.ORX_EMW_STAT_TRIPS + 1) % 2 ^ (F.ORX_EMW_STAT_TRIPS.hi + 1 - F.ORX_EMW_STAT_TRIPS.lo)))) ∧
    (let due := s.blk.flag u F.PROT_CFG_OVL_EN = true ∧ s.blk.t = s.blk.time.tickStart ∧
       s.blk.fld u F.PROT_STAT_OVL_RUN = 4 + s.blk.fld u F.PROT_CFG_OVL_TICKS ∧ causeBit s m 4 = false
     (due → notLast s m 4 → noRestart s m → Ends (.overloadTrip m) s fun t => Squalls s t m 4 ∧ MemSame s t) ∧
     (¬ due → Ends (.overloadTrip m) s fun t => t = s))

/-- R131, R136, R137, R181, R193: a publication gives the probe's figures from the largest receive slot's sum of correlated power, floored at −40 dB, and the
valid fraction; one below 10 %, or with the output chain stopped, leaves the margin unknown; with MARGIN_EN a margin below M_SQUALL squalls the PBD. -/
def Sys2Proof.Spec.ProbePublications : Prop :=
  ∀ (m n : Nat) (paths : List (Nat × Nat × Nat × Nat)) (gsum : Int) (s : State), m < 128 → Settled s →
    let u := U.pbd m
    let span := 1920 * 16384
    let valid := (s.blk.pbdH m).probeTicks.sum
    let power := s.blk.loopGain m paths
    let asked := s.blk.flag u F.PBD_PROBE_CFG_EN = true ∧ s.blk.pbdOn m = true ∧ s.blk.t = s.blk.time.tickStart ∧
      s.blk.time.air % 19660800 / 16384 % 240 = 0
    let good := s.blk.everLocked = true ∧ s.blk.flag (U.mc (2 * m + 1)) F.MC_STAT_RUN = true ∧ span ≤ 10 * valid
    let pct := fun (t : State) => ((t.blk.fld u F.PBD_PROBE_STAT_VALID_PCT * span : Nat) - (100 * valid : Nat) : Int).natAbs < span
    let trips := fun (lg : Int) => s.blk.flag u F.PROT_CFG_MARGIN_EN = true ∧ -lg < s.blk.fld u F.PROT_CFG_M_SQUALL
    (asked → good → valid ≤ span → power ≤ 2 ^ 112 → s.blk.fld u F.PROT_FL_STAT_PHASE ≠ 1 → Ends (.probePublish m paths gsum n) s fun t =>
      ∃ level gain : Int, IsRatio level power (2 ^ 48) ∧ (gain * (max 1 n : Nat) - gsum).natAbs < max 1 n ∧ pct t ∧ MemSame s t ∧
        let lg := max (-2560) (min 32767 level)
        t.blk.sfld u F.PBD_PROBE_STAT_LG = lg ∧ t.blk.sfld u F.PBD_PROBE_STAT_MARGIN = -lg ∧
        (-32767 ≤ gain - lg → gain - lg ≤ 32767 → t.blk.sfld u F.PBD_PROBE_STAT_ISO_EST = gain - lg) ∧ t.blk.reg u R.PBD_PROBE_PUB = s.blk.now ∧
        (∀ x ∈ (t.blk.pbdH m).unknown, x.cause ≠ 0 ∧ x.cause ≠ 1) ∧ (trips lg → notLast s m 1 → noRestart s m → Squalls s t m 1) ∧
        (¬ trips lg → t.blk.fld u F.PROT_STAT_CAUSE = s.blk.fld u F.PROT_STAT_CAUSE)) ∧
    (asked → ¬ good → valid ≤ span → Ends (.probePublish m paths gsum n) s fun t => pct t ∧
      t.blk.flag u F.PBD_PROBE_STAT_UNKNOWN = true ∧ t.blk.fld u F.PBD_PROBE_STAT_LG = s.blk.fld u F.PBD_PROBE_STAT_LG ∧
      (∃ x ∈ (t.blk.pbdH m).unknown, x.cause = 1) ∧ RegsKept s t (fun v off => v == u && (off == R.PBD_PROBE_STAT || off == R.UNIT_IRQ_STAT)) ∧ MemSame s t) ∧
    (¬ asked → Ends (.probePublish m paths gsum n) s fun t => t = s)

/-- R187, R188, R190, R197: SQUALL holds the PBD for any writer, UNSQUALL ends HOST and CUE for system privilege alone; a module cause squalls every PBD by MODULE,
and the last to clear ends it; MUTE_N sets its cause for no writer to override, and clears at a boundary. -/
def Sys2Proof.Spec.SquallCommands : Prop :=
  ∀ (who : Who) (m d : Nat) (s : State), m < 128 →
    let u := U.pbd m
    let c := s.blk.fld u F.PROT_STAT_CAUSE
    let entered := fun (t : State) => t.blk.flag 0 F.ROOT_SQUALL_ACTIVE = true ∧ MemSame s t ∧
      (s.blk.flag 0 F.ROOT_SQUALL_ACTIVE = false → t.blk.reg 0 R.ROOT_SQ_STAMP = s.blk.now ∧ Cause t 0 16 ∧ causeBit t m 5 = true ∧ t.blk.squalled m = true ∧
        (s.blk.ownState 0 = 2 → t.blk.ownState 0 = 3))
    (Takes s who u → s.blk.time.coll = [] →
      (noRestart s m → Ends (.squall who m) s fun t => Squalls s t m 6 ∧ MemSame s t) ∧
      (whoSys who = true → Ends (.unsquall who m) s fun t => t.blk.fld u F.PROT_STAT_CAUSE = c &&& 0x3F ∧
        (c &&& 0xC0 ≠ 0 → c &&& 0x3F &&& 0xE4 = 0 → (t.blk.pbdH m).tHold = s.blk.time.air) ∧
        RegsKept s t (fun v off => v == u && (off == R.PROT_STAT || off == R.PROT_DUE)) ∧ MemSame s t) ∧
      (whoSys who = false → Ends (.unsquall who m) s fun t => t.blk.fld u F.PROT_STAT_CAUSE = c ∧ t.blk.flag u F.PBD_STAT_CFG_REJ = true ∧
        Corrected s t u ∧ MemSame s t)) ∧
    (Takes s who 0 → s.blk.time.coll = [] →
      (Ends (.moduleSquall who) s fun t => t.blk.flag 0 F.ROOT_SQUALL_HOST = true ∧ entered t) ∧
      (whoSys who = true → s.blk.flag 0 F.ROOT_SQUALL_MUTE_N = false → s.blk.flag 0 F.ROOT_SQUALL_KILN = false → s.blk.flag 0 F.ROOT_SQUALL_ACTIVE = true →
        Ends (.moduleUnsquall who) s fun t => t.blk.flag 0 F.ROOT_SQUALL_HOST = false ∧ t.blk.flag 0 F.ROOT_SQUALL_CUE = false ∧
          t.blk.flag 0 F.ROOT_SQUALL_ACTIVE = false ∧ Cause t 0 17 ∧ causeBit t m 5 = false ∧ MemSame s t) ∧
      (whoSys who = true → s.blk.flag 0 F.ROOT_SQUALL_MUTE_N = true → Ends (.moduleUnsquall who) s fun t => t.blk.flag 0 F.ROOT_SQUALL_HOST = false ∧
        t.blk.flag 0 F.ROOT_SQUALL_MUTE_N = true ∧ t.blk.flag 0 F.ROOT_SQUALL_ACTIVE = s.blk.flag 0 F.ROOT_SQUALL_ACTIVE ∧
        RegsKept s t (fun v off => v == 0 && off == R.ROOT_SQUALL) ∧ MemSame s t) ∧
      (whoSys who = false → Ends (.moduleUnsquall who) s fun t => t.blk.flag 0 F.ROOT_SQUALL_HOST = s.blk.flag 0 F.ROOT_SQUALL_HOST ∧
        t.blk.flag 0 F.ROOT_SQUALL_ACTIVE = s.blk.flag 0 F.ROOT_SQUALL_ACTIVE ∧ Corrected s t 0 ∧ MemSame s t)) ∧
    (Settled s → s.blk.inReset = false → s.blk.flag 0 F.ROOT_SQUALL_MUTE_N = false → Ends .muteNLow s fun t => t.blk.flag 0 F.ROOT_SQUALL_MUTE_N = true ∧
      t.blk.root.muteLow = true ∧ entered t) ∧
    (Settled s → s.blk.inReset = true → Ends .muteNLow s fun t => t.blk.root.muteLow = true ∧ t.blk.regs = s.blk.regs ∧ MemSame s t) ∧
    (Settled s → Ends .muteNRelease s fun t => t.blk.root.muteRel = (s.blk.root.muteLow || s.blk.root.muteRel) ∧ t.blk.regs = s.blk.regs ∧ MemSame s t) ∧
    (Settled s → ∀ rest,
      ((s.blk.pbdH m).sqSeq = (d, .silent) :: rest ∨ (s.blk.pbdH m).sqSeq = (d, .switches) :: rest → DueNow s d → Ends (.squallSeqStep m) s fun t =>
        (t.blk.pbdH m).sqSeq = rest ∧ t.blk.regs = s.blk.regs ∧ MemSame s t) ∧
      (s.blk.root.seq = (d, .switches) :: [] → DueNow s d → Ends (.squallSeqStep 128) s fun t => t.blk.root.seq = [] ∧ t.blk.root.strobesLow = true ∧
        (∀ k, k < 4 → (t.blk.ccH k).cueHigh = 0) ∧ t.blk.regs = s.blk.regs ∧ MemSame s t))

/-- R198 to R200: a RESTART before DUE, or with a hold cause, is refused with RESTART_EARLY, and for want of privilege; at the next boundary the attempt clears the
automatic causes and starts at cold gain under probation, as does an unfenced PBD that is ACTIVE again, but for a squall of the boundary's own Tc: one before it
in that Tc spends the attempt, one after it takes the restart back (R189); the probation ends with FAILS 0 after its time. The eighth failed attempt fences the PBD. -/
def Sys2Proof.Spec.RestartAndProbation : Prop :=
  ∀ (who : Who) (m : Nat) (s : State), m < 128 →
    let u := U.pbd m
    let h := s.blk.pbdH m
    let c := s.blk.fld u F.PROT_STAT_CAUSE
    let due := s.blk.reg u R.PROT_DUE
    let may := s.blk.squalled m = true ∧ c &&& 0xE4 = 0 ∧ due ≠ BitVec.allOnes 64 ∧ tcOf due ≤ s.blk.time.air ∧ s.blk.ownState u ≠ 4 ∧ s.blk.ownState u ≠ 6
    let refused := fun (t : State) => t.blk.pbdH m = h ∧ t.blk.flag u F.PBD_STAT_CFG_REJ = true ∧ Corrected s t u ∧ MemSame s t
    let asked := fun (t : State) => t.blk.pbdH m = { h with restartReq := true } ∧ t.blk.regs = s.blk.regs ∧ MemSame s t
    (Takes s who u → s.blk.time.coll = [] →
      (whoSys who = true → may → Ends (.restart who m) s asked) ∧ (whoSys who = false ∨ ¬ may → Ends (.restart who m) s refused)) ∧
    (Settled s → s.blk.flag u F.PROT_CFG_AUTO_RST = true → s.blk.flag 0 F.FLT_MODE_FATAL = false → may → s.blk.t ≤ s.blk.time.tickEnd →
      Ends (.restartDue m) s asked) ∧
    (Settled s → s.blk.flag u F.PROT_CFG_AUTO_RST = false ∨ s.blk.squalled m = false → Ends (.restartDue m) s fun t => t = s) ∧
    (Settled s → s.blk.t = s.blk.time.tickStart → s.blk.flag 0 F.FLT_MODE_FATAL = false →
      (h.restartReq = true ∧ s.blk.squalled m = true) ∨ (h.reenter = true ∧ s.blk.ownState u = 2) →
      (c &&& 0xE4 = 0 → s.blk.overridden u F.PROT_CTRL_RESTART = false → Ends (.restartAttempt m) s fun t => t.blk.fld u F.PROT_STAT_CAUSE = 0 ∧ t.blk.squalled m = false ∧
        t.blk.flag u F.PROT_STAT_PROBATION = true ∧ t.blk.reg u R.PROT_DUE = BitVec.allOnes 64 ∧ t.blk.flag u F.LOOP_PBD_STAT_RAMP = true ∧
        (t.blk.pbdH m).gPrev = some (s.blk.coldGain m) ∧ Cause t u 29 ∧ (s.blk.pbdOn m = true → t.blk.sfld u F.PBD_GAIN_CMD = s.blk.coldGain m) ∧
        t.blk.fld u F.PROT_STAT_FAILS = s.blk.fld u F.PROT_STAT_FAILS ∧ MemSame s t) ∧
      (c &&& 0xE4 ≠ 0 ∨ s.blk.overridden u F.PROT_CTRL_RESTART = true → Ends (.restartAttempt m) s fun t =>
        t.blk.pbdH m = { h with restartReq := false, reenter := h.reenter && !s.blk.overridden u F.PROT_CTRL_RESTART } ∧ t.blk.regs = s.blk.regs ∧ MemSame s t)) ∧
    (Settled s → s.blk.t = s.blk.time.tickStart → s.blk.flag 0 F.FLT_MODE_FATAL = false → h.restartReq = true → s.blk.squalled m = true → c &&& 0xE4 = 0 →
      s.blk.overridden u F.PROT_CTRL_RESTART = false → Ends (.restartAttempt m) s fun t => Takes t who u → t.blk.time.coll = [] →
        Ends (.squall who m) t fun r => r.blk.squalled m = true ∧ r.blk.fld u F.PROT_STAT_CAUSE = c ||| 2 ^ 6 ∧
          r.blk.reg u R.PROT_SQ_STAMP = s.blk.reg u R.PROT_SQ_STAMP ∧ r.blk.fld u F.PROT_STAT_SQUALLS = s.blk.fld u F.PROT_STAT_SQUALLS ∧
          r.blk.fld u F.PROT_STAT_FAILS = s.blk.fld u F.PROT_STAT_FAILS ∧ (r.blk.pbdH m).sqSeq = h.sqSeq) ∧
    (Settled s → s.blk.t ≠ s.blk.time.tickStart → Ends (.restartAttempt m) s fun t => t = s) ∧
    (∀ d, Settled s → h.probEnd = some d → DueNow s d → Ends (.probationEnd m) s fun t => t.blk.flag u F.PROT_STAT_PROBATION = false ∧
      t.blk.fld u F.PROT_STAT_FAILS = 0 ∧ (t.blk.pbdH m).probEnd = none ∧ RegsKept s t (fun v off => v == u && off == R.PROT_STAT) ∧ MemSame s t) ∧
    (Settled s → s.blk.flag u F.PROT_CFG_OVL_EN = true → s.blk.t = s.blk.time.tickStart →
      s.blk.fld u F.PROT_STAT_OVL_RUN = 4 + s.blk.fld u F.PROT_CFG_OVL_TICKS → causeBit s m 4 = false →
      s.blk.flag u F.PROT_STAT_PROBATION = true → s.blk.fld u F.PROT_STAT_FAILS = 7 → s.blk.ownState u ≠ 6 → noRestart s m → Ends (.overloadTrip m) s fun t =>
        t.blk.ownState u = 4 ∧ t.blk.flag u F.UNIT_FAULT_CONTAINED = true ∧ t.blk.fld u F.PROT_STAT_FAILS = 8 ∧ MemSame s t)

/-- R202, R204: a path loss without a burst for 200 ms is STALE; MEASURE fails after 500 ms and squalls with cause HOST; TRAIN ends when every lane tracks, or after
TRAIN_MAX; FL_REDO takes DONE and FAILED back to IDLE. -/
def Sys2Proof.Spec.GuardAndFirstLight : Prop :=
  ∀ (who : Who) (m : Nat) (s : State), m < 128 →
    let u := U.pbd m
    let h := s.blk.pbdH m
    let phase := s.blk.fld u F.PROT_FL_STAT_PHASE
    (Settled s → isUl m = true → s.blk.flag u F.PROT_NRG_PATH_SRC = false → s.blk.actFlag u (F.LOOP_CTRL_EN 1) = true → s.blk.qual 1 = false →
      s.blk.flag u F.PROT_NRG_STAT_STALE = false → Ends (.nrgPlStale m) s fun t => t.blk.flag u F.PROT_NRG_STAT_STALE = true ∧ Cause t u 31 ∧
        (t.blk.pbdH m).nrg.staleAt = some s.blk.t ∧ RegsKept s t (fun v off => v == u && (off == R.PROT_NRG_STAT || off == R.UNIT_IRQ_STAT)) ∧ MemSame s t) ∧
    (Settled s → isUl m = false ∨ s.blk.flag u F.PROT_NRG_PATH_SRC = true → Ends (.nrgPlStale m) s fun t => t = s) ∧
    (Settled s → phase = 1 → DueNow s (h.fl.start + 983040000) → notLast s m 6 → Ends (.flMeasureTimeout m) s fun t =>
      t.blk.fld u F.PROT_FL_STAT_PHASE = 5 ∧ t.blk.fld u F.PROT_FL_STAT_RESULT = 3 ∧ causeBit t m 6 = true ∧ t.blk.squalled m = true ∧ Cause t u 30 ∧
      t.blk.flag u F.UNIT_FAULT_CORRECTED = true ∧ MemSame s t) ∧
    (Settled s → phase ≠ 1 → Ends (.flMeasureTimeout m) s fun t => t = s) ∧
    (Settled s → phase = 2 → (∀ i, i < 264 → s.blk.lanePbd i = m → s.blk.inService (U.lane i) = true → s.blk.adapt i = 2) → Ends (.flTrainEnd m) s fun t =>
      (t.blk.pbdH m).fl.endDue = true ∧ t.blk.regs = s.blk.regs ∧ MemSame s t) ∧
    (Settled s → phase = 2 → DueNow s (h.fl.start + max 1 (s.blk.fld u F.PROT_FL_CFG_TRAIN_MAX) * 196608000) → Ends (.flTrainEnd m) s fun t =>
      (t.blk.pbdH m).fl.endDue = true ∧ t.blk.regs = s.blk.regs ∧ MemSame s t) ∧
    (Takes s who u → s.blk.time.coll = [] →
      (whoSys who = true → phase = 4 ∨ phase = 5 → Ends (.flRedo who m) s fun t => t.blk.fld u F.PROT_FL_STAT_PHASE = 0 ∧
        t.blk.flag u F.PROT_FL_STAT_MEASURED = false ∧ Cause t u 30 ∧ (phase = 5 → causeBit t m 6 = false) ∧
        (phase = 4 → t.blk.fld u F.PROT_STAT_CAUSE = s.blk.fld u F.PROT_STAT_CAUSE) ∧ MemSame s t) ∧
      (whoSys who = true → phase < 4 → Ends (.flRedo who m) s fun t => t.blk.regs = s.blk.regs ∧ t.blk.pbdH m = h ∧ MemSame s t) ∧
      (whoSys who = false → Ends (.flRedo who m) s fun t => t.blk.fld u F.PROT_FL_STAT_PHASE = phase ∧ Corrected s t u ∧ MemSame s t))

/-- R131, R137, R181, R187 to R204: detectors, publications, squalls, restarts, the noise-rise guard and first light. -/
def Obligations.NetworkProtection : Prop :=
  Detectors ∧ ProbePublications ∧ SquallCommands ∧ RestartAndProbation ∧ GuardAndFirstLight

/-- R149: an operation's exact result is rounded to the nearest 24-bit mantissa: its magnitude lies from 2^22 to 2^23 − 1, and what is lost is at most half a
unit of the last place. -/
def Sys2Proof.Spec.BlockFloating : Prop :=
  ∀ (n e0 : Int), n ≠ 0 → n.natAbs < 2 ^ 56 → -90 ≤ e0 → e0 ≤ 60 →
    let m := (bfNorm n e0).1
    let e := (bfNorm n e0).2
    2 ^ 22 ≤ m.natAbs ∧ m.natAbs < 2 ^ 23 ∧ (e0 ≤ e → 2 * (n - m * 2 ^ (e - e0).toNat).natAbs ≤ 2 ^ (e - e0).toNat) ∧
      (e < e0 → m = n * 2 ^ (e0 - e).toNat)

namespace Sys2Proof.Spec

/-- The cost of a slot in pool cycles (R162). -/
def costOf (s : State) (m l : Nat) : Nat :=
  let u := U.pbd m
  if 3 ≤ l ∧ s.blk.actFlag u (F.LOOP_CTRL_HOLD l) = true then 16
  else
    let law := l = 1 ∨ l = 3 ∨ 6 ≤ l
    48 + (if law ∧ s.blk.actFlag u (F.LOOP_CTRL_LUT_EN l) = true then 16 else 0) + (if law ∧ s.blk.actFlag u (F.LOOP_CTRL_FF_EN l) = true then 8 else 0) +
      (if s.blk.fld u (F.LOOP_STAT_TUNE l) = 1 then 16 else 0)

/-- The pool closes now (R146). -/
abbrev Closes (s : State) : Prop :=
  Settled s ∧ s.blk.loop.closed = false ∧ s.blk.flag 0 F.FLT_MODE_FATAL = false ∧ s.blk.t + 1 = s.blk.time.tickEnd ∧
    s.blk.time.tickEnd = s.blk.time.tickStart + 16384

/-- No LULL cause of PBD `m` holds, and none arises. -/
def noLull (t : State) (m : Nat) : Prop :=
  let u := U.pbd m
  t.blk.flag u F.LOOP_PBD_STAT_LULL_DL = false ∧ t.blk.flag u F.LOOP_PBD_STAT_LULL_PL = false ∧ t.blk.fld u F.LOOP_PBD_STAT_SUPV_RUN ≠ 8 ∧
    ∀ l, l < 8 → t.blk.slotOn m l = true → t.blk.fld u (F.LOOP_STAT_MISS_RUN l) < max 1 (t.blk.actFld u F.LOOP_PBD_CTRL_N_MISS)

end Sys2Proof.Spec

/-- R145, R146, R148, R153, R162 to R164: at its close the pool has evaluated the slots that fit it: ceilings give their output, a law with a valid reading the law's;
the command is the lowest enabled output, no more than the slew above the gain before, and no more than the lull level under a LULL cause. A slot that does not fit
misses. The settings of a law slot and its evaluation are the model's `lawSet` and `lawEval`; a gain whose cyclic prefix has come by the close is the gain
before (`gainSettle`, R66). -/
def Sys2Proof.Spec.PoolClose : Prop :=
  ∀ (m l : Nat) (s : State), m < 128 → l < 8 → Closes s → m ∈ s.blk.served →
    let u := U.pbd m
    let split := splitPool s.blk.pool s.blk.work 0
    let inp := (s.blk.pbdH m).loopIn
    let out := fun (t : State) (k : Nat) => t.blk.db u (F.LOOP_OUT_U k)
    let held := 3 ≤ l ∧ s.blk.actFlag u (F.LOOP_CTRL_HOLD l) = true
    let mm := if l = 1 then inp.nrg.map Prod.fst else (Store.get SlotIn.init inp.slots l).m
    let sh := s.blk.slotH m l
    let law := fun (mv x : Int) => lawEval (s.blk.lawSet s.mem m l) mv x (sh.s3.m0, sh.s3.e) none
    (s.blk.slotOn m l = true → (m, l, costOf s m l) ∈ s.blk.work) ∧ split.2.2 ≤ s.blk.pool ∧
    Ends .loopPoolClose s fun t => t.blk.loop.closed = true ∧ t.blk.fld U.le F.LE_STAT_USED = split.2.2 % 2 ^ (F.LE_STAT_USED.hi + 1 - F.LE_STAT_USED.lo) ∧
      RegsKept s t (fun v _ => v == U.le || s.blk.served.any fun k => v == U.pbd k) ∧ MemSame s t ∧
      ((m, l) ∈ split.1 → ¬ held → t.blk.fld u (F.LOOP_STAT_MISS_RUN l) = 0 ∧ (l ∈ [2, 4, 5] → out t l = some (s.blk.actS u (F.LOOP_SETPT_SETPT l)) ∨
          s.blk.actFld u (F.LOOP_SETPT_SETPT l) = 0x8000) ∧
        (l = 0 → inp.known = true → ∀ iso, inp.iso = some iso → out t 0 = some (max (-32767) (min 32767 (iso - s.blk.actS u (F.LOOP_SETPT_SETPT 0))))) ∧
        (l = 0 → inp.known = false → out t 0 = some (max (-32767) (min 32767 inp.cold))) ∧
        (l ∈ [1, 3, 6, 7] → ∀ mv x, mm = some mv → (Store.get SlotIn.init inp.slots l).x = some x → s.blk.fld u (F.LOOP_STAT_TUNE l) ≠ 1 →
          sh.running = true → sh.backLaw = false → out t l = some (bfOut (law mv x).u) ∧ t.blk.flag u (F.LOOP_STAT_I_HELD l) = (law mv x).held ∧
            t.blk.flag u (F.LOOP_STAT_CLAMP_HI l) = (law mv x).hi ∧ t.blk.flag u (F.LOOP_STAT_CLAMP_LO l) = (law mv x).lo) ∧
        (l ∈ [1, 3, 6, 7] → mm = none → t.blk.flag u (F.LOOP_STAT_INVALID l) = true ∧ out t l = out s l)) ∧
      (held → out t l = out s l) ∧
      ((m, l) ∈ split.2.1 → ¬ held → out t l = out s l ∧ t.blk.flag u (F.LOOP_STAT_DL_MISS l) = true ∧ t.blk.flag U.le F.LE_STAT_OVERRUN = true ∧
        t.blk.fld u (F.LOOP_STAT_MISS_RUN l) = min (2 ^ ((F.LOOP_STAT_MISS_RUN l).hi + 1 - (F.LOOP_STAT_MISS_RUN l).lo) - 1)
          (s.blk.fld u (F.LOOP_STAT_MISS_RUN l) + 1)) ∧
      (∀ g, t.blk.db u F.LOOP_PBD_OUT_NEXT = some g → (s.blk.slotOn m l = true → ∀ v, out t l = some v → g ≤ v) ∧
        (∀ p, (s.blk.gainSettle m).netGain m = some p → p + max 1 (s.blk.actFld u F.LOOP_PBD_CTRL_SLEW_UP) ≤ 32767 → g ≤ p + max 1 (s.blk.actFld u F.LOOP_PBD_CTRL_SLEW_UP)) ∧
        (¬ noLull t m → g ≤ s.blk.lullLevel m)) ∧
      ((s.blk.pbdH m).rampFine = none → noLull t m → s.blk.slotOn m l = true → ∀ v p, out t l = some v → (s.blk.gainSettle m).netGain m = some p →
        (∀ k, k < 8 → s.blk.slotOn m k = true → out t k = none ∨ v ≤ (out t k).getD 0) →
          t.blk.db u F.LOOP_PBD_OUT_NEXT = some (min v (p + max 1 (s.blk.actFld u F.LOOP_PBD_CTRL_SLEW_UP))))

/-- R156, R161, R164, R166, R167: a slot whose misses reach N_MISS, and supervision that has failed eight times, lull the PBD with their faults; 64 clean ticks and
CLR_PLAUS end them; the back-off begins and ends with its run of ticks; an auto-tune completes with KU, rounded to nearest (R149), and TU, or aborts with its reason, at a boundary where it
was cancelled; a slot that goes on runs its law from u_c. -/
def Sys2Proof.Spec.LoopEvents : Prop :=
  ∀ (who : Who) (m l a : Nat) (s : State), m < 128 → l < 8 → Settled s →
    let u := U.pbd m
    let f := fun (b : Bool) (x : Fld) (t : State) => t.blk.flag u x = b
    let lulled := fun (t : State) => (s.blk.ownState u = 2 → t.blk.ownState u = 3) ∧ (s.blk.ownState u = 5 → t.blk.ownState u = 5) ∧
      t.blk.flag u F.UNIT_FAULT_CONTAINED = true ∧ Cause t u 25 ∧ MemSame s t
    let out := fun (t : State) => (s.blk.ownState u = 3 → t.blk.flag u F.LOOP_PBD_STAT_LULL_DL = false → t.blk.flag u F.LOOP_PBD_STAT_LULL_PL = false →
      t.blk.ownState u = 2) ∧ MemSame s t
    let late := s.blk.slotOn m l = true ∧ max 1 (s.blk.actFld u F.LOOP_PBD_CTRL_N_MISS) ≤ s.blk.fld u (F.LOOP_STAT_MISS_RUN l)
    let h := (s.blk.slotH m l).relay
    let amp := (h.cycles.foldl (fun (x : Int) c => x + c.2) 0).natAbs
    let why := s.blk.tuneAbortReason m l
    let ended := fun (t : State) (st r : Nat) => t.blk.fld u (F.LOOP_STAT_TUNE l) = st ∧ t.blk.fld u (F.LOOP_STAT_REASON l) = r ∧
      t.blk.flag u (F.LOOP_CTRL_TUNE_REQ l) = false ∧ Cause t u 26 ∧
      (t.blk.slotH m l).backLaw = (s.blk.pbdOn m && s.blk.slotOn m l && ((s.blk.slotH m l).backLaw || decide (r ≠ 4))) ∧
      RegsKept s t (fun v off => v == u && (off == R.LOOP_STAT l || off == R.LOOP_CTRL l || off == R.LOOP_TUNE l || off == R.UNIT_IRQ_STAT)) ∧ MemSame s t
    (s.blk.pbdOn m = true → s.blk.flag u F.LOOP_PBD_STAT_LULL_DL = false → late → Ends (.loopDeadline m) s fun t => f true F.LOOP_PBD_STAT_LULL_DL t ∧ lulled t) ∧
    (s.blk.pbdOn m = false ∨ s.blk.flag u F.LOOP_PBD_STAT_LULL_DL = true → Ends (.loopDeadline m) s fun t => t = s) ∧
    (s.blk.pbdOn m = true → s.blk.flag u F.LOOP_PBD_STAT_LULL_PL = false → s.blk.fld u F.LOOP_PBD_STAT_SUPV_RUN = 8 → Ends (.plausibility m) s fun t =>
      f true F.LOOP_PBD_STAT_LULL_PL t ∧ lulled t) ∧
    (s.blk.fld u F.LOOP_PBD_STAT_SUPV_RUN ≠ 8 → Ends (.plausibility m) s fun t => t = s) ∧
    (s.blk.flag u F.LOOP_PBD_STAT_LULL_DL = true → s.blk.fld u F.LOOP_PBD_STAT_CLEAN = 64 → Ends (.lullDlClear m) s fun t => f false F.LOOP_PBD_STAT_LULL_DL t ∧ out t) ∧
    (s.blk.fld u F.LOOP_PBD_STAT_CLEAN < 64 → Ends (.lullDlClear m) s fun t => t = s) ∧
    (Takes s who u → s.blk.time.coll = [] →
      (s.blk.fld u F.LOOP_PBD_STAT_SUPV_RUN = 0 → Ends (.clrPlaus who m) s fun t => f false F.LOOP_PBD_STAT_LULL_PL t ∧ out t) ∧
      (s.blk.fld u F.LOOP_PBD_STAT_SUPV_RUN ≠ 0 → Ends (.clrPlaus who m) s fun t => f true F.PBD_STAT_CFG_REJ t ∧
        t.blk.flag u F.LOOP_PBD_STAT_LULL_PL = s.blk.flag u F.LOOP_PBD_STAT_LULL_PL ∧ MemSame s t)) ∧
    (4 ≤ (s.blk.pbdH m).clipRun → s.blk.flag u F.LOOP_PBD_STAT_BACKOFF = false → Ends (.clipBackoffStart m) s fun t => f true F.LOOP_PBD_STAT_BACKOFF t ∧
      Cause t u 27 ∧ RegsKept s t (fun v off => v == u && (off == R.LOOP_PBD_STAT || off == R.UNIT_IRQ_STAT)) ∧ MemSame s t) ∧
    ((s.blk.pbdH m).clipRun < 4 → Ends (.clipBackoffStart m) s fun t => t = s) ∧
    (120 ≤ (s.blk.pbdH m).cleanRun → Ends (.clipBackoffEnd m) s fun t => f false F.LOOP_PBD_STAT_BACKOFF t ∧
      RegsKept s t (fun v off => v == u && off == R.LOOP_PBD_STAT) ∧ MemSame s t) ∧
    ((s.blk.pbdH m).cleanRun < 120 → Ends (.clipBackoffEnd m) s fun t => t = s) ∧
    (s.blk.fld u (F.LOOP_STAT_TUNE l) = 1 → h.consistent = true → amp ≠ 0 → a = s.blk.actFld u (F.LOOP_TUNE_H l) → Ends (.autotuneDone m l) s fun t => ended t 2 0 ∧
      ((h.cycles.map Prod.fst).sum < 65536 → t.blk.fld u (F.LOOP_TUNE_TU l) = (h.cycles.map Prod.fst).sum) ∧
      (1024 * 32 * a * piDen < 65535 * (amp * piNum) → let ku := t.blk.fld u (F.LOOP_TUNE_KU l)
        2 * ((ku : Int) * (amp * piNum) - 1024 * 32 * a * piDen).natAbs ≤ amp * piNum)) ∧
    (s.blk.fld u (F.LOOP_STAT_TUNE l) ≠ 1 ∨ h.consistent = false → Ends (.autotuneDone m l) s fun t => t = s) ∧
    (s.blk.fld u (F.LOOP_STAT_TUNE l) = 1 ∨ (s.blk.slotH m l).cancelled = true →
      ((s.blk.slotH m l).cancelled = true → why = if s.blk.t = s.blk.time.tickStart then 5 else 0) ∧
      ((s.blk.slotH m l).cancelled = false → 3 ≤ h.overRun → why = 1) ∧
      ((s.blk.slotH m l).cancelled = false → h.overRun < 3 → max 4 (s.blk.actFld u (F.LOOP_TUNE_TUNE_MAX l)) ≤ h.count → h.consistent = false → why = 2) ∧
      (why ≠ 0 → why ≠ 4 → Ends (.autotuneAbort m l) s fun t => ended t 3 why) ∧ (why = 0 → Ends (.autotuneAbort m l) s fun t => t = s))

/-- R154, R157, R159, R160, R170, R194: a loop register takes a write at once and is in force from the next boundary on; writes kept for system privilege, an EN of L1 at a
downlink, a RAMP write that starts or stops, and an M_min too near M_SQUALL are refused; kiln's ceiling ignores its field; the LUT address advances. -/
def Sys2Proof.Spec.LoopWrites : Prop :=
  ∀ (who : Who) (m l : Nat) (on : Bool) (v : Word) (s : State), m < 128 → l < 8 → s.blk.time.coll = [] →
    let u := U.pbd m
    let lu := U.le
    let off := R.LOOP_SETPT l
    let n := sext 16 (Word.fld v 15 0)
    let mMin := max 384 (min 1920 n)
    let refused := fun (t : State) => t.blk.flag u F.PBD_STAT_CFG_REJ = true ∧ Corrected s t u ∧ MemSame s t ∧
      ∀ k, k < 8 → t.blk.reg u (R.LOOP_SETPT k) = s.blk.reg u (R.LOOP_SETPT k) ∧ t.blk.reg u (R.LOOP_CTRL k) = s.blk.reg u (R.LOOP_CTRL k)
    let pages := fun (x o : Nat) => x == u && (o == off || o < 0x040)
    let addr := fun (a b c : Nat) => (a * 8 + b) * 64 + c
    let p := s.blk.fld lu F.LE_LUT_ADDR_PBD
    let sl := s.blk.fld lu F.LE_LUT_ADDR_SLOT
    let k := s.blk.fld lu F.LE_LUT_ADDR_ENTRY
    (Takes s who u →
      (l ∈ [3, 5, 6, 7] → n ≠ -32768 → Ends (.loopRegWrite who m off .both v) s fun t => t.blk.sfld u (F.LOOP_SETPT_SETPT l) = n ∧
        regKey u off ∈ t.blk.loop.dirty ∧ t.blk.loop.act = s.blk.loop.act ∧ RegsKept s t pages ∧ MemSame s t) ∧
      (whoSys who = false → Ends (.loopRegWrite who m (R.LOOP_SETPT 0) .both v) s refused) ∧
      (whoSys who = true → s.blk.sfld u F.PROT_CFG_M_SQUALL + 192 ≤ mMin → Ends (.loopRegWrite who m (R.LOOP_SETPT 0) .both v) s fun t =>
        t.blk.sfld u (F.LOOP_SETPT_SETPT 0) = mMin ∧ (n ≠ mMin → t.blk.flag u F.UNIT_FAULT_CORRECTED = true) ∧ MemSame s t) ∧
      (whoSys who = false → Word.fld v F.LOOP_RAMP_START.hi F.LOOP_RAMP_START.lo = 1 ∨ Word.fld v F.LOOP_RAMP_STOP.hi F.LOOP_RAMP_STOP.lo = 1 →
        Ends (.loopRegWrite who m R.LOOP_RAMP .both v) s fun t => refused t ∧ t.blk.reg u R.LOOP_RAMP = s.blk.reg u R.LOOP_RAMP) ∧
      (whoSys who = true → mMin < s.blk.sfld u F.PROT_CFG_M_SQUALL + 192 → Ends (.loopRegWrite who m (R.LOOP_SETPT 0) .both v) s refused) ∧
      (Ends (.loopRegWrite who m (R.LOOP_SETPT 2) .both v) s fun t => t.blk.fld u (F.LOOP_SETPT_SETPT 2) = s.blk.fld u (F.LOOP_SETPT_SETPT 2) ∧ MemSame s t) ∧
      (whoSys who = false → n ≠ -32768 → s.blk.sfld u (F.LOOP_SETPT_SETPT 4) < n → s.blk.lullLevel m < n → Ends (.loopRegWrite who m (R.LOOP_SETPT 4) .both v) s refused) ∧
      (n ≠ -32768 → n ≤ s.blk.sfld u (F.LOOP_SETPT_SETPT 4) → Ends (.loopRegWrite who m (R.LOOP_SETPT 4) .both v) s fun t =>
        t.blk.sfld u (F.LOOP_SETPT_SETPT 4) = n ∧ MemSame s t) ∧
      (whoSys who = false → Word.fld v 0 0 = 0 → Ends (.loopRegWrite who m (R.LOOP_CTRL 4) .both v) s refused) ∧
      (m % 2 = 0 → Word.fld v 0 0 = 1 → Ends (.loopRegWrite who m (R.LOOP_CTRL 1) .both v) s refused) ∧
      (Ends (.tuneReq who m l on) s fun t => t.blk.flag u (F.LOOP_CTRL_TUNE_REQ l) = on ∧ regKey u (R.LOOP_CTRL l) ∈ t.blk.loop.dirty ∧
        t.blk.loop.act = s.blk.loop.act ∧ RegsKept s t (fun x o => x == u && o == R.LOOP_CTRL l) ∧ MemSame s t) ∧
      (whoSys who = true → (Ends (.rampStart who m) s fun t => (t.blk.pbdH m).rampStart = true ∧ t.blk.regs = s.blk.regs ∧ MemSame s t) ∧
        Ends (.rampStop who m) s fun t => (t.blk.pbdH m).rampFine = none ∧ t.blk.flag u F.LOOP_PBD_STAT_RAMP = false ∧ MemSame s t) ∧
      (whoSys who = false → Ends (.rampStart who m) s (fun t => refused t ∧ t.blk.pbdH m = s.blk.pbdH m) ∧
        Ends (.rampStop who m) s (fun t => refused t ∧ t.blk.pbdH m = s.blk.pbdH m))) ∧
    (Settled s → s.blk.time.running = true → s.blk.inReset = false → s.blk.flag 0 F.FLT_MODE_FATAL = false → regKey u off ∈ s.blk.loop.dirty → Ends .tickBoundary s fun t =>
      l ∈ [3, 5, 6, 7] → s.blk.thermalOff = false → t.blk.act u off = s.blk.reg u off) ∧
    (Takes s who lu →
      (Ends (.lutWrite who .both v) s fun t => t.mem.rd64 .lut (addr p sl k) = v &&& 0xFFFFFFFF ∧ MemKept s t (fun r j => r == .lut && j == addr p sl k) ∧
        RegsKept s t (fun x o => x == lu && o == R.LE_LUT_ADDR) ∧ addr p sl k ∈ t.blk.loop.lutDirty ∧
        (s.blk.flag lu F.LE_LUT_ADDR_AUTOINC = false → t.blk.regs = s.blk.regs) ∧
        (s.blk.flag lu F.LE_LUT_ADDR_AUTOINC = true → addr (t.blk.fld lu F.LE_LUT_ADDR_PBD) (t.blk.fld lu F.LE_LUT_ADDR_SLOT) (t.blk.fld lu F.LE_LUT_ADDR_ENTRY) =
          (addr p sl k + 1) % 65536)) ∧
      Ends (.lePeakClr who) s fun t => t.blk.fld lu F.LE_PEAK_PEAK = 0 ∧ RegsKept s t (fun x o => x == lu && o == R.LE_PEAK) ∧ MemSame s t)

/-- R145 to R167, R194: the loop engine. -/
def Obligations.LoopEngine : Prop := BlockFloating ∧ PoolClose ∧ LoopEvents ∧ LoopWrites

/-- R172 to R175, R179, R180: an output gives the mean, the peak and the envelope of its window as levels with OFFSET, valid once as many outputs as the support were
clean; each counts and stamps. What the decimator and the FIR make of the samples is the model's `mcFilter`, in units of 2^-64 of full scale (log entry 101). -/
def Sys2Proof.Spec.ChainOutputs : Prop :=
  ∀ (c : Nat) (i q conv : List (List Int)) (s : State), c < 320 → Settled s →
    let u := U.mc c
    let h := s.blk.mcH c
    let due := h.origin + (h.outs + 1) * h.tout
    let f := s.blk.mcFilter s.mem c i q conv
    let y := f.2
    let hi := s.blk.t - 64
    let gated := s.blk.mcGated c (hi - h.tout) hi
    let clip := s.blk.mcClipped c (hi - h.tout) hi
    let w := if s.blk.fld u F.MC_STAT_WIN = 0 then 256 else s.blk.fld u F.MC_STAT_WIN
    let ys := (y :: h.ys).take w
    let ofs := s.blk.sfld u F.MC_CAL_OFFSET
    let clean := if gated then 0 else h.clean + 1
    let count := fun (t : State) (f : Fld) => t.blk.fld u f = (s.blk.fld u f + 1) % 2 ^ (f.hi + 1 - f.lo)
    let level := fun (t : State) (f : Fld) (num : Int) (den : Nat) => t.blk.fld u f ≠ 0x8000 ∧ IsLevel (t.blk.sfld u f - ofs) num.toNat den
    (s.blk.flag u F.MC_STAT_RUN = false → Ends (.mcOutput c i q conv) s fun t => t = s) ∧
    (s.blk.flag u F.MC_STAT_RUN = true → due = s.blk.t → due ≤ s.blk.time.tickEnd → 0 < h.support → -6400 ≤ ofs → ofs ≤ 6400 → y < 2 ^ 66 →
      (∀ x ∈ h.ys, x < 2 ^ 66) → (∀ e, h.env = some e → e < 2 ^ 66) → Ends (.mcOutput c i q conv) s fun t =>
        level t F.MC_RMS_VALUE ys.sum (w * 2 ^ 64) ∧ level t F.MC_PEAK_VALUE (ys.foldl max 0) (2 ^ 64) ∧
        (h.env = none → gated = true → t.blk.fld u F.MC_ENV_VALUE = 0x8000 ∧ t.blk.flag u F.MC_ENV_VALID = false) ∧
        (h.env = none → gated = false → level t F.MC_ENV_VALUE y (2 ^ 64)) ∧ (∀ e, h.env = some e → gated = true → (t.blk.mcH c).env = some e) ∧
        (∀ e, h.env = some e → gated = false → ∃ e', (t.blk.mcH c).env = some e' ∧ level t F.MC_ENV_VALUE e' (2 ^ 64) ∧
          let k := 2 ^ (if e < y then s.blk.fld u F.MC_CFG_ATK else s.blk.fld u F.MC_CFG_DCY)
          ((e' - e) * (k : Nat) - (y - e)).natAbs < k) ∧
        t.blk.flag u F.MC_RMS_VALID = decide (h.support ≤ clean) ∧ t.blk.flag u F.MC_PEAK_VALID = decide (h.support ≤ clean) ∧
        (clip = true → t.blk.flag u F.MC_RMS_CLIP = true ∧ t.blk.flag u F.MC_PEAK_CLIP = true) ∧
        (clip = false → h.clipLeft ≤ 1 → t.blk.flag u F.MC_RMS_CLIP = false) ∧
        count t F.MC_RMS_OUTS ∧ count t F.MC_PEAK_OUTS ∧ count t F.MC_ENV_OUTS ∧ t.blk.reg u R.MC_STAMP = s.blk.now ∧
        (h.support ≤ h.outs + 1 → s.blk.flag u F.MC_STAT_SETTLED = false → t.blk.flag u F.MC_STAT_SETTLED = true ∧ Cause t u 16) ∧
        (t.blk.mcH c).outs = h.outs + 1 ∧ (t.blk.mcH c).ints = f.1.ints ∧ (t.blk.mcH c).combs = f.1.combs ∧ (t.blk.mcH c).line = f.1.line ∧
        RegsKept s t (fun v _ => v == u) ∧ MemSame s t)

/-- R175, R182 to R184: a trigger resets the decimators 64 Tc later, coincident ones once; the reset clears every running chain that takes it, counts and stamps; a stopped
chain takes its configuration, and one that runs refuses it with COEF_BUSY. -/
def Sys2Proof.Spec.ChainCommands : Prop :=
  ∀ (who : Who) (c : Nat) (v : Word) (s : State), c < 320 →
    let u := U.mc c
    let h := s.blk.mcH c
    let trig := fun (t : State) => s.blk.t + 64 ∈ t.blk.mcResets ∧ (∀ x ∈ s.blk.mcResets, x ∈ t.blk.mcResets) ∧
      t.blk.mcResets.length ≤ s.blk.mcResets.length + 1 ∧ (s.blk.t + 64 ∈ s.blk.mcResets → t.blk.mcResets = s.blk.mcResets) ∧
      t.blk.regs = s.blk.regs ∧ MemSame s t
    let j := c * 32 + s.blk.fld u F.MC_COEF_ADDR_SET * 16 + s.blk.fld u F.MC_COEF_ADDR_INDEX
    let busy := s.blk.ownState u = 2 ∨ s.blk.ownState u = 5
    let refused := fun (t : State) => t.blk.flag u F.MC_STAT_COEF_BUSY = true ∧ Corrected s t u ∧ t.blk.reg u R.MC_CFG = s.blk.reg u R.MC_CFG ∧ MemSame s t
    (Settled s → s.blk.inReset = false → Ends .msyncNEdge s trig) ∧
    (Settled s → s.blk.inReset = true → Ends .msyncNEdge s fun t => t = s) ∧
    (Takes s who u → s.blk.time.coll = [] →
      Ends (.mcSync who c) s trig ∧
      (Ends (.peakClr who c) s fun t => t.blk.fld u F.MC_PEAK_HOLD_HOLD = 0x8000 ∧ RegsKept s t (fun x off => x == u && off == R.MC_PEAK_HOLD) ∧ MemSame s t) ∧
      (¬ busy → Ends (.mcConfigWrite who c R.MC_COEF_DATA .both v) s fun t => t.mem.rd .mcCoef j = (v &&& 0x3FFFF).setWidth 128 ∧
        t.blk.fld u F.MC_COEF_ADDR_INDEX = (s.blk.fld u F.MC_COEF_ADDR_INDEX + 1) % 2 ^ (F.MC_COEF_ADDR_INDEX.hi + 1 - F.MC_COEF_ADDR_INDEX.lo) ∧
        MemKept s t (fun r k => r == .mcCoef && k == j) ∧ RegsKept s t (fun x off => x == u && off == R.MC_COEF_ADDR)) ∧
      (busy → Ends (.mcConfigWrite who c R.MC_COEF_DATA .both v) s refused) ∧ (busy → Ends (.mcConfigWrite who c R.MC_CFG .both v) s refused) ∧
      (c < 296 → Ends (.mcConfigWrite who c R.MC_TAP .both v) s refused)) ∧
    (Settled s → ∀ rest, s.blk.mcResets = s.blk.t :: rest → (∀ x ∈ rest, s.blk.t < x) → s.blk.t < s.blk.time.tickEnd → Ends .decimResetApply s fun t =>
      t.blk.mcResets = rest ∧ MemSame s t ∧
      (s.blk.flag u F.MC_STAT_RUN = true → s.blk.flag u F.MC_CFG_NOSYNC = false →
        t.blk.mcH c = { h with
          origin := s.blk.t, outs := 0, clean := 0, clipLeft := 0, ys := [], env := none, ints := [], combs := [], line := [] } ∧ t.blk.flag u F.MC_RMS_VALID = false ∧
        t.blk.flag u F.MC_PEAK_VALID = false ∧ t.blk.flag u F.MC_ENV_VALID = false ∧ t.blk.fld u F.MC_ENV_VALUE = 0x8000 ∧
        t.blk.flag u F.MC_STAT_SETTLED = false ∧ t.blk.reg u R.MC_SYNC_STAMP = s.blk.now ∧ Cause t u 19) ∧
      (s.blk.flag u F.MC_STAT_RUN = false ∨ s.blk.flag u F.MC_CFG_NOSYNC = true → t.blk.mcH c = h ∧ t.blk.reg u R.MC_STAT = s.blk.reg u R.MC_STAT))

/-- R172 to R184: the measurement chains: the outputs of a window, their validity, settings, starts and resets; what decimator and FIR make of the samples is the
model's `mcFilter` (log entry 101). -/
def Sys2Proof.Spec.MeasurementChains : Prop := ChainOutputs ∧ ChainCommands

namespace Sys2Proof.Spec

/-- The mean of a sensor's last four raw samples, this one with it, in 1/192 °C. -/
def meanRaw (s : State) (n : Nat) (raw : BitVec 16) : Int :=
  let l := (raw.toInt :: (s.blk.tsH n).raws).take 4
  l.foldl (fun a x => a + x) 0 * ((12 / l.length : Nat) : Int)

/-- No sensor fails at this sample, none has failed, and kiln is below SHUTDOWN. -/
abbrev sound (s : State) (raws : List (BitVec 16)) : Prop :=
  raws.length = 48 ∧ (∀ r ∈ raws, -800 ≤ r.toInt ∧ r.toInt ≤ 2400) ∧ (∀ n, n < 48 → s.blk.tsLive n = true ∧ (s.blk.tsH n).filts.length < 63)

/-- The 8th consecutive value beyond a threshold. -/
def run8 (s : State) (n k : Nat) : Nat :=
  let x := s.blk.tsH n
  match k with | 1 => x.run1 | 2 => x.run2 | 3 => x.run3 | _ => x.run4

end Sys2Proof.Spec

/-- R324 to R327, R334: every millisecond a sensor gives a raw sample, whose mean over four is its filtered reading; a threshold is entered at the eighth reading above it and
left at the eighth below it by HYS; a sample out of range fences its sensor. The direction in which a mean is rounded is open (log entry 4). -/
def Sys2Proof.Spec.KilnSamples : Prop :=
  ∀ (n : Nat) (raws : List (BitVec 16)) (s : State), n < 48 → Settled s → s.blk.inReset = false → DueNow s (s.blk.kiln.sampleAt + 1966080) →
    let u := U.ts n
    let raw := raws.getD n 0
    let mean := meanRaw s n raw
    let lv := s.blk.fld u F.TS_READ_LEVEL
    let top := fun (t : State) => ((List.range 48).map fun k => t.blk.fld (U.ts k) F.TS_READ_LEVEL).foldl max 0
    (sound s raws → s.blk.kiln.forced = false → s.blk.fld U.kiln F.KILN_STAT_LEVEL < 4 → Ends (.tsSample raws) s fun t =>
      t.blk.fld u F.TS_READ_RAW = raw.toNat ∧ (12 * t.blk.sfld u F.TS_READ_FILT - mean).natAbs < 12 ∧ t.blk.kiln.sampleAt = s.blk.t ∧
        (∀ k, 1 ≤ k → k ≤ 4 → lv = k - 1 → tsUnits (tsThr n k) < mean → run8 s n k = 7 → k ≤ t.blk.fld u F.TS_READ_LEVEL ∧ Cause t u 16) ∧
        (lv = 0 → (∀ k, k < 5 → run8 s n k ≤ run8 s n 1) → (mean ≤ tsUnits (tsThr n 1) ∨ run8 s n 1 < 7) → t.blk.fld u F.TS_READ_LEVEL = 0) ∧
        (lv = 1 → mean < tsUnits (tsThr n 1) - tsUnits s.blk.hys → run8 s n 1 = 7 → t.blk.fld u F.TS_READ_LEVEL = 0) ∧
        (lv = 1 → tsUnits (tsThr n 1) - tsUnits s.blk.hys ≤ mean → mean ≤ tsUnits (tsThr n 1) → t.blk.fld u F.TS_READ_LEVEL = 1 ∧ (t.blk.tsH n).run1 = 0) ∧
        (top t < 4 → t.blk.fld U.kiln F.KILN_STAT_LEVEL = top t) ∧
        (s.blk.fld U.kiln F.KILN_STAT_LEVEL < 2 → 2 ≤ top t → t.blk.flag U.kiln F.KILN_STAT_REQ = true ∧ Cause t U.kiln 18 ∧
          t.blk.reg U.kiln R.KILN_THR_STAMP = s.blk.now) ∧
        (top t = 4 → t.blk.flag U.kiln F.UNIT_FAULT_CONTAINED = true ∧ t.blk.kiln.stopping = true) ∧ MemSame s t) ∧
    (raws.length = 48 → (raw.toInt < -800 ∨ 2400 < raw.toInt) → s.blk.tsLive n = true → s.blk.fld U.kiln F.KILN_STAT_LEVEL = 0 → s.blk.kiln.forced = false →
      Ends (.tsSample raws) s fun t => t.blk.ownState u = 4 ∧ t.blk.fld u F.TS_STAT_CAUSE = 1 ∧ Cause t u 17 ∧ Cause t U.kiln 19 ∧
        t.blk.flag u F.UNIT_FAULT_CONTAINED = true ∧ MemSame s t)

/-- R329, R332, R337, R339: the throttle's steps come in turn while LEVEL stays at THROTTLE or above; the ceiling of every PBD in service steps down by 1 dB and rises again,
ending at 0x7FFF; the orderly stop silences the module at THERMAL_OFF and turns the domains off; RESUME is taken only when every sensor is cool. -/
def Sys2Proof.Spec.KilnActions : Prop :=
  ∀ (who : Who) (m k a : Nat) (s : State), m < 128 → k < 8 → a < 4 → Settled s →
    let u := U.kiln
    let level := s.blk.fld u F.KILN_STAT_LEVEL
    let step := s.blk.fld u F.KILN_STAT_STEP
    let pu := U.pbd m
    let sp := s.blk.sfld pu (F.LOOP_SETPT_SETPT 2)
    let n := s.blk.fld pu F.LOOP_THERM_STEPS
    let floor := s.blk.sfld u F.KILN_CFG_FLOOR
    let next := fun (t : State) => t.blk.kiln.stepAt = some (s.blk.t + (if level = 3 then 10 else 100) * 1966080)
    (∀ d, s.blk.kiln.stepAt = some d → DueNow s d → 2 ≤ level → level ≤ 4 →
      (step < 3 → Ends .kilnStep s fun t => t.blk.fld u F.KILN_STAT_STEP = step + 1 ∧ next t ∧
        (step = 0 → s.blk.fld U.cel F.CEL_STAT_STATE = 1 → t.blk.cel.holdDue = true) ∧
        (step = 1 → t.blk.flag U.le F.LE_STAT_TUNE_STOP = true ∧ t.blk.flag U.tally (F.TR_CTRL_RUN a) = false ∧ t.blk.flag U.tally (F.TR_STAT_KILN_STOP a) = true ∧
          Cause t U.tally 19 ∧ (s.blk.flag U.le F.LE_STAT_TUNE_STOP = false → Cause t U.le 17)) ∧
        (step = 2 → t.blk.flag (U.cl k) F.CL_STAT_THROTTLE = true) ∧ RegsKept s t (fun v _ => v == u || v == U.le || v == U.tally || (U.cl 0 ≤ v && v ≤ U.cl 7)) ∧
        MemSame s t) ∧
      (3 ≤ step → n < 1025 → Ends .kilnStep s fun t => t.blk.fld u F.KILN_STAT_STEP = 4 ∧ next t ∧ MemSame s t ∧
        (s.blk.pbdOn m = true → ∀ g, s.blk.db pu F.PBD_GAIN_CMD = some g → -32000 ≤ floor → -32000 ≤ sp → -32000 ≤ g →
          t.blk.sfld pu (F.LOOP_SETPT_SETPT 2) = max floor (min sp g - 64) ∧
            t.blk.fld pu F.LOOP_THERM_STEPS = (if max floor (min sp g - 64) < sp then n + 1 else n)) ∧
        (s.blk.pbdOn m = false → t.blk.reg pu (R.LOOP_SETPT 2) = s.blk.reg pu (R.LOOP_SETPT 2) ∧ t.blk.fld pu F.LOOP_THERM_STEPS = n))) ∧
    (∀ d, s.blk.kiln.riseAt = some d → DueNow s d → level < 2 → Ends .thermCeilRise s fun t => MemSame s t ∧
      (n = 1 → t.blk.fld pu (F.LOOP_SETPT_SETPT 2) = 0x7FFF ∧ t.blk.fld pu F.LOOP_THERM_STEPS = 0) ∧
      (1 < n → sp ≤ 32703 → t.blk.sfld pu (F.LOOP_SETPT_SETPT 2) = sp + 64 ∧ t.blk.fld pu F.LOOP_THERM_STEPS = n - 1) ∧
      (n = 0 → t.blk.reg pu (R.LOOP_SETPT 2) = s.blk.reg pu (R.LOOP_SETPT 2))) ∧
    (s.blk.kiln.riseAt = none → Ends .thermCeilRise s fun t => t = s) ∧ (s.blk.kiln.stepAt = none → Ends .kilnStep s fun t => t = s) ∧
    (∀ d rest, s.blk.kiln.stops = (d, .silent) :: rest → DueNow s d → Ends .kilnOrderlyStep s fun t => t.blk.kiln.stops = rest ∧ t.blk.thermalOff = true ∧
      (level ≠ 5 → t.blk.reg u R.KILN_OFF_STAMP = s.blk.now ∧ Cause t u 20) ∧ t.blk.fld 0 F.FLT_COLLECT_INFO_PHASE = 3 ∧ MemSame s t ∧
      (∀ c, c < 32 → s.blk.fld (U.txc c) F.TXC_STAT_CH_STATE = 3 → (t.blk.txcH c).out = false ∧ (t.blk.txcH c).paHigh = false ∧
        (s.blk.txcDemand c = true → t.blk.fld (U.txc c) F.TXC_STAT_CH_STATE = 4))) ∧
    (∀ d rest, s.blk.kiln.stops = (d, .off) :: rest → DueNow s d → Ends .kilnOrderlyStep s fun t => t.blk.kiln.stops = rest ∧ t.blk.power.trans = [] ∧
      t.blk.power.queue = [] ∧ ∀ e, e < 80 → pdState s e ≠ 7 → pdState t e = (if e = 72 ∨ e = 73 then 4 else 0)) ∧
    (Takes s who u → s.blk.time.coll = [] →
      (level ≠ 5 → Ends (.kilnResume who) s fun t => t.blk.regs = s.blk.regs ∧ t.blk.kiln = s.blk.kiln ∧ MemSame s t) ∧
      (level = 5 → s.blk.kilnCool = false → Ends (.kilnResume who) s fun t => t.blk.flag u F.KILN_STAT_CFG_REJ = true ∧ Corrected s t u ∧ t.blk.thermalOff = true ∧
        MemSame s t) ∧
      (level = 5 → s.blk.kilnCool = true → Ends (.kilnResume who) s fun t => t.blk.thermalOff = false ∧ t.blk.fld u F.KILN_STAT_LEVEL ≤ 1 ∧
        t.blk.flag u F.KILN_STAT_REQ = false ∧ t.blk.flag 0 F.ROOT_SQUALL_KILN = false ∧ t.blk.kiln.stopping = false ∧ t.blk.fld 0 F.FLT_COLLECT_INFO_PHASE ≠ 3 ∧ MemSame s t))

/-- R173 to R184, R324 to R339: the measurement chains and kiln. -/
def Obligations.ChainsAndKiln : Prop := MeasurementChains ∧ KilnSamples ∧ KilnActions

namespace Sys2Proof.Spec

/-- A field that adds `n` and saturates at its largest value. -/
def Adds (s t : State) (u : Nat) (f : Fld) (n : Nat) : Prop :=
  t.blk.fld u f = min (2 ^ (f.hi + 1 - f.lo) - 1) (s.blk.fld u f + n)

/-- Unit `u` is fenced with a CONTAINED fault (R363). -/
def Fences (s t : State) (u code : Nat) : Prop :=
  t.blk.ownState u = 4 ∧ t.blk.flag u F.UNIT_FAULT_CONTAINED = true ∧ Cause t u 2 ∧
    (s.blk.fld u F.UNIT_FAULT_CLASS < 3 → t.blk.fld u F.UNIT_FAULT_CODE = code)

/-- The duration of an IQ frame of a rate code and a format (R269). -/
def frameLen (rate : Nat) (fmt16 : Bool) : Nat := 65536 / 2 ^ rate / (if fmt16 then 2 else 1)

/-- The valid flows of a head. -/
def validFlows (s : State) (h : Nat) : List Nat := (List.range 32).filter fun i => s.blk.flag (U.hd h) (F.HD_FLOW_V i)

/-- The longest frame of a head's flows, and 16,384 Tc with none (R277). -/
def longest (s : State) (h : Nat) : Nat :=
  if (validFlows s h).isEmpty then 16384
  else ((validFlows s h).map fun i => frameLen (s.blk.rateOf (s.blk.flowPbd h i)) (s.blk.flag (U.hd h) (F.HD_FLOW_FMT i))).foldl max 0

/-- P + TP + HEAD + GUARD of a head whose path takes `tp` (R277). -/
def needs (s : State) (h tp : Nat) (ul : Bool) : Nat :=
  longest s h + ((tp : Int) + s.blk.sfld (U.hd h) F.HD_PATH_ASYM).toNat + s.blk.fld (U.hd h) (if ul then F.HD_HEAD_LAT_HEAD_UL else F.HD_HEAD_LAT_HEAD_DL) +
    s.blk.fld (U.hd h) F.HD_CFG_GUARD

/-- `d` is `n` rounded up to a multiple of 64 Tc. -/
abbrev Up64 (d n : Nat) : Prop := d % 64 = 0 ∧ n ≤ d ∧ d < n + 64

/-- The rates of a head's flows are rate codes. -/
abbrev ratesOk (s : State) (h : Nat) : Prop := ∀ i ∈ validFlows s h, s.blk.rateOf (s.blk.flowPbd h i) ≤ 4

/-- Both directions of a head need no more than it accepts and than 1,048,576 Tc (R275). -/
abbrev Reaches (s : State) (h tp dmax : Nat) : Prop :=
  needs s h tp false + 64 ≤ dmax ∧ needs s h tp true + 64 ≤ dmax ∧ needs s h tp false + 64 ≤ 1048576 ∧ needs s h tp true + 64 ≤ 1048576

/-- One direction of a head needs more. -/
abbrev TooFar (s : State) (h tp dmax : Nat) : Prop := min dmax 1048576 < needs s h tp false ∨ min dmax 1048576 < needs s h tp true

/-- A realign of head `h` is under way: counted, reported, with its latencies to come (R280). -/
def Realigns (s t : State) (h : Nat) : Prop :=
  Adds s t (U.hd h) F.HD_STAT_REALIGNS 1 ∧ Corrected s t (U.hd h) ∧ Cause t (U.hd h) 17 ∧
    (∃ a, (t.blk.hdH h).align = (s.blk.hdH h).align ++ [a] ∧ a.asked = s.blk.t ∧ a.t0 = none) ∧
    t.blk.fld (U.hd h) F.HD_LAT_D_DL = s.blk.fld (U.hd h) F.HD_LAT_D_DL ∧ t.blk.fld (U.hd h) F.HD_LAT_D_UL = s.blk.fld (U.hd h) F.HD_LAT_D_UL

end Sys2Proof.Spec

/-- R265 to R267: a port in training comes UP within 1.5 s or starts again and counts; the loss of alignment takes it through DOWN to training;
a failed lane is replaced by the spare, lane 8, and the port retrains, one that no port carries is reported at each port of the group, and where the spare is in use or failed the port is fenced. -/
def Sys2Proof.Spec.PortLinks : Prop :=
  ∀ (q l : Nat) (s : State), q < 8 → l < 9 → Settled s → s.blk.inReset = false →
    let u := U.fh q
    let link := s.blk.fld u F.FH_STAT_LINK
    let limit := (s.blk.fhH q).trainAt + 2949120000
    let g := q / 4
    let carries := fun (p x : Nat) => s.blk.fld (U.fh p) F.FH_LANE_PHY0 = x ∨ s.blk.fld (U.fh p) F.FH_LANE_PHY1 = x
    let failed := fun (x : Nat) => s.blk.fld u F.FH_LANE_FAILED / 2 ^ x % 2 = 1
    let others := ∀ p, p < 8 → p / 4 = g → p ≠ q → ¬ carries p l
    let alike := ∀ p, p < 8 → p / 4 = g → s.blk.fld (U.fh p) F.FH_LANE_FAILED = s.blk.fld u F.FH_LANE_FAILED
    let ports := fun (v _ : Nat) => v == U.fh (4 * g) || v == U.fh (4 * g + 1) || v == U.fh (4 * g + 2) || v == U.fh (4 * g + 3) || v == 0
    let marked := fun (t : State) => ∀ p, p < 8 → p / 4 = g → t.blk.fld (U.fh p) F.FH_LANE_FAILED = s.blk.fld u F.FH_LANE_FAILED + 2 ^ l
    (link = 1 → s.blk.t ≤ limit → Ends (.fhTrainingDone q) s fun t =>
      t.blk.fld u F.FH_STAT_LINK = 2 ∧ Cause t u 16 ∧ RegsKept s t (fun v _ => v == u) ∧ MemSame s t) ∧
    (link ≠ 1 → (Ends (.fhTrainingDone q) s fun t => t = s) ∧ Ends (.fhTrainTimeout q) s fun t => t = s) ∧
    (link = 1 → DueNow s limit → Ends (.fhTrainTimeout q) s fun t =>
      t.blk.fld u F.FH_STAT_LINK = 1 ∧ Adds s t u F.FH_STAT_TRAIN_FAIL 1 ∧ (t.blk.fhH q).trainAt = s.blk.t ∧ RegsKept s t (fun v _ => v == u) ∧ MemSame s t) ∧
    (link = 2 → Ends (.fhFecLoss q) s fun t => t.blk.fld u F.FH_STAT_LINK = 1 ∧ Adds s t u F.FH_STAT_DOWNS 1 ∧ (t.blk.fhH q).trainAt = s.blk.t ∧
      Corrected s t u ∧ Cause t u 16 ∧ RegsKept s t (fun v _ => v == u || v == 0) ∧ MemSame s t) ∧
    (link ≠ 2 → Ends (.fhFecLoss q) s fun t => t = s) ∧
    (failed l → Ends (.fhLaneFail g l) s fun t => t = s) ∧
    (¬ failed l → alike → ¬ carries q l → others → Ends (.fhLaneFail g l) s fun t => marked t ∧ t.blk.fld u F.FH_STAT_LINK = link ∧
      (∀ p, p < 8 → p / 4 = g → Cause t (U.fh p) 17) ∧
      RegsKept s t ports ∧ MemSame s t) ∧
    (¬ failed l → alike → carries q l → others → ¬ failed 8 → (∀ p, p < 8 → p / 4 = g → ¬ carries p 8) → Ends (.fhLaneFail g l) s fun t =>
      marked t ∧ t.blk.flag u F.FH_STAT_SPARED = true ∧ Corrected s t u ∧ Cause t u 17 ∧
        t.blk.fld u F.FH_LANE_PHY0 = (if s.blk.fld u F.FH_LANE_PHY0 = l then 8 else s.blk.fld u F.FH_LANE_PHY0) ∧
        (s.blk.fld u F.FH_LANE_PHY0 ≠ l → t.blk.fld u F.FH_LANE_PHY1 = 8) ∧ (link = 2 → t.blk.fld u F.FH_STAT_LINK = 1) ∧
        (link = 1 → t.blk.fld u F.FH_STAT_LINK = 1 ∧ (t.blk.fhH q).trainAt = s.blk.t) ∧ RegsKept s t ports ∧ MemSame s t) ∧
    (¬ failed l → alike → carries q l → others → (failed 8 ∨ ∃ p, p < 8 ∧ p / 4 = g ∧ carries p 8) → s.blk.ownState u ≠ 6 → Ends (.fhLaneFail g l) s fun t =>
      Fences s t u C.fhLaneFail ∧ marked t ∧ Cause t u 17 ∧ MemSame s t)

/-- R268 to R270: a frame of another kind is counted and discarded; an IQ frame is taken at the air count that its orderInfo spells within 64 frames
of now, kept for its flow in time, and discarded where its flow or format does not match or where its content is bad; a frame that has not come by the
Tc at which it is needed counts in GAP_UL. -/
def Sys2Proof.Spec.UplinkFrames : Prop :=
  ∀ (q h f x corr unc : Nat) (fmt16 pause bad : Bool) (s : State), q < 8 → h < 512 → f < 32 → Settled s →
    let u := U.fh q
    let hu := U.hd h
    let w := Store.get UlFlow.init (s.blk.hdH h).flows f
    let m := s.blk.flowPbd h f
    let serves := (s.blk.hdH h).port = some q ∧ s.blk.ownState hu ∈ [1, 2, 5] ∧ s.blk.flag hu (F.HD_FLOW_V f) = true ∧ isUl m = true
    let right := s.blk.flag hu (F.HD_FLOW_FMT f) = fmt16
    let order := BitVec.ofNat 32 (x / 19660800 % 128 * 2 ^ 25 + x % 19660800)
    let near := x < s.blk.time.air + 64 * 19660800 ∧ s.blk.time.air < x + 64 * 19660800
    let late := x < w.next ∨ x + s.blk.fld hu F.HD_LAT_D_UL < s.blk.time.air
    let fec := fun (t : State) => Adds s t u F.FH_FEC_CORR corr ∧ Adds s t u F.FH_FEC_UNCORR unc ∧ (0 < unc → Cause t u 19)
    let flow := fun (t : State) => Store.get UlFlow.init (t.blk.hdH h).flows f
    let iq := Instr.fhIqFrameRx q h f fmt16 order bad corr unc
    let d := frameLen (s.blk.rateOf m) (s.blk.flag hu (F.HD_FLOW_FMT f))
    let alone := fun (t : State) => RegsKept s t (fun v _ => v == u) ∧ MemSame s t
    (s.blk.fld u F.FH_STAT_LINK ≠ 2 → (Ends (.fhOtherFrameRx q pause corr unc) s fun t => t = s) ∧ Ends iq s fun t => t = s) ∧
    (s.blk.fld u F.FH_STAT_LINK = 2 →
      (Ends (.fhOtherFrameRx q pause corr unc) s fun t => fec t ∧ Adds s t u (if pause then F.FH_RX_CNT_PAUSE else F.FH_RX_CNT_OTHER) 1 ∧
        t.blk.fld u F.FH_RX_CNT_FRAMES = s.blk.fld u F.FH_RX_CNT_FRAMES ∧ alone t) ∧
      (bad = true → Ends iq s fun t => fec t ∧ flow t = w ∧ t.blk.reg u R.FH_RX_CNT = s.blk.reg u R.FH_RX_CNT ∧ alone t) ∧
      (bad = false → ¬ (serves ∧ right) → Ends iq s fun t => fec t ∧ flow t = w ∧ Adds s t u F.FH_RX_CNT_OTHER 1 ∧
        t.blk.fld u F.FH_RX_CNT_FRAMES = s.blk.fld u F.FH_RX_CNT_FRAMES ∧ alone t) ∧
      (bad = false → serves → right → near → Ends iq s fun t => fec t ∧
        t.blk.fld u F.FH_RX_CNT_FRAMES = (s.blk.fld u F.FH_RX_CNT_FRAMES + 1) % 2 ^ 32 ∧ t.blk.fld u F.FH_RX_CNT_OTHER = s.blk.fld u F.FH_RX_CNT_OTHER ∧
        (late → flow t = w ∧ (t.blk.hdH h).ulLate = true) ∧ (¬ late → x ∈ (flow t).have_ ∧ (∀ y ∈ w.have_, y ∈ (flow t).have_)) ∧ alone t)) ∧
    (s.blk.ownState hu = 2 → s.blk.flag hu (F.HD_FLOW_V f) = true → isUl m = true → s.blk.rateOf m ≤ 4 → w.next ∉ w.have_ →
      s.blk.time.air ≤ w.next + s.blk.fld hu F.HD_LAT_D_UL → DueNow s (s.blk.t + (w.next + s.blk.fld hu F.HD_LAT_D_UL - s.blk.time.air)) →
      Ends (.fhUlSampleMissing h f) s fun t => Adds s t hu F.HD_HEALTH_GAP_UL 1 ∧ Cause t hu 18 ∧ (flow t).next = w.next + d ∧
        (s.blk.t, s.blk.t + d) ∈ (flow t).gaps ∧
        (∀ y ∈ w.have_, w.next < y → y ∈ (flow t).have_) ∧ RegsKept s t (fun v _ => v == hu) ∧ MemSame s t) ∧
    (s.blk.ownState hu ≠ 2 ∨ s.blk.flag hu (F.HD_FLOW_V f) = false ∨ isUl m = false → Ends (.fhUlSampleMissing h f) s fun t => t = s)

/-- R271, R274, R275: a HELLO from the one head that a page is bound to, on its port, is answered with ADMIT, which carries the port's MAC, and starts the
measurement of its latency, or leaves an admitted head in service; from an unbound serial, on the wrong port or with two pages bound it is answered with nothing and counted. -/
def Sys2Proof.Spec.HeadAdmission : Prop :=
  ∀ (q h ports fmt rates dl ul dmax : Nat) (serial : BitVec 64) (mac : BitVec 48) (s : State), q < 8 → h < 512 → Settled s → ports < 8 → fmt < 4 → rates < 32 →
    dl < 2 ^ 24 → ul < 2 ^ 24 → dmax < 2 ^ 21 →
    let u := U.hd h
    let fu := U.fh q
    let c := Instr.helloRx q serial mac ports fmt rates dl ul dmax
    let bound := fun (k : Nat) => s.blk.flag (U.hd k) F.HD_BIND_V = true ∧ s.blk.reg (U.hd k) R.HD_SERIAL = serial
    let only := bound h ∧ ∀ k, k < 512 → bound k → k = h
    let here := s.blk.flag u F.HD_BIND_ANY_PORT = true ∨ s.blk.fld u F.HD_BIND_PORT = q
    let accepted := fun (t : State) => t.blk.fld fu F.FH_RX_CNT_FRAMES = (s.blk.fld fu F.FH_RX_CNT_FRAMES + 1) % 2 ^ 32
    let refused := fun (t : State) => accepted t ∧ t.blk.fld fu F.FH_UNKNOWN_SERIAL = serial.toNat ∧ Adds s t fu F.FH_UNKNOWN_CNT_COUNT 1 ∧ Cause t fu 18 ∧
      t.blk.hdOut = s.blk.hdOut ∧ MemSame s t
    let taken := fun (t : State) => t.blk.fld u F.HD_BIND_RESULT = 1 ∧ (t.blk.hdH h).port = some q ∧ (t.blk.hdH h).known = true ∧
      t.blk.hdOut = s.blk.hdOut ++ [.admitHead h q (s.blk.fld fu F.FH_MAC_MAC)] ∧ Cause t u 16 ∧ t.blk.fld u F.HD_CAP_PORTS = ports ∧ t.blk.fld u F.HD_CAP_FMT = fmt ∧
      t.blk.fld u F.HD_CAP_RATES = rates ∧ t.blk.fld u F.HD_CAP_DMAX = dmax ∧ t.blk.fld u F.HD_HEAD_LAT_HEAD_DL = dl ∧
      t.blk.fld u F.HD_HEAD_LAT_HEAD_UL = ul ∧ t.blk.fld u F.HD_MAC_MAC = mac.toNat ∧ MemSame s t
    (s.blk.fld fu F.FH_STAT_LINK ≠ 2 → Ends c s fun t => t = s) ∧
    (s.blk.fld fu F.FH_STAT_LINK = 2 →
      ((∀ k, k < 512 → ¬ bound k) → Ends c s fun t => refused t ∧ RegsKept s t (fun v _ => v == fu)) ∧
      (only → ¬ here → Ends c s fun t => refused t ∧ t.blk.fld u F.HD_BIND_RESULT = 2 ∧ t.blk.ownState u = s.blk.ownState u) ∧
      (∀ k, k < 512 → k ≠ h → bound k → bound h → Ends c s fun t => refused t ∧ t.blk.fld u F.HD_BIND_RESULT = 3 ∧ t.blk.fld (U.hd k) F.HD_BIND_RESULT = 3) ∧
      (only → here → (s.blk.hdH h).known = false → s.blk.ownState u = 0 → Ends c s fun t => taken t ∧ (t.blk.hdH h).measuring = true ∧ Adds s t fu F.FH_STAT_HEADS 1) ∧
      (only → here → (s.blk.hdH h).known = false → s.blk.ownState u = 4 → s.blk.flag u F.HD_CFG_AUTO_RE = true ∨ (s.blk.hdH h).admitFrom ≠ none → Ends c s fun t =>
        taken t ∧ (t.blk.hdH h).measuring = true ∧ (t.blk.hdH h).admitFrom = some ((s.blk.hdH h).admitFrom.getD s.blk.t)) ∧
      (only → here → s.blk.ownState u = 4 → s.blk.flag u F.HD_CFG_AUTO_RE = false → (s.blk.hdH h).admitFrom = none → Ends c s fun t =>
        accepted t ∧ t.blk.hdH h = s.blk.hdH h ∧ t.blk.hdOut = s.blk.hdOut ∧ (RegsKept s t fun v off => v == fu && off == R.FH_RX_CNT) ∧ MemSame s t) ∧
      (only → here → s.blk.ownState u ∈ [1, 2, 5] → s.blk.inReset = false → NoGroups s → ratesOk s h → s.blk.fld u F.HD_HEAD_LAT_HEAD_DL = dl →
        s.blk.fld u F.HD_HEAD_LAT_HEAD_UL = ul → Reaches s h (s.blk.fld u F.HD_PATH_TP) dmax → (s.blk.hdH h).addDl = 0 → (s.blk.hdH h).addUl = 0 → (s.blk.hdH h).align = [] →
        needs s h (s.blk.fld u F.HD_PATH_TP) false + 64 ≤ s.blk.fld u F.HD_LAT_D_DL → needs s h (s.blk.fld u F.HD_PATH_TP) true + 64 ≤ s.blk.fld u F.HD_LAT_D_UL →
        Ends c s fun t => taken t ∧ accepted t ∧ t.blk.ownState u = s.blk.ownState u ∧ (t.blk.hdH h).align = []))

/-- R275, R277, R280: the measured latency takes a page under admission to READY, or to ACTIVE with ENABLE = 1, with D rounded up to 64 Tc, and fences one that
needs more than it accepts, or whose unfence is 2 s old; for a head in use a greater need starts a realign, which a write may ask for as well. -/
def Sys2Proof.Spec.HeadLatency : Prop :=
  ∀ (who : Who) (h tp : Nat) (s : State), h < 512 → tp < 2 ^ 24 → Settled s → s.blk.inReset = false → NoGroups s → ratesOk s h →
    let u := U.hd h
    let r := s.blk.hdH h
    let dmax := s.blk.fld u F.HD_CAP_DMAX
    let c := Instr.hdLatencyMeasured h tp
    let live := s.blk.ownState u ∈ [1, 2, 5]
    let now := s.blk.fld u F.HD_PATH_TP
    let fits := fun (n : Nat) => needs s h n false ≤ s.blk.fld u F.HD_LAT_D_DL ∧ needs s h n true ≤ s.blk.fld u F.HD_LAT_D_UL
    let ovr := fun (n : Nat) => s.blk.fld u F.HD_LAT_D_DL < needs s h n false ∨ s.blk.fld u F.HD_LAT_D_UL < needs s h n true
    let clean := r.addDl = 0 ∧ r.addUl = 0 ∧ r.align = [] ∧ s.blk.fld u F.HD_LAT_D_DL % 64 = 0 ∧ s.blk.fld u F.HD_LAT_D_UL % 64 = 0
    (∀ t0, r.measuring = true → s.blk.ownState u = 4 → r.admitFrom = some t0 → t0 + 3932160000 < s.blk.t → Ends c s fun t => Fences s t u C.hdLost ∧ MemSame s t) ∧
    (r.measuring = true → s.blk.ownState u ∈ [0, 4] → (∀ t0, s.blk.ownState u = 4 → r.admitFrom = some t0 → s.blk.t ≤ t0 + 3932160000) →
      (Reaches s h tp dmax → Ends c s fun t => t.blk.fld u F.HD_PATH_TP = tp ∧ t.blk.fld u F.UNIT_STATE_PWR = 2 ∧ (t.blk.hdH h).measuring = false ∧
        Up64 (t.blk.fld u F.HD_LAT_D_DL) (needs s h tp false) ∧ Up64 (t.blk.fld u F.HD_LAT_D_UL) (needs s h tp true) ∧ (t.blk.hdH h).lastStatus = s.blk.t ∧
        (s.blk.flag u F.UNIT_CTRL_ENABLE = false → t.blk.ownState u = 1) ∧ (s.blk.flag u F.UNIT_CTRL_ENABLE = true → t.blk.ownState u = 2) ∧ MemSame s t) ∧
      (TooFar s h tp dmax → Ends c s fun t => Fences s t u C.hdLatency ∧ MemSame s t)) ∧
    (r.measuring = false → live → Reaches s h tp dmax → clean →
      (fits tp → Ends c s fun t => t.blk.fld u F.HD_PATH_TP = tp ∧ RegsKept s t (fun v off => v == u && off == R.HD_PATH) ∧ MemSame s t) ∧
      (ovr tp → Ends c s fun t => t.blk.fld u F.HD_PATH_TP = tp ∧ Realigns s t h ∧ MemSame s t)) ∧
    (r.measuring = false → live → TooFar s h tp dmax → Ends c s fun t => Fences s t u C.hdLatency ∧ MemSame s t) ∧
    (r.measuring = false → ¬ live → s.blk.ownState u ≠ 3 → Ends c s fun t => t = s) ∧
    (Takes s who u → s.blk.time.coll = [] → live →
      (Reaches s h now dmax → Ends (.hdRealignReq who h) s fun t => Realigns s t h ∧ (t.blk.hdH h).addDl = 0 ∧ (t.blk.hdH h).addUl = 0 ∧
        Up64 (((t.blk.hdH h).align.getLast?.map (·.dl)).getD 1) (needs s h now false) ∧ Up64 (((t.blk.hdH h).align.getLast?.map (·.ul)).getD 1) (needs s h now true) ∧ MemSame s t) ∧
      (TooFar s h now dmax → Ends (.hdRealignReq who h) s fun t => Fences s t u C.hdLatency ∧ MemSame s t))

/-- R271, R275, R276, R278, R280, R282: a STATUS refreshes what the head reports; the third offset in a row beyond TE_MAX, no STATUS for LOSS, and no
admission within 2 s of an unfence request each fence it, which mutes it; late downlink frames in two STATUS realign it; no STATUS for 1 ms sets STALE; a BEAT goes to
every admitted head each 1 ms; new output levels are sent to apply D_DL after their write. -/
def Sys2Proof.Spec.HeadSupervision : Prop :=
  ∀ (who : Who) (half : Half) (h q lost late : Nat) (off : BitVec 32) (mute : Bool) (v : Word) (s : State), h < 512 → q < 8 → Settled s → s.blk.inReset = false →
    NoGroups s → ratesOk s h →
    let u := U.hd h
    let r := s.blk.hdH h
    let live := s.blk.ownState u ∈ [1, 2, 5]
    let up := r.port = some q ∧ s.blk.fld (U.fh q) F.FH_STAT_LINK = 2
    let beyond := s.blk.fld u F.HD_CFG_TE_MAX < off.toInt.natAbs
    let c := Instr.statusRx h off lost late mute
    let accepted := fun (t : State) => t.blk.fld (U.fh q) F.FH_RX_CNT_FRAMES = (s.blk.fld (U.fh q) F.FH_RX_CNT_FRAMES + 1) % 2 ^ 32
    let report := fun (t : State) => t.blk.flag u F.HD_STAT_MUTED = mute ∧ t.blk.flag u F.HD_STAT_STALE = false ∧ t.blk.fld u F.HD_STAT_OFFSET = off.toNat ∧
      Adds s t u F.HD_HEALTH_GAP_DL (lost + late) ∧ (0 < lost + late → Cause t u 18) ∧ MemSame s t
    let fenced := fun (t : State) (code : Nat) => Fences s t u code ∧ (r.known = true → .mute h none ∈ t.blk.hdOut) ∧ MemSame s t
    let silent := fun (n : Nat) => DueNow s (r.lastStatus + n * 1966080)
    (live → up → ¬ (beyond ∧ 2 ≤ r.offRun) → (late = 0 ∨ r.dlLate = false) → Ends c s fun t => report t ∧ (t.blk.hdH h).lastStatus = s.blk.t ∧
      (t.blk.hdH h).offRun = (if beyond then r.offRun + 1 else 0) ∧ (t.blk.hdH h).dlLate = decide (0 < late) ∧ t.blk.ownState u = s.blk.ownState u ∧
      accepted t ∧ RegsKept s t (fun w off => w == u || (w == U.fh q && off == R.FH_RX_CNT))) ∧
    (live → up → beyond → r.offRun = 2 → Ends c s fun t => Fences s t u C.hdTime ∧ (r.known = true → .mute h none ∈ t.blk.hdOut) ∧ MemSame s t) ∧
    (live → up → ¬ beyond → 0 < late → r.dlLate = true → r.addDl = 0 → r.align = [] → Reaches s h (s.blk.fld u F.HD_PATH_TP + s.blk.fld u F.HD_CFG_GUARD) (s.blk.fld u F.HD_CAP_DMAX) →
      Ends c s fun t => report t ∧ Realigns s t h ∧ (t.blk.hdH h).addDl = 1) ∧
    (¬ live → s.blk.ownState u ≠ 3 → up → Ends c s fun t => accepted t ∧ t.blk.hdH h = r ∧ (RegsKept s t fun w off => w == U.fh q && off == R.FH_RX_CNT) ∧ MemSame s t) ∧
    ((∀ p, r.port = some p → s.blk.fld (U.fh p) F.FH_STAT_LINK ≠ 2) → Ends c s fun t => t = s) ∧
    (live → s.blk.flag u F.HD_STAT_STALE = false → silent 1 → Ends (.hdStatusStale h) s fun t => t.blk.flag u F.HD_STAT_STALE = true ∧ Cause t u 19 ∧
      RegsKept s t (fun w _ => w == u) ∧ MemSame s t) ∧
    (s.blk.flag u F.HD_STAT_STALE = true → Ends (.hdStatusStale h) s fun t => t = s) ∧
    (live → silent (s.blk.fld u F.HD_CFG_LOSS) → Ends (.hdLossTimeout h) s fun t => fenced t C.hdLost) ∧
    (¬ live → s.blk.ownState u ≠ 3 → Ends (.hdLossTimeout h) s fun t => t = s) ∧
    (∀ t0, r.admitFrom = some t0 → s.blk.ownState u = 4 → DueNow s (t0 + 3932160000) → Ends (.hdAdmitTimeout h) s fun t => Fences s t u C.hdLost ∧ MemSame s t) ∧
    (r.admitFrom = none → Ends (.hdAdmitTimeout h) s fun t => t = s) ∧
    (DueNow s s.blk.fhBeat → Ends .beatSend s fun t => t.blk.hdOut = s.blk.hdOut ++ s.blk.admittedHeads.map (fun k => .beat k s.blk.time.air) ∧
      t.blk.fhBeat = s.blk.fhBeat + 1966080 ∧ MemSame s t) ∧
    (live → r.known = true → h ∈ s.blk.admittedHeads) ∧ (h ∈ s.blk.admittedHeads → s.blk.ownState u ≠ 3 → live) ∧
    (Takes s who u → s.blk.time.coll = [] → half ≠ .hi → Ends (.hdGpioWrite who h half v) s fun t => t.blk.fld u F.HD_GPIO_LEVEL = v.toNat % 2 ^ 16 ∧
      (live → t.blk.hdOut = s.blk.hdOut ++ [.gpio h (v.toNat % 2 ^ 16) (s.blk.time.air + s.blk.fld u F.HD_LAT_D_DL)]) ∧
      (¬ live → s.blk.ownState u ≠ 3 → t.blk.hdOut = s.blk.hdOut) ∧ MemSame s t)

/-- R265 to R282: the fronthaul ports and the remote heads. -/
def Obligations.Fronthaul : Prop := PortLinks ∧ UplinkFrames ∧ HeadAdmission ∧ HeadLatency ∧ HeadSupervision

namespace Sys2Proof.Spec

/-- Pseudo-channel `i` serves: it is neither FENCED nor FAILED, and its stack is ON (R286, R294). -/
abbrev serves (s : State) (i : Nat) : Prop :=
  s.blk.ownState (U.pc i) ≠ 4 ∧ s.blk.ownState (U.pc i) ≠ 6 ∧ s.blk.fld (U.hs (i / 32)) F.UNIT_STATE_PWR = 2

/-- Requests outstanding in the device. -/
def outstanding (s : State) : Nat := ((List.range 64).map fun i => s.blk.fld (U.pc i) F.PC_STAT_OUTST).sum

/-- The tally counts nothing. -/
abbrev noTally (s : State) : Prop := s.blk.tally.cfg = []

/-- The class of a requester (R287): 1 DELAY, 2 MODEL, 3 RING, 4 CELLAR, 5 SCRATCH. -/
def requestClass : HbmBy → Nat
  | .delay => 1
  | .model => 2
  | .ring => 3
  | .cellar => 4
  | .dma | .writeBack | .bank | .window _ | .scrub | .repair => 5

/-- A requester reads the cellar window. -/
abbrev isWin (r : HbmBy) : Prop := ∃ w, r = .window w

/-- Where a request reaches HBM: one of the cellar window within its 16 MiB, from the PF or the warden (R301), and every other. -/
def reaches (s : State) (r : HbmBy) (o : Nat) : Prop :=
  let base := s.blk.regionBase 4 + s.blk.fld U.cel F.CEL_WIN_BASE * 2 ^ 24
  ∀ w, r = .window w → (w = .pf ∨ w = .warden) ∧ base ≤ o ∧ o < base + 2 ^ 24

/-- A field of unit `u` that reads as before. -/
def Same (s t : State) (u : Nat) (f : Fld) : Prop := t.blk.fld u f = s.blk.fld u f

end Sys2Proof.Spec

/-- R284, R287 to R290, R292, R294, R301, R305: a request issues while its pseudo-channel has fewer than 64 and the device fewer than 4,096, and no soft repair of the
last 4,096 Tc holds it, else it waits and counts; a completion frees its slot to the oldest waiting request of the highest class, a write ends its sector's mark,
and a read of the cellar window answers its eight bytes; a channel that does not serve takes none, and answers the window with zero and WIN_UE, as does a
marked sector. -/
def Sys2Proof.Spec.HbmRequests : Prop :=
  ∀ (who : Who) (r : HbmBy) (o err row : Nat) (wr : Bool) (s : State), o < 2 ^ 37 → Settled s → noTally s →
    let i := o / 256 % 64
    let u := U.pc i
    let n := s.blk.fld u F.PC_STAT_OUTST
    let still := ∀ x, (s.blk.pcH i).repair = some x → x.2 + 4096 ≤ s.blk.t
    let free := n < 64 ∧ outstanding s < 4096 ∧ (r = .repair ∨ still)
    let key := hbmKey r i wr
    let mine := Store.get 0 s.blk.hbm.outst key
    let page := fun (t : State) => RegsKept s t (fun v off => v == u && off == R.PC_STAT) ∧ MemSame s t
    let sound := wr = true ∨ (err = 0 ∧ o / 32 ∉ s.blk.hbm.ue ∧ serves s i)
    let read := fun (t : State) => wr = false → isWin r → t.blk.rdata = BitVec.ofNat 64 (s.mem.rdBytes (o / 8 * 8) 8)
    let none_ : HbmBy × Nat × Bool := (.delay, 0, false)
    let cls := fun (k : Nat) => requestClass (s.blk.hbm.waiting.getD k none_).1
    let freed := fun (t : State) => Store.get 0 t.blk.hbm.outst key = mine - 1
    (¬ reaches s r o → Ends (.hbmRequest r o wr) s fun t => t.blk.rdata = 0 ∧ t.blk.regs = s.blk.regs ∧ t.blk.hbm = s.blk.hbm ∧ MemSame s t) ∧
    (reaches s r o → ¬ serves s i →
      (¬ isWin r → Ends (.hbmRequest r o wr) s fun t => t = s) ∧
      (isWin r → Ends (.hbmRequest r o wr) s fun t => t.blk.rdata = 0 ∧ t.blk.flag U.cel F.CEL_STAT_WIN_UE = true ∧ t.blk.hbm = s.blk.hbm ∧
        (RegsKept s t fun v off => v == U.cel && off == R.CEL_STAT) ∧ MemSame s t)) ∧
    (reaches s r o → serves s i → free → Ends (.hbmRequest r o wr) s fun t => t.blk.fld u F.PC_STAT_OUTST = n + 1 ∧
      t.blk.fld u F.PC_STAT_PEAK = max (n + 1) (s.blk.fld u F.PC_STAT_PEAK) ∧ t.blk.hbm.waiting = s.blk.hbm.waiting ∧
      Store.get 0 t.blk.hbm.outst key = mine + 1 ∧ Same s t u F.PC_STAT_WAITS ∧ page t) ∧
    (reaches s r o → serves s i → ¬ free → Ends (.hbmRequest r o wr) s fun t => t.blk.hbm.waiting = s.blk.hbm.waiting ++ [(r, i, wr)] ∧
      Adds s t u F.PC_STAT_WAITS 1 ∧ t.blk.hbm.outst = s.blk.hbm.outst ∧ Same s t u F.PC_STAT_OUTST ∧ page t) ∧
    (mine = 0 → Ends (.hbmComplete r o wr ⟨err, row⟩) s fun t => t = s) ∧
    (0 < mine → 0 < n → sound →
      (s.blk.hbm.waiting = [] → Ends (.hbmComplete r o wr ⟨err, row⟩) s fun t => t.blk.fld u F.PC_STAT_OUTST = n - 1 ∧ freed t ∧
        t.blk.hbm.waiting = [] ∧ read t ∧ page t) ∧
      (s.blk.hbm.waiting ≠ [] → (∀ x ∈ s.blk.hbm.waiting, x.2.1 = i) → n ≤ 64 → outstanding s ≤ 4096 → still →
        Ends (.hbmComplete r o wr ⟨err, row⟩) s fun t => t.blk.fld u F.PC_STAT_OUTST = n ∧ read t ∧
          (∃ j ∈ List.range s.blk.hbm.waiting.length, t.blk.hbm.waiting = s.blk.hbm.waiting.eraseIdx j ∧
            (∀ k ∈ List.range s.blk.hbm.waiting.length, cls j ≤ cls k) ∧ (∀ k ∈ List.range j, cls j < cls k)) ∧ page t)) ∧
    (0 < mine → wr = true → serves s i → r ≠ .scrub → r ≠ .repair → Ends (.hbmComplete r o wr ⟨err, row⟩) s fun t => o / 32 ∉ t.blk.hbm.ue ∧
      ∀ x, x ≠ o / 32 → (x ∈ t.blk.hbm.ue ↔ x ∈ s.blk.hbm.ue)) ∧
    (0 < mine → wr = false → isWin r → ¬ serves s i ∨ err = 2 ∨ o / 32 ∈ s.blk.hbm.ue → Ends (.hbmComplete r o wr ⟨err, row⟩) s fun t =>
      t.blk.rdata = 0 ∧ t.blk.flag U.cel F.CEL_STAT_WIN_UE = true) ∧
    (Takes s who u → s.blk.time.coll = [] → Ends (.pcPeakClr who i) s fun t => t.blk.fld u F.PC_STAT_PEAK = 0 ∧ Same s t u F.PC_STAT_OUTST ∧
      Same s t u F.PC_STAT_WAITS ∧ page t)

/-- R289, R291, R292, R294: a corrected and an uncorrectable error, met by a request or by the patrol scrubber; the fourth corrected error of a row within an hour and
the first uncorrectable one start its soft repair, the scrubber's read waiting as any request does, counted with UNREP where none is left; more than eight uncorrectable rows within 1 s fence the
channel; a repair takes one resource, and rows that came under way follow it (the order is the model's choice, log entry 103). -/
def Sys2Proof.Spec.HbmErrors : Prop :=
  ∀ (by_ : HbmBy) (o err row : Nat) (s : State), o < 2 ^ 37 → Settled s → noTally s → s.blk.inReset = false →
    let i := o / 256 % 64
    let u := U.pc i
    let hs := U.hs (i / 32)
    let p := s.blk.pcH i
    let left := s.blk.fld u F.PC_REPAIR_SOFT_LEFT
    let asked := 0 < Store.get 0 s.blk.hbm.outst (hbmKey by_ i false) ∧ s.blk.hbm.waiting = [] ∧ serves s i
    let recent := (((p.rows.find? fun r => r.row == row).map (·.ces)).getD []).filter fun x => decide (s.blk.t < x + 7077888000000)
    let other := (p.ues.filter fun x => x.1 != row && decide (s.blk.t < x.2 + 1966080000)).length
    let bad := err = 2 ∨ o / 32 ∈ s.blk.hbm.ue
    let ce := fun (t : State) => Adds s t u F.PC_ECC_CE 1 ∧ Adds s t hs F.HS_ECC_CE 1 ∧ Same s t u F.PC_ECC_UE
    let ue := fun (t : State) => Adds s t u F.PC_ECC_UE 1 ∧ Adds s t hs F.HS_ECC_UE 1 ∧ Same s t u F.PC_ECC_CE ∧ t.blk.fld u F.PC_ERR_ADDR_OFFSET = o / 32 * 32 ∧
      t.blk.flag u F.PC_ERR_ADDR_V = true ∧ Cause t u 16 ∧ o / 32 ∈ t.blk.hbm.ue
    let pages := fun (t : State) => RegsKept s t (fun v off => v == u || v == hs || v == 0 ||
      (isWindow by_ && v == U.cel && off == R.CEL_STAT)) ∧ MemSame s t
    let unrep := fun (t : State) => Adds s t u F.PC_REPAIR_UNREP 1 ∧ Cause t u 18 ∧ (t.blk.pcH i).repair = none ∧ Adds s t u F.UNIT_FAULT_CORR_CNT 2
    let c := Instr.hbmComplete by_ o false ⟨err, row⟩
    let hours := s.blk.fld hs F.HS_SCRUB_HOURS
    let sector := p.scrub / 8 * 16384 + i * 256 + p.scrub % 8 * 32
    (asked → err = 1 → ¬ bad → p.repair = none →
      (recent.length < 3 → Ends c s fun t => ce t ∧ Corrected s t u ∧ (t.blk.pcH i).repair = none ∧ pages t) ∧
      (3 ≤ recent.length → 0 < left → Ends c s fun t => ce t ∧ Corrected s t u ∧ (t.blk.pcH i).repair = some (row, s.blk.t) ∧ pages t) ∧
      (3 ≤ recent.length → left = 0 → Ends c s fun t => ce t ∧ unrep t ∧ pages t)) ∧
    (asked → bad → other < 8 → row ∈ p.ueRows → Ends c s fun t => ue t ∧ Corrected s t u ∧ (t.blk.pcH i).repair = p.repair ∧ pages t) ∧
    (∀ y, asked → bad → other < 8 → row ∉ p.ueRows → p.repair = some y → Ends c s fun t => ue t ∧ Corrected s t u ∧ (t.blk.pcH i).repair = p.repair ∧
      row ∈ (t.blk.pcH i).want ∧ pages t) ∧
    (asked → bad → p.repair = none → other < 8 → row ∉ p.ueRows →
      (0 < left → Ends c s fun t => ue t ∧ Corrected s t u ∧ (t.blk.pcH i).repair = some (row, s.blk.t) ∧ pages t) ∧
      (left = 0 → Ends c s fun t => ue t ∧ unrep t ∧ pages t)) ∧
    (asked → bad → 8 ≤ other → Ends c s fun t => ue t ∧ Fences s t u C.hbmPcFail) ∧
    (∀ x r, p.repair = some (row, x) → p.want = [r] → s.blk.hbm.waiting = [] → 1 < left → Ends (.softRepairDone i) s fun t =>
      t.blk.fld u F.PC_REPAIR_SOFT_LEFT = left - 1 ∧ (t.blk.pcH i).repair = some (r, s.blk.t) ∧ MemSame s t) ∧
    (∀ x, p.repair = some (row, x) → p.want = [] → s.blk.hbm.waiting = [] → Ends (.softRepairDone i) s fun t => t.blk.fld u F.PC_REPAIR_SOFT_LEFT = left - 1 ∧
      Adds s t u F.PC_REPAIR_SOFT_USED 1 ∧ Cause t u 17 ∧ (t.blk.pcH i).repair = none ∧ RegsKept s t (fun v _ => v == u) ∧ MemSame s t) ∧
    (p.repair = none → Ends (.softRepairDone i) s fun t => t = s) ∧
    (hours = 0 ∨ ¬ serves s i → Ends (.patrolScrub i err row) s fun t => t = s) ∧
    let may := s.blk.fld u F.PC_STAT_OUTST < 64 ∧ outstanding s < 4096 ∧ ∀ x, p.repair = some x → x.2 + 4096 ≤ s.blk.t
    (0 < hours → serves s i → DueNow s (p.scrubAt + hours * 7077888000000 / 2 ^ 26) → ¬ may → Ends (.patrolScrub i err row) s fun t =>
      (t.blk.pcH i).scrub = (p.scrub + 1) % 2 ^ 26 ∧ t.blk.hbm.waiting = s.blk.hbm.waiting ++ [(.scrub, i, false)] ∧ Adds s t u F.PC_STAT_WAITS 1 ∧
      (RegsKept s t fun v off => v == u && off == R.PC_STAT) ∧ MemSame s t) ∧
    (0 < hours → serves s i → DueNow s (p.scrubAt + hours * 7077888000000 / 2 ^ 26) → may → s.blk.hbm.waiting = [] → o = sector →
      (err = 0 → ¬ bad → Ends (.patrolScrub i err row) s fun t => (t.blk.pcH i).scrub = (p.scrub + 1) % 2 ^ 26 ∧ Same s t u F.PC_STAT_OUTST ∧
        (RegsKept s t fun v off => v == u && off == R.PC_STAT) ∧ MemSame s t) ∧
      (err = 1 → ¬ bad → recent.length < 3 → Ends (.patrolScrub i err row) s fun t => (t.blk.pcH i).scrub = (p.scrub + 1) % 2 ^ 26 ∧ ce t ∧ Corrected s t u ∧
        pages t) ∧
      (bad → other < 8 → row ∉ p.ueRows → p.repair = none → 0 < left → Ends (.patrolScrub i err row) s fun t => ue t ∧ (t.blk.pcH i).repair = some (row, s.blk.t) ∧ pages t))

namespace Sys2Proof.Spec

/-- Units of a stream entry (R297), 0 where it is not valid. -/
def streamUnits (s : State) (w : Word) : Nat :=
  if w.getLsbD 63 = false then 0 else if w.toNat % 4 = 2 then w.toNat / 2 ^ 24 % 64 else 2 ^ min 4 (s.blk.rateOf (w.toNat / 2 ^ 8 % 128))

/-- Units of the whole stream set. -/
def setUnits (s : State) : Nat := ((Store.view s.blk.cel.sdata).map fun x => streamUnits s x.2).sum

/-- A valid stream set (R297). -/
abbrev setValid (s : State) : Prop :=
  setUnits s ≤ 2048 ∧ ∀ x ∈ Store.view s.blk.cel.sdata, x.2.getLsbD 63 = true → x.2.toNat % 4 ≠ 3 ∧
    (x.2.toNat % 4 = 2 → x.2.toNat / 2 ^ 8 % 128 < 32 ∧ x.2.toNat / 2 ^ 32 % 2 ^ 14 + (512 * (x.2.toNat / 2 ^ 24 % 64) + 9) / 10 ≤ 16384) ∧
    (x.2.toNat % 4 < 2 → s.blk.rateOf (x.2.toNat / 2 ^ 8 % 128) < 5)

/-- Place of a record's entry in the index (R298). -/
def indexPos (stamp : Word) : Nat := (stamp.toNat / 2 ^ 25 * 1200 + stamp.toNat % 2 ^ 25 / 16384) % 2 ^ 24

end Sys2Proof.Spec

/-- R297, R299, R300, R306: RUN with a valid set starts at the next tick boundary, with a broken one it is refused; RUN = 0 ends capture at the end of the interval;
the first enabled trigger of a run leaves ceil((16 − PRE)/16 × N_rec) records to write, later ones count; REARM; the stream entries are limited to their ranges, and refused while capturing. -/
def Sys2Proof.Spec.CellarControl : Prop :=
  ∀ (who : Who) (v : Word) (s : State), Takes s who U.cel → s.blk.time.coll = [] →
    let u := U.cel
    let st := s.blk.fld u F.CEL_STAT_STATE
    let c := s.blk.cel
    let pre := s.blk.fld u F.CEL_CFG_PRE
    let left := ((16 - pre) * s.blk.fld u F.CEL_GEOM_RECORDS + 15) / 16
    let cue := (match who with | .cue _ _ _ => true | _ => false)
    let on := s.blk.flag u (if cue then F.CEL_CFG_T_CUE else F.CEL_CFG_T_HOST)
    let bitOf := if cue then 4 else 8
    let page := fun (t : State) => RegsKept s t (fun x _ => x == u) ∧ MemSame s t
    let e := s.blk.fld u F.CEL_SADDR_ENTRY
    let n := v.toNat / 2 ^ 24 % 64
    let sound := 1 ≤ n ∧ n ≤ 32 ∧ (v.toNat % 4 = 2 → v.toNat / 2 ^ 8 % 128 < 32)
    (st = 0 → setValid s → Ends (.cellarRun who true) s fun t => t.blk.cel.startDue = true ∧ t.blk.flag u F.CEL_CTRL_RUN = true ∧ Same s t u F.CEL_STAT_STATE ∧
      page t) ∧
    (st = 0 → ¬ setValid s → Ends (.cellarRun who true) s fun t => t.blk.cel.startDue = c.startDue ∧ t.blk.flag u F.CEL_STAT_CFG_REJ = true ∧ Corrected s t u ∧
      Same s t u F.CEL_STAT_STATE ∧ MemSame s t) ∧
    (Ends (.cellarRun who false) s fun t => t.blk.flag u F.CEL_CTRL_RUN = false ∧ t.blk.cel.startDue = false ∧ t.blk.cel.rearmDue = false ∧
      t.blk.cel.releaseDue = false ∧ (c.ivFrom ≠ none → t.blk.cel.stopDue = true ∧
      Same s t u F.CEL_STAT_STATE) ∧ (c.ivFrom = none → t.blk.fld u F.CEL_STAT_STATE = 0) ∧ page t) ∧
    (st = 1 → on = true → pre ≤ 16 → s.blk.fld u F.CEL_GEOM_RECORDS < 2 ^ 28 → Ends (.celFreeze who) s fun t => t.blk.fld u F.CEL_TRIG_CAUSE = bitOf ∧
      t.blk.fld u F.CEL_TRIG_UID = u ∧ t.blk.reg u R.CEL_TRIG_STAMP = s.blk.now ∧ t.blk.fld u F.CEL_POST_LEFT = left ∧ Cause t u 16 ∧
      t.blk.fld u F.CEL_STAT_STATE = (if left = 0 then 3 else 2) ∧ (left = 0 → Cause t u 17 ∧ t.blk.cel.ivFrom = none) ∧ page t) ∧
    (st = 2 ∨ st = 3 → on = true → c.trigAt ≠ some s.blk.t → Ends (.celFreeze who) s fun t => Adds s t u F.CEL_TRIG_IGNORED 1 ∧ Same s t u F.CEL_TRIG_CAUSE ∧
      Same s t u F.CEL_STAT_STATE ∧ t.blk.cel = c ∧ page t) ∧
    (st = 4 → c.before = 1 → on = true → Ends (.celFreeze who) s fun t => t.blk.cel.before = 2 ∧ Same s t u F.CEL_STAT_STATE ∧ page t) ∧
    (on = false ∨ st = 0 → Ends (.celFreeze who) s fun t => t.blk.cel = c ∧ t.blk.regs = s.blk.regs ∧ MemSame s t) ∧
    (Ends (.celRearm who) s fun t => (st = 3 → s.blk.flag 0 F.FLT_MODE_FATAL = false → t.blk.cel.rearmDue = true) ∧ (st ≠ 3 → t.blk.cel = c) ∧
      t.blk.regs = s.blk.regs ∧ MemSame s t) ∧
    (whoPfSys who = true → (st = 0 ∨ st = 3) → ¬ sound → Ends (.celSdataWrite who .both v) s fun t => Corrected s t u ∧ Word.fld (t.blk.celEntry e) 29 24 = max 1 (min 32 n) ∧
      (∀ k, k ≠ e → t.blk.celEntry k = s.blk.celEntry k) ∧ MemSame s t) ∧
    (whoPfSys who = true → (st = 0 ∨ st = 3) → sound → Ends (.celSdataWrite who .both v) s fun t => t.blk.celEntry e = v &&& 0x80003FFF3F077F03 ∧
      t.blk.fld u F.CEL_STAT_UNITS = setUnits t % 2 ^ 12 ∧ t.blk.fld u F.CEL_SADDR_ENTRY = (if s.blk.flag u F.CEL_SADDR_AUTOINC then (e + 1) % 512 else e) ∧
      (∀ k, k ≠ e → t.blk.celEntry k = s.blk.celEntry k) ∧ page t) ∧
    (whoPfSys who = true → (st = 1 ∨ st = 2 ∨ st = 4) → Ends (.celSdataWrite who .both v) s fun t => t.blk.cel = c ∧ Corrected s t u ∧ MemSame s t) ∧
    (whoPfSys who = false → Ends (.celSdataWrite who .both v) s fun t => t = s)

/-- R297 to R299: an interval's end queues its record, under the next SEQ, with TRIG and STEP; the ninth interval behind is lost; POST, RUN = 0 and a hold end
capture there; a tap that carries nothing gives zeros with GAP, and a block whose uplink frame was missing (the model's `celGap`, R270) carries GAP. A record is written at the next place of the data area with its index entry after it. -/
def Sys2Proof.Spec.CellarRecords : Prop :=
  ∀ (data t0 a j : Nat) (s : State), Settled s →
    let u := U.cel
    let c := s.blk.cel
    let st := s.blk.fld u F.CEL_STAT_STATE
    let left := s.blk.fld u F.CEL_POST_LEFT
    let seq := s.blk.fld u F.CEL_SEQ_SEQ
    let trig := match c.trigAt with | some x => decide (t0 ≤ x) | none => false
    let flags := (if trig then 1 else 0) + (if c.ivStep then 2 else 0)
    let next := fun (t : State) => t.blk.fld u F.CEL_SEQ_SEQ = (if seq = 2 ^ 48 - 1 then 1 else seq + 1)
    let last := fun (t : State) => { t.blk.cel.queue.getLastD {} with data := 0 }
    let base := s.blk.fld (U.hs 0) (F.MEM_REGION_BASE 4) * 2 ^ 26
    let size := s.blk.fld u F.CEL_GEOM_RECSIZE
    let places := s.blk.fld u F.CEL_GEOM_RECORDS
    let goes := st = 1 ∨ (st = 2 ∧ 2 ≤ left)
    (c.ivFrom = none → Ends (.cellarIntervalEnd data) s fun t => t = s) ∧
    (c.ivFrom = some t0 → DueNow s (t0 + 16384) → c.queue.length < 8 → (∀ i, i < 64 → serves s i) → Ends (.cellarIntervalEnd data) s fun t => next t ∧
      t.blk.cel.queue.length = c.queue.length + 1 ∧ t.blk.cel.queue.dropLast = c.queue ∧
      last t = { stamp := c.ivStamp, seq := seq, version := c.version, units := s.blk.fld u F.CEL_STAT_UNITS, flags := flags } ∧
      Same s t u F.CEL_STAT_DROPS ∧ (st = 2 → 1 ≤ left → t.blk.fld u F.CEL_POST_LEFT = left - 1) ∧ (st = 1 → Same s t u F.CEL_POST_LEFT) ∧
      (c.stopDue = true → t.blk.fld u F.CEL_STAT_STATE = 0 ∧ t.blk.cel.ivFrom = none) ∧
      (c.stopDue = false → st = 2 → left = 1 → t.blk.fld u F.CEL_STAT_STATE = 3 ∧ Cause t u 17 ∧ t.blk.cel.ivFrom = none) ∧
      (c.stopDue = false → c.holdDue = true → goes → t.blk.fld u F.CEL_STAT_STATE = 4 ∧ t.blk.cel.before = st ∧ t.blk.cel.ivFrom = none) ∧
      (c.stopDue = false → c.holdDue = false → goes → Same s t u F.CEL_STAT_STATE ∧ t.blk.cel.ivFrom = some s.blk.t ∧ t.blk.cel.ivStamp = s.blk.now) ∧
      (∀ e w, c.sdata = [(e, w)] → j < 32 * streamUnits s w →
        let q := (t.blk.cel.queue.getLastD {}).data / 2 ^ (128 * j) % 2 ^ 128
        let src := data / 2 ^ (128 * j) % 2 ^ 128
        bfCrcOk (BitVec.ofNat 128 q) = true ∧ (s.blk.celLive w = false → q / 2 ^ 120 = 2 ∧ q % 2 ^ 112 = 0) ∧
          (s.blk.celLive w = true → q % 2 ^ 112 = src % 2 ^ 112 ∧ q / 2 ^ 124 = min 9 (src / 2 ^ 124) ∧ q / 2 ^ 121 % 2 = (if s.blk.celGap w t0 j then 1 else src / 2 ^ 121 % 2) ∧
            q / 2 ^ 120 % 2 = ((s.blk.celClip w t0 j).map bit).getD (src / 2 ^ 120 % 2))) ∧
      RegsKept s t (fun x _ => x == u) ∧ MemSame s t) ∧
    (∀ r rest, c.ivFrom = some t0 → DueNow s (t0 + 16384) → c.queue = r :: rest → c.queue.length = 8 → (∀ i, i < 64 → serves s i) →
      r.flags < 4 → r.seq < 2 ^ 48 → r.version < 2 ^ 32 → base + 2 ^ 29 ≤ 2 ^ 37 → Ends (.cellarIntervalEnd data) s fun t => next t ∧ Adds s t u F.CEL_STAT_DROPS 1 ∧ Cause t u 18 ∧
        t.blk.cel.queue.dropLast = rest ∧ let p := base + 32 * indexPos r.stamp
        t.mem.rdBytes p 8 = r.stamp.toNat ∧ t.mem.rdBytes (p + 16) 8 = 0 ∧ t.mem.rdBytes (p + 28) 1 = r.flags + 4 ∧
          (a < p ∨ p + 32 ≤ a → t.mem.rdByte a = s.mem.rdByte a)) ∧
    (c.queue = [] → Ends .cellarRecordWritten s fun t => t = s) ∧
    (∀ r rest, c.queue = r :: rest → (∀ i, i < 64 → serves s i) → 0 < places → c.count ≤ places → c.pos < places → r.seq < 2 ^ 48 → r.version < 2 ^ 32 → r.units ≤ 2048 → r.flags < 8 →
      size = 64 + 512 * r.units → Ends .cellarRecordWritten s fun t =>
        let off := 2 ^ 29 + c.pos * size
        let p := base + 32 * indexPos r.stamp
        let b := base + off
        t.mem.rdBytes b 8 = r.stamp.toNat ∧ t.mem.rdBytes (b + 8) 8 = r.seq ∧ t.mem.rdBytes (b + 16) 4 = r.version ∧ t.mem.rdBytes (b + 20) 2 = r.units ∧
          t.mem.rdBytes (b + 22) 1 = r.flags ∧ (j < 512 * r.units → (t.mem.rdByte (b + 64 + j)).toNat = r.data / 256 ^ j % 256) ∧
          t.mem.rdBytes p 8 = r.stamp.toNat ∧ t.mem.rdBytes (p + 8) 8 = r.seq ∧ t.mem.rdBytes (p + 16) 8 = off % 2 ^ 64 ∧ t.mem.rdBytes (p + 24) 4 = r.version ∧
          t.mem.rdBytes (p + 28) 1 = r.flags ∧ ((a < b ∨ b + size ≤ a) → (a < p ∨ p + 32 ≤ a) → t.mem.rdByte a = s.mem.rdByte a) ∧
          t.blk.cel.queue = rest ∧ t.blk.cel.pos = (c.pos + 1) % places ∧ t.blk.cel.count = min places (c.count + 1) ∧ t.blk.reg u R.CEL_NEWEST = r.stamp ∧
          (c.count = 0 → t.blk.reg u R.CEL_OLDEST = r.stamp) ∧ RegsKept s t (fun x off => x == u && (off == R.CEL_NEWEST || off == R.CEL_OLDEST)))

/-- R302: RPL_START is accepted while the cellar is FROZEN or OFF, the target in TEST, the stream of a PBD in its rate class and the record in the index; a replay begins at
the first tick boundary at least 32,768 Tc later, feeds one record in 16,384 Tc, in the order of their SEQ also past a lost interval, counts the blocks that are fed as zeros, and ends at COUNT or RPL_STOP. -/
def Sys2Proof.Spec.Replay : Prop :=
  ∀ (who : Who) (s : State), Settled s →
    let u := U.cel
    let c := s.blk.cel
    let st := s.blk.fld u F.CEL_RPL_STAT_STATE
    let m := s.blk.fld u F.CEL_RPL_CFG_PBD
    let k := s.blk.fld u F.CEL_RPL_CFG_STREAM
    let w := s.blk.celEntry k
    let src := w.toNat / 2 ^ 8 % 128
    let base := s.blk.fld (U.hs 0) (F.MEM_REGION_BASE 4) * 2 ^ 26
    let size := s.blk.fld u F.CEL_GEOM_RECSIZE
    let stamp := s.blk.reg u R.CEL_RPL_FROM
    let p := base + 32 * indexPos stamp
    let held := s.blk.hbmBad p 32 = false ∧ s.mem.rdBytes p 8 = stamp.toNat ∧ s.mem.rdBytes (p + 8) 8 ≠ 0 ∧ s.mem.rdBytes (p + 16) 8 ≠ 0
    let ok := (s.blk.fld u F.CEL_STAT_STATE = 0 ∨ s.blk.fld u F.CEL_STAT_STATE = 3) ∧ s.blk.ownState (U.pbd m) = 5 ∧ w.getLsbD 63 = true ∧ w.toNat % 4 < 2 ∧
      s.blk.rateOf src = s.blk.rateOf m ∧ held
    let count := s.blk.fld u F.CEL_RPL_CFG_COUNT
    let fed := s.blk.fld u F.CEL_RPL_STAT_FED
    let head := base + 2 ^ 29 + c.rplPos * size
    let first := ((c.sdata.filter fun x => x.1 < k).map fun x => 32 * streamUnits s x.2).sum
    let block := fun (j : Nat) => head + 64 + 16 * (first + j)
    let right := s.blk.hbmBad head 64 = false ∧ c.rplSeq ≤ s.mem.rdBytes (head + 8) 8
    let zero := fun (j : Nat) => let q := s.mem.rdBytes (block j) 16
      s.blk.hbmBad (block j) 16 || decide (9 < q / 2 ^ 124) || !bfCrcOk (BitVec.ofNat 128 q) || decide (q / 2 ^ 121 % 2 = 1)
    (Takes s who u → s.blk.time.coll = [] →
      (ok → Ends (.rplStart who) s fun t => t.blk.fld u F.CEL_RPL_STAT_STATE = 1 ∧ t.blk.fld u F.CEL_RPL_STAT_ERRS = 0 ∧ t.blk.fld u F.CEL_RPL_STAT_FED = 0 ∧
        t.blk.cel.rplAsk = s.blk.t ∧ t.blk.cel.rplSeq = s.mem.rdBytes (p + 8) 8 ∧
        t.blk.cel.rplPos = (s.mem.rdBytes (p + 16) 8 - 2 ^ 29) / max 1 size ∧ RegsKept s t (fun x _ => x == u) ∧ MemSame s t) ∧
      (¬ ok → Ends (.rplStart who) s fun t => t.blk.flag u F.CEL_RPL_STAT_REFUSED = true ∧ Corrected s t u ∧ Same s t u F.CEL_RPL_STAT_STATE ∧ t.blk.cel = c ∧ MemSame s t) ∧
      (st = 1 ∨ st = 2 → Ends (.rplStop who) s fun t => t.blk.fld u F.CEL_RPL_STAT_STATE = 3 ∧ Cause t u 19 ∧ MemSame s t) ∧
      (st = 0 ∨ st = 3 → Ends (.rplStop who) s fun t => t.blk.fld u F.CEL_RPL_STAT_STATE = st ∧ t.blk.cel = c ∧ MemSame s t)) ∧
    (st = 1 → s.blk.t = s.blk.time.tickStart → c.rplAsk + 32768 ≤ s.blk.t → 0 < count → Ends .replayBegin s fun t => t.blk.fld u F.CEL_RPL_STAT_STATE = 2 ∧
      (t.blk.pbdH m).silentBy = true ∧ t.blk.cel.rplDue = s.blk.t + 16384 ∧ MemSame s t) ∧
    (st ≠ 1 ∨ s.blk.t ≠ s.blk.time.tickStart ∨ s.blk.t < c.rplAsk + 32768 → Ends .replayBegin s fun t => t = s) ∧
    (st ≠ 2 → Ends .replayFeed s fun t => t = s) ∧
    (st = 2 → DueNow s c.rplDue → fed + 1 < 2 ^ 32 → Ends .replayFeed s fun t => t.blk.fld u F.CEL_RPL_STAT_FED = fed + 1 ∧
      (right → Adds s t u F.CEL_RPL_STAT_ERRS ((List.range (32 * streamUnits s w)).filter zero).length) ∧
      (¬ right → Adds s t u F.CEL_RPL_STAT_ERRS (32 * streamUnits s w)) ∧ t.blk.cel.rplPos = (c.rplPos + 1) % max 1 (s.blk.fld u F.CEL_GEOM_RECORDS) ∧
      (right → t.blk.cel.rplSeq = s.mem.rdBytes (head + 8) 8 + 1) ∧ (¬ right → t.blk.cel.rplSeq = c.rplSeq + 1) ∧ t.blk.cel.rplDue = c.rplDue + 16384 ∧ (fed + 1 < count → t.blk.fld u F.CEL_RPL_STAT_STATE = 2 ∧
        RegsKept s t (fun x _ => x == u)) ∧ (count ≤ fed + 1 → t.blk.fld u F.CEL_RPL_STAT_STATE = 3 ∧ Cause t u 19) ∧ MemSame s t)

/-- R284 to R306: HBM and the cellar. A missing replay record counts each of its blocks as bad (model's choice, log entry 30). -/
def Obligations.MemoryAndCellar : Prop := HbmRequests ∧ HbmErrors ∧ CellarControl ∧ CellarRecords ∧ Replay

namespace Sys2Proof.Spec

/-- The first Tc at or after an instant of the converter's clock, in units of 1/6144 ns: a Tc has 3,125, 200 ns have 1,228,800. -/
def tcAfter (x : Nat) : Nat := (x + 3124) / 3125

/-- Nothing waits at the converter. -/
abbrev monFree (s : State) : Prop :=
  s.blk.mon.waiting = [] ∧ s.blk.mon.reqs = [] ∧ s.blk.mon.suspended = none ∧ s.blk.mon.held = false

/-- Conversion `src` of channel `c` begins now. -/
def Begins (s t : State) (src : MonSrc) (c act : Nat) : Prop :=
  t.blk.mon.cv = some { src := src, chan := c, start := s.blk.t * 3125, stamp := s.blk.now, cold := !s.blk.flag U.mon F.MON_REF_EN_WARM } ∧
    t.blk.fld U.mon F.MON_STAT_ACT = act ∧ t.blk.flag U.mon F.MON_STAT_BUSY = true

/-- Only registers of the converter's page change. -/
def monPage (s t : State) : Prop := RegsKept s t (fun v _ => v == U.mon)

end Sys2Proof.Spec

/-- R308, R311 to R316, R320: triggers and starts of an ACTIVE converter: at once where it is IDLE; a busy one rejects a start, holds one regular trigger behind a single conversion
or an injected sequence, drops and counts others, and lets an urgent trigger wait for the current regular conversion; a READY one ignores each with CFG_REJ. Of the triggers of one
instant urgent comes before MON_START and MON_START before regular, whichever command stood first (log entry 103): a regular trigger is held then, or dropped
before a burst. A loop request comes as an urgent trigger does, and is kept for its turn where it cannot start. -/
def Sys2Proof.Spec.MonitorTriggers : Prop :=
  ∀ (who : Who) (m : Nat) (s : State), m < 128 → Settled s → s.blk.time.running = true →
    let u := U.mon
    let h := s.blk.mon
    let act := s.blk.fld u F.MON_STAT_ACT
    let st := s.blk.ownState u
    let takes := Takes s who u ∧ s.blk.time.coll = []
    let ignored := fun (t : State) => t.blk.flag u F.MON_STAT_CFG_REJ = true ∧ t.blk.mon = h ∧ RegsKept s t (fun v off => v == u && off == R.MON_STAT) ∧ MemSame s t
    let refused := fun (t : State) => t.blk.flag u F.MON_STAT_CFG_REJ = true ∧ t.blk.mon.cv = h.cv ∧ Corrected s t u ∧ t.blk.fld u F.MON_STAT_ACT = 0 ∧ MemSame s t
    let busy := fun (t : State) => t.blk.flag u F.MON_STAT_REJ = true ∧ Adds s t u F.MON_DROP_REJ_CNT 1 ∧ Cause t u 22 ∧ t.blk.mon = h ∧ Same s t u F.MON_STAT_ACT ∧
      monPage s t ∧ MemSame s t
    let starts := fun (t : State) => Begins s t (.reg 0) (s.blk.fld u (F.MON_REG_CH 0)) 2 ∧ t.blk.mon.regStamp = s.blk.now ∧ monPage s t ∧ MemSame s t
    let injects := fun (t : State) => Begins s t (.inj 0) (s.blk.fld u (F.MON_INJ_CH 0)) 3 ∧ t.blk.mon.injStamp = s.blk.now ∧ monPage s t ∧ MemSame s t
    let drops := fun (t : State) (f : Fld) => Adds s t u f 1 ∧ Cause t u 21 ∧ t.blk.mon.cv = h.cv ∧ t.blk.mon.held = h.held ∧ t.blk.mon.waiting = h.waiting ∧
      Same s t u F.MON_STAT_ACT ∧ monPage s t ∧ MemSame s t
    let sel := s.blk.fld u F.MON_SEL_CH
    let bc := s.blk.fld u F.MON_BURST_CH
    let fails := s.blk.fld u F.MON_STAT_SLICE_FAIL
    let regular := fun (c : Instr) => (st = 2 → act = 0 → s.blk.fld u (F.MON_REG_CH 0) < 35 → Ends c s starts) ∧
      (st = 2 → (act = 1 ∨ act = 3) → h.held = false → Ends c s fun t => t.blk.mon.held = true ∧ t.blk.mon.cv = h.cv ∧ t.blk.regs = s.blk.regs ∧ MemSame s t) ∧
      (st = 2 → ((act = 1 ∨ act = 3) ∧ h.held = true ∨ act = 2 ∨ act = 4) → Ends c s fun t => drops t F.MON_DROP_TRIG_DROP) ∧
      (st = 1 → Ends c s fun t => t.blk.flag u F.MON_STAT_CFG_REJ = true ∧ t.blk.mon.cv = h.cv ∧ t.blk.mon.held = h.held ∧ monPage s t ∧ MemSame s t)
    let urgent := fun (c : Instr) => h.urgentAt ≠ some s.blk.t → (∀ x, h.requestAt = some x → x.1 ≠ s.blk.t) →
      (st = 2 → act = 0 → s.blk.fld u (F.MON_INJ_CH 0) < 35 → Ends c s injects) ∧
      (st = 2 → act = 2 → none ∉ h.waiting → Ends c s fun t => t.blk.mon.waiting = h.waiting ++ [none] ∧ t.blk.mon.cv = h.cv ∧ t.blk.regs = s.blk.regs ∧ MemSame s t) ∧
      (st = 2 → (act = 1 ∨ act = 3 ∨ act = 4) → Ends c s fun t => drops t F.MON_DROP_INJ_DROP) ∧
      (st = 1 → Ends c s ignored)
    let apart := ∀ x, h.begun = some x → x.1 ≠ s.blk.t
    let begunAs := fun (src : MonSrc) (w : Word) => st = 2 ∧ h.begun = some (s.blk.t, w) ∧ h.cv.map (·.src) = some src
    let toldBusy := fun (t : State) => t.blk.flag u F.MON_STAT_REJ = true ∧ Adds s t u F.MON_DROP_REJ_CNT 1 ∧ Cause t u 22
    let overtakes := fun (c : Instr) => h.urgentAt ≠ some s.blk.t → (∀ x, h.requestAt = some x → x.1 ≠ s.blk.t) → s.blk.fld u (F.MON_INJ_CH 0) < 35 → ∀ w,
      (∀ i, begunAs (.reg i) w → Ends c s fun t => injects t ∧ t.blk.mon.held = true) ∧ (begunAs .single w → Ends c s fun t => injects t ∧ toldBusy t) ∧
      (∀ i, begunAs (.burst i) w → Ends c s fun t => injects t ∧ toldBusy t ∧ t.blk.reg u R.MON_BURST_STAMP = w)
    (takes → overtakes (.monTrigInj who)) ∧ overtakes .monTrigNFall ∧
    (takes → sel < 35 → ∀ i w, begunAs (.reg i) w → Ends (.monGo who) s fun t => Begins s t .single sel 1 ∧ t.blk.mon.held = true ∧ monPage s t ∧ MemSame s t) ∧
    (takes → bc < 35 → (s.blk.flag u F.MON_BURST_ILV = false ∨ fails = 0 ∨ fails = 1 ∨ fails = 2 ∨ fails = 4) → ∀ i w, begunAs (.reg i) w →
      Ends (.monBurst who) s fun t => Begins s t (.burst 0) bc 4 ∧ t.blk.mon.held = h.held ∧ Adds s t u F.MON_DROP_TRIG_DROP 1 ∧ Cause t u 21 ∧ monPage s t ∧ MemSame s t) ∧
    (takes → monFree s → apart →
      (st = 2 → act = 0 → sel < 35 → Ends (.monGo who) s fun t => Begins s t .single sel 1 ∧ monPage s t ∧ MemSame s t) ∧
      (st = 2 → act = 0 → 35 ≤ sel → Ends (.monGo who) s refused) ∧
      (st = 2 → act = 0 → bc < 35 → (s.blk.flag u F.MON_BURST_ILV = false ∨ fails = 0 ∨ fails = 1 ∨ fails = 2 ∨ fails = 4) → Ends (.monBurst who) s fun t =>
        Begins s t (.burst 0) bc 4 ∧ t.blk.reg u R.MON_BURST_STAMP = s.blk.now ∧ monPage s t ∧ MemSame s t) ∧
      (st = 2 → act = 0 → bc < 35 → s.blk.flag u F.MON_BURST_ILV = true → (fails = 3 ∨ 5 ≤ fails) → Ends (.monBurst who) s ignored) ∧
      (st = 2 → act = 0 → 35 ≤ bc → Ends (.monBurst who) s refused)) ∧
    (takes → st = 2 → act ≠ 0 → (apart ∨ ∀ i, h.cv.map (·.src) ≠ some (.reg i)) → Ends (.monGo who) s busy ∧ Ends (.monBurst who) s busy) ∧
    (takes → st = 1 → Ends (.monGo who) s ignored ∧ Ends (.monBurst who) s ignored) ∧
    (takes → monFree s ∨ act ≠ 0 → regular (.monTrigSeq who)) ∧ (takes → monFree s ∨ act ≠ 0 → apart → urgent (.monTrigInj who)) ∧
    (monFree s ∨ act ≠ 0 → apart → urgent .monTrigNFall) ∧
    (s.blk.flag u F.MON_CFG_PER_EN = false → Ends .monPeriodicTimer s fun t => t = s) ∧
    (s.blk.flag u F.MON_CFG_PER_EN = true → DueNow s (tcAfter h.perAt) → (monFree s ∨ act ≠ 0 → regular .monPeriodicTimer) ∧
      Ends .monPeriodicTimer s fun t => t.blk.mon.perAt = h.perAt + max 1 (s.blk.fld u F.MON_CFG_SEQ_PER) * 6144000) ∧
    (let c := s.blk.actFld (U.pbd m) F.LOOP_SUPV_MON_CH
      let turn := s.blk.monWants m = true ∧ ∀ j, j < m → s.blk.monWants j = false
      (¬ turn → Ends (.monSupvRequest m) s fun t => t = s) ∧
      (turn → h.urgentAt ≠ some s.blk.t → c < 35 → ∀ i w, begunAs (.reg i) w → Ends (.monSupvRequest m) s fun t =>
        Begins s t (.loop m) c 3 ∧ t.blk.mon.held = true ∧ (t.blk.pbdH m).monAsked = true ∧ monPage s t ∧ MemSame s t) ∧
      (turn → st = 2 → h.urgentAt ≠ some s.blk.t → c < 35 → apart →
        let kept := fun (t : State) => t.blk.mon.cv = h.cv ∧ (t.blk.pbdH m).monAsked = true ∧ t.blk.regs = s.blk.regs ∧ MemSame s t
        (act = 0 → Ends (.monSupvRequest m) s fun t => Begins s t (.loop m) c 3 ∧ (t.blk.pbdH m).monAsked = true ∧ Same s t u F.MON_SEQ_CNT_INJ_CNT ∧ monPage s t ∧ MemSame s t) ∧
        (act = 2 → (∀ x ∈ h.waiting, x = none) → Ends (.monSupvRequest m) s fun t => t.blk.mon.waiting = h.waiting ++ [some m] ∧ t.blk.mon.reqs = h.reqs ∧ kept t) ∧
        (act = 2 → (∃ x ∈ h.waiting, x ≠ none) → Ends (.monSupvRequest m) s fun t => t.blk.mon.waiting = h.waiting ∧ t.blk.mon.reqs = h.reqs ++ [m] ∧ kept t) ∧
        (act = 1 ∨ act = 3 ∨ act = 4 → Ends (.monSupvRequest m) s fun t => t.blk.mon.waiting = h.waiting ∧ t.blk.mon.reqs = h.reqs ++ [m] ∧ kept t)) ∧
      (turn → st = 2 → h.urgentAt = some s.blk.t → Ends (.monSupvRequest m) s fun t => Adds s t u F.MON_DROP_INJ_DROP 1 ∧ (t.blk.pbdH m).monAsked = true ∧
        t.blk.mon.waiting = h.waiting ∧ MemSame s t))

/-- R309 to R319: 200 ns after its start a conversion gives its result: to MON_DATA with NEW, to the register of its entry with the count that its sequence will have, to the loop
engine, or to the burst buffer; an end is counted, stamped and raised; what was held or suspended runs next; every comparator of the channel takes it; a handover
of the slices that has waited for it takes place, but not within a burst. -/
def Sys2Proof.Spec.MonitorResults : Prop :=
  ∀ (code k : Nat) (ovr under : Bool) (cv : MonCv) (s : State), k < 8 → Settled s → s.blk.time.running = true →
    let u := U.mon
    let h := s.blk.mon
    let c := Instr.monConversionDone code ovr under
    let fin := cv.start + 1228800
    let out := if ovr then 0xFFF else if under then 0 else max 1 (min 0xFFE code)
    let word := out + cv.chan * 2 ^ 16 + (if ovr then 2 ^ 25 else 0) + (if under ∧ ¬ ovr then 2 ^ 26 else 0) + (if cv.cold then 2 ^ 27 else 0)
    let at_ := stampOf (s.blk.time.air - (s.blk.t - fin / 3125))
    let begins := fun (t : State) (src : MonSrc) (ch : Nat) => t.blk.mon.cv = some { src := src, chan := ch, start := fin, stamp := at_, cold := !s.blk.flag u F.MON_REF_EN_WARM }
    let idle := fun (t : State) => t.blk.fld u F.MON_STAT_ACT = 0 ∧ t.blk.flag u F.MON_STAT_BUSY = false ∧ t.blk.mon.cv = none
    let count := fun (f : Fld) => (s.blk.fld u f + 1) % 2 ^ 32
    let en := s.blk.flag u (F.MON_WC_CFG_EN k) = true ∧ s.blk.fld u (F.MON_WC_CFG_CH k) = cv.chan ∧ cv.cold = false
    let lo := s.blk.fld u (F.MON_WC_CFG_LO k)
    let hi := s.blk.fld u (F.MON_WC_CFG_HI k)
    let hys := s.blk.fld u (F.MON_WC_CFG_HYS k)
    let cnt := max 1 (s.blk.fld u (F.MON_WC_CFG_CNT k))
    let run := s.blk.fld u (F.MON_WC_STAT_RUN k)
    let above := ovr = true ∨ under = false ∧ hi < out
    let below := ovr = false ∧ (under = true ∨ out < lo)
    let inner := ovr = false ∧ under = false ∧ lo + hys ≤ out ∧ out + hys ≤ hi
    let isOut := s.blk.flag u (F.MON_WC_STAT_OUT k)
    let wc := fun (t : State) (o : Bool) (r : Nat) => t.blk.flag u (F.MON_WC_STAT_OUT k) = o ∧ t.blk.fld u (F.MON_WC_STAT_RUN k) = r
    (h.cv = none → Ends c s fun t => t = s) ∧
    (h.cv = some cv → cv.chan < 35 → DueNow s (tcAfter fin) →
      (Ends c s fun t => (∀ i, cv.src ≠ .burst i) → MemSame s t) ∧ (Ends c s fun t => RegsKept s t (fun v _ => v == u || v == 0)) ∧
      (cv.src = .single → Ends c s fun t => t.blk.reg u R.MON_DATA = BitVec.ofNat 64 (word + 2 ^ 24) ∧ t.blk.reg u R.MON_DATA_STAMP = cv.stamp ∧ Cause t u 16 ∧
        (s.blk.flag u F.MON_DATA_NEW = true → t.blk.flag u F.MON_STAT_OVR = true ∧ Cause t u 17) ∧ (s.blk.flag u F.MON_DATA_NEW = false → Same s t u F.MON_STAT_OVR) ∧
        (monFree s → idle t) ∧ (h.held = true → h.waiting = [] → h.reqs = [] → h.suspended = none → s.blk.fld u (F.MON_REG_CH 0) < 35 →
          begins t (.reg 0) (s.blk.fld u (F.MON_REG_CH 0)) ∧ t.blk.fld u F.MON_STAT_ACT = 2 ∧ t.blk.mon.held = false)) ∧
      (∀ i, cv.src = .reg i → i < 16 → Ends c s fun t =>
        t.blk.reg u (R.MON_REG_RES i) = BitVec.ofNat 64 (word + count F.MON_SEQ_CNT_REG_CNT * 2 ^ 32) ∧
        (i = s.blk.fld u F.MON_CFG_REG_LEN → t.blk.fld u F.MON_SEQ_CNT_REG_CNT = count F.MON_SEQ_CNT_REG_CNT ∧ t.blk.reg u R.MON_REG_STAMP = h.regStamp ∧ Cause t u 18 ∧
          (monFree s → idle t)) ∧
        (i < s.blk.fld u F.MON_CFG_REG_LEN → Same s t u F.MON_SEQ_CNT_REG_CNT ∧
          (monFree s → s.blk.fld u (F.MON_REG_CH (i + 1)) < 35 → begins t (.reg (i + 1)) (s.blk.fld u (F.MON_REG_CH (i + 1))) ∧ t.blk.fld u F.MON_STAT_ACT = 2) ∧
          (h.waiting = [none] → s.blk.fld u (F.MON_INJ_CH 0) < 35 → begins t (.inj 0) (s.blk.fld u (F.MON_INJ_CH 0)) ∧ t.blk.fld u F.MON_STAT_ACT = 3 ∧
            t.blk.mon.suspended = some (i + 1) ∧ t.blk.mon.waiting = []))) ∧
      (∀ i, cv.src = .inj i → i < 4 → Ends c s fun t =>
        t.blk.reg u (R.MON_INJ_RES i) = BitVec.ofNat 64 (word + count F.MON_SEQ_CNT_INJ_CNT * 2 ^ 32) ∧
        (i = s.blk.fld u F.MON_CFG_INJ_LEN → t.blk.fld u F.MON_SEQ_CNT_INJ_CNT = count F.MON_SEQ_CNT_INJ_CNT ∧ t.blk.reg u R.MON_INJ_STAMP = h.injStamp ∧ Cause t u 19 ∧
          (monFree s → idle t) ∧ (∀ r, h.suspended = some r → h.waiting = [] → h.reqs = [] → r ≤ s.blk.fld u F.MON_CFG_REG_LEN → s.blk.fld u (F.MON_REG_CH r) < 35 → 0 < r →
            begins t (.reg r) (s.blk.fld u (F.MON_REG_CH r)) ∧ t.blk.fld u F.MON_STAT_ACT = 2 ∧ t.blk.mon.suspended = none)) ∧
        (i < s.blk.fld u F.MON_CFG_INJ_LEN → s.blk.fld u (F.MON_INJ_CH (i + 1)) < 35 → Same s t u F.MON_SEQ_CNT_INJ_CNT ∧
          begins t (.inj (i + 1)) (s.blk.fld u (F.MON_INJ_CH (i + 1))) ∧ t.blk.fld u F.MON_STAT_ACT = 3)) ∧
      (∀ m, cv.src = .loop m → Ends c s fun t => (t.blk.pbdH m).monObs = some (out : Int) ∧ Same s t u F.MON_SEQ_CNT_INJ_CNT ∧
        (∀ j, j < 4 → t.blk.reg u (R.MON_INJ_RES j) = s.blk.reg u (R.MON_INJ_RES j)) ∧ (monFree s → idle t) ∧
        ∀ q rest, h.waiting = [] → h.reqs = q :: rest → begins t (.loop q) (s.blk.actFld (U.pbd q) F.LOOP_SUPV_MON_CH) ∧ t.blk.mon.reqs = rest) ∧
      (∀ i, cv.src = .burst i → i < 1024 → Ends c s fun t =>
        (t.mem.rd64 .monBuf (i / 4)).toNat / 2 ^ (16 * (i % 4)) % 2 ^ 16 = out + (if ovr then 4096 else 0) + (if under ∧ ¬ ovr then 8192 else 0) +
          (if cv.cold then 16384 else 0) + 32768 ∧
        (∀ j, j < 4 → j ≠ i % 4 → (t.mem.rd64 .monBuf (i / 4)).toNat / 2 ^ (16 * j) % 2 ^ 16 =
          if i = 0 then 0 else (s.mem.rd64 .monBuf (i / 4)).toNat / 2 ^ (16 * j) % 2 ^ 16) ∧
        MemKept s t (fun r w => r == .monBuf && (i == 0 || w == i / 4)) ∧ (i = 0 → ∀ w, 0 < w → w < 256 → t.mem.rd64 .monBuf w = 0) ∧
        (max 1 (min 1024 (s.blk.fld u F.MON_BURST_COUNT)) ≤ i + 1 → (monFree s → idle t) ∧ Cause t u 20) ∧
        (i + 1 < max 1 (min 1024 (s.blk.fld u F.MON_BURST_COUNT)) → Same s t u F.MON_STAT_ACT ∧ t.blk.mon.cv.map (·.src) = some (.burst (i + 1)) ∧
          t.blk.mon.cv.map (·.start) = some (cv.start + if s.blk.flag u F.MON_BURST_ILV then 614400 else 1228800))) ∧
      (h.rotDue = true → s.blk.flag u F.MON_STAT_CAL_FROZEN = false → (∀ i, cv.src = .burst i → max 1 (min 1024 (s.blk.fld u F.MON_BURST_COUNT)) ≤ i + 1) →
        Ends c s fun t => t.blk.fld u F.MON_STAT_CAL_OUT = (s.blk.fld u F.MON_STAT_CAL_OUT + 1) % 3 ∧ t.blk.mon.rotDue = false) ∧
      (h.rotDue = false → Ends c s fun t => Same s t u F.MON_STAT_CAL_OUT) ∧
      (¬ en → Ends c s fun t => wc t isOut run) ∧
      (en → isOut = false →
        (¬ above → ¬ below → Ends c s fun t => wc t false 0) ∧ (above ∨ below → run + 1 < cnt → Ends c s fun t => wc t false (run + 1)) ∧
        (above ∨ below → cnt ≤ run + 1 → Ends c s fun t => wc t true 0 ∧ (above → t.blk.flag u (F.MON_WC_STAT_DIR k) = true) ∧
          (¬ above → t.blk.flag u (F.MON_WC_STAT_DIR k) = false) ∧ Adds s t u (F.MON_WC_STAT_EXITS k) 1 ∧ Cause t u (24 + k))) ∧
      (en → isOut = true → (¬ inner → Ends c s fun t => wc t true 0) ∧ (inner → run + 1 < cnt → Ends c s fun t => wc t true (run + 1)) ∧
        (inner → cnt ≤ run + 1 → Ends c s fun t => wc t false 0 ∧ Same s t u (F.MON_WC_STAT_EXITS k))))

/-- R309, R311, R317, R321: EN and the warm reference 2 ms later; NEW falls with a read of MON_DATA, and WORD advances with one of MON_BUF_DATA; the slices rotate each 100 ms while the
reference is warm, at the end of a conversion under way, and the first, second and third failure are reported; CLR clears the counts. -/
def Sys2Proof.Spec.MonitorService : Prop :=
  ∀ (who : Who) (half : Half) (f : Nat) (s : State), f ≤ 3 → Settled s → s.blk.inReset = false → NoGroups s →
    let u := U.mon
    let h := s.blk.mon
    let warm := s.blk.flag u F.MON_REF_EN_WARM
    let fails := s.blk.fld u F.MON_STAT_SLICE_FAIL
    let bad := fails % 2 + fails / 2 % 2 + fails / 4 % 2
    let c := Instr.monSliceRotate f
    let fresh := f < 3 ∧ fails / 2 ^ f % 2 = 0 ∧ fails < 8
    let marked := fun (t : State) => t.blk.fld u F.MON_STAT_SLICE_FAIL = fails + 2 ^ f ∧ Cause t u 23
    let word := s.blk.fld u F.MON_BUF_ADDR_WORD
    let mask : Word := match half with | .both => 0xFFFFFFFFFFFFFFFF | .lo => 0xFFFFFFFF | .hi => 0xFFFFFFFF00000000
    (Takes s who u → s.blk.time.coll = [] →
      (Ends (.monRefEnWrite who true) s fun t => t.blk.flag u F.MON_REF_EN_EN = true ∧ Same s t u F.MON_REF_EN_WARM ∧
        t.blk.mon.warmAt = (if s.blk.flag u F.MON_REF_EN_EN then h.warmAt else some (s.blk.t + 3932160)) ∧
        RegsKept s t (fun v off => v == u && off == R.MON_REF_EN) ∧ MemSame s t) ∧
      (Ends (.monRefEnWrite who false) s fun t => t.blk.flag u F.MON_REF_EN_EN = false ∧ t.blk.flag u F.MON_REF_EN_WARM = false ∧ t.blk.mon.warmAt = none ∧
        RegsKept s t (fun v off => v == u && off == R.MON_REF_EN) ∧ MemSame s t) ∧
      (Ends (.monDropClr who) s fun t => t.blk.fld u F.MON_DROP_INJ_DROP = 0 ∧ t.blk.fld u F.MON_DROP_TRIG_DROP = 0 ∧ t.blk.fld u F.MON_DROP_REJ_CNT = 0 ∧
        RegsKept s t (fun v off => v == u && off == R.MON_DROP) ∧ MemSame s t)) ∧
    (∀ t0, h.warmAt = some t0 → DueNow s t0 → Ends .monRefWarm s fun t => t.blk.flag u F.MON_REF_EN_WARM = true ∧ t.blk.mon.warmAt = none ∧
      RegsKept s t (fun v off => v == u && off == R.MON_REF_EN) ∧ MemSame s t) ∧
    (h.warmAt = none → Ends .monRefWarm s fun t => t = s) ∧
    (s.blk.readOk who u = true →
      (Ends (.monDataRead who half) s fun t => t.blk.rdata = s.blk.reg u R.MON_DATA &&& mask ∧
        (half ≠ .hi → t.blk.flag u F.MON_DATA_NEW = false) ∧ (half = .hi → Same s t u F.MON_DATA_NEW) ∧ Same s t u F.MON_DATA_CODE ∧
        RegsKept s t (fun v off => v == u && off == R.MON_DATA) ∧ MemSame s t) ∧
      (Ends (.monBufRead who half) s fun t => t.blk.rdata = s.mem.rd64 .monBuf word &&& mask ∧ t.blk.fld u F.MON_BUF_ADDR_WORD = (word + 1) % 256 ∧
        RegsKept s t (fun v off => v == u && off == R.MON_BUF_ADDR) ∧ MemSame s t)) ∧
    (s.blk.readOk who u = false → (Ends (.monDataRead who half) s fun t => t.blk.rdata = 0 ∧ t.blk.regs = s.blk.regs ∧ MemSame s t) ∧
      (Ends (.monBufRead who half) s fun t => t.blk.rdata = 0 ∧ t.blk.regs = s.blk.regs ∧ MemSame s t)) ∧
    (warm = false → Ends c s fun t => t = s) ∧
    (warm = true → DueNow s (h.rotateAt + 196608000) →
      (f = 3 → h.cv ≠ none → Ends c s fun t => t.blk.mon = { h with rotateAt := s.blk.t, rotDue := true } ∧ t.blk.regs = s.blk.regs ∧ MemSame s t) ∧
      (f = 3 → h.cv = none → s.blk.flag u F.MON_STAT_CAL_FROZEN = false → Ends c s fun t => t.blk.fld u F.MON_STAT_CAL_OUT = (s.blk.fld u F.MON_STAT_CAL_OUT + 1) % 3 ∧
        t.blk.mon.rotateAt = s.blk.t ∧ RegsKept s t (fun v off => v == u && off == R.MON_STAT) ∧ MemSame s t) ∧
      (f = 3 → s.blk.flag u F.MON_STAT_CAL_FROZEN = true → Ends c s fun t => t.blk.regs = s.blk.regs ∧ MemSame s t) ∧
      (fresh → bad = 0 → Ends c s fun t => marked t ∧ t.blk.flag u F.MON_STAT_CAL_FROZEN = true ∧ t.blk.fld u F.MON_STAT_CAL_OUT = 3 ∧ Corrected s t u ∧ MemSame s t) ∧
      (fresh → bad = 1 → Ends c s fun t => marked t ∧ Corrected s t u ∧ t.blk.ownState u = s.blk.ownState u ∧ MemSame s t) ∧
      (fresh → bad = 2 → s.blk.ownState u ≠ 6 → Ends c s fun t => marked t ∧ Fences s t u C.monFail ∧ t.blk.mon.cv = none ∧ t.blk.fld u F.MON_STAT_ACT = 0 ∧ MemSame s t))

/-- R308 to R321: the monitor converter. The instants are whole units of 1/6144 ns (model's choice, log entry 31). -/
def Obligations.MonitorConverter : Prop := MonitorTriggers ∧ MonitorResults ∧ MonitorService

namespace Sys2Proof.Spec

/-- The event as it stands at its arrival: with OPSEC, PWRCYC and the present instant (R375). -/
def arrived (s : State) (e : RecEv) : RecEv := { e with opsec := s.blk.sync.opsec, pwrcyc := s.blk.sync.pwrcyc, arrival := s.blk.t }

/-- An event identical to the newest record, within the window (R376). -/
def identical (s : State) (e : RecEv) : Bool :=
  match s.blk.recd.newest with
  | some n => decide (e.typ = n.typ ∧ e.uid = n.uid ∧ e.flags = n.flags ∧ e.digest = n.digest ∧ e.typ ≠ 0x3E ∧ e.typ ≠ 0x3F ∧
      e.arrival < n.arrival + s.blk.fld U.rec F.REC_CFG_WIN * 19660800 ∧ n.rep < 65535)
  | none => false

/-- The record of event `e` with number `seq` lies at byte `off` of the MRAM (R372). -/
def RecordAt (t : State) (off seq : Nat) (e : RecEv) : Prop :=
  t.mem.rd64 .mram (off / 8) = BitVec.ofNat 64 (e.words.length + 1 + e.typ * 2 ^ 5 + e.cls * 2 ^ 11 + (if e.inj then 2 ^ 13 else 0) + (if e.same then 2 ^ 14 else 0) +
      (if e.coin then 2 ^ 15 else 0) + e.uid * 2 ^ 16 + seq * 2 ^ 32) ∧
    t.mem.rd64 .mram (off / 8 + 1) = BitVec.ofNat 64 (e.opsec + e.pwrcyc * 2 ^ 40) ∧
    ∀ j, j < e.words.length → t.mem.rd64 .mram (off / 8 + 2 + j) = e.words.getD j 0

/-- A record of the recorder's own (R373). -/
def ownEv (s : State) (typ : Nat) (words : List Word) : RecEv :=
  arrived s { typ := typ, uid := 0x04E3, words := words }

/-- A field that goes on by one and wraps. -/
def Steps (s t : State) (u : Nat) (f : Fld) : Prop := t.blk.fld u f = (s.blk.fld u f + 1) % 2 ^ (f.hi + 1 - f.lo)

end Sys2Proof.Spec

/-- R374 to R379, R382: a fault of a collector cycle that still runs waits for its end; any other event that finds a write or the erase in progress is staged, and lost and counted where all 64 entries are taken; the test for a repeat, the room in
the main area and FULL decide the write of one that finds none; the end of an erase starts the CLEAR record; only the warden clears. -/
def Sys2Proof.Spec.RecorderEvents : Prop :=
  ∀ (who : Who) (s : State), Settled s →
    let u := U.rec
    let h := s.blk.recd
    let idle := h.writing = none ∧ h.clearing = none ∧ h.staging = []
    let full := s.blk.flag u F.REC_STAT_FULL
    let next := s.blk.fld u F.REC_STAT_NEXT
    let page := fun (t : State) => RegsKept s t (fun v _ => v == u) ∧ MemSame s t
    (h.incoming = [] → Ends .recEvent s fun t => t = s) ∧
    (s.blk.recOpen = true → s.blk.time.tickEnd ≤ s.blk.t + 4 - s.blk.time.air % 4 → Ends .recEvent s fun t => t = s) ∧
    (∀ e rest, h.incoming = e :: rest → s.blk.recOpen = false →
      let e' := arrived s e
      (idle → Ends .recEvent s fun t => t.blk.recd.incoming = rest ∧ t.blk.recd.staging = [] ∧ t.blk.flag u F.REC_STAT_BUSY = true ∧
        (identical s e' = true → t.blk.recd.writing = some .increment ∧ Same s t u F.REC_LOST_TOTAL) ∧
        (identical s e' = false → full = true → e.typ ≠ 0x3E → t.blk.recd.writing = some .afterFull ∧ Adds s t u F.REC_LOST_TOTAL 1 ∧ Adds s t u F.REC_LOST_AFTER_FULL 1) ∧
        (identical s e' = false → full = false → next + 16 + 8 * e.words.length ≤ 0x3FE000 → t.blk.recd.writing = some (.record e')) ∧
        (identical s e' = false → full = false → 0x3FE000 < next + 16 + 8 * e.words.length → t.blk.recd.writing = some (.full e')) ∧ page t) ∧
      (¬ idle → h.staging.length < 64 → Ends .recEvent s fun t => t.blk.recd.incoming = rest ∧ t.blk.recd.staging = h.staging ++ [e'] ∧ t.blk.recd.writing = h.writing ∧
        t.blk.fld u F.REC_STAT_STAGED = h.staging.length + 1 ∧ t.blk.recd.pendingLost = h.pendingLost ∧ page t) ∧
      (¬ idle → 64 ≤ h.staging.length → Ends .recEvent s fun t => t.blk.recd.incoming = rest ∧ t.blk.recd.staging = h.staging ∧ t.blk.recd.writing = h.writing ∧
        t.blk.recd.pendingLost = h.pendingLost + 1 ∧ Adds s t u F.REC_LOST_TOTAL 1 ∧ Corrected s t u ∧ MemSame s t)) ∧
    (Takes s who u → s.blk.time.coll = [] →
      (whoWarden who = true → h.writing = none → h.clearing = none → Ends (.recClear who) s fun t => t.blk.flag u F.REC_STAT_CLEARING = true ∧
        t.blk.recd.clearing = some (s.blk.fld u F.REC_SEQ_HEAD_HEAD, s.blk.fld u F.REC_LOST_TOTAL) ∧ t.blk.reg u R.REC_LOST = 0 ∧
        t.blk.flag u F.REC_STAT_FULL = false ∧ page t) ∧
      (whoWarden who = true → h.writing ≠ none → h.clearing = none → Ends (.recClear who) s fun t => t.blk.recd = { h with clearAsk := true } ∧ t.blk.regs = s.blk.regs ∧
        MemSame s t) ∧
      (whoWarden who = false ∨ h.clearing ≠ none → Ends (.recClear who) s fun t => t.blk.recd = h ∧ t.blk.regs = s.blk.regs ∧ MemSame s t)) ∧
    (h.clearing = none → Ends .recClearDone s fun t => t = s) ∧
    (∀ c, h.clearing = some c → Ends .recClearDone s fun t => t.blk.fld u F.REC_SEQ_HEAD_HEAD = 0 ∧ t.blk.fld u F.REC_STAT_NEXT = 0 ∧ Cause t u 19 ∧
      t.blk.flag u F.REC_STAT_CLEARING = false ∧ t.blk.recd.clearing = none ∧ t.blk.recd.newest = none ∧ t.blk.recd.staging = h.staging ∧
      t.blk.recd.writing = some (.record (ownEv s 0x0B [0, BitVec.ofNat 64 (c.1 + c.2 * 2 ^ 32)])) ∧
      (∀ i, i < 0x7FC00 → t.mem.rd .mram i = 0) ∧ (∀ i, i < 512 → t.mem.rd .mram (0x7FE00 + i) = 0) ∧
      MemKept s t (fun r i => r == .mram && (decide (i < 0x7FC00) || decide (0x7FE00 ≤ i))) ∧ RegsKept s t (fun v _ => v == u))

/-- R372, R376 to R379: the write of a record commits it at NEXT under the next SEQ; that of an increment adds to REPEAT; FULL and the after-full LOST record end the recording;
a staged event starts the next write, and the entry that it frees takes LOST while losses are pending. -/
def Sys2Proof.Spec.RecorderWrites : Prop :=
  ∀ s : State, Settled s →
    let u := U.rec
    let h := s.blk.recd
    let next := s.blk.fld u F.REC_STAT_NEXT
    let head := s.blk.fld u F.REC_SEQ_HEAD_HEAD
    let alone := h.staging = [] ∧ h.clearAsk = false ∧ h.clearing = none
    let c := Instr.recWriteDone
    let page := fun (t : State) => RegsKept s t (fun v _ => v == u)
    let committed := fun (t : State) => t.blk.fld u F.REC_SEQ_HEAD_HEAD = head + 1 ∧ Steps s t u F.REC_SEQ_HEAD_CHG ∧ Cause t u 16
    let rest := fun (t : State) => t.blk.recd.writing = none ∧ t.blk.flag u F.REC_STAT_BUSY = false
    let fits := fun (e : RecEv) => e.words.length < 31 ∧ next % 8 = 0 ∧ next + 16 + 8 * e.words.length ≤ 0x3FE000 ∧ head < 2 ^ 31
    (h.writing = none → Ends c s fun t => t = s) ∧
    (∀ e, h.writing = some (.record e) → fits e →
      (Ends c s fun t => RecordAt t next (head + 1) e ∧ committed t ∧ t.blk.fld u F.REC_STAT_NEXT = next + 16 + 8 * e.words.length ∧ (e.typ = 0x3E → Cause t u 17) ∧
        t.blk.recd.newest = some { typ := e.typ, uid := e.uid, flags := e.flags, digest := e.digest, arrival := e.arrival, off := next, rep := 0 } ∧
        MemKept s t (fun r i => r == .mram && decide (next / 8 ≤ i) && decide (i < next / 8 + 2 + e.words.length)) ∧ page t) ∧
      (alone → Ends c s fun t => rest t) ∧
      (h.staging ≠ [] → h.clearAsk = false → h.clearing = none → h.pendingLost = 0 → Ends c s fun t => t.blk.recd.staging = h.staging.tail ∧ t.blk.recd.writing ≠ none ∧
        t.blk.flag u F.REC_STAT_BUSY = true) ∧
      (h.staging ≠ [] → h.clearAsk = false → h.clearing = none → 0 < h.pendingLost → h.pendingLost < 2 ^ 32 → Ends c s fun t =>
        t.blk.recd.staging = h.staging.tail ++ [ownEv s 0x3E [BitVec.ofNat 64 (h.pendingLost * 2 ^ 16)]] ∧ t.blk.recd.pendingLost = 0 ∧ t.blk.recd.writing ≠ none) ∧
      (h.clearAsk = true → h.clearing = none → Ends c s fun t => t.blk.flag u F.REC_STAT_CLEARING = true ∧ t.blk.recd.writing = none ∧ t.blk.recd.clearAsk = false ∧
        t.blk.reg u R.REC_LOST = 0)) ∧
    (∀ n, h.writing = some .increment → h.newest = some n → n.rep < 65535 → alone → Ends c s fun t =>
      (t.mem.rd64 .mram (n.off / 8 + 2)).toNat % 65536 = n.rep + 1 ∧ (t.mem.rd64 .mram (n.off / 8 + 2)).toNat / 65536 = (s.mem.rd64 .mram (n.off / 8 + 2)).toNat / 65536 ∧
        MemKept s t (fun r i => r == .mram && i == n.off / 8 + 2) ∧ t.blk.recd.newest = some { n with rep := n.rep + 1 } ∧ Same s t u F.REC_SEQ_HEAD_HEAD ∧
        Steps s t u F.REC_SEQ_HEAD_CHG ∧ rest t ∧ page t) ∧
    (∀ e, h.writing = some (.full e) → e.typ ≠ 0x3E → head < 2 ^ 31 → Ends c s fun t => RecordAt t 0x3FF000 (head + 1) (ownEv s 0x3F []) ∧ committed t ∧
      t.blk.flag u F.REC_STAT_FULL = true ∧ Cause t u 18 ∧ Corrected s t u ∧ t.blk.recd.writing = some .afterFull ∧ t.blk.recd.pendingLost = 0 ∧
      Adds s t u F.REC_LOST_AFTER_FULL (h.pendingLost + 1) ∧ Adds s t u F.REC_LOST_TOTAL 1 ∧ Same s t u F.REC_STAT_NEXT ∧
      MemKept s t (fun r i => r == .mram && (i == 0x7FE00 || i == 0x7FE01))) ∧
    (h.writing = some .afterFull → alone → head < 2 ^ 31 →
      let w0 : Word := BitVec.ofNat 64 (s.blk.fld u F.REC_LOST_AFTER_FULL * 2 ^ 16)
      (h.afterFull = false → Ends c s fun t => RecordAt t 0x3FF010 (head + 1) (ownEv s 0x3E [w0]) ∧ committed t ∧ Cause t u 17 ∧ t.blk.recd.afterFull = true ∧ rest t ∧
        MemKept s t (fun r i => r == .mram && decide (0x7FE02 ≤ i) && decide (i < 0x7FE05)) ∧ page t) ∧
      (h.afterFull = true → Ends c s fun t => t.mem.rd64 .mram 0x7FE04 = w0 ∧ Same s t u F.REC_SEQ_HEAD_HEAD ∧ Steps s t u F.REC_SEQ_HEAD_CHG ∧ rest t ∧
        MemKept s t (fun r i => r == .mram && i == 0x7FE04) ∧ page t))

/-- R383 to R388, R391: a start of a sweep begins it, is held, or is dropped and counted; a sweep takes the 512 counters in order with their stamps; settings wait for the tick boundary or
set CFG_REJ; CLR zeroes the counters; a tracer that is stopped is cleared. -/
def Sys2Proof.Spec.TallyCommands : Prop :=
  ∀ (who : Who) (half : Half) (tr i : Nat) (v : Word) (s : State), tr < 4 → i < 512 → Settled s →
    let u := U.tally
    let h := s.blk.tally
    let blk := s.blk.fld u F.TALLY_CSEL_BLOCK
    let ctr := s.blk.fld u F.TALLY_CSEL_CTR
    let place := if blk < 36 then blk * 12 + ctr else 432 + (blk - 36) * 4 + ctr
    let code := v.toNat / 2 ^ 24 % 32
    let sources := if blk < 33 then 4 else if blk = 33 then 2 else if blk < 36 then 4 else if blk < 44 then 3 else if blk < 53 then 2 else 1
    let valid := blk < 56 ∧ ctr < (if blk < 36 then 12 else 4) ∧ code < (if ctr < 4 then sources else 10)
    let page := fun (t : State) => RegsKept s t (fun x _ => x == u) ∧ MemSame s t
    let entry := s.blk.fld u F.TALLY_BUF_ADDR_ENTRY
    let mask : Word := match half with | .both => 0xFFFFFFFFFFFFFFFF | .lo => 0xFFFFFFFF | .hi => 0xFFFFFFFF00000000
    let begun := fun (t : State) =>
      (h.pos = none → t.blk.tally.pos = some 0 ∧ t.blk.flag u F.TALLY_STAT_BUSY = true ∧ Same s t u F.TALLY_STAT_HELD) ∧
        (h.pos ≠ none → s.blk.flag u F.TALLY_STAT_HELD = false → t.blk.flag u F.TALLY_STAT_HELD = true ∧ t.blk.tally.pos = h.pos ∧ Same s t u F.TALLY_STAT_DROPS) ∧
        (h.pos ≠ none → s.blk.flag u F.TALLY_STAT_HELD = true → Adds s t u F.TALLY_STAT_DROPS 1 ∧ Cause t u 17 ∧ t.blk.tally.pos = h.pos) ∧
        t.blk.tally.ctrs = h.ctrs ∧ page t
    let value := (Store.get (0 : Word) h.ctrs i).toNat
    let due := h.perAt + max 3 (s.blk.fld u F.TALLY_CFG_PERIOD) * 1966080
    (Takes s who u → s.blk.time.coll = [] →
      (Ends (.tallySweep who) s begun) ∧
      (Ends (.tallyClr who) s fun t => (∀ k, Store.get (0 : Word) t.blk.tally.ctrs k = 0) ∧ t.blk.tally.cfg = h.cfg ∧ t.blk.regs = s.blk.regs ∧ MemSame s t) ∧
      (half ≠ .hi → valid → Ends (.tallyCcfgWrite who half v) s fun t => t.blk.ccfgOf place = v &&& 0x9F0FFFFF ∧ t.blk.tally.cfg = h.cfg ∧ t.blk.tally.ctrs = h.ctrs ∧
        (∀ k, k < 512 → k ≠ place → t.blk.ccfgOf k = s.blk.ccfgOf k) ∧ t.blk.regs = s.blk.regs ∧ MemSame s t) ∧
      (half ≠ .hi → ¬ valid → Ends (.tallyCcfgWrite who half v) s fun t => t.blk.flag u F.TALLY_STAT_CFG_REJ = true ∧ t.blk.tally = h ∧ page t) ∧
      (s.blk.flag u (F.TR_CTRL_RUN tr) = false → Ends (.tracerClr who tr) s fun t => t.blk.reg u (R.TR_STAT tr) = 0 ∧
        RegsKept s t (fun x off => x == u && off == R.TR_STAT tr) ∧ MemSame s t) ∧
      (s.blk.flag u (F.TR_CTRL_RUN tr) = true → Ends (.tracerClr who tr) s fun t => t.blk.regs = s.blk.regs ∧ MemSame s t)) ∧
    (s.blk.fld u F.TALLY_CFG_PERIOD = 0 ∨ s.blk.inReset = true → Ends .tallyPeriodic s fun t => t = s) ∧
    (s.blk.fld u F.TALLY_CFG_PERIOD ≠ 0 → s.blk.inReset = false → DueNow s due → Ends .tallyPeriodic s fun t => begun t ∧ t.blk.tally.perAt = due) ∧
    (h.pos = some i → value < 2 ^ 48 → Ends .tallyCapture s fun t => t.blk.tally.pos = some (i + 1) ∧
      (t.mem.rd64 .tallyBuf (2 * i)).toNat = value + (if i < 432 then i / 12 else 36 + (i - 432) / 4) * 2 ^ 48 + (if i < 432 then i % 12 else (i - 432) % 4) * 2 ^ 56 + 2 ^ 60 ∧
      t.mem.rd64 .tallyBuf (2 * i + 1) = s.blk.now ∧ MemKept s t (fun r k => r == .tallyBuf && (k == 2 * i || k == 2 * i + 1)) ∧ t.blk.regs = s.blk.regs) ∧
    (h.pos = none ∨ h.pos = some 512 → Ends .tallyCapture s fun t => t = s) ∧
    (h.pos = some 512 → Ends .tallySweepDone s fun t => Steps s t u F.TALLY_STAT_SWEEPS ∧ Cause t u 16 ∧ t.blk.flag u F.TALLY_STAT_HELD = false ∧
      (s.blk.flag u F.TALLY_STAT_HELD = false → t.blk.tally.pos = none ∧ t.blk.flag u F.TALLY_STAT_BUSY = false) ∧
      (s.blk.flag u F.TALLY_STAT_HELD = true → t.blk.tally.pos = some 0 ∧ t.blk.flag u F.TALLY_STAT_BUSY = true) ∧ page t) ∧
    (h.pos ≠ some 512 → Ends .tallySweepDone s fun t => t = s) ∧
    (s.blk.readOk who u = true → who = .pf ∨ who = .warden → Ends (.tallyBufRead who half) s fun t => t.blk.rdata = s.mem.rd64 .tallyBuf (2 * entry + 1) &&& mask ∧
      t.blk.fld u F.TALLY_BUF_ADDR_ENTRY = (entry + 1) % 512 ∧ RegsKept s t (fun x off => x == u && off == R.TALLY_BUF_ADDR) ∧ MemSame s t) ∧
    (∀ k, who = .vf k → Ends (.tallyBufRead who half) s fun t => t.blk.rdata = 0 ∧ t.blk.regs = s.blk.regs ∧ MemSame s t)

/-- R371 to R391: the event recorder, the tally and the tracers. -/
def Obligations.RecorderAndTally : Prop := RecorderEvents ∧ RecorderWrites ∧ TallyCommands

namespace Sys2Proof.Spec

/-- `n` bytes at byte `off` of a token, lowest first, as a number (R396). -/
def tok (s : State) (buf off n : Nat) : Nat := tokNum s.mem buf off n

/-- The roles of a change, in either order (R398), by its code, its argument and the keys that are installed. -/
def rolePairs (o : OtpH) (change arg : Nat) : List (Nat × Nat) :=
  if change = 1 ∨ change = 2 ∨ change = 7 then [(1, 2)]
  else if change = 3 then (if o.owner = [] then [(1, 4)] else [(2, 1), (2, 3)])
  else if change = 4 then (if o.site = [] then [(2, 4)] else [(3, 2)])
  else if change = 6 then [(2, 3), (2, 1)]
  else if arg % 256 = 1 then [(1, 2)] else if arg % 256 = 2 then [(2, 3)] else if arg % 256 = 3 then [(2, 1), (2, 3)] else [(1, 2), (1, 3), (2, 3)]

/-- The state permits a change and its argument is valid (R393, R394, R398); a LEGACY change names a value other than the present one (model's choice, log entry 32). -/
abbrev permitted (o : OtpH) (change arg : Nat) : Prop :=
  o.lc ≠ 4 ∧ (change = 1 → o.lc = 3 ∧ arg = 0) ∧ (change = 3 → o.owner = [] → o.lc ≤ 1) ∧ (change = 4 → o.site = [] → o.lc ≤ 1) ∧
    (change = 5 → o.lc < arg % 256 ∧ arg % 256 ≤ 4 ∧ arg < 65536 ∧ (arg / 256 = 0 ∨ arg / 256 = 1 ∧ o.lc = 0)) ∧
    (change = 6 → arg = 1 - o.legacy % 2) ∧ (change = 7 → arg < 2 ^ 64)

/-- An OTP slot or bit is free. -/
abbrev slotFree (o : OtpH) (change : Nat) : Prop :=
  (change = 2 → o.vendor.length < 4) ∧ (change = 3 → o.owner.length < 4) ∧ (change = 4 → o.site.length < 4) ∧ (change = 6 → o.legacy < 16)

/-- The public key of a token is its role's key, or, for NEWKEY, the one that ARG names (R395, R396, R398). -/
def keyMatches (s : State) (buf : Nat) : Bool :=
  let o := s.blk.otp
  let hash := Config.sha384 (tokBytes s.mem buf 96 97 ++ if o.hybrid then tokBytes s.mem buf 296 1952 else [])
  let role := tok s buf 2 1
  if role = 4 then hash == tok s buf 48 48
  else (if role = 1 then o.vendor else if role = 2 then o.owner else if role = 3 then o.site else []).getLast? == some hash

/-- Every signature of a token that the HYBRID mode asks for verifies (R395, R396). -/
def signed (s : State) (buf : Nat) : Bool :=
  Config.ecdsaOk (tokBytes s.mem buf 96 97) (Config.sha384 (tokBytes s.mem buf 0 200)) (tokBytes s.mem buf 200 96) &&
    (!s.blk.otp.hybrid || Config.mldsaOk (tokBytes s.mem buf 296 1952) (tokBytes s.mem buf 0 2248) (tokBytes s.mem buf 2248 3309))

/-- The checks of R399 that two tokens pass before the roles: format, serial, nonce and its age, keys and signatures, and equal changes. -/
abbrev tokensGood (s : State) : Prop :=
  (∀ k, k < 2 → tok s k 0 2 = 1 ∧ tok s k 4 4 = (if s.blk.otp.hybrid then 5557 else 296)) ∧ (∀ k, k < 2 → tok s k 8 8 = (s.blk.reg 0 R.ROOT_SERIAL).toNat) ∧
    (∀ k, k < 2 → s.blk.wdn.nonce = some (tok s k 16 32)) ∧ s.blk.t ≤ s.blk.wdn.nonceAt + 600 * 1966080000 ∧
    (∀ k, k < 2 → keyMatches s k = true) ∧ (∀ k, k < 2 → signed s k = true) ∧ tok s 1 3 1 = tok s 0 3 1 ∧ tok s 1 48 48 = tok s 0 48 48

/-- The roles of the two tokens differ and form a listed pair. -/
abbrev rolesGood (s : State) : Prop :=
  let l := rolePairs s.blk.otp (tok s 0 3 1) (tok s 0 48 48)
  (tok s 0 2 1, tok s 1 2 1) ∈ l ∨ (tok s 1 2 1, tok s 0 2 1) ∈ l

/-- A writer that reaches the warden's page and may command it: the PF or the management SPI (R419). -/
abbrev Commands (s : State) (who : Who) : Prop := (who = .pf ∨ who = .mspi) ∧ Settled s ∧ s.blk.writeOk who U.warden = true ∧ s.blk.time.coll = []

end Sys2Proof.Spec

/-- R396 to R399, R419: a fresh nonce; token words; APPLY consumes the nonce and answers with the first check that fails, with TOKEN_BAD and nothing changed; other origins are
ignored. -/
def Sys2Proof.Spec.TokenChecks : Prop :=
  ∀ (who : Who) (half : Half) (v : Word) (s : State), Settled s →
    let u := U.warden
    let w := s.blk.wdn
    let change := tok s 0 3 1
    let arg := tok s 0 48 48
    let both := fun (p : Nat → Bool) => p 0 && p 1
    let free := w.coast = none ∧ w.lcDue = none
    let fails := fun (code : Nat) => Ends (.secApply who) s fun t => t.blk.fld u F.WDN_SEC_STAT_RESULT = code ∧ Corrected s t u ∧ Cause t u 16 ∧ t.blk.otp = s.blk.otp ∧
      t.blk.wdn = { w with nonce := none } ∧ t.blk.recd = s.blk.recd ∧ Same s t u F.WDN_SEC_STAT_APPLIED ∧ RegsKept s t (fun x _ => x == u || x == 0) ∧ MemSame s t
    let len := if s.blk.otp.hybrid then 5557 else 296
    let format := both fun k => tok s k 0 2 == 1 && tok s k 4 4 == len
    let serial := both fun k => tok s k 8 8 == (s.blk.reg 0 R.ROOT_SERIAL).toNat
    let nonce := both fun k => w.nonce == some (tok s k 16 32)
    let young := decide (s.blk.t ≤ w.nonceAt + 600 * 1966080000)
    let keyed := both fun k => keyMatches s k && signed s k
    let place := s.blk.fld u F.WDN_TOK_ADDR_BUF * 1024 + s.blk.fld u F.WDN_TOK_ADDR_WORD
    let mask : Word := match half with | .both => 0xFFFFFFFFFFFFFFFF | .lo => 0xFFFFFFFF | .hi => 0xFFFFFFFF00000000
    (Commands s who →
      (¬ free → fails 2) ∧ (free → format = false → fails 11) ∧ (free → format = true → serial = false → fails 3) ∧
      (free → format = true → serial = true → nonce = false → fails 4) ∧ (free → format = true → serial = true → nonce = true → young = false → fails 5) ∧
      (free → format = true → serial = true → nonce = true → young = true → keyed = false → fails 6) ∧
      (free → format = true → serial = true → nonce = true → young = true → keyed = true → tok s 1 3 1 ≠ change ∨ tok s 1 48 48 ≠ arg → fails 8) ∧
      (free → tokensGood s → change ∈ [1, 2, 3, 4, 5, 6, 7] → ¬ rolesGood s → fails 7) ∧
      (free → tokensGood s → change ∈ [1, 2, 3, 4, 5, 6, 7] → rolesGood s → ¬ permitted s.blk.otp change arg → fails 9) ∧
      (free → tokensGood s → change ∈ [1, 2, 3, 4, 5, 6, 7] → rolesGood s → permitted s.blk.otp change arg → ¬ slotFree s.blk.otp change → fails 10)) ∧
    (Commands s who → w.coast = none →
      (Ends (.nonceReq who) s fun t => t.blk.wdn.nonceAt = s.blk.t ∧ (∀ j, j < 4 → ((t.blk.wdn.nonce.getD 0) / 2 ^ (64 * j)) % 2 ^ 64 = (t.blk.reg u (R.WDN_NONCE j)).toNat) ∧
        t.blk.wdn.nonce ≠ none ∧ RegsKept s t (fun x off => x == u && (off == R.WDN_NONCE 0 || off == R.WDN_NONCE 1 || off == R.WDN_NONCE 2 || off == R.WDN_NONCE 3)) ∧ MemSame s t) ∧
      (Ends (.tokenWrite who half v) s fun t => t.mem.rd64 .token place = (s.mem.rd64 .token place &&& ~~~mask) ||| (v &&& mask) ∧
        MemKept s t (fun r i => r == .token && i == place) ∧ t.blk.fld u F.WDN_TOK_ADDR_WORD =
          (if s.blk.flag u F.WDN_TOK_ADDR_AUTOINC then (s.blk.fld u F.WDN_TOK_ADDR_WORD + 1) % 1024 else s.blk.fld u F.WDN_TOK_ADDR_WORD) ∧
        RegsKept s t (fun x off => x == u && off == R.WDN_TOK_ADDR))) ∧
    (Takes s who u → s.blk.time.coll = [] → who ≠ .pf → who ≠ .mspi →
      (Ends (.secApply who) s fun t => t.blk.regs = s.blk.regs ∧ t.blk.otp = s.blk.otp ∧ t.blk.wdn = w ∧ MemSame s t) ∧
      (Ends (.nonceReq who) s fun t => t.blk.regs = s.blk.regs ∧ t.blk.wdn = w ∧ MemSame s t) ∧
      (Ends (.tokenWrite who half v) s fun t => t.blk.regs = s.blk.regs ∧ MemSame s t))

/-- R394, R398 to R400: where every check passes, RESULT reads OK, APPLIED adds one, a PROTECT record tells the change (not for LIFECYCLE), and the change takes effect: the debug port
opens, the role's next slot is burned, the life-cycle change becomes due with the outputs' sequence, the next LEGACY bit is burned, or the recorded rows are authorised. -/
def Sys2Proof.Spec.ProtectionChanges : Prop :=
  ∀ (who : Who) (s : State), Commands s who → s.blk.wdn.coast = none → s.blk.wdn.lcDue = none → tokensGood s → tok s 0 3 1 ∈ [1, 2, 3, 4, 5, 6, 7] → rolesGood s →
    permitted s.blk.otp (tok s 0 3 1) (tok s 0 48 48) → slotFree s.blk.otp (tok s 0 3 1) →
    let u := U.warden
    let o := s.blk.otp
    let change := tok s 0 3 1
    let arg := tok s 0 48 48
    let accepted := fun (t : State) => t.blk.fld u F.WDN_SEC_STAT_RESULT = 1 ∧ Steps s t u F.WDN_SEC_STAT_APPLIED ∧ Cause t u 16 ∧ t.blk.wdn.nonce = none ∧ MemSame s t ∧
      (change ≠ 5 → t.blk.recd.incoming.dropLast = s.blk.recd.incoming ∧
        let e := t.blk.recd.incoming.getLastD {}
        e.typ = 9 ∧ e.uid = 0x04E0 ∧ e.words = [BitVec.ofNat 64 (change * 2 ^ 16 + tok s 0 2 1 * 2 ^ 24 + tok s 1 2 1 * 2 ^ 27), BitVec.ofNat 64 arg]) ∧
      (change ≠ 7 → RegsKept s t (fun x _ => x == u))
    (Ends (.secApply who) s accepted) ∧
    (change = 1 → (Ends (.debugUnlock who) s fun t => accepted t ∧ t.blk.wdn.debug = true ∧ t.blk.otp = o) ∧ Ends (.keyVendor who) s fun t => t = s) ∧
    (change = 2 → (Ends (.keyVendor who) s fun t => accepted t ∧ t.blk.otp = { o with vendor := o.vendor ++ [arg] }) ∧ Ends (.keyOwner who) s fun t => t = s) ∧
    (change = 3 → (Ends (.keyOwner who) s fun t => accepted t ∧ t.blk.otp = { o with owner := o.owner ++ [arg] }) ∧ Ends (.keySite who) s fun t => t = s) ∧
    (change = 4 → (Ends (.keySite who) s fun t => accepted t ∧ t.blk.otp = { o with site := o.site ++ [arg] }) ∧ Ends (.debugUnlock who) s fun t => t = s) ∧
    (change = 5 → (Ends (.secApply who) s fun t => t.blk.wdn.lcDue = some (arg % 256, decide (arg / 256 % 256 = 1)) ∧ t.blk.otp = o ∧ t.blk.flt.safeSeq.length = 3 ∧
      ∀ x ∈ t.blk.flt.safeSeq, s.blk.t ≤ x.1 ∧ x.1 ≤ s.blk.t + 4096) ∧ (Ends (.legacyBit who) s fun t => t = s) ∧ Ends (.hardRepair who) s fun t => t = s) ∧
    (change = 6 → Ends (.legacyBit who) s fun t => accepted t ∧ t.blk.otp = { o with legacy := o.legacy + 1 } ∧ t.blk.flag u F.WDN_SEC_STAT_PENDING = true ∧
      t.blk.flag 0 F.FLT_MODE_LEGACY = s.blk.flag 0 F.FLT_MODE_LEGACY) ∧
    (change = 7 → Ends (.hardRepair who) s fun t => accepted t ∧ (∀ x ∈ o.hard, x ∈ t.blk.otp.hard) ∧ ∀ i, i < 64 → (arg / 2 ^ i % 2 = 0 →
      t.blk.reg (U.pc i) R.PC_REPAIR = s.blk.reg (U.pc i) R.PC_REPAIR) ∧
      (arg / 2 ^ i % 2 = 1 → t.blk.fld (U.pc i) F.PC_REPAIR_HARD_PEND = (t.blk.otp.hard.filter fun x => x.1 == i && !x.2.2).length % 32))

/-- R394 to R400: protection changes by tokens. -/
def Obligations.WardenSecurity : Prop := TokenChecks ∧ ProtectionChanges

namespace Sys2Proof.Spec

/-- The slot that a session writes (R409). -/
def slotOf (s : State) : Nat := 1 - s.blk.boot.running % 2

/-- Bytes of an image slot. -/
def imgNum (s : State) (k off n : Nat) : Nat := slotNum s.mem k off n

/-- One role's signature over the header digest (R404). -/
def imgSigned (s : State) (k key pubAt mlAt : Nat) : Bool :=
  let o := s.blk.otp
  let sig := imgNum s k 24 4
  let pub := slotBytes s.mem k (sig + pubAt) 97
  let ml := slotBytes s.mem k (sig + mlAt) 1952
  let digest := Config.sha384 (slotBytes s.mem k 0 4096)
  Config.sha384 (pub ++ if o.hybrid then ml else []) == key && Config.ecdsaOk pub digest (slotBytes s.mem k (sig + pubAt + 104) 96) &&
    (!o.hybrid || (imgNum s k 11 1 % 2 == 1 && Config.mldsaOk ml [digest] (slotBytes s.mem k (sig + mlAt + 1952) 3309)))

/-- R405 but for the floor: form, signatures and digests of the image in slot `k`. -/
abbrev genuine (s : State) (k : Nat) : Prop :=
  let n := imgNum s k 28 4
  slotBytes s.mem k 0 8 = [68, 79, 82, 87, 69, 90, 65, 78] ∧ imgNum s k 8 2 = 1 ∧ imgNum s k 20 4 ≤ 46137344 ∧ 4 ≤ n ∧ n ≤ 16 ∧
    (∀ y, y < 4 → ((List.range n).filter fun c => imgNum s k (64 + 64 * c) 2 == y + 1).length = 1) ∧
    (s.blk.otp.vendor.getLast?.any fun key => imgSigned s k key 0 400) = true ∧ (s.blk.otp.lc ≠ 0 → (s.blk.otp.owner.getLast?.any fun key => imgSigned s k key 200 5661) = true) ∧
    ∀ c, c < n → let at_ := imgNum s k (68 + 64 * c) 4
      let len := imgNum s k (72 + 64 * c) 4
      at_ + len ≤ imgNum s k 20 4 ∧ imgNum s k (80 + 64 * c) 48 = Config.sha384 (slotBytes s.mem k at_ len)

/-- The last FIRMWARE record asked for (R417). -/
def Firmware (s t : State) (event old new : Nat) : Prop :=
  t.blk.recd.incoming.dropLast = s.blk.recd.incoming ∧
    let e := t.blk.recd.incoming.getLastD {}
    e.typ = 8 ∧ e.uid = 0x04E0 ∧ e.words = [BitVec.ofNat 64 (event * 2 ^ 16), BitVec.ofNat 64 old, BitVec.ofNat 64 new]

/-- SVN and RELEASE of a slot. -/
def ver (s : State) (k : Nat) : Nat := imgNum s k 10 1 * 2 ^ 32 + imgNum s k 12 4

/-- The source's result field. -/
def resFld (who : Who) : Fld := if who = .pf then F.WDN_STG_STAT_RES_PF else F.WDN_STG_STAT_RES_MSPI
def srcCode (who : Who) : Nat := if who = .pf then 1 else 2

end Sys2Proof.Spec

/-- R409 to R411, R419: one session, of the source that opened it first; its data, CLOSE, ABORT and ACTIVATE; BUSY for the other source, in a coast and on probation; a
session idle for 60 s expires with the header erased. -/
def Sys2Proof.Spec.StagingSessions : Prop :=
  ∀ (who : Who) (v : Word) (s : State), Settled s →
    let u := U.warden
    let w := s.blk.wdn
    let st := s.blk.fld u F.WDN_STG_STAT_STATE
    let owner := s.blk.fld u F.WDN_STG_STAT_OWNER
    let k := slotOf s
    let ram := if k = 0 then Ram.slotA else Ram.slotB
    let off := s.blk.fld u F.WDN_STG_ADDR_OFFSET / 8 * 8
    let sector := off / 65536
    let idle := if s.blk.fld 0 F.HOST_BOOT_PHASE = 10 then 6 else 0
    let res := fun (t : State) (r : Nat) => t.blk.fld u (resFld who) = r
    let only := fun (t : State) => RegsKept s t (fun x o => x == u && o == R.WDN_STG_STAT) ∧ MemSame s t
    let unmoved := fun (t : State) => Same s t u F.WDN_STG_STAT_STATE ∧ Same s t u F.WDN_STG_STAT_OWNER ∧ t.blk.wdn = w ∧ only t
    let ended := fun (t : State) => t.blk.fld u F.WDN_STG_STAT_STATE = idle ∧ t.blk.fld u F.WDN_STG_STAT_OWNER = 0 ∧
      (∀ i, i < 512 → t.mem.rd ram i = 0) ∧ MemKept s t (fun r i => r == ram && decide (i < 512))
    (Commands s who →
      ((w.coast ≠ none ∨ w.probAt ≠ none ∨ owner ≠ 0) → Ends (.stgOpen who) s fun t => res t 1 ∧ unmoved t) ∧
      (w.coast = none → w.probAt = none → owner = 0 → Ends (.stgOpen who) s fun t => res t 0 ∧ t.blk.fld u F.WDN_STG_STAT_STATE = 1 ∧
        t.blk.fld u F.WDN_STG_STAT_OWNER = srcCode who ∧ t.blk.wdn.stgAt = s.blk.t ∧ t.blk.wdn.erased = [] ∧
        t.blk.flag u F.WDN_STG_IMG_REJ_SET = (Store.get 0 s.blk.boot.rejected k != 0) ∧ MemSame s t)) ∧
    (Commands s who → w.coast = none →
      (owner = 0 → (Ends (.stgClose who) s fun t => res t 6 ∧ unmoved t) ∧ (Ends (.stgAbort who) s fun t => res t 6 ∧ unmoved t) ∧
        Ends (.stgActivate who) s fun t => res t 6 ∧ unmoved t) ∧
      (owner ≠ 0 → owner ≠ srcCode who → (Ends (.stgClose who) s fun t => res t 1 ∧ unmoved t) ∧ (Ends (.stgAbort who) s fun t => res t 1 ∧ unmoved t) ∧
        (Ends (.stgActivate who) s fun t => res t 1 ∧ unmoved t) ∧ Ends (.stgDataWrite who .both v) s fun t => t.blk.regs = s.blk.regs ∧ t.blk.wdn = w ∧ MemSame s t) ∧
      (owner = srcCode who → st = 1 ∨ st = 3 →
        (off < 46137344 → Ends (.stgDataWrite who .both v) s fun t => t.mem.rd64 ram (off / 8) = v ∧ t.blk.fld u F.WDN_STG_ADDR_OFFSET = (off + 8) % 2 ^ 26 ∧
          t.blk.fld u F.WDN_STG_STAT_STATE = 1 ∧ t.blk.wdn.stgAt = s.blk.t ∧
          (sector ∈ w.erased → MemKept s t (fun r i => r == ram && i == off / 8)) ∧
          (sector ∉ w.erased → sector ∈ t.blk.wdn.erased ∧ (∀ i, i < 8192 → sector * 8192 + i ≠ off / 8 → t.mem.rd ram (sector * 8192 + i) = 0) ∧
            MemKept s t (fun r i => r == ram && decide (i / 8192 = sector)))) ∧
        (Ends (.stgClose who) s fun t => res t 0 ∧ t.blk.fld u F.WDN_STG_STAT_STATE = 2 ∧ Same s t u F.WDN_STG_STAT_OWNER ∧ only t)) ∧
      (owner = srcCode who → st = 1 ∨ st = 2 ∨ st = 3 → Ends (.stgAbort who) s fun t => res t 0 ∧ ended t) ∧
      (owner = srcCode who → st = 3 → idle = 0 → Ends (.stgActivate who) s fun t => res t 0 ∧ t.blk.fld u F.WDN_STG_STAT_STATE = 4 ∧
        t.blk.wdn.coast = some { phase := 0, start := s.blk.t, back := false, revert := false } ∧ only t) ∧
      (owner = srcCode who → st = 1 ∨ st = 2 → Ends (.stgActivate who) s fun t => res t 6 ∧ t.blk.wdn.coast = none ∧ Same s t u F.WDN_STG_STAT_STATE ∧ only t)) ∧
    (owner ≠ 0 → st = 1 ∨ st = 3 → w.coast = none → DueNow s (w.stgAt + 60 * 1966080000) → Ends .stgSessionExpiry s fun t => ended t ∧ Cause t u 18 ∧
      (owner = 1 → t.blk.fld u F.WDN_STG_STAT_RES_PF = 2) ∧ (owner = 2 → t.blk.fld u F.WDN_STG_STAT_RES_MSPI = 2)) ∧
    (owner = 0 ∨ w.coast ≠ none → Ends .stgSessionExpiry s fun t => t = s)

/-- R405, R406, R408, R410: the check of CLOSE: an image that is not genuine is rejected with IMG_AUTH, one below the floor with IMG_ROLLBACK, one marked REJECTED_SETTINGS with that
result; any other is VERIFIED and copied, each component into the free half of the activation buffer, and in recovery secure boot starts from its slot. -/
def Sys2Proof.Spec.ImageVerification : Prop :=
  ∀ (c i : Nat) (s : State), Settled s → s.blk.inReset = false → s.blk.fld U.warden F.WDN_STG_STAT_STATE = 2 → s.blk.fld U.warden F.WDN_STG_STAT_OWNER = 1 →
    let u := U.warden
    let k := slotOf s
    let floor := s.blk.otp.floor
    let svn := imgNum s k 10 1
    let release := imgNum s k 12 4
    let marked := Store.get 0 s.blk.boot.rejected k = release + 1
    let recovery := s.blk.fld 0 F.HOST_BOOT_PHASE = 10
    let rejected := fun (t : State) (r : Nat) => t.blk.fld u F.WDN_STG_STAT_RES_PF = r ∧ t.blk.fld u F.WDN_STG_STAT_STATE = (if s.blk.fld 0 F.HOST_BOOT_PHASE = 10 then 6 else 0) ∧
      t.blk.fld u F.WDN_STG_STAT_OWNER = 0 ∧ Cause t u 17 ∧ Firmware s t 2 (ver s (s.blk.boot.running)) (ver s k) ∧ t.blk.boot = s.blk.boot ∧ MemSame s t
    let half := 1 - s.blk.wdn.half % 2
    let base := (s.blk.fld (U.hs 0) (F.MEM_REGION_BASE 3) + s.blk.fld (U.hs 0) (F.MEM_REGION_SIZE 3)) * 2 ^ 26 - 2 ^ 27 + half * 2 ^ 26
    let at_ := imgNum s k (68 + 64 * c) 4
    let len := imgNum s k (72 + 64 * c) 4
    let apart := ∀ d, d < imgNum s k 28 4 → d ≠ c → imgNum s k (68 + 64 * d) 4 + imgNum s k (72 + 64 * d) 4 ≤ at_ ∨ at_ + len ≤ imgNum s k (68 + 64 * d) 4
    (¬ genuine s k → Ends .stgVerifyDone s fun t => rejected t 3 ∧ Corrected s t u) ∧
    (genuine s k → svn < floor → Ends .stgVerifyDone s fun t => rejected t 4 ∧ Corrected s t u) ∧
    (genuine s k → floor ≤ svn → marked → Ends .stgVerifyDone s fun t => rejected t 5) ∧
    (genuine s k → floor ≤ svn → ¬ marked → ¬ recovery → Ends .stgVerifyDone s fun t => t.blk.fld u F.WDN_STG_STAT_RES_PF = 0 ∧ t.blk.fld u F.WDN_STG_STAT_STATE = 3 ∧
      Cause t u 17 ∧ Firmware s t 1 (ver s (s.blk.boot.running)) (ver s k) ∧ t.blk.fld u F.WDN_STG_IMG_SVN = svn ∧ t.blk.fld u F.WDN_STG_IMG_RELEASE = release ∧
      (c < imgNum s k 28 4 → i < len → apart → (∀ p, p < 64 → serves s p) → s.mem.wf = true → (t.mem.rdByte (base + at_ + i)).toNat = slotByte s.mem k (at_ + i)) ∧
      (∀ r x, x < 2 ^ 40 → t.mem.rd r x = s.mem.rd r x) ∧ t.blk.boot = s.blk.boot ∧ RegsKept s t (fun x _ => x == u)) ∧
    (genuine s k → floor ≤ svn → ¬ marked → recovery → Ends .stgVerifyDone s fun t => t.blk.fld 0 F.HOST_BOOT_PHASE = 3 ∧ t.blk.boot.committed = k ∧
      t.blk.fld u F.WDN_STG_STAT_OWNER = 0 ∧ MemSame s t)

/-- R411 to R415: the phases of a coast: the engines are suspended, the new warden firmware starts, system data is cleared, the settings import succeeds or falls back, and the image runs on
probation, or the previous one again; a FATAL fault abandons it. -/
def Sys2Proof.Spec.CoastPhases : Prop :=
  ∀ (ok : Bool) (n i : Nat) (c : CoastH) (s : State), Settled s → s.blk.wdn.coast = some c → n < 32 →
    let u := U.warden
    let k := slotOf s
    let done := Instr.coastPhaseDone ok
    let fatal := s.blk.flag 0 F.FLT_MODE_FATAL = true
    let moved := fun (t : State) (p : Nat) => t.blk.wdn.coast = some { c with phase := p }
    let img := if c.revert then s.blk.boot.committed else if c.back then s.blk.boot.running else k
    let good := ok = true ∧ s.blk.boot.setOk = true ∧ imgNum s img 16 2 ≤ s.blk.boot.setSchema ∧ s.blk.boot.setSchema ≤ imgNum s img 18 2
    let ovr := fun (t : State) => t.blk.wdn.coast = none ∧ t.blk.fld u F.WDN_STG_STAT_STATE = 0 ∧ t.blk.fld u F.WDN_STG_STAT_OWNER = 0 ∧
      t.blk.fld u F.WDN_ACT_LAST_US = min 65535 ((s.blk.t - c.start) * 1000000 / 1966080000) ∧
      ((s.blk.eng n).running = true → (s.blk.eng n).paused = true → (t.blk.eng n).paused = false ∧
        ((s.blk.eng n).sys = false → t.blk.eng n = { s.blk.eng n with paused := false }) ∧ ((s.blk.eng n).sys = true → (t.blk.eng n).pc = 0))
    (fatal → Ends done s fun t => t.blk.wdn.coast = none ∧ t.blk.fld u F.WDN_STG_STAT_STATE = 0 ∧ t.blk.fld u F.WDN_STG_STAT_OWNER = 0 ∧ t.blk.boot = s.blk.boot ∧
      RegsKept s t (fun x off => x == u && off == R.WDN_STG_STAT) ∧ MemSame s t) ∧
    (¬ fatal → c.phase = 0 → Ends done s fun t => moved t 1 ∧ ((s.blk.eng n).running = true → t.blk.eng n = { s.blk.eng n with paused := true }) ∧
      ((s.blk.eng n).running = false → t.blk.eng n = s.blk.eng n) ∧ t.blk.regs = s.blk.regs ∧ MemSame s t) ∧
    (¬ fatal → c.phase = 1 → Ends done s fun t => moved t 2 ∧ (t.blk.eng 32).running = true ∧ (t.blk.eng 32).pc = 0 ∧ t.blk.eng n = s.blk.eng n ∧ t.blk.regs = s.blk.regs ∧
      MemSame s t) ∧
    (¬ fatal → c.phase = 2 → Ends done s fun t => moved t 3 ∧ (i < s.blk.fld (U.ce n) F.CE_PART_DSPLIT * 256 → t.mem.rd .dmem (n * 32768 + i) = 0) ∧
      (s.blk.fld (U.ce n) F.CE_PART_DSPLIT * 256 ≤ i → i < 32768 → (∀ j, s.blk.fld (U.ce j) F.CE_PART_DSPLIT ≤ 128) → t.mem.rd .dmem (n * 32768 + i) = s.mem.rd .dmem (n * 32768 + i)) ∧
      MemKept s t (fun r _ => r == .dmem) ∧ t.blk.regs = s.blk.regs) ∧
    (¬ fatal → c.phase = 3 →
      (good → Ends done s fun t => moved t 4 ∧ t.blk.fld u F.WDN_SET_IMPORT = 1) ∧
      (¬ good → c.back = true → Ends done s fun t => moved t 4 ∧ t.blk.fld u F.WDN_SET_IMPORT = 3) ∧
      (¬ good → c.back = false → Ends done s fun t => t.blk.wdn.coast = some { c with phase := 2, back := true } ∧ t.blk.fld u F.WDN_SET_IMPORT = 3 ∧
        t.blk.fld u F.WDN_STG_STAT_STATE = 5) ∧
      (Ends done s fun t => t.blk.flag 0 F.FLT_MODE_LEGACY = decide (s.blk.otp.legacy % 2 = 1) ∧ t.blk.flag u F.WDN_SEC_STAT_PENDING = false ∧ t.blk.boot = s.blk.boot ∧
        RegsKept s t (fun x _ => x == u || x == 0) ∧ MemSame s t)) ∧
    (¬ fatal → c.phase = 4 → c.back = false → Ends done s fun t => ovr t ∧ t.blk.boot.running = k ∧ t.blk.boot.committed = s.blk.boot.committed ∧ t.blk.boot.probation = true ∧
      t.blk.wdn.probAt = some s.blk.t ∧ Cause t u 19 ∧ Firmware s t 3 (ver s (s.blk.boot.running)) (ver s k) ∧ t.blk.otp = s.blk.otp ∧ MemSame s t) ∧
    (¬ fatal → c.phase = 4 → c.back = true → c.revert = false → Ends done s fun t => ovr t ∧ t.blk.boot.running = s.blk.boot.running ∧
      Store.get 0 t.blk.boot.rejected k = imgNum s k 12 4 + 1 ∧ Adds s t u F.WDN_ACT_FALLBACKS 1 ∧ Corrected s t u ∧ Cause t u 20 ∧ t.blk.otp = s.blk.otp ∧
      Firmware s t 5 (ver s k) (ver s (s.blk.boot.running)) ∧ MemSame s t) ∧
    (¬ fatal → c.phase = 4 → c.back = true → c.revert = true → Ends done s fun t => ovr t ∧ t.blk.boot.running = s.blk.boot.committed ∧ t.blk.boot.rejected = s.blk.boot.rejected ∧
      t.blk.wdn.probAt = none ∧ Adds s t u F.WDN_ACT_FALLBACKS 1 ∧ Cause t u 20 ∧ Same s t u F.UNIT_FAULT_CORR_CNT ∧
      Firmware s t 6 (ver s (s.blk.boot.running)) (ver s (s.blk.boot.committed)) ∧ MemSame s t)

/-- R402, R416: COMMIT, at once or after 600 s, raises the floor and commits the running image; REVERT starts the second coast; both answer BUSY outside probation; saves answer BUSY in a coast and
complete in turn. -/
def Sys2Proof.Spec.CommitAndSaves : Prop :=
  ∀ (who : Who) (n : Nat) (s : State), Settled s → n < 32 →
    let u := U.warden
    let w := s.blk.wdn
    let x := s.blk.boot
    let res := fun (t : State) (r : Nat) => t.blk.fld u (resFld who) = r
    let committed := fun (t : State) => t.blk.boot = { x with committed := x.running, probation := false } ∧
      t.blk.otp = { s.blk.otp with floor := max s.blk.otp.floor (imgNum s x.running 10 1) } ∧ t.blk.wdn.probAt = none ∧ Cause t u 21 ∧
      Firmware s t 4 (ver s x.committed) (ver s x.running) ∧ MemSame s t
    let busy := fun (t : State) => res t 1 ∧ t.blk.boot = x ∧ t.blk.wdn = w ∧ RegsKept s t (fun v off => v == u && off == R.WDN_STG_STAT) ∧ MemSame s t
    (Commands s who →
      (w.probAt ≠ none → w.coast = none → Ends (.stgCommit who) s fun t => res t 0 ∧ committed t ∧ RegsKept s t (fun v _ => v == u)) ∧
      (w.probAt = none ∨ w.coast ≠ none → Ends (.stgCommit who) s busy) ∧
      (w.probAt ≠ none → w.coast = none → Ends (.stgRevert who) s fun t => res t 0 ∧ t.blk.fld u F.WDN_STG_STAT_STATE = 5 ∧
        t.blk.wdn.coast = some { phase := 2, start := s.blk.t, back := true, revert := true } ∧ ((s.blk.eng n).running = true → (t.blk.eng n).paused = true) ∧ t.blk.boot = x ∧ MemSame s t) ∧
      (w.probAt = none → w.coast = none → Ends (.stgRevert who) s busy) ∧
      (w.coast = none → (Ends (.saveSet who) s fun t => res t 0 ∧ t.blk.wdn.saves = w.saves ++ [0] ∧ MemSame s t) ∧
        Ends (.saveCal who) s fun t => res t 0 ∧ t.blk.wdn.saves = w.saves ++ [1] ∧ MemSame s t) ∧
      (w.coast ≠ none → (Ends (.saveSet who) s busy) ∧ Ends (.saveCal who) s busy)) ∧
    (∀ t0, w.probAt = some t0 → w.coast = none → s.blk.inReset = false → DueNow s (t0 + 600 * 1966080000) → Ends .autoCommit s fun t => committed t ∧ RegsKept s t (fun v _ => v == u)) ∧
    (w.probAt = none → Ends .autoCommit s fun t => t = s) ∧
    (w.saves = [] → Ends .saveDone s fun t => t = s) ∧
    (∀ rest, w.saves = 0 :: rest → Ends .saveDone s fun t => t.blk.wdn.saves = rest ∧ Cause t u 22 ∧ t.blk.boot.setOk = true ∧ t.blk.boot.setSchema = imgNum s x.running 18 2 ∧
      (x.setOk = true → t.blk.boot.setCopy = 1 - x.setCopy % 2) ∧ t.blk.boot.sizes = (List.range 5).map (fun i => s.blk.fld (U.hs 0) (F.MEM_REGION_SIZE i)) ∧
      t.blk.boot.running = x.running ∧ t.blk.boot.committed = x.committed ∧ RegsKept s t (fun v off => v == u && off == R.UNIT_IRQ_STAT) ∧ MemSame s t) ∧
    (∀ rest, w.saves = 1 :: rest → Ends .saveDone s fun t => t.blk.wdn.saves = rest ∧ Cause t u 22 ∧ t.blk.boot = x ∧
      (s.blk.ownPwr (U.rxc n) = 2 → t.mem.rd .calStore (U.rxc n * 64 + 63) = 1 ∧ ∀ j, j < 17 →
        t.mem.rd64 .calStore (U.rxc n * 64 + j) = Store.get (0 : Word) (s.blk.rxcH n).corr j) ∧
      (s.blk.ownPwr (U.rxc n) ≠ 2 → ∀ j, j < 64 → t.mem.rd .calStore (U.rxc n * 64 + j) = s.mem.rd .calStore (U.rxc n * 64 + j)) ∧
      (s.blk.ownPwr (U.txc n) = 2 → t.mem.rd64 .calStore (U.txc n * 64) = (s.blk.txcH n).trim) ∧ MemKept s t (fun r _ => r == .calStore) ∧
      RegsKept s t (fun v off => v == u && off == R.UNIT_IRQ_STAT))

/-- R402 to R417: staging, activation, probation and saves. -/
def Obligations.WardenUpdate : Prop := StagingSessions ∧ ImageVerification ∧ CoastPhases ∧ CommitAndSaves

namespace Sys2Proof.Spec

/-- The endpoint reaches the host: no reset, the link side up, no fatal latch. -/
abbrev reachable (s : State) : Prop := s.blk.inReset = false ∧ s.blk.linkDown = false ∧ s.blk.flag 0 F.FLT_MODE_FATAL = false

/-- First vector and number of vectors of a function (R425). -/
def firstVec (s : State) (func : Nat) : Nat :=
  if func = 0 then 0 else s.blk.fld 0 F.HOST_VEC_PF_VECS + (func - 1) * s.blk.fld 0 F.HOST_VEC_VF_VECS
def vecCount (s : State) (func : Nat) : Nat := if func = 0 then s.blk.fld 0 F.HOST_VEC_PF_VECS else s.blk.fld 0 F.HOST_VEC_VF_VECS

/-- Entry `j` of a function's MSI-X table. -/
def msixEntry (s : State) (func j : Nat) : MsixEnt := Store.get msixReset s.blk.host.msix (func * 2048 + j)

/-- Route entry `k`, and whether it is valid and covers a unit (R426). -/
def route (s : State) (k : Nat) : Word := Store.get (0 : Word) s.blk.host.routes k
abbrev covers (w : Word) (u : Nat) : Prop := Word.fld w 63 63 = 1 ∧ Word.fld w 15 0 ≤ u ∧ u ≤ Word.fld w 31 16

/-- A request that rises is sent through `w`: as a message, or as a pending bit of a masked vector (R426). -/
def Sent (s t : State) (w : Word) : Prop :=
  let func := Word.fld w 36 32
  let vec := Word.fld w 58 48
  let e := msixEntry s func (vec - firstVec s func)
  (e.masked = true → t.blk.host.msgs = s.blk.host.msgs ∧ msixEntry t func (vec - firstVec s func) = { e with pend := true }) ∧
    (e.masked = false → t.blk.host.msgs = s.blk.host.msgs ++ [{ func := func, vec := vec, addr := e.addr, data := e.data }] ∧
      t.blk.host.msix = s.blk.host.msix)

end Sys2Proof.Spec

/-- R425, R426, R470: HOST_VEC takes counts that fit and else sets REJ, VF_VECS beyond 128 as 128 with CLAMP; HOST_ROUTE takes a vector of its function's block and else sets ROUTE_REJ; both accept the PF and the
management SPI alone; an MSI-X table write sets one dword, and unmasking sends the message that waits; a rising request goes out through the first valid route that covers its
unit. -/
def Sys2Proof.Spec.VectorsAndRoutes : Prop :=
  ∀ (who : Who) (func j d k : Nat) (v : Word) (v32 : BitVec 32) (s : State), Settled s →
    let pf := Word.fld v 11 0
    let vf := Word.fld v 23 16
    let rej := decide (pf = 0 ∨ 2048 < pf + s.blk.fld 0 F.HOST_PCIE_NUM_VFS * vf ∨ s.blk.flag 0 F.HOST_VEC_LOCKED)
    let w := v &&& 0x87FF001FFFFFFFFF
    let rf := Word.fld v 36 32
    let inBlock := rf ≤ 16 ∧ firstVec s rf ≤ Word.fld v 58 48 ∧ Word.fld v 58 48 < firstVec s rf + vecCount s rf
    let entry := s.blk.fld 0 F.HOST_ROUTE_SEL_ENTRY
    let e := msixEntry s func j
    let e' : MsixEnt := if d = 0 then { e with addr := (e.addr &&& 0xFFFFFFFF00000000) ||| v32.setWidth 64 } else if d = 1 then
      { e with addr := (e.addr &&& 0xFFFFFFFF) ||| (v32.setWidth 64 <<< 32) } else if d = 2 then { e with data := v32 } else { e with masked := v32.getLsbD 0 }
    (Takes s who 0 → s.blk.time.coll = [] → (who = .pf ∨ who = .mspi) →
      (128 < vf → Word.fld v 25 25 = 0 → s.blk.flag 0 F.HOST_VEC_LOCKED = false → pf ≠ 0 → pf + s.blk.fld 0 F.HOST_PCIE_NUM_VFS * 128 ≤ 2048 →
        Ends (.hostVecWrite who .both v) s fun t => t.blk.fld 0 F.HOST_VEC_PF_VECS = pf ∧ t.blk.fld 0 F.HOST_VEC_VF_VECS = 128 ∧ Corrected s t 0 ∧
          RegsKept s t (fun u _ => u == 0) ∧ MemSame s t) ∧
      (vf ≤ 128 → Ends (.hostVecWrite who .both v) s fun t =>
        t.blk.fld 0 F.HOST_VEC_PF_VECS = (if rej then s.blk.fld 0 F.HOST_VEC_PF_VECS else pf) ∧
        t.blk.fld 0 F.HOST_VEC_VF_VECS = (if rej then s.blk.fld 0 F.HOST_VEC_VF_VECS else vf) ∧
        t.blk.flag 0 F.HOST_VEC_REJ = (rej || (s.blk.flag 0 F.HOST_VEC_REJ && decide (Word.fld v 25 25 = 0))) ∧
        RegsKept s t (fun u off => u == 0 && off == R.HOST_VEC) ∧ t.blk.host = s.blk.host ∧ MemSame s t) ∧
      (inBlock → Ends (.hostRouteWrite who .both v) s fun t => route t entry = w ∧ (k ≠ entry → route t k = route s k) ∧
        t.blk.host.routeRej = s.blk.host.routeRej ∧ t.blk.regs = s.blk.regs ∧ MemSame s t) ∧
      (¬ inBlock → Ends (.hostRouteWrite who .both v) s fun t => t.blk.host = { s.blk.host with routeRej := true } ∧ t.blk.regs = s.blk.regs ∧ MemSame s t)) ∧
    (Takes s who 0 → s.blk.time.coll = [] → who ≠ .pf → who ≠ .mspi →
      (Ends (.hostVecWrite who .both v) s fun t => t.blk.regs = s.blk.regs ∧ t.blk.host = s.blk.host) ∧
      Ends (.hostRouteWrite who .both v) s fun t => t.blk.regs = s.blk.regs ∧ t.blk.host = s.blk.host) ∧
    (reachable s → func ≤ 16 → j < vecCount s func → d < 4 →
      (¬ (e.pend = true ∧ e'.masked = false) → Ends (.msixTableWrite func j d v32) s fun t => msixEntry t func j = e' ∧ t.blk.host.msgs = s.blk.host.msgs ∧
        (k ≠ func * 2048 + j → Store.get msixReset t.blk.host.msix k = Store.get msixReset s.blk.host.msix k) ∧ t.blk.regs = s.blk.regs ∧ MemSame s t) ∧
      (e.pend = true → e'.masked = false → Ends (.msixTableWrite func j d v32) s fun t => msixEntry t func j = { e' with pend := false } ∧
        t.blk.host.msgs = s.blk.host.msgs ++ [{ func := func, vec := firstVec s func + j, addr := e'.addr, data := e'.data }] ∧ t.blk.regs = s.blk.regs ∧ MemSame s t)) ∧
    (vecCount s func ≤ j → Ends (.msixTableWrite func j d v32) s fun t => t = s) ∧
    (s.blk.inReset = false → s.blk.irqReq 0 = false → (s.blk.reg 0 R.UNIT_IRQ_EN).getLsbD 1 = true →
      (k < 64 → covers (route s k) 0 → (∀ i, i < k → ¬ covers (route s i) 0) → Word.fld (route s k) 36 32 ≤ 16 →
        firstVec s (Word.fld (route s k) 36 32) ≤ Word.fld (route s k) 58 48 →
        Word.fld (route s k) 58 48 < firstVec s (Word.fld (route s k) 36 32) + vecCount s (Word.fld (route s k) 36 32) →
          Ends .pcieErr s fun t => Sent s t (route s k)) ∧
      ((∀ i, i < 64 → ¬ covers (route s i) 0) → Ends .pcieErr s fun t => t.blk.host = s.blk.host ∧ Cause t 0 1))

/-- R436: HOST_URST returns a unit that is OFF, READY or FENCED to its reset registers after one Tc, with RESULT 0; it refuses other states with RESULT 1 and protected, group and
reserved UIDs with RESULT 2; other origins than the PF and system code change nothing. STATE stays, and live fields and sealed ones keep what they hold; MC_STAT of the chains at a
PBD's taps follows its RATE. -/
def Sys2Proof.Spec.UnitResets : Prop :=
  ∀ (who : Who) (u off : Nat) (s : State), Takes s who 0 → s.blk.time.coll = [] → u < 65536 →
    let may := whoPf who = true ∨ whoSys who = true
    let barred := u = 0 ∨ (0x4E0 ≤ u ∧ u ≤ 0x4E8) ∨ kindOf u = 0x20 ∨ reservedUid u = true
    let st := s.blk.state u
    let res := fun (t : State) (r : Nat) => t.blk.fld 0 F.HOST_URST_RESULT = r ∧ Cause t 0 28
    (¬ may → Ends (.hostUrst who u) s fun t => t.blk.regs = s.blk.regs ∧ MemSame s t) ∧
    (may → barred → Ends (.hostUrst who u) s fun t => res t 2 ∧ RegsKept s t (fun v o => v == 0 && (o == R.HOST_URST || o == R.UNIT_IRQ_STAT)) ∧ MemSame s t) ∧
    (may → ¬ barred → st ∉ [0, 1, 4] → Ends (.hostUrst who u) s fun t => res t 1 ∧ RegsKept s t (fun v o => v == 0 && (o == R.HOST_URST || o == R.UNIT_IRQ_STAT)) ∧ MemSame s t) ∧
    (may → ¬ barred → st ∈ [0, 1, 4] → Single s u → NoGroups s → s.blk.t + 1 < s.blk.time.tickEnd → Ends (.hostUrst who u) s fun t => res t 0 ∧ t.blk.t = s.blk.t + 1 ∧
      (0x40 ≤ off → off < 0x400 → off % 8 = 0 → resetKeeps u off = 0 → t.blk.reg u off = regReset u off) ∧
      t.blk.reg u R.UNIT_CTRL = regReset u R.UNIT_CTRL ∧ t.blk.reg u R.UNIT_FAULT = 0 ∧
      (switched u = none → t.blk.ownState u = s.blk.ownState u ∧ t.blk.reg u R.UNIT_IRQ_STAT = 0 ∧ t.blk.ctxs = s.blk.ctxs ∧
        RegsKept s t (fun v o => (v == u && (0x40 ≤ o || o == R.UNIT_CTRL || o == R.UNIT_FAULT || o == R.UNIT_IRQ_STAT)) || v == 0 ||
          (kindOf u == 0x04 && kindOf v == 0x19 && o == R.MC_STAT))) ∧ MemSame s t)

/-- R428, R438: PERST_N takes the link down, disables every ring in host memory with its FAULT, ends DMA with the host with result 1 and resets the PCIe configuration; its release
trains the link once REFCLK has qualified; FLR of a VF disables its rings, asks its user programs to stop and clears its MSI-X table; FLR of the PF acts as PERST_N with the
link up. RF service, contexts and, without such DMA, memory stay. -/
def Sys2Proof.Spec.PcieResets : Prop :=
  ∀ (k r n tag speed width : Nat) (s : State), Settled s → n < 32 → tag < 16 →
    let h := s.blk.host
    let g := s.blk.ring r
    let dma := Store.get DmaH.init (s.blk.eng n).dma tag
    let idle := ∀ x ∈ s.blk.engs, ∀ y ∈ x.2.dma, y.2.busy = true → y.2.srcSp ≠ 3 ∧ y.2.dstSp ≠ 3
    let down := fun (t : State) => t.blk.ring r = (if g.inHost then { g with d1 := Word.setFld g.d1 15 15 0, fault := true } else g) ∧
      (dma.busy = true → (dma.srcSp = 3 ∨ dma.dstSp = 3) → (Store.get DmaH.init (t.blk.eng n).dma tag).busy = false ∧ (Store.get DmaH.init (t.blk.eng n).dma tag).result = 1) ∧
      (dma.busy = true → dma.srcSp ≠ 3 → dma.dstSp ≠ 3 → Store.get DmaH.init (t.blk.eng n).dma tag = dma) ∧
      t.blk.fld 0 F.HOST_VEC_PF_VECS = 2048 ∧ t.blk.fld 0 F.HOST_VEC_VF_VECS = 0 ∧ t.blk.fld 0 F.HOST_PCIE_NUM_VFS = 0 ∧ t.blk.flag 0 F.HOST_PCIE_VF_EN = false ∧
      t.blk.host.routes = h.routes ∧ t.blk.ctxs = s.blk.ctxs ∧ Cause t 0 26 ∧
      (idle → t.blk.host.msix = [] ∧ t.blk.engs = s.blk.engs ∧ RegsKept s t (fun v _ => v == 0 || v == U.dsp) ∧ MemSame s t)
    (h.perstLow = false → s.blk.inReset = false → Ends .perstNAssert s fun t => t.blk.host.perstLow = true ∧ t.blk.fld 0 F.HOST_PCIE_SPEED = 0 ∧ t.blk.fld 0 F.HOST_PCIE_WIDTH = 0 ∧
      Adds s t 0 F.HOST_PCIE_PERSTS 1 ∧ down t) ∧
    (h.perstLow = true → Ends .perstNAssert s fun t => t = s) ∧
    (h.perstLow = true → speed ≤ 5 → width ≤ 8 → s.blk.inReset = false → Ends (.perstNRelease speed width) s fun t => t.blk.host = { h with perstLow := false, linkTo := (speed, width) } ∧
      t.blk.fld 0 F.HOST_PCIE_SPEED = (if s.blk.sync.refOk && !h.pcieHeld then speed else 0) ∧ t.blk.fld 0 F.HOST_PCIE_WIDTH = (if s.blk.sync.refOk && !h.pcieHeld then width else 0) ∧
      RegsKept s t (fun v off => v == 0 && off == R.HOST_PCIE) ∧ MemSame s t) ∧
    (h.perstLow = false → Ends (.perstNRelease speed width) s fun t => t = s) ∧
    (reachable s → 1 ≤ k → k ≤ 16 → Ends (.flrVf k) s fun t =>
      (t.blk.ring r) = (if g.func = k then { g with d1 := Word.setFld g.d1 15 15 0 } else g) ∧
      (s.blk.fld (U.ce n) F.CE_CFG_FUNC = k → (t.blk.eng n).reqs = (s.blk.eng n).reqs ||| 2) ∧ (s.blk.fld (U.ce n) F.CE_CFG_FUNC ≠ k → t.blk.eng n = s.blk.eng n) ∧
      (∀ j, j < 2048 → msixEntry t k j = msixReset) ∧ (∀ f j, f ≠ k → j < 2048 → f ≤ 16 → msixEntry t f j = msixEntry s f j) ∧ t.blk.ctxs = s.blk.ctxs ∧
      Adds s t 0 F.HOST_PCIE_FLRS 1 ∧ Cause t 0 26 ∧ RegsKept s t (fun v _ => v == 0) ∧ MemSame s t) ∧
    (reachable s → Ends .flrPf s fun t => t.blk.host.perstLow = false ∧ Same s t 0 F.HOST_PCIE_SPEED ∧ Adds s t 0 F.HOST_PCIE_FLRS 1 ∧ down t)

/-- R429: an error of the endpoint is counted and raises CORRECTED at the root; a host read that never completes is a storage error: result 1 of the engine's DMA, and the fault of the
ring whose entry the ring engine pops. -/
def Sys2Proof.Spec.HostErrors : Prop :=
  ∀ (n tag data r x : Nat) (s : State), Settled s → n ≤ 32 →
    let d := Store.get DmaH.init (s.blk.eng n).dma tag
    let g := s.blk.ring r
    (s.blk.inReset = false → Ends .pcieErr s fun t => Adds s t 0 F.HOST_PCIE_ERRS 1 ∧ Corrected s t 0 ∧ RegsKept s t (fun v _ => v == 0) ∧ MemSame s t) ∧
    (tag < 16 → d.busy = true → d.srcSp = 3 → Ends (.hostReadTimeout n tag data) s fun t =>
      Store.get DmaH.init (t.blk.eng n).dma tag = { d with busy := false, result := 1 } ∧ (t.blk.eng n).dmaerr = true) ∧
    (tag < 16 → (d.busy = false ∨ d.srcSp ≠ 3) → Ends (.hostReadTimeout n tag data) s fun t => t = s) ∧
    (s.blk.flag U.dsp F.DSP_STAT_CUE_FULL = false → s.blk.flag 0 F.FLT_MODE_FATAL = false → s.blk.coasting = false → s.blk.nextCueRing = some r → s.blk.allocCtx = some x →
      s.blk.t < s.blk.time.tickEnd → s.blk.dsp.poppedAt = 0 → g.inHost = true → Ends (.hostReadTimeout 33 tag data) s fun t =>
        t.blk.ring r = { g with cons := (g.cons + 1) % 2 ^ 32, fault := true } ∧ Cause t U.dsp 20 ∧ t.blk.ctxs = s.blk.ctxs ∧ MemSame s t)

namespace Sys2Proof.Spec

/-- The management SPI answers a frame (R430): from 1 ms after the release of POR_N, here within a tick. -/
abbrev Heard (s : State) : Prop :=
  Settled s ∧ s.blk.inReset = false ∧ s.blk.host.releaseAt + 1966080 ≤ s.blk.t ∧ s.blk.t < s.blk.time.tickEnd

/-- Bytes of a request, most significant first (R431). -/
def requestCrc (cmd u off : Nat) (data : List Nat) : Nat := crc8 ([cmd, u / 256, u % 256, off / 256, off % 256] ++ data)
def wordBytes (v : Word) : List Nat := [v.toNat / 2 ^ 56, v.toNat / 2 ^ 48 % 256, v.toNat / 2 ^ 40 % 256, v.toNat / 2 ^ 32 % 256, v.toNat / 2 ^ 24 % 256,
  v.toNat / 2 ^ 16 % 256, v.toNat / 2 ^ 8 % 256, v.toNat % 256]

/-- The response of a frame (R431, R432): OK with data and its CRC where the frame reads, else its status alone; frames, errors and BUSY answers are counted. -/
def Answers (s t : State) (status : Nat) (data : Option Word) : Prop :=
  t.blk.host.mspi = s.blk.host.mspi ++ [{ status := status, data := data, crc := data.map fun v => BitVec.ofNat 8 (crc8 (status :: wordBytes v)) }] ∧
    t.blk.fld 0 F.HOST_MSPI_FRAMES = (s.blk.fld 0 F.HOST_MSPI_FRAMES + 1) % 2 ^ 32 ∧ Adds s t 0 F.HOST_MSPI_ERRS (if status = 1 then 0 else 1) ∧
    Adds s t 0 F.HOST_MSPI_BUSY (if status = 2 then 1 else 0) ∧ (status ≠ 1 → Corrected s t 0 ∧ Cause t 0 27)

/-- A frame that changes nothing but the root page and answers. -/
def OnlyAnswers (s t : State) (status : Nat) (data : Option Word) : Prop := Answers s t status data ∧ RegsKept s t (fun v _ => v == 0) ∧ t.blk.ctxs = s.blk.ctxs ∧ MemSame s t

/-- Pages that are served before the core die has finished sparge (R430), and the phases after it. -/
abbrev early (u : Nat) : Prop := u ∈ [0, U.warden, U.rec, U.kiln, U.mon, U.ts 22, U.ts 23]
abbrev afterSparge (s : State) : Prop := s.blk.fld 0 F.HOST_BOOT_PHASE ∈ [3, 4, 5, 6, 8, 10] ∨ s.blk.host.sparged = true

end Sys2Proof.Spec

/-- R430 to R432: a frame of the management SPI is answered with its status: CRC, ALIGN, NOT_READY, DENIED, BUSY and BAD_CMD refuse it and change nothing but the counts; READ returns
the register, WRITE acts as the register write of the management SPI, READ_WIN returns 8 bytes of the recorder window and ID returns ROOT_PART. -/
def Sys2Proof.Spec.ManagementSpi : Prop :=
  ∀ (u off crc cmd : Nat) (v : Word) (s : State), Heard s → u < 65536 → off < 65536 →
    let okR := crc = requestCrc 1 u off []
    let okW := crc = requestCrc 2 u off (wordBytes v)
    let served := early u ∨ afterSparge s
    let live := s.blk.otp.lc ≠ 4
    let both := fun (st : Nat) => (okR → Ends (.mspiRead u off crc) s fun t => OnlyAnswers s t st none) ∧ (okW → Ends (.mspiWrite u off v crc) s fun t => OnlyAnswers s t st none)
    (¬ okR → Ends (.mspiRead u off crc) s fun t => OnlyAnswers s t 4 none) ∧
    (¬ okW → Ends (.mspiWrite u off v crc) s fun t => OnlyAnswers s t 4 none) ∧
    (off % 8 ≠ 0 → both 7) ∧
    (off % 8 = 0 → ¬ served → both 5) ∧
    (off % 8 = 0 → served → 0x400 ≤ off → both 3) ∧
    (off % 8 = 0 → served → off < 0x400 → s.blk.otp.lc = 4 → (u ≠ 0 → u ≠ U.warden → both 3) ∧ (okW → Ends (.mspiWrite u off v crc) s fun t => OnlyAnswers s t 3 none)) ∧
    (okR → off % 8 = 0 → served → off < 0x400 → (live ∨ u = 0 ∨ u = U.warden) → reservedUid u = false → kindOf u ∉ [0x06, 0x07, 0x0F, 0x12, 0x15] →
      Ends (.mspiRead u off crc) s fun t => OnlyAnswers s t 1 (some (s.blk.readReg s.mem .mspi u off))) ∧
    (okW → off % 8 = 0 → served → off < 0x400 → live → s.blk.wdn.coast = none → s.blk.fld U.warden F.WDN_STG_STAT_OWNER ≠ 1 → u ≠ 0 →
      Ends (.mspiWrite u off v crc) s fun t => ∃ t0, exec (.registerWrite .mspi u off .both v) s = .next t0 ∧
        t.blk.host.mspi = t0.blk.host.mspi ++ [{ status := 1, data := none, crc := none }] ∧ t.blk.fld 0 F.HOST_MSPI_FRAMES = (t0.blk.fld 0 F.HOST_MSPI_FRAMES + 1) % 2 ^ 32 ∧
        RegsKept t0 t (fun x o => x == 0 && o == R.HOST_MSPI) ∧ t.blk.ctxs = t0.blk.ctxs ∧ MemSame t0 t) ∧
    (okW → off % 8 = 0 → served → off < 0x400 → live → s.blk.wdn.coast ≠ none → u ≠ 0 → off ≠ R.UNIT_CTRL → kindOf u ≠ 0x05 → u ≠ U.warden →
      Ends (.mspiWrite u off v crc) s fun t => OnlyAnswers s t 2 none) ∧
    (crc = requestCrc 3 u off [] → off ≤ 4088 → live → Ends (.mspiReadWin u off crc) s fun t => ∃ w, OnlyAnswers s t 1 (some w) ∧
      ∀ i, i < 8 → w.extractLsb' (8 * i) 8 = BitVec.ofNat 8 (mramByte s.mem (s.blk.fld U.rec F.REC_CURSOR_OFFSET * 8 + off + i))) ∧
    (crc = requestCrc 3 u off [] → 4088 < off → Ends (.mspiReadWin u off crc) s fun t => OnlyAnswers s t 3 none) ∧
    (crc ≠ requestCrc 3 u off [] → Ends (.mspiReadWin u off crc) s fun t => OnlyAnswers s t 4 none) ∧
    (crc = requestCrc 4 u off [] → Ends (.mspiId u off crc) s fun t => OnlyAnswers s t 1 (some (s.blk.reg 0 R.ROOT_PART))) ∧
    (crc ≠ requestCrc 4 u off [] → Ends (.mspiId u off crc) s fun t => OnlyAnswers s t 4 none) ∧
    Ends (.mspiBadCmd cmd) s fun t => OnlyAnswers s t 6 none

/-- R425 to R438: the host's side of the CX9. -/
def Obligations.HostInterface : Prop := VectorsAndRoutes ∧ UnitResets ∧ PcieResets ∧ HostErrors

/-- R430 to R432: the management SPI. -/
def Obligations.ManagementSpi : Prop := Sys2Proof.Spec.ManagementSpi
end

