-- ==== Sys2Proof/Laws/Store.lean ====
section
/-! SUPPORT.
Laws of sparse stores: a read after a write, and the canonical form through every update. -/
namespace Sys2Proof.Machine

variable {α : Type}

@[simp] theorem Store.get_nil (d : α) (k : Nat) : Store.get d [] k = d := rfl

theorem Store.get_del (d : α) (l : Store α) (k k' : Nat) :
    Store.get d (Store.del l k) k' = if k' = k then d else Store.get d l k' := by
  induction l with
  | nil => simp [Store.del]
  | cons x t ih =>
    obtain ⟨a, v⟩ := x
    by_cases h : a = k
    · simp only [Store.del, h, if_true, ih, Store.get]
      by_cases h' : k' = k
      · simp [h']
      · simp [h', show ¬k = k' from fun e => h' e.symm]
    · simp only [Store.del, h, if_false, Store.get, ih]
      by_cases h' : k' = k
      · subst h'; simp [h]
      · simp [h']

theorem Store.get_ins (d : α) (l : Store α) (k k' : Nat) (v : α) :
    Store.get d (Store.ins l k v) k' = if k' = k then v else Store.get d l k' := by
  induction l with
  | nil => 
    by_cases h : k' = k
    · simp [Store.ins, Store.get, h]
    · simp [Store.ins, Store.get, h, show ¬k = k' from fun e => h e.symm]
  | cons x t ih =>
    obtain ⟨a, w⟩ := x
    unfold Store.ins
    by_cases h1 : k < a
    · simp only [h1, if_true, Store.get]
      by_cases h : k' = k
      · simp [h]
      · simp [h, show ¬k = k' from fun e => h e.symm]
    · by_cases h2 : a = k
      · subst h2
        simp only [h1, if_false, if_true, Store.get]
        by_cases h : k' = a
        · simp [h]
        · simp [h, show ¬a = k' from fun e => h e.symm]
      · simp only [h1, if_false, h2, Store.get, ih]
        by_cases h : k' = k
        · subst h; simp [h2]
        · simp [h]

/-- A read after a write: the value at the key written, every other key as before. -/
theorem Store.get_set [DecidableEq α] (d : α) (l : Store α) (k k' : Nat) (v : α) :
    Store.get d (Store.set d l k v) k' = if k' = k then v else Store.get d l k' := by
  unfold Store.set
  by_cases h : v = d
  · simp only [h, if_true, Store.get_del]
  · simp only [h, if_false, Store.get_ins]

@[simp] theorem Store.get_set_same [DecidableEq α] (d : α) (l : Store α) (k : Nat) (v : α) :
    Store.get d (Store.set d l k v) k = v := by simp [Store.get_set]

theorem Store.get_set_ne [DecidableEq α] (d : α) (l : Store α) {k k' : Nat} (v : α) (h : k' ≠ k) :
    Store.get d (Store.set d l k v) k' = Store.get d l k' := by simp [Store.get_set, h]

/-- A read of another key after a write under another default. -/
theorem Store.get_set_other [DecidableEq α] (d e : α) (l : Store α) {k k' : Nat} (v : α) (h : k' ≠ k) :
    Store.get e (Store.set d l k v) k' = Store.get e l k' := by
  unfold Store.set
  by_cases hv : v = d
  · simp only [hv, if_true, Store.get_del, h, if_false]
  · simp only [hv, if_false, Store.get_ins, h]

/-! ## The canonical form -/

variable [DecidableEq α]

theorem Store.wfFrom_cons (d : α) (lo : Option Nat) (k : Nat) (v : α) (t : Store α) :
    Store.wfFrom d lo ((k, v) :: t) = true ↔ (∀ b, lo = some b → b < k) ∧ v ≠ d ∧ Store.wfFrom d (some k) t = true := by
  cases lo <;> simp [Store.wfFrom, and_assoc]

/-- A lower bound may be weakened. -/
theorem Store.wfFrom_mono (d : α) {lo lo' : Option Nat} (l : Store α) (h : Store.wfFrom d lo l = true)
    (hb : ∀ b', lo' = some b' → ∃ b, lo = some b ∧ b' ≤ b) : Store.wfFrom d lo' l = true := by
  cases l with
  | nil => rfl
  | cons x t =>
    obtain ⟨k, v⟩ := x
    rw [Store.wfFrom_cons] at h ⊢
    refine ⟨fun b' e => ?_, h.2⟩
    obtain ⟨b, e', hle⟩ := hb b' e
    exact Nat.lt_of_le_of_lt hle (h.1 b e')

theorem Store.wfFrom_none (d : α) {lo : Option Nat} (l : Store α) (h : Store.wfFrom d lo l = true) : Store.wf d l = true :=
  Store.wfFrom_mono d l h (by simp)

theorem Store.wfFrom_filter (d : α) (p : Nat × α → Bool) (lo : Option Nat) (l : Store α) (h : Store.wfFrom d lo l = true) :
    Store.wfFrom d lo (l.filter p) = true := by
  induction l generalizing lo with
  | nil => rfl
  | cons x t ih =>
    obtain ⟨k, v⟩ := x
    rw [Store.wfFrom_cons] at h
    by_cases hp : p (k, v) = true
    · rw [List.filter_cons_of_pos hp, Store.wfFrom_cons]
      exact ⟨h.1, h.2.1, ih _ h.2.2⟩
    · rw [List.filter_cons_of_neg hp]
      exact ih _ (Store.wfFrom_mono d t h.2.2 fun b' e => ⟨k, rfl, Nat.le_of_lt (h.1 b' e)⟩)

theorem Store.wf_drop (d : α) (l : Store α) (lo hi : Nat) (h : Store.wf d l = true) : Store.wf d (Store.drop l lo hi) = true :=
  Store.wfFrom_filter d _ none l h

theorem Store.wfFrom_del (d : α) (lo : Option Nat) (l : Store α) (k : Nat) (h : Store.wfFrom d lo l = true) :
    Store.wfFrom d lo (Store.del l k) = true := by
  induction l generalizing lo with
  | nil => rfl
  | cons x t ih =>
    obtain ⟨a, v⟩ := x
    rw [Store.wfFrom_cons] at h
    by_cases ha : a = k
    · simp only [Store.del, ha, if_true]
      exact ih _ (Store.wfFrom_mono d t h.2.2 fun b' e => ⟨a, rfl, Nat.le_of_lt (h.1 b' e)⟩)
    · simp only [Store.del, ha, if_false]
      rw [Store.wfFrom_cons]
      exact ⟨h.1, h.2.1, ih _ h.2.2⟩

theorem Store.wfFrom_ins (d : α) (lo : Option Nat) (l : Store α) (k : Nat) (v : α) (hv : v ≠ d)
    (hlo : ∀ b, lo = some b → b < k) (h : Store.wfFrom d lo l = true) : Store.wfFrom d lo (Store.ins l k v) = true := by
  induction l generalizing lo with
  | nil => simp only [Store.ins]; rw [Store.wfFrom_cons]; exact ⟨hlo, hv, rfl⟩
  | cons x t ih =>
    obtain ⟨a, w⟩ := x
    rw [Store.wfFrom_cons] at h
    unfold Store.ins
    by_cases h1 : k < a
    · simp only [h1, if_true]
      rw [Store.wfFrom_cons, Store.wfFrom_cons]
      exact ⟨hlo, hv, fun b e => by cases e; exact h1, h.2.1, h.2.2⟩
    · by_cases h2 : a = k
      · subst h2
        simp only [h1, if_false, if_true]
        rw [Store.wfFrom_cons]
        exact ⟨hlo, hv, h.2.2⟩
      · simp only [h1, if_false, h2]
        rw [Store.wfFrom_cons]
        exact ⟨h.1, h.2.1, ih _ (fun b e => by cases e; omega) h.2.2⟩

/-- A write keeps the canonical form. -/
theorem Store.wf_set (d : α) (l : Store α) (k : Nat) (v : α) (h : Store.wf d l = true) : Store.wf d (Store.set d l k v) = true := by
  unfold Store.set
  by_cases hv : v = d
  · simp only [hv, if_true]; exact Store.wfFrom_del d none l k h
  · simp only [hv, if_false]; exact Store.wfFrom_ins d none l k v hv (by simp) h

/-! ## The pairs that reads see -/

/-- A pair of the view is what its key reads as. -/
theorem Store.get_of_mem_view {α : Type} (d : α) (l : Store α) {k : Nat} {v : α} (h : (k, v) ∈ Store.view l) : Store.get d l k = v := by
  induction l with
  | nil => simp [Store.view] at h
  | cons x t ih =>
    obtain ⟨a, w⟩ := x
    simp only [Store.view, List.mem_cons, Prod.mk.injEq, List.mem_filter, bne_iff_ne, ne_eq] at h
    rcases h with ⟨rfl, rfl⟩ | ⟨hm, hk⟩
    · simp [Store.get]
    · simp [Store.get, ih hm, show ¬a = k from fun e => hk e.symm]

/-- A key that reads as another value than the default stands in the view. -/
theorem Store.mem_view_of_get {α : Type} (d : α) (l : Store α) (k : Nat) (h : Store.get d l k ≠ d) :
    (k, Store.get d l k) ∈ Store.view l := by
  induction l with
  | nil => simp at h
  | cons x t ih =>
    obtain ⟨a, w⟩ := x
    by_cases hk : a = k
    · subst hk
      simp [Store.view, Store.get]
    · simp only [Store.get, hk, if_false] at h ⊢
      have := ih h
      simp [Store.view, this, show ¬k = a from fun e => hk e.symm]

end Sys2Proof.Machine
end

