-- ==== Sys2Proof/Laws/Mem.lean ====
section
/-! SUPPORT.
Laws of the addressed memories: a read after a write, the canonical form through every memory operation, and what a command's
effect leaves of the queue and of the waiting writes. -/
namespace Sys2Proof.Machine

theorem Mem.wf_iff (μ : Mem) : μ.wf = true ↔ Store.wf (0 : Byte) μ.hbm = true ∧ Store.wf (0 : Quad) μ.words = true := by
  simp [Mem.wf]

theorem Mem.rdByte_wrByte (μ : Mem) (a a' : Nat) (v : Byte) :
    (μ.wrByte a v).rdByte a' = if a' = a then v else μ.rdByte a' := Store.get_set ..

theorem Mem.rd_wrByte (μ : Mem) (a : Nat) (v : Byte) (r : Ram) (i : Nat) : (μ.wrByte a v).rd r i = μ.rd r i := rfl

theorem Mem.rdByte_wr (μ : Mem) (r : Ram) (i : Nat) (v : Quad) (a : Nat) : (μ.wr r i v).rdByte a = μ.rdByte a := rfl

theorem Mem.rd_wr_same (μ : Mem) (r : Ram) (i : Nat) (v : Quad) : (μ.wr r i v).rd r i = v := by
  simp [Mem.rd, Mem.wr]

/-- A RAM's word is the same after a write to another place, of the same RAM or of another. -/
theorem Mem.rd_wr_ne (μ : Mem) (r r' : Ram) (i i' : Nat) (v : Quad) (h : ramBase r' + i' ≠ ramBase r + i) :
    (μ.wr r i v).rd r' i' = μ.rd r' i' := by
  simp [Mem.rd, Mem.wr, Store.get_set, h]

/-- Every memory write keeps the canonical form. -/
theorem Mem.wf_op (μ : Mem) (o : MemOp) (h : μ.wf = true) : (μ.op o).wf = true := by
  rw [Mem.wf_iff] at h ⊢
  cases o with
  | byte a v => exact ⟨Store.wf_set _ _ _ _ h.1, h.2⟩
  | word r i v => exact ⟨h.1, Store.wf_set _ _ _ _ h.2⟩
  | clearRam r => exact ⟨h.1, Store.wf_drop _ _ _ _ h.2⟩
  | clearWords r lo hi => exact ⟨h.1, Store.wf_drop _ _ _ _ h.2⟩
  | clearHbm lo hi => exact ⟨Store.wf_drop _ _ _ _ h.1, h.2⟩
  | clearPc i => exact ⟨Store.wfFrom_filter _ _ none _ h.1, h.2⟩

theorem Mem.wf_ops (l : List MemOp) (μ : Mem) (h : μ.wf = true) : (μ.ops l).wf = true := by
  induction l generalizing μ with
  | nil => exact h
  | cons o t ih => exact ih _ (Mem.wf_op μ o h)

/-! ## A command's effect -/

@[simp] theorem State.eff_pending (s : State) (f : Mem → Block → Block) : (s.eff f).pending = s.pending := rfl
@[simp] theorem State.eff_memOps (s : State) (f : Mem → Block → Block) : (s.eff f).blk.memOps = [] := rfl
theorem State.eff_mem (s : State) (f : Mem → Block → Block) : (s.eff f).mem = s.mem.ops (f s.mem s.blk).memOps := rfl

theorem State.eff_wf (s : State) (f : Mem → Block → Block) (h : s.mem.wf = true) : (s.eff f).mem.wf = true :=
  Mem.wf_ops _ _ h

theorem State.done_eq (s : State) (f : Mem → Block → Block) : s.done f = .next (s.eff f) := rfl
theorem State.did_eq (s : State) (f : Block → Block) : s.did f = .next (s.eff fun _ b => f b) := rfl

/-- An effect that leaves no memory write leaves every byte and every word of memory. -/
theorem State.eff_mem_same (s : State) (f : Mem → Block → Block) (h : (f s.mem s.blk).memOps = []) : (s.eff f).mem = s.mem := by
  rw [State.eff_mem, h]; rfl

/-- With no lane that waits to be loaded, the block after a command is what the effect leaves, its memory writes made. -/
theorem Block.loadTaps_idle (b : Block) (μ : Mem) (h : (b.lanes.filter fun x => x.2.loadDue) = []) : b.loadTaps μ = b := by
  simp only [Block.loadTaps, h]; rfl

end Sys2Proof.Machine
end

