-- ==== Sys2Proof/Laws/Regs.lean ====
section
/-! SUPPORT.
Laws of unit registers and their fields: a read after a write of the same register or field, and of another. -/
namespace Sys2Proof.Machine

/-! ## Fields of a word -/

theorem Word.fld_lt (v : Word) (hi lo : Nat) : Word.fld v hi lo < 2 ^ (hi + 1 - lo) := Nat.mod_lt _ (Nat.two_pow_pos _)

/-- Bit `i` of a field, below its width. -/
theorem Word.testBit_fld (v : Word) (hi lo i : Nat) :
    (Word.fld v hi lo).testBit i = (decide (i < hi + 1 - lo) && v.getLsbD (lo + i)) := by
  simp only [Word.fld, Nat.testBit_mod_two_pow, Nat.testBit_shiftRight]
  rfl

/-- Bit `i` of a word with a field replaced. -/
theorem Word.getLsbD_setFld (v : Word) (hi lo n i : Nat) (h : hi < 64) :
    (Word.setFld v hi lo n).getLsbD i =
      if lo ≤ i ∧ i < hi + 1 then n.testBit (i - lo) else v.getLsbD i := by
  have hm : ∀ x, (BitVec.ofNat 64 ((x % 2 ^ (hi + 1 - lo)) <<< lo)).getLsbD i =
      (decide (i < 64) && (decide (lo ≤ i) && (decide (i - lo < hi + 1 - lo) && x.testBit (i - lo)))) := by
    intro x
    rw [BitVec.getLsbD_ofNat, Nat.testBit_shiftLeft, Nat.testBit_mod_two_pow]
  have h1 : ((2 ^ (hi + 1 - lo) - 1) <<< lo).testBit i = (decide (lo ≤ i) && decide (i - lo < hi + 1 - lo)) := by
    rw [Nat.testBit_shiftLeft, Nat.testBit_two_pow_sub_one]
  simp only [Word.setFld, BitVec.getLsbD_or, BitVec.getLsbD_and, BitVec.getLsbD_not, BitVec.getLsbD_ofNat, h1, hm]
  by_cases hi64 : i < 64
  · by_cases a : lo ≤ i
    · by_cases c : i < hi + 1
      · have : i - lo < hi + 1 - lo := by omega
        simp [hi64, a, c, this]
      · have : ¬ i - lo < hi + 1 - lo := by omega
        simp [hi64, a, c, this]
    · simp [hi64, a]
  · have c : ¬ i < hi + 1 := by omega
    have : v.getLsbD i = false := BitVec.getLsbD_of_ge _ _ (by omega)
    simp [hi64, c, this]

/-- A field read after it is replaced. -/
theorem Word.fld_setFld_same (v : Word) (hi lo n : Nat) (h : hi < 64) : Word.fld (Word.setFld v hi lo n) hi lo = n % 2 ^ (hi + 1 - lo) := by
  apply Nat.eq_of_testBit_eq
  intro i
  rw [Word.testBit_fld, Word.getLsbD_setFld _ _ _ _ _ h, Nat.testBit_mod_two_pow]
  by_cases c : i < hi + 1 - lo
  · have : lo + i < hi + 1 := by omega
    simp [c, this]
  · simp [c]

/-- A field read after another is replaced. -/
theorem Word.fld_setFld_ne (v : Word) (hi lo hi' lo' n : Nat) (h : hi < 64) (hd : hi' < lo ∨ hi < lo') :
    Word.fld (Word.setFld v hi lo n) hi' lo' = Word.fld v hi' lo' := by
  apply Nat.eq_of_testBit_eq
  intro i
  rw [Word.testBit_fld, Word.testBit_fld, Word.getLsbD_setFld _ _ _ _ _ h]
  by_cases c : i < hi' + 1 - lo'
  · have : ¬ (lo ≤ lo' + i ∧ lo' + i < hi + 1) := by omega
    simp only [c, this, decide_true, Bool.true_and, if_false]
  · simp [c]

/-! ## Registers -/

@[simp] theorem Block.reg_setReg_same (b : Block) (u off : Nat) (v : Word) : (b.setReg u off v).reg u off = v := by
  simp [Block.reg, Block.setReg]

theorem Block.reg_setReg_ne (b : Block) {u off u' off' : Nat} (v : Word) (h : regKey u' off' ≠ regKey u off) :
    (b.setReg u off v).reg u' off' = b.reg u' off' := by
  simp only [Block.reg, Block.setReg]
  exact Store.get_set_other _ _ _ _ h

/-- Keys of offsets below 0x400 differ where the unit or the offset does. -/
theorem regKey_ne {u off u' off' : Nat} (h1 : off < 1024) (h2 : off' < 1024) (h : u' ≠ u ∨ off' ≠ off) :
    regKey u' off' ≠ regKey u off := by
  unfold regKey; omega

/-- What a register reads after a write, of any unit and offset below 0x400. -/
theorem Block.reg_setReg (b : Block) {u off u' off' : Nat} (v : Word) (h1 : off < 1024) (h2 : off' < 1024) :
    (b.setReg u off v).reg u' off' = if u' = u ∧ off' = off then v else b.reg u' off' := by
  by_cases h : u' = u ∧ off' = off
  · obtain ⟨rfl, rfl⟩ := h; simp
  · rw [if_neg h, Block.reg_setReg_ne]
    exact regKey_ne h1 h2 (by omega)

/-- A field after it is set. -/
theorem Block.fld_setFld_same (b : Block) (u : Nat) (f : Fld) (n : Nat) (h : f.hi < 64) :
    (b.setFld u f n).fld u f = n % 2 ^ (f.hi + 1 - f.lo) := by
  simp [Block.fld, Block.setFld, Word.fld_setFld_same _ _ _ _ h]

/-- Another field of the same register after a field is set. -/
theorem Block.fld_setFld_reg (b : Block) (u : Nat) (f g : Fld) (n : Nat) (h : f.hi < 64) (ho : g.off = f.off)
    (hd : g.hi < f.lo ∨ f.hi < g.lo) : (b.setFld u f n).fld u g = b.fld u g := by
  simp [Block.fld, Block.setFld, ho, Word.fld_setFld_ne _ _ _ _ _ _ h hd]

/-- A field of another register after a field is set. -/
theorem Block.fld_setFld_ne (b : Block) {u u' : Nat} {f g : Fld} (n : Nat) (h : regKey u' g.off ≠ regKey u f.off) :
    (b.setFld u f n).fld u' g = b.fld u' g := by
  simp [Block.fld, Block.setFld, Block.reg_setReg_ne _ _ h]

theorem Block.reg_setFld_ne (b : Block) {u u' off : Nat} {f : Fld} (n : Nat) (h : regKey u' off ≠ regKey u f.off) :
    (b.setFld u f n).reg u' off = b.reg u' off := Block.reg_setReg_ne _ _ h

theorem Block.flag_setFlag_same (b : Block) (u : Nat) (f : Fld) (v : Bool) (h : f.hi < 64) (hl : f.lo ≤ f.hi) :
    (b.setFlag u f v).flag u f = v := by
  have hp : 2 ≤ 2 ^ (f.hi + 1 - f.lo) := by
    calc 2 = 2 ^ 1 := rfl
      _ ≤ 2 ^ (f.hi + 1 - f.lo) := Nat.pow_le_pow_right (by omega) (by omega)
  rw [Block.flag, Block.setFlag, Block.fld_setFld_same _ _ _ _ h]
  cases v
  · simp [bit]
  · have : 1 % 2 ^ (f.hi + 1 - f.lo) = 1 := Nat.mod_eq_of_lt (by omega)
    simp [bit, this]

theorem Block.flag_setFld_ne (b : Block) {u u' : Nat} {f g : Fld} (n : Nat) (h : regKey u' g.off ≠ regKey u f.off) :
    (b.setFld u f n).flag u' g = b.flag u' g := by simp [Block.flag, Block.fld_setFld_ne _ _ h]

/-- A block whose register store is another's reads the same registers. -/
theorem Block.reg_congr {b c : Block} (h : b.regs = c.regs) (u off : Nat) : b.reg u off = c.reg u off := by simp [Block.reg, h]
theorem Block.fld_congr {b c : Block} (h : b.regs = c.regs) (u : Nat) (f : Fld) : b.fld u f = c.fld u f := by
  simp [Block.fld, Block.reg_congr h]

/-! ## The tap load at the end of a command -/

/-- What holds before a loop and is kept by each turn holds after it. -/
theorem Block.each_induct {α : Type} {P : Block → Prop} (l : List α) (f : Block → α → Block) (b : Block) (h0 : P b)
    (hs : ∀ b x, x ∈ l → P b → P (f b x)) : P (b.each l f) := by
  unfold Block.each
  induction l generalizing b with
  | nil => exact h0
  | cons a t ih =>
    exact ih (f b a) (hs b a (by simp) h0) fun b x hx => hs b x (by simp [hx])

/-- A block differs from another in lanes and LANE_KEY only, and has no lane that waits. -/
def Block.loaded (b c : Block) : Prop :=
  { c with lanes := [], regs := [] } = { b with lanes := [], regs := [] } ∧
    (∀ u off, off < 1024 → off ≠ F.LANE_KEY_FROM_BANK.off → c.reg u off = b.reg u off) ∧
    (c.lanes.filter fun x => x.2.loadDue) = []

/-- The tap load changes nothing but lanes and registers, and of these only LANE_KEY; no lane waits after it. -/
theorem Block.loadTaps_frame (b : Block) (μ : Mem) : b.loaded (b.loadTaps μ) := by
  unfold Block.loadTaps
  dsimp only
  split
  next hd => exact ⟨rfl, fun _ _ _ _ => rfl, List.isEmpty_iff.mp hd⟩
  next =>
  apply Block.each_induct
  · refine ⟨rfl, fun _ _ _ _ => rfl, ?_⟩
    simp only [List.filter_eq_nil_iff, List.mem_filter, List.mem_map, and_imp, forall_exists_index]
    rintro x y _ rfl _
    unfold Block.loadLane
    by_cases hy : y.2.loadDue = true <;> simp [hy]
  · rintro c x _ ⟨hc, hr, hl⟩
    refine ⟨hc, fun u off ho hn => ?_, hl⟩
    rw [Block.setFlag, Block.reg_setFld_ne]
    · exact hr u off ho hn
    · exact regKey_ne (by decide) ho (.inr hn)

/-! ## A command's effect on the block -/

/-- No lane waits for its taps, and no memory write waits: as every command leaves the machine. -/
def State.settled (s : State) : Prop := (s.blk.lanes.filter fun x => x.2.loadDue) = [] ∧ s.blk.memOps = []

/-- An effect that leaves no lane waiting: the block is what the effect leaves. -/
theorem State.eff_blk (s : State) (f : Mem → Block → Block)
    (h : ((f s.mem s.blk).lanes.filter fun x => x.2.loadDue) = []) : (s.eff f).blk = { f s.mem s.blk with memOps := [] } := by
  simp only [State.eff, Block.loadTaps_idle _ _ h]

/-- Every command leaves the machine settled. -/
theorem State.eff_settled (s : State) (f : Mem → Block → Block) : (s.eff f).settled :=
  ⟨(Block.loadTaps_frame _ _).2.2, rfl⟩

/-- A register but LANE_KEY after a command. -/
theorem State.eff_reg (s : State) (f : Mem → Block → Block) {u off : Nat} (ho : off < 1024)
    (hn : off ≠ F.LANE_KEY_FROM_BANK.off) : (s.eff f).blk.reg u off = (f s.mem s.blk).reg u off :=
  (Block.loadTaps_frame _ _).2.1 u off ho hn

/-- Whatever a command holds beside registers, lanes and memory is what its effect leaves. -/
theorem State.eff_rest (s : State) (f : Mem → Block → Block) :
    { (s.eff f).blk with lanes := [], regs := [], memOps := [] } = { f s.mem s.blk with lanes := [], regs := [], memOps := [] } :=
  congrArg (fun b : Block => { b with memOps := [] }) (Block.loadTaps_frame (f s.mem s.blk) _).1

end Sys2Proof.Machine
end

