-- ==== Sys2Proof/Laws/Zhovo.lean ====
section
/-! SUPPORT.
Laws of the Zhovo engines: their registers, and once and for all what the retirement of an instruction can change. -/
namespace Sys2Proof.Machine

/-! ## Engine registers -/

@[simp] theorem EngH.rd_zero (h : EngH) : h.rd 0 = 0 := rfl

theorem EngH.rd_wr (h : EngH) (r k : Nat) (q : Quad) : (h.wr r q).rd k = if k = r ∧ r ≠ 0 then q else h.rd k := by
  unfold EngH.wr EngH.rd
  by_cases hr : r = 0
  · simp [hr]
  · by_cases hk : k = r
    · subst hk; simp [hr]
    · simp [hr, hk, Store.get_set_ne]

@[simp] theorem Block.eng_setEng_same (b : Block) (n : Nat) (h : EngH) : (b.setEng n h).eng n = h := by
  simp [Block.eng, Block.setEng]

theorem Block.eng_setEng_ne (b : Block) {n k : Nat} (h : EngH) (hk : k ≠ n) : (b.setEng n h).eng k = b.eng k := by
  simp [Block.eng, Block.setEng, Store.get_set_ne _ _ _ hk]

/-! ## Interrupts touch only UNIT_IRQ_STAT and the host side -/

theorem Block.irqChange_frame (b : Block) (u : Nat) (f : Block → Block) :
    ∃ h, b.irqChange u f = { f b with host := h } := by
  unfold Block.irqChange
  dsimp only
  split
  · unfold Block.msixSend
    split
    · unfold Block.sendVec
      dsimp only
      split
      · split
        · exact ⟨_, rfl⟩
        · exact ⟨_, rfl⟩
      · exact ⟨(f b).host, rfl⟩
    · exact ⟨(f b).host, rfl⟩
  · exact ⟨(f b).host, rfl⟩

theorem Block.irq_frame (b : Block) (u n : Nat) :
    ∃ h, b.irq u n = { b.setReg u R.UNIT_IRQ_STAT (b.reg u R.UNIT_IRQ_STAT ||| BitVec.ofNat 64 (1 <<< n)) with host := h } :=
  Block.irqChange_frame b u _

/-! ## The tally's events -/

theorem Block.each_tally {α : Type} (l : List α) (f : Block → α → Block) (b : Block)
    (hf : ∀ b x, ∃ t, f b x = { b with tally := t }) : ∃ t, b.each l f = { b with tally := t } := by
  apply Block.each_induct (P := fun c => ∃ t, c = { b with tally := t })
  · exact ⟨b.tally, rfl⟩
  · rintro c x _ ⟨t, rfl⟩
    obtain ⟨t', h⟩ := hf { b with tally := t } x
    exact ⟨t', h⟩

/-- An event counts in the tally alone. -/
theorem Block.note_frame (b : Block) (blk ev n : Nat) : ∃ t, b.note blk ev n = { b with tally := t } := by
  unfold Block.note
  split
  · exact ⟨b.tally, rfl⟩
  · apply Block.each_tally
    rintro c ⟨i, w⟩
    dsimp only
    split
    · exact ⟨_, rfl⟩
    · exact ⟨c.tally, rfl⟩

theorem Block.noteEng_frame (b : Block) (n ev : Nat) : ∃ t, b.noteEng n ev = { b with tally := t } := by
  unfold Block.noteEng
  split
  · exact b.note_frame n ev 1
  · exact ⟨b.tally, rfl⟩

/-! ## Retirement -/

/-- What a change of the tally and of the tracers may touch: the tally's page, its counters, the host side, a free value and
words of the tracer RAM. -/
def Block.traced (b c : Block) : Prop :=
  (∃ r f h t m, c = { b with regs := r, free := f, host := h, tally := t, memOps := b.memOps ++ m } ∧
      ∀ o ∈ m, ∃ i v, i < 16384 ∧ o = MemOp.word .tracer i v) ∧
    ∀ u off, off < 1024 → u ≠ U.tally → c.reg u off = b.reg u off

theorem Block.traced_refl (b : Block) : b.traced b :=
  ⟨⟨b.regs, b.free, b.host, b.tally, [], by simp, by simp⟩, fun _ _ _ _ => rfl⟩

theorem Block.traced_trans {a b c : Block} (h1 : a.traced b) (h2 : b.traced c) : a.traced c := by
  obtain ⟨⟨r, f, h, t, m, e, hm⟩, g⟩ := h1
  obtain ⟨⟨r', f', h', t', m', e', hm'⟩, g'⟩ := h2
  subst e
  refine ⟨⟨r', f', h', t', m ++ m', ?_, ?_⟩, fun u off ho hu => (g' u off ho hu).trans (g u off ho hu)⟩
  · rw [e']; simp
  · intro o ho
    rcases List.mem_append.mp ho with ho | ho
    · exact hm o ho
    · exact hm' o ho

theorem Block.traced_reg (b : Block) (off : Nat) (v : Word) (h1 : off < 1024) : b.traced (b.setReg U.tally off v) :=
  ⟨⟨_, b.free, b.host, b.tally, [], by rw [List.append_nil]; rfl, by simp⟩, fun u o ho hu => Block.reg_setReg_ne _ _ (regKey_ne h1 ho (.inl hu))⟩

theorem Block.traced_tally (b : Block) (t : TallyH) : b.traced { b with tally := t } :=
  ⟨⟨b.regs, b.free, b.host, t, [], by rw [List.append_nil], by simp⟩, fun _ _ _ _ => rfl⟩

theorem Block.traced_put (b : Block) (i : Nat) (q : Quad) (h : i < 16384) : b.traced (b.put .tracer i q) :=
  ⟨⟨b.regs, b.free, b.host, b.tally, [.word .tracer i q], rfl, by simp only [List.mem_singleton]; rintro o rfl; exact ⟨i, q, h, rfl⟩⟩,
    fun _ _ _ _ => rfl⟩

theorem Block.traced_irq (b : Block) (n : Nat) : b.traced (b.irq U.tally n) := by
  obtain ⟨h, e⟩ := b.irq_frame U.tally n
  rw [e]
  exact ⟨⟨_, b.free, h, b.tally, [], by rw [List.append_nil]; rfl, by simp⟩,
    fun u o ho hu => Block.reg_setReg_ne _ _ (regKey_ne (by decide) ho (.inl hu))⟩

theorem Block.traced_setFld (b : Block) (f : Fld) (n : Nat) (h1 : f.off < 1024) : b.traced (b.setFld U.tally f n) :=
  b.traced_reg f.off _ h1

theorem Block.traced_ite {b c d : Block} {p : Prop} [Decidable p] (hc : b.traced c) (hd : b.traced d) :
    b.traced (if p then c else d) := by split <;> assumption

theorem Block.traced_tracePut (b : Block) (t n : Nat) (q : Quad) (ht : t < 4) : b.traced (b.tracePut t n q) := by
  have hp : b.fld U.tally (F.TR_STAT_WPTR t) < 4096 := Word.fld_lt ..
  have ho : ∀ i, i < 4 → 0x100 + 0x20 * i < 1024 ∧ 0x108 + 0x20 * i < 1024 ∧ 0x110 + 0x20 * i < 1024 := by omega
  obtain ⟨h1, h2, h3⟩ := ho t ht
  unfold Block.tracePut
  dsimp only
  split
  · apply Block.traced_trans (b.traced_setFld (F.TR_STAT_DROPS t) _ h3)
    split
    · exact Block.traced_trans (Block.traced_tally _ _) (Block.traced_put _ _ _
        (Nat.lt_of_lt_of_le (Nat.add_lt_add_left (Nat.mod_lt _ (by decide)) _) (by omega)))
    · exact Block.traced_refl _
  · have hp' : t * 4096 + b.fld U.tally (F.TR_STAT_WPTR t) < 16384 := by omega
    have key : ∀ ty n, b.traced (Block.setFld (Block.put { b with tally := ty } .tracer
        (t * 4096 + b.fld U.tally (F.TR_STAT_WPTR t)) q) U.tally (F.TR_STAT_WPTR t) n) := fun ty n =>
      Block.traced_trans (Block.traced_tally b ty)
        (Block.traced_trans (Block.traced_put _ _ q hp') (Block.traced_setFld _ (F.TR_STAT_WPTR t) n h3))
    split
    · split
      · exact Block.traced_trans (key _ _) (Block.traced_trans (Block.traced_setFld _ (F.TR_CTRL_RUN t) _ h1)
          (Block.traced_trans (Block.traced_setFld _ (F.TR_STAT_FULL_STOP t) _ h3) (Block.traced_irq _ _)))
      · exact Block.traced_trans (key _ _) (Block.traced_setFld _ (F.TR_STAT_WRAPPED t) _ h3)
    · exact key _ _

/-- Only the sampling count of engine `n` and what a trace touches differ after a retired instruction is traced. -/
theorem Block.traceInsn_frame (b : Block) (n insn : Nat) (pc : Word) (sys off tr : Bool) :
    ∃ σ, (b.setEng n { b.eng n with samp := σ }).traced (b.traceInsn n insn pc sys off tr) ∨
      b.traceInsn n insn pc sys off tr = b := by
  unfold Block.traceInsn
  dsimp only
  split
  next h =>
    obtain ⟨hn, _, _⟩ := h
    have hf : ∀ σ, (b.setEng n { b.eng n with samp := σ }).traced
        ({ b with free := b.free + 1 }.setEng n { b.eng n with samp := σ }) := fun σ =>
      ⟨⟨b.regs, b.free + 1, b.host, b.tally, [], by rw [List.append_nil]; rfl, by simp⟩, fun _ _ _ _ => rfl⟩
    split
    · exact ⟨_, .inl (Block.traced_trans (hf _) (Block.traced_tracePut _ _ _ _ (by omega)))⟩
    · exact ⟨_, .inl (hf _)⟩
  next => exact ⟨0, .inr rfl⟩

end Sys2Proof.Machine
end

