-- ==== Sys2Proof/Laws/Faults.lean ====
section
/-! SUPPORT.
What reporting a fault can do: it changes registers of the unit's page and of the root's, the collector, the recorder's input and
the host side, and nothing else. -/
namespace Sys2Proof.Machine

/-- `c` differs from `b` in registers of the pages of `u` and of the root, the collector, the recorder and the host side alone. -/
def Block.reported (b : Block) (u : Nat) (c : Block) : Prop :=
  (∃ r h f d, c = { b with regs := r, host := h, flt := f, recd := d }) ∧
    ∀ v off, off < 1024 → v ≠ u → v ≠ 0 → c.reg v off = b.reg v off

theorem Block.reported_refl (b : Block) (u : Nat) : b.reported u b := ⟨⟨_, _, _, _, rfl⟩, fun _ _ _ _ _ => rfl⟩

theorem Block.reported_trans {a b c : Block} {u : Nat} (h1 : a.reported u b) (h2 : b.reported u c) : a.reported u c := by
  obtain ⟨⟨r, h, f, d, rfl⟩, k1⟩ := h1
  obtain ⟨⟨r', h', f', d', rfl⟩, k2⟩ := h2
  exact ⟨⟨r', h', f', d', rfl⟩, fun v off ho hu h0 => (k2 v off ho hu h0).trans (k1 v off ho hu h0)⟩

/-- A register of the unit's page or of the root's. -/
theorem Block.reported_setReg {a b : Block} {u w off : Nat} {v : Word} (h : a.reported u b) (hw : w = u ∨ w = 0) (ho : off < 1024) :
    a.reported u (b.setReg w off v) := by
  refine Block.reported_trans h ⟨⟨_, _, _, _, rfl⟩, fun v' off' ho' hu h0 => Block.reg_setReg_ne _ _ (regKey_ne ho ho' (.inl ?_))⟩
  rcases hw with rfl | rfl
  · exact hu
  · exact h0

theorem Block.reported_setFld {a b : Block} {u w : Nat} {f : Fld} {n : Nat} (h : a.reported u b) (hw : w = u ∨ w = 0) (ho : f.off < 1024) :
    a.reported u (b.setFld w f n) := Block.reported_setReg h hw ho

/-- A change of the host side, the collector or the recorder's input alone. -/
theorem Block.reported_side {a b : Block} {u : Nat} (r : HostH) (f : FltH) (d : RecH) (h : a.reported u b) :
    a.reported u { b with host := r, flt := f, recd := d } :=
  Block.reported_trans h ⟨⟨_, _, _, _, rfl⟩, fun _ _ _ _ _ => rfl⟩

theorem Block.reported_irq {a b : Block} {u w n : Nat} (h : a.reported u b) (hw : w = u ∨ w = 0) : a.reported u (b.irq w n) := by
  obtain ⟨k, e⟩ := Block.irq_frame b w n
  rw [e]
  exact Block.reported_side k b.flt b.recd (Block.reported_setReg h hw (by decide))

theorem Block.reported_when {a b : Block} {u : Nat} {p : Bool} {f : Block → Block} (h : a.reported u b)
    (hf : ∀ c : Block, a.reported u c → a.reported u (f c)) : a.reported u (b.when p f) := by
  unfold Block.when
  split
  · exact hf b h
  · exact h

theorem Block.reported_ite {a c d : Block} {u : Nat} {p : Prop} [Decidable p] (hc : a.reported u c) (hd : a.reported u d) :
    a.reported u (if p then c else d) := by split <;> assumption

theorem Block.reported_each {α : Type} {a b : Block} {u : Nat} {l : List α} {f : Block → α → Block} (h : a.reported u b)
    (hf : ∀ c : Block, ∀ x ∈ l, a.reported u c → a.reported u (f c x)) : a.reported u (b.each l f) := by
  induction l generalizing b with
  | nil => exact h
  | cons x t ih => exact ih (hf b x (by simp) h) fun c y hy => hf c y (by simp [hy])

theorem Block.unitFault_frame {a b : Block} {e : FltEnt} {p q : Bool} (h : a.reported e.uid b) : a.reported e.uid (b.unitFault e p q) := by
  unfold Block.unitFault
  dsimp only
  have hc {r : Prop} [Decidable r] : a.reported e.uid (if r then (b.setFld e.uid F.UNIT_FAULT_CODE e.code).setFld e.uid
      F.UNIT_FAULT_CLASS e.cls else b) :=
    Block.reported_ite (Block.reported_setFld (Block.reported_setFld h (.inl rfl) (by decide)) (.inl rfl) (by decide)) h
  refine Block.reported_ite ?_ (Block.reported_ite ?_ ?_)
  · exact Block.reported_irq (Block.reported_setFld (Block.reported_setFld hc (.inl rfl) (by decide)) (.inl rfl) (by decide)) (.inl rfl)
  · exact Block.reported_irq (Block.reported_setFld hc (.inl rfl) (by decide)) (.inl rfl)
  · exact Block.reported_irq (Block.reported_when hc fun c h => Block.reported_setFld h (.inl rfl) (by decide)) (.inl rfl)

theorem Block.showCaptured_frame {a b : Block} {u : Nat} (h : a.reported u b) : a.reported u b.showCaptured := by
  have hj : ∀ j, j ∈ List.range 16 → R.FLT_NEXT j < 1024 := by
    intro j h
    have := List.mem_range.mp h
    simp only [R.FLT_NEXT]
    omega
  unfold Block.showCaptured
  split
  · refine Block.reported_setFld ?_ (.inr rfl) (by decide)
    refine Block.reported_each ?_ fun c j h k => Block.reported_setReg k (.inr rfl) (hj j h)
    exact Block.reported_setReg (Block.reported_setReg h (.inr rfl) (by decide)) (.inr rfl) (by decide)
  · dsimp only
    refine Block.reported_setFld ?_ (.inr rfl) (by decide)
    refine Block.reported_each ?_ fun c j h k => ?_
    · exact Block.reported_setReg (Block.reported_setReg h (.inr rfl) (by decide)) (.inr rfl) (by decide)
    · split
      · exact k
      · exact Block.reported_setReg k (.inr rfl) (hj j h)

theorem Block.capture_frame {a b : Block} {e : FltEnt} {u : Nat} (h : a.reported u b) : a.reported u (b.capture e) := by
  unfold Block.capture
  dsimp only
  refine Block.reported_ite ?_ h
  refine Block.reported_when ?_ fun c k => Block.reported_irq k (.inr rfl)
  refine Block.reported_when ?_ fun c k => Block.reported_irq (Block.reported_setFld k (.inr rfl) (by decide)) (.inr rfl)
  exact Block.showCaptured_frame (Block.reported_side b.host _ b.recd h)

theorem Block.collect_frame {a b : Block} {line u : Nat} (h : a.reported u b) : a.reported u (b.collect line) := by
  unfold Block.collect
  dsimp only
  have k : a.reported u (b.setReg 0 R.FLT_COLLECT (b.reg 0 R.FLT_COLLECT ||| BitVec.ofNat 64 (1 <<< line))) :=
    Block.reported_setReg h (.inr rfl) (by decide)
  refine Block.reported_ite h (Block.reported_ite (Block.reported_ite (Block.reported_setFld k (.inr rfl) (by decide)) k) ?_)
  refine Block.reported_setFld (Block.reported_setReg (Block.reported_setFld ?_ (.inr rfl) (by decide)) (.inr rfl) (by decide)) (.inr rfl) (by decide)
  exact Block.reported_setFld (Block.reported_side _ _ _ k) (.inr rfl) (by decide)

theorem Block.markCoincident_frame {a b : Block} {u w : Nat} (h : a.reported w b) : a.reported w (b.markCoincident u) := by
  unfold Block.markCoincident
  dsimp only
  refine Block.reported_irq (Block.reported_setFld (Block.showCaptured_frame ?_) (.inr rfl) (by decide)) (.inr rfl)
  exact Block.reported_when (Block.reported_side b.host _ _ h) fun c k => Block.reported_setFld k (.inr rfl) (by decide)

theorem Block.noteFault_frame {a b : Block} {e : FltEnt} {u : Nat} (h : a.reported u b) : a.reported u (b.noteFault e) :=
  Block.reported_side b.host _ b.recd h

/-- Reporting a fault at `u` changes only registers of the pages of `u` and of the root, the collector, the recorder's input and
the host side. -/
theorem Block.faultReport_frame (b : Block) (u code cls : Nat) (inj fatalBit : Bool) (path : Nat) :
    b.reported u (b.faultReport u code cls inj fatalBit path) := by
  unfold Block.faultReport
  dsimp only
  refine Block.reported_when ?_ fun c k => Block.markCoincident_frame k
  refine Block.reported_when ?_ fun c k => Block.reported_irq (Block.reported_setFld k (.inr rfl) (by decide)) (.inr rfl)
  refine Block.reported_when ?_ fun c k => Block.reported_side c.host c.flt _ k
  refine Block.noteFault_frame (Block.collect_frame (Block.capture_frame ?_))
  refine Block.unitFault_frame (Block.reported_ite (Block.reported_refl _ _) ?_)
  exact Block.reported_side b.host _ b.recd (Block.reported_refl _ _)

theorem Block.corrected_frame (b : Block) (u code : Nat) : b.reported u (b.corrected u code) := Block.faultReport_frame b u code 1 false false 16

/-- A CORRECTED fault at the root changes no page but the root's. -/
theorem Block.correctedRoot_frame (b : Block) (code path : Nat) : b.reported 0 (b.correctedRoot code path) :=
  Block.faultReport_frame b 0 code 1 false false path

end Sys2Proof.Machine
end

