-- ==== Sys2Proof/Laws/State.lean ====
section
/-! SUPPORT.
One lemma per field per update of the block: the fields that an update leaves. -/
namespace Sys2Proof.Machine

variable (b : Block)

/-! ### setReg -/
@[simp] theorem Block.setReg_time (u off : Nat) (v : Word) : (b.setReg u off v).time = b.time := rfl
@[simp] theorem Block.setReg_free (u off : Nat) (v : Word) : (b.setReg u off v).free = b.free := rfl
@[simp] theorem Block.setReg_groups (u off : Nat) (v : Word) : (b.setReg u off v).groups = b.groups := rfl
@[simp] theorem Block.setReg_edits (u off : Nat) (v : Word) : (b.setReg u off v).edits = b.edits := rfl
@[simp] theorem Block.setReg_ramping (u off : Nat) (v : Word) : (b.setReg u off v).ramping = b.ramping := rfl
@[simp] theorem Block.setReg_testing (u off : Nat) (v : Word) : (b.setReg u off v).testing = b.testing := rfl
@[simp] theorem Block.setReg_host (u off : Nat) (v : Word) : (b.setReg u off v).host = b.host := rfl
@[simp] theorem Block.setReg_root (u off : Nat) (v : Word) : (b.setReg u off v).root = b.root := rfl
@[simp] theorem Block.setReg_flt (u off : Nat) (v : Word) : (b.setReg u off v).flt = b.flt := rfl
@[simp] theorem Block.setReg_recd (u off : Nat) (v : Word) : (b.setReg u off v).recd = b.recd := rfl
@[simp] theorem Block.setReg_tally (u off : Nat) (v : Word) : (b.setReg u off v).tally = b.tally := rfl
@[simp] theorem Block.setReg_otp (u off : Nat) (v : Word) : (b.setReg u off v).otp = b.otp := rfl
@[simp] theorem Block.setReg_boot (u off : Nat) (v : Word) : (b.setReg u off v).boot = b.boot := rfl
@[simp] theorem Block.setReg_wdn (u off : Nat) (v : Word) : (b.setReg u off v).wdn = b.wdn := rfl
@[simp] theorem Block.setReg_sync (u off : Nat) (v : Word) : (b.setReg u off v).sync = b.sync := rfl
@[simp] theorem Block.setReg_pbs (u off : Nat) (v : Word) : (b.setReg u off v).pbs = b.pbs := rfl
@[simp] theorem Block.setReg_pbds (u off : Nat) (v : Word) : (b.setReg u off v).pbds = b.pbds := rfl
@[simp] theorem Block.setReg_rxcs (u off : Nat) (v : Word) : (b.setReg u off v).rxcs = b.rxcs := rfl
@[simp] theorem Block.setReg_txcs (u off : Nat) (v : Word) : (b.setReg u off v).txcs = b.txcs := rfl
@[simp] theorem Block.setReg_sys (u off : Nat) (v : Word) : (b.setReg u off v).sys = b.sys := rfl
@[simp] theorem Block.setReg_ccs (u off : Nat) (v : Word) : (b.setReg u off v).ccs = b.ccs := rfl
@[simp] theorem Block.setReg_orxs (u off : Nat) (v : Word) : (b.setReg u off v).orxs = b.orxs := rfl
@[simp] theorem Block.setReg_lanes (u off : Nat) (v : Word) : (b.setReg u off v).lanes = b.lanes := rfl
@[simp] theorem Block.setReg_bank (u off : Nat) (v : Word) : (b.setReg u off v).bank = b.bank := rfl
@[simp] theorem Block.setReg_loop (u off : Nat) (v : Word) : (b.setReg u off v).loop = b.loop := rfl
@[simp] theorem Block.setReg_mcs (u off : Nat) (v : Word) : (b.setReg u off v).mcs = b.mcs := rfl
@[simp] theorem Block.setReg_mcResets (u off : Nat) (v : Word) : (b.setReg u off v).mcResets = b.mcResets := rfl
@[simp] theorem Block.setReg_engs (u off : Nat) (v : Word) : (b.setReg u off v).engs = b.engs := rfl
@[simp] theorem Block.setReg_ctxs (u off : Nat) (v : Word) : (b.setReg u off v).ctxs = b.ctxs := rfl
@[simp] theorem Block.setReg_rings (u off : Nat) (v : Word) : (b.setReg u off v).rings = b.rings := rfl
@[simp] theorem Block.setReg_dsp (u off : Nat) (v : Word) : (b.setReg u off v).dsp = b.dsp := rfl
@[simp] theorem Block.setReg_hostOut (u off : Nat) (v : Word) : (b.setReg u off v).hostOut = b.hostOut := rfl
@[simp] theorem Block.setReg_mon (u off : Nat) (v : Word) : (b.setReg u off v).mon = b.mon := rfl
@[simp] theorem Block.setReg_power (u off : Nat) (v : Word) : (b.setReg u off v).power = b.power := rfl
@[simp] theorem Block.setReg_kiln (u off : Nat) (v : Word) : (b.setReg u off v).kiln = b.kiln := rfl
@[simp] theorem Block.setReg_hbm (u off : Nat) (v : Word) : (b.setReg u off v).hbm = b.hbm := rfl
@[simp] theorem Block.setReg_cel (u off : Nat) (v : Word) : (b.setReg u off v).cel = b.cel := rfl
@[simp] theorem Block.setReg_fhs (u off : Nat) (v : Word) : (b.setReg u off v).fhs = b.fhs := rfl
@[simp] theorem Block.setReg_fhBeat (u off : Nat) (v : Word) : (b.setReg u off v).fhBeat = b.fhBeat := rfl
@[simp] theorem Block.setReg_hds (u off : Nat) (v : Word) : (b.setReg u off v).hds = b.hds := rfl
@[simp] theorem Block.setReg_hdOut (u off : Nat) (v : Word) : (b.setReg u off v).hdOut = b.hdOut := rfl
@[simp] theorem Block.setReg_memOps (u off : Nat) (v : Word) : (b.setReg u off v).memOps = b.memOps := rfl
@[simp] theorem Block.setReg_rdata (u off : Nat) (v : Word) : (b.setReg u off v).rdata = b.rdata := rfl

/-! ### setFld -/
@[simp] theorem Block.setFld_time (u : Nat) (f : Fld) (n : Nat) : (b.setFld u f n).time = b.time := rfl
@[simp] theorem Block.setFld_free (u : Nat) (f : Fld) (n : Nat) : (b.setFld u f n).free = b.free := rfl
@[simp] theorem Block.setFld_groups (u : Nat) (f : Fld) (n : Nat) : (b.setFld u f n).groups = b.groups := rfl
@[simp] theorem Block.setFld_edits (u : Nat) (f : Fld) (n : Nat) : (b.setFld u f n).edits = b.edits := rfl
@[simp] theorem Block.setFld_ramping (u : Nat) (f : Fld) (n : Nat) : (b.setFld u f n).ramping = b.ramping := rfl
@[simp] theorem Block.setFld_testing (u : Nat) (f : Fld) (n : Nat) : (b.setFld u f n).testing = b.testing := rfl
@[simp] theorem Block.setFld_host (u : Nat) (f : Fld) (n : Nat) : (b.setFld u f n).host = b.host := rfl
@[simp] theorem Block.setFld_root (u : Nat) (f : Fld) (n : Nat) : (b.setFld u f n).root = b.root := rfl
@[simp] theorem Block.setFld_flt (u : Nat) (f : Fld) (n : Nat) : (b.setFld u f n).flt = b.flt := rfl
@[simp] theorem Block.setFld_recd (u : Nat) (f : Fld) (n : Nat) : (b.setFld u f n).recd = b.recd := rfl
@[simp] theorem Block.setFld_tally (u : Nat) (f : Fld) (n : Nat) : (b.setFld u f n).tally = b.tally := rfl
@[simp] theorem Block.setFld_otp (u : Nat) (f : Fld) (n : Nat) : (b.setFld u f n).otp = b.otp := rfl
@[simp] theorem Block.setFld_boot (u : Nat) (f : Fld) (n : Nat) : (b.setFld u f n).boot = b.boot := rfl
@[simp] theorem Block.setFld_wdn (u : Nat) (f : Fld) (n : Nat) : (b.setFld u f n).wdn = b.wdn := rfl
@[simp] theorem Block.setFld_sync (u : Nat) (f : Fld) (n : Nat) : (b.setFld u f n).sync = b.sync := rfl
@[simp] theorem Block.setFld_pbs (u : Nat) (f : Fld) (n : Nat) : (b.setFld u f n).pbs = b.pbs := rfl
@[simp] theorem Block.setFld_pbds (u : Nat) (f : Fld) (n : Nat) : (b.setFld u f n).pbds = b.pbds := rfl
@[simp] theorem Block.setFld_rxcs (u : Nat) (f : Fld) (n : Nat) : (b.setFld u f n).rxcs = b.rxcs := rfl
@[simp] theorem Block.setFld_txcs (u : Nat) (f : Fld) (n : Nat) : (b.setFld u f n).txcs = b.txcs := rfl
@[simp] theorem Block.setFld_sys (u : Nat) (f : Fld) (n : Nat) : (b.setFld u f n).sys = b.sys := rfl
@[simp] theorem Block.setFld_ccs (u : Nat) (f : Fld) (n : Nat) : (b.setFld u f n).ccs = b.ccs := rfl
@[simp] theorem Block.setFld_orxs (u : Nat) (f : Fld) (n : Nat) : (b.setFld u f n).orxs = b.orxs := rfl
@[simp] theorem Block.setFld_lanes (u : Nat) (f : Fld) (n : Nat) : (b.setFld u f n).lanes = b.lanes := rfl
@[simp] theorem Block.setFld_bank (u : Nat) (f : Fld) (n : Nat) : (b.setFld u f n).bank = b.bank := rfl
@[simp] theorem Block.setFld_loop (u : Nat) (f : Fld) (n : Nat) : (b.setFld u f n).loop = b.loop := rfl
@[simp] theorem Block.setFld_mcs (u : Nat) (f : Fld) (n : Nat) : (b.setFld u f n).mcs = b.mcs := rfl
@[simp] theorem Block.setFld_mcResets (u : Nat) (f : Fld) (n : Nat) : (b.setFld u f n).mcResets = b.mcResets := rfl
@[simp] theorem Block.setFld_engs (u : Nat) (f : Fld) (n : Nat) : (b.setFld u f n).engs = b.engs := rfl
@[simp] theorem Block.setFld_ctxs (u : Nat) (f : Fld) (n : Nat) : (b.setFld u f n).ctxs = b.ctxs := rfl
@[simp] theorem Block.setFld_rings (u : Nat) (f : Fld) (n : Nat) : (b.setFld u f n).rings = b.rings := rfl
@[simp] theorem Block.setFld_dsp (u : Nat) (f : Fld) (n : Nat) : (b.setFld u f n).dsp = b.dsp := rfl
@[simp] theorem Block.setFld_hostOut (u : Nat) (f : Fld) (n : Nat) : (b.setFld u f n).hostOut = b.hostOut := rfl
@[simp] theorem Block.setFld_mon (u : Nat) (f : Fld) (n : Nat) : (b.setFld u f n).mon = b.mon := rfl
@[simp] theorem Block.setFld_power (u : Nat) (f : Fld) (n : Nat) : (b.setFld u f n).power = b.power := rfl
@[simp] theorem Block.setFld_kiln (u : Nat) (f : Fld) (n : Nat) : (b.setFld u f n).kiln = b.kiln := rfl
@[simp] theorem Block.setFld_hbm (u : Nat) (f : Fld) (n : Nat) : (b.setFld u f n).hbm = b.hbm := rfl
@[simp] theorem Block.setFld_cel (u : Nat) (f : Fld) (n : Nat) : (b.setFld u f n).cel = b.cel := rfl
@[simp] theorem Block.setFld_fhs (u : Nat) (f : Fld) (n : Nat) : (b.setFld u f n).fhs = b.fhs := rfl
@[simp] theorem Block.setFld_fhBeat (u : Nat) (f : Fld) (n : Nat) : (b.setFld u f n).fhBeat = b.fhBeat := rfl
@[simp] theorem Block.setFld_hds (u : Nat) (f : Fld) (n : Nat) : (b.setFld u f n).hds = b.hds := rfl
@[simp] theorem Block.setFld_hdOut (u : Nat) (f : Fld) (n : Nat) : (b.setFld u f n).hdOut = b.hdOut := rfl
@[simp] theorem Block.setFld_memOps (u : Nat) (f : Fld) (n : Nat) : (b.setFld u f n).memOps = b.memOps := rfl
@[simp] theorem Block.setFld_rdata (u : Nat) (f : Fld) (n : Nat) : (b.setFld u f n).rdata = b.rdata := rfl

/-! ### setFlag -/
@[simp] theorem Block.setFlag_time (u : Nat) (f : Fld) (v : Bool) : (b.setFlag u f v).time = b.time := rfl
@[simp] theorem Block.setFlag_free (u : Nat) (f : Fld) (v : Bool) : (b.setFlag u f v).free = b.free := rfl
@[simp] theorem Block.setFlag_groups (u : Nat) (f : Fld) (v : Bool) : (b.setFlag u f v).groups = b.groups := rfl
@[simp] theorem Block.setFlag_edits (u : Nat) (f : Fld) (v : Bool) : (b.setFlag u f v).edits = b.edits := rfl
@[simp] theorem Block.setFlag_ramping (u : Nat) (f : Fld) (v : Bool) : (b.setFlag u f v).ramping = b.ramping := rfl
@[simp] theorem Block.setFlag_testing (u : Nat) (f : Fld) (v : Bool) : (b.setFlag u f v).testing = b.testing := rfl
@[simp] theorem Block.setFlag_host (u : Nat) (f : Fld) (v : Bool) : (b.setFlag u f v).host = b.host := rfl
@[simp] theorem Block.setFlag_root (u : Nat) (f : Fld) (v : Bool) : (b.setFlag u f v).root = b.root := rfl
@[simp] theorem Block.setFlag_flt (u : Nat) (f : Fld) (v : Bool) : (b.setFlag u f v).flt = b.flt := rfl
@[simp] theorem Block.setFlag_recd (u : Nat) (f : Fld) (v : Bool) : (b.setFlag u f v).recd = b.recd := rfl
@[simp] theorem Block.setFlag_tally (u : Nat) (f : Fld) (v : Bool) : (b.setFlag u f v).tally = b.tally := rfl
@[simp] theorem Block.setFlag_otp (u : Nat) (f : Fld) (v : Bool) : (b.setFlag u f v).otp = b.otp := rfl
@[simp] theorem Block.setFlag_boot (u : Nat) (f : Fld) (v : Bool) : (b.setFlag u f v).boot = b.boot := rfl
@[simp] theorem Block.setFlag_wdn (u : Nat) (f : Fld) (v : Bool) : (b.setFlag u f v).wdn = b.wdn := rfl
@[simp] theorem Block.setFlag_sync (u : Nat) (f : Fld) (v : Bool) : (b.setFlag u f v).sync = b.sync := rfl
@[simp] theorem Block.setFlag_pbs (u : Nat) (f : Fld) (v : Bool) : (b.setFlag u f v).pbs = b.pbs := rfl
@[simp] theorem Block.setFlag_pbds (u : Nat) (f : Fld) (v : Bool) : (b.setFlag u f v).pbds = b.pbds := rfl
@[simp] theorem Block.setFlag_rxcs (u : Nat) (f : Fld) (v : Bool) : (b.setFlag u f v).rxcs = b.rxcs := rfl
@[simp] theorem Block.setFlag_txcs (u : Nat) (f : Fld) (v : Bool) : (b.setFlag u f v).txcs = b.txcs := rfl
@[simp] theorem Block.setFlag_sys (u : Nat) (f : Fld) (v : Bool) : (b.setFlag u f v).sys = b.sys := rfl
@[simp] theorem Block.setFlag_ccs (u : Nat) (f : Fld) (v : Bool) : (b.setFlag u f v).ccs = b.ccs := rfl
@[simp] theorem Block.setFlag_orxs (u : Nat) (f : Fld) (v : Bool) : (b.setFlag u f v).orxs = b.orxs := rfl
@[simp] theorem Block.setFlag_lanes (u : Nat) (f : Fld) (v : Bool) : (b.setFlag u f v).lanes = b.lanes := rfl
@[simp] theorem Block.setFlag_bank (u : Nat) (f : Fld) (v : Bool) : (b.setFlag u f v).bank = b.bank := rfl
@[simp] theorem Block.setFlag_loop (u : Nat) (f : Fld) (v : Bool) : (b.setFlag u f v).loop = b.loop := rfl
@[simp] theorem Block.setFlag_mcs (u : Nat) (f : Fld) (v : Bool) : (b.setFlag u f v).mcs = b.mcs := rfl
@[simp] theorem Block.setFlag_mcResets (u : Nat) (f : Fld) (v : Bool) : (b.setFlag u f v).mcResets = b.mcResets := rfl
@[simp] theorem Block.setFlag_engs (u : Nat) (f : Fld) (v : Bool) : (b.setFlag u f v).engs = b.engs := rfl
@[simp] theorem Block.setFlag_ctxs (u : Nat) (f : Fld) (v : Bool) : (b.setFlag u f v).ctxs = b.ctxs := rfl
@[simp] theorem Block.setFlag_rings (u : Nat) (f : Fld) (v : Bool) : (b.setFlag u f v).rings = b.rings := rfl
@[simp] theorem Block.setFlag_dsp (u : Nat) (f : Fld) (v : Bool) : (b.setFlag u f v).dsp = b.dsp := rfl
@[simp] theorem Block.setFlag_hostOut (u : Nat) (f : Fld) (v : Bool) : (b.setFlag u f v).hostOut = b.hostOut := rfl
@[simp] theorem Block.setFlag_mon (u : Nat) (f : Fld) (v : Bool) : (b.setFlag u f v).mon = b.mon := rfl
@[simp] theorem Block.setFlag_power (u : Nat) (f : Fld) (v : Bool) : (b.setFlag u f v).power = b.power := rfl
@[simp] theorem Block.setFlag_kiln (u : Nat) (f : Fld) (v : Bool) : (b.setFlag u f v).kiln = b.kiln := rfl
@[simp] theorem Block.setFlag_hbm (u : Nat) (f : Fld) (v : Bool) : (b.setFlag u f v).hbm = b.hbm := rfl
@[simp] theorem Block.setFlag_cel (u : Nat) (f : Fld) (v : Bool) : (b.setFlag u f v).cel = b.cel := rfl
@[simp] theorem Block.setFlag_fhs (u : Nat) (f : Fld) (v : Bool) : (b.setFlag u f v).fhs = b.fhs := rfl
@[simp] theorem Block.setFlag_fhBeat (u : Nat) (f : Fld) (v : Bool) : (b.setFlag u f v).fhBeat = b.fhBeat := rfl
@[simp] theorem Block.setFlag_hds (u : Nat) (f : Fld) (v : Bool) : (b.setFlag u f v).hds = b.hds := rfl
@[simp] theorem Block.setFlag_hdOut (u : Nat) (f : Fld) (v : Bool) : (b.setFlag u f v).hdOut = b.hdOut := rfl
@[simp] theorem Block.setFlag_memOps (u : Nat) (f : Fld) (v : Bool) : (b.setFlag u f v).memOps = b.memOps := rfl
@[simp] theorem Block.setFlag_rdata (u : Nat) (f : Fld) (v : Bool) : (b.setFlag u f v).rdata = b.rdata := rfl

/-! ### incSat -/
@[simp] theorem Block.incSat_time (u : Nat) (f : Fld) (n : Nat) : (b.incSat u f n).time = b.time := rfl
@[simp] theorem Block.incSat_free (u : Nat) (f : Fld) (n : Nat) : (b.incSat u f n).free = b.free := rfl
@[simp] theorem Block.incSat_groups (u : Nat) (f : Fld) (n : Nat) : (b.incSat u f n).groups = b.groups := rfl
@[simp] theorem Block.incSat_edits (u : Nat) (f : Fld) (n : Nat) : (b.incSat u f n).edits = b.edits := rfl
@[simp] theorem Block.incSat_ramping (u : Nat) (f : Fld) (n : Nat) : (b.incSat u f n).ramping = b.ramping := rfl
@[simp] theorem Block.incSat_testing (u : Nat) (f : Fld) (n : Nat) : (b.incSat u f n).testing = b.testing := rfl
@[simp] theorem Block.incSat_host (u : Nat) (f : Fld) (n : Nat) : (b.incSat u f n).host = b.host := rfl
@[simp] theorem Block.incSat_root (u : Nat) (f : Fld) (n : Nat) : (b.incSat u f n).root = b.root := rfl
@[simp] theorem Block.incSat_flt (u : Nat) (f : Fld) (n : Nat) : (b.incSat u f n).flt = b.flt := rfl
@[simp] theorem Block.incSat_recd (u : Nat) (f : Fld) (n : Nat) : (b.incSat u f n).recd = b.recd := rfl
@[simp] theorem Block.incSat_tally (u : Nat) (f : Fld) (n : Nat) : (b.incSat u f n).tally = b.tally := rfl
@[simp] theorem Block.incSat_otp (u : Nat) (f : Fld) (n : Nat) : (b.incSat u f n).otp = b.otp := rfl
@[simp] theorem Block.incSat_boot (u : Nat) (f : Fld) (n : Nat) : (b.incSat u f n).boot = b.boot := rfl
@[simp] theorem Block.incSat_wdn (u : Nat) (f : Fld) (n : Nat) : (b.incSat u f n).wdn = b.wdn := rfl
@[simp] theorem Block.incSat_sync (u : Nat) (f : Fld) (n : Nat) : (b.incSat u f n).sync = b.sync := rfl
@[simp] theorem Block.incSat_pbs (u : Nat) (f : Fld) (n : Nat) : (b.incSat u f n).pbs = b.pbs := rfl
@[simp] theorem Block.incSat_pbds (u : Nat) (f : Fld) (n : Nat) : (b.incSat u f n).pbds = b.pbds := rfl
@[simp] theorem Block.incSat_rxcs (u : Nat) (f : Fld) (n : Nat) : (b.incSat u f n).rxcs = b.rxcs := rfl
@[simp] theorem Block.incSat_txcs (u : Nat) (f : Fld) (n : Nat) : (b.incSat u f n).txcs = b.txcs := rfl
@[simp] theorem Block.incSat_sys (u : Nat) (f : Fld) (n : Nat) : (b.incSat u f n).sys = b.sys := rfl
@[simp] theorem Block.incSat_ccs (u : Nat) (f : Fld) (n : Nat) : (b.incSat u f n).ccs = b.ccs := rfl
@[simp] theorem Block.incSat_orxs (u : Nat) (f : Fld) (n : Nat) : (b.incSat u f n).orxs = b.orxs := rfl
@[simp] theorem Block.incSat_lanes (u : Nat) (f : Fld) (n : Nat) : (b.incSat u f n).lanes = b.lanes := rfl
@[simp] theorem Block.incSat_bank (u : Nat) (f : Fld) (n : Nat) : (b.incSat u f n).bank = b.bank := rfl
@[simp] theorem Block.incSat_loop (u : Nat) (f : Fld) (n : Nat) : (b.incSat u f n).loop = b.loop := rfl
@[simp] theorem Block.incSat_mcs (u : Nat) (f : Fld) (n : Nat) : (b.incSat u f n).mcs = b.mcs := rfl
@[simp] theorem Block.incSat_mcResets (u : Nat) (f : Fld) (n : Nat) : (b.incSat u f n).mcResets = b.mcResets := rfl
@[simp] theorem Block.incSat_engs (u : Nat) (f : Fld) (n : Nat) : (b.incSat u f n).engs = b.engs := rfl
@[simp] theorem Block.incSat_ctxs (u : Nat) (f : Fld) (n : Nat) : (b.incSat u f n).ctxs = b.ctxs := rfl
@[simp] theorem Block.incSat_rings (u : Nat) (f : Fld) (n : Nat) : (b.incSat u f n).rings = b.rings := rfl
@[simp] theorem Block.incSat_dsp (u : Nat) (f : Fld) (n : Nat) : (b.incSat u f n).dsp = b.dsp := rfl
@[simp] theorem Block.incSat_hostOut (u : Nat) (f : Fld) (n : Nat) : (b.incSat u f n).hostOut = b.hostOut := rfl
@[simp] theorem Block.incSat_mon (u : Nat) (f : Fld) (n : Nat) : (b.incSat u f n).mon = b.mon := rfl
@[simp] theorem Block.incSat_power (u : Nat) (f : Fld) (n : Nat) : (b.incSat u f n).power = b.power := rfl
@[simp] theorem Block.incSat_kiln (u : Nat) (f : Fld) (n : Nat) : (b.incSat u f n).kiln = b.kiln := rfl
@[simp] theorem Block.incSat_hbm (u : Nat) (f : Fld) (n : Nat) : (b.incSat u f n).hbm = b.hbm := rfl
@[simp] theorem Block.incSat_cel (u : Nat) (f : Fld) (n : Nat) : (b.incSat u f n).cel = b.cel := rfl
@[simp] theorem Block.incSat_fhs (u : Nat) (f : Fld) (n : Nat) : (b.incSat u f n).fhs = b.fhs := rfl
@[simp] theorem Block.incSat_fhBeat (u : Nat) (f : Fld) (n : Nat) : (b.incSat u f n).fhBeat = b.fhBeat := rfl
@[simp] theorem Block.incSat_hds (u : Nat) (f : Fld) (n : Nat) : (b.incSat u f n).hds = b.hds := rfl
@[simp] theorem Block.incSat_hdOut (u : Nat) (f : Fld) (n : Nat) : (b.incSat u f n).hdOut = b.hdOut := rfl
@[simp] theorem Block.incSat_memOps (u : Nat) (f : Fld) (n : Nat) : (b.incSat u f n).memOps = b.memOps := rfl
@[simp] theorem Block.incSat_rdata (u : Nat) (f : Fld) (n : Nat) : (b.incSat u f n).rdata = b.rdata := rfl

/-! ### incWrap -/
@[simp] theorem Block.incWrap_time (u : Nat) (f : Fld) (n : Nat) : (b.incWrap u f n).time = b.time := rfl
@[simp] theorem Block.incWrap_free (u : Nat) (f : Fld) (n : Nat) : (b.incWrap u f n).free = b.free := rfl
@[simp] theorem Block.incWrap_groups (u : Nat) (f : Fld) (n : Nat) : (b.incWrap u f n).groups = b.groups := rfl
@[simp] theorem Block.incWrap_edits (u : Nat) (f : Fld) (n : Nat) : (b.incWrap u f n).edits = b.edits := rfl
@[simp] theorem Block.incWrap_ramping (u : Nat) (f : Fld) (n : Nat) : (b.incWrap u f n).ramping = b.ramping := rfl
@[simp] theorem Block.incWrap_testing (u : Nat) (f : Fld) (n : Nat) : (b.incWrap u f n).testing = b.testing := rfl
@[simp] theorem Block.incWrap_host (u : Nat) (f : Fld) (n : Nat) : (b.incWrap u f n).host = b.host := rfl
@[simp] theorem Block.incWrap_root (u : Nat) (f : Fld) (n : Nat) : (b.incWrap u f n).root = b.root := rfl
@[simp] theorem Block.incWrap_flt (u : Nat) (f : Fld) (n : Nat) : (b.incWrap u f n).flt = b.flt := rfl
@[simp] theorem Block.incWrap_recd (u : Nat) (f : Fld) (n : Nat) : (b.incWrap u f n).recd = b.recd := rfl
@[simp] theorem Block.incWrap_tally (u : Nat) (f : Fld) (n : Nat) : (b.incWrap u f n).tally = b.tally := rfl
@[simp] theorem Block.incWrap_otp (u : Nat) (f : Fld) (n : Nat) : (b.incWrap u f n).otp = b.otp := rfl
@[simp] theorem Block.incWrap_boot (u : Nat) (f : Fld) (n : Nat) : (b.incWrap u f n).boot = b.boot := rfl
@[simp] theorem Block.incWrap_wdn (u : Nat) (f : Fld) (n : Nat) : (b.incWrap u f n).wdn = b.wdn := rfl
@[simp] theorem Block.incWrap_sync (u : Nat) (f : Fld) (n : Nat) : (b.incWrap u f n).sync = b.sync := rfl
@[simp] theorem Block.incWrap_pbs (u : Nat) (f : Fld) (n : Nat) : (b.incWrap u f n).pbs = b.pbs := rfl
@[simp] theorem Block.incWrap_pbds (u : Nat) (f : Fld) (n : Nat) : (b.incWrap u f n).pbds = b.pbds := rfl
@[simp] theorem Block.incWrap_rxcs (u : Nat) (f : Fld) (n : Nat) : (b.incWrap u f n).rxcs = b.rxcs := rfl
@[simp] theorem Block.incWrap_txcs (u : Nat) (f : Fld) (n : Nat) : (b.incWrap u f n).txcs = b.txcs := rfl
@[simp] theorem Block.incWrap_sys (u : Nat) (f : Fld) (n : Nat) : (b.incWrap u f n).sys = b.sys := rfl
@[simp] theorem Block.incWrap_ccs (u : Nat) (f : Fld) (n : Nat) : (b.incWrap u f n).ccs = b.ccs := rfl
@[simp] theorem Block.incWrap_orxs (u : Nat) (f : Fld) (n : Nat) : (b.incWrap u f n).orxs = b.orxs := rfl
@[simp] theorem Block.incWrap_lanes (u : Nat) (f : Fld) (n : Nat) : (b.incWrap u f n).lanes = b.lanes := rfl
@[simp] theorem Block.incWrap_bank (u : Nat) (f : Fld) (n : Nat) : (b.incWrap u f n).bank = b.bank := rfl
@[simp] theorem Block.incWrap_loop (u : Nat) (f : Fld) (n : Nat) : (b.incWrap u f n).loop = b.loop := rfl
@[simp] theorem Block.incWrap_mcs (u : Nat) (f : Fld) (n : Nat) : (b.incWrap u f n).mcs = b.mcs := rfl
@[simp] theorem Block.incWrap_mcResets (u : Nat) (f : Fld) (n : Nat) : (b.incWrap u f n).mcResets = b.mcResets := rfl
@[simp] theorem Block.incWrap_engs (u : Nat) (f : Fld) (n : Nat) : (b.incWrap u f n).engs = b.engs := rfl
@[simp] theorem Block.incWrap_ctxs (u : Nat) (f : Fld) (n : Nat) : (b.incWrap u f n).ctxs = b.ctxs := rfl
@[simp] theorem Block.incWrap_rings (u : Nat) (f : Fld) (n : Nat) : (b.incWrap u f n).rings = b.rings := rfl
@[simp] theorem Block.incWrap_dsp (u : Nat) (f : Fld) (n : Nat) : (b.incWrap u f n).dsp = b.dsp := rfl
@[simp] theorem Block.incWrap_hostOut (u : Nat) (f : Fld) (n : Nat) : (b.incWrap u f n).hostOut = b.hostOut := rfl
@[simp] theorem Block.incWrap_mon (u : Nat) (f : Fld) (n : Nat) : (b.incWrap u f n).mon = b.mon := rfl
@[simp] theorem Block.incWrap_power (u : Nat) (f : Fld) (n : Nat) : (b.incWrap u f n).power = b.power := rfl
@[simp] theorem Block.incWrap_kiln (u : Nat) (f : Fld) (n : Nat) : (b.incWrap u f n).kiln = b.kiln := rfl
@[simp] theorem Block.incWrap_hbm (u : Nat) (f : Fld) (n : Nat) : (b.incWrap u f n).hbm = b.hbm := rfl
@[simp] theorem Block.incWrap_cel (u : Nat) (f : Fld) (n : Nat) : (b.incWrap u f n).cel = b.cel := rfl
@[simp] theorem Block.incWrap_fhs (u : Nat) (f : Fld) (n : Nat) : (b.incWrap u f n).fhs = b.fhs := rfl
@[simp] theorem Block.incWrap_fhBeat (u : Nat) (f : Fld) (n : Nat) : (b.incWrap u f n).fhBeat = b.fhBeat := rfl
@[simp] theorem Block.incWrap_hds (u : Nat) (f : Fld) (n : Nat) : (b.incWrap u f n).hds = b.hds := rfl
@[simp] theorem Block.incWrap_hdOut (u : Nat) (f : Fld) (n : Nat) : (b.incWrap u f n).hdOut = b.hdOut := rfl
@[simp] theorem Block.incWrap_memOps (u : Nat) (f : Fld) (n : Nat) : (b.incWrap u f n).memOps = b.memOps := rfl
@[simp] theorem Block.incWrap_rdata (u : Nat) (f : Fld) (n : Nat) : (b.incWrap u f n).rdata = b.rdata := rfl

/-! ### put -/
@[simp] theorem Block.put_time (r : Ram) (i : Nat) (v : Quad) : (b.put r i v).time = b.time := rfl
@[simp] theorem Block.put_regs (r : Ram) (i : Nat) (v : Quad) : (b.put r i v).regs = b.regs := rfl
@[simp] theorem Block.put_free (r : Ram) (i : Nat) (v : Quad) : (b.put r i v).free = b.free := rfl
@[simp] theorem Block.put_groups (r : Ram) (i : Nat) (v : Quad) : (b.put r i v).groups = b.groups := rfl
@[simp] theorem Block.put_edits (r : Ram) (i : Nat) (v : Quad) : (b.put r i v).edits = b.edits := rfl
@[simp] theorem Block.put_ramping (r : Ram) (i : Nat) (v : Quad) : (b.put r i v).ramping = b.ramping := rfl
@[simp] theorem Block.put_testing (r : Ram) (i : Nat) (v : Quad) : (b.put r i v).testing = b.testing := rfl
@[simp] theorem Block.put_host (r : Ram) (i : Nat) (v : Quad) : (b.put r i v).host = b.host := rfl
@[simp] theorem Block.put_root (r : Ram) (i : Nat) (v : Quad) : (b.put r i v).root = b.root := rfl
@[simp] theorem Block.put_flt (r : Ram) (i : Nat) (v : Quad) : (b.put r i v).flt = b.flt := rfl
@[simp] theorem Block.put_recd (r : Ram) (i : Nat) (v : Quad) : (b.put r i v).recd = b.recd := rfl
@[simp] theorem Block.put_tally (r : Ram) (i : Nat) (v : Quad) : (b.put r i v).tally = b.tally := rfl
@[simp] theorem Block.put_otp (r : Ram) (i : Nat) (v : Quad) : (b.put r i v).otp = b.otp := rfl
@[simp] theorem Block.put_boot (r : Ram) (i : Nat) (v : Quad) : (b.put r i v).boot = b.boot := rfl
@[simp] theorem Block.put_wdn (r : Ram) (i : Nat) (v : Quad) : (b.put r i v).wdn = b.wdn := rfl
@[simp] theorem Block.put_sync (r : Ram) (i : Nat) (v : Quad) : (b.put r i v).sync = b.sync := rfl
@[simp] theorem Block.put_pbs (r : Ram) (i : Nat) (v : Quad) : (b.put r i v).pbs = b.pbs := rfl
@[simp] theorem Block.put_pbds (r : Ram) (i : Nat) (v : Quad) : (b.put r i v).pbds = b.pbds := rfl
@[simp] theorem Block.put_rxcs (r : Ram) (i : Nat) (v : Quad) : (b.put r i v).rxcs = b.rxcs := rfl
@[simp] theorem Block.put_txcs (r : Ram) (i : Nat) (v : Quad) : (b.put r i v).txcs = b.txcs := rfl
@[simp] theorem Block.put_sys (r : Ram) (i : Nat) (v : Quad) : (b.put r i v).sys = b.sys := rfl
@[simp] theorem Block.put_ccs (r : Ram) (i : Nat) (v : Quad) : (b.put r i v).ccs = b.ccs := rfl
@[simp] theorem Block.put_orxs (r : Ram) (i : Nat) (v : Quad) : (b.put r i v).orxs = b.orxs := rfl
@[simp] theorem Block.put_lanes (r : Ram) (i : Nat) (v : Quad) : (b.put r i v).lanes = b.lanes := rfl
@[simp] theorem Block.put_bank (r : Ram) (i : Nat) (v : Quad) : (b.put r i v).bank = b.bank := rfl
@[simp] theorem Block.put_loop (r : Ram) (i : Nat) (v : Quad) : (b.put r i v).loop = b.loop := rfl
@[simp] theorem Block.put_mcs (r : Ram) (i : Nat) (v : Quad) : (b.put r i v).mcs = b.mcs := rfl
@[simp] theorem Block.put_mcResets (r : Ram) (i : Nat) (v : Quad) : (b.put r i v).mcResets = b.mcResets := rfl
@[simp] theorem Block.put_engs (r : Ram) (i : Nat) (v : Quad) : (b.put r i v).engs = b.engs := rfl
@[simp] theorem Block.put_ctxs (r : Ram) (i : Nat) (v : Quad) : (b.put r i v).ctxs = b.ctxs := rfl
@[simp] theorem Block.put_rings (r : Ram) (i : Nat) (v : Quad) : (b.put r i v).rings = b.rings := rfl
@[simp] theorem Block.put_dsp (r : Ram) (i : Nat) (v : Quad) : (b.put r i v).dsp = b.dsp := rfl
@[simp] theorem Block.put_hostOut (r : Ram) (i : Nat) (v : Quad) : (b.put r i v).hostOut = b.hostOut := rfl
@[simp] theorem Block.put_mon (r : Ram) (i : Nat) (v : Quad) : (b.put r i v).mon = b.mon := rfl
@[simp] theorem Block.put_power (r : Ram) (i : Nat) (v : Quad) : (b.put r i v).power = b.power := rfl
@[simp] theorem Block.put_kiln (r : Ram) (i : Nat) (v : Quad) : (b.put r i v).kiln = b.kiln := rfl
@[simp] theorem Block.put_hbm (r : Ram) (i : Nat) (v : Quad) : (b.put r i v).hbm = b.hbm := rfl
@[simp] theorem Block.put_cel (r : Ram) (i : Nat) (v : Quad) : (b.put r i v).cel = b.cel := rfl
@[simp] theorem Block.put_fhs (r : Ram) (i : Nat) (v : Quad) : (b.put r i v).fhs = b.fhs := rfl
@[simp] theorem Block.put_fhBeat (r : Ram) (i : Nat) (v : Quad) : (b.put r i v).fhBeat = b.fhBeat := rfl
@[simp] theorem Block.put_hds (r : Ram) (i : Nat) (v : Quad) : (b.put r i v).hds = b.hds := rfl
@[simp] theorem Block.put_hdOut (r : Ram) (i : Nat) (v : Quad) : (b.put r i v).hdOut = b.hdOut := rfl
@[simp] theorem Block.put_rdata (r : Ram) (i : Nat) (v : Quad) : (b.put r i v).rdata = b.rdata := rfl
@[simp] theorem Block.put_reg (r : Ram) (i : Nat) (v : Quad) (uid o : Nat) : (b.put r i v).reg uid o = b.reg uid o := rfl
@[simp] theorem Block.put_fld (r : Ram) (i : Nat) (v : Quad) (uid : Nat) (fd : Fld) : (b.put r i v).fld uid fd = b.fld uid fd := rfl
@[simp] theorem Block.put_flag (r : Ram) (i : Nat) (v : Quad) (uid : Nat) (fd : Fld) : (b.put r i v).flag uid fd = b.flag uid fd := rfl

/-! ### setCtx -/
@[simp] theorem Block.setCtx_time (x : Nat) (c : Ctx) : (b.setCtx x c).time = b.time := rfl
@[simp] theorem Block.setCtx_regs (x : Nat) (c : Ctx) : (b.setCtx x c).regs = b.regs := rfl
@[simp] theorem Block.setCtx_free (x : Nat) (c : Ctx) : (b.setCtx x c).free = b.free := rfl
@[simp] theorem Block.setCtx_groups (x : Nat) (c : Ctx) : (b.setCtx x c).groups = b.groups := rfl
@[simp] theorem Block.setCtx_edits (x : Nat) (c : Ctx) : (b.setCtx x c).edits = b.edits := rfl
@[simp] theorem Block.setCtx_ramping (x : Nat) (c : Ctx) : (b.setCtx x c).ramping = b.ramping := rfl
@[simp] theorem Block.setCtx_testing (x : Nat) (c : Ctx) : (b.setCtx x c).testing = b.testing := rfl
@[simp] theorem Block.setCtx_host (x : Nat) (c : Ctx) : (b.setCtx x c).host = b.host := rfl
@[simp] theorem Block.setCtx_root (x : Nat) (c : Ctx) : (b.setCtx x c).root = b.root := rfl
@[simp] theorem Block.setCtx_flt (x : Nat) (c : Ctx) : (b.setCtx x c).flt = b.flt := rfl
@[simp] theorem Block.setCtx_recd (x : Nat) (c : Ctx) : (b.setCtx x c).recd = b.recd := rfl
@[simp] theorem Block.setCtx_tally (x : Nat) (c : Ctx) : (b.setCtx x c).tally = b.tally := rfl
@[simp] theorem Block.setCtx_otp (x : Nat) (c : Ctx) : (b.setCtx x c).otp = b.otp := rfl
@[simp] theorem Block.setCtx_boot (x : Nat) (c : Ctx) : (b.setCtx x c).boot = b.boot := rfl
@[simp] theorem Block.setCtx_wdn (x : Nat) (c : Ctx) : (b.setCtx x c).wdn = b.wdn := rfl
@[simp] theorem Block.setCtx_sync (x : Nat) (c : Ctx) : (b.setCtx x c).sync = b.sync := rfl
@[simp] theorem Block.setCtx_pbs (x : Nat) (c : Ctx) : (b.setCtx x c).pbs = b.pbs := rfl
@[simp] theorem Block.setCtx_pbds (x : Nat) (c : Ctx) : (b.setCtx x c).pbds = b.pbds := rfl
@[simp] theorem Block.setCtx_rxcs (x : Nat) (c : Ctx) : (b.setCtx x c).rxcs = b.rxcs := rfl
@[simp] theorem Block.setCtx_txcs (x : Nat) (c : Ctx) : (b.setCtx x c).txcs = b.txcs := rfl
@[simp] theorem Block.setCtx_sys (x : Nat) (c : Ctx) : (b.setCtx x c).sys = b.sys := rfl
@[simp] theorem Block.setCtx_ccs (x : Nat) (c : Ctx) : (b.setCtx x c).ccs = b.ccs := rfl
@[simp] theorem Block.setCtx_orxs (x : Nat) (c : Ctx) : (b.setCtx x c).orxs = b.orxs := rfl
@[simp] theorem Block.setCtx_lanes (x : Nat) (c : Ctx) : (b.setCtx x c).lanes = b.lanes := rfl
@[simp] theorem Block.setCtx_bank (x : Nat) (c : Ctx) : (b.setCtx x c).bank = b.bank := rfl
@[simp] theorem Block.setCtx_loop (x : Nat) (c : Ctx) : (b.setCtx x c).loop = b.loop := rfl
@[simp] theorem Block.setCtx_mcs (x : Nat) (c : Ctx) : (b.setCtx x c).mcs = b.mcs := rfl
@[simp] theorem Block.setCtx_mcResets (x : Nat) (c : Ctx) : (b.setCtx x c).mcResets = b.mcResets := rfl
@[simp] theorem Block.setCtx_engs (x : Nat) (c : Ctx) : (b.setCtx x c).engs = b.engs := rfl
@[simp] theorem Block.setCtx_rings (x : Nat) (c : Ctx) : (b.setCtx x c).rings = b.rings := rfl
@[simp] theorem Block.setCtx_dsp (x : Nat) (c : Ctx) : (b.setCtx x c).dsp = b.dsp := rfl
@[simp] theorem Block.setCtx_hostOut (x : Nat) (c : Ctx) : (b.setCtx x c).hostOut = b.hostOut := rfl
@[simp] theorem Block.setCtx_mon (x : Nat) (c : Ctx) : (b.setCtx x c).mon = b.mon := rfl
@[simp] theorem Block.setCtx_power (x : Nat) (c : Ctx) : (b.setCtx x c).power = b.power := rfl
@[simp] theorem Block.setCtx_kiln (x : Nat) (c : Ctx) : (b.setCtx x c).kiln = b.kiln := rfl
@[simp] theorem Block.setCtx_hbm (x : Nat) (c : Ctx) : (b.setCtx x c).hbm = b.hbm := rfl
@[simp] theorem Block.setCtx_cel (x : Nat) (c : Ctx) : (b.setCtx x c).cel = b.cel := rfl
@[simp] theorem Block.setCtx_fhs (x : Nat) (c : Ctx) : (b.setCtx x c).fhs = b.fhs := rfl
@[simp] theorem Block.setCtx_fhBeat (x : Nat) (c : Ctx) : (b.setCtx x c).fhBeat = b.fhBeat := rfl
@[simp] theorem Block.setCtx_hds (x : Nat) (c : Ctx) : (b.setCtx x c).hds = b.hds := rfl
@[simp] theorem Block.setCtx_hdOut (x : Nat) (c : Ctx) : (b.setCtx x c).hdOut = b.hdOut := rfl
@[simp] theorem Block.setCtx_memOps (x : Nat) (c : Ctx) : (b.setCtx x c).memOps = b.memOps := rfl
@[simp] theorem Block.setCtx_rdata (x : Nat) (c : Ctx) : (b.setCtx x c).rdata = b.rdata := rfl
@[simp] theorem Block.setCtx_reg (x : Nat) (c : Ctx) (uid o : Nat) : (b.setCtx x c).reg uid o = b.reg uid o := rfl
@[simp] theorem Block.setCtx_fld (x : Nat) (c : Ctx) (uid : Nat) (fd : Fld) : (b.setCtx x c).fld uid fd = b.fld uid fd := rfl
@[simp] theorem Block.setCtx_flag (x : Nat) (c : Ctx) (uid : Nat) (fd : Fld) : (b.setCtx x c).flag uid fd = b.flag uid fd := rfl

/-! ### setEng -/
@[simp] theorem Block.setEng_time (n : Nat) (h : EngH) : (b.setEng n h).time = b.time := rfl
@[simp] theorem Block.setEng_regs (n : Nat) (h : EngH) : (b.setEng n h).regs = b.regs := rfl
@[simp] theorem Block.setEng_free (n : Nat) (h : EngH) : (b.setEng n h).free = b.free := rfl
@[simp] theorem Block.setEng_groups (n : Nat) (h : EngH) : (b.setEng n h).groups = b.groups := rfl
@[simp] theorem Block.setEng_edits (n : Nat) (h : EngH) : (b.setEng n h).edits = b.edits := rfl
@[simp] theorem Block.setEng_ramping (n : Nat) (h : EngH) : (b.setEng n h).ramping = b.ramping := rfl
@[simp] theorem Block.setEng_testing (n : Nat) (h : EngH) : (b.setEng n h).testing = b.testing := rfl
@[simp] theorem Block.setEng_host (n : Nat) (h : EngH) : (b.setEng n h).host = b.host := rfl
@[simp] theorem Block.setEng_root (n : Nat) (h : EngH) : (b.setEng n h).root = b.root := rfl
@[simp] theorem Block.setEng_flt (n : Nat) (h : EngH) : (b.setEng n h).flt = b.flt := rfl
@[simp] theorem Block.setEng_recd (n : Nat) (h : EngH) : (b.setEng n h).recd = b.recd := rfl
@[simp] theorem Block.setEng_tally (n : Nat) (h : EngH) : (b.setEng n h).tally = b.tally := rfl
@[simp] theorem Block.setEng_otp (n : Nat) (h : EngH) : (b.setEng n h).otp = b.otp := rfl
@[simp] theorem Block.setEng_boot (n : Nat) (h : EngH) : (b.setEng n h).boot = b.boot := rfl
@[simp] theorem Block.setEng_wdn (n : Nat) (h : EngH) : (b.setEng n h).wdn = b.wdn := rfl
@[simp] theorem Block.setEng_sync (n : Nat) (h : EngH) : (b.setEng n h).sync = b.sync := rfl
@[simp] theorem Block.setEng_pbs (n : Nat) (h : EngH) : (b.setEng n h).pbs = b.pbs := rfl
@[simp] theorem Block.setEng_pbds (n : Nat) (h : EngH) : (b.setEng n h).pbds = b.pbds := rfl
@[simp] theorem Block.setEng_rxcs (n : Nat) (h : EngH) : (b.setEng n h).rxcs = b.rxcs := rfl
@[simp] theorem Block.setEng_txcs (n : Nat) (h : EngH) : (b.setEng n h).txcs = b.txcs := rfl
@[simp] theorem Block.setEng_sys (n : Nat) (h : EngH) : (b.setEng n h).sys = b.sys := rfl
@[simp] theorem Block.setEng_ccs (n : Nat) (h : EngH) : (b.setEng n h).ccs = b.ccs := rfl
@[simp] theorem Block.setEng_orxs (n : Nat) (h : EngH) : (b.setEng n h).orxs = b.orxs := rfl
@[simp] theorem Block.setEng_lanes (n : Nat) (h : EngH) : (b.setEng n h).lanes = b.lanes := rfl
@[simp] theorem Block.setEng_bank (n : Nat) (h : EngH) : (b.setEng n h).bank = b.bank := rfl
@[simp] theorem Block.setEng_loop (n : Nat) (h : EngH) : (b.setEng n h).loop = b.loop := rfl
@[simp] theorem Block.setEng_mcs (n : Nat) (h : EngH) : (b.setEng n h).mcs = b.mcs := rfl
@[simp] theorem Block.setEng_mcResets (n : Nat) (h : EngH) : (b.setEng n h).mcResets = b.mcResets := rfl
@[simp] theorem Block.setEng_ctxs (n : Nat) (h : EngH) : (b.setEng n h).ctxs = b.ctxs := rfl
@[simp] theorem Block.setEng_rings (n : Nat) (h : EngH) : (b.setEng n h).rings = b.rings := rfl
@[simp] theorem Block.setEng_dsp (n : Nat) (h : EngH) : (b.setEng n h).dsp = b.dsp := rfl
@[simp] theorem Block.setEng_hostOut (n : Nat) (h : EngH) : (b.setEng n h).hostOut = b.hostOut := rfl
@[simp] theorem Block.setEng_mon (n : Nat) (h : EngH) : (b.setEng n h).mon = b.mon := rfl
@[simp] theorem Block.setEng_power (n : Nat) (h : EngH) : (b.setEng n h).power = b.power := rfl
@[simp] theorem Block.setEng_kiln (n : Nat) (h : EngH) : (b.setEng n h).kiln = b.kiln := rfl
@[simp] theorem Block.setEng_hbm (n : Nat) (h : EngH) : (b.setEng n h).hbm = b.hbm := rfl
@[simp] theorem Block.setEng_cel (n : Nat) (h : EngH) : (b.setEng n h).cel = b.cel := rfl
@[simp] theorem Block.setEng_fhs (n : Nat) (h : EngH) : (b.setEng n h).fhs = b.fhs := rfl
@[simp] theorem Block.setEng_fhBeat (n : Nat) (h : EngH) : (b.setEng n h).fhBeat = b.fhBeat := rfl
@[simp] theorem Block.setEng_hds (n : Nat) (h : EngH) : (b.setEng n h).hds = b.hds := rfl
@[simp] theorem Block.setEng_hdOut (n : Nat) (h : EngH) : (b.setEng n h).hdOut = b.hdOut := rfl
@[simp] theorem Block.setEng_memOps (n : Nat) (h : EngH) : (b.setEng n h).memOps = b.memOps := rfl
@[simp] theorem Block.setEng_rdata (n : Nat) (h : EngH) : (b.setEng n h).rdata = b.rdata := rfl
@[simp] theorem Block.setEng_reg (n : Nat) (h : EngH) (uid o : Nat) : (b.setEng n h).reg uid o = b.reg uid o := rfl
@[simp] theorem Block.setEng_fld (n : Nat) (h : EngH) (uid : Nat) (fd : Fld) : (b.setEng n h).fld uid fd = b.fld uid fd := rfl
@[simp] theorem Block.setEng_flag (n : Nat) (h : EngH) (uid : Nat) (fd : Fld) : (b.setEng n h).flag uid fd = b.flag uid fd := rfl

/-! ### setRing -/
@[simp] theorem Block.setRing_time (r : Nat) (g : RingH) : (b.setRing r g).time = b.time := rfl
@[simp] theorem Block.setRing_regs (r : Nat) (g : RingH) : (b.setRing r g).regs = b.regs := rfl
@[simp] theorem Block.setRing_free (r : Nat) (g : RingH) : (b.setRing r g).free = b.free := rfl
@[simp] theorem Block.setRing_groups (r : Nat) (g : RingH) : (b.setRing r g).groups = b.groups := rfl
@[simp] theorem Block.setRing_edits (r : Nat) (g : RingH) : (b.setRing r g).edits = b.edits := rfl
@[simp] theorem Block.setRing_ramping (r : Nat) (g : RingH) : (b.setRing r g).ramping = b.ramping := rfl
@[simp] theorem Block.setRing_testing (r : Nat) (g : RingH) : (b.setRing r g).testing = b.testing := rfl
@[simp] theorem Block.setRing_host (r : Nat) (g : RingH) : (b.setRing r g).host = b.host := rfl
@[simp] theorem Block.setRing_root (r : Nat) (g : RingH) : (b.setRing r g).root = b.root := rfl
@[simp] theorem Block.setRing_flt (r : Nat) (g : RingH) : (b.setRing r g).flt = b.flt := rfl
@[simp] theorem Block.setRing_recd (r : Nat) (g : RingH) : (b.setRing r g).recd = b.recd := rfl
@[simp] theorem Block.setRing_tally (r : Nat) (g : RingH) : (b.setRing r g).tally = b.tally := rfl
@[simp] theorem Block.setRing_otp (r : Nat) (g : RingH) : (b.setRing r g).otp = b.otp := rfl
@[simp] theorem Block.setRing_boot (r : Nat) (g : RingH) : (b.setRing r g).boot = b.boot := rfl
@[simp] theorem Block.setRing_wdn (r : Nat) (g : RingH) : (b.setRing r g).wdn = b.wdn := rfl
@[simp] theorem Block.setRing_sync (r : Nat) (g : RingH) : (b.setRing r g).sync = b.sync := rfl
@[simp] theorem Block.setRing_pbs (r : Nat) (g : RingH) : (b.setRing r g).pbs = b.pbs := rfl
@[simp] theorem Block.setRing_pbds (r : Nat) (g : RingH) : (b.setRing r g).pbds = b.pbds := rfl
@[simp] theorem Block.setRing_rxcs (r : Nat) (g : RingH) : (b.setRing r g).rxcs = b.rxcs := rfl
@[simp] theorem Block.setRing_txcs (r : Nat) (g : RingH) : (b.setRing r g).txcs = b.txcs := rfl
@[simp] theorem Block.setRing_sys (r : Nat) (g : RingH) : (b.setRing r g).sys = b.sys := rfl
@[simp] theorem Block.setRing_ccs (r : Nat) (g : RingH) : (b.setRing r g).ccs = b.ccs := rfl
@[simp] theorem Block.setRing_orxs (r : Nat) (g : RingH) : (b.setRing r g).orxs = b.orxs := rfl
@[simp] theorem Block.setRing_lanes (r : Nat) (g : RingH) : (b.setRing r g).lanes = b.lanes := rfl
@[simp] theorem Block.setRing_bank (r : Nat) (g : RingH) : (b.setRing r g).bank = b.bank := rfl
@[simp] theorem Block.setRing_loop (r : Nat) (g : RingH) : (b.setRing r g).loop = b.loop := rfl
@[simp] theorem Block.setRing_mcs (r : Nat) (g : RingH) : (b.setRing r g).mcs = b.mcs := rfl
@[simp] theorem Block.setRing_mcResets (r : Nat) (g : RingH) : (b.setRing r g).mcResets = b.mcResets := rfl
@[simp] theorem Block.setRing_engs (r : Nat) (g : RingH) : (b.setRing r g).engs = b.engs := rfl
@[simp] theorem Block.setRing_ctxs (r : Nat) (g : RingH) : (b.setRing r g).ctxs = b.ctxs := rfl
@[simp] theorem Block.setRing_dsp (r : Nat) (g : RingH) : (b.setRing r g).dsp = b.dsp := rfl
@[simp] theorem Block.setRing_hostOut (r : Nat) (g : RingH) : (b.setRing r g).hostOut = b.hostOut := rfl
@[simp] theorem Block.setRing_mon (r : Nat) (g : RingH) : (b.setRing r g).mon = b.mon := rfl
@[simp] theorem Block.setRing_power (r : Nat) (g : RingH) : (b.setRing r g).power = b.power := rfl
@[simp] theorem Block.setRing_kiln (r : Nat) (g : RingH) : (b.setRing r g).kiln = b.kiln := rfl
@[simp] theorem Block.setRing_hbm (r : Nat) (g : RingH) : (b.setRing r g).hbm = b.hbm := rfl
@[simp] theorem Block.setRing_cel (r : Nat) (g : RingH) : (b.setRing r g).cel = b.cel := rfl
@[simp] theorem Block.setRing_fhs (r : Nat) (g : RingH) : (b.setRing r g).fhs = b.fhs := rfl
@[simp] theorem Block.setRing_fhBeat (r : Nat) (g : RingH) : (b.setRing r g).fhBeat = b.fhBeat := rfl
@[simp] theorem Block.setRing_hds (r : Nat) (g : RingH) : (b.setRing r g).hds = b.hds := rfl
@[simp] theorem Block.setRing_hdOut (r : Nat) (g : RingH) : (b.setRing r g).hdOut = b.hdOut := rfl
@[simp] theorem Block.setRing_memOps (r : Nat) (g : RingH) : (b.setRing r g).memOps = b.memOps := rfl
@[simp] theorem Block.setRing_rdata (r : Nat) (g : RingH) : (b.setRing r g).rdata = b.rdata := rfl
@[simp] theorem Block.setRing_reg (r : Nat) (g : RingH) (uid o : Nat) : (b.setRing r g).reg uid o = b.reg uid o := rfl
@[simp] theorem Block.setRing_fld (r : Nat) (g : RingH) (uid : Nat) (fd : Fld) : (b.setRing r g).fld uid fd = b.fld uid fd := rfl
@[simp] theorem Block.setRing_flag (r : Nat) (g : RingH) (uid : Nat) (fd : Fld) : (b.setRing r g).flag uid fd = b.flag uid fd := rfl

/-! ### setHost -/
@[simp] theorem Block.setHost_time (f : HostH → HostH) : (b.setHost f).time = b.time := rfl
@[simp] theorem Block.setHost_regs (f : HostH → HostH) : (b.setHost f).regs = b.regs := rfl
@[simp] theorem Block.setHost_free (f : HostH → HostH) : (b.setHost f).free = b.free := rfl
@[simp] theorem Block.setHost_groups (f : HostH → HostH) : (b.setHost f).groups = b.groups := rfl
@[simp] theorem Block.setHost_edits (f : HostH → HostH) : (b.setHost f).edits = b.edits := rfl
@[simp] theorem Block.setHost_ramping (f : HostH → HostH) : (b.setHost f).ramping = b.ramping := rfl
@[simp] theorem Block.setHost_testing (f : HostH → HostH) : (b.setHost f).testing = b.testing := rfl
@[simp] theorem Block.setHost_root (f : HostH → HostH) : (b.setHost f).root = b.root := rfl
@[simp] theorem Block.setHost_flt (f : HostH → HostH) : (b.setHost f).flt = b.flt := rfl
@[simp] theorem Block.setHost_recd (f : HostH → HostH) : (b.setHost f).recd = b.recd := rfl
@[simp] theorem Block.setHost_tally (f : HostH → HostH) : (b.setHost f).tally = b.tally := rfl
@[simp] theorem Block.setHost_otp (f : HostH → HostH) : (b.setHost f).otp = b.otp := rfl
@[simp] theorem Block.setHost_boot (f : HostH → HostH) : (b.setHost f).boot = b.boot := rfl
@[simp] theorem Block.setHost_wdn (f : HostH → HostH) : (b.setHost f).wdn = b.wdn := rfl
@[simp] theorem Block.setHost_sync (f : HostH → HostH) : (b.setHost f).sync = b.sync := rfl
@[simp] theorem Block.setHost_pbs (f : HostH → HostH) : (b.setHost f).pbs = b.pbs := rfl
@[simp] theorem Block.setHost_pbds (f : HostH → HostH) : (b.setHost f).pbds = b.pbds := rfl
@[simp] theorem Block.setHost_rxcs (f : HostH → HostH) : (b.setHost f).rxcs = b.rxcs := rfl
@[simp] theorem Block.setHost_txcs (f : HostH → HostH) : (b.setHost f).txcs = b.txcs := rfl
@[simp] theorem Block.setHost_sys (f : HostH → HostH) : (b.setHost f).sys = b.sys := rfl
@[simp] theorem Block.setHost_ccs (f : HostH → HostH) : (b.setHost f).ccs = b.ccs := rfl
@[simp] theorem Block.setHost_orxs (f : HostH → HostH) : (b.setHost f).orxs = b.orxs := rfl
@[simp] theorem Block.setHost_lanes (f : HostH → HostH) : (b.setHost f).lanes = b.lanes := rfl
@[simp] theorem Block.setHost_bank (f : HostH → HostH) : (b.setHost f).bank = b.bank := rfl
@[simp] theorem Block.setHost_loop (f : HostH → HostH) : (b.setHost f).loop = b.loop := rfl
@[simp] theorem Block.setHost_mcs (f : HostH → HostH) : (b.setHost f).mcs = b.mcs := rfl
@[simp] theorem Block.setHost_mcResets (f : HostH → HostH) : (b.setHost f).mcResets = b.mcResets := rfl
@[simp] theorem Block.setHost_engs (f : HostH → HostH) : (b.setHost f).engs = b.engs := rfl
@[simp] theorem Block.setHost_ctxs (f : HostH → HostH) : (b.setHost f).ctxs = b.ctxs := rfl
@[simp] theorem Block.setHost_rings (f : HostH → HostH) : (b.setHost f).rings = b.rings := rfl
@[simp] theorem Block.setHost_dsp (f : HostH → HostH) : (b.setHost f).dsp = b.dsp := rfl
@[simp] theorem Block.setHost_hostOut (f : HostH → HostH) : (b.setHost f).hostOut = b.hostOut := rfl
@[simp] theorem Block.setHost_mon (f : HostH → HostH) : (b.setHost f).mon = b.mon := rfl
@[simp] theorem Block.setHost_power (f : HostH → HostH) : (b.setHost f).power = b.power := rfl
@[simp] theorem Block.setHost_kiln (f : HostH → HostH) : (b.setHost f).kiln = b.kiln := rfl
@[simp] theorem Block.setHost_hbm (f : HostH → HostH) : (b.setHost f).hbm = b.hbm := rfl
@[simp] theorem Block.setHost_cel (f : HostH → HostH) : (b.setHost f).cel = b.cel := rfl
@[simp] theorem Block.setHost_fhs (f : HostH → HostH) : (b.setHost f).fhs = b.fhs := rfl
@[simp] theorem Block.setHost_fhBeat (f : HostH → HostH) : (b.setHost f).fhBeat = b.fhBeat := rfl
@[simp] theorem Block.setHost_hds (f : HostH → HostH) : (b.setHost f).hds = b.hds := rfl
@[simp] theorem Block.setHost_hdOut (f : HostH → HostH) : (b.setHost f).hdOut = b.hdOut := rfl
@[simp] theorem Block.setHost_memOps (f : HostH → HostH) : (b.setHost f).memOps = b.memOps := rfl
@[simp] theorem Block.setHost_rdata (f : HostH → HostH) : (b.setHost f).rdata = b.rdata := rfl
@[simp] theorem Block.setHost_reg (f : HostH → HostH) (uid o : Nat) : (b.setHost f).reg uid o = b.reg uid o := rfl
@[simp] theorem Block.setHost_fld (f : HostH → HostH) (uid : Nat) (fd : Fld) : (b.setHost f).fld uid fd = b.fld uid fd := rfl
@[simp] theorem Block.setHost_flag (f : HostH → HostH) (uid : Nat) (fd : Fld) : (b.setHost f).flag uid fd = b.flag uid fd := rfl

/-! ### setWdn -/
@[simp] theorem Block.setWdn_time (f : WdnH → WdnH) : (b.setWdn f).time = b.time := rfl
@[simp] theorem Block.setWdn_regs (f : WdnH → WdnH) : (b.setWdn f).regs = b.regs := rfl
@[simp] theorem Block.setWdn_free (f : WdnH → WdnH) : (b.setWdn f).free = b.free := rfl
@[simp] theorem Block.setWdn_groups (f : WdnH → WdnH) : (b.setWdn f).groups = b.groups := rfl
@[simp] theorem Block.setWdn_edits (f : WdnH → WdnH) : (b.setWdn f).edits = b.edits := rfl
@[simp] theorem Block.setWdn_ramping (f : WdnH → WdnH) : (b.setWdn f).ramping = b.ramping := rfl
@[simp] theorem Block.setWdn_testing (f : WdnH → WdnH) : (b.setWdn f).testing = b.testing := rfl
@[simp] theorem Block.setWdn_host (f : WdnH → WdnH) : (b.setWdn f).host = b.host := rfl
@[simp] theorem Block.setWdn_root (f : WdnH → WdnH) : (b.setWdn f).root = b.root := rfl
@[simp] theorem Block.setWdn_flt (f : WdnH → WdnH) : (b.setWdn f).flt = b.flt := rfl
@[simp] theorem Block.setWdn_recd (f : WdnH → WdnH) : (b.setWdn f).recd = b.recd := rfl
@[simp] theorem Block.setWdn_tally (f : WdnH → WdnH) : (b.setWdn f).tally = b.tally := rfl
@[simp] theorem Block.setWdn_otp (f : WdnH → WdnH) : (b.setWdn f).otp = b.otp := rfl
@[simp] theorem Block.setWdn_boot (f : WdnH → WdnH) : (b.setWdn f).boot = b.boot := rfl
@[simp] theorem Block.setWdn_sync (f : WdnH → WdnH) : (b.setWdn f).sync = b.sync := rfl
@[simp] theorem Block.setWdn_pbs (f : WdnH → WdnH) : (b.setWdn f).pbs = b.pbs := rfl
@[simp] theorem Block.setWdn_pbds (f : WdnH → WdnH) : (b.setWdn f).pbds = b.pbds := rfl
@[simp] theorem Block.setWdn_rxcs (f : WdnH → WdnH) : (b.setWdn f).rxcs = b.rxcs := rfl
@[simp] theorem Block.setWdn_txcs (f : WdnH → WdnH) : (b.setWdn f).txcs = b.txcs := rfl
@[simp] theorem Block.setWdn_sys (f : WdnH → WdnH) : (b.setWdn f).sys = b.sys := rfl
@[simp] theorem Block.setWdn_ccs (f : WdnH → WdnH) : (b.setWdn f).ccs = b.ccs := rfl
@[simp] theorem Block.setWdn_orxs (f : WdnH → WdnH) : (b.setWdn f).orxs = b.orxs := rfl
@[simp] theorem Block.setWdn_lanes (f : WdnH → WdnH) : (b.setWdn f).lanes = b.lanes := rfl
@[simp] theorem Block.setWdn_bank (f : WdnH → WdnH) : (b.setWdn f).bank = b.bank := rfl
@[simp] theorem Block.setWdn_loop (f : WdnH → WdnH) : (b.setWdn f).loop = b.loop := rfl
@[simp] theorem Block.setWdn_mcs (f : WdnH → WdnH) : (b.setWdn f).mcs = b.mcs := rfl
@[simp] theorem Block.setWdn_mcResets (f : WdnH → WdnH) : (b.setWdn f).mcResets = b.mcResets := rfl
@[simp] theorem Block.setWdn_engs (f : WdnH → WdnH) : (b.setWdn f).engs = b.engs := rfl
@[simp] theorem Block.setWdn_ctxs (f : WdnH → WdnH) : (b.setWdn f).ctxs = b.ctxs := rfl
@[simp] theorem Block.setWdn_rings (f : WdnH → WdnH) : (b.setWdn f).rings = b.rings := rfl
@[simp] theorem Block.setWdn_dsp (f : WdnH → WdnH) : (b.setWdn f).dsp = b.dsp := rfl
@[simp] theorem Block.setWdn_hostOut (f : WdnH → WdnH) : (b.setWdn f).hostOut = b.hostOut := rfl
@[simp] theorem Block.setWdn_mon (f : WdnH → WdnH) : (b.setWdn f).mon = b.mon := rfl
@[simp] theorem Block.setWdn_power (f : WdnH → WdnH) : (b.setWdn f).power = b.power := rfl
@[simp] theorem Block.setWdn_kiln (f : WdnH → WdnH) : (b.setWdn f).kiln = b.kiln := rfl
@[simp] theorem Block.setWdn_hbm (f : WdnH → WdnH) : (b.setWdn f).hbm = b.hbm := rfl
@[simp] theorem Block.setWdn_cel (f : WdnH → WdnH) : (b.setWdn f).cel = b.cel := rfl
@[simp] theorem Block.setWdn_fhs (f : WdnH → WdnH) : (b.setWdn f).fhs = b.fhs := rfl
@[simp] theorem Block.setWdn_fhBeat (f : WdnH → WdnH) : (b.setWdn f).fhBeat = b.fhBeat := rfl
@[simp] theorem Block.setWdn_hds (f : WdnH → WdnH) : (b.setWdn f).hds = b.hds := rfl
@[simp] theorem Block.setWdn_hdOut (f : WdnH → WdnH) : (b.setWdn f).hdOut = b.hdOut := rfl
@[simp] theorem Block.setWdn_memOps (f : WdnH → WdnH) : (b.setWdn f).memOps = b.memOps := rfl
@[simp] theorem Block.setWdn_rdata (f : WdnH → WdnH) : (b.setWdn f).rdata = b.rdata := rfl
@[simp] theorem Block.setWdn_reg (f : WdnH → WdnH) (uid o : Nat) : (b.setWdn f).reg uid o = b.reg uid o := rfl
@[simp] theorem Block.setWdn_fld (f : WdnH → WdnH) (uid : Nat) (fd : Fld) : (b.setWdn f).fld uid fd = b.fld uid fd := rfl
@[simp] theorem Block.setWdn_flag (f : WdnH → WdnH) (uid : Nat) (fd : Fld) : (b.setWdn f).flag uid fd = b.flag uid fd := rfl

/-! ### setOtp -/
@[simp] theorem Block.setOtp_time (f : OtpH → OtpH) : (b.setOtp f).time = b.time := rfl
@[simp] theorem Block.setOtp_regs (f : OtpH → OtpH) : (b.setOtp f).regs = b.regs := rfl
@[simp] theorem Block.setOtp_free (f : OtpH → OtpH) : (b.setOtp f).free = b.free := rfl
@[simp] theorem Block.setOtp_groups (f : OtpH → OtpH) : (b.setOtp f).groups = b.groups := rfl
@[simp] theorem Block.setOtp_edits (f : OtpH → OtpH) : (b.setOtp f).edits = b.edits := rfl
@[simp] theorem Block.setOtp_ramping (f : OtpH → OtpH) : (b.setOtp f).ramping = b.ramping := rfl
@[simp] theorem Block.setOtp_testing (f : OtpH → OtpH) : (b.setOtp f).testing = b.testing := rfl
@[simp] theorem Block.setOtp_host (f : OtpH → OtpH) : (b.setOtp f).host = b.host := rfl
@[simp] theorem Block.setOtp_root (f : OtpH → OtpH) : (b.setOtp f).root = b.root := rfl
@[simp] theorem Block.setOtp_flt (f : OtpH → OtpH) : (b.setOtp f).flt = b.flt := rfl
@[simp] theorem Block.setOtp_recd (f : OtpH → OtpH) : (b.setOtp f).recd = b.recd := rfl
@[simp] theorem Block.setOtp_tally (f : OtpH → OtpH) : (b.setOtp f).tally = b.tally := rfl
@[simp] theorem Block.setOtp_boot (f : OtpH → OtpH) : (b.setOtp f).boot = b.boot := rfl
@[simp] theorem Block.setOtp_wdn (f : OtpH → OtpH) : (b.setOtp f).wdn = b.wdn := rfl
@[simp] theorem Block.setOtp_sync (f : OtpH → OtpH) : (b.setOtp f).sync = b.sync := rfl
@[simp] theorem Block.setOtp_pbs (f : OtpH → OtpH) : (b.setOtp f).pbs = b.pbs := rfl
@[simp] theorem Block.setOtp_pbds (f : OtpH → OtpH) : (b.setOtp f).pbds = b.pbds := rfl
@[simp] theorem Block.setOtp_rxcs (f : OtpH → OtpH) : (b.setOtp f).rxcs = b.rxcs := rfl
@[simp] theorem Block.setOtp_txcs (f : OtpH → OtpH) : (b.setOtp f).txcs = b.txcs := rfl
@[simp] theorem Block.setOtp_sys (f : OtpH → OtpH) : (b.setOtp f).sys = b.sys := rfl
@[simp] theorem Block.setOtp_ccs (f : OtpH → OtpH) : (b.setOtp f).ccs = b.ccs := rfl
@[simp] theorem Block.setOtp_orxs (f : OtpH → OtpH) : (b.setOtp f).orxs = b.orxs := rfl
@[simp] theorem Block.setOtp_lanes (f : OtpH → OtpH) : (b.setOtp f).lanes = b.lanes := rfl
@[simp] theorem Block.setOtp_bank (f : OtpH → OtpH) : (b.setOtp f).bank = b.bank := rfl
@[simp] theorem Block.setOtp_loop (f : OtpH → OtpH) : (b.setOtp f).loop = b.loop := rfl
@[simp] theorem Block.setOtp_mcs (f : OtpH → OtpH) : (b.setOtp f).mcs = b.mcs := rfl
@[simp] theorem Block.setOtp_mcResets (f : OtpH → OtpH) : (b.setOtp f).mcResets = b.mcResets := rfl
@[simp] theorem Block.setOtp_engs (f : OtpH → OtpH) : (b.setOtp f).engs = b.engs := rfl
@[simp] theorem Block.setOtp_ctxs (f : OtpH → OtpH) : (b.setOtp f).ctxs = b.ctxs := rfl
@[simp] theorem Block.setOtp_rings (f : OtpH → OtpH) : (b.setOtp f).rings = b.rings := rfl
@[simp] theorem Block.setOtp_dsp (f : OtpH → OtpH) : (b.setOtp f).dsp = b.dsp := rfl
@[simp] theorem Block.setOtp_hostOut (f : OtpH → OtpH) : (b.setOtp f).hostOut = b.hostOut := rfl
@[simp] theorem Block.setOtp_mon (f : OtpH → OtpH) : (b.setOtp f).mon = b.mon := rfl
@[simp] theorem Block.setOtp_power (f : OtpH → OtpH) : (b.setOtp f).power = b.power := rfl
@[simp] theorem Block.setOtp_kiln (f : OtpH → OtpH) : (b.setOtp f).kiln = b.kiln := rfl
@[simp] theorem Block.setOtp_hbm (f : OtpH → OtpH) : (b.setOtp f).hbm = b.hbm := rfl
@[simp] theorem Block.setOtp_cel (f : OtpH → OtpH) : (b.setOtp f).cel = b.cel := rfl
@[simp] theorem Block.setOtp_fhs (f : OtpH → OtpH) : (b.setOtp f).fhs = b.fhs := rfl
@[simp] theorem Block.setOtp_fhBeat (f : OtpH → OtpH) : (b.setOtp f).fhBeat = b.fhBeat := rfl
@[simp] theorem Block.setOtp_hds (f : OtpH → OtpH) : (b.setOtp f).hds = b.hds := rfl
@[simp] theorem Block.setOtp_hdOut (f : OtpH → OtpH) : (b.setOtp f).hdOut = b.hdOut := rfl
@[simp] theorem Block.setOtp_memOps (f : OtpH → OtpH) : (b.setOtp f).memOps = b.memOps := rfl
@[simp] theorem Block.setOtp_rdata (f : OtpH → OtpH) : (b.setOtp f).rdata = b.rdata := rfl
@[simp] theorem Block.setOtp_reg (f : OtpH → OtpH) (uid o : Nat) : (b.setOtp f).reg uid o = b.reg uid o := rfl
@[simp] theorem Block.setOtp_fld (f : OtpH → OtpH) (uid : Nat) (fd : Fld) : (b.setOtp f).fld uid fd = b.fld uid fd := rfl
@[simp] theorem Block.setOtp_flag (f : OtpH → OtpH) (uid : Nat) (fd : Fld) : (b.setOtp f).flag uid fd = b.flag uid fd := rfl

/-! ### setBoot -/
@[simp] theorem Block.setBoot_time (f : BootH → BootH) : (b.setBoot f).time = b.time := rfl
@[simp] theorem Block.setBoot_regs (f : BootH → BootH) : (b.setBoot f).regs = b.regs := rfl
@[simp] theorem Block.setBoot_free (f : BootH → BootH) : (b.setBoot f).free = b.free := rfl
@[simp] theorem Block.setBoot_groups (f : BootH → BootH) : (b.setBoot f).groups = b.groups := rfl
@[simp] theorem Block.setBoot_edits (f : BootH → BootH) : (b.setBoot f).edits = b.edits := rfl
@[simp] theorem Block.setBoot_ramping (f : BootH → BootH) : (b.setBoot f).ramping = b.ramping := rfl
@[simp] theorem Block.setBoot_testing (f : BootH → BootH) : (b.setBoot f).testing = b.testing := rfl
@[simp] theorem Block.setBoot_host (f : BootH → BootH) : (b.setBoot f).host = b.host := rfl
@[simp] theorem Block.setBoot_root (f : BootH → BootH) : (b.setBoot f).root = b.root := rfl
@[simp] theorem Block.setBoot_flt (f : BootH → BootH) : (b.setBoot f).flt = b.flt := rfl
@[simp] theorem Block.setBoot_recd (f : BootH → BootH) : (b.setBoot f).recd = b.recd := rfl
@[simp] theorem Block.setBoot_tally (f : BootH → BootH) : (b.setBoot f).tally = b.tally := rfl
@[simp] theorem Block.setBoot_otp (f : BootH → BootH) : (b.setBoot f).otp = b.otp := rfl
@[simp] theorem Block.setBoot_wdn (f : BootH → BootH) : (b.setBoot f).wdn = b.wdn := rfl
@[simp] theorem Block.setBoot_sync (f : BootH → BootH) : (b.setBoot f).sync = b.sync := rfl
@[simp] theorem Block.setBoot_pbs (f : BootH → BootH) : (b.setBoot f).pbs = b.pbs := rfl
@[simp] theorem Block.setBoot_pbds (f : BootH → BootH) : (b.setBoot f).pbds = b.pbds := rfl
@[simp] theorem Block.setBoot_rxcs (f : BootH → BootH) : (b.setBoot f).rxcs = b.rxcs := rfl
@[simp] theorem Block.setBoot_txcs (f : BootH → BootH) : (b.setBoot f).txcs = b.txcs := rfl
@[simp] theorem Block.setBoot_sys (f : BootH → BootH) : (b.setBoot f).sys = b.sys := rfl
@[simp] theorem Block.setBoot_ccs (f : BootH → BootH) : (b.setBoot f).ccs = b.ccs := rfl
@[simp] theorem Block.setBoot_orxs (f : BootH → BootH) : (b.setBoot f).orxs = b.orxs := rfl
@[simp] theorem Block.setBoot_lanes (f : BootH → BootH) : (b.setBoot f).lanes = b.lanes := rfl
@[simp] theorem Block.setBoot_bank (f : BootH → BootH) : (b.setBoot f).bank = b.bank := rfl
@[simp] theorem Block.setBoot_loop (f : BootH → BootH) : (b.setBoot f).loop = b.loop := rfl
@[simp] theorem Block.setBoot_mcs (f : BootH → BootH) : (b.setBoot f).mcs = b.mcs := rfl
@[simp] theorem Block.setBoot_mcResets (f : BootH → BootH) : (b.setBoot f).mcResets = b.mcResets := rfl
@[simp] theorem Block.setBoot_engs (f : BootH → BootH) : (b.setBoot f).engs = b.engs := rfl
@[simp] theorem Block.setBoot_ctxs (f : BootH → BootH) : (b.setBoot f).ctxs = b.ctxs := rfl
@[simp] theorem Block.setBoot_rings (f : BootH → BootH) : (b.setBoot f).rings = b.rings := rfl
@[simp] theorem Block.setBoot_dsp (f : BootH → BootH) : (b.setBoot f).dsp = b.dsp := rfl
@[simp] theorem Block.setBoot_hostOut (f : BootH → BootH) : (b.setBoot f).hostOut = b.hostOut := rfl
@[simp] theorem Block.setBoot_mon (f : BootH → BootH) : (b.setBoot f).mon = b.mon := rfl
@[simp] theorem Block.setBoot_power (f : BootH → BootH) : (b.setBoot f).power = b.power := rfl
@[simp] theorem Block.setBoot_kiln (f : BootH → BootH) : (b.setBoot f).kiln = b.kiln := rfl
@[simp] theorem Block.setBoot_hbm (f : BootH → BootH) : (b.setBoot f).hbm = b.hbm := rfl
@[simp] theorem Block.setBoot_cel (f : BootH → BootH) : (b.setBoot f).cel = b.cel := rfl
@[simp] theorem Block.setBoot_fhs (f : BootH → BootH) : (b.setBoot f).fhs = b.fhs := rfl
@[simp] theorem Block.setBoot_fhBeat (f : BootH → BootH) : (b.setBoot f).fhBeat = b.fhBeat := rfl
@[simp] theorem Block.setBoot_hds (f : BootH → BootH) : (b.setBoot f).hds = b.hds := rfl
@[simp] theorem Block.setBoot_hdOut (f : BootH → BootH) : (b.setBoot f).hdOut = b.hdOut := rfl
@[simp] theorem Block.setBoot_memOps (f : BootH → BootH) : (b.setBoot f).memOps = b.memOps := rfl
@[simp] theorem Block.setBoot_rdata (f : BootH → BootH) : (b.setBoot f).rdata = b.rdata := rfl
@[simp] theorem Block.setBoot_reg (f : BootH → BootH) (uid o : Nat) : (b.setBoot f).reg uid o = b.reg uid o := rfl
@[simp] theorem Block.setBoot_fld (f : BootH → BootH) (uid : Nat) (fd : Fld) : (b.setBoot f).fld uid fd = b.fld uid fd := rfl
@[simp] theorem Block.setBoot_flag (f : BootH → BootH) (uid : Nat) (fd : Fld) : (b.setBoot f).flag uid fd = b.flag uid fd := rfl

/-! ### setTal -/
@[simp] theorem Block.setTal_time (f : TallyH → TallyH) : (b.setTal f).time = b.time := rfl
@[simp] theorem Block.setTal_regs (f : TallyH → TallyH) : (b.setTal f).regs = b.regs := rfl
@[simp] theorem Block.setTal_free (f : TallyH → TallyH) : (b.setTal f).free = b.free := rfl
@[simp] theorem Block.setTal_groups (f : TallyH → TallyH) : (b.setTal f).groups = b.groups := rfl
@[simp] theorem Block.setTal_edits (f : TallyH → TallyH) : (b.setTal f).edits = b.edits := rfl
@[simp] theorem Block.setTal_ramping (f : TallyH → TallyH) : (b.setTal f).ramping = b.ramping := rfl
@[simp] theorem Block.setTal_testing (f : TallyH → TallyH) : (b.setTal f).testing = b.testing := rfl
@[simp] theorem Block.setTal_host (f : TallyH → TallyH) : (b.setTal f).host = b.host := rfl
@[simp] theorem Block.setTal_root (f : TallyH → TallyH) : (b.setTal f).root = b.root := rfl
@[simp] theorem Block.setTal_flt (f : TallyH → TallyH) : (b.setTal f).flt = b.flt := rfl
@[simp] theorem Block.setTal_recd (f : TallyH → TallyH) : (b.setTal f).recd = b.recd := rfl
@[simp] theorem Block.setTal_otp (f : TallyH → TallyH) : (b.setTal f).otp = b.otp := rfl
@[simp] theorem Block.setTal_boot (f : TallyH → TallyH) : (b.setTal f).boot = b.boot := rfl
@[simp] theorem Block.setTal_wdn (f : TallyH → TallyH) : (b.setTal f).wdn = b.wdn := rfl
@[simp] theorem Block.setTal_sync (f : TallyH → TallyH) : (b.setTal f).sync = b.sync := rfl
@[simp] theorem Block.setTal_pbs (f : TallyH → TallyH) : (b.setTal f).pbs = b.pbs := rfl
@[simp] theorem Block.setTal_pbds (f : TallyH → TallyH) : (b.setTal f).pbds = b.pbds := rfl
@[simp] theorem Block.setTal_rxcs (f : TallyH → TallyH) : (b.setTal f).rxcs = b.rxcs := rfl
@[simp] theorem Block.setTal_txcs (f : TallyH → TallyH) : (b.setTal f).txcs = b.txcs := rfl
@[simp] theorem Block.setTal_sys (f : TallyH → TallyH) : (b.setTal f).sys = b.sys := rfl
@[simp] theorem Block.setTal_ccs (f : TallyH → TallyH) : (b.setTal f).ccs = b.ccs := rfl
@[simp] theorem Block.setTal_orxs (f : TallyH → TallyH) : (b.setTal f).orxs = b.orxs := rfl
@[simp] theorem Block.setTal_lanes (f : TallyH → TallyH) : (b.setTal f).lanes = b.lanes := rfl
@[simp] theorem Block.setTal_bank (f : TallyH → TallyH) : (b.setTal f).bank = b.bank := rfl
@[simp] theorem Block.setTal_loop (f : TallyH → TallyH) : (b.setTal f).loop = b.loop := rfl
@[simp] theorem Block.setTal_mcs (f : TallyH → TallyH) : (b.setTal f).mcs = b.mcs := rfl
@[simp] theorem Block.setTal_mcResets (f : TallyH → TallyH) : (b.setTal f).mcResets = b.mcResets := rfl
@[simp] theorem Block.setTal_engs (f : TallyH → TallyH) : (b.setTal f).engs = b.engs := rfl
@[simp] theorem Block.setTal_ctxs (f : TallyH → TallyH) : (b.setTal f).ctxs = b.ctxs := rfl
@[simp] theorem Block.setTal_rings (f : TallyH → TallyH) : (b.setTal f).rings = b.rings := rfl
@[simp] theorem Block.setTal_dsp (f : TallyH → TallyH) : (b.setTal f).dsp = b.dsp := rfl
@[simp] theorem Block.setTal_hostOut (f : TallyH → TallyH) : (b.setTal f).hostOut = b.hostOut := rfl
@[simp] theorem Block.setTal_mon (f : TallyH → TallyH) : (b.setTal f).mon = b.mon := rfl
@[simp] theorem Block.setTal_power (f : TallyH → TallyH) : (b.setTal f).power = b.power := rfl
@[simp] theorem Block.setTal_kiln (f : TallyH → TallyH) : (b.setTal f).kiln = b.kiln := rfl
@[simp] theorem Block.setTal_hbm (f : TallyH → TallyH) : (b.setTal f).hbm = b.hbm := rfl
@[simp] theorem Block.setTal_cel (f : TallyH → TallyH) : (b.setTal f).cel = b.cel := rfl
@[simp] theorem Block.setTal_fhs (f : TallyH → TallyH) : (b.setTal f).fhs = b.fhs := rfl
@[simp] theorem Block.setTal_fhBeat (f : TallyH → TallyH) : (b.setTal f).fhBeat = b.fhBeat := rfl
@[simp] theorem Block.setTal_hds (f : TallyH → TallyH) : (b.setTal f).hds = b.hds := rfl
@[simp] theorem Block.setTal_hdOut (f : TallyH → TallyH) : (b.setTal f).hdOut = b.hdOut := rfl
@[simp] theorem Block.setTal_memOps (f : TallyH → TallyH) : (b.setTal f).memOps = b.memOps := rfl
@[simp] theorem Block.setTal_rdata (f : TallyH → TallyH) : (b.setTal f).rdata = b.rdata := rfl
@[simp] theorem Block.setTal_reg (f : TallyH → TallyH) (uid o : Nat) : (b.setTal f).reg uid o = b.reg uid o := rfl
@[simp] theorem Block.setTal_fld (f : TallyH → TallyH) (uid : Nat) (fd : Fld) : (b.setTal f).fld uid fd = b.fld uid fd := rfl
@[simp] theorem Block.setTal_flag (f : TallyH → TallyH) (uid : Nat) (fd : Fld) : (b.setTal f).flag uid fd = b.flag uid fd := rfl

/-! ### setRec -/
@[simp] theorem Block.setRec_time (f : RecH → RecH) : (b.setRec f).time = b.time := rfl
@[simp] theorem Block.setRec_regs (f : RecH → RecH) : (b.setRec f).regs = b.regs := rfl
@[simp] theorem Block.setRec_free (f : RecH → RecH) : (b.setRec f).free = b.free := rfl
@[simp] theorem Block.setRec_groups (f : RecH → RecH) : (b.setRec f).groups = b.groups := rfl
@[simp] theorem Block.setRec_edits (f : RecH → RecH) : (b.setRec f).edits = b.edits := rfl
@[simp] theorem Block.setRec_ramping (f : RecH → RecH) : (b.setRec f).ramping = b.ramping := rfl
@[simp] theorem Block.setRec_testing (f : RecH → RecH) : (b.setRec f).testing = b.testing := rfl
@[simp] theorem Block.setRec_host (f : RecH → RecH) : (b.setRec f).host = b.host := rfl
@[simp] theorem Block.setRec_root (f : RecH → RecH) : (b.setRec f).root = b.root := rfl
@[simp] theorem Block.setRec_flt (f : RecH → RecH) : (b.setRec f).flt = b.flt := rfl
@[simp] theorem Block.setRec_tally (f : RecH → RecH) : (b.setRec f).tally = b.tally := rfl
@[simp] theorem Block.setRec_otp (f : RecH → RecH) : (b.setRec f).otp = b.otp := rfl
@[simp] theorem Block.setRec_boot (f : RecH → RecH) : (b.setRec f).boot = b.boot := rfl
@[simp] theorem Block.setRec_wdn (f : RecH → RecH) : (b.setRec f).wdn = b.wdn := rfl
@[simp] theorem Block.setRec_sync (f : RecH → RecH) : (b.setRec f).sync = b.sync := rfl
@[simp] theorem Block.setRec_pbs (f : RecH → RecH) : (b.setRec f).pbs = b.pbs := rfl
@[simp] theorem Block.setRec_pbds (f : RecH → RecH) : (b.setRec f).pbds = b.pbds := rfl
@[simp] theorem Block.setRec_rxcs (f : RecH → RecH) : (b.setRec f).rxcs = b.rxcs := rfl
@[simp] theorem Block.setRec_txcs (f : RecH → RecH) : (b.setRec f).txcs = b.txcs := rfl
@[simp] theorem Block.setRec_sys (f : RecH → RecH) : (b.setRec f).sys = b.sys := rfl
@[simp] theorem Block.setRec_ccs (f : RecH → RecH) : (b.setRec f).ccs = b.ccs := rfl
@[simp] theorem Block.setRec_orxs (f : RecH → RecH) : (b.setRec f).orxs = b.orxs := rfl
@[simp] theorem Block.setRec_lanes (f : RecH → RecH) : (b.setRec f).lanes = b.lanes := rfl
@[simp] theorem Block.setRec_bank (f : RecH → RecH) : (b.setRec f).bank = b.bank := rfl
@[simp] theorem Block.setRec_loop (f : RecH → RecH) : (b.setRec f).loop = b.loop := rfl
@[simp] theorem Block.setRec_mcs (f : RecH → RecH) : (b.setRec f).mcs = b.mcs := rfl
@[simp] theorem Block.setRec_mcResets (f : RecH → RecH) : (b.setRec f).mcResets = b.mcResets := rfl
@[simp] theorem Block.setRec_engs (f : RecH → RecH) : (b.setRec f).engs = b.engs := rfl
@[simp] theorem Block.setRec_ctxs (f : RecH → RecH) : (b.setRec f).ctxs = b.ctxs := rfl
@[simp] theorem Block.setRec_rings (f : RecH → RecH) : (b.setRec f).rings = b.rings := rfl
@[simp] theorem Block.setRec_dsp (f : RecH → RecH) : (b.setRec f).dsp = b.dsp := rfl
@[simp] theorem Block.setRec_hostOut (f : RecH → RecH) : (b.setRec f).hostOut = b.hostOut := rfl
@[simp] theorem Block.setRec_mon (f : RecH → RecH) : (b.setRec f).mon = b.mon := rfl
@[simp] theorem Block.setRec_power (f : RecH → RecH) : (b.setRec f).power = b.power := rfl
@[simp] theorem Block.setRec_kiln (f : RecH → RecH) : (b.setRec f).kiln = b.kiln := rfl
@[simp] theorem Block.setRec_hbm (f : RecH → RecH) : (b.setRec f).hbm = b.hbm := rfl
@[simp] theorem Block.setRec_cel (f : RecH → RecH) : (b.setRec f).cel = b.cel := rfl
@[simp] theorem Block.setRec_fhs (f : RecH → RecH) : (b.setRec f).fhs = b.fhs := rfl
@[simp] theorem Block.setRec_fhBeat (f : RecH → RecH) : (b.setRec f).fhBeat = b.fhBeat := rfl
@[simp] theorem Block.setRec_hds (f : RecH → RecH) : (b.setRec f).hds = b.hds := rfl
@[simp] theorem Block.setRec_hdOut (f : RecH → RecH) : (b.setRec f).hdOut = b.hdOut := rfl
@[simp] theorem Block.setRec_memOps (f : RecH → RecH) : (b.setRec f).memOps = b.memOps := rfl
@[simp] theorem Block.setRec_rdata (f : RecH → RecH) : (b.setRec f).rdata = b.rdata := rfl
@[simp] theorem Block.setRec_reg (f : RecH → RecH) (uid o : Nat) : (b.setRec f).reg uid o = b.reg uid o := rfl
@[simp] theorem Block.setRec_fld (f : RecH → RecH) (uid : Nat) (fd : Fld) : (b.setRec f).fld uid fd = b.fld uid fd := rfl
@[simp] theorem Block.setRec_flag (f : RecH → RecH) (uid : Nat) (fd : Fld) : (b.setRec f).flag uid fd = b.flag uid fd := rfl

/-! ### setMon -/
@[simp] theorem Block.setMon_time (f : MonH → MonH) : (b.setMon f).time = b.time := rfl
@[simp] theorem Block.setMon_regs (f : MonH → MonH) : (b.setMon f).regs = b.regs := rfl
@[simp] theorem Block.setMon_free (f : MonH → MonH) : (b.setMon f).free = b.free := rfl
@[simp] theorem Block.setMon_groups (f : MonH → MonH) : (b.setMon f).groups = b.groups := rfl
@[simp] theorem Block.setMon_edits (f : MonH → MonH) : (b.setMon f).edits = b.edits := rfl
@[simp] theorem Block.setMon_ramping (f : MonH → MonH) : (b.setMon f).ramping = b.ramping := rfl
@[simp] theorem Block.setMon_testing (f : MonH → MonH) : (b.setMon f).testing = b.testing := rfl
@[simp] theorem Block.setMon_host (f : MonH → MonH) : (b.setMon f).host = b.host := rfl
@[simp] theorem Block.setMon_root (f : MonH → MonH) : (b.setMon f).root = b.root := rfl
@[simp] theorem Block.setMon_flt (f : MonH → MonH) : (b.setMon f).flt = b.flt := rfl
@[simp] theorem Block.setMon_recd (f : MonH → MonH) : (b.setMon f).recd = b.recd := rfl
@[simp] theorem Block.setMon_tally (f : MonH → MonH) : (b.setMon f).tally = b.tally := rfl
@[simp] theorem Block.setMon_otp (f : MonH → MonH) : (b.setMon f).otp = b.otp := rfl
@[simp] theorem Block.setMon_boot (f : MonH → MonH) : (b.setMon f).boot = b.boot := rfl
@[simp] theorem Block.setMon_wdn (f : MonH → MonH) : (b.setMon f).wdn = b.wdn := rfl
@[simp] theorem Block.setMon_sync (f : MonH → MonH) : (b.setMon f).sync = b.sync := rfl
@[simp] theorem Block.setMon_pbs (f : MonH → MonH) : (b.setMon f).pbs = b.pbs := rfl
@[simp] theorem Block.setMon_pbds (f : MonH → MonH) : (b.setMon f).pbds = b.pbds := rfl
@[simp] theorem Block.setMon_rxcs (f : MonH → MonH) : (b.setMon f).rxcs = b.rxcs := rfl
@[simp] theorem Block.setMon_txcs (f : MonH → MonH) : (b.setMon f).txcs = b.txcs := rfl
@[simp] theorem Block.setMon_sys (f : MonH → MonH) : (b.setMon f).sys = b.sys := rfl
@[simp] theorem Block.setMon_ccs (f : MonH → MonH) : (b.setMon f).ccs = b.ccs := rfl
@[simp] theorem Block.setMon_orxs (f : MonH → MonH) : (b.setMon f).orxs = b.orxs := rfl
@[simp] theorem Block.setMon_lanes (f : MonH → MonH) : (b.setMon f).lanes = b.lanes := rfl
@[simp] theorem Block.setMon_bank (f : MonH → MonH) : (b.setMon f).bank = b.bank := rfl
@[simp] theorem Block.setMon_loop (f : MonH → MonH) : (b.setMon f).loop = b.loop := rfl
@[simp] theorem Block.setMon_mcs (f : MonH → MonH) : (b.setMon f).mcs = b.mcs := rfl
@[simp] theorem Block.setMon_mcResets (f : MonH → MonH) : (b.setMon f).mcResets = b.mcResets := rfl
@[simp] theorem Block.setMon_engs (f : MonH → MonH) : (b.setMon f).engs = b.engs := rfl
@[simp] theorem Block.setMon_ctxs (f : MonH → MonH) : (b.setMon f).ctxs = b.ctxs := rfl
@[simp] theorem Block.setMon_rings (f : MonH → MonH) : (b.setMon f).rings = b.rings := rfl
@[simp] theorem Block.setMon_dsp (f : MonH → MonH) : (b.setMon f).dsp = b.dsp := rfl
@[simp] theorem Block.setMon_hostOut (f : MonH → MonH) : (b.setMon f).hostOut = b.hostOut := rfl
@[simp] theorem Block.setMon_power (f : MonH → MonH) : (b.setMon f).power = b.power := rfl
@[simp] theorem Block.setMon_kiln (f : MonH → MonH) : (b.setMon f).kiln = b.kiln := rfl
@[simp] theorem Block.setMon_hbm (f : MonH → MonH) : (b.setMon f).hbm = b.hbm := rfl
@[simp] theorem Block.setMon_cel (f : MonH → MonH) : (b.setMon f).cel = b.cel := rfl
@[simp] theorem Block.setMon_fhs (f : MonH → MonH) : (b.setMon f).fhs = b.fhs := rfl
@[simp] theorem Block.setMon_fhBeat (f : MonH → MonH) : (b.setMon f).fhBeat = b.fhBeat := rfl
@[simp] theorem Block.setMon_hds (f : MonH → MonH) : (b.setMon f).hds = b.hds := rfl
@[simp] theorem Block.setMon_hdOut (f : MonH → MonH) : (b.setMon f).hdOut = b.hdOut := rfl
@[simp] theorem Block.setMon_memOps (f : MonH → MonH) : (b.setMon f).memOps = b.memOps := rfl
@[simp] theorem Block.setMon_rdata (f : MonH → MonH) : (b.setMon f).rdata = b.rdata := rfl
@[simp] theorem Block.setMon_reg (f : MonH → MonH) (uid o : Nat) : (b.setMon f).reg uid o = b.reg uid o := rfl
@[simp] theorem Block.setMon_fld (f : MonH → MonH) (uid : Nat) (fd : Fld) : (b.setMon f).fld uid fd = b.fld uid fd := rfl
@[simp] theorem Block.setMon_flag (f : MonH → MonH) (uid : Nat) (fd : Fld) : (b.setMon f).flag uid fd = b.flag uid fd := rfl

/-! ### setKiln -/
@[simp] theorem Block.setKiln_time (f : KilnH → KilnH) : (b.setKiln f).time = b.time := rfl
@[simp] theorem Block.setKiln_regs (f : KilnH → KilnH) : (b.setKiln f).regs = b.regs := rfl
@[simp] theorem Block.setKiln_free (f : KilnH → KilnH) : (b.setKiln f).free = b.free := rfl
@[simp] theorem Block.setKiln_groups (f : KilnH → KilnH) : (b.setKiln f).groups = b.groups := rfl
@[simp] theorem Block.setKiln_edits (f : KilnH → KilnH) : (b.setKiln f).edits = b.edits := rfl
@[simp] theorem Block.setKiln_ramping (f : KilnH → KilnH) : (b.setKiln f).ramping = b.ramping := rfl
@[simp] theorem Block.setKiln_testing (f : KilnH → KilnH) : (b.setKiln f).testing = b.testing := rfl
@[simp] theorem Block.setKiln_host (f : KilnH → KilnH) : (b.setKiln f).host = b.host := rfl
@[simp] theorem Block.setKiln_root (f : KilnH → KilnH) : (b.setKiln f).root = b.root := rfl
@[simp] theorem Block.setKiln_flt (f : KilnH → KilnH) : (b.setKiln f).flt = b.flt := rfl
@[simp] theorem Block.setKiln_recd (f : KilnH → KilnH) : (b.setKiln f).recd = b.recd := rfl
@[simp] theorem Block.setKiln_tally (f : KilnH → KilnH) : (b.setKiln f).tally = b.tally := rfl
@[simp] theorem Block.setKiln_otp (f : KilnH → KilnH) : (b.setKiln f).otp = b.otp := rfl
@[simp] theorem Block.setKiln_boot (f : KilnH → KilnH) : (b.setKiln f).boot = b.boot := rfl
@[simp] theorem Block.setKiln_wdn (f : KilnH → KilnH) : (b.setKiln f).wdn = b.wdn := rfl
@[simp] theorem Block.setKiln_sync (f : KilnH → KilnH) : (b.setKiln f).sync = b.sync := rfl
@[simp] theorem Block.setKiln_pbs (f : KilnH → KilnH) : (b.setKiln f).pbs = b.pbs := rfl
@[simp] theorem Block.setKiln_pbds (f : KilnH → KilnH) : (b.setKiln f).pbds = b.pbds := rfl
@[simp] theorem Block.setKiln_rxcs (f : KilnH → KilnH) : (b.setKiln f).rxcs = b.rxcs := rfl
@[simp] theorem Block.setKiln_txcs (f : KilnH → KilnH) : (b.setKiln f).txcs = b.txcs := rfl
@[simp] theorem Block.setKiln_sys (f : KilnH → KilnH) : (b.setKiln f).sys = b.sys := rfl
@[simp] theorem Block.setKiln_ccs (f : KilnH → KilnH) : (b.setKiln f).ccs = b.ccs := rfl
@[simp] theorem Block.setKiln_orxs (f : KilnH → KilnH) : (b.setKiln f).orxs = b.orxs := rfl
@[simp] theorem Block.setKiln_lanes (f : KilnH → KilnH) : (b.setKiln f).lanes = b.lanes := rfl
@[simp] theorem Block.setKiln_bank (f : KilnH → KilnH) : (b.setKiln f).bank = b.bank := rfl
@[simp] theorem Block.setKiln_loop (f : KilnH → KilnH) : (b.setKiln f).loop = b.loop := rfl
@[simp] theorem Block.setKiln_mcs (f : KilnH → KilnH) : (b.setKiln f).mcs = b.mcs := rfl
@[simp] theorem Block.setKiln_mcResets (f : KilnH → KilnH) : (b.setKiln f).mcResets = b.mcResets := rfl
@[simp] theorem Block.setKiln_engs (f : KilnH → KilnH) : (b.setKiln f).engs = b.engs := rfl
@[simp] theorem Block.setKiln_ctxs (f : KilnH → KilnH) : (b.setKiln f).ctxs = b.ctxs := rfl
@[simp] theorem Block.setKiln_rings (f : KilnH → KilnH) : (b.setKiln f).rings = b.rings := rfl
@[simp] theorem Block.setKiln_dsp (f : KilnH → KilnH) : (b.setKiln f).dsp = b.dsp := rfl
@[simp] theorem Block.setKiln_hostOut (f : KilnH → KilnH) : (b.setKiln f).hostOut = b.hostOut := rfl
@[simp] theorem Block.setKiln_mon (f : KilnH → KilnH) : (b.setKiln f).mon = b.mon := rfl
@[simp] theorem Block.setKiln_power (f : KilnH → KilnH) : (b.setKiln f).power = b.power := rfl
@[simp] theorem Block.setKiln_hbm (f : KilnH → KilnH) : (b.setKiln f).hbm = b.hbm := rfl
@[simp] theorem Block.setKiln_cel (f : KilnH → KilnH) : (b.setKiln f).cel = b.cel := rfl
@[simp] theorem Block.setKiln_fhs (f : KilnH → KilnH) : (b.setKiln f).fhs = b.fhs := rfl
@[simp] theorem Block.setKiln_fhBeat (f : KilnH → KilnH) : (b.setKiln f).fhBeat = b.fhBeat := rfl
@[simp] theorem Block.setKiln_hds (f : KilnH → KilnH) : (b.setKiln f).hds = b.hds := rfl
@[simp] theorem Block.setKiln_hdOut (f : KilnH → KilnH) : (b.setKiln f).hdOut = b.hdOut := rfl
@[simp] theorem Block.setKiln_memOps (f : KilnH → KilnH) : (b.setKiln f).memOps = b.memOps := rfl
@[simp] theorem Block.setKiln_rdata (f : KilnH → KilnH) : (b.setKiln f).rdata = b.rdata := rfl
@[simp] theorem Block.setKiln_reg (f : KilnH → KilnH) (uid o : Nat) : (b.setKiln f).reg uid o = b.reg uid o := rfl
@[simp] theorem Block.setKiln_fld (f : KilnH → KilnH) (uid : Nat) (fd : Fld) : (b.setKiln f).fld uid fd = b.fld uid fd := rfl
@[simp] theorem Block.setKiln_flag (f : KilnH → KilnH) (uid : Nat) (fd : Fld) : (b.setKiln f).flag uid fd = b.flag uid fd := rfl

/-! ### syn -/
@[simp] theorem Block.syn_time (f : SyncH → SyncH) : (b.syn f).time = b.time := rfl
@[simp] theorem Block.syn_regs (f : SyncH → SyncH) : (b.syn f).regs = b.regs := rfl
@[simp] theorem Block.syn_free (f : SyncH → SyncH) : (b.syn f).free = b.free := rfl
@[simp] theorem Block.syn_groups (f : SyncH → SyncH) : (b.syn f).groups = b.groups := rfl
@[simp] theorem Block.syn_edits (f : SyncH → SyncH) : (b.syn f).edits = b.edits := rfl
@[simp] theorem Block.syn_ramping (f : SyncH → SyncH) : (b.syn f).ramping = b.ramping := rfl
@[simp] theorem Block.syn_testing (f : SyncH → SyncH) : (b.syn f).testing = b.testing := rfl
@[simp] theorem Block.syn_host (f : SyncH → SyncH) : (b.syn f).host = b.host := rfl
@[simp] theorem Block.syn_root (f : SyncH → SyncH) : (b.syn f).root = b.root := rfl
@[simp] theorem Block.syn_flt (f : SyncH → SyncH) : (b.syn f).flt = b.flt := rfl
@[simp] theorem Block.syn_recd (f : SyncH → SyncH) : (b.syn f).recd = b.recd := rfl
@[simp] theorem Block.syn_tally (f : SyncH → SyncH) : (b.syn f).tally = b.tally := rfl
@[simp] theorem Block.syn_otp (f : SyncH → SyncH) : (b.syn f).otp = b.otp := rfl
@[simp] theorem Block.syn_boot (f : SyncH → SyncH) : (b.syn f).boot = b.boot := rfl
@[simp] theorem Block.syn_wdn (f : SyncH → SyncH) : (b.syn f).wdn = b.wdn := rfl
@[simp] theorem Block.syn_pbs (f : SyncH → SyncH) : (b.syn f).pbs = b.pbs := rfl
@[simp] theorem Block.syn_pbds (f : SyncH → SyncH) : (b.syn f).pbds = b.pbds := rfl
@[simp] theorem Block.syn_rxcs (f : SyncH → SyncH) : (b.syn f).rxcs = b.rxcs := rfl
@[simp] theorem Block.syn_txcs (f : SyncH → SyncH) : (b.syn f).txcs = b.txcs := rfl
@[simp] theorem Block.syn_sys (f : SyncH → SyncH) : (b.syn f).sys = b.sys := rfl
@[simp] theorem Block.syn_ccs (f : SyncH → SyncH) : (b.syn f).ccs = b.ccs := rfl
@[simp] theorem Block.syn_orxs (f : SyncH → SyncH) : (b.syn f).orxs = b.orxs := rfl
@[simp] theorem Block.syn_lanes (f : SyncH → SyncH) : (b.syn f).lanes = b.lanes := rfl
@[simp] theorem Block.syn_bank (f : SyncH → SyncH) : (b.syn f).bank = b.bank := rfl
@[simp] theorem Block.syn_loop (f : SyncH → SyncH) : (b.syn f).loop = b.loop := rfl
@[simp] theorem Block.syn_mcs (f : SyncH → SyncH) : (b.syn f).mcs = b.mcs := rfl
@[simp] theorem Block.syn_mcResets (f : SyncH → SyncH) : (b.syn f).mcResets = b.mcResets := rfl
@[simp] theorem Block.syn_engs (f : SyncH → SyncH) : (b.syn f).engs = b.engs := rfl
@[simp] theorem Block.syn_ctxs (f : SyncH → SyncH) : (b.syn f).ctxs = b.ctxs := rfl
@[simp] theorem Block.syn_rings (f : SyncH → SyncH) : (b.syn f).rings = b.rings := rfl
@[simp] theorem Block.syn_dsp (f : SyncH → SyncH) : (b.syn f).dsp = b.dsp := rfl
@[simp] theorem Block.syn_hostOut (f : SyncH → SyncH) : (b.syn f).hostOut = b.hostOut := rfl
@[simp] theorem Block.syn_mon (f : SyncH → SyncH) : (b.syn f).mon = b.mon := rfl
@[simp] theorem Block.syn_power (f : SyncH → SyncH) : (b.syn f).power = b.power := rfl
@[simp] theorem Block.syn_kiln (f : SyncH → SyncH) : (b.syn f).kiln = b.kiln := rfl
@[simp] theorem Block.syn_hbm (f : SyncH → SyncH) : (b.syn f).hbm = b.hbm := rfl
@[simp] theorem Block.syn_cel (f : SyncH → SyncH) : (b.syn f).cel = b.cel := rfl
@[simp] theorem Block.syn_fhs (f : SyncH → SyncH) : (b.syn f).fhs = b.fhs := rfl
@[simp] theorem Block.syn_fhBeat (f : SyncH → SyncH) : (b.syn f).fhBeat = b.fhBeat := rfl
@[simp] theorem Block.syn_hds (f : SyncH → SyncH) : (b.syn f).hds = b.hds := rfl
@[simp] theorem Block.syn_hdOut (f : SyncH → SyncH) : (b.syn f).hdOut = b.hdOut := rfl
@[simp] theorem Block.syn_memOps (f : SyncH → SyncH) : (b.syn f).memOps = b.memOps := rfl
@[simp] theorem Block.syn_rdata (f : SyncH → SyncH) : (b.syn f).rdata = b.rdata := rfl
@[simp] theorem Block.syn_reg (f : SyncH → SyncH) (uid o : Nat) : (b.syn f).reg uid o = b.reg uid o := rfl
@[simp] theorem Block.syn_fld (f : SyncH → SyncH) (uid : Nat) (fd : Fld) : (b.syn f).fld uid fd = b.fld uid fd := rfl
@[simp] theorem Block.syn_flag (f : SyncH → SyncH) (uid : Nat) (fd : Fld) : (b.syn f).flag uid fd = b.flag uid fd := rfl

/-! ### setLaneH -/
@[simp] theorem Block.setLaneH_time (i : Nat) (h : LaneH) : (b.setLaneH i h).time = b.time := rfl
@[simp] theorem Block.setLaneH_regs (i : Nat) (h : LaneH) : (b.setLaneH i h).regs = b.regs := rfl
@[simp] theorem Block.setLaneH_free (i : Nat) (h : LaneH) : (b.setLaneH i h).free = b.free := rfl
@[simp] theorem Block.setLaneH_groups (i : Nat) (h : LaneH) : (b.setLaneH i h).groups = b.groups := rfl
@[simp] theorem Block.setLaneH_edits (i : Nat) (h : LaneH) : (b.setLaneH i h).edits = b.edits := rfl
@[simp] theorem Block.setLaneH_ramping (i : Nat) (h : LaneH) : (b.setLaneH i h).ramping = b.ramping := rfl
@[simp] theorem Block.setLaneH_testing (i : Nat) (h : LaneH) : (b.setLaneH i h).testing = b.testing := rfl
@[simp] theorem Block.setLaneH_host (i : Nat) (h : LaneH) : (b.setLaneH i h).host = b.host := rfl
@[simp] theorem Block.setLaneH_root (i : Nat) (h : LaneH) : (b.setLaneH i h).root = b.root := rfl
@[simp] theorem Block.setLaneH_flt (i : Nat) (h : LaneH) : (b.setLaneH i h).flt = b.flt := rfl
@[simp] theorem Block.setLaneH_recd (i : Nat) (h : LaneH) : (b.setLaneH i h).recd = b.recd := rfl
@[simp] theorem Block.setLaneH_tally (i : Nat) (h : LaneH) : (b.setLaneH i h).tally = b.tally := rfl
@[simp] theorem Block.setLaneH_otp (i : Nat) (h : LaneH) : (b.setLaneH i h).otp = b.otp := rfl
@[simp] theorem Block.setLaneH_boot (i : Nat) (h : LaneH) : (b.setLaneH i h).boot = b.boot := rfl
@[simp] theorem Block.setLaneH_wdn (i : Nat) (h : LaneH) : (b.setLaneH i h).wdn = b.wdn := rfl
@[simp] theorem Block.setLaneH_sync (i : Nat) (h : LaneH) : (b.setLaneH i h).sync = b.sync := rfl
@[simp] theorem Block.setLaneH_pbs (i : Nat) (h : LaneH) : (b.setLaneH i h).pbs = b.pbs := rfl
@[simp] theorem Block.setLaneH_pbds (i : Nat) (h : LaneH) : (b.setLaneH i h).pbds = b.pbds := rfl
@[simp] theorem Block.setLaneH_rxcs (i : Nat) (h : LaneH) : (b.setLaneH i h).rxcs = b.rxcs := rfl
@[simp] theorem Block.setLaneH_txcs (i : Nat) (h : LaneH) : (b.setLaneH i h).txcs = b.txcs := rfl
@[simp] theorem Block.setLaneH_sys (i : Nat) (h : LaneH) : (b.setLaneH i h).sys = b.sys := rfl
@[simp] theorem Block.setLaneH_ccs (i : Nat) (h : LaneH) : (b.setLaneH i h).ccs = b.ccs := rfl
@[simp] theorem Block.setLaneH_orxs (i : Nat) (h : LaneH) : (b.setLaneH i h).orxs = b.orxs := rfl
@[simp] theorem Block.setLaneH_bank (i : Nat) (h : LaneH) : (b.setLaneH i h).bank = b.bank := rfl
@[simp] theorem Block.setLaneH_loop (i : Nat) (h : LaneH) : (b.setLaneH i h).loop = b.loop := rfl
@[simp] theorem Block.setLaneH_mcs (i : Nat) (h : LaneH) : (b.setLaneH i h).mcs = b.mcs := rfl
@[simp] theorem Block.setLaneH_mcResets (i : Nat) (h : LaneH) : (b.setLaneH i h).mcResets = b.mcResets := rfl
@[simp] theorem Block.setLaneH_engs (i : Nat) (h : LaneH) : (b.setLaneH i h).engs = b.engs := rfl
@[simp] theorem Block.setLaneH_ctxs (i : Nat) (h : LaneH) : (b.setLaneH i h).ctxs = b.ctxs := rfl
@[simp] theorem Block.setLaneH_rings (i : Nat) (h : LaneH) : (b.setLaneH i h).rings = b.rings := rfl
@[simp] theorem Block.setLaneH_dsp (i : Nat) (h : LaneH) : (b.setLaneH i h).dsp = b.dsp := rfl
@[simp] theorem Block.setLaneH_hostOut (i : Nat) (h : LaneH) : (b.setLaneH i h).hostOut = b.hostOut := rfl
@[simp] theorem Block.setLaneH_mon (i : Nat) (h : LaneH) : (b.setLaneH i h).mon = b.mon := rfl
@[simp] theorem Block.setLaneH_power (i : Nat) (h : LaneH) : (b.setLaneH i h).power = b.power := rfl
@[simp] theorem Block.setLaneH_kiln (i : Nat) (h : LaneH) : (b.setLaneH i h).kiln = b.kiln := rfl
@[simp] theorem Block.setLaneH_hbm (i : Nat) (h : LaneH) : (b.setLaneH i h).hbm = b.hbm := rfl
@[simp] theorem Block.setLaneH_cel (i : Nat) (h : LaneH) : (b.setLaneH i h).cel = b.cel := rfl
@[simp] theorem Block.setLaneH_fhs (i : Nat) (h : LaneH) : (b.setLaneH i h).fhs = b.fhs := rfl
@[simp] theorem Block.setLaneH_fhBeat (i : Nat) (h : LaneH) : (b.setLaneH i h).fhBeat = b.fhBeat := rfl
@[simp] theorem Block.setLaneH_hds (i : Nat) (h : LaneH) : (b.setLaneH i h).hds = b.hds := rfl
@[simp] theorem Block.setLaneH_hdOut (i : Nat) (h : LaneH) : (b.setLaneH i h).hdOut = b.hdOut := rfl
@[simp] theorem Block.setLaneH_memOps (i : Nat) (h : LaneH) : (b.setLaneH i h).memOps = b.memOps := rfl
@[simp] theorem Block.setLaneH_rdata (i : Nat) (h : LaneH) : (b.setLaneH i h).rdata = b.rdata := rfl
@[simp] theorem Block.setLaneH_reg (i : Nat) (h : LaneH) (uid o : Nat) : (b.setLaneH i h).reg uid o = b.reg uid o := rfl
@[simp] theorem Block.setLaneH_fld (i : Nat) (h : LaneH) (uid : Nat) (fd : Fld) : (b.setLaneH i h).fld uid fd = b.fld uid fd := rfl
@[simp] theorem Block.setLaneH_flag (i : Nat) (h : LaneH) (uid : Nat) (fd : Fld) : (b.setLaneH i h).flag uid fd = b.flag uid fd := rfl

/-! ### setMcH -/
@[simp] theorem Block.setMcH_time (i : Nat) (h : McH) : (b.setMcH i h).time = b.time := rfl
@[simp] theorem Block.setMcH_regs (i : Nat) (h : McH) : (b.setMcH i h).regs = b.regs := rfl
@[simp] theorem Block.setMcH_free (i : Nat) (h : McH) : (b.setMcH i h).free = b.free := rfl
@[simp] theorem Block.setMcH_groups (i : Nat) (h : McH) : (b.setMcH i h).groups = b.groups := rfl
@[simp] theorem Block.setMcH_edits (i : Nat) (h : McH) : (b.setMcH i h).edits = b.edits := rfl
@[simp] theorem Block.setMcH_ramping (i : Nat) (h : McH) : (b.setMcH i h).ramping = b.ramping := rfl
@[simp] theorem Block.setMcH_testing (i : Nat) (h : McH) : (b.setMcH i h).testing = b.testing := rfl
@[simp] theorem Block.setMcH_host (i : Nat) (h : McH) : (b.setMcH i h).host = b.host := rfl
@[simp] theorem Block.setMcH_root (i : Nat) (h : McH) : (b.setMcH i h).root = b.root := rfl
@[simp] theorem Block.setMcH_flt (i : Nat) (h : McH) : (b.setMcH i h).flt = b.flt := rfl
@[simp] theorem Block.setMcH_recd (i : Nat) (h : McH) : (b.setMcH i h).recd = b.recd := rfl
@[simp] theorem Block.setMcH_tally (i : Nat) (h : McH) : (b.setMcH i h).tally = b.tally := rfl
@[simp] theorem Block.setMcH_otp (i : Nat) (h : McH) : (b.setMcH i h).otp = b.otp := rfl
@[simp] theorem Block.setMcH_boot (i : Nat) (h : McH) : (b.setMcH i h).boot = b.boot := rfl
@[simp] theorem Block.setMcH_wdn (i : Nat) (h : McH) : (b.setMcH i h).wdn = b.wdn := rfl
@[simp] theorem Block.setMcH_sync (i : Nat) (h : McH) : (b.setMcH i h).sync = b.sync := rfl
@[simp] theorem Block.setMcH_pbs (i : Nat) (h : McH) : (b.setMcH i h).pbs = b.pbs := rfl
@[simp] theorem Block.setMcH_pbds (i : Nat) (h : McH) : (b.setMcH i h).pbds = b.pbds := rfl
@[simp] theorem Block.setMcH_rxcs (i : Nat) (h : McH) : (b.setMcH i h).rxcs = b.rxcs := rfl
@[simp] theorem Block.setMcH_txcs (i : Nat) (h : McH) : (b.setMcH i h).txcs = b.txcs := rfl
@[simp] theorem Block.setMcH_sys (i : Nat) (h : McH) : (b.setMcH i h).sys = b.sys := rfl
@[simp] theorem Block.setMcH_ccs (i : Nat) (h : McH) : (b.setMcH i h).ccs = b.ccs := rfl
@[simp] theorem Block.setMcH_orxs (i : Nat) (h : McH) : (b.setMcH i h).orxs = b.orxs := rfl
@[simp] theorem Block.setMcH_lanes (i : Nat) (h : McH) : (b.setMcH i h).lanes = b.lanes := rfl
@[simp] theorem Block.setMcH_bank (i : Nat) (h : McH) : (b.setMcH i h).bank = b.bank := rfl
@[simp] theorem Block.setMcH_loop (i : Nat) (h : McH) : (b.setMcH i h).loop = b.loop := rfl
@[simp] theorem Block.setMcH_mcResets (i : Nat) (h : McH) : (b.setMcH i h).mcResets = b.mcResets := rfl
@[simp] theorem Block.setMcH_engs (i : Nat) (h : McH) : (b.setMcH i h).engs = b.engs := rfl
@[simp] theorem Block.setMcH_ctxs (i : Nat) (h : McH) : (b.setMcH i h).ctxs = b.ctxs := rfl
@[simp] theorem Block.setMcH_rings (i : Nat) (h : McH) : (b.setMcH i h).rings = b.rings := rfl
@[simp] theorem Block.setMcH_dsp (i : Nat) (h : McH) : (b.setMcH i h).dsp = b.dsp := rfl
@[simp] theorem Block.setMcH_hostOut (i : Nat) (h : McH) : (b.setMcH i h).hostOut = b.hostOut := rfl
@[simp] theorem Block.setMcH_mon (i : Nat) (h : McH) : (b.setMcH i h).mon = b.mon := rfl
@[simp] theorem Block.setMcH_power (i : Nat) (h : McH) : (b.setMcH i h).power = b.power := rfl
@[simp] theorem Block.setMcH_kiln (i : Nat) (h : McH) : (b.setMcH i h).kiln = b.kiln := rfl
@[simp] theorem Block.setMcH_hbm (i : Nat) (h : McH) : (b.setMcH i h).hbm = b.hbm := rfl
@[simp] theorem Block.setMcH_cel (i : Nat) (h : McH) : (b.setMcH i h).cel = b.cel := rfl
@[simp] theorem Block.setMcH_fhs (i : Nat) (h : McH) : (b.setMcH i h).fhs = b.fhs := rfl
@[simp] theorem Block.setMcH_fhBeat (i : Nat) (h : McH) : (b.setMcH i h).fhBeat = b.fhBeat := rfl
@[simp] theorem Block.setMcH_hds (i : Nat) (h : McH) : (b.setMcH i h).hds = b.hds := rfl
@[simp] theorem Block.setMcH_hdOut (i : Nat) (h : McH) : (b.setMcH i h).hdOut = b.hdOut := rfl
@[simp] theorem Block.setMcH_memOps (i : Nat) (h : McH) : (b.setMcH i h).memOps = b.memOps := rfl
@[simp] theorem Block.setMcH_rdata (i : Nat) (h : McH) : (b.setMcH i h).rdata = b.rdata := rfl
@[simp] theorem Block.setMcH_reg (i : Nat) (h : McH) (uid o : Nat) : (b.setMcH i h).reg uid o = b.reg uid o := rfl
@[simp] theorem Block.setMcH_fld (i : Nat) (h : McH) (uid : Nat) (fd : Fld) : (b.setMcH i h).fld uid fd = b.fld uid fd := rfl
@[simp] theorem Block.setMcH_flag (i : Nat) (h : McH) (uid : Nat) (fd : Fld) : (b.setMcH i h).flag uid fd = b.flag uid fd := rfl

/-! ### setPbH -/
@[simp] theorem Block.setPbH_time (i : Nat) (h : PbH) : (b.setPbH i h).time = b.time := rfl
@[simp] theorem Block.setPbH_regs (i : Nat) (h : PbH) : (b.setPbH i h).regs = b.regs := rfl
@[simp] theorem Block.setPbH_free (i : Nat) (h : PbH) : (b.setPbH i h).free = b.free := rfl
@[simp] theorem Block.setPbH_groups (i : Nat) (h : PbH) : (b.setPbH i h).groups = b.groups := rfl
@[simp] theorem Block.setPbH_edits (i : Nat) (h : PbH) : (b.setPbH i h).edits = b.edits := rfl
@[simp] theorem Block.setPbH_ramping (i : Nat) (h : PbH) : (b.setPbH i h).ramping = b.ramping := rfl
@[simp] theorem Block.setPbH_testing (i : Nat) (h : PbH) : (b.setPbH i h).testing = b.testing := rfl
@[simp] theorem Block.setPbH_host (i : Nat) (h : PbH) : (b.setPbH i h).host = b.host := rfl
@[simp] theorem Block.setPbH_root (i : Nat) (h : PbH) : (b.setPbH i h).root = b.root := rfl
@[simp] theorem Block.setPbH_flt (i : Nat) (h : PbH) : (b.setPbH i h).flt = b.flt := rfl
@[simp] theorem Block.setPbH_recd (i : Nat) (h : PbH) : (b.setPbH i h).recd = b.recd := rfl
@[simp] theorem Block.setPbH_tally (i : Nat) (h : PbH) : (b.setPbH i h).tally = b.tally := rfl
@[simp] theorem Block.setPbH_otp (i : Nat) (h : PbH) : (b.setPbH i h).otp = b.otp := rfl
@[simp] theorem Block.setPbH_boot (i : Nat) (h : PbH) : (b.setPbH i h).boot = b.boot := rfl
@[simp] theorem Block.setPbH_wdn (i : Nat) (h : PbH) : (b.setPbH i h).wdn = b.wdn := rfl
@[simp] theorem Block.setPbH_sync (i : Nat) (h : PbH) : (b.setPbH i h).sync = b.sync := rfl
@[simp] theorem Block.setPbH_pbds (i : Nat) (h : PbH) : (b.setPbH i h).pbds = b.pbds := rfl
@[simp] theorem Block.setPbH_rxcs (i : Nat) (h : PbH) : (b.setPbH i h).rxcs = b.rxcs := rfl
@[simp] theorem Block.setPbH_txcs (i : Nat) (h : PbH) : (b.setPbH i h).txcs = b.txcs := rfl
@[simp] theorem Block.setPbH_sys (i : Nat) (h : PbH) : (b.setPbH i h).sys = b.sys := rfl
@[simp] theorem Block.setPbH_ccs (i : Nat) (h : PbH) : (b.setPbH i h).ccs = b.ccs := rfl
@[simp] theorem Block.setPbH_orxs (i : Nat) (h : PbH) : (b.setPbH i h).orxs = b.orxs := rfl
@[simp] theorem Block.setPbH_lanes (i : Nat) (h : PbH) : (b.setPbH i h).lanes = b.lanes := rfl
@[simp] theorem Block.setPbH_bank (i : Nat) (h : PbH) : (b.setPbH i h).bank = b.bank := rfl
@[simp] theorem Block.setPbH_loop (i : Nat) (h : PbH) : (b.setPbH i h).loop = b.loop := rfl
@[simp] theorem Block.setPbH_mcs (i : Nat) (h : PbH) : (b.setPbH i h).mcs = b.mcs := rfl
@[simp] theorem Block.setPbH_mcResets (i : Nat) (h : PbH) : (b.setPbH i h).mcResets = b.mcResets := rfl
@[simp] theorem Block.setPbH_engs (i : Nat) (h : PbH) : (b.setPbH i h).engs = b.engs := rfl
@[simp] theorem Block.setPbH_ctxs (i : Nat) (h : PbH) : (b.setPbH i h).ctxs = b.ctxs := rfl
@[simp] theorem Block.setPbH_rings (i : Nat) (h : PbH) : (b.setPbH i h).rings = b.rings := rfl
@[simp] theorem Block.setPbH_dsp (i : Nat) (h : PbH) : (b.setPbH i h).dsp = b.dsp := rfl
@[simp] theorem Block.setPbH_hostOut (i : Nat) (h : PbH) : (b.setPbH i h).hostOut = b.hostOut := rfl
@[simp] theorem Block.setPbH_mon (i : Nat) (h : PbH) : (b.setPbH i h).mon = b.mon := rfl
@[simp] theorem Block.setPbH_power (i : Nat) (h : PbH) : (b.setPbH i h).power = b.power := rfl
@[simp] theorem Block.setPbH_kiln (i : Nat) (h : PbH) : (b.setPbH i h).kiln = b.kiln := rfl
@[simp] theorem Block.setPbH_hbm (i : Nat) (h : PbH) : (b.setPbH i h).hbm = b.hbm := rfl
@[simp] theorem Block.setPbH_cel (i : Nat) (h : PbH) : (b.setPbH i h).cel = b.cel := rfl
@[simp] theorem Block.setPbH_fhs (i : Nat) (h : PbH) : (b.setPbH i h).fhs = b.fhs := rfl
@[simp] theorem Block.setPbH_fhBeat (i : Nat) (h : PbH) : (b.setPbH i h).fhBeat = b.fhBeat := rfl
@[simp] theorem Block.setPbH_hds (i : Nat) (h : PbH) : (b.setPbH i h).hds = b.hds := rfl
@[simp] theorem Block.setPbH_hdOut (i : Nat) (h : PbH) : (b.setPbH i h).hdOut = b.hdOut := rfl
@[simp] theorem Block.setPbH_memOps (i : Nat) (h : PbH) : (b.setPbH i h).memOps = b.memOps := rfl
@[simp] theorem Block.setPbH_rdata (i : Nat) (h : PbH) : (b.setPbH i h).rdata = b.rdata := rfl
@[simp] theorem Block.setPbH_reg (i : Nat) (h : PbH) (uid o : Nat) : (b.setPbH i h).reg uid o = b.reg uid o := rfl
@[simp] theorem Block.setPbH_fld (i : Nat) (h : PbH) (uid : Nat) (fd : Fld) : (b.setPbH i h).fld uid fd = b.fld uid fd := rfl
@[simp] theorem Block.setPbH_flag (i : Nat) (h : PbH) (uid : Nat) (fd : Fld) : (b.setPbH i h).flag uid fd = b.flag uid fd := rfl

/-! ### setPbdH -/
@[simp] theorem Block.setPbdH_time (i : Nat) (h : PbdH) : (b.setPbdH i h).time = b.time := rfl
@[simp] theorem Block.setPbdH_regs (i : Nat) (h : PbdH) : (b.setPbdH i h).regs = b.regs := rfl
@[simp] theorem Block.setPbdH_free (i : Nat) (h : PbdH) : (b.setPbdH i h).free = b.free := rfl
@[simp] theorem Block.setPbdH_groups (i : Nat) (h : PbdH) : (b.setPbdH i h).groups = b.groups := rfl
@[simp] theorem Block.setPbdH_edits (i : Nat) (h : PbdH) : (b.setPbdH i h).edits = b.edits := rfl
@[simp] theorem Block.setPbdH_ramping (i : Nat) (h : PbdH) : (b.setPbdH i h).ramping = b.ramping := rfl
@[simp] theorem Block.setPbdH_testing (i : Nat) (h : PbdH) : (b.setPbdH i h).testing = b.testing := rfl
@[simp] theorem Block.setPbdH_host (i : Nat) (h : PbdH) : (b.setPbdH i h).host = b.host := rfl
@[simp] theorem Block.setPbdH_root (i : Nat) (h : PbdH) : (b.setPbdH i h).root = b.root := rfl
@[simp] theorem Block.setPbdH_flt (i : Nat) (h : PbdH) : (b.setPbdH i h).flt = b.flt := rfl
@[simp] theorem Block.setPbdH_recd (i : Nat) (h : PbdH) : (b.setPbdH i h).recd = b.recd := rfl
@[simp] theorem Block.setPbdH_tally (i : Nat) (h : PbdH) : (b.setPbdH i h).tally = b.tally := rfl
@[simp] theorem Block.setPbdH_otp (i : Nat) (h : PbdH) : (b.setPbdH i h).otp = b.otp := rfl
@[simp] theorem Block.setPbdH_boot (i : Nat) (h : PbdH) : (b.setPbdH i h).boot = b.boot := rfl
@[simp] theorem Block.setPbdH_wdn (i : Nat) (h : PbdH) : (b.setPbdH i h).wdn = b.wdn := rfl
@[simp] theorem Block.setPbdH_sync (i : Nat) (h : PbdH) : (b.setPbdH i h).sync = b.sync := rfl
@[simp] theorem Block.setPbdH_pbs (i : Nat) (h : PbdH) : (b.setPbdH i h).pbs = b.pbs := rfl
@[simp] theorem Block.setPbdH_rxcs (i : Nat) (h : PbdH) : (b.setPbdH i h).rxcs = b.rxcs := rfl
@[simp] theorem Block.setPbdH_txcs (i : Nat) (h : PbdH) : (b.setPbdH i h).txcs = b.txcs := rfl
@[simp] theorem Block.setPbdH_sys (i : Nat) (h : PbdH) : (b.setPbdH i h).sys = b.sys := rfl
@[simp] theorem Block.setPbdH_ccs (i : Nat) (h : PbdH) : (b.setPbdH i h).ccs = b.ccs := rfl
@[simp] theorem Block.setPbdH_orxs (i : Nat) (h : PbdH) : (b.setPbdH i h).orxs = b.orxs := rfl
@[simp] theorem Block.setPbdH_lanes (i : Nat) (h : PbdH) : (b.setPbdH i h).lanes = b.lanes := rfl
@[simp] theorem Block.setPbdH_bank (i : Nat) (h : PbdH) : (b.setPbdH i h).bank = b.bank := rfl
@[simp] theorem Block.setPbdH_loop (i : Nat) (h : PbdH) : (b.setPbdH i h).loop = b.loop := rfl
@[simp] theorem Block.setPbdH_mcs (i : Nat) (h : PbdH) : (b.setPbdH i h).mcs = b.mcs := rfl
@[simp] theorem Block.setPbdH_mcResets (i : Nat) (h : PbdH) : (b.setPbdH i h).mcResets = b.mcResets := rfl
@[simp] theorem Block.setPbdH_engs (i : Nat) (h : PbdH) : (b.setPbdH i h).engs = b.engs := rfl
@[simp] theorem Block.setPbdH_ctxs (i : Nat) (h : PbdH) : (b.setPbdH i h).ctxs = b.ctxs := rfl
@[simp] theorem Block.setPbdH_rings (i : Nat) (h : PbdH) : (b.setPbdH i h).rings = b.rings := rfl
@[simp] theorem Block.setPbdH_dsp (i : Nat) (h : PbdH) : (b.setPbdH i h).dsp = b.dsp := rfl
@[simp] theorem Block.setPbdH_hostOut (i : Nat) (h : PbdH) : (b.setPbdH i h).hostOut = b.hostOut := rfl
@[simp] theorem Block.setPbdH_mon (i : Nat) (h : PbdH) : (b.setPbdH i h).mon = b.mon := rfl
@[simp] theorem Block.setPbdH_power (i : Nat) (h : PbdH) : (b.setPbdH i h).power = b.power := rfl
@[simp] theorem Block.setPbdH_kiln (i : Nat) (h : PbdH) : (b.setPbdH i h).kiln = b.kiln := rfl
@[simp] theorem Block.setPbdH_hbm (i : Nat) (h : PbdH) : (b.setPbdH i h).hbm = b.hbm := rfl
@[simp] theorem Block.setPbdH_cel (i : Nat) (h : PbdH) : (b.setPbdH i h).cel = b.cel := rfl
@[simp] theorem Block.setPbdH_fhs (i : Nat) (h : PbdH) : (b.setPbdH i h).fhs = b.fhs := rfl
@[simp] theorem Block.setPbdH_fhBeat (i : Nat) (h : PbdH) : (b.setPbdH i h).fhBeat = b.fhBeat := rfl
@[simp] theorem Block.setPbdH_hds (i : Nat) (h : PbdH) : (b.setPbdH i h).hds = b.hds := rfl
@[simp] theorem Block.setPbdH_hdOut (i : Nat) (h : PbdH) : (b.setPbdH i h).hdOut = b.hdOut := rfl
@[simp] theorem Block.setPbdH_memOps (i : Nat) (h : PbdH) : (b.setPbdH i h).memOps = b.memOps := rfl
@[simp] theorem Block.setPbdH_rdata (i : Nat) (h : PbdH) : (b.setPbdH i h).rdata = b.rdata := rfl
@[simp] theorem Block.setPbdH_reg (i : Nat) (h : PbdH) (uid o : Nat) : (b.setPbdH i h).reg uid o = b.reg uid o := rfl
@[simp] theorem Block.setPbdH_fld (i : Nat) (h : PbdH) (uid : Nat) (fd : Fld) : (b.setPbdH i h).fld uid fd = b.fld uid fd := rfl
@[simp] theorem Block.setPbdH_flag (i : Nat) (h : PbdH) (uid : Nat) (fd : Fld) : (b.setPbdH i h).flag uid fd = b.flag uid fd := rfl

/-! ### setRxcH -/
@[simp] theorem Block.setRxcH_time (i : Nat) (h : RxcH) : (b.setRxcH i h).time = b.time := rfl
@[simp] theorem Block.setRxcH_regs (i : Nat) (h : RxcH) : (b.setRxcH i h).regs = b.regs := rfl
@[simp] theorem Block.setRxcH_free (i : Nat) (h : RxcH) : (b.setRxcH i h).free = b.free := rfl
@[simp] theorem Block.setRxcH_groups (i : Nat) (h : RxcH) : (b.setRxcH i h).groups = b.groups := rfl
@[simp] theorem Block.setRxcH_edits (i : Nat) (h : RxcH) : (b.setRxcH i h).edits = b.edits := rfl
@[simp] theorem Block.setRxcH_ramping (i : Nat) (h : RxcH) : (b.setRxcH i h).ramping = b.ramping := rfl
@[simp] theorem Block.setRxcH_testing (i : Nat) (h : RxcH) : (b.setRxcH i h).testing = b.testing := rfl
@[simp] theorem Block.setRxcH_host (i : Nat) (h : RxcH) : (b.setRxcH i h).host = b.host := rfl
@[simp] theorem Block.setRxcH_root (i : Nat) (h : RxcH) : (b.setRxcH i h).root = b.root := rfl
@[simp] theorem Block.setRxcH_flt (i : Nat) (h : RxcH) : (b.setRxcH i h).flt = b.flt := rfl
@[simp] theorem Block.setRxcH_recd (i : Nat) (h : RxcH) : (b.setRxcH i h).recd = b.recd := rfl
@[simp] theorem Block.setRxcH_tally (i : Nat) (h : RxcH) : (b.setRxcH i h).tally = b.tally := rfl
@[simp] theorem Block.setRxcH_otp (i : Nat) (h : RxcH) : (b.setRxcH i h).otp = b.otp := rfl
@[simp] theorem Block.setRxcH_boot (i : Nat) (h : RxcH) : (b.setRxcH i h).boot = b.boot := rfl
@[simp] theorem Block.setRxcH_wdn (i : Nat) (h : RxcH) : (b.setRxcH i h).wdn = b.wdn := rfl
@[simp] theorem Block.setRxcH_sync (i : Nat) (h : RxcH) : (b.setRxcH i h).sync = b.sync := rfl
@[simp] theorem Block.setRxcH_pbs (i : Nat) (h : RxcH) : (b.setRxcH i h).pbs = b.pbs := rfl
@[simp] theorem Block.setRxcH_pbds (i : Nat) (h : RxcH) : (b.setRxcH i h).pbds = b.pbds := rfl
@[simp] theorem Block.setRxcH_txcs (i : Nat) (h : RxcH) : (b.setRxcH i h).txcs = b.txcs := rfl
@[simp] theorem Block.setRxcH_sys (i : Nat) (h : RxcH) : (b.setRxcH i h).sys = b.sys := rfl
@[simp] theorem Block.setRxcH_ccs (i : Nat) (h : RxcH) : (b.setRxcH i h).ccs = b.ccs := rfl
@[simp] theorem Block.setRxcH_orxs (i : Nat) (h : RxcH) : (b.setRxcH i h).orxs = b.orxs := rfl
@[simp] theorem Block.setRxcH_lanes (i : Nat) (h : RxcH) : (b.setRxcH i h).lanes = b.lanes := rfl
@[simp] theorem Block.setRxcH_bank (i : Nat) (h : RxcH) : (b.setRxcH i h).bank = b.bank := rfl
@[simp] theorem Block.setRxcH_loop (i : Nat) (h : RxcH) : (b.setRxcH i h).loop = b.loop := rfl
@[simp] theorem Block.setRxcH_mcs (i : Nat) (h : RxcH) : (b.setRxcH i h).mcs = b.mcs := rfl
@[simp] theorem Block.setRxcH_mcResets (i : Nat) (h : RxcH) : (b.setRxcH i h).mcResets = b.mcResets := rfl
@[simp] theorem Block.setRxcH_engs (i : Nat) (h : RxcH) : (b.setRxcH i h).engs = b.engs := rfl
@[simp] theorem Block.setRxcH_ctxs (i : Nat) (h : RxcH) : (b.setRxcH i h).ctxs = b.ctxs := rfl
@[simp] theorem Block.setRxcH_rings (i : Nat) (h : RxcH) : (b.setRxcH i h).rings = b.rings := rfl
@[simp] theorem Block.setRxcH_dsp (i : Nat) (h : RxcH) : (b.setRxcH i h).dsp = b.dsp := rfl
@[simp] theorem Block.setRxcH_hostOut (i : Nat) (h : RxcH) : (b.setRxcH i h).hostOut = b.hostOut := rfl
@[simp] theorem Block.setRxcH_mon (i : Nat) (h : RxcH) : (b.setRxcH i h).mon = b.mon := rfl
@[simp] theorem Block.setRxcH_power (i : Nat) (h : RxcH) : (b.setRxcH i h).power = b.power := rfl
@[simp] theorem Block.setRxcH_kiln (i : Nat) (h : RxcH) : (b.setRxcH i h).kiln = b.kiln := rfl
@[simp] theorem Block.setRxcH_hbm (i : Nat) (h : RxcH) : (b.setRxcH i h).hbm = b.hbm := rfl
@[simp] theorem Block.setRxcH_cel (i : Nat) (h : RxcH) : (b.setRxcH i h).cel = b.cel := rfl
@[simp] theorem Block.setRxcH_fhs (i : Nat) (h : RxcH) : (b.setRxcH i h).fhs = b.fhs := rfl
@[simp] theorem Block.setRxcH_fhBeat (i : Nat) (h : RxcH) : (b.setRxcH i h).fhBeat = b.fhBeat := rfl
@[simp] theorem Block.setRxcH_hds (i : Nat) (h : RxcH) : (b.setRxcH i h).hds = b.hds := rfl
@[simp] theorem Block.setRxcH_hdOut (i : Nat) (h : RxcH) : (b.setRxcH i h).hdOut = b.hdOut := rfl
@[simp] theorem Block.setRxcH_memOps (i : Nat) (h : RxcH) : (b.setRxcH i h).memOps = b.memOps := rfl
@[simp] theorem Block.setRxcH_rdata (i : Nat) (h : RxcH) : (b.setRxcH i h).rdata = b.rdata := rfl
@[simp] theorem Block.setRxcH_reg (i : Nat) (h : RxcH) (uid o : Nat) : (b.setRxcH i h).reg uid o = b.reg uid o := rfl
@[simp] theorem Block.setRxcH_fld (i : Nat) (h : RxcH) (uid : Nat) (fd : Fld) : (b.setRxcH i h).fld uid fd = b.fld uid fd := rfl
@[simp] theorem Block.setRxcH_flag (i : Nat) (h : RxcH) (uid : Nat) (fd : Fld) : (b.setRxcH i h).flag uid fd = b.flag uid fd := rfl

/-! ### setTxcH -/
@[simp] theorem Block.setTxcH_time (i : Nat) (h : TxcH) : (b.setTxcH i h).time = b.time := rfl
@[simp] theorem Block.setTxcH_regs (i : Nat) (h : TxcH) : (b.setTxcH i h).regs = b.regs := rfl
@[simp] theorem Block.setTxcH_free (i : Nat) (h : TxcH) : (b.setTxcH i h).free = b.free := rfl
@[simp] theorem Block.setTxcH_groups (i : Nat) (h : TxcH) : (b.setTxcH i h).groups = b.groups := rfl
@[simp] theorem Block.setTxcH_edits (i : Nat) (h : TxcH) : (b.setTxcH i h).edits = b.edits := rfl
@[simp] theorem Block.setTxcH_ramping (i : Nat) (h : TxcH) : (b.setTxcH i h).ramping = b.ramping := rfl
@[simp] theorem Block.setTxcH_testing (i : Nat) (h : TxcH) : (b.setTxcH i h).testing = b.testing := rfl
@[simp] theorem Block.setTxcH_host (i : Nat) (h : TxcH) : (b.setTxcH i h).host = b.host := rfl
@[simp] theorem Block.setTxcH_root (i : Nat) (h : TxcH) : (b.setTxcH i h).root = b.root := rfl
@[simp] theorem Block.setTxcH_flt (i : Nat) (h : TxcH) : (b.setTxcH i h).flt = b.flt := rfl
@[simp] theorem Block.setTxcH_recd (i : Nat) (h : TxcH) : (b.setTxcH i h).recd = b.recd := rfl
@[simp] theorem Block.setTxcH_tally (i : Nat) (h : TxcH) : (b.setTxcH i h).tally = b.tally := rfl
@[simp] theorem Block.setTxcH_otp (i : Nat) (h : TxcH) : (b.setTxcH i h).otp = b.otp := rfl
@[simp] theorem Block.setTxcH_boot (i : Nat) (h : TxcH) : (b.setTxcH i h).boot = b.boot := rfl
@[simp] theorem Block.setTxcH_wdn (i : Nat) (h : TxcH) : (b.setTxcH i h).wdn = b.wdn := rfl
@[simp] theorem Block.setTxcH_sync (i : Nat) (h : TxcH) : (b.setTxcH i h).sync = b.sync := rfl
@[simp] theorem Block.setTxcH_pbs (i : Nat) (h : TxcH) : (b.setTxcH i h).pbs = b.pbs := rfl
@[simp] theorem Block.setTxcH_pbds (i : Nat) (h : TxcH) : (b.setTxcH i h).pbds = b.pbds := rfl
@[simp] theorem Block.setTxcH_rxcs (i : Nat) (h : TxcH) : (b.setTxcH i h).rxcs = b.rxcs := rfl
@[simp] theorem Block.setTxcH_sys (i : Nat) (h : TxcH) : (b.setTxcH i h).sys = b.sys := rfl
@[simp] theorem Block.setTxcH_ccs (i : Nat) (h : TxcH) : (b.setTxcH i h).ccs = b.ccs := rfl
@[simp] theorem Block.setTxcH_orxs (i : Nat) (h : TxcH) : (b.setTxcH i h).orxs = b.orxs := rfl
@[simp] theorem Block.setTxcH_lanes (i : Nat) (h : TxcH) : (b.setTxcH i h).lanes = b.lanes := rfl
@[simp] theorem Block.setTxcH_bank (i : Nat) (h : TxcH) : (b.setTxcH i h).bank = b.bank := rfl
@[simp] theorem Block.setTxcH_loop (i : Nat) (h : TxcH) : (b.setTxcH i h).loop = b.loop := rfl
@[simp] theorem Block.setTxcH_mcs (i : Nat) (h : TxcH) : (b.setTxcH i h).mcs = b.mcs := rfl
@[simp] theorem Block.setTxcH_mcResets (i : Nat) (h : TxcH) : (b.setTxcH i h).mcResets = b.mcResets := rfl
@[simp] theorem Block.setTxcH_engs (i : Nat) (h : TxcH) : (b.setTxcH i h).engs = b.engs := rfl
@[simp] theorem Block.setTxcH_ctxs (i : Nat) (h : TxcH) : (b.setTxcH i h).ctxs = b.ctxs := rfl
@[simp] theorem Block.setTxcH_rings (i : Nat) (h : TxcH) : (b.setTxcH i h).rings = b.rings := rfl
@[simp] theorem Block.setTxcH_dsp (i : Nat) (h : TxcH) : (b.setTxcH i h).dsp = b.dsp := rfl
@[simp] theorem Block.setTxcH_hostOut (i : Nat) (h : TxcH) : (b.setTxcH i h).hostOut = b.hostOut := rfl
@[simp] theorem Block.setTxcH_mon (i : Nat) (h : TxcH) : (b.setTxcH i h).mon = b.mon := rfl
@[simp] theorem Block.setTxcH_power (i : Nat) (h : TxcH) : (b.setTxcH i h).power = b.power := rfl
@[simp] theorem Block.setTxcH_kiln (i : Nat) (h : TxcH) : (b.setTxcH i h).kiln = b.kiln := rfl
@[simp] theorem Block.setTxcH_hbm (i : Nat) (h : TxcH) : (b.setTxcH i h).hbm = b.hbm := rfl
@[simp] theorem Block.setTxcH_cel (i : Nat) (h : TxcH) : (b.setTxcH i h).cel = b.cel := rfl
@[simp] theorem Block.setTxcH_fhs (i : Nat) (h : TxcH) : (b.setTxcH i h).fhs = b.fhs := rfl
@[simp] theorem Block.setTxcH_fhBeat (i : Nat) (h : TxcH) : (b.setTxcH i h).fhBeat = b.fhBeat := rfl
@[simp] theorem Block.setTxcH_hds (i : Nat) (h : TxcH) : (b.setTxcH i h).hds = b.hds := rfl
@[simp] theorem Block.setTxcH_hdOut (i : Nat) (h : TxcH) : (b.setTxcH i h).hdOut = b.hdOut := rfl
@[simp] theorem Block.setTxcH_memOps (i : Nat) (h : TxcH) : (b.setTxcH i h).memOps = b.memOps := rfl
@[simp] theorem Block.setTxcH_rdata (i : Nat) (h : TxcH) : (b.setTxcH i h).rdata = b.rdata := rfl
@[simp] theorem Block.setTxcH_reg (i : Nat) (h : TxcH) (uid o : Nat) : (b.setTxcH i h).reg uid o = b.reg uid o := rfl
@[simp] theorem Block.setTxcH_fld (i : Nat) (h : TxcH) (uid : Nat) (fd : Fld) : (b.setTxcH i h).fld uid fd = b.fld uid fd := rfl
@[simp] theorem Block.setTxcH_flag (i : Nat) (h : TxcH) (uid : Nat) (fd : Fld) : (b.setTxcH i h).flag uid fd = b.flag uid fd := rfl

/-! ### setSyH -/
@[simp] theorem Block.setSyH_time (i : Nat) (h : SyH) : (b.setSyH i h).time = b.time := rfl
@[simp] theorem Block.setSyH_regs (i : Nat) (h : SyH) : (b.setSyH i h).regs = b.regs := rfl
@[simp] theorem Block.setSyH_free (i : Nat) (h : SyH) : (b.setSyH i h).free = b.free := rfl
@[simp] theorem Block.setSyH_groups (i : Nat) (h : SyH) : (b.setSyH i h).groups = b.groups := rfl
@[simp] theorem Block.setSyH_edits (i : Nat) (h : SyH) : (b.setSyH i h).edits = b.edits := rfl
@[simp] theorem Block.setSyH_ramping (i : Nat) (h : SyH) : (b.setSyH i h).ramping = b.ramping := rfl
@[simp] theorem Block.setSyH_testing (i : Nat) (h : SyH) : (b.setSyH i h).testing = b.testing := rfl
@[simp] theorem Block.setSyH_host (i : Nat) (h : SyH) : (b.setSyH i h).host = b.host := rfl
@[simp] theorem Block.setSyH_root (i : Nat) (h : SyH) : (b.setSyH i h).root = b.root := rfl
@[simp] theorem Block.setSyH_flt (i : Nat) (h : SyH) : (b.setSyH i h).flt = b.flt := rfl
@[simp] theorem Block.setSyH_recd (i : Nat) (h : SyH) : (b.setSyH i h).recd = b.recd := rfl
@[simp] theorem Block.setSyH_tally (i : Nat) (h : SyH) : (b.setSyH i h).tally = b.tally := rfl
@[simp] theorem Block.setSyH_otp (i : Nat) (h : SyH) : (b.setSyH i h).otp = b.otp := rfl
@[simp] theorem Block.setSyH_boot (i : Nat) (h : SyH) : (b.setSyH i h).boot = b.boot := rfl
@[simp] theorem Block.setSyH_wdn (i : Nat) (h : SyH) : (b.setSyH i h).wdn = b.wdn := rfl
@[simp] theorem Block.setSyH_sync (i : Nat) (h : SyH) : (b.setSyH i h).sync = b.sync := rfl
@[simp] theorem Block.setSyH_pbs (i : Nat) (h : SyH) : (b.setSyH i h).pbs = b.pbs := rfl
@[simp] theorem Block.setSyH_pbds (i : Nat) (h : SyH) : (b.setSyH i h).pbds = b.pbds := rfl
@[simp] theorem Block.setSyH_rxcs (i : Nat) (h : SyH) : (b.setSyH i h).rxcs = b.rxcs := rfl
@[simp] theorem Block.setSyH_txcs (i : Nat) (h : SyH) : (b.setSyH i h).txcs = b.txcs := rfl
@[simp] theorem Block.setSyH_ccs (i : Nat) (h : SyH) : (b.setSyH i h).ccs = b.ccs := rfl
@[simp] theorem Block.setSyH_orxs (i : Nat) (h : SyH) : (b.setSyH i h).orxs = b.orxs := rfl
@[simp] theorem Block.setSyH_lanes (i : Nat) (h : SyH) : (b.setSyH i h).lanes = b.lanes := rfl
@[simp] theorem Block.setSyH_bank (i : Nat) (h : SyH) : (b.setSyH i h).bank = b.bank := rfl
@[simp] theorem Block.setSyH_loop (i : Nat) (h : SyH) : (b.setSyH i h).loop = b.loop := rfl
@[simp] theorem Block.setSyH_mcs (i : Nat) (h : SyH) : (b.setSyH i h).mcs = b.mcs := rfl
@[simp] theorem Block.setSyH_mcResets (i : Nat) (h : SyH) : (b.setSyH i h).mcResets = b.mcResets := rfl
@[simp] theorem Block.setSyH_engs (i : Nat) (h : SyH) : (b.setSyH i h).engs = b.engs := rfl
@[simp] theorem Block.setSyH_ctxs (i : Nat) (h : SyH) : (b.setSyH i h).ctxs = b.ctxs := rfl
@[simp] theorem Block.setSyH_rings (i : Nat) (h : SyH) : (b.setSyH i h).rings = b.rings := rfl
@[simp] theorem Block.setSyH_dsp (i : Nat) (h : SyH) : (b.setSyH i h).dsp = b.dsp := rfl
@[simp] theorem Block.setSyH_hostOut (i : Nat) (h : SyH) : (b.setSyH i h).hostOut = b.hostOut := rfl
@[simp] theorem Block.setSyH_mon (i : Nat) (h : SyH) : (b.setSyH i h).mon = b.mon := rfl
@[simp] theorem Block.setSyH_power (i : Nat) (h : SyH) : (b.setSyH i h).power = b.power := rfl
@[simp] theorem Block.setSyH_kiln (i : Nat) (h : SyH) : (b.setSyH i h).kiln = b.kiln := rfl
@[simp] theorem Block.setSyH_hbm (i : Nat) (h : SyH) : (b.setSyH i h).hbm = b.hbm := rfl
@[simp] theorem Block.setSyH_cel (i : Nat) (h : SyH) : (b.setSyH i h).cel = b.cel := rfl
@[simp] theorem Block.setSyH_fhs (i : Nat) (h : SyH) : (b.setSyH i h).fhs = b.fhs := rfl
@[simp] theorem Block.setSyH_fhBeat (i : Nat) (h : SyH) : (b.setSyH i h).fhBeat = b.fhBeat := rfl
@[simp] theorem Block.setSyH_hds (i : Nat) (h : SyH) : (b.setSyH i h).hds = b.hds := rfl
@[simp] theorem Block.setSyH_hdOut (i : Nat) (h : SyH) : (b.setSyH i h).hdOut = b.hdOut := rfl
@[simp] theorem Block.setSyH_memOps (i : Nat) (h : SyH) : (b.setSyH i h).memOps = b.memOps := rfl
@[simp] theorem Block.setSyH_rdata (i : Nat) (h : SyH) : (b.setSyH i h).rdata = b.rdata := rfl
@[simp] theorem Block.setSyH_reg (i : Nat) (h : SyH) (uid o : Nat) : (b.setSyH i h).reg uid o = b.reg uid o := rfl
@[simp] theorem Block.setSyH_fld (i : Nat) (h : SyH) (uid : Nat) (fd : Fld) : (b.setSyH i h).fld uid fd = b.fld uid fd := rfl
@[simp] theorem Block.setSyH_flag (i : Nat) (h : SyH) (uid : Nat) (fd : Fld) : (b.setSyH i h).flag uid fd = b.flag uid fd := rfl

/-! ### setCcH -/
@[simp] theorem Block.setCcH_time (i : Nat) (h : CcH) : (b.setCcH i h).time = b.time := rfl
@[simp] theorem Block.setCcH_regs (i : Nat) (h : CcH) : (b.setCcH i h).regs = b.regs := rfl
@[simp] theorem Block.setCcH_free (i : Nat) (h : CcH) : (b.setCcH i h).free = b.free := rfl
@[simp] theorem Block.setCcH_groups (i : Nat) (h : CcH) : (b.setCcH i h).groups = b.groups := rfl
@[simp] theorem Block.setCcH_edits (i : Nat) (h : CcH) : (b.setCcH i h).edits = b.edits := rfl
@[simp] theorem Block.setCcH_ramping (i : Nat) (h : CcH) : (b.setCcH i h).ramping = b.ramping := rfl
@[simp] theorem Block.setCcH_testing (i : Nat) (h : CcH) : (b.setCcH i h).testing = b.testing := rfl
@[simp] theorem Block.setCcH_host (i : Nat) (h : CcH) : (b.setCcH i h).host = b.host := rfl
@[simp] theorem Block.setCcH_root (i : Nat) (h : CcH) : (b.setCcH i h).root = b.root := rfl
@[simp] theorem Block.setCcH_flt (i : Nat) (h : CcH) : (b.setCcH i h).flt = b.flt := rfl
@[simp] theorem Block.setCcH_recd (i : Nat) (h : CcH) : (b.setCcH i h).recd = b.recd := rfl
@[simp] theorem Block.setCcH_tally (i : Nat) (h : CcH) : (b.setCcH i h).tally = b.tally := rfl
@[simp] theorem Block.setCcH_otp (i : Nat) (h : CcH) : (b.setCcH i h).otp = b.otp := rfl
@[simp] theorem Block.setCcH_boot (i : Nat) (h : CcH) : (b.setCcH i h).boot = b.boot := rfl
@[simp] theorem Block.setCcH_wdn (i : Nat) (h : CcH) : (b.setCcH i h).wdn = b.wdn := rfl
@[simp] theorem Block.setCcH_sync (i : Nat) (h : CcH) : (b.setCcH i h).sync = b.sync := rfl
@[simp] theorem Block.setCcH_pbs (i : Nat) (h : CcH) : (b.setCcH i h).pbs = b.pbs := rfl
@[simp] theorem Block.setCcH_pbds (i : Nat) (h : CcH) : (b.setCcH i h).pbds = b.pbds := rfl
@[simp] theorem Block.setCcH_rxcs (i : Nat) (h : CcH) : (b.setCcH i h).rxcs = b.rxcs := rfl
@[simp] theorem Block.setCcH_txcs (i : Nat) (h : CcH) : (b.setCcH i h).txcs = b.txcs := rfl
@[simp] theorem Block.setCcH_sys (i : Nat) (h : CcH) : (b.setCcH i h).sys = b.sys := rfl
@[simp] theorem Block.setCcH_orxs (i : Nat) (h : CcH) : (b.setCcH i h).orxs = b.orxs := rfl
@[simp] theorem Block.setCcH_lanes (i : Nat) (h : CcH) : (b.setCcH i h).lanes = b.lanes := rfl
@[simp] theorem Block.setCcH_bank (i : Nat) (h : CcH) : (b.setCcH i h).bank = b.bank := rfl
@[simp] theorem Block.setCcH_loop (i : Nat) (h : CcH) : (b.setCcH i h).loop = b.loop := rfl
@[simp] theorem Block.setCcH_mcs (i : Nat) (h : CcH) : (b.setCcH i h).mcs = b.mcs := rfl
@[simp] theorem Block.setCcH_mcResets (i : Nat) (h : CcH) : (b.setCcH i h).mcResets = b.mcResets := rfl
@[simp] theorem Block.setCcH_engs (i : Nat) (h : CcH) : (b.setCcH i h).engs = b.engs := rfl
@[simp] theorem Block.setCcH_ctxs (i : Nat) (h : CcH) : (b.setCcH i h).ctxs = b.ctxs := rfl
@[simp] theorem Block.setCcH_rings (i : Nat) (h : CcH) : (b.setCcH i h).rings = b.rings := rfl
@[simp] theorem Block.setCcH_dsp (i : Nat) (h : CcH) : (b.setCcH i h).dsp = b.dsp := rfl
@[simp] theorem Block.setCcH_hostOut (i : Nat) (h : CcH) : (b.setCcH i h).hostOut = b.hostOut := rfl
@[simp] theorem Block.setCcH_mon (i : Nat) (h : CcH) : (b.setCcH i h).mon = b.mon := rfl
@[simp] theorem Block.setCcH_power (i : Nat) (h : CcH) : (b.setCcH i h).power = b.power := rfl
@[simp] theorem Block.setCcH_kiln (i : Nat) (h : CcH) : (b.setCcH i h).kiln = b.kiln := rfl
@[simp] theorem Block.setCcH_hbm (i : Nat) (h : CcH) : (b.setCcH i h).hbm = b.hbm := rfl
@[simp] theorem Block.setCcH_cel (i : Nat) (h : CcH) : (b.setCcH i h).cel = b.cel := rfl
@[simp] theorem Block.setCcH_fhs (i : Nat) (h : CcH) : (b.setCcH i h).fhs = b.fhs := rfl
@[simp] theorem Block.setCcH_fhBeat (i : Nat) (h : CcH) : (b.setCcH i h).fhBeat = b.fhBeat := rfl
@[simp] theorem Block.setCcH_hds (i : Nat) (h : CcH) : (b.setCcH i h).hds = b.hds := rfl
@[simp] theorem Block.setCcH_hdOut (i : Nat) (h : CcH) : (b.setCcH i h).hdOut = b.hdOut := rfl
@[simp] theorem Block.setCcH_memOps (i : Nat) (h : CcH) : (b.setCcH i h).memOps = b.memOps := rfl
@[simp] theorem Block.setCcH_rdata (i : Nat) (h : CcH) : (b.setCcH i h).rdata = b.rdata := rfl
@[simp] theorem Block.setCcH_reg (i : Nat) (h : CcH) (uid o : Nat) : (b.setCcH i h).reg uid o = b.reg uid o := rfl
@[simp] theorem Block.setCcH_fld (i : Nat) (h : CcH) (uid : Nat) (fd : Fld) : (b.setCcH i h).fld uid fd = b.fld uid fd := rfl
@[simp] theorem Block.setCcH_flag (i : Nat) (h : CcH) (uid : Nat) (fd : Fld) : (b.setCcH i h).flag uid fd = b.flag uid fd := rfl

/-! ### setOrxH -/
@[simp] theorem Block.setOrxH_time (i : Nat) (h : OrxH) : (b.setOrxH i h).time = b.time := rfl
@[simp] theorem Block.setOrxH_regs (i : Nat) (h : OrxH) : (b.setOrxH i h).regs = b.regs := rfl
@[simp] theorem Block.setOrxH_free (i : Nat) (h : OrxH) : (b.setOrxH i h).free = b.free := rfl
@[simp] theorem Block.setOrxH_groups (i : Nat) (h : OrxH) : (b.setOrxH i h).groups = b.groups := rfl
@[simp] theorem Block.setOrxH_edits (i : Nat) (h : OrxH) : (b.setOrxH i h).edits = b.edits := rfl
@[simp] theorem Block.setOrxH_ramping (i : Nat) (h : OrxH) : (b.setOrxH i h).ramping = b.ramping := rfl
@[simp] theorem Block.setOrxH_testing (i : Nat) (h : OrxH) : (b.setOrxH i h).testing = b.testing := rfl
@[simp] theorem Block.setOrxH_host (i : Nat) (h : OrxH) : (b.setOrxH i h).host = b.host := rfl
@[simp] theorem Block.setOrxH_root (i : Nat) (h : OrxH) : (b.setOrxH i h).root = b.root := rfl
@[simp] theorem Block.setOrxH_flt (i : Nat) (h : OrxH) : (b.setOrxH i h).flt = b.flt := rfl
@[simp] theorem Block.setOrxH_recd (i : Nat) (h : OrxH) : (b.setOrxH i h).recd = b.recd := rfl
@[simp] theorem Block.setOrxH_tally (i : Nat) (h : OrxH) : (b.setOrxH i h).tally = b.tally := rfl
@[simp] theorem Block.setOrxH_otp (i : Nat) (h : OrxH) : (b.setOrxH i h).otp = b.otp := rfl
@[simp] theorem Block.setOrxH_boot (i : Nat) (h : OrxH) : (b.setOrxH i h).boot = b.boot := rfl
@[simp] theorem Block.setOrxH_wdn (i : Nat) (h : OrxH) : (b.setOrxH i h).wdn = b.wdn := rfl
@[simp] theorem Block.setOrxH_sync (i : Nat) (h : OrxH) : (b.setOrxH i h).sync = b.sync := rfl
@[simp] theorem Block.setOrxH_pbs (i : Nat) (h : OrxH) : (b.setOrxH i h).pbs = b.pbs := rfl
@[simp] theorem Block.setOrxH_pbds (i : Nat) (h : OrxH) : (b.setOrxH i h).pbds = b.pbds := rfl
@[simp] theorem Block.setOrxH_rxcs (i : Nat) (h : OrxH) : (b.setOrxH i h).rxcs = b.rxcs := rfl
@[simp] theorem Block.setOrxH_txcs (i : Nat) (h : OrxH) : (b.setOrxH i h).txcs = b.txcs := rfl
@[simp] theorem Block.setOrxH_sys (i : Nat) (h : OrxH) : (b.setOrxH i h).sys = b.sys := rfl
@[simp] theorem Block.setOrxH_ccs (i : Nat) (h : OrxH) : (b.setOrxH i h).ccs = b.ccs := rfl
@[simp] theorem Block.setOrxH_lanes (i : Nat) (h : OrxH) : (b.setOrxH i h).lanes = b.lanes := rfl
@[simp] theorem Block.setOrxH_bank (i : Nat) (h : OrxH) : (b.setOrxH i h).bank = b.bank := rfl
@[simp] theorem Block.setOrxH_loop (i : Nat) (h : OrxH) : (b.setOrxH i h).loop = b.loop := rfl
@[simp] theorem Block.setOrxH_mcs (i : Nat) (h : OrxH) : (b.setOrxH i h).mcs = b.mcs := rfl
@[simp] theorem Block.setOrxH_mcResets (i : Nat) (h : OrxH) : (b.setOrxH i h).mcResets = b.mcResets := rfl
@[simp] theorem Block.setOrxH_engs (i : Nat) (h : OrxH) : (b.setOrxH i h).engs = b.engs := rfl
@[simp] theorem Block.setOrxH_ctxs (i : Nat) (h : OrxH) : (b.setOrxH i h).ctxs = b.ctxs := rfl
@[simp] theorem Block.setOrxH_rings (i : Nat) (h : OrxH) : (b.setOrxH i h).rings = b.rings := rfl
@[simp] theorem Block.setOrxH_dsp (i : Nat) (h : OrxH) : (b.setOrxH i h).dsp = b.dsp := rfl
@[simp] theorem Block.setOrxH_hostOut (i : Nat) (h : OrxH) : (b.setOrxH i h).hostOut = b.hostOut := rfl
@[simp] theorem Block.setOrxH_mon (i : Nat) (h : OrxH) : (b.setOrxH i h).mon = b.mon := rfl
@[simp] theorem Block.setOrxH_power (i : Nat) (h : OrxH) : (b.setOrxH i h).power = b.power := rfl
@[simp] theorem Block.setOrxH_kiln (i : Nat) (h : OrxH) : (b.setOrxH i h).kiln = b.kiln := rfl
@[simp] theorem Block.setOrxH_hbm (i : Nat) (h : OrxH) : (b.setOrxH i h).hbm = b.hbm := rfl
@[simp] theorem Block.setOrxH_cel (i : Nat) (h : OrxH) : (b.setOrxH i h).cel = b.cel := rfl
@[simp] theorem Block.setOrxH_fhs (i : Nat) (h : OrxH) : (b.setOrxH i h).fhs = b.fhs := rfl
@[simp] theorem Block.setOrxH_fhBeat (i : Nat) (h : OrxH) : (b.setOrxH i h).fhBeat = b.fhBeat := rfl
@[simp] theorem Block.setOrxH_hds (i : Nat) (h : OrxH) : (b.setOrxH i h).hds = b.hds := rfl
@[simp] theorem Block.setOrxH_hdOut (i : Nat) (h : OrxH) : (b.setOrxH i h).hdOut = b.hdOut := rfl
@[simp] theorem Block.setOrxH_memOps (i : Nat) (h : OrxH) : (b.setOrxH i h).memOps = b.memOps := rfl
@[simp] theorem Block.setOrxH_rdata (i : Nat) (h : OrxH) : (b.setOrxH i h).rdata = b.rdata := rfl
@[simp] theorem Block.setOrxH_reg (i : Nat) (h : OrxH) (uid o : Nat) : (b.setOrxH i h).reg uid o = b.reg uid o := rfl
@[simp] theorem Block.setOrxH_fld (i : Nat) (h : OrxH) (uid : Nat) (fd : Fld) : (b.setOrxH i h).fld uid fd = b.fld uid fd := rfl
@[simp] theorem Block.setOrxH_flag (i : Nat) (h : OrxH) (uid : Nat) (fd : Fld) : (b.setOrxH i h).flag uid fd = b.flag uid fd := rfl

/-! ### setHdH -/
@[simp] theorem Block.setHdH_time (i : Nat) (h : HdH) : (b.setHdH i h).time = b.time := rfl
@[simp] theorem Block.setHdH_regs (i : Nat) (h : HdH) : (b.setHdH i h).regs = b.regs := rfl
@[simp] theorem Block.setHdH_free (i : Nat) (h : HdH) : (b.setHdH i h).free = b.free := rfl
@[simp] theorem Block.setHdH_groups (i : Nat) (h : HdH) : (b.setHdH i h).groups = b.groups := rfl
@[simp] theorem Block.setHdH_edits (i : Nat) (h : HdH) : (b.setHdH i h).edits = b.edits := rfl
@[simp] theorem Block.setHdH_ramping (i : Nat) (h : HdH) : (b.setHdH i h).ramping = b.ramping := rfl
@[simp] theorem Block.setHdH_testing (i : Nat) (h : HdH) : (b.setHdH i h).testing = b.testing := rfl
@[simp] theorem Block.setHdH_host (i : Nat) (h : HdH) : (b.setHdH i h).host = b.host := rfl
@[simp] theorem Block.setHdH_root (i : Nat) (h : HdH) : (b.setHdH i h).root = b.root := rfl
@[simp] theorem Block.setHdH_flt (i : Nat) (h : HdH) : (b.setHdH i h).flt = b.flt := rfl
@[simp] theorem Block.setHdH_recd (i : Nat) (h : HdH) : (b.setHdH i h).recd = b.recd := rfl
@[simp] theorem Block.setHdH_tally (i : Nat) (h : HdH) : (b.setHdH i h).tally = b.tally := rfl
@[simp] theorem Block.setHdH_otp (i : Nat) (h : HdH) : (b.setHdH i h).otp = b.otp := rfl
@[simp] theorem Block.setHdH_boot (i : Nat) (h : HdH) : (b.setHdH i h).boot = b.boot := rfl
@[simp] theorem Block.setHdH_wdn (i : Nat) (h : HdH) : (b.setHdH i h).wdn = b.wdn := rfl
@[simp] theorem Block.setHdH_sync (i : Nat) (h : HdH) : (b.setHdH i h).sync = b.sync := rfl
@[simp] theorem Block.setHdH_pbs (i : Nat) (h : HdH) : (b.setHdH i h).pbs = b.pbs := rfl
@[simp] theorem Block.setHdH_pbds (i : Nat) (h : HdH) : (b.setHdH i h).pbds = b.pbds := rfl
@[simp] theorem Block.setHdH_rxcs (i : Nat) (h : HdH) : (b.setHdH i h).rxcs = b.rxcs := rfl
@[simp] theorem Block.setHdH_txcs (i : Nat) (h : HdH) : (b.setHdH i h).txcs = b.txcs := rfl
@[simp] theorem Block.setHdH_sys (i : Nat) (h : HdH) : (b.setHdH i h).sys = b.sys := rfl
@[simp] theorem Block.setHdH_ccs (i : Nat) (h : HdH) : (b.setHdH i h).ccs = b.ccs := rfl
@[simp] theorem Block.setHdH_orxs (i : Nat) (h : HdH) : (b.setHdH i h).orxs = b.orxs := rfl
@[simp] theorem Block.setHdH_lanes (i : Nat) (h : HdH) : (b.setHdH i h).lanes = b.lanes := rfl
@[simp] theorem Block.setHdH_bank (i : Nat) (h : HdH) : (b.setHdH i h).bank = b.bank := rfl
@[simp] theorem Block.setHdH_loop (i : Nat) (h : HdH) : (b.setHdH i h).loop = b.loop := rfl
@[simp] theorem Block.setHdH_mcs (i : Nat) (h : HdH) : (b.setHdH i h).mcs = b.mcs := rfl
@[simp] theorem Block.setHdH_mcResets (i : Nat) (h : HdH) : (b.setHdH i h).mcResets = b.mcResets := rfl
@[simp] theorem Block.setHdH_engs (i : Nat) (h : HdH) : (b.setHdH i h).engs = b.engs := rfl
@[simp] theorem Block.setHdH_ctxs (i : Nat) (h : HdH) : (b.setHdH i h).ctxs = b.ctxs := rfl
@[simp] theorem Block.setHdH_rings (i : Nat) (h : HdH) : (b.setHdH i h).rings = b.rings := rfl
@[simp] theorem Block.setHdH_dsp (i : Nat) (h : HdH) : (b.setHdH i h).dsp = b.dsp := rfl
@[simp] theorem Block.setHdH_hostOut (i : Nat) (h : HdH) : (b.setHdH i h).hostOut = b.hostOut := rfl
@[simp] theorem Block.setHdH_mon (i : Nat) (h : HdH) : (b.setHdH i h).mon = b.mon := rfl
@[simp] theorem Block.setHdH_power (i : Nat) (h : HdH) : (b.setHdH i h).power = b.power := rfl
@[simp] theorem Block.setHdH_kiln (i : Nat) (h : HdH) : (b.setHdH i h).kiln = b.kiln := rfl
@[simp] theorem Block.setHdH_hbm (i : Nat) (h : HdH) : (b.setHdH i h).hbm = b.hbm := rfl
@[simp] theorem Block.setHdH_cel (i : Nat) (h : HdH) : (b.setHdH i h).cel = b.cel := rfl
@[simp] theorem Block.setHdH_fhs (i : Nat) (h : HdH) : (b.setHdH i h).fhs = b.fhs := rfl
@[simp] theorem Block.setHdH_fhBeat (i : Nat) (h : HdH) : (b.setHdH i h).fhBeat = b.fhBeat := rfl
@[simp] theorem Block.setHdH_hdOut (i : Nat) (h : HdH) : (b.setHdH i h).hdOut = b.hdOut := rfl
@[simp] theorem Block.setHdH_memOps (i : Nat) (h : HdH) : (b.setHdH i h).memOps = b.memOps := rfl
@[simp] theorem Block.setHdH_rdata (i : Nat) (h : HdH) : (b.setHdH i h).rdata = b.rdata := rfl
@[simp] theorem Block.setHdH_reg (i : Nat) (h : HdH) (uid o : Nat) : (b.setHdH i h).reg uid o = b.reg uid o := rfl
@[simp] theorem Block.setHdH_fld (i : Nat) (h : HdH) (uid : Nat) (fd : Fld) : (b.setHdH i h).fld uid fd = b.fld uid fd := rfl
@[simp] theorem Block.setHdH_flag (i : Nat) (h : HdH) (uid : Nat) (fd : Fld) : (b.setHdH i h).flag uid fd = b.flag uid fd := rfl

/-! ### setFhH -/
@[simp] theorem Block.setFhH_time (i : Nat) (h : FhH) : (b.setFhH i h).time = b.time := rfl
@[simp] theorem Block.setFhH_regs (i : Nat) (h : FhH) : (b.setFhH i h).regs = b.regs := rfl
@[simp] theorem Block.setFhH_free (i : Nat) (h : FhH) : (b.setFhH i h).free = b.free := rfl
@[simp] theorem Block.setFhH_groups (i : Nat) (h : FhH) : (b.setFhH i h).groups = b.groups := rfl
@[simp] theorem Block.setFhH_edits (i : Nat) (h : FhH) : (b.setFhH i h).edits = b.edits := rfl
@[simp] theorem Block.setFhH_ramping (i : Nat) (h : FhH) : (b.setFhH i h).ramping = b.ramping := rfl
@[simp] theorem Block.setFhH_testing (i : Nat) (h : FhH) : (b.setFhH i h).testing = b.testing := rfl
@[simp] theorem Block.setFhH_host (i : Nat) (h : FhH) : (b.setFhH i h).host = b.host := rfl
@[simp] theorem Block.setFhH_root (i : Nat) (h : FhH) : (b.setFhH i h).root = b.root := rfl
@[simp] theorem Block.setFhH_flt (i : Nat) (h : FhH) : (b.setFhH i h).flt = b.flt := rfl
@[simp] theorem Block.setFhH_recd (i : Nat) (h : FhH) : (b.setFhH i h).recd = b.recd := rfl
@[simp] theorem Block.setFhH_tally (i : Nat) (h : FhH) : (b.setFhH i h).tally = b.tally := rfl
@[simp] theorem Block.setFhH_otp (i : Nat) (h : FhH) : (b.setFhH i h).otp = b.otp := rfl
@[simp] theorem Block.setFhH_boot (i : Nat) (h : FhH) : (b.setFhH i h).boot = b.boot := rfl
@[simp] theorem Block.setFhH_wdn (i : Nat) (h : FhH) : (b.setFhH i h).wdn = b.wdn := rfl
@[simp] theorem Block.setFhH_sync (i : Nat) (h : FhH) : (b.setFhH i h).sync = b.sync := rfl
@[simp] theorem Block.setFhH_pbs (i : Nat) (h : FhH) : (b.setFhH i h).pbs = b.pbs := rfl
@[simp] theorem Block.setFhH_pbds (i : Nat) (h : FhH) : (b.setFhH i h).pbds = b.pbds := rfl
@[simp] theorem Block.setFhH_rxcs (i : Nat) (h : FhH) : (b.setFhH i h).rxcs = b.rxcs := rfl
@[simp] theorem Block.setFhH_txcs (i : Nat) (h : FhH) : (b.setFhH i h).txcs = b.txcs := rfl
@[simp] theorem Block.setFhH_sys (i : Nat) (h : FhH) : (b.setFhH i h).sys = b.sys := rfl
@[simp] theorem Block.setFhH_ccs (i : Nat) (h : FhH) : (b.setFhH i h).ccs = b.ccs := rfl
@[simp] theorem Block.setFhH_orxs (i : Nat) (h : FhH) : (b.setFhH i h).orxs = b.orxs := rfl
@[simp] theorem Block.setFhH_lanes (i : Nat) (h : FhH) : (b.setFhH i h).lanes = b.lanes := rfl
@[simp] theorem Block.setFhH_bank (i : Nat) (h : FhH) : (b.setFhH i h).bank = b.bank := rfl
@[simp] theorem Block.setFhH_loop (i : Nat) (h : FhH) : (b.setFhH i h).loop = b.loop := rfl
@[simp] theorem Block.setFhH_mcs (i : Nat) (h : FhH) : (b.setFhH i h).mcs = b.mcs := rfl
@[simp] theorem Block.setFhH_mcResets (i : Nat) (h : FhH) : (b.setFhH i h).mcResets = b.mcResets := rfl
@[simp] theorem Block.setFhH_engs (i : Nat) (h : FhH) : (b.setFhH i h).engs = b.engs := rfl
@[simp] theorem Block.setFhH_ctxs (i : Nat) (h : FhH) : (b.setFhH i h).ctxs = b.ctxs := rfl
@[simp] theorem Block.setFhH_rings (i : Nat) (h : FhH) : (b.setFhH i h).rings = b.rings := rfl
@[simp] theorem Block.setFhH_dsp (i : Nat) (h : FhH) : (b.setFhH i h).dsp = b.dsp := rfl
@[simp] theorem Block.setFhH_hostOut (i : Nat) (h : FhH) : (b.setFhH i h).hostOut = b.hostOut := rfl
@[simp] theorem Block.setFhH_mon (i : Nat) (h : FhH) : (b.setFhH i h).mon = b.mon := rfl
@[simp] theorem Block.setFhH_power (i : Nat) (h : FhH) : (b.setFhH i h).power = b.power := rfl
@[simp] theorem Block.setFhH_kiln (i : Nat) (h : FhH) : (b.setFhH i h).kiln = b.kiln := rfl
@[simp] theorem Block.setFhH_hbm (i : Nat) (h : FhH) : (b.setFhH i h).hbm = b.hbm := rfl
@[simp] theorem Block.setFhH_cel (i : Nat) (h : FhH) : (b.setFhH i h).cel = b.cel := rfl
@[simp] theorem Block.setFhH_fhBeat (i : Nat) (h : FhH) : (b.setFhH i h).fhBeat = b.fhBeat := rfl
@[simp] theorem Block.setFhH_hds (i : Nat) (h : FhH) : (b.setFhH i h).hds = b.hds := rfl
@[simp] theorem Block.setFhH_hdOut (i : Nat) (h : FhH) : (b.setFhH i h).hdOut = b.hdOut := rfl
@[simp] theorem Block.setFhH_memOps (i : Nat) (h : FhH) : (b.setFhH i h).memOps = b.memOps := rfl
@[simp] theorem Block.setFhH_rdata (i : Nat) (h : FhH) : (b.setFhH i h).rdata = b.rdata := rfl
@[simp] theorem Block.setFhH_reg (i : Nat) (h : FhH) (uid o : Nat) : (b.setFhH i h).reg uid o = b.reg uid o := rfl
@[simp] theorem Block.setFhH_fld (i : Nat) (h : FhH) (uid : Nat) (fd : Fld) : (b.setFhH i h).fld uid fd = b.fld uid fd := rfl
@[simp] theorem Block.setFhH_flag (i : Nat) (h : FhH) (uid : Nat) (fd : Fld) : (b.setFhH i h).flag uid fd = b.flag uid fd := rfl

/-! ### setPcH -/
@[simp] theorem Block.setPcH_time (i : Nat) (h : PcH) : (b.setPcH i h).time = b.time := rfl
@[simp] theorem Block.setPcH_regs (i : Nat) (h : PcH) : (b.setPcH i h).regs = b.regs := rfl
@[simp] theorem Block.setPcH_free (i : Nat) (h : PcH) : (b.setPcH i h).free = b.free := rfl
@[simp] theorem Block.setPcH_groups (i : Nat) (h : PcH) : (b.setPcH i h).groups = b.groups := rfl
@[simp] theorem Block.setPcH_edits (i : Nat) (h : PcH) : (b.setPcH i h).edits = b.edits := rfl
@[simp] theorem Block.setPcH_ramping (i : Nat) (h : PcH) : (b.setPcH i h).ramping = b.ramping := rfl
@[simp] theorem Block.setPcH_testing (i : Nat) (h : PcH) : (b.setPcH i h).testing = b.testing := rfl
@[simp] theorem Block.setPcH_host (i : Nat) (h : PcH) : (b.setPcH i h).host = b.host := rfl
@[simp] theorem Block.setPcH_root (i : Nat) (h : PcH) : (b.setPcH i h).root = b.root := rfl
@[simp] theorem Block.setPcH_flt (i : Nat) (h : PcH) : (b.setPcH i h).flt = b.flt := rfl
@[simp] theorem Block.setPcH_recd (i : Nat) (h : PcH) : (b.setPcH i h).recd = b.recd := rfl
@[simp] theorem Block.setPcH_tally (i : Nat) (h : PcH) : (b.setPcH i h).tally = b.tally := rfl
@[simp] theorem Block.setPcH_otp (i : Nat) (h : PcH) : (b.setPcH i h).otp = b.otp := rfl
@[simp] theorem Block.setPcH_boot (i : Nat) (h : PcH) : (b.setPcH i h).boot = b.boot := rfl
@[simp] theorem Block.setPcH_wdn (i : Nat) (h : PcH) : (b.setPcH i h).wdn = b.wdn := rfl
@[simp] theorem Block.setPcH_sync (i : Nat) (h : PcH) : (b.setPcH i h).sync = b.sync := rfl
@[simp] theorem Block.setPcH_pbs (i : Nat) (h : PcH) : (b.setPcH i h).pbs = b.pbs := rfl
@[simp] theorem Block.setPcH_pbds (i : Nat) (h : PcH) : (b.setPcH i h).pbds = b.pbds := rfl
@[simp] theorem Block.setPcH_rxcs (i : Nat) (h : PcH) : (b.setPcH i h).rxcs = b.rxcs := rfl
@[simp] theorem Block.setPcH_txcs (i : Nat) (h : PcH) : (b.setPcH i h).txcs = b.txcs := rfl
@[simp] theorem Block.setPcH_sys (i : Nat) (h : PcH) : (b.setPcH i h).sys = b.sys := rfl
@[simp] theorem Block.setPcH_ccs (i : Nat) (h : PcH) : (b.setPcH i h).ccs = b.ccs := rfl
@[simp] theorem Block.setPcH_orxs (i : Nat) (h : PcH) : (b.setPcH i h).orxs = b.orxs := rfl
@[simp] theorem Block.setPcH_lanes (i : Nat) (h : PcH) : (b.setPcH i h).lanes = b.lanes := rfl
@[simp] theorem Block.setPcH_bank (i : Nat) (h : PcH) : (b.setPcH i h).bank = b.bank := rfl
@[simp] theorem Block.setPcH_loop (i : Nat) (h : PcH) : (b.setPcH i h).loop = b.loop := rfl
@[simp] theorem Block.setPcH_mcs (i : Nat) (h : PcH) : (b.setPcH i h).mcs = b.mcs := rfl
@[simp] theorem Block.setPcH_mcResets (i : Nat) (h : PcH) : (b.setPcH i h).mcResets = b.mcResets := rfl
@[simp] theorem Block.setPcH_engs (i : Nat) (h : PcH) : (b.setPcH i h).engs = b.engs := rfl
@[simp] theorem Block.setPcH_ctxs (i : Nat) (h : PcH) : (b.setPcH i h).ctxs = b.ctxs := rfl
@[simp] theorem Block.setPcH_rings (i : Nat) (h : PcH) : (b.setPcH i h).rings = b.rings := rfl
@[simp] theorem Block.setPcH_dsp (i : Nat) (h : PcH) : (b.setPcH i h).dsp = b.dsp := rfl
@[simp] theorem Block.setPcH_hostOut (i : Nat) (h : PcH) : (b.setPcH i h).hostOut = b.hostOut := rfl
@[simp] theorem Block.setPcH_mon (i : Nat) (h : PcH) : (b.setPcH i h).mon = b.mon := rfl
@[simp] theorem Block.setPcH_power (i : Nat) (h : PcH) : (b.setPcH i h).power = b.power := rfl
@[simp] theorem Block.setPcH_kiln (i : Nat) (h : PcH) : (b.setPcH i h).kiln = b.kiln := rfl
@[simp] theorem Block.setPcH_cel (i : Nat) (h : PcH) : (b.setPcH i h).cel = b.cel := rfl
@[simp] theorem Block.setPcH_fhs (i : Nat) (h : PcH) : (b.setPcH i h).fhs = b.fhs := rfl
@[simp] theorem Block.setPcH_fhBeat (i : Nat) (h : PcH) : (b.setPcH i h).fhBeat = b.fhBeat := rfl
@[simp] theorem Block.setPcH_hds (i : Nat) (h : PcH) : (b.setPcH i h).hds = b.hds := rfl
@[simp] theorem Block.setPcH_hdOut (i : Nat) (h : PcH) : (b.setPcH i h).hdOut = b.hdOut := rfl
@[simp] theorem Block.setPcH_memOps (i : Nat) (h : PcH) : (b.setPcH i h).memOps = b.memOps := rfl
@[simp] theorem Block.setPcH_rdata (i : Nat) (h : PcH) : (b.setPcH i h).rdata = b.rdata := rfl
@[simp] theorem Block.setPcH_reg (i : Nat) (h : PcH) (uid o : Nat) : (b.setPcH i h).reg uid o = b.reg uid o := rfl
@[simp] theorem Block.setPcH_fld (i : Nat) (h : PcH) (uid : Nat) (fd : Fld) : (b.setPcH i h).fld uid fd = b.fld uid fd := rfl
@[simp] theorem Block.setPcH_flag (i : Nat) (h : PcH) (uid : Nat) (fd : Fld) : (b.setPcH i h).flag uid fd = b.flag uid fd := rfl

/-! ### setTsH -/
@[simp] theorem Block.setTsH_time (i : Nat) (h : TsH) : (b.setTsH i h).time = b.time := rfl
@[simp] theorem Block.setTsH_regs (i : Nat) (h : TsH) : (b.setTsH i h).regs = b.regs := rfl
@[simp] theorem Block.setTsH_free (i : Nat) (h : TsH) : (b.setTsH i h).free = b.free := rfl
@[simp] theorem Block.setTsH_groups (i : Nat) (h : TsH) : (b.setTsH i h).groups = b.groups := rfl
@[simp] theorem Block.setTsH_edits (i : Nat) (h : TsH) : (b.setTsH i h).edits = b.edits := rfl
@[simp] theorem Block.setTsH_ramping (i : Nat) (h : TsH) : (b.setTsH i h).ramping = b.ramping := rfl
@[simp] theorem Block.setTsH_testing (i : Nat) (h : TsH) : (b.setTsH i h).testing = b.testing := rfl
@[simp] theorem Block.setTsH_host (i : Nat) (h : TsH) : (b.setTsH i h).host = b.host := rfl
@[simp] theorem Block.setTsH_root (i : Nat) (h : TsH) : (b.setTsH i h).root = b.root := rfl
@[simp] theorem Block.setTsH_flt (i : Nat) (h : TsH) : (b.setTsH i h).flt = b.flt := rfl
@[simp] theorem Block.setTsH_recd (i : Nat) (h : TsH) : (b.setTsH i h).recd = b.recd := rfl
@[simp] theorem Block.setTsH_tally (i : Nat) (h : TsH) : (b.setTsH i h).tally = b.tally := rfl
@[simp] theorem Block.setTsH_otp (i : Nat) (h : TsH) : (b.setTsH i h).otp = b.otp := rfl
@[simp] theorem Block.setTsH_boot (i : Nat) (h : TsH) : (b.setTsH i h).boot = b.boot := rfl
@[simp] theorem Block.setTsH_wdn (i : Nat) (h : TsH) : (b.setTsH i h).wdn = b.wdn := rfl
@[simp] theorem Block.setTsH_sync (i : Nat) (h : TsH) : (b.setTsH i h).sync = b.sync := rfl
@[simp] theorem Block.setTsH_pbs (i : Nat) (h : TsH) : (b.setTsH i h).pbs = b.pbs := rfl
@[simp] theorem Block.setTsH_pbds (i : Nat) (h : TsH) : (b.setTsH i h).pbds = b.pbds := rfl
@[simp] theorem Block.setTsH_rxcs (i : Nat) (h : TsH) : (b.setTsH i h).rxcs = b.rxcs := rfl
@[simp] theorem Block.setTsH_txcs (i : Nat) (h : TsH) : (b.setTsH i h).txcs = b.txcs := rfl
@[simp] theorem Block.setTsH_sys (i : Nat) (h : TsH) : (b.setTsH i h).sys = b.sys := rfl
@[simp] theorem Block.setTsH_ccs (i : Nat) (h : TsH) : (b.setTsH i h).ccs = b.ccs := rfl
@[simp] theorem Block.setTsH_orxs (i : Nat) (h : TsH) : (b.setTsH i h).orxs = b.orxs := rfl
@[simp] theorem Block.setTsH_lanes (i : Nat) (h : TsH) : (b.setTsH i h).lanes = b.lanes := rfl
@[simp] theorem Block.setTsH_bank (i : Nat) (h : TsH) : (b.setTsH i h).bank = b.bank := rfl
@[simp] theorem Block.setTsH_loop (i : Nat) (h : TsH) : (b.setTsH i h).loop = b.loop := rfl
@[simp] theorem Block.setTsH_mcs (i : Nat) (h : TsH) : (b.setTsH i h).mcs = b.mcs := rfl
@[simp] theorem Block.setTsH_mcResets (i : Nat) (h : TsH) : (b.setTsH i h).mcResets = b.mcResets := rfl
@[simp] theorem Block.setTsH_engs (i : Nat) (h : TsH) : (b.setTsH i h).engs = b.engs := rfl
@[simp] theorem Block.setTsH_ctxs (i : Nat) (h : TsH) : (b.setTsH i h).ctxs = b.ctxs := rfl
@[simp] theorem Block.setTsH_rings (i : Nat) (h : TsH) : (b.setTsH i h).rings = b.rings := rfl
@[simp] theorem Block.setTsH_dsp (i : Nat) (h : TsH) : (b.setTsH i h).dsp = b.dsp := rfl
@[simp] theorem Block.setTsH_hostOut (i : Nat) (h : TsH) : (b.setTsH i h).hostOut = b.hostOut := rfl
@[simp] theorem Block.setTsH_mon (i : Nat) (h : TsH) : (b.setTsH i h).mon = b.mon := rfl
@[simp] theorem Block.setTsH_power (i : Nat) (h : TsH) : (b.setTsH i h).power = b.power := rfl
@[simp] theorem Block.setTsH_hbm (i : Nat) (h : TsH) : (b.setTsH i h).hbm = b.hbm := rfl
@[simp] theorem Block.setTsH_cel (i : Nat) (h : TsH) : (b.setTsH i h).cel = b.cel := rfl
@[simp] theorem Block.setTsH_fhs (i : Nat) (h : TsH) : (b.setTsH i h).fhs = b.fhs := rfl
@[simp] theorem Block.setTsH_fhBeat (i : Nat) (h : TsH) : (b.setTsH i h).fhBeat = b.fhBeat := rfl
@[simp] theorem Block.setTsH_hds (i : Nat) (h : TsH) : (b.setTsH i h).hds = b.hds := rfl
@[simp] theorem Block.setTsH_hdOut (i : Nat) (h : TsH) : (b.setTsH i h).hdOut = b.hdOut := rfl
@[simp] theorem Block.setTsH_memOps (i : Nat) (h : TsH) : (b.setTsH i h).memOps = b.memOps := rfl
@[simp] theorem Block.setTsH_rdata (i : Nat) (h : TsH) : (b.setTsH i h).rdata = b.rdata := rfl
@[simp] theorem Block.setTsH_reg (i : Nat) (h : TsH) (uid o : Nat) : (b.setTsH i h).reg uid o = b.reg uid o := rfl
@[simp] theorem Block.setTsH_fld (i : Nat) (h : TsH) (uid : Nat) (fd : Fld) : (b.setTsH i h).fld uid fd = b.fld uid fd := rfl
@[simp] theorem Block.setTsH_flag (i : Nat) (h : TsH) (uid : Nat) (fd : Fld) : (b.setTsH i h).flag uid fd = b.flag uid fd := rfl

end Sys2Proof.Machine
end

