-- ==== Sys2Proof/Machine/Balls.lean ====
section
/-! DEFINITION.
The ball map (R446 to R452): what stands at each of the 72 × 72 positions. It is a fixed map; no command reads it. -/
namespace Sys2Proof.Machine

/-- Supply rails (R453) and VSS. -/
inductive Rail where
  | vss | core | sram | ao | ccA | ccA18 | hbm | qHbm | ppHbm | serdes | hSerdes | io
  deriving DecidableEq, Repr

/-- A SerDes group: PCIe, or a fronthaul group. -/
inductive Serdes where
  | pcie | fhg0 | fhg1
  deriving DecidableEq, Repr

/-- The single-ended balls of the NW corner (R451), in the order of its table. -/
inductive Ctl where
  | porN | rstN | perstN | muteN | msyncN | ppsIn | monTrigN | bootMode0 | bootMode1 | faultN | thermN | refPdm
  | mspiCsN | mspiSck | mspiMosi | mspiMiso | norCsN | norSck | norIo0 | norIo1 | norIo2 | norIo3 | tck | tms | tdi | tdo | trstN
  deriving DecidableEq, Repr

/-- What a ball carries. `n` on a differential pair tells its N ball. -/
inductive Ball where
  | rail (r : Rail)
  | reserved
  | ctl (c : Ctl)
  | refclk (n : Bool)
  | rxc (i : Nat) (n : Bool)
  | txc (i : Nat) (n : Bool)
  | orx (i : Nat) (n : Bool)
  | sy (i : Nat) (n : Bool)
  | strobe (i : Nat)
  | rffeSclk (bus : Nat)
  | rffeSdata (bus : Nat)
  | monIn (i : Nat)
  | lane (g : Serdes) (slot : Nat) (rx n : Bool)
  | serdesClk (g : Serdes) (n : Bool)
  deriving DecidableEq, Repr

/-- A quarter-turn clockwise (R448). -/
def turn (p : Nat × Nat) : Nat × Nat := (p.2, 73 - p.1)

/-- `k` quarter-turns. -/
def turns (k : Nat) (p : Nat × Nat) : Nat × Nat := match k with | 0 => p | k + 1 => turn (turns k p)

/-- A position of converter field or band `k` in the CC0 frame (R449). -/
def ccBall (k r c : Nat) : Ball :=
  let d := c - 15
  if r = 2 ∧ d % 6 < 2 ∧ d / 6 < 8 then .rxc (8 * k + d / 6) (d % 6 == 1)
  else if r = 4 ∧ d % 6 < 2 ∧ d / 6 < 8 then .txc (8 * k + d / 6) (d % 6 == 1)
  else if r = 6 ∧ d % 6 < 2 ∧ d / 6 < 2 then .orx (2 * k + d / 6) (d % 6 == 1)
  else if r = 6 ∧ d % 6 < 2 ∧ d / 6 < 4 then .sy (2 * k + (d / 6 - 2)) (d % 6 == 1)
  else if (r = 9 ∨ r = 10) ∧ d % 2 = 0 ∧ d / 2 < 16 then .strobe (32 * k + 16 * (r - 9) + d / 2)
  else if r = 12 ∧ d % 6 = 0 ∧ d / 6 < 4 then .rffeSclk (4 * k + d / 6)
  else if r = 12 ∧ d % 6 = 1 ∧ d / 6 < 4 then .rffeSdata (4 * k + d / 6)
  else if r = 8 ∧ d < 16 then .rail .ccA
  else if r = 8 ∧ d < 24 then .rail .ccA18
  else if r = 13 ∧ d < 6 then .rail .io
  else if r = 14 ∧ d % 2 = 0 ∧ d / 2 < 6 then .monIn (6 * k + d / 2)
  else .rail .vss

/-- The slot of the SerDes template and the ball within it, at a template position (R450). -/
def slotAt (r c : Nat) : Option (Nat × Nat) :=
  ((List.range 9).map fun s => (s, if s = 8 then (13, 66) else (2 + 3 * (s % 4), 60 + 6 * (s / 4)))).findSome? fun x =>
    if r = x.2.1 ∧ x.2.2 ≤ c ∧ c < x.2.2 + 5 ∧ c ≠ x.2.2 + 2 then some (x.1, c - x.2.2) else none

/-- A position of a SerDes corner in the template. -/
def serdesBall (g : Serdes) (r c : Nat) : Ball :=
  match slotAt r c with
  | some (s, j) => if g = .pcie ∧ s = 8 then .rail .vss else .lane g s (decide (3 ≤ j)) (j == 1 || j == 4)
  | none =>
    if r = 13 ∧ c = 60 then .serdesClk g false
    else if r = 13 ∧ c = 61 then .serdesClk g true
    else if r = 1 ∧ 59 ≤ c ∧ c ≤ 64 then .rail .hSerdes
    else if (r = 14 ∧ 59 ≤ c) ∨ (r = 13 ∧ c = 72) ∨ (r = 1 ∧ c = 72) then .rail .serdes
    else .rail .vss

/-- A position of the NW corner (R451). -/
def nwBall (r c : Nat) : Ball :=
  let col : Nat := c / 2 - 1
  let at_ := fun (l : List Ctl) => if c % 2 = 0 ∧ 2 ≤ c ∧ c ≤ 12 then (l[col]?).elim (.rail .vss) Ball.ctl else .rail .vss
  if r = 1 ∨ c = 1 then .reserved
  else if r = 7 ∧ c = 7 then .refclk false
  else if r = 7 ∧ c = 8 then .refclk true
  else if r = 3 then at_ [.porN, .rstN, .perstN, .muteN, .msyncN, .ppsIn]
  else if r = 5 then at_ [.monTrigN, .bootMode0, .bootMode1, .faultN, .thermN, .refPdm]
  else if r = 9 then at_ [.mspiCsN, .mspiSck, .mspiMosi, .mspiMiso, .norCsN, .norSck]
  else if r = 11 then at_ [.norIo0, .norIo1, .norIo2, .norIo3, .tck, .tms]
  else if r = 13 ∧ c ≤ 6 then at_ [.tdi, .tdo, .trstN]
  else if (r = 13 ∧ (c = 10 ∨ c = 12)) ∨ (r = 14 ∧ c % 2 = 0 ∧ c ≤ 12) then .rail .ao
  else .rail .vss

/-- A position of the interior (R452). -/
def innerBall (r c : Nat) : Ball :=
  if (r + c) % 2 = 1 then .rail .vss
  else if r ≤ 17 ∨ 56 ≤ r then .rail .hbm
  else if r ≤ 19 ∨ 54 ≤ r then .rail .qHbm
  else if r = 20 ∨ r = 53 then .rail .ppHbm
  else if r ≤ 22 ∨ 51 ≤ r then .rail .sram
  else .rail .core

/-- What stands at row `r` and column `c`, both from 1 to 72 (R447, R448). -/
def ball (r c : Nat) : Ball :=
  let side := fun (n : Nat) => if n ≤ 14 then 0 else if n ≤ 58 then 1 else 2
  let frame := fun (k : Nat) => turns (4 - k) (r, c)
  match side r, side c with
  | 0, 0 => nwBall r c
  | 0, 2 => serdesBall .pcie r c
  | 2, 2 => let p := turns 3 (r, c); serdesBall .fhg0 p.1 p.2
  | 2, 0 => let p := turns 2 (r, c); serdesBall .fhg1 p.1 p.2
  | 0, _ => ccBall 0 r c
  | 1, 2 => let p := frame 1; ccBall 1 p.1 p.2
  | 2, _ => let p := frame 2; ccBall 2 p.1 p.2
  | 1, 0 => let p := frame 3; ccBall 3 p.1 p.2
  | _, _ => innerBall r c

/-- How many balls satisfy `f`. -/
def ballCount (f : Ball → Bool) : Nat :=
  (List.range 72).foldl (fun a r => a + ((List.range 72).filter fun c => f (ball (r + 1) (c + 1))).length) 0

/-- Code that a monitor input converts a voltage to, in µV, before the range codes (R464, R318). -/
def monInCode (uV : Nat) : Nat := min 4095 ((uV * 4096 * 2 + 1200000) / (2 * 1200000))

end Sys2Proof.Machine
end

