-- ==== Sys2Proof/Tests/Witnesses.lean ====
section
/-! SUPPORT. Tests. For every statement of the obligations that has hypotheses, a theorem `meets_<statement>` shows concrete states and operands that meet them, clause by
clause; what an earlier clause of the same theorem already shows of the same state is not said again, nor are hypotheses about numerals alone. Worked examples of the specification
and ill-formed commands stand in `Tests/Slice0.lean`. -/

open Sys2Proof Sys2Proof.Machine Sys2Proof.Spec

set_option Elab.async false
set_option linter.unusedVariables false

namespace Sys2Proof.Tests

def mk (f : Block → Block) : State := { State.reset with blk := f State.reset.blk }

def at_ (n : Nat) (b : Block) : Block := { b with time := { b.time with elapsed := n } }

def fat (b : Block) := b.fatal 0 C.refLost 0

def ph (n : Nat) (b : Block) := ((b.setFld 0 F.HOST_BOOT_PHASE n)).syn fun y => {y with refOk := true}

def run (b : Block) : Block := let b := ph 8 b; { (b.setFld 0 F.FLT_COLLECT_INFO_PHASE 0) with time := { b.time with running := true, elapsed := 1000, air := 5001000, tickStart := 0, tickEnd := 16384 } }

def endAt (n : Nat) (s : State) : State := {s with blk := {s.blk with time := {s.blk.time with tickEnd := n}}}

namespace W1

def mk (f : Block → Block) : State := { State.reset with blk := f State.reset.blk }
def S0 : State := State.reset
def at_ (n : Nat) (b : Block) : Block := { b with time := { b.time with elapsed := n } }
def S1 := mk (at_ 40000000)
def S2 := mk (at_ 400000000)
def S3 := mk fun b => (at_ 400000000 b).syn fun y => { y with refOk := true }
def fat (b : Block) := b.fatal 0 C.refLost 0
def ph (n : Nat) (b : Block) := ((b.setFld 0 F.HOST_BOOT_PHASE n)).syn fun y => {y with refOk := true}
def s1_1 : State := S1
def s1_2 : State := S2
def s1_3 : State := S3
def s2_0 : State := S0
def s2_3 : State := mk fun b => (fat b).rootState.setHost fun h => {h with porLow := true, resetKind := 1}
def s2_4 : State := mk fun b => b.setHost fun h => {h with rstLow := true, resetKind := 2}
def s2_6 : State := mk fun b => b.setHost fun h => {h with rstLow := true,porLow := true, resetKind := 1}
def s2_7 : State := mk fun b => b.setHost fun h => {h with railLow := true, resetKind := 1}
def s2_8 : State := mk fun b => b.setHost fun h => {h with aoOff := true}
def s3_0 : State := mk (ph 0)
def s3_1 : State := mk (ph 1)
def s3_3 : State := mk (ph 2)
def s3_4 : State := mk (ph 3)
def s3_5 : State := mk (ph 4)
def s3_6 : State := mk fun b => (ph 5 b).setPwr (U.rxc 0) 2
def s3_7 : State := mk (ph 6)
def s4_0 : State := mk fun b => b.setWdn fun w => {w with lcDue := some (2,true)}

theorem meets_lifeCycleChange :
    Settled s4_0 ∧ (s4_0.blk.wdn.lcDue = some (2, true)) ∧ (s4_0.blk.inReset = false) ∧ NoCauses s4_0 :=
  by decide +kernel

theorem meets_referenceClock :
    (Settled s1_1 ∧ (s1_1.blk.inReset = false) ∧ (s1_1.blk.refWait = true) ∧ (s1_1.blk.host.releaseAt + 19660800 ≤ s1_1.blk.t)) ∧
    (Settled s1_2 ∧ (s1_2.blk.inReset = false) ∧ (s1_2.blk.refWait = true) ∧ (s1_2.blk.host.releaseAt + 196608000 ≤ s1_2.blk.t) ∧ (s1_2.blk.fld 0 F.FLT_COLLECT_INFO_PHASE = 1)) ∧
    (Settled s1_3 ∧ (s1_3.blk.inReset = false) ∧ (s1_3.blk.sync.refOk = true) ∧ (s1_3.blk.flag 0 F.FLT_MODE_FATAL = false)) :=
  ⟨by decide +kernel, by decide +kernel, by decide +kernel⟩

theorem meets_releases :
    (Settled s2_8 ∧ (s2_8.blk.host.resetKind < 3) ∧ (s2_8.blk.host.aoOff = true)) ∧
    (Settled s2_3 ∧ (s2_3.blk.host.resetKind < 3) ∧ (s2_3.blk.host.aoOff = false) ∧ NoCauses s2_3 ∧ (s2_3.blk.host.porLow = true) ∧ (s2_3.blk.host.rstLow = false) ∧ (s2_3.blk.host.railLow = false)) ∧
    (Settled s2_6 ∧ (s2_6.blk.host.resetKind < 3) ∧ (s2_6.blk.host.aoOff = false) ∧ NoCauses s2_6 ∧ (s2_6.blk.host.porLow = true) ∧ (s2_6.blk.host.rstLow = true)) ∧
    (Settled s2_4 ∧ (s2_4.blk.host.resetKind < 3) ∧ (s2_4.blk.host.aoOff = false) ∧ NoCauses s2_4 ∧ (s2_4.blk.host.rstLow = true) ∧ (s2_4.blk.host.porLow = false) ∧ (s2_4.blk.host.railLow = false)) ∧
    (Settled s2_7 ∧ (s2_7.blk.host.resetKind < 3) ∧ (s2_7.blk.host.aoOff = false) ∧ NoCauses s2_7 ∧ (s2_7.blk.host.railLow = true) ∧ (s2_7.blk.host.porLow = false) ∧ (s2_7.blk.host.rstLow = false)) :=
  ⟨by decide +kernel, by decide +kernel, by decide +kernel, by decide +kernel, by decide +kernel⟩

theorem meets_resetsKeepAndLose :
    Settled s2_0 ∧ (s2_0.blk.host.aoOff = false) ∧ (s2_0.blk.host.porLow = false) ∧ (s2_0.blk.host.railLow = false) ∧ (s2_0.blk.inReset = false) :=
  by decide +kernel

theorem meets_startUpPhases :
    (InPhase s3_0 0 ∧ (s3_0.blk.sync.refOk = true)) ∧
    (InPhase s3_1 1) ∧
    (InPhase s3_3 2) ∧
    (InPhase s3_4 3 ∧ (s3_4.blk.voided = false) ∧ (s3_4.blk.fld 0 F.HOST_BOOT_BOOT_MODE ≠ 1) ∧ (s3_4.blk.boot.committed = 0) ∧ (s3_4.blk.boot.probation = false) ∧ (s3_4.mem.words = [])) ∧
    (InPhase s3_5 4 ∧ (s3_5.blk.boot.setOk = false)) ∧
    (InPhase s3_6 5) ∧
    (InPhase s3_7 6 ∧ (∀ (k : Nat), k < 32 → s3_7.blk.calDue (U.rxc k) = none ∧ s3_7.blk.calDue (U.txc k) = none)) :=
  by refine ⟨?_, ?_, ?_, ?_, ?_, ?_, ?_⟩ <;> decide +kernel

end W1

namespace W2

def sq (st : SafeStep) : State := mk fun b => let b := (run b).setFlag 0 F.FLT_MODE_SAFE true; {b with flt := {b.flt with safeSeq := [(1000,st)], safeSetters := [U.ts 3], safeAt := some 3}}
def inj (u c k : Nat) (d e : Bool) : State := mk fun b => ((((run b).setFlag 0 F.FLT_CFG_INJ_EN e).setFld 0 F.FLT_INJ_SEL_UID u).setFld 0 F.FLT_INJ_SEL_CODE c).setFld 0 F.FLT_INJ_SEL_CLASS k |>.setFlag 0 F.FLT_INJ_SEL_DRY d
def s1_0 : State := mk run
def s2_0 : State := sq .silent
def s2_4 : State := mk fun b => let b := ((run b).contained (U.ts 3) C.selftest).setState (U.ts 3) 1; let b := b.setFlag 0 F.FLT_MODE_SAFE true; {b with flt := {b.flt with safeSeq := [], safeSetters := [U.ts 3], safeAt := some 3}}
def s3_0 : State := mk run
def s3_2 : State := inj (U.ts 3) C.clamp 1 true true
def s3_7 : State := mk fun b => ((let b := (run b).faultN; {b with flt := {b.flt with pulseEnd := some 1000, pinLowAt := some 500}}).setFlag 0 F.FLT_PIN_DRIVE false)
def s4_0 : State := mk run
def s4_3 : State := State.reset

theorem meets_faultTests :
    (Takes s3_0 Who.warden 0 ∧ (s3_0.blk.fld 0 F.FLT_COLLECT_INFO_PHASE = 0) ∧ Takes s3_0 Who.pf 0 ∧ (whoPfSys Who.pf = true)) ∧
    (Settled s3_7 ∧ (s3_7.blk.flt.pulseEnd = some 1000) ∧ DueNow s3_7 1000) ∧
    ((s3_0.blk.flag 0 F.FLT_CFG_INJ_EN = false ∨ whoPfSys Who.pf = false ∨ s3_0.blk.fld 0 F.FLT_INJ_SEL_CLASS = 0 ∨ classOf (s3_0.blk.fld 0 F.FLT_INJ_SEL_CODE) = 0 ∨ s3_0.blk.fld 0 F.FLT_INJ_SEL_CLASS = 3 ∧ s3_0.blk.flag 0 F.FLT_INJ_SEL_DRY = false ∧ s3_0.blk.lcTest = false)) ∧
    (Takes s3_2 Who.pf 0 ∧ (¬(s3_2.blk.flag 0 F.FLT_CFG_INJ_EN = false ∨ whoPfSys Who.pf = false ∨ s3_2.blk.fld 0 F.FLT_INJ_SEL_CLASS = 0 ∨ classOf (s3_2.blk.fld 0 F.FLT_INJ_SEL_CODE) = 0 ∨ s3_2.blk.fld 0 F.FLT_INJ_SEL_CLASS = 3 ∧ s3_2.blk.flag 0 F.FLT_INJ_SEL_DRY = false ∧ s3_2.blk.lcTest = false)) ∧ (reservedUid (s3_2.blk.fld 0 F.FLT_INJ_SEL_UID) = false) ∧ (s3_2.blk.flag 0 F.FLT_INJ_SEL_DRY = true)) :=
  ⟨by decide +kernel, by decide +kernel, by decide +kernel, by decide +kernel⟩

theorem meets_faultsByClass :
    (Settled s1_0 ∧ (s1_0.blk.inReset = false) ∧ (reservedUid (U.ts 3) = false) ∧ (classOf C.clamp = 1) ∧ (classOf C.selftest = 2) ∧ (C.selftest ≠ C.bistFail) ∧ loneKind (U.ts 3) ∧ (s1_0.blk.fld (U.ts 3) F.UNIT_FAULT_CLASS < 3) ∧ (C.bistFail = C.bistFail)) ∧
    ((reservedUid 0 = false) ∧ (classOf C.refLost = 3) ∧ (0 = 0 ∨ kindOf 0 = 8)) :=
  ⟨by decide +kernel, by decide +kernel⟩

theorem meets_tickBoundary :
    (Settled s4_0 ∧ (s4_0.blk.time.running = true) ∧ (s4_0.blk.inReset = false) ∧ (s4_0.blk.t < s4_0.blk.time.tickEnd)) ∧
    (Settled s4_3 ∧ (s4_3.blk.time.running = false ∨ s4_3.blk.inReset = true)) :=
  ⟨by decide +kernel, by decide +kernel⟩

theorem meets_safeStates :
    (Settled s2_0 ∧ (s2_0.blk.flt.safeSeq = [(1000, SafeStep.silent)]) ∧ DueNow s2_0 1000 ∧ Takes s2_0 Who.runtime 0 ∧ (whoSys Who.runtime = true) ∧ (s2_0.blk.flag 0 F.FLT_MODE_SAFE = true) ∧ (s2_0.blk.flt.safeAt ≠ some s2_0.blk.t) ∧ (∀ (u : Nat), u ∈ s2_0.blk.flt.safeSetters → s2_0.blk.ownState u ∈ [4, 6] ∨ s2_0.blk.flag u F.UNIT_FAULT_CONTAINED = false)) ∧
    (Settled s2_4 ∧ Takes s2_4 Who.runtime 0 ∧ (s2_4.blk.flag 0 F.FLT_MODE_SAFE = true) ∧ (s2_4.blk.flt.safeAt ≠ some s2_4.blk.t) ∧ (∃ (u : Nat), u ∈ s2_4.blk.flt.safeSetters ∧ ¬s2_4.blk.ownState u ∈ [4, 6] ∧ s2_4.blk.flag u F.UNIT_FAULT_CONTAINED = true)) ∧
    (Takes s2_0 Who.pf 0 ∧ (Who.pf = Who.pf) ∧ (whoPfSys Who.pf = true)) :=
  ⟨by decide +kernel, by decide +kernel, by decide +kernel⟩

end W2

namespace W3

def en (f : Fld) (b : Block) := b.setFlag U.sync f true
def pps (e : Nat) (b : Block) : Block := ((en F.SYNC_CFG_PPS_EN (at_ 4000000000 (run b))).setFlag U.sync F.SYNC_TOD_VALID true).syn fun y => {y with ppsEdge := some e, ppsRun := 2, todWritten := true, todCount := some 5}
def endB (n : Nat) (b : Block) : Block := {b with time := {b.time with tickEnd := n}}
def master (id cls at0 : Nat) : PtpMaster := { id := id, cls := cls, acc := 33, var := 20061, prio2 := 128, gm := 5, steps := 0, at_ := at0, ivl := 200 }
def ptp (b : Block) : Block := ((en F.SYNC_CFG_PTP_EN (run b)).setFld (U.fh 0) F.FH_STAT_LINK 2).syn fun y =>
  {y with ptpRun := 15, masters := [master 9 7 400, master 8 6 400, master 7 248 700]}
def stp (d : Int) (n : Nat) (f : Bool) : State := mk fun b => (run b).syn fun y => {y with step := some (d,n,f,2)}
def lk (b : Block) : Block := ((run b).setFld U.sync F.SYNC_STAT_STATE 1).setFld U.sync F.SYNC_STAT_SOURCE 2 |>.setFlag U.sync F.SYNC_STAT_EVER_LOCKED true |>.syn fun y => {y with losses := [2]}
def ho (b : Block) : Block := en F.SYNC_CFG_TRK_EN (en F.SYNC_STAT_TRK_QUAL (en F.SYNC_CFG_PPS_EN (en F.SYNC_STAT_PPS_QUAL (en F.SYNC_CFG_AUTO_RETURN (lk b))))) |>.setFld U.sync F.SYNC_STEER_HOLDOFF 0 |>.syn fun y => {y with qualAt := Store.set 0 y.qualAt 1 1001}
def s1_0 : State := mk run
def s1_1 : State := mk fun b => en F.SYNC_CFG_TRK_EN (run b)
def s2_1 : State := mk fun b => (pps 3 b).syn fun y => {y with ppsEdge := none}
def s2_4 : State := mk fun b => endB 5000000000 (pps (4000000000-1966080000-1967) b)
def s3_0 : State := mk run
def s3_1 : State := mk ptp
def s4_0 : State := stp 5000 1000 true
def s4_2 : State := stp 5000 10000 true
def s5_0 : State := mk run
def s5_1 : State := mk lk
def s5_2 : State := mk fun b => (run b).syn fun y => {y with resync := true}
def s5_3 : State := mk fun b => en F.SYNC_CFG_PPS_EN (en F.SYNC_STAT_PPS_QUAL (run b))
def s6_0 : State := mk run
def s6_1 : State := mk ho

theorem meets_precisionTime :
    (Settled s3_0 ∧ (s3_0.blk.fld (U.fh 1) F.FH_STAT_LINK ≠ 2)) ∧
    (Settled s3_1 ∧ (s3_1.blk.fld (U.fh 0) F.FH_STAT_LINK = 2) ∧ (s3_1.blk.flag U.sync F.SYNC_CFG_PTP_EN = true) ∧ (0 = s3_1.blk.fld U.sync F.SYNC_PTP_CFG_PORT) ∧ (24 = s3_1.blk.fld U.sync F.SYNC_PTP_CFG_DOMAIN)) ∧
    ((s3_1.blk.ptpBest = some (master 8 6 400)) ∧ ((master 8 6 400).id = 8) ∧ (s3_1.blk.ptpBest.map (·.id) ≠ some 9) ∧ ((master 4 3 1000).at_ = s3_1.blk.t) ∧ (24 ≠ s3_1.blk.fld U.sync F.SYNC_PTP_CFG_DOMAIN + 1)) ∧
    (DueNow s3_1 ((master 8 6 400).at_ + 3 * (master 8 6 400).ivl)) ∧
    (Takes s3_0 Who.pf U.sync ∧ (s3_0.blk.time.coll = [])) :=
  ⟨by decide +kernel, by decide +kernel, by decide +kernel, by decide +kernel, by decide +kernel⟩

theorem meets_pulsePerSecond :
    (Settled s2_1 ∧ (s2_1.blk.flag U.sync F.SYNC_CFG_PPS_EN = true) ∧ (s2_1.blk.flag U.sync F.SYNC_TOD_VALID = true)) ∧
    (Settled s2_4 ∧ (s2_4.blk.flag U.sync F.SYNC_CFG_PPS_EN = true) ∧ (s2_4.blk.sync.ppsEdge = some 2033918033) ∧ DueNow s2_4 (2033918033 + 1966080000 + 1967)) :=
  ⟨by decide +kernel, by decide +kernel⟩

theorem meets_syncAtTheBoundary :
    (Settled s5_0 ∧ (s5_0.blk.time.running = true) ∧ (s5_0.blk.inReset = false) ∧ (s5_0.blk.t < s5_0.blk.time.tickEnd) ∧ (s5_0.blk.sync.step = none) ∧ (s5_0.blk.syncState = 0) ∧ (s5_0.blk.sync.resync = false) ∧ (s5_0.blk.candidates = [])) ∧
    (Settled s5_3 ∧ (s5_3.blk.time.running = true) ∧ (s5_3.blk.inReset = false) ∧ (s5_3.blk.t < s5_3.blk.time.tickEnd) ∧ (s5_3.blk.sync.step = none) ∧ (s5_3.blk.syncState = 0) ∧ (s5_3.blk.sync.resync = false) ∧ (s5_3.blk.everLocked = false) ∧ (s5_3.blk.candidates ≠ [])) ∧
    (Settled s5_1 ∧ (s5_1.blk.time.running = true) ∧ (s5_1.blk.inReset = false) ∧ (s5_1.blk.t < s5_1.blk.time.tickEnd) ∧ (s5_1.blk.sync.step = none) ∧ (s5_1.blk.syncState = 1) ∧ (s5_1.blk.sync.resync = false) ∧ s5_1.blk.syncSource ∈ s5_1.blk.sync.losses ∧ (s5_1.blk.candidates = []) ∧ (s5_1.blk.everLocked = true)) ∧
    (Settled s5_2 ∧ (s5_2.blk.time.running = true) ∧ (s5_2.blk.inReset = false) ∧ (s5_2.blk.t < s5_2.blk.time.tickEnd) ∧ (s5_2.blk.sync.step = none) ∧ (s5_2.blk.sync.resync = true)) :=
  ⟨by decide +kernel, by decide +kernel, by decide +kernel, by decide +kernel⟩

theorem meets_syncCommands :
    (Settled s6_1 ∧ (s6_1.blk.holdoffDue = some (1, 1000)) ∧ DueNow s6_1 1000) ∧
    (Takes s6_0 Who.pf U.sync ∧ (s6_0.blk.time.coll = []) ∧ Settled s6_0 ∧ (s6_0.blk.host.aoOff = false)) :=
  ⟨by decide +kernel, by decide +kernel⟩

theorem meets_timeSteps :
    (Settled s4_2 ∧ (s4_2.blk.sync.step = some (5000, 10000, true, 2)) ∧ (s4_2.blk.t < 10000)) ∧
    (Settled s4_0 ∧ (s4_0.blk.sync.step = some (5000, 1000, true, 2)) ∧ (1000 ≤ s4_0.blk.t)) :=
  ⟨by decide +kernel, by decide +kernel⟩

theorem meets_trackerBursts :
    (Settled s1_0 ∧ (s1_0.blk.flag U.sync F.SYNC_CFG_TRK_EN = false)) ∧
    (Settled s1_1 ∧ (s1_1.blk.flag U.sync F.SYNC_CFG_TRK_EN = true)) :=
  ⟨by decide +kernel, by decide +kernel⟩

end W3

namespace W4

def pat5 (b : Block) : Block := ((b.setReg (U.pb 5) R.PB_TDD_P1 (BitVec.ofNat 64 (9 + (2 <<< 8) + (2 <<< 24)))).setFld (U.pb 5) F.PB_CFG_MU 1).setFlag (U.pb 5) F.PB_CFG_DUPLEX true
def ds (st : DirStep) (due tol : Nat) : DirSched := ⟨due,.service,st,.ul,tol,7⟩
def sd (x : DirSched) : State := mk fun b => let b := pat5 (run b); b.setPbH 5 {b.pbH 5 with steps := [x]}
def cbs (w : Nat) (b : Block) : Block := ((run b).setFlag (U.pb 5) F.PB_CB_ADDR_AUTOINC true).setFld (U.pb 5) F.PB_CB_ADDR_WORD w |>.setFld (U.pb 5) F.PB_CB_ADDR_ENTRY 9
def ib (m : Nat) (b : Block) : Block := (run b).setState (U.pbd m) 2
def rt (x : RetuneSt) (hr : Option Nat := none) (n : Nat := 1000): State := mk fun b => let b := at_ n (ib 11 b); b.setPbdH 11 {b.pbdH 11 with retune := x, heldRetune := hr, extSettle := some 1000, extGate := true}
def s10_2 : State := rt (.ramp 744)
def s1_0 : State := mk run
def s1_4 : State := mk fun b => (run b).setPbH 5 {((run b).pbH 5) with pending := some (⟨1,2,1,0⟩, 5001000), nextCues := [4]}
def s6_0 : State := sd (ds .full 5001000 0)
def s9_0 : State := mk run
def s9_1 : State := mk (cbs 3)
def s9_4 : State := mk (ib 11)

theorem meets_codebooksAndFilters :
    ((s9_1.blk.time.coll = []) ∧ Takes s9_1 Who.pf (U.pb 5) ∧ (s9_1.blk.fld (U.pbd (2 * 5)) (if s9_1.blk.fld (U.pb 5) F.PB_CB_ADDR_SIDE = 1 then F.PBD_BEAM_SV else F.PBD_BEAM_DN) ≠ s9_1.blk.fld (U.pb 5) F.PB_CB_ADDR_ENTRY ∧ s9_1.blk.fld (U.pbd (2 * 5 + 1)) (if s9_1.blk.fld (U.pb 5) F.PB_CB_ADDR_SIDE = 1 then F.PBD_BEAM_SV else F.PBD_BEAM_DN) ≠ s9_1.blk.fld (U.pb 5) F.PB_CB_ADDR_ENTRY)) ∧
    ((s9_0.blk.time.coll = []) ∧ Takes s9_0 Who.pf (U.pb 5) ∧ (s9_0.blk.fld (U.pbd (2 * 5)) (if s9_0.blk.fld (U.pb 5) F.PB_CB_ADDR_SIDE = 1 then F.PBD_BEAM_SV else F.PBD_BEAM_DN) = s9_0.blk.fld (U.pb 5) F.PB_CB_ADDR_ENTRY) ∧ Takes s9_0 Who.pf (U.pbd 11) ∧ (s9_0.blk.bankBusy 11 (s9_0.blk.flag (U.pbd 11) F.PBD_FCOEF_ADDR_BANK) = false) ∧ (Half.both ≠ Half.hi)) ∧
    ((s9_4.blk.time.coll = []) ∧ Takes s9_4 Who.pf (U.pbd 11) ∧ (s9_4.blk.bankBusy 11 (s9_4.blk.flag (U.pbd 11) F.PBD_FCOEF_ADDR_BANK) = true)) ∧
    (Settled s9_0 ∧ (s9_0.blk.time.running = true) ∧ (s9_0.blk.inReset = false)) :=
  ⟨by decide +kernel, by decide +kernel, by decide +kernel, by decide +kernel⟩

theorem meets_directionSteps :
    Settled s6_0 ∧ ((s6_0.blk.pbH 5).steps = [ds DirStep.full 5001000 0]) ∧ DueNow s6_0 (s6_0.blk.elapsedOfAir (ds DirStep.full 5001000 0).due) :=
  by decide +kernel

theorem meets_retunes :
    Settled s10_2 ∧ ((s10_2.blk.pbdH 11).retune = RetuneSt.ramp 744) ∧ DueNow s10_2 (744 + 256) :=
  by decide +kernel

theorem meets_tddPatterns :
    (Takes s1_0 Who.pf (U.pb 5) ∧ (s1_0.blk.time.coll = [])) ∧
    (Settled s1_4 ∧ ((s1_4.blk.pbH 5).pending = some ({ p1 := 1, p2 := 2, mu := 1 : TddPat }, 5001000)) ∧ DueNow s1_4 (s1_4.blk.elapsedOfAir 5001000)) :=
  ⟨by decide +kernel, by decide +kernel⟩

end W4

namespace W4b

def ib (m : Nat) (b : Block) : Block := (run b).setState (U.pbd m) 2
def L := latencyTc ((mk run).blk.rateOf 11)
def rt (x : RetuneSt) (hr : Option Nat := none) (n : Nat := 1000): State := mk fun b => let b := at_ n (ib 11 b); b.setPbdH 11 {b.pbdH 11 with retune := x, heldRetune := hr, extSettle := some 1000, extGate := true}
def s1_0 : State := endAt 1000000 (rt (.refill 500) none (756+L))
def s1_1 : State := endAt 1000000 (rt (.rise 500) none (1012+L))
def s1_3 : State := rt (.asked 900)
def s1_4 : State := {rt (.asked 300) with blk := {(rt (.asked 300)).blk with time := {(rt (.asked 300)).blk.time with tickStart := 1000}}}

theorem meets_retunes_2 :
    (Takes s1_0 Who.pf (U.pbd 11) ∧ (s1_0.blk.time.coll = [])) ∧
    (Settled s1_4 ∧ ((s1_4.blk.pbdH 11).retune = RetuneSt.asked 300) ∧ ((s1_4.blk.pbdH 11).cueNco = none) ∧ (s1_4.blk.t = s1_4.blk.time.tickStart) ∧ (300 + 256 ≤ s1_4.blk.t)) ∧
    (Settled s1_3 ∧ ((s1_3.blk.pbdH 11).retune = RetuneSt.asked 900) ∧ ((s1_3.blk.pbdH 11).cueNco = none) ∧ (s1_3.blk.t < 900 + 256)) ∧
    (Settled s1_0 ∧ ((s1_0.blk.pbdH 11).retune = RetuneSt.refill 500) ∧ DueNow s1_0 (500 + 256 + latencyTc (s1_0.blk.rateOf 11))) ∧
    (Settled s1_1 ∧ ((s1_1.blk.pbdH 11).retune = RetuneSt.rise 500) ∧ DueNow s1_1 (500 + 512 + latencyTc (s1_1.blk.rateOf 11))) ∧
    (((s1_3.blk.pbdH 11).extSettle = some 1000) ∧ DueNow s1_3 1000) :=
  by refine ⟨?_, ?_, ?_, ?_, ?_, ?_⟩ <;> decide +kernel

end W4b

namespace W5

def rx2 (l : Option Nat) (b : Block) : Block := let b := (run b).setFld (U.rxc 5) F.RXC_STAT_CH_STATE 2; b.setRxcH 5 {b.rxcH 5 with lastOvr := l, insts := [(7,0)], fillDue := some 1000}
def tx (st : TxStep) : State := mk fun b => let b := run b; b.setTxcH 5 {b.txcH 5 with seq := [(1000, st)], out := true}
def at' (f : Block → Block) : State := mk fun b => at_ 2000 (f b)
def bg (f j : Nat) (b : Block) : Block := let b := rx2 none b; let b := (b.setFld (U.rxc 5) F.RXC_SLICE_OUT j).setFld (U.rxc 5) F.RXC_SLICE_FAILED f; let b := b.setRxcH 5 {b.rxcH 5 with turnTicks := 984}; {b with time := {b.time with tickStart := 1000}}
def sy (hop : Option (Nat×Nat×Bool)) (b : Block) : Block := let b := ((run b).setPwr (U.sy 3) 2).setState (U.sy 3) 2; let b := b.setSyH 3 {b.syH 3 with hop := hop, cal := [(5,{word := 0x50000000, valid := true}),(6,{word := 0x50000000})]}
  b.setFld (U.sy 3) F.SY_CAL_ADDR_ENTRY 6
def w3 (b : Block) : Block := let b := sy none b; let b := ((b.setFld (U.txc 7) F.TXC_CFG_SY 3).setFlag (U.txc 7) F.TXC_CFG_SY_EN true).setFld (U.sy 3) F.SY_CFG_LOCK_MAX 40; let b := b.setTxcH 7 {b.txcH 7 with waitFrom := some 500}; at_ (500+78644) b
def s1_0 : State := mk run
def s1_1 : State := mk (rx2 none)
def s1_3 : State := at' (rx2 (some 976))
def s1_4 : State := tx .silent
def s2_0 : State := mk run
def s2_1 : State := mk (bg 0 16)
def s2_4 : State := mk fun b => (run b).setFlag (U.cc 1) F.CC_STAT_CLK_LOCK true
def s3_0 : State := mk (sy none)
def s3_1 : State := mk (sy (some (5,900,true)))
def s3_2 : State := mk fun b => ((sy none b).setFld (U.sy 3) F.SY_STAT_STATE 1).setFld (U.sy 3) F.SY_STAT_ENTRY 6
def s4_0 : State := mk (sy (some (5,700,true)))
def s4_2 : State := mk (sy (some (5,900,true)))
def s4_3 : State := endAt 3000000 (mk fun b => at_ (1966080+700) (sy (some (5,700,true)) b))
def s4_4 : State := endAt 3000000 (mk w3)
def s4_5 : State := mk fun b => (sy none b).setFld (U.sy 3) F.SY_STAT_STATE 1
def s4_6 : State := mk fun b => let b := sy none b; b.setSyH 3 {b.syH 3 with relock := some 1000}

theorem meets_channelEvents :
    (Settled s1_0 ∧ (s1_0.blk.fld (U.rxc 5) F.RXC_STAT_CH_STATE ≠ 2)) ∧
    (Settled s1_1 ∧ (s1_1.blk.fld (U.rxc 5) F.RXC_STAT_CH_STATE = 2)) ∧
    (Settled s1_3 ∧ ((s1_3.blk.rxcH 5).lastOvr = some 976) ∧ DueNow s1_3 (976 + 1024)) ∧
    (((s1_1.blk.rxcH 5).fillDue = some 1000) ∧ DueNow s1_1 1000) ∧
    (Settled s1_4 ∧ ((s1_4.blk.txcH 5).seq = [(1000, TxStep.silent)]) ∧ DueNow s1_4 1000) :=
  ⟨by decide +kernel, by decide +kernel, by decide +kernel, by decide +kernel, by decide +kernel⟩

theorem meets_slicesAndClocks :
    (Settled s2_0 ∧ (¬((s2_0.blk.fld (U.rxc 5) F.RXC_STAT_CH_STATE = 1 ∨ s2_0.blk.fld (U.rxc 5) F.RXC_STAT_CH_STATE = 2) ∧ 984 ≤ (s2_0.blk.rxcH 5).turnTicks ∧ s2_0.blk.t = s2_0.blk.time.tickStart ∧ s2_0.blk.flag (U.rxc 5) F.RXC_CFG_BG_HOLD = false ∧ s2_0.blk.flag (U.rxc 5) F.RXC_STAT_CAL_FROZEN = false))) ∧
    (Settled s2_1 ∧ ((s2_1.blk.fld (U.rxc 5) F.RXC_STAT_CH_STATE = 1 ∨ s2_1.blk.fld (U.rxc 5) F.RXC_STAT_CH_STATE = 2) ∧ 984 ≤ (s2_1.blk.rxcH 5).turnTicks ∧ s2_1.blk.t = s2_1.blk.time.tickStart ∧ s2_1.blk.flag (U.rxc 5) F.RXC_CFG_BG_HOLD = false ∧ s2_1.blk.flag (U.rxc 5) F.RXC_STAT_CAL_FROZEN = false) ∧ (s2_1.blk.fld (U.rxc 5) F.RXC_SLICE_OUT < 17) ∧ withinLimits 0 ∧ (true = true) ∧ (¬withinLimits 513 ∨ false = false) ∧ ((s2_1.blk.fld (U.rxc 5) F.RXC_SLICE_FAILED).testBit (s2_1.blk.fld (U.rxc 5) F.RXC_SLICE_OUT) = false)) ∧
    (Settled s2_4 ∧ (s2_4.blk.flag (U.cc 1) F.CC_STAT_CLK_LOCK = true)) :=
  ⟨by decide +kernel, by decide +kernel, by decide +kernel⟩

theorem meets_synthesiserCommands :
    (Takes s3_0 Who.pf (U.sy 3) ∧ (s3_0.blk.time.coll = []) ∧ (s3_0.blk.usable (U.sy 3) = true) ∧ (syWordOk (syEnt s3_0 3 5).word = true) ∧ NoAsks s3_0 3 ∧ ((s3_0.blk.syH 3).hop = none)) ∧
    (Takes s3_1 Who.pf (U.sy 3) ∧ (s3_1.blk.time.coll = []) ∧ (s3_1.blk.usable (U.sy 3) = true) ∧ (syWordOk (syEnt s3_1 3 5).word = true) ∧ NoAsks s3_1 3 ∧ ((s3_1.blk.syH 3).hop = some (5, 900, true)) ∧ (900 < s3_1.blk.t)) ∧
    (Takes s3_0 Who.runtime (U.sy 3) ∧ (syWordOk (syEnt s3_0 3 9).word = false) ∧ (Store.wf SyCal.init (s3_0.blk.syH 3).cal = true) ∧ (∀ (x : Nat × SyCal), x ∈ (s3_0.blk.syH 3).cal → x.fst < 4096) ∧ (s3_0.blk.fld (U.sy 3) F.SY_STAT_STATE = 0 ∨ s3_0.blk.fld (U.sy 3) F.SY_STAT_ENTRY ≠ s3_0.blk.fld (U.sy 3) F.SY_CAL_ADDR_ENTRY)) ∧
    (Takes s3_2 Who.pf (U.sy 3) ∧ (s3_2.blk.time.coll = []) ∧ (s3_2.blk.fld (U.sy 3) F.SY_STAT_STATE ≠ 0) ∧ (s3_2.blk.fld (U.sy 3) F.SY_STAT_ENTRY = s3_2.blk.fld (U.sy 3) F.SY_CAL_ADDR_ENTRY)) :=
  ⟨by decide +kernel, by decide +kernel, by decide +kernel, by decide +kernel⟩

theorem meets_synthesiserLocks :
    (Settled s4_0 ∧ ((s4_0.blk.syH 3).hop = some (5, 700, true)) ∧ ((s4_0.blk.syH 3).queued = none) ∧ (700 + 256 ≤ s4_0.blk.t) ∧ (s4_0.blk.t ≤ 700 + 256 + 786432)) ∧
    (Settled s4_2 ∧ ((s4_2.blk.syH 3).hop = some (5, 900, true)) ∧ ((s4_2.blk.syH 3).queued = none) ∧ (s4_2.blk.t < 900 + 256)) ∧
    (Settled s4_3 ∧ ((s4_3.blk.syH 3).hop = some (5, 700, true)) ∧ ((s4_3.blk.syH 3).queued = none) ∧ (true = true) ∧ DueNow s4_3 (700 + 1966080) ∧ (s4_3.blk.ownState (U.sy 3) ≠ 6)) ∧
    (Settled s4_5 ∧ (s4_5.blk.fld (U.sy 3) F.SY_STAT_STATE = 1)) ∧
    (Settled s4_6 ∧ ((s4_6.blk.syH 3).hop = none) ∧ ((s4_6.blk.syH 3).relock = some 1000) ∧ (s4_6.blk.t ≤ 1000)) ∧
    (Settled s4_4 ∧ (s4_4.blk.lockDue 3 = some 79144) ∧ DueNow s4_4 79144 ∧ (s4_4.blk.ownState (U.sy 3) ≠ 6)) :=
  by refine ⟨?_, ?_, ?_, ?_, ?_, ?_⟩ <;> decide +kernel

end W5

namespace W6

def r5 : RffeRun := ⟨5,[1],1000,false⟩
def cc (b : Block) : Block := let b := run b; [0,1,2,3].foldl (fun b c => [0,1,2,3].foldl (fun b x => b.setFlag (U.cc c) (F.CC_RFFE_EN x) true) b) b
def fr : Word := BitVec.ofNat 64 (1 + (2 <<< 2) + 0x5a0000)
def wm (s : State) : State := {s with mem := (s.mem.wr .ccSeq (seqWord 1 9 0) (fr.setWidth 128)).wr .ccSeq (seqWord 2 9 0) (fr.setWidth 128)}
def c1 (h : CcH) (b : Block) : Block := (cc b).setCcH 1 h
def or_ (n : Nat) (h : OrxH) (b : Block) : Block := ((run b).setFld (U.orx 3) F.ORX_CTRL_N_ENT n).setOrxH 3 h
def pl (b : Block) : Block := let b := cc b; let b := b.setFld (U.pbd 7) (F.PBD_EXT_SEQ 4) 9; b.setPbdH 7 {b.pbdH 7 with pendingEntry := some (4, 1000 + (wm (mk cc)).blk.seqTime (wm (mk cc)).mem 9, false)}
def s1_0 : State := mk cc
def s1_2 : State := mk fun b => ((cc b).setFld (U.cc 1) (F.CC_STB_CFG_FUNC 3) 2).setFld (U.txc 0) F.TXC_STAT_CH_STATE 3
def s1_3 : State := mk fun b => (c1 {running := [r5]} b).setFld (U.cc 1) F.CC_SEQ_ADDR_SLOT 5
def s2_0 : State := wm (mk cc)
def s2_1 : State := wm (mk run)
def s2_2 : State := wm (mk (c1 {running := [r5]}))
def s2_3 : State := wm (mk (c1 {waiting := some 9}))
def s2_4 : State := mk (c1 {cmdRunning := some (BitVec.ofNat 64 (8*4+1), 1000)})
def s3_0 : State := wm (mk pl)
def s3_1 : State := wm (mk fun b => (pl b).setCcH 2 {running := [r5]})
def s3_2 : State := mk (or_ 0 {})
def s3_3 : State := mk (or_ 3 {settleEnd := some 1000, adv := true, table := [0,BitVec.ofNat 64 (7 + (3 <<< 8) + (5 <<< 16) + (100 <<< 32)),2]})

theorem meets_frontEndBuses :
    (Takes s2_0 Who.pf (U.cc 1) ∧ (s2_0.blk.time.coll = []) ∧ busesIdle s2_0) ∧
    (Takes s2_2 Who.pf (U.cc 1) ∧ (s2_2.blk.time.coll = []) ∧ (∀ (x : Nat × Nat), x ∈ seqBuses s2_2.mem 9 → s2_2.blk.busOff x.fst x.snd = false) ∧ (∃ (x : Nat × Nat), x ∈ seqBuses s2_2.mem 9 ∧ s2_2.blk.busBusy x.fst x.snd = true) ∧ ((s2_2.blk.ccH 1).waiting = none)) ∧
    (Takes s2_1 Who.pf (U.cc 1) ∧ (s2_1.blk.time.coll = []) ∧ (∃ (x : Nat × Nat), x ∈ seqBuses s2_1.mem 9 ∧ s2_1.blk.busOff x.fst x.snd = true)) ∧
    (((s2_0.blk.ccH 1).cmdRunning = none) ∧ (1 ≤ Word.fld fr 5 2) ∧ (Word.fld fr 5 2 ≤ 5) ∧ (cmdTypeOk (Word.fld 1073741823 5 2) = false)) ∧
    (Settled s2_3 ∧ busesIdle s2_3 ∧ ((s2_3.blk.ccH 1).waiting = some 9)) ∧
    (Settled s2_2 ∧ ((s2_2.blk.ccH 1).running = [r5]) ∧ ((s2_2.blk.ccH 1).cmd = none) ∧ DueNow s2_2 r5.due) ∧
    (Settled s2_4 ∧ ((s2_4.blk.ccH 1).cmdRunning = some (BitVec.ofNat 64 (8 * 4 + 1), 1000)) ∧ ((s2_4.blk.ccH 1).cmd = none) ∧ DueNow s2_4 1000) :=
  by refine ⟨?_, ?_, ?_, ?_, ?_, ?_, ?_⟩ <;> decide +kernel

theorem meets_frontEndWrites :
    (Takes s1_0 Who.pf (U.cc 1) ∧ (s1_0.blk.time.coll = []) ∧ (¬((s1_0.blk.fld (U.cc 1) (F.CC_STB_CFG_FUNC 3) = 2 ∨ s1_0.blk.fld (U.cc 1) (F.CC_STB_CFG_FUNC 3) = 3) ∧ (s1_0.blk.fld (U.txc (s1_0.blk.fld (U.cc 1) (F.CC_STB_CFG_TXC 3))) F.TXC_STAT_CH_STATE = 3 ∨ s1_0.blk.fld (U.txc (s1_0.blk.fld (U.cc 1) (F.CC_STB_CFG_TXC 3))) F.TXC_STAT_CH_STATE = 4)))) ∧
    (Takes s1_2 Who.pf (U.cc 1) ∧ (s1_2.blk.time.coll = []) ∧ ((s1_2.blk.fld (U.cc 1) (F.CC_STB_CFG_FUNC 3) = 2 ∨ s1_2.blk.fld (U.cc 1) (F.CC_STB_CFG_FUNC 3) = 3) ∧ (s1_2.blk.fld (U.txc (s1_2.blk.fld (U.cc 1) (F.CC_STB_CFG_TXC 3))) F.TXC_STAT_CH_STATE = 3 ∨ s1_2.blk.fld (U.txc (s1_2.blk.fld (U.cc 1) (F.CC_STB_CFG_TXC 3))) F.TXC_STAT_CH_STATE = 4))) ∧
    ((∀ (r : RffeRun), r ∈ (s1_0.blk.ccH 1).running → r.slot ≠ s1_0.blk.fld (U.cc 1) F.CC_SEQ_ADDR_SLOT) ∧ (Word.fld fr 5 2 ≤ 5) ∧ (5 < Word.fld 1073741823 5 2)) ∧
    (Takes s1_3 Who.pf (U.cc 1) ∧ (s1_3.blk.time.coll = []) ∧ (∃ (r : RffeRun), r ∈ (s1_3.blk.ccH 1).running ∧ r.slot = s1_3.blk.fld (U.cc 1) F.CC_SEQ_ADDR_SLOT)) :=
  ⟨by decide +kernel, by decide +kernel, by decide +kernel, by decide +kernel⟩

theorem meets_plannerAndObservation :
    (Settled s3_0 ∧ ((s3_0.blk.pbdH 7).pendingEntry = some (4, 1000 + (wm (mk cc)).blk.seqTime (wm (mk cc)).mem 9, false)) ∧ (s3_0.blk.planStart s3_0.mem 7 4 (1000 + (wm (mk cc)).blk.seqTime (wm (mk cc)).mem 9) = ↑s3_0.blk.t) ∧ DueNow s3_0 s3_0.blk.t ∧ (s3_0.blk.seqBlocked s3_0.mem (s3_0.blk.pathFld 7 (F.PBD_EXT_SEQ 4)) = [])) ∧
    (Settled s3_1 ∧ ((s3_1.blk.pbdH 7).pendingEntry = some (4, 1000 + (wm (mk cc)).blk.seqTime (wm (mk cc)).mem 9, false)) ∧ (s3_1.blk.planStart s3_1.mem 7 4 (1000 + (wm (mk cc)).blk.seqTime (wm (mk cc)).mem 9) = ↑s3_1.blk.t) ∧ DueNow s3_1 s3_1.blk.t ∧ (s3_1.blk.seqBlocked s3_1.mem (s3_1.blk.pathFld 7 (F.PBD_EXT_SEQ 4)) ≠ [])) ∧
    (Takes s3_2 Who.pf (U.orx 3) ∧ (s3_2.blk.time.coll = []) ∧ (true = true) ∧ (s3_2.blk.fld (U.orx 3) F.ORX_CTRL_N_ENT = 0 ∨ 16 < s3_2.blk.fld (U.orx 3) F.ORX_CTRL_N_ENT)) ∧
    (Takes s3_0 Who.pf (U.orx 3) ∧ (s3_0.blk.time.coll = []) ∧ (true = true → 1 ≤ s3_0.blk.fld (U.orx 3) F.ORX_CTRL_N_ENT ∧ s3_0.blk.fld (U.orx 3) F.ORX_CTRL_N_ENT ≤ 16) ∧ (s3_0.blk.flag (U.orx 3) F.ORX_CTRL_RUN ≠ true)) ∧
    (Settled s3_3 ∧ ((s3_3.blk.orxH 3).adv = true) ∧ (s3_3.blk.fld (U.orx 3) F.ORX_STAT_ENTRY + 1 < (s3_3.blk.orxH 3).table.length) ∧ ((s3_3.blk.orxH 3).table.length ≤ 16) ∧ ((s3_3.blk.orxH 3).settleEnd = some 1000) ∧ DueNow s3_3 1000) :=
  ⟨by decide +kernel, by decide +kernel, by decide +kernel, by decide +kernel, by decide +kernel⟩

end W6

namespace W7

def ln (st ad : Nat) (h : LaneH → LaneH) (b : Block) : Block :=
  let b := (run b).setPwr (U.lane 5) 2 |>.setState (U.lane 5) st
  let b := (b.setFld (U.lane 5) F.LANE_CFG_PBD 0x0107).setFld (U.lane 5) F.LANE_STAT_ADAPT ad
  let b := (b.setFld (U.lane 5) F.LANE_STAT_TAPS 8).setFlag (U.lane 5) F.LANE_ADAPT_ADAPT_EN true
  b.setLaneH 5 (h (b.laneH 5))
def wn (hi : Int) : List Int := (List.range 63).map (fun k => (-1000 : Int) - (k % 5 : Nat)) ++ [hi]
def bs (b : Block) : Block := (b.setFld (U.lane 5) F.LANE_RESID_BASE (toCode 16 (-1200))).setFld (U.lane 5) F.LANE_RESID_EXCESS 4
def lr (b : Block) : Block := (b.setFld (U.lane 5) (F.LANE_WIN_LEN 0) 8).setFlag (U.lane 5) (F.LANE_WIN_LR 0) true
def hb (b : Block) : Block := (b.setFld (U.hs 0) (F.MEM_REGION_SIZE 0) 32)
def cx (b : Block) : Block := let b := ln 2 1 (fun h => h) b; {hb b with ctxs := [(7, {state := Cue.armed, action := 0x20, target := U.lane 5, stamp := stampOf 5001000, args := 0x01000002})]}
def sw : Swap := {ctx := 7, stamp := 5003048, key := 2, slot := 2, started := true}
def swd : Swap := {ctx := 7, stamp := 5001000, key := 2, slot := 2, started := true, staged := true, done := some 800}
def hbm (b : Block) : Block := hb ((b.setPwr (U.hs 0) 2).setPwr (U.hs 1) 2)
def wd (b : Block) : Block := let b := hbm (ln 2 1 (fun h => {h with writing := [(2,[(0,0x12345678),(5,0x9ABCDEF0)]),(3,[])]}) b); {b with bank := {b.bank with newest := [(2,1)]}}
def ba (slot w : Nat) (b : Block) : Block := let b := hbm (ln 0 0 (fun h => h) b); (((b.setFld (U.cl 0) F.CL_MB_ADDR_SLOT slot).setFld (U.cl 0) F.CL_MB_ADDR_WORD w).setFlag (U.cl 0) F.CL_MB_ADDR_AUTOINC true).setFld (U.cl 0) F.CL_MB_ADDR_COPY 1
def bz (b : Block) : Block := let b := ba 2 511 (run b); let b := b.setFld (U.lane 9) F.LANE_STAT_ADAPT 1; b.setLaneH 9 {b.laneH 9 with swaps := [sw]}
def s1_0 : State := mk run
def block (f : Block → Block) : State := endAt 20000 (mk fun b => f (at_ 16884 (ln 2 1 (fun h => {h with blockAt := 500, taps := [(0,0x40001000),(2,0x00017FFF)]}) b)))
def s1_1 : State := block id
def s1_2 : State := block fun b => b.setFlag (U.lane 5) F.LANE_ADAPT_ADAPT_EN false
def s2_1 : State := mk (ln 2 1 fun h => {h with window := wn (-950)})
def s2_2 : State := mk (ln 2 1 fun h => {h with window := wn (0)})
def s2_3 : State := mk fun b => bs (ln 2 2 (fun h => {h with window := wn (-1000)}) b)
def s2_5 : State := mk fun b => bs (ln 2 2 (fun h => {h with divs := [900,800,700], taps := [(0,5)]}) b)
def s3_0 : State := mk run
def s3_1 : State := mk (ln 3 4 fun h => {h with taps := [(0,0x40001000)]})
def s3_2 : State := mk fun b => lr (ln 2 1 (fun h => h) b)
def s4_1 : State := mk cx
def s4_3 : State := mk fun b => hbm (ln 2 1 (fun h => {h with swaps := [sw], shadowTaps := [(1,2)]}) b)
def s4_4 : State := mk fun b => hbm (ln 2 1 (fun h => {h with swaps := [swd], shadowTaps := [(1,2)]}) b)
def s4_7 : State := endAt 16384 (mk fun b => at_ 3000 (hbm (ln 2 1 (fun h => {h with swaps := [{swd with late := true, exe := true, done := some 952}], shadowTaps := [(1,2)]}) b)))
def s6_0 : State := mk wd
def s7_0 : State := mk run
def s7_1 : State := mk fun b => ba 2 511 (run b)
def s7_2 : State := mk bz
def s7_4 : State := mk fun b => {ba 2 3 (run b) with bank := {BankH.init with busy := [(3,1)], valid := [(0,1)]}}
def s7_5 : State := mk fun b => (ba 16384 3 (run b)).setFld (U.hs 0) (F.MEM_REGION_SIZE 0) 1
def s7_7 : State := mk fun b => (ba 2 3 (ln 2 3 (fun h => {h with taps := [(0,5)]}) b)).setFld (U.lane 5) F.LANE_STAT_ADAPT 1

theorem meets_adaptationBlocks :
    (Settled s1_0 ∧ (¬Adapts s1_0 5)) ∧
    (Settled s1_1 ∧ Adapts s1_1 5 ∧ (s1_1.blk.laneH 5).blockAdapt = none ∧ DueNow s1_1 (500 + 64 * 2 ^ min 6 (s1_1.blk.fld (U.lane 5) F.LANE_ADAPT_BLOCK) * sampleTc (s1_1.blk.laneRate 5)) ∧
      (¬(s1_1.blk.fld (U.lane 5) F.LANE_ADAPT_ADAPT_EN = 0 ∨ s1_1.blk.instShut (s1_1.blk.lanePbd 5) (s1_1.blk.fld (U.lane 5) F.LANE_CFG_RX_SLOT) 500 16884 = true ∨
        (s1_1.blk.laneH 5).blockBad = true ∨ levelBelow (sext 16 (s1_1.blk.fld (U.lane 5) F.LANE_ADAPT_REF_MIN)) (2 ^ 39) (2 ^ 40) = true)) ∧
      Store.wf 0 (s1_1.blk.tapsNow 5) = true) ∧
    (Settled s1_2 ∧ Adapts s1_2 5 ∧ (s1_2.blk.laneH 5).blockAdapt = none ∧ DueNow s1_2 (500 + 64 * 2 ^ min 6 (s1_2.blk.fld (U.lane 5) F.LANE_ADAPT_BLOCK) * sampleTc (s1_2.blk.laneRate 5)) ∧
      s1_2.blk.fld (U.lane 5) F.LANE_ADAPT_ADAPT_EN = 0) :=
  ⟨by decide +kernel, by decide +kernel, by decide +kernel⟩

theorem meets_bankAndTapAccess :
    ((s7_1.blk.time.coll = []) ∧ Takes s7_1 Who.pf (U.cl 3) ∧ (s7_1.blk.fld (U.cl 0) F.CL_MB_ADDR_SLOT < s7_1.blk.bankSlots) ∧ (s7_1.blk.slotBusy (s7_1.blk.fld (U.cl 0) F.CL_MB_ADDR_SLOT) = false) ∧ bankServes s7_1) ∧
    ((s7_2.blk.time.coll = []) ∧ Takes s7_2 Who.pf (U.cl 3) ∧ (s7_2.blk.fld (U.cl 0) F.CL_MB_ADDR_SLOT < s7_2.blk.bankSlots) ∧ (s7_2.blk.slotBusy (s7_2.blk.fld (U.cl 0) F.CL_MB_ADDR_SLOT) = true)) ∧
    ((s7_5.blk.time.coll = []) ∧ Takes s7_5 Who.pf (U.cl 3) ∧ (s7_5.blk.bankSlots ≤ s7_5.blk.fld (U.cl 0) F.CL_MB_ADDR_SLOT)) ∧
    ((s7_0.blk.time.coll = []) ∧ Takes s7_0 Who.pf (U.cl 3) ∧ (0 < s7_0.blk.bankSlots) ∧ (s7_0.blk.bankSlots ≤ 262144)) ∧
    (Settled s7_1 ∧ (s7_1.blk.readOk Who.pf (U.cl 3) = true) ∧ (s7_1.blk.fld (U.cl 0) F.CL_MB_ADDR_COPY < s7_1.blk.bankCopies)) ∧
    (Settled s7_5 ∧ (s7_5.blk.readOk Who.pf (U.cl 3) = true)) ∧
    ((s7_4.blk.time.coll = []) ∧ Settled s7_4 ∧ (Store.get 0 s7_4.blk.bank.busy 3 ≠ 0) ∧ (∀ (x : Nat × Nat), x ∈ s7_4.blk.bank.busy → x.fst = 3)) ∧
    (Takes s7_0 Who.pf (U.lane 5) ∧ (s7_0.blk.leaderOf 5 = none) ∧ (s7_0.blk.adapt 5 = 0 ∨ s7_0.blk.adapt 5 = 3 ∧ s7_0.blk.adaptFld 5 F.LANE_ADAPT_ADAPT_EN = 0)) ∧
    ((s7_7.blk.time.coll = []) ∧ Takes s7_7 Who.pf (U.lane 5) ∧ (s7_7.blk.leaderOf 5 = none) ∧ (¬(s7_7.blk.adapt 5 = 0 ∨ s7_7.blk.adapt 5 = 3 ∧ s7_7.blk.adaptFld 5 F.LANE_ADAPT_ADAPT_EN = 0))) ∧
    (Settled s7_0 ∧ (s7_0.blk.readOk Who.pf (U.lane 5) = true)) :=
  by refine ⟨?_, ?_, ?_, ?_, ?_, ?_, ?_, ?_, ?_, ?_⟩ <;> decide +kernel

theorem meets_laneCommands :
    ((s3_1.blk.leaderOf 5 = none) ∧ (s3_1.blk.lanePbd 5 < 128) ∧ Takes s3_1 Who.pf (U.lane 5) ∧ (s3_1.blk.time.coll = []) ∧ (s3_1.blk.adapt 5 = 4)) ∧
    ((s3_0.blk.leaderOf 5 = none) ∧ (s3_0.blk.lanePbd 5 < 128) ∧ Takes s3_0 Who.pf (U.lane 5) ∧ (s3_0.blk.time.coll = []) ∧ (s3_0.blk.adapt 5 ≠ 4)) ∧
    ((s3_1.blk.adapt 5 ≠ 0)) ∧
    ((s3_2.blk.leaderOf 5 = none) ∧ (s3_2.blk.lanePbd 5 < 128) ∧ Settled s3_2 ∧ (s3_2.blk.adapt 5 ≠ 0) ∧ (s3_2.blk.laneLr 5 = true)) ∧
    (Settled s3_0 ∧ (s3_0.blk.laneLr 5 = false)) :=
  ⟨by decide +kernel, by decide +kernel, by decide +kernel, by decide +kernel, by decide +kernel⟩

theorem meets_modelSwaps :
    (Settled s4_1 ∧ (s4_1.blk.lanePbd 5 < 128) ∧ (s4_1.blk.leaderOf 5 = none) ∧ ((s4_1.blk.ctx 7).action = 32) ∧ ((s4_1.blk.ctx 7).state = Cue.armed) ∧ ((s4_1.blk.ctx 7).target = U.lane 5) ∧ (s4_1.blk.inService (U.lane 5) = true) ∧ (s4_1.blk.keyDirOk 5 ((s4_1.blk.ctx 7).arg 0 4) = true)) ∧
    (((s4_1.blk.laneH 5).swaps = []) ∧ (4968232 = tcOf (s4_1.blk.ctx 7).stamp - s4_1.blk.fld (U.lane 5) F.LANE_PF_LEAD) ∧ DueNow s4_1 (s4_1.blk.elapsedOfAir 4968232)) ∧
    (Settled s4_3 ∧ (s4_3.blk.lanePbd 5 < 128) ∧ (s4_3.blk.leaderOf 5 = none) ∧ ((s4_3.blk.laneH 5).swaps = [sw]) ∧ (sw.started = true) ∧ (sw.done = none) ∧ (sw.failed = false) ∧ (s4_3.blk.slotWriting sw.slot = false) ∧ (s4_3.blk.slotBad sw.slot = false) ∧ (∀ (y : Swap), y ∈ [] → y.ctx ≠ sw.ctx ∧ y.failed = false)) ∧
    ((sw.late = false) ∧ (2048 ≤ sw.stamp) ∧ DueNow s4_3 (s4_3.blk.elapsedOfAir (sw.stamp - 2048)) ∧ (∀ (y : Swap), y ∈ [] → y.ctx ≠ sw.ctx)) ∧
    (Settled s4_4 ∧ (s4_4.blk.lanePbd 5 < 128) ∧ (s4_4.blk.leaderOf 5 = none) ∧ ((s4_4.blk.laneH 5).swaps = [swd]) ∧ (swd.failed = false) ∧ (s4_4.blk.t < s4_4.blk.time.tickEnd) ∧ (swd.staged = true) ∧ (swd.done ≠ none) ∧ (swd.late = false) ∧ (s4_4.blk.time.air = swd.stamp)) ∧
    ((s4_3.blk.t < s4_3.blk.time.tickEnd)) ∧
    (Settled s4_7 ∧ (s4_7.blk.lanePbd 5 < 128) ∧ (s4_7.blk.leaderOf 5 = none) ∧ ((s4_7.blk.laneH 5).swaps = [{ ctx := swd.ctx, stamp := swd.stamp, key := swd.key, slot := swd.slot, started := swd.started, done := some 952, late := true, staged := swd.staged, exe := true : Swap }]) ∧ (s4_7.blk.t < s4_7.blk.time.tickEnd) ∧ ({ ctx := swd.ctx, stamp := swd.stamp, key := swd.key, slot := swd.slot, started := swd.started, done := some 952, late := true, staged := swd.staged, exe := true : Swap }.late = true) ∧ ({ ctx := swd.ctx, stamp := swd.stamp, key := swd.key, slot := swd.slot, started := swd.started, done := some 952, late := true, staged := swd.staged, exe := true : Swap }.exe = true) ∧ ({ ctx := swd.ctx, stamp := swd.stamp, key := swd.key, slot := swd.slot, started := swd.started, done := some 952, late := true, staged := swd.staged, exe := true : Swap }.done = some (s4_7.blk.t - 2048)) ∧ (2048 ≤ s4_7.blk.t)) :=
  by refine ⟨?_, ?_, ?_, ?_, ?_, ?_, ?_⟩ <;> decide +kernel

theorem meets_modelWrites :
    Settled s6_0 ∧ ((s6_0.blk.laneH 5).writing = [(2, [(0, 305419896), (5, 2596069104)]), (3, [])]) ∧ (2 < s6_0.blk.bankSlots) ∧ (Store.wf 0 [(0, 305419896), (5, 2596069104)] = true) ∧ (∀ (x : Nat × Word), x ∈ [(0, 305419896), (5, 2596069104)] → x.fst < 1024) ∧ bankServes s6_0 ∧ (s6_0.mem.wf = true) :=
  by decide +kernel

theorem meets_trackAndDiverge :
    (Settled s2_1 ∧ ((s2_1.blk.laneH 5).window.length = 64) ∧ (∀ (x : Int), x ∈ (s2_1.blk.laneH 5).window → -32767 ≤ x ∧ x ≤ 32767) ∧ (s2_1.blk.adapt 5 = 1) ∧ (∀ (x : Int), x ∈ (s2_1.blk.laneH 5).window → ∀ (y : Int), y ∈ (s2_1.blk.laneH 5).window → x - y ≤ 64)) ∧
    (Settled s2_2 ∧ ((s2_2.blk.laneH 5).window.length = 64) ∧ (∀ (x : Int), x ∈ (s2_2.blk.laneH 5).window → -32767 ≤ x ∧ x ≤ 32767) ∧ (s2_2.blk.adapt 5 = 1) ∧ (∃ (x : Int), x ∈ (s2_2.blk.laneH 5).window ∧ ∃ (y : Int), y ∈ (s2_2.blk.laneH 5).window ∧ 64 < x - y)) ∧
    (Settled s2_3 ∧ ((s2_3.blk.laneH 5).window.length = 64) ∧ (∀ (x : Int), x ∈ (s2_3.blk.laneH 5).window → -32767 ≤ x ∧ x ≤ 32767) ∧ (s2_3.blk.adapt 5 = 2) ∧ (s2_3.blk.db (U.lane 5) F.LANE_RESID_BASE = some (-1200))) ∧
    (Settled s2_5 ∧ (s2_5.blk.adapt 5 = 2) ∧ (s2_5.blk.fld (U.lane 5) F.LANE_RESID_EXCESS = 4) ∧ (s2_5.blk.ownState (U.lane 5) = 2) ∧ (s2_5.blk.lanePbd 5 < 128) ∧ (3 ≤ (List.filter (fun (d : Nat) => decide (s2_5.blk.t < d + 19660800000)) (s2_5.blk.laneH 5).divs).length)) ∧
    ((s2_3.blk.fld (U.lane 5) F.LANE_RESID_EXCESS = 4) ∧ (s2_3.blk.ownState (U.lane 5) = 2) ∧ (s2_3.blk.lanePbd 5 < 128) ∧ ((List.filter (fun (d : Nat) => decide (s2_3.blk.t < d + 19660800000)) (s2_3.blk.laneH 5).divs).length < 3)) :=
  ⟨by decide +kernel, by decide +kernel, by decide +kernel, by decide +kernel, by decide +kernel⟩

end W7

namespace W8

def cc (st a u args : Nat) (b : Block) : Block :=
  let b := run b
  {b with ctxs := [(7, {state := st, action := a, target := u, stamp := stampOf 5001000, args := BitVec.ofNat 256 args, slot := true, e := if st = 4 then 5000960 else 5001000, seq := 3, sys := true})]}
def both (a u args : Nat) (f : Block → Block) : List State := [mk fun b => f (cc 2 a u args b), mk fun b => f (cc 4 a u args b), mk fun b => let b := f (cc 2 a u args b); b.setCtx 7 {b.ctx 7 with sys := false}]
def wargs (off mask v : Nat) : Nat := off + mask * 2^64 + v*2^128
def iso (b : Block) : Block := b.setFld (U.pbd 7) F.PBD_PROBE_ISO_ISO_PASSIVE 5000
def lane5 (sw : List Swap) (b : Block) : Block := let b := (b.setPwr (U.lane 5) 2).setState (U.lane 5) 2; let b := (b.setFld (U.lane 5) F.LANE_CFG_PBD 0x0107).setFld (U.lane 5) F.LANE_STAT_ADAPT 1; b.setLaneH 5 {b.laneH 5 with swaps := sw}
def sw7 : Swap := {ctx := 7, stamp := 5001000, key := 0x01000002, slot := 2, started := true}
def sy3 (hop : Option (Nat×Nat×Bool)) (b : Block) : Block := let b := (b.setPwr (U.sy 3) 2).setState (U.sy 3) 2; b.setSyH 3 {b.syH 3 with hop := hop, cal := [(5,{word := 0x50000000, valid := true}),(6,{word := 0x50000000})]}
def frm (s : State) : State := {s with mem := s.mem.wr .ccSeq (seqWord 3 9 0) 0x2410}
def ws1 : List State := both 0 0 0 id ++ both 1 (U.ts 3) (wargs 0x48 0xFFFF0000FFFF 0x123456789ABC) id ++ both 1 (U.ts 3) (wargs 0x49 0xFFFF0000FFFF 0x123456789ABC) id
  ++ both 2 (U.ts 3) 1 (fun b => b.setState (U.ts 3) 1) ++ both 2 (U.ts 3) 0 (fun b => b.setState (U.ts 3) 2) ++ both 3 (U.rxc 3) 0 id ++ both 4 (U.ts 3) 0 (fun b => b.setState (U.ts 3) 2)
def ws2 : List State := both 0x10 (U.pb 3) 1 (fun b => b.setFlag (U.pb 3) F.PB_CFG_DUPLEX true) ++ both 0x10 (U.pb 3) 0 (fun b => b.setFlag (U.pb 3) F.PB_CFG_DUPLEX true) ++ both 0x10 (U.pb 3) 1 id
 ++ both 0x11 (U.pbd 7) 0x12340056 (fun b => (b.setFlag (U.pb 3) F.PB_CFG_BEAM_DN true).setFlag (U.pb 3) F.PB_CFG_BEAM_SV true) ++ both 0x11 (U.pbd 7) 0x12340056 id
 ++ both 0x12 (U.pbd 7) 1 id ++ both 0x12 (U.pbd 7) 0 (fun b => b.setFlag (U.pbd 7) F.PBD_STAT_FBANK_ACT true)
 ++ both 0x13 (U.pbd 7) (123 + 456*2^64) id ++ both 0x13 (U.pbd 7) (123 + 456*2^64) (fun b => b.setState (U.pbd 7) 2) ++ both 0x13 (U.pbd 7) (123 + 456*2^64) (fun b => let b := b.setState (U.pbd 7) 2; b.setPbdH 7 {b.pbdH 7 with retune := .ramp 5})
def ws3 : List State := both 0x14 (U.pbd 7) 0x1000 id ++ both 0x14 (U.pbd 7) 0x8000 id ++ both 0x14 (U.pbd 7) 0x1000 (fun b => (iso b).setFld (U.pbd 7) (F.LOOP_SETPT_SETPT 4) 100) ++ both 0x14 (U.pbd 7) 0x6000 (fun b => (iso b).setFld (U.pbd 7) (F.LOOP_SETPT_SETPT 4) 100)
 ++ both 0x15 (U.pbd 7) 0 iso ++ both 0x16 (U.pbd 7) 0 id ++ both 0x17 (U.pbd 7) 0 (fun b => b.setFld (U.pbd 7) F.PROT_STAT_CAUSE 0xC0) ++ both 0x17 (U.pbd 7) 0 (fun b => b.squallAt 7 7 900)
 ++ both 0x18 (U.pbd 7) 0 id ++ both 0x18 (U.pbd 7) 0 (fun b => let b := b.squallAt 7 3 900; {(b.setReg (U.pbd 7) R.PROT_DUE (stampOf 5000999)) with time := { b.time with coll := [] }}) ++ both 0x3F 0 0 id ++ both 0x3F 0 0 (fun b => b.moduleSquall F.ROOT_SQUALL_HOST false)
def ws4 : List State := both 0x20 (U.lane 5) 0x01000002 (lane5 [sw7]) ++ both 0x20 (U.lane 5) 0x01000002 (fun b => ((lane5 [] b).setReg (U.lane 5) R.LANE_SWAP_STAMP (stampOf 5001000)).setFld (U.lane 5) F.LANE_KEY_KEY 0x01000002)
 ++ both 0x20 (U.lane 5) 0x00000002 (lane5 []) ++ both 0x21 (U.mc 5) 0 id
def ws5 : List State := both 0x30 (U.sy 3) 5 (sy3 none) ++ both 0x30 (U.sy 3) 6 (sy3 (some (5,900,true))) ++ both 0x30 (U.sy 3) 9 (sy3 none)
 ++ both 0x31 (U.cc 3) 0x104 (fun b => b.setFld (U.cc 3) (F.CC_STB_CFG_FUNC 4) 5) ++ both 0x31 (U.cc 3) 4 (fun b => let b := (b.setFld (U.cc 3) (F.CC_STB_CFG_FUNC 4) 5); b.setCcH 3 {b.ccH 3 with cueHigh := 0x30}) ++ both 0x31 (U.cc 3) 4 id
 ++ (both 0x32 (U.cc 3) 9 (fun b => [0,1,2,3].foldl (fun b c => [0,1,2,3].foldl (fun b x => b.setFlag (U.cc c) (F.CC_RFFE_EN x) true) b) b)).map frm ++ (both 0x32 (U.cc 3) 9 id).map frm
def s1_0 : State := ws1.getD 0 State.reset
def s1_12 : State := ws1.getD 12 State.reset
def s1_15 : State := ws1.getD 15 State.reset
def s1_18 : State := ws1.getD 18 State.reset
def s1_6 : State := ws1.getD 6 State.reset
def s1_9 : State := ws1.getD 9 State.reset
def s2_0 : State := ws2.getD 0 State.reset
def s2_12 : State := ws2.getD 12 State.reset
def s2_15 : State := ws2.getD 15 State.reset
def s2_21 : State := ws2.getD 21 State.reset
def s2_24 : State := ws2.getD 24 State.reset
def s2_27 : State := ws2.getD 27 State.reset
def s2_6 : State := ws2.getD 6 State.reset
def s2_9 : State := ws2.getD 9 State.reset
def s3_0 : State := ws3.getD 0 State.reset
def s3_12 : State := ws3.getD 12 State.reset
def s3_15 : State := ws3.getD 15 State.reset
def s3_18 : State := ws3.getD 18 State.reset
def s3_2 : State := ws3.getD 2 State.reset
def s3_20 : State := ws3.getD 20 State.reset
def s3_24 : State := ws3.getD 24 State.reset
def s3_27 : State := ws3.getD 27 State.reset
def s3_30 : State := ws3.getD 30 State.reset
def s4_0 : State := ws4.getD 0 State.reset
def s4_3 : State := ws4.getD 3 State.reset
def s4_6 : State := ws4.getD 6 State.reset
def s4_9 : State := ws4.getD 9 State.reset
def s5_0 : State := ws5.getD 0 State.reset
def s5_15 : State := ws5.getD 15 State.reset
def s5_18 : State := ws5.getD 18 State.reset
def s5_21 : State := ws5.getD 21 State.reset
def s5_3 : State := ws5.getD 3 State.reset
def s5_6 : State := ws5.getD 6 State.reset
def s5_9 : State := ws5.getD 9 State.reset

theorem meets_cuesAtFrontEnds :
    (((s5_0.blk.ctx 7).target = U.sy 3) ∧ Acting s5_0 7 48 0 ∧ (s5_0.blk.usable (U.sy 3) = true) ∧ (syWordOk (syEnt s5_0 3 ((s5_0.blk.ctx 7).arg 0 2 % 4096)).word = true) ∧ NoAsks s5_0 3 ∧ ((s5_0.blk.syH 3).hop = none)) ∧
    (((s5_3.blk.ctx 7).target = U.sy 3) ∧ Acting s5_3 7 48 0 ∧ (s5_3.blk.usable (U.sy 3) = true) ∧ (syWordOk (syEnt s5_3 3 ((s5_3.blk.ctx 7).arg 0 2 % 4096)).word = true) ∧ NoAsks s5_3 3 ∧ ((s5_3.blk.syH 3).hop = some (5, 900, true)) ∧ (900 < s5_3.blk.t)) ∧
    (((s5_6.blk.ctx 7).target = U.sy 3) ∧ Acting s5_6 7 48 0 ∧ (s5_6.blk.usable (U.sy 3) = true) ∧ (syWordOk (syEnt s5_6 3 ((s5_6.blk.ctx 7).arg 0 2 % 4096)).word = false)) ∧
    (((s5_9.blk.ctx 7).target = U.cc 3) ∧ Acting s5_9 7 49 0 ∧ (s5_9.blk.fld (U.cc 3) (F.CC_STB_CFG_FUNC ((s5_9.blk.ctx 7).arg 0 1 % 32)) = 5) ∧ (¬(s5_9.blk.ctx 7).arg 1 1 % 2 = 1 ∨ s5_9.blk.root.strobesLow = false ∧ s5_9.blk.strobeHold = false)) ∧
    (((s5_15.blk.ctx 7).target = U.cc 3) ∧ Acting s5_15 7 49 0 ∧ (s5_15.blk.fld (U.cc 3) (F.CC_STB_CFG_FUNC ((s5_15.blk.ctx 7).arg 0 1 % 32)) ≠ 5)) ∧
    (((s5_18.blk.ctx 7).target = U.cc 3) ∧ Acting s5_18 7 50 0 ∧ busesIdle s5_18 ∧ (seqFrames s5_18.mem 3 ((s5_18.blk.ctx 7).arg 0 1) ≠ [])) ∧
    (((s5_21.blk.ctx 7).target = U.cc 3) ∧ Acting s5_21 7 50 0 ∧ (∃ (b : Nat × Nat), b ∈ seqBuses s5_21.mem ((s5_21.blk.ctx 7).arg 0 1) ∧ s5_21.blk.busOff b.fst b.snd = true)) :=
  by refine ⟨?_, ?_, ?_, ?_, ?_, ?_, ?_⟩ <;> decide +kernel

theorem meets_cuesAtLanes :
    (Acting s4_3 7 32 0 ∧ ((s4_3.blk.ctx 7).target = U.lane 5) ∧ (s4_3.blk.leaderOf 5 = none) ∧ (s4_3.blk.reg (U.lane 5) R.LANE_SWAP_STAMP = stampOf (tcOf (s4_3.blk.ctx 7).stamp)) ∧ (s4_3.blk.fld (U.lane 5) F.LANE_KEY_KEY = (s4_3.blk.ctx 7).arg 0 4) ∧ (∀ (y : Swap), y ∈ (s4_3.blk.laneH 5).swaps → y.ctx ≠ 7)) ∧
    (Acting s4_0 7 32 0 ∧ ((s4_0.blk.ctx 7).target = U.lane 5) ∧ (s4_0.blk.leaderOf 5 = none) ∧ ((s4_0.blk.laneH 5).swaps = [sw7]) ∧ (sw7.ctx = 7) ∧ (sw7.done = none) ∧ (sw7.late = false) ∧ (sw7.failed = false) ∧ (s4_0.blk.inService (U.lane 5) = true) ∧ (s4_0.blk.keyDirOk 5 ((s4_0.blk.ctx 7).arg 0 4) = true) ∧ (s4_0.blk.lanePbd 5 < 128)) ∧
    (Acting s4_6 7 32 0 ∧ ((s4_6.blk.ctx 7).target = U.lane 5) ∧ (s4_6.blk.leaderOf 5 = none) ∧ (s4_6.blk.inService (U.lane 5) = true) ∧ (s4_6.blk.keyDirOk 5 ((s4_6.blk.ctx 7).arg 0 4) = false) ∧ ((s4_6.blk.laneH 5).swaps = []) ∧ (s4_6.blk.reg (U.lane 5) R.LANE_SWAP_STAMP ≠ stampOf (tcOf (s4_6.blk.ctx 7).stamp))) ∧
    (Acting s4_9 7 33 0 ∧ (kindOf (s4_9.blk.ctx 7).target = 25)) :=
  ⟨by decide +kernel, by decide +kernel, by decide +kernel, by decide +kernel⟩

theorem meets_cuesAtPassbands :
    (Acting s2_0 7 16 0 ∧ ((s2_0.blk.ctx 7).target = U.pb (7 / 2)) ∧ (s2_0.blk.flag (U.pb (7 / 2)) F.PB_CFG_DUPLEX = true)) ∧
    (Acting s2_6 7 16 0 ∧ ((s2_6.blk.ctx 7).target = U.pb (7 / 2)) ∧ (s2_6.blk.flag (U.pb (7 / 2)) F.PB_CFG_DUPLEX = false)) ∧
    (((s2_9.blk.ctx 7).target = U.pbd 7) ∧ Acting s2_9 7 17 0 ∧ (s2_9.blk.flag (U.pb (7 / 2)) F.PB_CFG_BEAM_DN = true) ∧ (s2_9.blk.flag (U.pb (7 / 2)) F.PB_CFG_BEAM_SV = true)) ∧
    (((s2_12.blk.ctx 7).target = U.pbd 7) ∧ Acting s2_12 7 17 0 ∧ (s2_12.blk.flag (U.pb (7 / 2)) F.PB_CFG_BEAM_DN = false) ∧ ((s2_12.blk.ctx 7).arg 0 8 % 1024 ≠ s2_12.blk.fld (U.pbd 7) F.PBD_BEAM_DN)) ∧
    (((s2_15.blk.ctx 7).target = U.pbd 7) ∧ Acting s2_15 7 18 0) ∧
    (((s2_21.blk.ctx 7).target = U.pbd 7) ∧ Acting s2_21 7 19 0 ∧ (s2_21.blk.pbdOn 7 = false)) ∧
    (((s2_24.blk.ctx 7).target = U.pbd 7) ∧ Acting s2_24 7 19 0 ∧ (s2_24.blk.pbdOn 7 = true) ∧ ((s2_24.blk.pbdH 7).retune = RetuneSt.idle)) ∧
    (((s2_27.blk.ctx 7).target = U.pbd 7) ∧ Acting s2_27 7 19 0 ∧ (s2_27.blk.pbdOn 7 = true) ∧ ((s2_27.blk.pbdH 7).retune = RetuneSt.ramp 5)) :=
  by refine ⟨?_, ?_, ?_, ?_, ?_, ?_, ?_, ?_⟩ <;> decide +kernel

theorem meets_cuesAtUnits :
    (NoGroups s1_0 ∧ (∀ (k : Nat), k < 32 → s1_0.blk.txcDemand k = false) ∧ Acting s1_0 7 0 0) ∧
    (NoGroups s1_6 ∧ Acting s1_6 7 1 0 ∧ ((s1_6.blk.ctx 7).arg 0 2 % 8 ≠ 0)) ∧
    (NoGroups s1_9 ∧ Acting s1_9 7 2 0 ∧ Single s1_9 (s1_9.blk.ctx 7).target ∧ plainKind (s1_9.blk.ctx 7).target ∧ ((s1_9.blk.ctx 7).arg 0 1 % 2 = 1) ∧ (s1_9.blk.ownState (s1_9.blk.ctx 7).target = 1) ∧ (s1_9.blk.flag (s1_9.blk.ctx 7).target F.UNIT_CTRL_TEST_REQ = false)) ∧
    (NoGroups s1_12 ∧ Acting s1_12 7 2 0 ∧ Single s1_12 (s1_12.blk.ctx 7).target ∧ plainKind (s1_12.blk.ctx 7).target ∧ (¬(s1_12.blk.ctx 7).arg 0 1 % 2 = 1) ∧ (kindOf (s1_12.blk.ctx 7).target = 8) ∧ (s1_12.blk.ownState (s1_12.blk.ctx 7).target = 2) ∧ (s1_12.blk.flag (s1_12.blk.ctx 7).target F.UNIT_CTRL_TEST_REQ = false)) ∧
    (NoGroups s1_15 ∧ Acting s1_15 7 3 0 ∧ Single s1_15 (s1_15.blk.ctx 7).target ∧ (kindOf (s1_15.blk.ctx 7).target = 2) ∧ (¬(s1_15.blk.ctx 7).arg 0 1 % 2 = 1) ∧ (s1_15.blk.ownState (s1_15.blk.ctx 7).target = 0)) ∧
    (NoGroups s1_18 ∧ Acting s1_18 7 4 0 ∧ Single s1_18 (s1_18.blk.ctx 7).target ∧ plainKind (s1_18.blk.ctx 7).target ∧ (s1_18.blk.ownState (s1_18.blk.ctx 7).target ≠ 6) ∧ (s1_18.blk.ownState (s1_18.blk.ctx 7).target ≠ 4)) :=
  by refine ⟨?_, ?_, ?_, ?_, ?_, ?_⟩ <;> decide +kernel

theorem meets_cuesOfProtection :
    (((s3_0.blk.ctx 7).target = U.pbd 7) ∧ Acting s3_0 7 20 0 ∧ ((s3_0.blk.ctx 7).sys = true ∨ max (-32767) (sext 16 ((s3_0.blk.ctx 7).arg 0 2)) ≤ s3_0.blk.sfld (U.pbd 7) (F.LOOP_SETPT_SETPT 4) ∨ max (-32767) (sext 16 ((s3_0.blk.ctx 7).arg 0 2)) ≤ s3_0.blk.lullLevel 7)) ∧
    (((s3_2.blk.ctx 7).target = U.pbd 7) ∧ Acting s3_2 7 20 0 ∧ ((s3_2.blk.ctx 7).sys = false) ∧ (s3_2.blk.sfld (U.pbd 7) (F.LOOP_SETPT_SETPT 4) < max (-32767) (sext 16 ((s3_2.blk.ctx 7).arg 0 2))) ∧ (s3_2.blk.lullLevel 7 < max (-32767) (sext 16 ((s3_2.blk.ctx 7).arg 0 2)))) ∧
    (((s3_12.blk.ctx 7).target = U.pbd 7) ∧ Acting s3_12 7 21 0) ∧
    (((s3_15.blk.ctx 7).target = U.pbd 7) ∧ Acting s3_15 7 22 0) ∧
    (((s3_18.blk.ctx 7).target = U.pbd 7) ∧ Acting s3_18 7 23 0 ∧ ((s3_18.blk.ctx 7).sys = true)) ∧
    (((s3_20.blk.ctx 7).target = U.pbd 7) ∧ Acting s3_20 7 23 0 ∧ ((s3_20.blk.ctx 7).sys = false)) ∧
    (((s3_27.blk.ctx 7).target = U.pbd 7) ∧ Acting s3_27 7 24 0 ∧ ((s3_27.blk.ctx 7).sys = true) ∧ (s3_27.blk.restartOk 7 = true)) ∧
    (((s3_24.blk.ctx 7).target = U.pbd 7) ∧ Acting s3_24 7 24 0 ∧ ((s3_24.blk.ctx 7).sys = false ∨ s3_24.blk.restartOk 7 = false)) ∧
    (Acting s3_30 7 63 0 ∧ ((s3_30.blk.ctx 7).target = 0)) :=
  by refine ⟨?_, ?_, ?_, ?_, ?_, ?_, ?_, ?_, ?_⟩ <;> decide +kernel

end W8

namespace W9

def C0 : Ctx := {state := 1, action := 0x12, target := U.pbd 7, stamp := stampOf 5001000, e := 5001000, seq := 3, origin := 5, occ := 4}
def cx (l : List (Nat × Ctx)) (b : Block) : Block := {run b with ctxs := l}
def wt (a : Nat) (late : Int) : Ctx := {C0 with state := 3, action := a, e := 5001000 - late}
def rg : RingH := {base := 4096, d1 := 0x1F8088 ||| (2 <<< 6), notify := 16384+5, prod := 3, cons := 1}
def dn (f : Ctx → Ctx) (b : Block) : Block := let b := cx [(7, f {C0 with state := 5, result := 2, lateness := 40, effAt := 0x77, slot := false})] b; let b := ((b.setPwr (U.hs 0) 2).setPwr (U.hs 1) 2).setFld (U.hs 0) (F.MEM_REGION_SIZE 1) 4; {b with rings := [(5,rg)]}
def rq (c en : Nat) : RingH := {rg with d1 := BitVec.ofNat 64 (0x1F0008 + c * 64 + en * 0x8000)}
def rr (g : RingH) (b : Block) : Block := let b := dn id b; {b with rings := [(5,{g with d1 := g.d1 &&& ~~~0x1F0000}),(6,rg)]}
def sel (b : Block) : Block := b.setFld U.dsp F.DSP_RING_SEL_RING 5
def ent : Entry := BitVec.ofNat 512 ((stampOf 6000000).toNat + ((U.pbd 7) <<< 64) + (0x12 <<< 80) + (40 <<< 96) + (3<<<256))
def hst (g : RingH) : State := mk fun b => let b := cx [(0,C0)] b; {b with rings := [(5,{g with d1 := g.d1 ||| 0x20})]}
def full (s : State) : State := {s with blk := s.blk.setFlag U.dsp F.DSP_STAT_CUE_FULL true}
def s1_0 : State := mk (cx [(7,C0)])
def s1_1 : State := mk (cx [(7,{C0 with slot := true})])
def s1_3 : State := mk (cx [(7,{C0 with state := 3})])
def s2_0 : State := mk (cx [(7,wt 0x12 256)])
def s2_1 : State := mk (cx [(7,wt 0x12 257)])
def s2_4 : State := mk fun b => let b := cx [(7,wt 0x16 300)] b; {b with dsp := {b.dsp with issuedAt := 1001}}
def s3_0 : State := mk (cx [(7,C0)])
def s3_1 : State := mk (dn id)
def s3_2 : State := mk (dn fun c => {c with period := 8192, count := 3})
def s3_5 : State := mk (dn fun c => {c with ctrl := 4})
def s4_0 : State := mk fun b => sel (rr (rq 0 1) b)
def s4_2 : State := mk fun b => sel (rr (rq 2 1) b)
def s4_4 : State := mk fun b => sel (rr (rq 3 0) b)
def s5_0 : State := hst (rq 0 1)
def s5_1 : State := full (hst (rq 0 1))
def s5_2 : State := {hst (rq 0 1) with blk := let b := (hst (rq 0 1)).blk; {b with dsp := {b.dsp with poppedAt := 998}}}

theorem meets_cueRingPops :
    (Settled s5_1 ∧ (s5_1.blk.flag 0 F.FLT_MODE_FATAL = false) ∧ (s5_1.blk.coasting = false) ∧ (s5_1.blk.flag U.dsp F.DSP_STAT_CUE_FULL = true)) ∧
    (Settled s5_2 ∧ (s5_2.blk.flag 0 F.FLT_MODE_FATAL = false) ∧ (s5_2.blk.coasting = false) ∧ (s5_2.blk.flag U.dsp F.DSP_STAT_CUE_FULL = false) ∧ (s5_2.blk.nextCueRing = some 5) ∧ (s5_2.blk.allocCtx = some 1) ∧ (1 < s5_2.blk.freeCtxs) ∧ (s5_2.blk.t < s5_2.blk.time.tickEnd) ∧ (s5_2.blk.dsp.poppedAt ≠ 0) ∧ (s5_2.blk.t < s5_2.blk.dsp.poppedAt + 7)) ∧
    (Settled s5_0 ∧ (s5_0.blk.flag 0 F.FLT_MODE_FATAL = false) ∧ (s5_0.blk.coasting = false) ∧ (s5_0.blk.flag U.dsp F.DSP_STAT_CUE_FULL = false) ∧ (s5_0.blk.nextCueRing = some 5) ∧ (s5_0.blk.allocCtx = some 1) ∧ (1 < s5_0.blk.freeCtxs) ∧ (s5_0.blk.t < s5_0.blk.time.tickEnd)) ∧
    ((s5_0.blk.dsp.poppedAt = 0 ∨ s5_0.blk.dsp.poppedAt + 7 ≤ s5_0.blk.t) ∧ (s5_0.blk.entryBad (s5_0.blk.ring 5) (s5_0.blk.ring 5).cons = false) ∧ (cueCheck (entryCue (if (s5_0.blk.ring 5).inHost = true then ent else BitVec.ofNat 512 (s5_0.mem.rdBytes (s5_0.blk.regionBase 1 + BitVec.toNat (s5_0.blk.ring 5).base + 64 * ((s5_0.blk.ring 5).cons % 2 ^ (s5_0.blk.ring 5).log2)) 64))) (decide (64 ≤ (s5_0.blk.ring 5).owner)) (s5_0.blk.ringAllowed (s5_0.blk.ring 5) (entryCue (if (s5_0.blk.ring 5).inHost = true then ent else BitVec.ofNat 512 (s5_0.mem.rdBytes (s5_0.blk.regionBase 1 + BitVec.toNat (s5_0.blk.ring 5).base + 64 * ((s5_0.blk.ring 5).cons % 2 ^ (s5_0.blk.ring 5).log2)) 64))).target) = none) ∧ (cueCheck (entryCue (if (s5_0.blk.ring 5).inHost = true then 4722366482869645213695 else BitVec.ofNat 512 (s5_0.mem.rdBytes (s5_0.blk.regionBase 1 + BitVec.toNat (s5_0.blk.ring 5).base + 64 * ((s5_0.blk.ring 5).cons % 2 ^ (s5_0.blk.ring 5).log2)) 64))) (decide (64 ≤ (s5_0.blk.ring 5).owner)) (s5_0.blk.ringAllowed (s5_0.blk.ring 5) (entryCue (if (s5_0.blk.ring 5).inHost = true then 4722366482869645213695 else BitVec.ofNat 512 (s5_0.mem.rdBytes (s5_0.blk.regionBase 1 + BitVec.toNat (s5_0.blk.ring 5).base + 64 * ((s5_0.blk.ring 5).cons % 2 ^ (s5_0.blk.ring 5).log2)) 64))).target) ≠ none) ∧ (stampValid C0.stamp = false ∨ kindOf C0.target = 0 ∨ C0.action ∈ [5, 15, 25, 34, 51, 62, 64, 255] ∨ C0.period ≠ 0 ∧ C0.period < 8192 ∨ C0.period = 0 ∧ C0.count ≠ 0 ∨ 16 ≤ C0.ctrl ∨ C0.ctrl % 4 = 3 ∧ true = false ∨ false = false)) :=
  ⟨by decide +kernel, by decide +kernel, by decide +kernel, by decide +kernel⟩

theorem meets_doorbellsAndDescriptors :
    (Settled s4_0 ∧ (s4_0.blk.inReset = false) ∧ (s4_0.blk.linkDown = false) ∧ (s4_0.blk.flag 0 F.FLT_MODE_FATAL = false) ∧ (whoFunc (Who.vf 3) ≠ some (s4_0.blk.ring 5).func) ∧ (whoFunc Who.pf = some (s4_0.blk.ring 5).func) ∧ ((s4_0.blk.ring 5).cls = 0 ∨ (s4_0.blk.ring 5).cls = 1) ∧ ((s4_0.blk.ring 5).occ ≤ (4 + 2 ^ 32 - (s4_0.blk.ring 5).cons) % 2 ^ 32) ∧ ((4 + 2 ^ 32 - (s4_0.blk.ring 5).cons) % 2 ^ 32 ≤ 2 ^ (s4_0.blk.ring 5).log2)) ∧
    (Settled s4_2 ∧ (s4_2.blk.inReset = false) ∧ (s4_2.blk.linkDown = false) ∧ (s4_2.blk.flag 0 F.FLT_MODE_FATAL = false) ∧ (whoFunc Who.pf = some (s4_2.blk.ring 5).func) ∧ (¬((s4_2.blk.ring 5).cls = 0 ∨ (s4_2.blk.ring 5).cls = 1)) ∧ ((s4_2.blk.ring 5).lossDue = 0) ∧ (((s4_2.blk.ring 5).prod + 2 ^ 32 - 3) % 2 ^ 32 ≤ (s4_2.blk.ring 5).occ) ∧ (((s4_2.blk.ring 5).cls = 0 ∨ (s4_2.blk.ring 5).cls = 1) ∧ ((4 + 2 ^ 32 - (s4_2.blk.ring 5).cons) % 2 ^ 32 < (s4_2.blk.ring 5).occ ∨ 2 ^ (s4_2.blk.ring 5).log2 < (4 + 2 ^ 32 - (s4_2.blk.ring 5).cons) % 2 ^ 32) ∨ ¬((s4_2.blk.ring 5).cls = 0 ∨ (s4_2.blk.ring 5).cls = 1) ∧ (s4_2.blk.ring 5).occ < ((s4_2.blk.ring 5).prod + 2 ^ 32 - 4) % 2 ^ 32)) ∧
    (Takes s4_4 Who.pf U.dsp ∧ (s4_4.blk.time.coll = []) ∧ (s4_4.blk.fld U.dsp F.DSP_RING_SEL_RING = 5) ∧ (dspWindow Who.pf = true) ∧ ((s4_4.blk.ring 5).en = false)) ∧
    (Takes s4_0 Who.pf U.dsp ∧ (s4_0.blk.time.coll = []) ∧ (s4_0.blk.fld U.dsp F.DSP_RING_SEL_RING = 5) ∧ ((s4_0.blk.ring 5).en = true) ∧ (¬Word.fld 524298 15 15 = 1) ∧ (Word.fld 524298 14 8 < 64)) ∧
    ((Word.fld 2064394 14 8 < 64) ∧ (Word.fld 2064394 15 15 = 1) ∧ (s4_4.blk.ringValid { base := (s4_4.blk.ring 5).base, d1 := 2064394 &&& d1Mask, prod := (s4_4.blk.ring 5).prod, cons := (s4_4.blk.ring 5).cons, refused := (s4_4.blk.ring 5).refused, lost := (s4_4.blk.ring 5).lost, lossDue := (s4_4.blk.ring 5).lossDue, notify := (s4_4.blk.ring 5).notify, fault := (s4_4.blk.ring 5).fault, raised := (s4_4.blk.ring 5).raised : RingH } = true) ∧ (Word.fld 2064387 14 8 < 64) ∧ (Word.fld 2064387 15 15 = 1) ∧ (Word.fld 2064387 4 0 < 4 ∨ 24 < Word.fld 2064387 4 0)) :=
  ⟨by decide +kernel, by decide +kernel, by decide +kernel, by decide +kernel, by decide +kernel⟩

theorem meets_issueAndExpiry :
    (Settled s2_0 ∧ (Store.wf Ctx.init s2_0.blk.ctxs = true) ∧ (s2_0.blk.flag 0 F.FLT_MODE_FATAL = false) ∧ (s2_0.blk.inflight < 2048) ∧ ((s2_0.blk.ctx 7).state = 3) ∧ (∀ (y : Nat × Ctx), y ∈ s2_0.blk.waitingCues → y.fst ≠ 7 → cueBefore (s2_0.blk.ctx 7) y.snd = true) ∧ ((↑s2_0.blk.time.air - (s2_0.blk.ctx 7).e ≤ if (s2_0.blk.ctx 7).tol = 0 then 256 else ↑(s2_0.blk.ctx 7).tol) ∨ classS (s2_0.blk.ctx 7).action) ∧ (s2_0.blk.dsp.issuedAt ≠ s2_0.blk.t + 1)) ∧
    (Settled s2_4 ∧ (Store.wf Ctx.init s2_4.blk.ctxs = true) ∧ (s2_4.blk.flag 0 F.FLT_MODE_FATAL = false) ∧ (s2_4.blk.inflight < 2048) ∧ ((s2_4.blk.ctx 7).state = 3) ∧ (∀ (y : Nat × Ctx), y ∈ s2_4.blk.waitingCues → y.fst ≠ 7 → cueBefore (s2_4.blk.ctx 7) y.snd = true) ∧ ((↑s2_4.blk.time.air - (s2_4.blk.ctx 7).e ≤ if (s2_4.blk.ctx 7).tol = 0 then 256 else ↑(s2_4.blk.ctx 7).tol) ∨ classS (s2_4.blk.ctx 7).action) ∧ (s2_4.blk.dsp.issuedAt = s2_4.blk.t + 1)) ∧
    (Settled s2_1 ∧ (Store.wf Ctx.init s2_1.blk.ctxs = true) ∧ (s2_1.blk.flag 0 F.FLT_MODE_FATAL = false) ∧ (s2_1.blk.inflight < 2048) ∧ ((s2_1.blk.ctx 7).state = 3) ∧ (∀ (y : Nat × Ctx), y ∈ s2_1.blk.waitingCues → y.fst ≠ 7 → cueBefore (s2_1.blk.ctx 7) y.snd = true) ∧ ((if (s2_1.blk.ctx 7).tol = 0 then 256 else ↑(s2_1.blk.ctx 7).tol) < ↑s2_1.blk.time.air - (s2_1.blk.ctx 7).e) ∧ classE (s2_1.blk.ctx 7).action ∧ ((s2_1.blk.ctx 7).action ≠ 32)) :=
  ⟨by decide +kernel, by decide +kernel, by decide +kernel⟩

theorem meets_retirementAndCancel :
    (Settled s3_0 ∧ (s3_0.blk.flag U.dsp F.DSP_STAT_CUE_FULL = false) ∧ (0 < s3_0.blk.freeCtxs) ∧ ((s3_0.blk.ctx 7).state ≠ 5)) ∧
    (Settled s3_1 ∧ (s3_1.blk.flag U.dsp F.DSP_STAT_CUE_FULL = false) ∧ (0 < s3_1.blk.freeCtxs) ∧ ((s3_1.blk.ctx 7).state = 5) ∧ (s3_1.blk.cueParts 7 = false) ∧ ((s3_1.blk.ctx 7).result ≠ 0) ∧ (¬(Word.fld (BitVec.ofNat 64 (s3_1.blk.ctx 7).ctrl) 2 2 = 1 ∨ Word.fld (BitVec.ofNat 64 (s3_1.blk.ctx 7).ctrl) 3 3 = 1 ∧ 2 ≤ (s3_1.blk.ctx 7).result ∧ (s3_1.blk.ctx 7).result ≤ 5)) ∧ ((s3_1.blk.ctx 7).period = 0 ∨ (s3_1.blk.ctx 7).count = 0)) ∧
    (Settled s3_2 ∧ (s3_2.blk.flag U.dsp F.DSP_STAT_CUE_FULL = false) ∧ (0 < s3_2.blk.freeCtxs) ∧ ((s3_2.blk.ctx 7).state = 5) ∧ ((s3_2.blk.ctx 7).result ≠ 0) ∧ (¬(Word.fld (BitVec.ofNat 64 (s3_2.blk.ctx 7).ctrl) 2 2 = 1 ∨ Word.fld (BitVec.ofNat 64 (s3_2.blk.ctx 7).ctrl) 3 3 = 1 ∧ 2 ≤ (s3_2.blk.ctx 7).result ∧ (s3_2.blk.ctx 7).result ≤ 5)) ∧ ((s3_2.blk.ctx 7).period ≠ 0) ∧ ((s3_2.blk.ctx 7).count ≠ 0) ∧ (s3_2.blk.cueE { stamp := stampOf (tcOf (s3_2.blk.ctx 7).stamp + (s3_2.blk.ctx 7).period), target := (s3_2.blk.ctx 7).target, action := (s3_2.blk.ctx 7).action, ctrl := (s3_2.blk.ctx 7).ctrl, tol := (s3_2.blk.ctx 7).tol, origin := (s3_2.blk.ctx 7).origin, sys := (s3_2.blk.ctx 7).sys, period := (s3_2.blk.ctx 7).period, count := if (s3_2.blk.ctx 7).count = 65535 then 65535 else (s3_2.blk.ctx 7).count - 1, state := (s3_2.blk.ctx 7).state, result := (s3_2.blk.ctx 7).result, lateness := (s3_2.blk.ctx 7).lateness, occ := (s3_2.blk.ctx 7).occ, args := (s3_2.blk.ctx 7).args, seq := (s3_2.blk.ctx 7).seq, e := (s3_2.blk.ctx 7).e, ovf := (s3_2.blk.ctx 7).ovf, slot := (s3_2.blk.ctx 7).slot, effAt := (s3_2.blk.ctx 7).effAt : Ctx } = (s3_2.blk.ctx 7).e + ↑(s3_2.blk.ctx 7).period) ∧ (↑s3_2.blk.time.air ≤ (s3_2.blk.ctx 7).e + ↑(s3_2.blk.ctx 7).period + ↑(s3_2.blk.ctx 7).period)) ∧
    (Settled s3_5 ∧ (s3_5.blk.flag U.dsp F.DSP_STAT_CUE_FULL = false) ∧ (0 < s3_5.blk.freeCtxs) ∧ ((s3_5.blk.ctx 7).state = 5) ∧ ((s3_5.blk.ctx 7).result ≠ 0) ∧ (Word.fld (BitVec.ofNat 64 (s3_5.blk.ctx 7).ctrl) 2 2 = 1 ∨ Word.fld (BitVec.ofNat 64 (s3_5.blk.ctx 7).ctrl) 3 3 = 1 ∧ 2 ≤ (s3_5.blk.ctx 7).result ∧ (s3_5.blk.ctx 7).result ≤ 5) ∧ ((s3_5.blk.ctx 7).period = 0) ∧ ((s3_5.blk.ctx 7).origin = 5)) ∧
    (((s3_5.blk.ring 5).notify = 16384 + 5) ∧ ((s3_5.blk.ring 5).en = true) ∧ ((s3_5.blk.ring 5).cls = clsEvt) ∧ ((s3_5.blk.ring 5).inHost = false) ∧ ((s3_5.blk.ring 5).isFull = false) ∧ ((s3_5.blk.ring 5).lossDue = 0) ∧ ((s3_5.blk.ring 5).func = 31) ∧ (s3_5.blk.regionBase 1 + BitVec.toNat (s3_5.blk.ring 5).base + 64 * ((s3_5.blk.ring 5).prod % 2 ^ (s3_5.blk.ring 5).log2) + 64 ≤ hbmSize)) ∧
    ((s3_5.blk.pcDead (pcOf (s3_5.blk.regionBase 1 + BitVec.toNat (s3_5.blk.ring 5).base + 64 * ((s3_5.blk.ring 5).prod % 2 ^ (s3_5.blk.ring 5).log2))) = false) ∧ ((s3_5.blk.ctx 7).target < 2 ^ 16) ∧ ((s3_5.blk.ctx 7).action < 2 ^ 8) ∧ ((s3_5.blk.ctx 7).result < 2 ^ 8) ∧ ((s3_5.blk.ctx 7).ctrl < 2 ^ 8) ∧ ((s3_5.blk.ctx 7).lateness < 2 ^ 32) ∧ ((s3_5.blk.ctx 7).occ < 2 ^ 32) ∧ ((s3_5.blk.regionBase 1 + BitVec.toNat (s3_5.blk.ring 5).base + 64 * ((s3_5.blk.ring 5).prod % 2 ^ (s3_5.blk.ring 5).log2)) % 64 = 0)) ∧
    (Takes s3_0 Who.pf U.dsp ∧ (s3_0.blk.time.coll = []) ∧ ((s3_0.blk.ctx 7).state = 1) ∧ ((s3_0.blk.ctx 7).action ≠ 32)) ∧
    (Takes s3_1 Who.pf U.dsp ∧ (s3_1.blk.time.coll = []) ∧ ((s3_1.blk.ctx 7).state ≠ 1)) :=
  by refine ⟨?_, ?_, ?_, ?_, ?_, ?_, ?_, ?_⟩ <;> decide +kernel

theorem meets_stagingAndWaiting :
    (Settled s1_3 ∧ (Store.wf Ctx.init s1_3.blk.ctxs = true) ∧ (s1_3.blk.flag 0 F.FLT_MODE_FATAL = true ∨ s1_3.blk.dsp.stagedAt = s1_3.blk.t + 1 ∨ 2048 ≤ s1_3.blk.inflight ∨ ∃ (y : Nat × Ctx), y ∈ s1_3.blk.ctxs ∧ y.snd.state = 3)) ∧
    (Settled s1_0 ∧ (Store.wf Ctx.init s1_0.blk.ctxs = true) ∧ (¬(s1_0.blk.flag 0 F.FLT_MODE_FATAL = true ∨ s1_0.blk.dsp.stagedAt = s1_0.blk.t + 1 ∨ 2048 ≤ s1_0.blk.inflight ∨ ∃ (y : Nat × Ctx), y ∈ s1_0.blk.ctxs ∧ y.snd.state = 3)) ∧ ((s1_0.blk.ctx 7).state = 1) ∧ ((s1_0.blk.ctx 7).slot = false) ∧ ((s1_0.blk.ctx 7).e - 8192 ≤ ↑s1_0.blk.time.air) ∧ (↑s1_0.blk.time.air ≤ (s1_0.blk.ctx 7).e) ∧ (s1_0.blk.shadowUsed (s1_0.blk.ctx 7).target < 16) ∧ (∀ (y : Nat × Ctx), y ∈ s1_0.blk.stageable → y.fst ≠ 7 → cueBefore (s1_0.blk.ctx 7) y.snd = true)) ∧
    (Settled s1_1 ∧ (Store.wf Ctx.init s1_1.blk.ctxs = true) ∧ ((s1_1.blk.ctx 7).state = 1) ∧ ((s1_1.blk.ctx 7).slot = true) ∧ (↑s1_1.blk.time.air ≤ (s1_1.blk.ctx 7).e)) ∧
    (((s1_0.blk.ctx 7).state ≠ 1 ∨ (s1_0.blk.ctx 7).slot = false) ∧ DueNow s1_0 (s1_0.blk.elapsedOfAir (s1_0.blk.ctx 7).e.toNat)) ∧
    (((s1_3.blk.ctx 7).state ≠ 1)) :=
  ⟨by decide +kernel, by decide +kernel, by decide +kernel, by decide +kernel, by decide +kernel⟩

end W9

namespace W10

def pw (k : Nat) : List Nat := (List.range 64).map fun j => if j = k then 1000000 else 100
def flat : List Nat := List.replicate 64 1000
def onn (b : Block) : Block := (run b).setState (U.pbd 7) 2 |>.setFlag (U.pbd 7) F.PROT_CFG_OSC_EN true
def osc (l : List (List Nat × Int)) (b : Block) : Block := let b := at_ 16914 (onn b); b.setPbdH 7 {b.pbdH 7 with osc := {window := l, last := 500}}
def win (n : Nat) (p : List Nat) : List (List Nat × Int) := List.replicate n (p, 0)
def orx (run n lim : Nat) (b : Block) : Block := let b := onn b; let u := U.orx 3
  let b := ((((b.setFlag u F.ORX_EMW_CFG_EN true).setFlag u (F.ORX_EMW_LIM_V 2) true).setFld u (F.ORX_EMW_LIM_LIMIT 2) lim).setFld u F.ORX_EMW_STAT_ENTRY 2).setFld u F.ORX_EMW_STAT_RUN run
  let b := ((b.setFld u F.ORX_EMW_CFG_N n).setFld u F.ORX_STAT_ENTRY 2).setFld u F.ORX_STAT_TXC 9
  let b := at_ 3048 (b.setOrxH 3 {b.orxH 3 with ticksLeft := 4, emwAt := 1000})
  b.setTxcH 9 {b.txcH 9 with insts := [(7,0),(7,1)]}
def ovl (b : Block) : Block := let b := onn b; let b := { b with time := { b.time with tickStart := 1000 } }; ((b.setFlag (U.pbd 7) F.PROT_CFG_OVL_EN true).setFld (U.pbd 7) F.PROT_CFG_OVL_TICKS 8).setFld (U.pbd 7) F.PROT_STAT_OVL_RUN 12
def prob (f : Nat) (b : Block) : Block := (b.setFlag (U.pbd 7) F.PROT_STAT_PROBATION true).setFld (U.pbd 7) F.PROT_STAT_FAILS f
def pub (mar : Bool) (b : Block) : Block := let b := onn b; let b := {b with time := {b.time with tickStart := 1000, air := 19660800*3}, sync := {b.sync with  refOk := true}}
  (((b.setFlag (U.pbd 7) F.PBD_PROBE_CFG_EN true).setFlag (U.mc 15) F.MC_STAT_RUN true).setFlag (U.pbd 7) F.PROT_CFG_MARGIN_EN mar).setFlag U.sync F.SYNC_STAT_EVER_LOCKED true
def mod (f : List Fld) (b : Block) : Block := f.foldl (fun b f => b.setFlag 0 f true) ((onn b).setFlag 0 F.ROOT_SQUALL_ACTIVE true)
def ss (st : SqStep) (b : Block) : Block := let b := onn b; {b.setPbdH 7 {b.pbdH 7 with sqSeq := [(1000,st)]} with root := {b.root with seq := [(1000,.switches)]}}
def sq (c due : Nat) (b : Block) : Block := let b := (onn b).squallAt 7 c 900; let b := { b with time := { b.time with coll := [] } }; let b := b.setReg (U.pbd 7) R.PROT_DUE (if due = 0 then BitVec.allOnes 64 else stampOf due); ({b with time := {b.time with tickStart := 1000}}).setFlag (U.pbd 7) F.PROT_CFG_AUTO_RST true
def rq (b : Block) : Block := b.setPbdH 7 {b.pbdH 7 with restartReq := true}
def flp (p : Nat) (b : Block) : Block := let b := (onn b).setFld (U.pbd 7) F.PROT_FL_STAT_PHASE p; let b := b.setPbdH 7 {b.pbdH 7 with fl := {start := 500}}
  {b with loop := {b.loop with act := [(regKey (U.pbd 7) (R.LOOP_CTRL 1), 1)]}}
def lt (a : Nat) (b : Block) : Block := (((b.setPwr (U.lane 5) 2).setState (U.lane 5) 2).setFld (U.lane 5) F.LANE_CFG_PBD 0x0107).setFld (U.lane 5) F.LANE_STAT_ADAPT a
def s1_0 : State := mk run
def s1_1 : State := endAt 20000 (mk (osc (win 7 flat)))
def s1_2 : State := endAt 20000 (mk (osc (win 6 flat)))
def s1_7 : State := endAt 20000 (mk fun b => let b := osc (win 6 flat) b; { b with time := { b.time with shutOut := [(7, [(2000, 2100)])] } })
def s1_8 : State := mk fun b => (orx 0 2 100 b).setFlag (U.orx 3) (F.ORX_EMW_LIM_V 2) false
def s1_3 : State := mk (orx 0 2 100)
def s1_4 : State := mk (orx 1 2 100)
def s1_5 : State := mk (orx 1 1 5000)
def s1_6 : State := mk ovl
def s2_0 : State := mk run
def probed (n : Nat) (b : Block) : Block := b.setPbdH 7 { b.pbdH 7 with probeTicks := List.replicate n 16384 }
def s2_1 : State := mk fun b => probed 1920 (pub true b)
def s2_2 : State := mk fun b => probed 191 (pub true b)
def s3_0 : State := mk run
def s3_11 : State := mk fun b => let b := onn b; {b with host := {b.host with rstLow := true}}
def s3_6 : State := mk (mod [F.ROOT_SQUALL_HOST])
def s3_7 : State := mk (mod [F.ROOT_SQUALL_HOST, F.ROOT_SQUALL_MUTE_N])
def s3_9 : State := mk (ss .silent)
def s4_0 : State := mk run
def s4_1 : State := mk (sq 0 5001000)
def s4_4 : State := mk fun b => rq (sq 0 5001000 b)
def s4_5 : State := mk fun b => rq (sq 6 0 b)
def s4_2 : State := mk fun b => let b := rq (sq 0 5001000 b); { b with time := { b.time with coll := [{ uid := U.pbd 7, off := F.PROT_CTRL_RESTART.off, mask := 0xFFFFFFFFFFFFFFFF, cls := 4 }] } }
def s4_3 : State := mk fun b => let b := { onn b with time := { (onn b).time with tickStart := 1000 } }; b.setPbdH 7 { b.pbdH 7 with reenter := true }
def s4_6 : State := mk fun b => prob 7 (ovl b)
def s4_7 : State := mk fun b => let b := onn b; b.setPbdH 7 {b.pbdH 7 with probEnd := some 1000}
def s5_0 : State := mk run
def s5_1 : State := mk (flp 1)
def s5_2 : State := mk (flp 2)
def s5_3 : State := mk (flp 4)
def s5_6 : State := endAt 984000000 (mk fun b => at_ (500+983040000) (flp 1 b))
def s5_7 : State := endAt 10000000000 (mk fun b => at_ (500+196608000* max 1 ((flp 2 b).fld (U.pbd 7) F.PROT_FL_CFG_TRAIN_MAX)) (lt 1 (flp 2 b)))

abbrev oscDue (s : State) : Prop := Settled s ∧ s.blk.pbdOn 7 = true ∧ s.blk.flag (U.pbd 7) F.PROT_CFG_OSC_EN = true ∧ (s.blk.pbdH 7).osc.last = 500 ∧
  DueNow s (500 + 256 * sampleTc (s.blk.rateOf 7) + 30)
abbrev oscSilent (s : State) : Bool := s.blk.outShut 7 500 (500 + 256 * sampleTc (s.blk.rateOf 7))
abbrev oscGain (s : State) : Int := s.blk.gainAt 7 (500 + 256 * sampleTc (s.blk.rateOf 7))
abbrev emwDue (s : State) : Prop := Settled s ∧ s.blk.flag (U.orx 3) F.ORX_EMW_CFG_EN = true ∧ (s.blk.orxH 3).ticksLeft ≠ 0 ∧ (s.blk.orxH 3).emwAt = 1000 ∧ DueNow s (1000 + 2048)
abbrev emwJudged (s : State) : Prop := s.blk.emwValid 3 s.blk.t = true ∧ s.blk.flag (U.orx 3) (F.ORX_EMW_LIM_V (s.blk.fld (U.orx 3) F.ORX_STAT_ENTRY)) = true
abbrev emwRun (s : State) : Nat := if s.blk.fld (U.orx 3) F.ORX_EMW_STAT_ENTRY = s.blk.fld (U.orx 3) F.ORX_STAT_ENTRY then s.blk.fld (U.orx 3) F.ORX_EMW_STAT_RUN else 0

theorem meets_detectors :
    (Settled s1_0 ∧ (¬(s1_0.blk.pbdOn 7 = true ∧ s1_0.blk.flag (U.pbd 7) F.PROT_CFG_OSC_EN = true)) ∧ (¬(s1_0.blk.flag (U.orx 3) F.ORX_EMW_CFG_EN = true ∧ (s1_0.blk.orxH 3).ticksLeft ≠ 0)) ∧
      s1_0.blk.t ≠ s1_0.blk.time.tickStart) ∧
    (oscDue s1_7 ∧ oscSilent s1_7 = true) ∧
    (oscDue s1_2 ∧ oscSilent s1_2 = false ∧ (s1_2.blk.pbdH 7).osc.window.length < oscBlocks (s1_2.blk.rateOf 7)) ∧
    (oscDue s1_1 ∧ oscSilent s1_1 = false ∧ (s1_1.blk.pbdH 7).osc.window.length = oscBlocks (s1_1.blk.rateOf 7) ∧
      (List.range 64).map (fun j => ([pw 5].map fun x => x.getD j 0).sum) = pw 5 ∧ oscGrown (s1_1.blk.fld (U.pbd 7) F.PROT_OSC_GROW) (pw 5) (oscGain s1_1) (s1_1.blk.pbdH 7).osc.window = true ∧
      oscPeaked (s1_1.blk.fld (U.pbd 7) F.PROT_OSC_FLAT) (pw 5) (s1_1.blk.pbdH 7).osc.window = true ∧ notLast s1_1 7 0 ∧
      oscPeaked (s1_1.blk.fld (U.pbd 7) F.PROT_OSC_FLAT) flat (s1_1.blk.pbdH 7).osc.window = false) ∧
    (emwDue s1_8 ∧ ¬ emwJudged s1_8) ∧
    (emwDue s1_5 ∧ emwJudged s1_5 ∧ s1_5.blk.oobPower 9 [] ≤ 5 * 2 ^ 64 ∧ dbLe (-7680) 0 5 = false ∧ -7680 < s1_5.blk.sfld (U.orx 3) (F.ORX_EMW_LIM_LIMIT 2)) ∧
    (emwDue s1_3 ∧ emwJudged s1_3 ∧ (s1_3.blk.fld (U.orx 3) F.ORX_STAT_TXC = 9) ∧ s1_3.blk.oobPower 9 (List.replicate 2048 100) ≤ 1 * 2 ^ 64 ∧
      fineLe (25 * (s1_3.blk.sfld (U.orx 3) (F.ORX_EMW_LIM_LIMIT 2) + 1) + 16) (s1_3.blk.oobPower 9 (List.replicate 2048 100)) 1 = true ∧
      emwRun s1_3 + 1 < max 1 (s1_3.blk.fld (U.orx 3) F.ORX_EMW_CFG_N) ∧ emwRun s1_3 < 15) ∧
    (emwDue s1_4 ∧ emwJudged s1_4 ∧ (s1_4.blk.fld (U.orx 3) F.ORX_STAT_TXC = 9) ∧ max 1 (s1_4.blk.fld (U.orx 3) F.ORX_EMW_CFG_N) ≤ emwRun s1_4 + 1 ∧ emwRun s1_4 < 15 ∧
      (∃ (x : Nat × Nat), x ∈ (s1_4.blk.txcH 9).insts ∧ x.fst = 7) ∧ (∀ (x : Nat × Nat), x ∈ (s1_4.blk.txcH 9).insts → x.fst = 7) ∧ notLast s1_4 7 3) ∧
    (Settled s1_6 ∧ (s1_6.blk.flag (U.pbd 7) F.PROT_CFG_OVL_EN = true ∧ s1_6.blk.t = s1_6.blk.time.tickStart ∧
      s1_6.blk.fld (U.pbd 7) F.PROT_STAT_OVL_RUN = 4 + s1_6.blk.fld (U.pbd 7) F.PROT_CFG_OVL_TICKS ∧ causeBit s1_6 7 4 = false) ∧ notLast s1_6 7 4) :=
  by refine ⟨?_, ?_, ?_, ?_, ?_, ?_, ?_, ?_, ?_⟩ <;> decide +kernel

theorem meets_guardAndFirstLight :
    (Settled s5_1 ∧ (isUl 7 = true) ∧ (s5_1.blk.flag (U.pbd 7) F.PROT_NRG_PATH_SRC = false) ∧ (s5_1.blk.actFlag (U.pbd 7) (F.LOOP_CTRL_EN 1) = true) ∧ (s5_1.blk.qual 1 = false) ∧ (s5_1.blk.flag (U.pbd 7) F.PROT_NRG_STAT_STALE = false)) ∧
    (Settled s5_6 ∧ (s5_6.blk.fld (U.pbd 7) F.PROT_FL_STAT_PHASE = 1) ∧ DueNow s5_6 ((s5_6.blk.pbdH 7).fl.start + 983040000) ∧ notLast s5_6 7 6) ∧
    (Settled s5_0 ∧ (s5_0.blk.fld (U.pbd 7) F.PROT_FL_STAT_PHASE ≠ 1)) ∧
    (Settled s5_2 ∧ (s5_2.blk.fld (U.pbd 7) F.PROT_FL_STAT_PHASE = 2) ∧ (∀ (i : Nat), i < 264 → s5_2.blk.lanePbd i = 7 → s5_2.blk.inService (U.lane i) = true → s5_2.blk.adapt i = 2)) ∧
    (Settled s5_7 ∧ (s5_7.blk.fld (U.pbd 7) F.PROT_FL_STAT_PHASE = 2) ∧ DueNow s5_7 ((s5_7.blk.pbdH 7).fl.start + max 1 (s5_7.blk.fld (U.pbd 7) F.PROT_FL_CFG_TRAIN_MAX) * 196608000)) ∧
    (Takes s5_3 Who.runtime (U.pbd 7) ∧ (s5_3.blk.time.coll = []) ∧ (whoSys Who.runtime = true) ∧ (s5_3.blk.fld (U.pbd 7) F.PROT_FL_STAT_PHASE = 4 ∨ s5_3.blk.fld (U.pbd 7) F.PROT_FL_STAT_PHASE = 5)) ∧
    (Takes s5_0 Who.runtime (U.pbd 7) ∧ (s5_0.blk.time.coll = []) ∧ (s5_0.blk.fld (U.pbd 7) F.PROT_FL_STAT_PHASE < 4) ∧ Takes s5_0 Who.pf (U.pbd 7) ∧ (whoSys Who.pf = false)) :=
  by refine ⟨?_, ?_, ?_, ?_, ?_, ?_, ?_⟩ <;> decide +kernel

abbrev pubAsked (s : State) : Prop := s.blk.flag (U.pbd 7) F.PBD_PROBE_CFG_EN = true ∧ s.blk.pbdOn 7 = true ∧ s.blk.t = s.blk.time.tickStart ∧ s.blk.time.air % 19660800 / 16384 % 240 = 0
abbrev pubGood (s : State) : Prop := s.blk.everLocked = true ∧ s.blk.flag (U.mc (2 * 7 + 1)) F.MC_STAT_RUN = true ∧ 1920 * 16384 ≤ 10 * (s.blk.pbdH 7).probeTicks.sum

theorem meets_probePublications :
    (Settled s2_1 ∧ pubAsked s2_1 ∧ pubGood s2_1 ∧ (s2_1.blk.pbdH 7).probeTicks.sum ≤ 1920 * 16384 ∧ s2_1.blk.loopGain 7 [] ≤ 2 ^ 112 ∧
      s2_1.blk.fld (U.pbd 7) F.PROT_FL_STAT_PHASE ≠ 1 ∧ s2_1.blk.flag (U.pbd 7) F.PROT_CFG_MARGIN_EN = true ∧ notLast s2_1 7 1) ∧
    (Settled s2_2 ∧ pubAsked s2_2 ∧ ¬ pubGood s2_2 ∧ (s2_2.blk.pbdH 7).probeTicks.sum ≤ 1920 * 16384) ∧
    (Settled s2_0 ∧ ¬ pubAsked s2_0) :=
  ⟨by decide +kernel, by decide +kernel, by decide +kernel⟩

theorem meets_restartAndProbation :
    (Takes s4_1 Who.runtime (U.pbd 7) ∧ (s4_1.blk.time.coll = []) ∧ (whoSys Who.runtime = true) ∧ (s4_1.blk.squalled 7 = true ∧ s4_1.blk.fld (U.pbd 7) F.PROT_STAT_CAUSE &&& 228 = 0 ∧ s4_1.blk.reg (U.pbd 7) R.PROT_DUE ≠ BitVec.allOnes 64 ∧ tcOf (s4_1.blk.reg (U.pbd 7) R.PROT_DUE) ≤ s4_1.blk.time.air ∧ s4_1.blk.ownState (U.pbd 7) ≠ 4 ∧ s4_1.blk.ownState (U.pbd 7) ≠ 6)) ∧
    (Takes s4_0 Who.pf (U.pbd 7) ∧ (s4_0.blk.time.coll = []) ∧ (whoSys Who.pf = false ∨ ¬(s4_0.blk.squalled 7 = true ∧ s4_0.blk.fld (U.pbd 7) F.PROT_STAT_CAUSE &&& 228 = 0 ∧ s4_0.blk.reg (U.pbd 7) R.PROT_DUE ≠ BitVec.allOnes 64 ∧ tcOf (s4_0.blk.reg (U.pbd 7) R.PROT_DUE) ≤ s4_0.blk.time.air ∧ s4_0.blk.ownState (U.pbd 7) ≠ 4 ∧ s4_0.blk.ownState (U.pbd 7) ≠ 6))) ∧
    (Settled s4_1 ∧ (s4_1.blk.flag (U.pbd 7) F.PROT_CFG_AUTO_RST = true) ∧ (s4_1.blk.flag 0 F.FLT_MODE_FATAL = false) ∧ (s4_1.blk.t ≤ s4_1.blk.time.tickEnd)) ∧
    (Settled s4_0 ∧ (s4_0.blk.flag (U.pbd 7) F.PROT_CFG_AUTO_RST = false ∨ s4_0.blk.squalled 7 = false)) ∧
    (Settled s4_4 ∧ (s4_4.blk.t = s4_4.blk.time.tickStart) ∧ (s4_4.blk.squalled 7 = true) ∧ (s4_4.blk.flag 0 F.FLT_MODE_FATAL = false) ∧ ((s4_4.blk.pbdH 7).restartReq = true) ∧ (s4_4.blk.fld (U.pbd 7) F.PROT_STAT_CAUSE &&& 228 = 0) ∧
      s4_4.blk.overridden (U.pbd 7) F.PROT_CTRL_RESTART = false) ∧
    (Settled s4_2 ∧ (s4_2.blk.t = s4_2.blk.time.tickStart) ∧ (s4_2.blk.squalled 7 = true) ∧ (s4_2.blk.flag 0 F.FLT_MODE_FATAL = false) ∧ ((s4_2.blk.pbdH 7).restartReq = true) ∧
      s4_2.blk.overridden (U.pbd 7) F.PROT_CTRL_RESTART = true) ∧
    (Settled s4_3 ∧ (s4_3.blk.t = s4_3.blk.time.tickStart) ∧ (s4_3.blk.flag 0 F.FLT_MODE_FATAL = false) ∧ ((s4_3.blk.pbdH 7).reenter = true) ∧ s4_3.blk.ownState (U.pbd 7) = 2 ∧
      (s4_3.blk.fld (U.pbd 7) F.PROT_STAT_CAUSE &&& 228 = 0) ∧ s4_3.blk.overridden (U.pbd 7) F.PROT_CTRL_RESTART = false) ∧
    (Settled s4_5 ∧ (s4_5.blk.t = s4_5.blk.time.tickStart) ∧ (s4_5.blk.squalled 7 = true) ∧ (s4_5.blk.flag 0 F.FLT_MODE_FATAL = false) ∧ ((s4_5.blk.pbdH 7).restartReq = true) ∧ (s4_5.blk.fld (U.pbd 7) F.PROT_STAT_CAUSE &&& 228 ≠ 0)) ∧
    ((s4_0.blk.t ≠ s4_0.blk.time.tickStart)) ∧
    (Settled s4_7 ∧ ((s4_7.blk.pbdH 7).probEnd = some 1000) ∧ DueNow s4_7 1000) ∧
    (Settled s4_6 ∧ (s4_6.blk.flag (U.pbd 7) F.PROT_CFG_OVL_EN = true) ∧ (s4_6.blk.t = s4_6.blk.time.tickStart) ∧ (s4_6.blk.fld (U.pbd 7) F.PROT_STAT_OVL_RUN = 4 + s4_6.blk.fld (U.pbd 7) F.PROT_CFG_OVL_TICKS) ∧ (causeBit s4_6 7 4 = false) ∧ (s4_6.blk.flag (U.pbd 7) F.PROT_STAT_PROBATION = true) ∧ (s4_6.blk.fld (U.pbd 7) F.PROT_STAT_FAILS = 7) ∧ (s4_6.blk.ownState (U.pbd 7) ≠ 6)) :=
  by refine ⟨?_, ?_, ?_, ?_, ?_, ?_, ?_, ?_, ?_, ?_, ?_⟩ <;> decide +kernel

theorem meets_squallCommands :
    (Takes s3_0 Who.pf (U.pbd 7) ∧ (s3_0.blk.time.coll = []) ∧ Takes s3_0 Who.runtime (U.pbd 7) ∧ (whoSys Who.runtime = true) ∧ (whoSys Who.pf = false) ∧ Takes s3_0 Who.pf 0) ∧
    (Takes s3_6 Who.runtime 0 ∧ (s3_6.blk.time.coll = []) ∧ (s3_6.blk.flag 0 F.ROOT_SQUALL_MUTE_N = false) ∧ (s3_6.blk.flag 0 F.ROOT_SQUALL_KILN = false) ∧ (s3_6.blk.flag 0 F.ROOT_SQUALL_ACTIVE = true)) ∧
    (Takes s3_7 Who.runtime 0 ∧ (s3_7.blk.time.coll = []) ∧ (s3_7.blk.flag 0 F.ROOT_SQUALL_MUTE_N = true)) ∧
    (Settled s3_0 ∧ (s3_0.blk.inReset = false) ∧ (s3_0.blk.flag 0 F.ROOT_SQUALL_MUTE_N = false)) ∧
    (Settled s3_11 ∧ (s3_11.blk.inReset = true)) ∧
    (Settled s3_9 ∧ ((s3_9.blk.pbdH 7).sqSeq = [(1000, SqStep.silent)] ∨ (s3_9.blk.pbdH 7).sqSeq = [(1000, SqStep.switches)]) ∧ DueNow s3_9 1000 ∧ (s3_9.blk.root.seq = [(1000, SqStep.switches)])) :=
  by refine ⟨?_, ?_, ?_, ?_, ?_, ?_⟩ <;> decide +kernel

end W10

namespace W10b

def onn (b : Block) : Block := (run b).setState (U.pbd 7) 2 |>.setFlag (U.pbd 7) F.PROT_CFG_OSC_EN true
def s2_1 : State := mk fun b => (onn b).setFlag (U.pbd 7) F.PROT_NRG_PATH_SRC true

theorem meets_guardAndFirstLight_2 :
    Settled s2_1 ∧ (isUl 7 = false ∨ s2_1.blk.flag (U.pbd 7) F.PROT_NRG_PATH_SRC = true) :=
  by decide +kernel

end W10b

namespace W11

def u7 : Nat := U.pbd 7
def act (l : List (Nat × Word)) (b : Block) : Block := l.foldl (fun b x => {b with loop := {b.loop with act := Store.set (regReset u7 x.1) b.loop.act (regKey u7 x.1) x.2}}) b
def on (b : Block) : Block := let b := (run b).setState u7 2; let b := b.setPbdH 7 {b.pbdH 7 with sampled := true, loopIn := {known := true, iso := some 5000, cold := 700, slots := [(3,{m := some (-100), x := some 50}),(6,{m := none, x := some 0})]}}
  let b := act [(R.LOOP_CTRL 4, 1),(R.LOOP_SETPT 4, 3000),(R.LOOP_CTRL 5, 1),(R.LOOP_SETPT 5, 2500),(R.LOOP_CTRL 3, 1),(R.LOOP_CTRL 6,1)] b
  let b := b.setFld u7 F.PBD_GAIN_CMD 2400
  let b := b.setSlotH 7 3 {b.slotH 7 3 with running := true, s3 := {m0 := 6000000, e := -12}}
  at_ 16383 b
def s1_0 : State := mk on

theorem meets_blockFloating :
    (Int.natAbs 1 < 2 ^ 56) ∧ (Int.natAbs 8388607 < 2 ^ 56) ∧ (0 ≤ (bfNorm 8388607 0).snd) ∧ ((bfNorm 1 0).snd < 0) :=
  by decide +kernel

theorem meets_poolClose :
    Closes s1_0 ∧ 7 ∈ s1_0.blk.served ∧ (s1_0.blk.slotOn 7 0 = true) :=
  by decide +kernel

end W11

namespace W12

def u7 : Nat := U.pbd 7
def act (l : List (Nat × Word)) (b : Block) : Block := l.foldl (fun b x => {b with loop := {b.loop with act := Store.set (regReset u7 x.1) b.loop.act (regKey u7 x.1) x.2}}) b
def on (b : Block) : Block := act [(R.LOOP_CTRL 6,1),(R.LOOP_TUNE 6, 0x0010_0080)] ((run b).setState u7 2)
def miss (b : Block) : Block := (on b).setFld u7 (F.LOOP_STAT_MISS_RUN 6) 4
def pl (b : Block) : Block := (on b).setFld u7 F.LOOP_PBD_STAT_SUPV_RUN 8
def dl (b : Block) : Block := (((on b).setFlag u7 F.LOOP_PBD_STAT_LULL_DL true).setFld u7 F.LOOP_PBD_STAT_CLEAN 64).setState u7 3
def clip (n c : Nat) (b : Block) : Block := let b := (on b).setFlag u7 F.LOOP_PBD_STAT_BACKOFF (c != 0); b.setPbdH 7 {b.pbdH 7 with clipRun := n, cleanRun := c}
def tun (h : RelayH) (b : Block) : Block := let b := (on b).setFld u7 (F.LOOP_STAT_TUNE 6) 1; b.setSlotH 7 6 {b.slotH 7 6 with relay := h}
def cyc : RelayH := {cycles := [(35,186),(37,198),(36,192),(36,192)], count := 4}
def drt (b : Block) : Block := let b := (on b).setFld u7 (F.LOOP_SETPT_SETPT 6) 77; {b with loop := {b.loop with dirty := [regKey u7 (R.LOOP_SETPT 6)]}}
def iso (b : Block) : Block := (on b).setFld u7 F.PBD_PROBE_ISO_ISO_PASSIVE 5000
def s1_0 : State := mk on
def s1_1 : State := mk miss
def s1_10 : State := mk (tun {cyc with cycles := [(35,186),(90,198),(36,192),(36,192)]})
def s1_11 : State := mk (tun {cyc with overRun := 3})
def s1_3 : State := mk pl
def s1_4 : State := mk dl
def s1_7 : State := mk (clip 4 0)
def s1_8 : State := mk (clip 0 120)
def s1_9 : State := mk (tun cyc)
def s2_0 : State := mk on
def s2_4 : State := mk drt
def s2_6 : State := mk fun b => (iso b).setFld u7 (F.LOOP_SETPT_SETPT 4) 8000

theorem meets_loopEvents :
    (Settled s1_1 ∧ (s1_1.blk.pbdOn 7 = true) ∧ (s1_1.blk.flag (U.pbd 7) F.LOOP_PBD_STAT_LULL_DL = false) ∧ (s1_1.blk.slotOn 7 6 = true ∧ max 1 (s1_1.blk.actFld (U.pbd 7) F.LOOP_PBD_CTRL_N_MISS) ≤ s1_1.blk.fld (U.pbd 7) (F.LOOP_STAT_MISS_RUN 6))) ∧
    (Settled s1_4 ∧ (s1_4.blk.pbdOn 7 = false ∨ s1_4.blk.flag (U.pbd 7) F.LOOP_PBD_STAT_LULL_DL = true)) ∧
    (Settled s1_3 ∧ (s1_3.blk.pbdOn 7 = true) ∧ (s1_3.blk.flag (U.pbd 7) F.LOOP_PBD_STAT_LULL_PL = false) ∧ (s1_3.blk.fld (U.pbd 7) F.LOOP_PBD_STAT_SUPV_RUN = 8)) ∧
    (Settled s1_0 ∧ (s1_0.blk.fld (U.pbd 7) F.LOOP_PBD_STAT_SUPV_RUN ≠ 8)) ∧
    ((s1_4.blk.flag (U.pbd 7) F.LOOP_PBD_STAT_LULL_DL = true) ∧ (s1_4.blk.fld (U.pbd 7) F.LOOP_PBD_STAT_CLEAN = 64)) ∧
    ((s1_0.blk.fld (U.pbd 7) F.LOOP_PBD_STAT_CLEAN < 64) ∧ Takes s1_0 Who.pf (U.pbd 7) ∧ (s1_0.blk.time.coll = []) ∧ (s1_0.blk.fld (U.pbd 7) F.LOOP_PBD_STAT_SUPV_RUN = 0)) ∧
    (Takes s1_3 Who.pf (U.pbd 7) ∧ (s1_3.blk.time.coll = []) ∧ (s1_3.blk.fld (U.pbd 7) F.LOOP_PBD_STAT_SUPV_RUN ≠ 0)) ∧
    (Settled s1_7 ∧ (4 ≤ (s1_7.blk.pbdH 7).clipRun) ∧ (s1_7.blk.flag (U.pbd 7) F.LOOP_PBD_STAT_BACKOFF = false)) ∧
    (((s1_0.blk.pbdH 7).clipRun < 4)) ∧
    (Settled s1_8 ∧ (120 ≤ (s1_8.blk.pbdH 7).cleanRun)) ∧
    (((s1_0.blk.pbdH 7).cleanRun < 120)) ∧
    (Settled s1_9 ∧ (s1_9.blk.fld (U.pbd 7) (F.LOOP_STAT_TUNE 6) = 1) ∧ ((s1_9.blk.slotH 7 6).relay.consistent = true) ∧ ((List.foldl (fun (x : Int) (c : Nat × Int) => x + c.snd) 0 (s1_9.blk.slotH 7 6).relay.cycles).natAbs ≠ 0) ∧ (128 = s1_9.blk.actFld (U.pbd 7) (F.LOOP_TUNE_H 6))) ∧
    ((s1_0.blk.fld (U.pbd 7) (F.LOOP_STAT_TUNE 6) ≠ 1 ∨ (s1_0.blk.slotH 7 6).relay.consistent = false)) ∧
    (Settled s1_11 ∧ (s1_11.blk.fld (U.pbd 7) (F.LOOP_STAT_TUNE 6) = 1) ∧ (3 ≤ (s1_11.blk.slotH 7 6).relay.overRun)) ∧
    (Settled s1_10 ∧ (s1_10.blk.fld (U.pbd 7) (F.LOOP_STAT_TUNE 6) = 1) ∧ ((s1_10.blk.slotH 7 6).relay.overRun < 3) ∧ (max 4 (s1_10.blk.actFld (U.pbd 7) (F.LOOP_TUNE_TUNE_MAX 6)) ≤ (s1_10.blk.slotH 7 6).relay.count) ∧ ((s1_10.blk.slotH 7 6).relay.consistent = false) ∧ (s1_10.blk.tuneAbortReason 7 6 ≠ 0) ∧ (s1_10.blk.tuneAbortReason 7 6 ≠ 4)) ∧
    ((s1_9.blk.tuneAbortReason 7 6 = 0)) :=
  by refine ⟨?_, ?_, ?_, ?_, ?_, ?_, ?_, ?_, ?_, ?_, ?_, ?_, ?_, ?_, ?_, ?_⟩ <;> decide +kernel

theorem meets_loopWrites :
    ((s2_0.blk.time.coll = []) ∧ Takes s2_0 Who.pf (U.pbd 6) ∧ (sext 16 (Word.fld 1 15 0) ≠ -32768) ∧ Takes s2_0 Who.pf (U.pbd 7) ∧ (whoSys Who.pf = false) ∧ Takes s2_0 Who.runtime (U.pbd 7) ∧ (whoSys Who.runtime = true) ∧ (384 ≤ sext 16 (Word.fld 384 15 0)) ∧ (sext 16 (Word.fld 384 15 0) ≤ 1920) ∧ (s2_0.blk.sfld (U.pbd 7) F.PROT_CFG_M_SQUALL + 192 ≤ sext 16 (Word.fld 384 15 0))) ∧
    ((s2_0.blk.sfld (U.pbd 6) (F.LOOP_SETPT_SETPT 4) < sext 16 (Word.fld 1 15 0)) ∧ (s2_0.blk.lullLevel 6 < sext 16 (Word.fld 1 15 0))) ∧
    ((s2_6.blk.time.coll = []) ∧ Takes s2_6 Who.pf (U.pbd 7) ∧ (sext 16 (Word.fld 500 15 0) ≠ -32768) ∧ (sext 16 (Word.fld 500 15 0) ≤ s2_6.blk.sfld (U.pbd 7) (F.LOOP_SETPT_SETPT 4)) ∧ (Word.fld 500 0 0 = 0) ∧ (Word.fld 1 0 0 = 1)) ∧
    ((s2_4.blk.time.coll = []) ∧ Settled s2_4 ∧ (s2_4.blk.time.running = true) ∧ (s2_4.blk.inReset = false) ∧ regKey (U.pbd 7) (R.LOOP_SETPT 6) ∈ s2_4.blk.loop.dirty) ∧
    (Takes s2_0 Who.pf U.le) :=
  ⟨by decide +kernel, by decide +kernel, by decide +kernel, by decide +kernel, by decide +kernel⟩

end W12

namespace W12b

def u7 : Nat := U.pbd 7
def act (l : List (Nat × Word)) (b : Block) : Block := l.foldl (fun b x => {b with loop := {b.loop with act := Store.set (regReset u7 x.1) b.loop.act (regKey u7 x.1) x.2}}) b
def on (b : Block) : Block := act [(R.LOOP_CTRL 6,1),(R.LOOP_TUNE 6, 0x0010_0080)] ((run b).setState u7 2)
def s1_0 : State := mk fun b => (on b).setFld u7 F.PROT_CFG_M_SQUALL 400

theorem meets_loopWrites_2 :
    (s1_0.blk.time.coll = []) ∧ Takes s1_0 Who.runtime (U.pbd 7) ∧ (whoSys Who.runtime = true) ∧ (384 ≤ sext 16 (Word.fld 500 15 0)) ∧ (sext 16 (Word.fld 500 15 0) ≤ 1920) ∧ (sext 16 (Word.fld 500 15 0) < s1_0.blk.sfld (U.pbd 7) F.PROT_CFG_M_SQUALL + 192) :=
  by decide +kernel

end W12b

namespace W13

def mc (h : McH → McH) (b : Block) : Block := let b := (run b).setFlag (U.mc 9) F.MC_STAT_RUN true; let b := (b.setFld (U.mc 9) F.MC_STAT_WIN 4).setFld (U.mc 9) F.MC_CAL_OFFSET 64
  b.setMcH 9 (h {(b.mcH 9) with origin := 488, outs := 0, tout := 512, support := 39})
def idle (b : Block) : Block := (run b).setFld (U.mc 9) F.MC_COEF_ADDR_INDEX 15
def s1_0 : State := mk run
def fir (f : McH → McH) : State := { mk (fun b => ((((mc f b).setFld (U.mc 9) F.MC_CFG_PRESET 0).setFlag (U.mc 9) F.MC_CFG_PHASE false).setFld (U.mc 9) F.MC_STAT_ORDER 2).setFld (U.mc 9) F.MC_STAT_DECIM 8) with
  mem := ({} : Mem).wr .mcCoef (9 * 32 + 15) 65536 }
def s1_1 : State := fir fun h => { h with line := List.replicate 32 (2 ^ 30) }
def s1_2 : State := fir fun h => { h with env := some 5, ys := [7] }
def s2_0 : State := mk run
def s2_2 : State := mk fun b => (idle b).setState (U.mc 9) 2
def s2_4 : State := mk fun b => {mc id b with mcResets := [1000, 1100]}
def s2_6 : State := mk fun b => let b := run b; {b with host := {b.host with rstLow := true}}

theorem meets_chainCommands :
    (Settled s2_0 ∧ (s2_0.blk.inReset = false)) ∧
    (Settled s2_6 ∧ (s2_6.blk.inReset = true)) ∧
    (Takes s2_0 Who.pf (U.mc 9) ∧ (s2_0.blk.time.coll = []) ∧ (¬(s2_0.blk.ownState (U.mc 9) = 2 ∨ s2_0.blk.ownState (U.mc 9) = 5))) ∧
    (Takes s2_2 Who.pf (U.mc 9) ∧ (s2_2.blk.time.coll = []) ∧ (s2_2.blk.ownState (U.mc 9) = 2 ∨ s2_2.blk.ownState (U.mc 9) = 5)) ∧
    (Settled s2_4 ∧ (s2_4.blk.mcResets = [s2_4.blk.t, 1100]) ∧ (∀ (x : Nat), x ∈ [1100] → s2_4.blk.t < x) ∧ (s2_4.blk.t < s2_4.blk.time.tickEnd)) :=
  ⟨by decide +kernel, by decide +kernel, by decide +kernel, by decide +kernel, by decide +kernel⟩

abbrev outputDue (s : State) : Prop := Settled s ∧ s.blk.flag (U.mc 9) F.MC_STAT_RUN = true ∧ (s.blk.mcH 9).origin + ((s.blk.mcH 9).outs + 1) * (s.blk.mcH 9).tout = s.blk.t ∧
  s.blk.t ≤ s.blk.time.tickEnd ∧ 0 < (s.blk.mcH 9).support ∧ -6400 ≤ s.blk.sfld (U.mc 9) F.MC_CAL_OFFSET ∧ s.blk.sfld (U.mc 9) F.MC_CAL_OFFSET ≤ 6400 ∧
  (s.blk.mcFilter s.mem 9 [[3], [4]] [[5]] []).2 < 2 ^ 66 ∧ (∀ (x : Int), x ∈ (s.blk.mcH 9).ys → x < 2 ^ 66)

theorem meets_chainOutputs :
    (Settled s1_0 ∧ (s1_0.blk.flag (U.mc 9) F.MC_STAT_RUN = false)) ∧
    (outputDue s1_1 ∧ (s1_1.blk.mcH 9).env = none ∧ 0 < (s1_1.blk.mcFilter s1_1.mem 9 [[3], [4]] [[5]] []).2) ∧
    (outputDue s1_2 ∧ (s1_2.blk.mcH 9).env = some 5) :=
  ⟨by decide +kernel, by decide +kernel, by decide +kernel⟩

end W13

namespace W14

def ks (lv : Nat) (f : TsH → TsH) (b : Block) : Block := let b := at_ 1966080 (run b); let b := b.setFld (U.ts 7) F.TS_READ_LEVEL lv
  let b := b.setFld U.kiln F.KILN_STAT_LEVEL lv
  let x : TsH := {raws := [640,640,640], filts := [40*192], vals := [40*192]}
  b.setKiln fun k => {k with ts := (List.range 48).map fun n => (n, if n = 7 then f x else x)}
def raws (x : Nat) : List (BitVec 16) := (List.range 48).map fun n => if n = 7 then BitVec.ofNat 16 x else 640
def kx (lv st : Nat) (k : KilnH → KilnH) (b : Block) : Block := ((run b).setFld U.kiln F.KILN_STAT_LEVEL lv).setFld U.kiln F.KILN_STAT_STEP st |>.setKiln k
def sa (k : KilnH) : KilnH := {k with stepAt := some 1000}
def ra (k : KilnH) : KilnH := {k with riseAt := some 1000}
def th (st : Nat) (sp : Int) (b : Block) : Block := let b := (b.setState (U.pbd 7) 2).setFld (U.pbd 7) F.PBD_GAIN_CMD 5000; b.setTherm 7 sp st
def cel (b : Block) : Block := b.setFld U.cel F.CEL_STAT_STATE 1
def sl (x : KilnStop) (lv : Nat) (b : Block) : Block := (((kx lv 3 (fun k => {k with stops := [(1000,x),(5000,.off)]}) b).setFld (U.txc 5) F.TXC_STAT_CH_STATE 3).setPd 5 2).setPd 72 2
def s1_0 : State := endAt 2000000 (mk (ks 0 id))
def s2_0 : State := mk run
def s2_1 : State := mk fun b => cel (kx 2 0 sa b)
def s2_4 : State := mk fun b => th 0 32767 (kx 2 3 sa b)
def s2_6 : State := mk fun b => th 1 4000 (kx 1 0 ra b)
def s3_0 : State := mk (sl .silent 4)
def s3_1 : State := mk (sl .off 5)
def s3_4 : State := mk fun b => (kx 5 0 id b).setTsH 7 {vals := [20000]}

theorem meets_kilnActions :
    (Settled s2_1 ∧ (s2_1.blk.kiln.stepAt = some 1000) ∧ DueNow s2_1 1000 ∧ (2 ≤ s2_1.blk.fld U.kiln F.KILN_STAT_LEVEL) ∧ (s2_1.blk.fld U.kiln F.KILN_STAT_LEVEL ≤ 4) ∧ (s2_1.blk.fld U.kiln F.KILN_STAT_STEP < 3)) ∧
    (Settled s2_4 ∧ (s2_4.blk.kiln.stepAt = some 1000) ∧ DueNow s2_4 1000 ∧ (2 ≤ s2_4.blk.fld U.kiln F.KILN_STAT_LEVEL) ∧ (s2_4.blk.fld U.kiln F.KILN_STAT_LEVEL ≤ 4) ∧ (3 ≤ s2_4.blk.fld U.kiln F.KILN_STAT_STEP) ∧ (s2_4.blk.fld (U.pbd 7) F.LOOP_THERM_STEPS < 1025)) ∧
    (Settled s2_6 ∧ (s2_6.blk.kiln.riseAt = some 1000) ∧ DueNow s2_6 1000 ∧ (s2_6.blk.fld U.kiln F.KILN_STAT_LEVEL < 2)) ∧
    (Settled s2_0 ∧ (s2_0.blk.kiln.riseAt = none) ∧ (s2_0.blk.kiln.stepAt = none)) ∧
    (Settled s3_0 ∧ (s3_0.blk.kiln.stops = [(1000, KilnStop.silent), (5000, KilnStop.off)]) ∧ DueNow s3_0 1000) ∧
    (Settled s3_1 ∧ (s3_1.blk.kiln.stops = [(1000, KilnStop.off), (5000, KilnStop.off)]) ∧ DueNow s3_1 1000) ∧
    (Takes s2_0 Who.pf U.kiln ∧ (s2_0.blk.time.coll = []) ∧ (s2_0.blk.fld U.kiln F.KILN_STAT_LEVEL ≠ 5)) ∧
    (Settled s3_4 ∧ Takes s3_4 Who.pf U.kiln ∧ (s3_4.blk.time.coll = []) ∧ (s3_4.blk.fld U.kiln F.KILN_STAT_LEVEL = 5) ∧ (s3_4.blk.kilnCool = false)) ∧
    (Takes s3_1 Who.pf U.kiln ∧ (s3_1.blk.time.coll = []) ∧ (s3_1.blk.fld U.kiln F.KILN_STAT_LEVEL = 5) ∧ (s3_1.blk.kilnCool = true)) :=
  by refine ⟨?_, ?_, ?_, ?_, ?_, ?_, ?_, ?_, ?_⟩ <;> decide +kernel

theorem meets_kilnSamples :
    (Settled s1_0 ∧ (s1_0.blk.inReset = false) ∧ DueNow s1_0 (s1_0.blk.kiln.sampleAt + 1966080)) ∧
    (sound s1_0 (raws 640)) ∧
    ((s1_0.blk.kiln.forced = false) ∧ (s1_0.blk.fld U.kiln F.KILN_STAT_LEVEL < 4) ∧ ((raws 3000).length = 48) ∧ (((raws 3000).getD 7 0).toInt < -800 ∨ 2400 < ((raws 3000).getD 7 0).toInt) ∧ (s1_0.blk.tsLive 7 = true) ∧ (s1_0.blk.fld U.kiln F.KILN_STAT_LEVEL = 0)) :=
  ⟨by decide +kernel, ⟨rfl, fun r h => of_decide_eq_true (List.all_eq_true.mp (by decide +kernel :
      (raws 640).all (fun r => decide (-800 ≤ r.toInt ∧ r.toInt ≤ 2400)) = true) r h), by decide +kernel⟩, by decide +kernel⟩

end W14

namespace W15

def ln (q l : Nat) (b : Block) : Block := (b.setFld (U.fh q) F.FH_STAT_LINK l)
def lanes8 (b : Block) : Block := (List.range 8).foldl (fun b q => (b.setFld (U.fh q) F.FH_LANE_PHY0 (2*(q%4))).setFld (U.fh q) F.FH_LANE_PHY1 (2*(q%4)+1)) b
def sp (b : Block) : Block := (List.range 4).foldl (fun b q => b.setFld (U.fh q) F.FH_LANE_FAILED 256) b
def tr (n : Nat) (b : Block) : Block := b.setFhH 2 {trainAt := n}
def hdup (st : Nat) (f : HdH → HdH) (b : Block) : Block := let b := ((ln 2 2 (run b)).setHdH 7 (f {known := true, port := some 2, lastStatus := 1000}))
  (((b.setFld (U.hd 7) F.UNIT_STATE_STATE st).setFld (U.hd 7) F.HD_CAP_DMAX 100000).setFld (U.hd 7) F.HD_HEAD_LAT_HEAD_DL 3000).setFld (U.hd 7) F.HD_HEAD_LAT_HEAD_UL 3500
def fl (m : Nat) (v : Bool) (b : Block) : Block := ((b.setFld (U.hd 7) (F.HD_FLOW_PBD 3) (0x100+m)).setFlag (U.hd 7) (F.HD_FLOW_V 3) v).setFld (U.pb (m/2)) F.PB_CFG_RATE 2
def dul (b : Block) : Block := b.setFld (U.hd 7) F.HD_LAT_D_UL 42944
def fls (n : Nat) (l : List Nat) (b : Block) : Block := b.setHdH 7 {b.hdH 7 with flows := Store.set UlFlow.init (b.hdH 7).flows 3 {next := n, have_ := l}}
def bd (h q : Nat) (b : Block) : Block := (((b.setReg (U.hd h) R.HD_SERIAL 77).setFlag (U.hd h) F.HD_BIND_V true).setFld (U.hd h) F.HD_BIND_PORT q)
def s1_0 : State := mk run
def s1_1 : State := mk fun b => lanes8 (ln 2 1 (run b))
def s1_2 : State := endAt (3*10^9) (mk fun b => tr 50880 (ln 2 1 (lanes8 (at_ 2949170880 (run b)))))
def s1_3 : State := mk fun b => lanes8 (ln 2 2 (run b))
def s1_4 : State := mk fun b => sp (lanes8 (ln 2 2 (run b)))
def s2_0 : State := mk run
def s2_1 : State := mk (ln 2 2 ∘ run)
def s2_2 : State := mk fun b => dul (fl 9 true (hdup 2 id b))
def s2_5 : State := mk fun b => fls 4958056 [5013440] (dul (fl 9 true (hdup 2 id b)))
def s3_0 : State := mk run
def s3_1 : State := mk (ln 2 2 ∘ run)
def s3_2 : State := mk fun b => bd 7 2 (ln 2 2 (run b))
def s3_3 : State := mk fun b => bd 7 3 (ln 2 2 (run b))
def s3_5 : State := mk fun b => (bd 7 2 (ln 2 2 (run b))).setState (U.hd 7) 4
def s3_6 : State := mk fun b => (((bd 7 2 (ln 2 2 (run b))).setState (U.hd 7) 4).setHdH 7 {admitFrom := some 800})
def s4_0 : State := mk run
def s4_1 : State := mk (hdup 0 fun x => {x with measuring := true})
def s4_4 : State := mk (hdup 2 id)
def s4_5 : State := mk fun b => (dul (hdup 2 id b)).setFld (U.hd 7) F.HD_LAT_D_DL 42432
def s4_7 : State := mk fun b => ((dul (hdup 1 (fun x => {x with addDl := 2}) b)).setFld (U.hd 7) F.HD_LAT_D_DL 42432).setFld (U.hd 7) F.HD_PATH_TP 90000
def s5_0 : State := mk run
def s5_1 : State := mk (hdup 1 id)
def s5_2 : State := mk (hdup 2 fun x => {x with offRun := 2})
def s5_3 : State := mk fun b => dul (hdup 2 (fun x => {x with offRun := 1, dlLate := true}) b)
def s5_4 : State := endAt (2*10^8) (mk fun b => at_ 1967080 (hdup 2 id b))
def s5_5 : State := endAt (2*10^8) (mk fun b => at_ (1000+5*1966080) (hdup 2 id b))
def s5_6 : State := endAt (5*10^9) (mk fun b => at_ (1000+3932160000) (hdup 4 (fun x => {x with admitFrom := some 1000, known := false}) b))
def s5_7 : State := endAt (5*10^9) (mk fun b => at_ (1966080) (hdup 2 id b))
def s5_8 : State := mk fun b => (hdup 2 id b).setFlag (U.hd 7) F.HD_STAT_STALE true

theorem meets_headAdmission :
    (Settled s3_0 ∧ (s3_0.blk.fld (U.fh 2) F.FH_STAT_LINK ≠ 2)) ∧
    (Settled s3_1 ∧ (s3_1.blk.fld (U.fh 2) F.FH_STAT_LINK = 2) ∧ (∀ (k : Nat), k < 512 → ¬(s3_1.blk.flag (U.hd k) F.HD_BIND_V = true ∧ s3_1.blk.reg (U.hd k) R.HD_SERIAL = 77))) ∧
    (Settled s3_3 ∧ (s3_3.blk.fld (U.fh 2) F.FH_STAT_LINK = 2) ∧ ((s3_3.blk.flag (U.hd 7) F.HD_BIND_V = true ∧ s3_3.blk.reg (U.hd 7) R.HD_SERIAL = 77) ∧ ∀ (k : Nat), k < 512 → s3_3.blk.flag (U.hd k) F.HD_BIND_V = true ∧ s3_3.blk.reg (U.hd k) R.HD_SERIAL = 77 → k = 7) ∧ (¬(s3_3.blk.flag (U.hd 7) F.HD_BIND_ANY_PORT = true ∨ s3_3.blk.fld (U.hd 7) F.HD_BIND_PORT = 2))) ∧
    (Settled s3_2 ∧ (s3_2.blk.fld (U.fh 2) F.FH_STAT_LINK = 2) ∧ ((s3_2.blk.flag (U.hd 7) F.HD_BIND_V = true ∧ s3_2.blk.reg (U.hd 7) R.HD_SERIAL = 77) ∧ ∀ (k : Nat), k < 512 → s3_2.blk.flag (U.hd k) F.HD_BIND_V = true ∧ s3_2.blk.reg (U.hd k) R.HD_SERIAL = 77 → k = 7) ∧ (s3_2.blk.flag (U.hd 7) F.HD_BIND_ANY_PORT = true ∨ s3_2.blk.fld (U.hd 7) F.HD_BIND_PORT = 2) ∧ ((s3_2.blk.hdH 7).known = false) ∧ (s3_2.blk.ownState (U.hd 7) = 0)) ∧
    (Settled s3_6 ∧ (s3_6.blk.fld (U.fh 2) F.FH_STAT_LINK = 2) ∧ ((s3_6.blk.flag (U.hd 7) F.HD_BIND_V = true ∧ s3_6.blk.reg (U.hd 7) R.HD_SERIAL = 77) ∧ ∀ (k : Nat), k < 512 → s3_6.blk.flag (U.hd k) F.HD_BIND_V = true ∧ s3_6.blk.reg (U.hd k) R.HD_SERIAL = 77 → k = 7) ∧ (s3_6.blk.flag (U.hd 7) F.HD_BIND_ANY_PORT = true ∨ s3_6.blk.fld (U.hd 7) F.HD_BIND_PORT = 2) ∧ ((s3_6.blk.hdH 7).known = false) ∧ (s3_6.blk.ownState (U.hd 7) = 4) ∧ (s3_6.blk.flag (U.hd 7) F.HD_CFG_AUTO_RE = true ∨ (s3_6.blk.hdH 7).admitFrom ≠ none)) ∧
    (Settled s3_5 ∧ (s3_5.blk.fld (U.fh 2) F.FH_STAT_LINK = 2) ∧ ((s3_5.blk.flag (U.hd 7) F.HD_BIND_V = true ∧ s3_5.blk.reg (U.hd 7) R.HD_SERIAL = 77) ∧ ∀ (k : Nat), k < 512 → s3_5.blk.flag (U.hd k) F.HD_BIND_V = true ∧ s3_5.blk.reg (U.hd k) R.HD_SERIAL = 77 → k = 7) ∧ (s3_5.blk.flag (U.hd 7) F.HD_BIND_ANY_PORT = true ∨ s3_5.blk.fld (U.hd 7) F.HD_BIND_PORT = 2) ∧ (s3_5.blk.ownState (U.hd 7) = 4) ∧ (s3_5.blk.flag (U.hd 7) F.HD_CFG_AUTO_RE = false) ∧ ((s3_5.blk.hdH 7).admitFrom = none)) :=
  by refine ⟨?_, ?_, ?_, ?_, ?_, ?_⟩ <;> decide +kernel

theorem meets_headLatency :
    (Settled s4_1 ∧ (s4_1.blk.inReset = false) ∧ NoGroups s4_1 ∧ ratesOk s4_1 7 ∧ ((s4_1.blk.hdH 7).measuring = true) ∧ (s4_1.blk.ownState (U.hd 7) ∈ [0, 4]) ∧ Reaches s4_1 7 20000 (s4_1.blk.fld (U.hd 7) F.HD_CAP_DMAX) ∧ TooFar s4_1 7 90000 (s4_1.blk.fld (U.hd 7) F.HD_CAP_DMAX)) ∧
    (Settled s4_5 ∧ (s4_5.blk.inReset = false) ∧ NoGroups s4_5 ∧ ratesOk s4_5 7 ∧ ((s4_5.blk.hdH 7).measuring = false) ∧ (s4_5.blk.ownState (U.hd 7) ∈ [1, 2, 5]) ∧ Reaches s4_5 7 20000 (s4_5.blk.fld (U.hd 7) F.HD_CAP_DMAX) ∧ ((s4_5.blk.hdH 7).addDl = 0 ∧ (s4_5.blk.hdH 7).addUl = 0 ∧ (s4_5.blk.hdH 7).align = [] ∧ s4_5.blk.fld (U.hd 7) F.HD_LAT_D_DL % 64 = 0 ∧ s4_5.blk.fld (U.hd 7) F.HD_LAT_D_UL % 64 = 0) ∧ (needs s4_5 7 20000 false ≤ s4_5.blk.fld (U.hd 7) F.HD_LAT_D_DL ∧ needs s4_5 7 20000 true ≤ s4_5.blk.fld (U.hd 7) F.HD_LAT_D_UL)) ∧
    (Settled s4_4 ∧ (s4_4.blk.inReset = false) ∧ NoGroups s4_4 ∧ ratesOk s4_4 7 ∧ ((s4_4.blk.hdH 7).measuring = false) ∧ (s4_4.blk.ownState (U.hd 7) ∈ [1, 2, 5]) ∧ Reaches s4_4 7 20000 (s4_4.blk.fld (U.hd 7) F.HD_CAP_DMAX) ∧ ((s4_4.blk.hdH 7).addDl = 0 ∧ (s4_4.blk.hdH 7).addUl = 0 ∧ (s4_4.blk.hdH 7).align = [] ∧ s4_4.blk.fld (U.hd 7) F.HD_LAT_D_DL % 64 = 0 ∧ s4_4.blk.fld (U.hd 7) F.HD_LAT_D_UL % 64 = 0) ∧ (s4_4.blk.fld (U.hd 7) F.HD_LAT_D_DL < needs s4_4 7 20000 false ∨ s4_4.blk.fld (U.hd 7) F.HD_LAT_D_UL < needs s4_4 7 20000 true) ∧ TooFar s4_4 7 90000 (s4_4.blk.fld (U.hd 7) F.HD_CAP_DMAX)) ∧
    (Settled s4_0 ∧ (s4_0.blk.inReset = false) ∧ NoGroups s4_0 ∧ ratesOk s4_0 7 ∧ ((s4_0.blk.hdH 7).measuring = false) ∧ (¬s4_0.blk.ownState (U.hd 7) ∈ [1, 2, 5]) ∧ (s4_0.blk.ownState (U.hd 7) ≠ 3)) ∧
    (Takes s4_4 Who.pf (U.hd 7) ∧ (s4_4.blk.time.coll = []) ∧ Reaches s4_4 7 (s4_4.blk.fld (U.hd 7) F.HD_PATH_TP) (s4_4.blk.fld (U.hd 7) F.HD_CAP_DMAX)) ∧
    (Settled s4_7 ∧ (s4_7.blk.inReset = false) ∧ NoGroups s4_7 ∧ ratesOk s4_7 7 ∧ Takes s4_7 Who.pf (U.hd 7) ∧ (s4_7.blk.time.coll = []) ∧ (s4_7.blk.ownState (U.hd 7) ∈ [1, 2, 5]) ∧ TooFar s4_7 7 (s4_7.blk.fld (U.hd 7) F.HD_PATH_TP) (s4_7.blk.fld (U.hd 7) F.HD_CAP_DMAX)) :=
  by refine ⟨?_, ?_, ?_, ?_, ?_, ?_⟩ <;> decide +kernel

theorem meets_headSupervision :
    (Settled s5_1 ∧ (s5_1.blk.inReset = false) ∧ NoGroups s5_1 ∧ ratesOk s5_1 (7 : Nat) ∧ (s5_1.blk.ownState (U.hd (7 : Nat)) ∈ [(1 : Nat), (2 : Nat), (5 : Nat)]) ∧ ((s5_1.blk.hdH (7 : Nat)).port = some (2 : Nat) ∧ s5_1.blk.fld (U.fh (2 : Nat)) F.FH_STAT_LINK = (2 : Nat)) ∧ (¬(s5_1.blk.fld (U.hd (7 : Nat)) F.HD_CFG_TE_MAX < (BitVec.toInt (0 : BitVec (32 : Nat))).natAbs ∧ (2 : Nat) ≤ (s5_1.blk.hdH (7 : Nat)).offRun)) ∧ ((0 : Nat) = (0 : Nat) ∨ (s5_1.blk.hdH (7 : Nat)).dlLate = false)) ∧
    (Settled s5_2 ∧ (s5_2.blk.inReset = false) ∧ NoGroups s5_2 ∧ ratesOk s5_2 (7 : Nat) ∧ (s5_2.blk.ownState (U.hd (7 : Nat)) ∈ [(1 : Nat), (2 : Nat), (5 : Nat)]) ∧ ((s5_2.blk.hdH (7 : Nat)).port = some (2 : Nat) ∧ s5_2.blk.fld (U.fh (2 : Nat)) F.FH_STAT_LINK = (2 : Nat)) ∧ (s5_2.blk.fld (U.hd (7 : Nat)) F.HD_CFG_TE_MAX < (BitVec.ofInt (32 : Nat) (-101 : Int)).toInt.natAbs) ∧ ((s5_2.blk.hdH (7 : Nat)).offRun = (2 : Nat))) ∧
    (Settled s5_3 ∧ (s5_3.blk.inReset = false) ∧ NoGroups s5_3 ∧ ratesOk s5_3 (7 : Nat) ∧ (s5_3.blk.ownState (U.hd (7 : Nat)) ∈ [(1 : Nat), (2 : Nat), (5 : Nat)]) ∧ ((s5_3.blk.hdH (7 : Nat)).port = some (2 : Nat) ∧ s5_3.blk.fld (U.fh (2 : Nat)) F.FH_STAT_LINK = (2 : Nat)) ∧ (¬s5_3.blk.fld (U.hd (7 : Nat)) F.HD_CFG_TE_MAX < (BitVec.toInt (0 : BitVec (32 : Nat))).natAbs) ∧ ((s5_3.blk.hdH (7 : Nat)).dlLate = true)) ∧
    (((s5_3.blk.hdH (7 : Nat)).addDl = (0 : Nat)) ∧ ((s5_3.blk.hdH (7 : Nat)).align = []) ∧ Reaches s5_3 (7 : Nat) (s5_3.blk.fld (U.hd (7 : Nat)) F.HD_PATH_TP + s5_3.blk.fld (U.hd (7 : Nat)) F.HD_CFG_GUARD) (s5_3.blk.fld (U.hd (7 : Nat)) F.HD_CAP_DMAX)) ∧
    (Settled s5_0 ∧ (s5_0.blk.inReset = false) ∧ NoGroups s5_0 ∧ ratesOk s5_0 (7 : Nat) ∧ (¬s5_0.blk.ownState (U.hd (7 : Nat)) ∈ [(1 : Nat), (2 : Nat), (5 : Nat)]) ∧ (s5_0.blk.ownState (U.hd (7 : Nat)) ≠ (3 : Nat))) ∧
    (Settled s5_4 ∧ (s5_4.blk.inReset = false) ∧ NoGroups s5_4 ∧ ratesOk s5_4 (7 : Nat) ∧ (s5_4.blk.ownState (U.hd (7 : Nat)) ∈ [(1 : Nat), (2 : Nat), (5 : Nat)]) ∧ (s5_4.blk.flag (U.hd (7 : Nat)) F.HD_STAT_STALE = false) ∧ DueNow s5_4 ((s5_4.blk.hdH (7 : Nat)).lastStatus + (1 : Nat) * (1966080 : Nat))) ∧
    (Settled s5_8 ∧ (s5_8.blk.inReset = false) ∧ NoGroups s5_8 ∧ ratesOk s5_8 (7 : Nat) ∧ (s5_8.blk.flag (U.hd (7 : Nat)) F.HD_STAT_STALE = true)) ∧
    (Settled s5_5 ∧ (s5_5.blk.inReset = false) ∧ NoGroups s5_5 ∧ ratesOk s5_5 (7 : Nat) ∧ (s5_5.blk.ownState (U.hd (7 : Nat)) ∈ [(1 : Nat), (2 : Nat), (5 : Nat)]) ∧ DueNow s5_5 ((s5_5.blk.hdH (7 : Nat)).lastStatus + s5_5.blk.fld (U.hd (7 : Nat)) F.HD_CFG_LOSS * (1966080 : Nat))) ∧
    (Settled s5_6 ∧ (s5_6.blk.inReset = false) ∧ NoGroups s5_6 ∧ ratesOk s5_6 (7 : Nat) ∧ ((s5_6.blk.hdH (7 : Nat)).admitFrom = some (1000 : Nat)) ∧ (s5_6.blk.ownState (U.hd (7 : Nat)) = (4 : Nat)) ∧ DueNow s5_6 ((1000 : Nat) + (3932160000 : Nat))) ∧
    (((s5_0.blk.hdH (7 : Nat)).admitFrom = none)) ∧
    (Settled s5_7 ∧ (s5_7.blk.inReset = false) ∧ NoGroups s5_7 ∧ ratesOk s5_7 (7 : Nat) ∧ DueNow s5_7 s5_7.blk.fhBeat) ∧
    (((s5_1.blk.hdH (7 : Nat)).known = true) ∧ (7 : Nat) ∈ s5_1.blk.admittedHeads ∧ (s5_1.blk.ownState (U.hd (7 : Nat)) ≠ (3 : Nat))) ∧
    (Takes s5_0 Who.pf (U.hd (7 : Nat)) ∧ (s5_0.blk.time.coll = []) ∧ (Half.lo ≠ Half.hi)) :=
  by refine ⟨?_, ?_, ?_, ?_, ?_, ?_, ?_, ?_, ?_, ?_, ?_, ?_, ?_⟩ <;> decide +kernel

theorem meets_portLinks :
    (Settled s1_1) ∧
    ((s1_1.blk.inReset = false)) ∧
    ((s1_1.blk.fld (U.fh 2) F.FH_STAT_LINK = 1)) ∧
    ((s1_1.blk.t ≤ (s1_1.blk.fhH 2).trainAt + 2949120000)) ∧
    (Settled s1_0) ∧
    ((s1_0.blk.inReset = false)) ∧
    ((s1_0.blk.fld (U.fh 2) F.FH_STAT_LINK ≠ 1)) ∧
    (Settled s1_2) ∧
    ((s1_2.blk.inReset = false)) ∧
    ((s1_2.blk.fld (U.fh 2) F.FH_STAT_LINK = 1)) ∧
    (DueNow s1_2 ((s1_2.blk.fhH 2).trainAt + 2949120000)) ∧
    (Settled s1_3) ∧
    ((s1_3.blk.inReset = false)) ∧
    ((s1_3.blk.fld (U.fh 2) F.FH_STAT_LINK = 2)) ∧
    ((s1_0.blk.fld (U.fh 2) F.FH_STAT_LINK ≠ 2)) ∧
    (Settled s1_4) ∧
    ((s1_4.blk.inReset = false)) ∧
    ((s1_4.blk.fld (U.fh 2) F.FH_LANE_FAILED / 2 ^ 8 % 2 = 1)) ∧
    ((¬s1_0.blk.fld (U.fh 2) F.FH_LANE_FAILED / 2 ^ 8 % 2 = 1)) ∧
    ((∀ (p : Nat), p < 8 → p / 4 = 2 / 4 → s1_0.blk.fld (U.fh p) F.FH_LANE_FAILED = s1_0.blk.fld (U.fh 2) F.FH_LANE_FAILED)) ∧
    ((¬(s1_0.blk.fld (U.fh 2) F.FH_LANE_PHY0 = 8 ∨ s1_0.blk.fld (U.fh 2) F.FH_LANE_PHY1 = 8))) ∧
    ((∀ (p : Nat), p < 8 → p / 4 = 2 / 4 → p ≠ 2 → ¬(s1_0.blk.fld (U.fh p) F.FH_LANE_PHY0 = 8 ∨ s1_0.blk.fld (U.fh p) F.FH_LANE_PHY1 = 8))) ∧
    ((¬s1_0.blk.fld (U.fh 2) F.FH_LANE_FAILED / 2 ^ 5 % 2 = 1)) ∧
    ((s1_0.blk.fld (U.fh 2) F.FH_LANE_PHY0 = 5 ∨ s1_0.blk.fld (U.fh 2) F.FH_LANE_PHY1 = 5)) ∧
    ((∀ (p : Nat), p < 8 → p / 4 = 2 / 4 → p ≠ 2 → ¬(s1_0.blk.fld (U.fh p) F.FH_LANE_PHY0 = 5 ∨ s1_0.blk.fld (U.fh p) F.FH_LANE_PHY1 = 5))) ∧
    ((∀ (p : Nat), p < 8 → p / 4 = 2 / 4 → ¬(s1_0.blk.fld (U.fh p) F.FH_LANE_PHY0 = 8 ∨ s1_0.blk.fld (U.fh p) F.FH_LANE_PHY1 = 8))) ∧
    ((¬s1_4.blk.fld (U.fh 2) F.FH_LANE_FAILED / 2 ^ 5 % 2 = 1)) ∧
    ((∀ (p : Nat), p < 8 → p / 4 = 2 / 4 → s1_4.blk.fld (U.fh p) F.FH_LANE_FAILED = s1_4.blk.fld (U.fh 2) F.FH_LANE_FAILED)) ∧
    ((s1_4.blk.fld (U.fh 2) F.FH_LANE_PHY0 = 5 ∨ s1_4.blk.fld (U.fh 2) F.FH_LANE_PHY1 = 5)) ∧
    ((∀ (p : Nat), p < 8 → p / 4 = 2 / 4 → p ≠ 2 → ¬(s1_4.blk.fld (U.fh p) F.FH_LANE_PHY0 = 5 ∨ s1_4.blk.fld (U.fh p) F.FH_LANE_PHY1 = 5))) ∧
    ((s1_4.blk.fld (U.fh 2) F.FH_LANE_FAILED / 2 ^ 8 % 2 = 1 ∨ ∃ (p : Nat), p < 8 ∧ p / 4 = 2 / 4 ∧ (s1_4.blk.fld (U.fh p) F.FH_LANE_PHY0 = 8 ∨ s1_4.blk.fld (U.fh p) F.FH_LANE_PHY1 = 8))) ∧
    ((s1_4.blk.ownState (U.fh 2) ≠ 6)) :=
  by refine ⟨?_, ?_, ?_, ?_, ?_, ?_, ?_, ?_, ?_, ?_, ?_, ?_, ?_, ?_, ?_, ?_, ?_, ?_, ?_, ?_, ?_, ?_, ?_, ?_, ?_, ?_, ?_, ?_, ?_, ?_, ?_, ?_⟩ <;> decide +kernel

theorem meets_uplinkFrames :
    (Settled s2_0 ∧ (s2_0.blk.fld (U.fh 2) F.FH_STAT_LINK ≠ 2)) ∧
    (Settled s2_1 ∧ (s2_1.blk.fld (U.fh 2) F.FH_STAT_LINK = 2) ∧ (true = true) ∧ (false = false) ∧ (¬(((s2_1.blk.hdH 7).port = some 2 ∧ s2_1.blk.ownState (U.hd 7) ∈ [1, 2, 5] ∧ s2_1.blk.flag (U.hd 7) (F.HD_FLOW_V 3) = true ∧ isUl (s2_1.blk.flowPbd 7 3) = true) ∧ s2_1.blk.flag (U.hd 7) (F.HD_FLOW_FMT 3) = true))) ∧
    (Settled s2_2 ∧ (s2_2.blk.fld (U.fh 2) F.FH_STAT_LINK = 2) ∧ ((s2_2.blk.hdH 7).port = some 2 ∧ s2_2.blk.ownState (U.hd 7) ∈ [1, 2, 5] ∧ s2_2.blk.flag (U.hd 7) (F.HD_FLOW_V 3) = true ∧ isUl (s2_2.blk.flowPbd 7 3) = true) ∧ (s2_2.blk.flag (U.hd 7) (F.HD_FLOW_FMT 3) = false) ∧ (4997120 < s2_2.blk.time.air + 64 * 19660800 ∧ s2_2.blk.time.air < 4997120 + 64 * 19660800)) ∧
    (Settled s2_5 ∧ (s2_5.blk.ownState (U.hd 7) = 2) ∧ (s2_5.blk.flag (U.hd 7) (F.HD_FLOW_V 3) = true) ∧ (isUl (s2_5.blk.flowPbd 7 3) = true) ∧ (s2_5.blk.rateOf (s2_5.blk.flowPbd 7 3) ≤ 4) ∧ (¬(Store.get UlFlow.init (s2_5.blk.hdH 7).flows 3).next ∈ (Store.get UlFlow.init (s2_5.blk.hdH 7).flows 3).have_) ∧ (s2_5.blk.time.air ≤ (Store.get UlFlow.init (s2_5.blk.hdH 7).flows 3).next + s2_5.blk.fld (U.hd 7) F.HD_LAT_D_UL) ∧ DueNow s2_5 (s2_5.blk.t + ((Store.get UlFlow.init (s2_5.blk.hdH 7).flows 3).next + s2_5.blk.fld (U.hd 7) F.HD_LAT_D_UL - s2_5.blk.time.air))) ∧
    ((s2_0.blk.ownState (U.hd 7) ≠ 2 ∨ s2_0.blk.flag (U.hd 7) (F.HD_FLOW_V 3) = false ∨ isUl (s2_0.blk.flowPbd 7 3) = false)) :=
  ⟨by decide +kernel, by decide +kernel, by decide +kernel, by decide +kernel, by decide +kernel⟩

end W15

namespace W16

def hsOn (b : Block) : Block := ((run b).setFld (U.hs 0) F.UNIT_STATE_PWR 2).setFld (U.hs 1) F.UNIT_STATE_PWR 2
def ou (i n : Nat) (by_ : HbmBy) (k : Nat) (b : Block) : Block := let b := b.setFld (U.pc i) F.PC_STAT_OUTST n; {b with hbm := {b.hbm with outst := Store.set 0 b.hbm.outst (hbmKey by_ i false) k}}
def wt (l : List (HbmBy × Nat × Bool)) (b : Block) : Block := {b with hbm := {b.hbm with waiting := l}}
def ue (l : List Nat) (b : Block) : Block := {b with hbm := {b.hbm with ue := l}}
def one (f : Block → Block) : State := mk fun b => f ((ou 5 1 .ring 1 (hsOn b)).setFld (U.pc 5) F.PC_REPAIR_SOFT_LEFT 4)
def no (b : Block) : Block := b.setFld (U.pc 5) F.PC_REPAIR_SOFT_LEFT 0
def rw (l : List Nat) (b : Block) : Block := b.setPcH 5 {rows := [{row := 9, ces := [1]},{row := 77, ces := l}]}
def ph5 (x : PcH) (b : Block) : Block := b.setPcH 5 x
def due : Nat := 24 * 7077888000000 / 2 ^ 26
def sc (f : PcH → PcH) (g : Block → Block): State := endAt (10^8) (one fun b => g ((at_ due b).setPcH 5 (f {scrub := 73})))
def cs (st : Nat) (b : Block) : Block := ((hsOn b).setFld U.cel F.CEL_STAT_STATE st).setFld U.cel F.CEL_GEOM_RECORDS 1890505
def sd (w : Nat) (b : Block) : Block := {b with cel := {b.cel with sdata := [(3, BitVec.ofNat 64 w)]}}
def celm (f : CelH → CelH) (b : Block) : Block := {b with cel := f b.cel}
def iv (st : Nat) (f : CelH → CelH) (b : Block) : Block := sd (2^63 + 5*256) (celm (fun c => f {c with ivFrom := some 0, ivStamp := 0x1C0A960000, version := 4, trigAt := some 9}) (at_ 16384 (cs st b)))
def lf (n : Nat) (b : Block) : Block := b.setFld U.cel F.CEL_POST_LEFT n
def live (b : Block) : Block := sd (2^63 + 2+ 5*256+2^24) (b.setFld (U.rxc 5) F.RXC_STAT_CH_STATE 2)
def rec (n : Nat) : CelRec := {stamp := 0x1C0A960000, seq := n, version := 3, units := 1, flags := 1, data := 2^4095 + 12345}
def wn (p n : Nat) (b : Block) : Block := (celm (fun c => {c with pos := p, count := n, queue := [rec 9, rec 10]}) (cs 1 b)).setFld U.cel F.CEL_GEOM_RECSIZE 576
def rp (st : Nat) (b : Block) : Block := sd (2^63 + 5*256) ((((cs 3 b).setFld U.cel F.CEL_RPL_STAT_STATE st).setFld U.cel F.CEL_RPL_CFG_STREAM 3).setFld U.cel F.CEL_RPL_CFG_PBD 7) |>.setFld (U.pbd 7) F.UNIT_STATE_STATE 5 |>.setReg U.cel R.CEL_RPL_FROM 0x1C0A960000 |>.setFld U.cel F.CEL_RPL_CFG_COUNT 3 |>.setFld U.cel F.CEL_GEOM_RECSIZE 576 |> celm (fun c => {c with rplDue := 1000, rplSeq := 9, rplPos := 1})
def stored (f : Block → Block) : State := match execCellarRecordWritten (mk (wn 1 1)) with | .next t => {t with blk := f t.blk} | _ => State.reset
def ws5 : List State := ([mk run, mk (iv 1 id), mk fun b => live (iv 1 id b), mk fun b => (iv 1 id b).setFld U.cel F.CEL_SEQ_SEQ (2^48-1), mk (lf 5 ∘ iv 2 id), mk (lf 1 ∘ iv 2 id), mk (iv 1 fun c => {c with stopDue := true}), mk (lf 5 ∘ iv 2 fun c => {c with holdDue := true}), mk (iv 1 fun c => {c with queue := [rec 1], ivStep := true}), mk (iv 1 fun c => {c with queue := (List.range 8).map rec})]).map (endAt 20000)
def s1_0 : State := mk run
def s1_1 : State := mk hsOn
def s1_2 : State := mk fun b => ou 5 64 .ring 3 (hsOn b)
def s1_3 : State := mk fun b => wt [(.ring,5,true),(.model,5,false),(.writeBack,5,true)] (ou 5 64 .ring 3 (hsOn b))
def s2_0 : State := mk run
def s2_1 : State := one id
def s2_3 : State := one (rw [2,3,4])
def s2_4 : State := one (no ∘ rw [2,3,4])
def s2_6 : State := one (ue [(5*256+16384*9+40)/32])
def s2_7 : State := one (ph5 {ues := [(1,1),(2,1),(3,1),(4,2),(5,3),(6,4),(7,5),(8,6),(77,5)]})
def s2_9 : State := one (ph5 {repair := some (77,5)})
def s3_0 : State := sc id id
def s3_1 : State := sc id (ue [(9*16384+1280+32)/32])
def s4_0 : State := mk (cs 0)
def s4_2 : State := mk fun b => sd (2^63 + 3) (cs 0 b)
def s4_4 : State := mk (cs 1)
def s4_7 : State := mk (cs 2)
def s4_9 : State := mk fun b => celm (fun c => {c with before := 1}) (cs 4 b)
def s5_0 : State := ws5.getD 0 State.reset
def s5_1 : State := ws5.getD 1 State.reset
def s7_0 : State := mk run
def s7_2 : State := stored (rp 0)
def s7_3 : State := stored (rp 1)
def s7_4 : State := stored (rp 2)
def s7_9 : State := stored (fun b => {(at_ 40000 (rp 1 b)) with time := {(at_ 40000 (rp 1 b)).time with tickStart := 40000, tickEnd := 50000}})

theorem meets_cellarControl :
    (Takes s4_0 Who.pf U.cel ∧ (s4_0.blk.time.coll = []) ∧ (s4_0.blk.fld U.cel F.CEL_STAT_STATE = 0) ∧ setValid s4_0) ∧
    (Takes s4_2 Who.pf U.cel ∧ (s4_2.blk.time.coll = []) ∧ (s4_2.blk.fld U.cel F.CEL_STAT_STATE = 0) ∧ (¬setValid s4_2)) ∧
    (Takes s4_4 Who.pf U.cel ∧ (s4_4.blk.time.coll = []) ∧ (s4_4.blk.fld U.cel F.CEL_STAT_STATE = 1) ∧ (s4_4.blk.flag U.cel (if (match Who.pf with | Who.cue cls ring sys => true | x => false) = true then F.CEL_CFG_T_CUE else F.CEL_CFG_T_HOST) = true) ∧ (s4_4.blk.fld U.cel F.CEL_CFG_PRE ≤ 16) ∧ (s4_4.blk.fld U.cel F.CEL_GEOM_RECORDS < 2 ^ 28)) ∧
    (Takes s4_7 Who.pf U.cel ∧ (s4_7.blk.time.coll = []) ∧ (s4_7.blk.fld U.cel F.CEL_STAT_STATE = 2 ∨ s4_7.blk.fld U.cel F.CEL_STAT_STATE = 3) ∧ (s4_7.blk.flag U.cel (if (match Who.pf with | Who.cue cls ring sys => true | x => false) = true then F.CEL_CFG_T_CUE else F.CEL_CFG_T_HOST) = true) ∧ (s4_7.blk.cel.trigAt ≠ some s4_7.blk.t)) ∧
    (Takes s4_9 Who.pf U.cel ∧ (s4_9.blk.time.coll = []) ∧ (s4_9.blk.fld U.cel F.CEL_STAT_STATE = 4) ∧ (s4_9.blk.cel.before = 1) ∧ (s4_9.blk.flag U.cel (if (match Who.pf with | Who.cue cls ring sys => true | x => false) = true then F.CEL_CFG_T_CUE else F.CEL_CFG_T_HOST) = true)) ∧
    ((s4_0.blk.flag U.cel (if (match Who.pf with | Who.cue cls ring sys => true | x => false) = true then F.CEL_CFG_T_CUE else F.CEL_CFG_T_HOST) = false ∨ s4_0.blk.fld U.cel F.CEL_STAT_STATE = 0) ∧ Takes s4_0 Who.runtime U.cel ∧ (whoPfSys Who.runtime = true) ∧ (s4_0.blk.fld U.cel F.CEL_STAT_STATE = 0 ∨ s4_0.blk.fld U.cel F.CEL_STAT_STATE = 3) ∧ (1 ≤ (BitVec.ofNat 64 (2 ^ 63 + 16711935 + 2 ^ 24 * 1)).toNat / 2 ^ 24 % 64) ∧ ((BitVec.ofNat 64 (2 ^ 63 + 16711935 + 2 ^ 24 * 1)).toNat / 2 ^ 24 % 64 ≤ 32)) ∧
    ((whoPfSys Who.pf = true) ∧ (s4_4.blk.fld U.cel F.CEL_STAT_STATE = 1 ∨ s4_4.blk.fld U.cel F.CEL_STAT_STATE = 2 ∨ s4_4.blk.fld U.cel F.CEL_STAT_STATE = 4)) :=
  by refine ⟨?_, ?_, ?_, ?_, ?_, ?_, ?_⟩ <;> decide +kernel

theorem meets_cellarRecords :
    (Settled s5_0 ∧ (s5_0.blk.cel.ivFrom = none)) ∧
    (Settled s5_1 ∧ (s5_1.blk.cel.ivFrom = some 0) ∧ DueNow s5_1 (0 + 16384) ∧ (s5_1.blk.cel.queue.length < 8) ∧ (∀ (i : Nat), i < 64 → serves s5_1 i)) :=
  ⟨by decide +kernel, by decide +kernel⟩

theorem meets_hbmErrors :
    (Settled s2_1 ∧ noTally s2_1 ∧ (s2_1.blk.inReset = false) ∧ (0 < Store.get 0 s2_1.blk.hbm.outst ((5 * 256 + 16384 * 9 + 40) / 256 % 64 * 32 + 4) ∧ s2_1.blk.hbm.waiting = [] ∧ serves s2_1 ((5 * 256 + 16384 * 9 + 40) / 256 % 64)) ∧ (¬(1 = 2 ∨ (5 * 256 + 16384 * 9 + 40) / 32 ∈ s2_1.blk.hbm.ue)) ∧ ((s2_1.blk.pcH ((5 * 256 + 16384 * 9 + 40) / 256 % 64)).repair = none) ∧ ((List.filter (fun (x : Nat) => decide (s2_1.blk.t < x + 7077888000000)) ((Option.map (fun (x : RowH) => x.ces) (List.find? (fun (r : RowH) => r.row == 77) (s2_1.blk.pcH ((5 * 256 + 16384 * 9 + 40) / 256 % 64)).rows)).getD [])).length < 3)) ∧
    (Settled s2_3 ∧ noTally s2_3 ∧ (s2_3.blk.inReset = false) ∧ (0 < Store.get 0 s2_3.blk.hbm.outst ((5 * 256 + 16384 * 9 + 40) / 256 % 64 * 32 + 4) ∧ s2_3.blk.hbm.waiting = [] ∧ serves s2_3 ((5 * 256 + 16384 * 9 + 40) / 256 % 64)) ∧ (¬(1 = 2 ∨ (5 * 256 + 16384 * 9 + 40) / 32 ∈ s2_3.blk.hbm.ue)) ∧ ((s2_3.blk.pcH ((5 * 256 + 16384 * 9 + 40) / 256 % 64)).repair = none) ∧ (3 ≤ (List.filter (fun (x : Nat) => decide (s2_3.blk.t < x + 7077888000000)) ((Option.map (fun (x : RowH) => x.ces) (List.find? (fun (r : RowH) => r.row == 77) (s2_3.blk.pcH ((5 * 256 + 16384 * 9 + 40) / 256 % 64)).rows)).getD [])).length) ∧ (0 < s2_3.blk.fld (U.pc ((5 * 256 + 16384 * 9 + 40) / 256 % 64)) F.PC_REPAIR_SOFT_LEFT)) ∧
    (Settled s2_4 ∧ noTally s2_4 ∧ (s2_4.blk.inReset = false) ∧ (0 < Store.get 0 s2_4.blk.hbm.outst ((5 * 256 + 16384 * 9 + 40) / 256 % 64 * 32 + 4) ∧ s2_4.blk.hbm.waiting = [] ∧ serves s2_4 ((5 * 256 + 16384 * 9 + 40) / 256 % 64)) ∧ (¬(1 = 2 ∨ (5 * 256 + 16384 * 9 + 40) / 32 ∈ s2_4.blk.hbm.ue)) ∧ ((s2_4.blk.pcH ((5 * 256 + 16384 * 9 + 40) / 256 % 64)).repair = none) ∧ (3 ≤ (List.filter (fun (x : Nat) => decide (s2_4.blk.t < x + 7077888000000)) ((Option.map (fun (x : RowH) => x.ces) (List.find? (fun (r : RowH) => r.row == 77) (s2_4.blk.pcH ((5 * 256 + 16384 * 9 + 40) / 256 % 64)).rows)).getD [])).length) ∧ (s2_4.blk.fld (U.pc ((5 * 256 + 16384 * 9 + 40) / 256 % 64)) F.PC_REPAIR_SOFT_LEFT = 0)) ∧
    (Settled s2_6 ∧ noTally s2_6 ∧ (s2_6.blk.inReset = false) ∧ (0 < Store.get 0 s2_6.blk.hbm.outst ((5 * 256 + 16384 * 9 + 40) / 256 % 64 * 32 + 4) ∧ s2_6.blk.hbm.waiting = [] ∧ serves s2_6 ((5 * 256 + 16384 * 9 + 40) / 256 % 64)) ∧ (0 = 2 ∨ (5 * 256 + 16384 * 9 + 40) / 32 ∈ s2_6.blk.hbm.ue) ∧ ((s2_6.blk.pcH ((5 * 256 + 16384 * 9 + 40) / 256 % 64)).repair = none) ∧ ((List.filter (fun (x : Nat × Nat) => x.fst != 77 && decide (s2_6.blk.t < x.snd + 1966080000)) (s2_6.blk.pcH ((5 * 256 + 16384 * 9 + 40) / 256 % 64)).ues).length < 8) ∧ (0 < s2_6.blk.fld (U.pc ((5 * 256 + 16384 * 9 + 40) / 256 % 64)) F.PC_REPAIR_SOFT_LEFT)) ∧
    ((2 = 2 ∨ (5 * 256 + 16384 * 9 + 40) / 32 ∈ s2_4.blk.hbm.ue) ∧ ((List.filter (fun (x : Nat × Nat) => x.fst != 77 && decide (s2_4.blk.t < x.snd + 1966080000)) (s2_4.blk.pcH ((5 * 256 + 16384 * 9 + 40) / 256 % 64)).ues).length < 8)) ∧
    (Settled s2_7 ∧ noTally s2_7 ∧ (s2_7.blk.inReset = false) ∧ (0 < Store.get 0 s2_7.blk.hbm.outst ((5 * 256 + 16384 * 9 + 40) / 256 % 64 * 32 + 4) ∧ s2_7.blk.hbm.waiting = [] ∧ serves s2_7 ((5 * 256 + 16384 * 9 + 40) / 256 % 64)) ∧ (2 = 2 ∨ (5 * 256 + 16384 * 9 + 40) / 32 ∈ s2_7.blk.hbm.ue) ∧ (8 ≤ (List.filter (fun (x : Nat × Nat) => x.fst != 77 && decide (s2_7.blk.t < x.snd + 1966080000)) (s2_7.blk.pcH ((5 * 256 + 16384 * 9 + 40) / 256 % 64)).ues).length)) ∧
    (Settled s2_9 ∧ noTally s2_9 ∧ (s2_9.blk.inReset = false) ∧ ((s2_9.blk.pcH ((5 * 256 + 16384 * 9 + 40) / 256 % 64)).repair = some (77, 5)) ∧ (s2_9.blk.hbm.waiting = [])) ∧
    (Settled s2_0 ∧ noTally s2_0 ∧ (s2_0.blk.inReset = false) ∧ ((s2_0.blk.pcH ((5 * 256 + 16384 * 9 + 40) / 256 % 64)).repair = none) ∧ (s2_0.blk.fld (U.hs ((5 * 256 + 16384 * 9 + 40) / 256 % 64 / 32)) F.HS_SCRUB_HOURS = 0 ∨ ¬serves s2_0 ((5 * 256 + 16384 * 9 + 40) / 256 % 64))) ∧
    (Settled s3_0 ∧ noTally s3_0 ∧ (s3_0.blk.inReset = false) ∧ (0 < s3_0.blk.fld (U.hs ((5 * 256 + 16384 * 9 + 32) / 256 % 64 / 32)) F.HS_SCRUB_HOURS) ∧ serves s3_0 ((5 * 256 + 16384 * 9 + 32) / 256 % 64) ∧ DueNow s3_0 ((s3_0.blk.pcH ((5 * 256 + 16384 * 9 + 32) / 256 % 64)).scrubAt + s3_0.blk.fld (U.hs ((5 * 256 + 16384 * 9 + 32) / 256 % 64 / 32)) F.HS_SCRUB_HOURS * 7077888000000 / 2 ^ 26) ∧ (5 * 256 + 16384 * 9 + 32 = (s3_0.blk.pcH ((5 * 256 + 16384 * 9 + 32) / 256 % 64)).scrub / 8 * 16384 + (5 * 256 + 16384 * 9 + 32) / 256 % 64 * 256 + (s3_0.blk.pcH ((5 * 256 + 16384 * 9 + 32) / 256 % 64)).scrub % 8 * 32) ∧ (¬(0 = 2 ∨ (5 * 256 + 16384 * 9 + 32) / 32 ∈ s3_0.blk.hbm.ue)) ∧ (¬(1 = 2 ∨ (5 * 256 + 16384 * 9 + 32) / 32 ∈ s3_0.blk.hbm.ue)) ∧ ((List.filter (fun (x : Nat) => decide (s3_0.blk.t < x + 7077888000000)) ((Option.map (fun (x : RowH) => x.ces) (List.find? (fun (r : RowH) => r.row == 77) (s3_0.blk.pcH ((5 * 256 + 16384 * 9 + 32) / 256 % 64)).rows)).getD [])).length < 3)) ∧
    (Settled s3_1 ∧ noTally s3_1 ∧ (s3_1.blk.inReset = false) ∧ (0 < s3_1.blk.fld (U.hs ((5 * 256 + 16384 * 9 + 32) / 256 % 64 / 32)) F.HS_SCRUB_HOURS) ∧ serves s3_1 ((5 * 256 + 16384 * 9 + 32) / 256 % 64) ∧ DueNow s3_1 ((s3_1.blk.pcH ((5 * 256 + 16384 * 9 + 32) / 256 % 64)).scrubAt + s3_1.blk.fld (U.hs ((5 * 256 + 16384 * 9 + 32) / 256 % 64 / 32)) F.HS_SCRUB_HOURS * 7077888000000 / 2 ^ 26) ∧ (5 * 256 + 16384 * 9 + 32 = (s3_1.blk.pcH ((5 * 256 + 16384 * 9 + 32) / 256 % 64)).scrub / 8 * 16384 + (5 * 256 + 16384 * 9 + 32) / 256 % 64 * 256 + (s3_1.blk.pcH ((5 * 256 + 16384 * 9 + 32) / 256 % 64)).scrub % 8 * 32) ∧ (0 = 2 ∨ (5 * 256 + 16384 * 9 + 32) / 32 ∈ s3_1.blk.hbm.ue)) ∧
    (((List.filter (fun (x : Nat × Nat) => x.fst != 77 && decide (s3_1.blk.t < x.snd + 1966080000)) (s3_1.blk.pcH ((5 * 256 + 16384 * 9 + 32) / 256 % 64)).ues).length < 8) ∧ ((s3_1.blk.pcH ((5 * 256 + 16384 * 9 + 32) / 256 % 64)).repair = none) ∧ (0 < s3_1.blk.fld (U.pc ((5 * 256 + 16384 * 9 + 32) / 256 % 64)) F.PC_REPAIR_SOFT_LEFT)) :=
  by refine ⟨?_, ?_, ?_, ?_, ?_, ?_, ?_, ?_, ?_, ?_, ?_⟩ <;> decide +kernel

theorem meets_hbmRequests :
    (Settled s1_0 ∧ noTally s1_0 ∧ (¬serves s1_0 ((5 * 256 + 16384 * 9 + 40) / 256 % 64))) ∧
    (Settled s1_1 ∧ noTally s1_1 ∧ serves s1_1 ((5 * 256 + 16384 * 9 + 40) / 256 % 64) ∧ (s1_1.blk.fld (U.pc ((5 * 256 + 16384 * 9 + 40) / 256 % 64)) F.PC_STAT_OUTST < 64 ∧ outstanding s1_1 < 4096 ∧ (s1_1.blk.pcH ((5 * 256 + 16384 * 9 + 40) / 256 % 64)).repair = none)) ∧
    (Settled s1_2 ∧ noTally s1_2 ∧ serves s1_2 ((5 * 256 + 16384 * 9 + 40) / 256 % 64) ∧ (¬(s1_2.blk.fld (U.pc ((5 * 256 + 16384 * 9 + 40) / 256 % 64)) F.PC_STAT_OUTST < 64 ∧ outstanding s1_2 < 4096 ∧ (s1_2.blk.pcH ((5 * 256 + 16384 * 9 + 40) / 256 % 64)).repair = none))) ∧
    ((Store.get 0 s1_0.blk.hbm.outst ((5 * 256 + 16384 * 9 + 40) / 256 % 64 * 32 + 4) = 0)) ∧
    ((0 < Store.get 0 s1_2.blk.hbm.outst ((5 * 256 + 16384 * 9 + 40) / 256 % 64 * 32 + 4)) ∧ (0 < s1_2.blk.fld (U.pc ((5 * 256 + 16384 * 9 + 40) / 256 % 64)) F.PC_STAT_OUTST) ∧ (¬(5 * 256 + 16384 * 9 + 40) / 32 ∈ s1_2.blk.hbm.ue) ∧ (s1_2.blk.hbm.waiting = [])) ∧
    (Settled s1_3 ∧ noTally s1_3 ∧ (0 < Store.get 0 s1_3.blk.hbm.outst ((5 * 256 + 16384 * 9 + 40) / 256 % 64 * 32 + 4)) ∧ (0 < s1_3.blk.fld (U.pc ((5 * 256 + 16384 * 9 + 40) / 256 % 64)) F.PC_STAT_OUTST) ∧ (¬(5 * 256 + 16384 * 9 + 40) / 32 ∈ s1_3.blk.hbm.ue) ∧ (s1_3.blk.hbm.waiting ≠ []) ∧ (∀ (x : HbmBy × Nat × Bool), x ∈ s1_3.blk.hbm.waiting → x.snd.fst = (5 * 256 + 16384 * 9 + 40) / 256 % 64) ∧ (s1_3.blk.fld (U.pc ((5 * 256 + 16384 * 9 + 40) / 256 % 64)) F.PC_STAT_OUTST ≤ 64) ∧ (outstanding s1_3 ≤ 4096) ∧ ((s1_3.blk.pcH ((5 * 256 + 16384 * 9 + 40) / 256 % 64)).repair = none)) ∧
    (Takes s1_0 Who.pf (U.pc ((5 * 256 + 16384 * 9 + 40) / 256 % 64)) ∧ (s1_0.blk.time.coll = [])) :=
  by refine ⟨?_, ?_, ?_, ?_, ?_, ?_, ?_⟩ <;> decide +kernel

theorem meets_replay :
    (Settled s7_2 ∧ Takes s7_2 Who.pf U.cel ∧ (s7_2.blk.time.coll = []) ∧ ((s7_2.blk.fld U.cel F.CEL_STAT_STATE = 0 ∨ s7_2.blk.fld U.cel F.CEL_STAT_STATE = 3) ∧ s7_2.blk.ownState (U.pbd (s7_2.blk.fld U.cel F.CEL_RPL_CFG_PBD)) = 5 ∧ BitVec.getLsbD (s7_2.blk.celEntry (s7_2.blk.fld U.cel F.CEL_RPL_CFG_STREAM)) 63 = true ∧ BitVec.toNat (s7_2.blk.celEntry (s7_2.blk.fld U.cel F.CEL_RPL_CFG_STREAM)) % 4 < 2 ∧ s7_2.blk.rateOf (BitVec.toNat (s7_2.blk.celEntry (s7_2.blk.fld U.cel F.CEL_RPL_CFG_STREAM)) / 2 ^ 8 % 128) = s7_2.blk.rateOf (s7_2.blk.fld U.cel F.CEL_RPL_CFG_PBD) ∧ s7_2.blk.hbmBad (s7_2.blk.fld (U.hs 0) (F.MEM_REGION_BASE 4) * 2 ^ 26 + 32 * indexPos (s7_2.blk.reg U.cel R.CEL_RPL_FROM)) 32 = false ∧ s7_2.mem.rdBytes (s7_2.blk.fld (U.hs 0) (F.MEM_REGION_BASE 4) * 2 ^ 26 + 32 * indexPos (s7_2.blk.reg U.cel R.CEL_RPL_FROM)) 8 = BitVec.toNat (s7_2.blk.reg U.cel R.CEL_RPL_FROM) ∧ s7_2.mem.rdBytes (s7_2.blk.fld (U.hs 0) (F.MEM_REGION_BASE 4) * 2 ^ 26 + 32 * indexPos (s7_2.blk.reg U.cel R.CEL_RPL_FROM) + 8) 8 ≠ 0 ∧ s7_2.mem.rdBytes (s7_2.blk.fld (U.hs 0) (F.MEM_REGION_BASE 4) * 2 ^ 26 + 32 * indexPos (s7_2.blk.reg U.cel R.CEL_RPL_FROM) + 16) 8 ≠ 0)) ∧
    (Settled s7_0 ∧ Takes s7_0 Who.pf U.cel ∧ (s7_0.blk.time.coll = []) ∧ (¬((s7_0.blk.fld U.cel F.CEL_STAT_STATE = 0 ∨ s7_0.blk.fld U.cel F.CEL_STAT_STATE = 3) ∧ s7_0.blk.ownState (U.pbd (s7_0.blk.fld U.cel F.CEL_RPL_CFG_PBD)) = 5 ∧ BitVec.getLsbD (s7_0.blk.celEntry (s7_0.blk.fld U.cel F.CEL_RPL_CFG_STREAM)) 63 = true ∧ BitVec.toNat (s7_0.blk.celEntry (s7_0.blk.fld U.cel F.CEL_RPL_CFG_STREAM)) % 4 < 2 ∧ s7_0.blk.rateOf (BitVec.toNat (s7_0.blk.celEntry (s7_0.blk.fld U.cel F.CEL_RPL_CFG_STREAM)) / 2 ^ 8 % 128) = s7_0.blk.rateOf (s7_0.blk.fld U.cel F.CEL_RPL_CFG_PBD) ∧ s7_0.blk.hbmBad (s7_0.blk.fld (U.hs 0) (F.MEM_REGION_BASE 4) * 2 ^ 26 + 32 * indexPos (s7_0.blk.reg U.cel R.CEL_RPL_FROM)) 32 = false ∧ s7_0.mem.rdBytes (s7_0.blk.fld (U.hs 0) (F.MEM_REGION_BASE 4) * 2 ^ 26 + 32 * indexPos (s7_0.blk.reg U.cel R.CEL_RPL_FROM)) 8 = BitVec.toNat (s7_0.blk.reg U.cel R.CEL_RPL_FROM) ∧ s7_0.mem.rdBytes (s7_0.blk.fld (U.hs 0) (F.MEM_REGION_BASE 4) * 2 ^ 26 + 32 * indexPos (s7_0.blk.reg U.cel R.CEL_RPL_FROM) + 8) 8 ≠ 0 ∧ s7_0.mem.rdBytes (s7_0.blk.fld (U.hs 0) (F.MEM_REGION_BASE 4) * 2 ^ 26 + 32 * indexPos (s7_0.blk.reg U.cel R.CEL_RPL_FROM) + 16) 8 ≠ 0))) ∧
    (Settled s7_3 ∧ Takes s7_3 Who.pf U.cel ∧ (s7_3.blk.time.coll = []) ∧ (s7_3.blk.fld U.cel F.CEL_RPL_STAT_STATE = 1 ∨ s7_3.blk.fld U.cel F.CEL_RPL_STAT_STATE = 2)) ∧
    ((s7_0.blk.fld U.cel F.CEL_RPL_STAT_STATE = 0 ∨ s7_0.blk.fld U.cel F.CEL_RPL_STAT_STATE = 3)) ∧
    (Settled s7_9 ∧ (s7_9.blk.fld U.cel F.CEL_RPL_STAT_STATE = 1) ∧ (s7_9.blk.t = s7_9.blk.time.tickStart) ∧ (s7_9.blk.cel.rplAsk + 32768 ≤ s7_9.blk.t) ∧ (0 < s7_9.blk.fld U.cel F.CEL_RPL_CFG_COUNT)) ∧
    ((s7_0.blk.fld U.cel F.CEL_RPL_STAT_STATE ≠ 1 ∨ s7_0.blk.t ≠ s7_0.blk.time.tickStart ∨ s7_0.blk.t < s7_0.blk.cel.rplAsk + 32768) ∧ (s7_0.blk.fld U.cel F.CEL_RPL_STAT_STATE ≠ 2)) ∧
    (Settled s7_4 ∧ (s7_4.blk.fld U.cel F.CEL_RPL_STAT_STATE = 2) ∧ DueNow s7_4 s7_4.blk.cel.rplDue ∧ (s7_4.blk.fld U.cel F.CEL_RPL_STAT_FED + 1 < 2 ^ 32)) :=
  by refine ⟨?_, ?_, ?_, ?_, ?_, ?_, ?_⟩ <;> decide +kernel

end W16

namespace W16b

def hsOn (b : Block) : Block := ((run b).setFld (U.hs 0) F.UNIT_STATE_PWR 2).setFld (U.hs 1) F.UNIT_STATE_PWR 2
def cs (st : Nat) (b : Block) : Block := ((hsOn b).setFld U.cel F.CEL_STAT_STATE st).setFld U.cel F.CEL_GEOM_RECORDS 1890505
def sd (w : Nat) (b : Block) : Block := {b with cel := {b.cel with sdata := [(3, BitVec.ofNat 64 w)]}}
def celm (f : CelH → CelH) (b : Block) : Block := {b with cel := f b.cel}
def iv (st : Nat) (f : CelH → CelH) (b : Block) : Block := sd (2^63 + 5*256) (celm (fun c => f {c with ivFrom := some 0, ivStamp := 0x1C0A960000, version := 4, trigAt := some 9}) (at_ 16384 (cs st b)))
def lf (n : Nat) (b : Block) : Block := b.setFld U.cel F.CEL_POST_LEFT n
def live (b : Block) : Block := sd (2^63 + 2+ 5*256+2^24) (b.setFld (U.rxc 5) F.RXC_STAT_CH_STATE 2)
def rec (n : Nat) : CelRec := {stamp := 0x1C0A960000, seq := n, version := 3, units := 1, flags := 1, data := 2^4095 + 12345}
def wn (p n : Nat) (b : Block) : Block := (celm (fun c => {c with pos := p, count := n, queue := [rec 9, rec 10]}) (cs 1 b)).setFld U.cel F.CEL_GEOM_RECSIZE 576
def ws2 : List State := ([mk run, mk (iv 1 id), mk fun b => live (iv 1 id b), mk fun b => (iv 1 id b).setFld U.cel F.CEL_SEQ_SEQ (2^48-1), mk (lf 5 ∘ iv 2 id), mk (lf 1 ∘ iv 2 id), mk (iv 1 fun c => {c with stopDue := true}), mk (lf 5 ∘ iv 2 fun c => {c with holdDue := true}), mk (iv 1 fun c => {c with queue := [rec 1], ivStep := true}), mk (iv 1 fun c => {c with queue := (List.range 8).map rec})]).map (endAt 20000)
def s2_0 : State := ws2.getD 0 State.reset
def s2_9 : State := ws2.getD 9 State.reset
def s3_1 : State := mk (wn 0 0)

theorem meets_cellarRecords_2 :
    (Settled s2_9 ∧ (s2_9.blk.cel.ivFrom = some 0) ∧ DueNow s2_9 (0 + 16384) ∧ (s2_9.blk.cel.queue = rec 0 :: List.map (fun (i : Nat) => rec (i + 1)) (List.range 7)) ∧ (s2_9.blk.cel.queue.length = 8) ∧ (∀ (i : Nat), i < 64 → serves s2_9 i) ∧ ((rec 0).flags < 4) ∧ ((rec 0).seq < 2 ^ 48) ∧ ((rec 0).version < 2 ^ 32) ∧ (s2_9.blk.fld (U.hs 0) (F.MEM_REGION_BASE 4) * 2 ^ 26 + 2 ^ 29 ≤ 2 ^ 37)) ∧
    (Settled s2_0 ∧ (s2_0.blk.cel.queue = [])) ∧
    (Settled s3_1 ∧ (s3_1.blk.cel.queue = [rec 9, rec 10]) ∧ (∀ (i : Nat), i < 64 → serves s3_1 i) ∧ (0 < s3_1.blk.fld U.cel F.CEL_GEOM_RECORDS) ∧ (s3_1.blk.cel.count ≤ s3_1.blk.fld U.cel F.CEL_GEOM_RECORDS) ∧ (s3_1.blk.cel.pos < s3_1.blk.fld U.cel F.CEL_GEOM_RECORDS) ∧ ((rec 9).seq < 2 ^ 48) ∧ ((rec 9).version < 2 ^ 32)) ∧
    (((rec 9).units ≤ 2048) ∧ ((rec 9).flags < 8) ∧ (s3_1.blk.fld U.cel F.CEL_GEOM_RECSIZE = 64 + 512 * (rec 9).units)) :=
  ⟨by decide +kernel, by decide +kernel, by decide +kernel, by decide +kernel⟩

end W16b

namespace W17

def mo (st act : Nat) (f : MonH → MonH) (b : Block) : Block := (((run b).setFld U.mon F.UNIT_STATE_STATE st).setMonAct act).setMon f
def sel (c : Nat) (b : Block) : Block := (((b.setFld U.mon F.MON_SEL_CH c).setFld U.mon F.MON_BURST_CH c).setFld U.mon (F.MON_REG_CH 0) c).setFld U.mon (F.MON_INJ_CH 0) c
def per (b : Block) : Block := (b.setFlag U.mon F.MON_CFG_PER_EN true).setMon fun h => {h with perAt := 3125*1000-5}
def ilv (n : Nat) (b : Block) : Block := (b.setFlag U.mon F.MON_BURST_ILV true).setFld U.mon F.MON_STAT_SLICE_FAIL n
def ws1 : List State := (List.range 5).flatMap fun a => [mk fun b => sel 5 (per (mo 2 a id b)), mk fun b => sel 35 (per (mo 2 a id b)), mk fun b => per (mo 2 a (fun h => {h with held := true, waiting := [none], suspended := some 3, cv := some {}}) b), mk fun b => ilv 3 (per (mo 2 a id b)), mk fun b => ilv 4 (per (mo 2 a id b)), mk fun b => per (mo 1 a id b), mk fun b => (per (mo 1 a id b)).setMon fun h => {h with urgentAt := some 1000}]
def s1_0 : State := ws1.getD 0 State.reset
def s1_1 : State := ws1.getD 1 State.reset
def s1_3 : State := ws1.getD 3 State.reset
def s1_5 : State := ws1.getD 5 State.reset
def s1_7 : State := ws1.getD 7 State.reset
def s1_9 : State := ws1.getD 9 State.reset

theorem meets_monitorTriggers :
    (Settled s1_0 ∧ (s1_0.blk.time.running = true) ∧ (Takes s1_0 Who.pf U.mon ∧ s1_0.blk.time.coll = []) ∧ monFree s1_0 ∧ (s1_0.blk.ownState U.mon = 2) ∧ (s1_0.blk.fld U.mon F.MON_STAT_ACT = 0) ∧ (s1_0.blk.fld U.mon F.MON_SEL_CH < 35)) ∧
    (Settled s1_1 ∧ (s1_1.blk.time.running = true) ∧ (Takes s1_1 Who.pf U.mon ∧ s1_1.blk.time.coll = []) ∧ monFree s1_1 ∧ (s1_1.blk.ownState U.mon = 2) ∧ (s1_1.blk.fld U.mon F.MON_STAT_ACT = 0) ∧ (35 ≤ s1_1.blk.fld U.mon F.MON_SEL_CH)) ∧
    ((s1_0.blk.fld U.mon F.MON_BURST_CH < 35) ∧ (s1_0.blk.flag U.mon F.MON_BURST_ILV = false ∨ s1_0.blk.fld U.mon F.MON_STAT_SLICE_FAIL = 0 ∨ s1_0.blk.fld U.mon F.MON_STAT_SLICE_FAIL = 1 ∨ s1_0.blk.fld U.mon F.MON_STAT_SLICE_FAIL = 2 ∨ s1_0.blk.fld U.mon F.MON_STAT_SLICE_FAIL = 4)) ∧
    (Settled s1_3 ∧ (s1_3.blk.time.running = true) ∧ (Takes s1_3 Who.pf U.mon ∧ s1_3.blk.time.coll = []) ∧ monFree s1_3 ∧ (s1_3.blk.ownState U.mon = 2) ∧ (s1_3.blk.fld U.mon F.MON_STAT_ACT = 0) ∧ (s1_3.blk.fld U.mon F.MON_BURST_CH < 35) ∧ (s1_3.blk.flag U.mon F.MON_BURST_ILV = true) ∧ (s1_3.blk.fld U.mon F.MON_STAT_SLICE_FAIL = 3 ∨ 5 ≤ s1_3.blk.fld U.mon F.MON_STAT_SLICE_FAIL)) ∧
    ((35 ≤ s1_1.blk.fld U.mon F.MON_BURST_CH)) ∧
    (Settled s1_7 ∧ (s1_7.blk.time.running = true) ∧ (Takes s1_7 Who.pf U.mon ∧ s1_7.blk.time.coll = []) ∧ (s1_7.blk.ownState U.mon = 2) ∧ (s1_7.blk.fld U.mon F.MON_STAT_ACT ≠ 0)) ∧
    (Settled s1_5 ∧ (s1_5.blk.time.running = true) ∧ (Takes s1_5 Who.pf U.mon ∧ s1_5.blk.time.coll = []) ∧ (s1_5.blk.ownState U.mon = 1)) ∧
    ((monFree s1_0 ∨ s1_0.blk.fld U.mon F.MON_STAT_ACT ≠ 0) ∧ (s1_0.blk.fld U.mon (F.MON_REG_CH 0) < 35)) ∧
    ((monFree s1_7 ∨ s1_7.blk.fld U.mon F.MON_STAT_ACT ≠ 0) ∧ (s1_7.blk.fld U.mon F.MON_STAT_ACT = 1 ∨ s1_7.blk.fld U.mon F.MON_STAT_ACT = 3) ∧ (s1_7.blk.mon.held = false)) ∧
    (Settled s1_9 ∧ (s1_9.blk.time.running = true) ∧ (Takes s1_9 Who.pf U.mon ∧ s1_9.blk.time.coll = []) ∧ (monFree s1_9 ∨ s1_9.blk.fld U.mon F.MON_STAT_ACT ≠ 0) ∧ (s1_9.blk.ownState U.mon = 2) ∧ ((s1_9.blk.fld U.mon F.MON_STAT_ACT = 1 ∨ s1_9.blk.fld U.mon F.MON_STAT_ACT = 3) ∧ s1_9.blk.mon.held = true ∨ s1_9.blk.fld U.mon F.MON_STAT_ACT = 2 ∨ s1_9.blk.fld U.mon F.MON_STAT_ACT = 4)) ∧
    ((monFree s1_5 ∨ s1_5.blk.fld U.mon F.MON_STAT_ACT ≠ 0)) ∧
    ((s1_0.blk.mon.urgentAt ≠ some s1_0.blk.t) ∧ (∀ (x : Nat × Nat), s1_0.blk.mon.requestAt = some x → x.fst ≠ s1_0.blk.t) ∧ (s1_0.blk.fld U.mon (F.MON_INJ_CH 0) < 35)) ∧
    ((s1_7.blk.mon.urgentAt ≠ some s1_7.blk.t) ∧ (∀ (x : Nat × Nat), s1_7.blk.mon.requestAt = some x → x.fst ≠ s1_7.blk.t) ∧ (s1_7.blk.fld U.mon F.MON_STAT_ACT = 1 ∨ s1_7.blk.fld U.mon F.MON_STAT_ACT = 3 ∨ s1_7.blk.fld U.mon F.MON_STAT_ACT = 4)) ∧
    ((s1_5.blk.mon.urgentAt ≠ some s1_5.blk.t) ∧ (∀ (x : Nat × Nat), s1_5.blk.mon.requestAt = some x → x.fst ≠ s1_5.blk.t)) ∧
    ((s1_0.blk.flag U.mon F.MON_CFG_PER_EN = true) ∧ DueNow s1_0 (tcAfter s1_0.blk.mon.perAt)) ∧
    ((s1_7.blk.flag U.mon F.MON_CFG_PER_EN = true) ∧ DueNow s1_7 (tcAfter s1_7.blk.mon.perAt)) ∧
    ((s1_9.blk.flag U.mon F.MON_CFG_PER_EN = true) ∧ DueNow s1_9 (tcAfter s1_9.blk.mon.perAt)) ∧
    ((s1_5.blk.flag U.mon F.MON_CFG_PER_EN = true) ∧ DueNow s1_5 (tcAfter s1_5.blk.mon.perAt)) ∧
    ((¬(s1_0.blk.monWants 4 = true ∧ ∀ (j : Nat), j < 4 → s1_0.blk.monWants j = false))) :=
  by refine ⟨?_, ?_, ?_, ?_, ?_, ?_, ?_, ?_, ?_, ?_, ?_, ?_, ?_, ?_, ?_, ?_, ?_, ?_, ?_⟩ <;> decide +kernel

end W17

namespace W17b

def mo (st act : Nat) (f : MonH → MonH) (b : Block) : Block := (((run b).setFld U.mon F.UNIT_STATE_STATE st).setMonAct act).setMon f
def w1 (m ch : Nat) (b : Block) : Block := let u := U.pbd m
  let w := Word.setFld (Word.setFld 0 F.LOOP_SUPV_MON_EN.hi F.LOOP_SUPV_MON_EN.lo 1) F.LOOP_SUPV_MON_CH.hi F.LOOP_SUPV_MON_CH.lo ch
  let b := (b.setReg (U.pb (m/2)) R.PB_DN_TX 0xFFFFFFFFFFFFFFFF).setPbdH m {b.pbdH m with sampled := true}
  let b := b.setReg (U.pb (m/2)) R.PB_SV_TX0 0x8000800080008000
  {b with loop := {b.loop with act := Store.set (regReset u R.LOOP_SUPV) (Store.set (regReset u F.LOOP_PBD_CTRL_SUPV_EN.off) b.loop.act (regKey u F.LOOP_PBD_CTRL_SUPV_EN.off) (Word.setFld 0 F.LOOP_PBD_CTRL_SUPV_EN.hi F.LOOP_PBD_CTRL_SUPV_EN.lo 1)) (regKey u R.LOOP_SUPV) w}}
def ws1 : List State := (List.range 5).flatMap fun a => [mk fun b => w1 4 5 (mo 2 a id b), mk fun b => w1 4 36 (mo 2 a id b), mk fun b => w1 2 5 (w1 4 5 (mo 2 a id b)), mk fun b => w1 4 5 (mo 2 a (fun h => {h with urgentAt := some 1000}) b)]
def s1_0 : State := ws1.getD 0 State.reset
def s1_3 : State := ws1.getD 3 State.reset
def s1_4 : State := ws1.getD 4 State.reset
def s1_8 : State := ws1.getD 8 State.reset

theorem meets_monitorTriggers_2 :
    (Settled s1_8 ∧ (s1_8.blk.time.running = true) ∧ (Takes s1_8 Who.pf U.mon ∧ s1_8.blk.time.coll = []) ∧ (monFree s1_8 ∨ s1_8.blk.fld U.mon F.MON_STAT_ACT ≠ 0) ∧ (s1_8.blk.mon.urgentAt ≠ some s1_8.blk.t) ∧ (∀ (x : Nat × Nat), s1_8.blk.mon.requestAt = some x → x.fst ≠ s1_8.blk.t) ∧ (s1_8.blk.ownState U.mon = 2) ∧ (s1_8.blk.fld U.mon F.MON_STAT_ACT = 2) ∧ (¬none ∈ s1_8.blk.mon.waiting)) ∧
    (Settled s1_0 ∧ (s1_0.blk.time.running = true) ∧ (s1_0.blk.flag U.mon F.MON_CFG_PER_EN = false) ∧ (s1_0.blk.monWants 4 = true ∧ ∀ (j : Nat), j < 4 → s1_0.blk.monWants j = false) ∧ (s1_0.blk.ownState U.mon = 2) ∧ (s1_0.blk.mon.urgentAt ≠ some s1_0.blk.t) ∧ (s1_0.blk.actFld (U.pbd 4) F.LOOP_SUPV_MON_CH < 35) ∧ (s1_0.blk.fld U.mon F.MON_STAT_ACT = 0)) ∧
    ((s1_8.blk.monWants 4 = true ∧ ∀ (j : Nat), j < 4 → s1_8.blk.monWants j = false) ∧ (s1_8.blk.actFld (U.pbd 4) F.LOOP_SUPV_MON_CH < 35) ∧ (s1_8.blk.mon.waiting = [])) ∧
    (Settled s1_4 ∧ (s1_4.blk.time.running = true) ∧ (s1_4.blk.monWants 4 = true ∧ ∀ (j : Nat), j < 4 → s1_4.blk.monWants j = false) ∧ (s1_4.blk.ownState U.mon = 2) ∧ (s1_4.blk.mon.urgentAt ≠ some s1_4.blk.t) ∧ (s1_4.blk.actFld (U.pbd 4) F.LOOP_SUPV_MON_CH < 35) ∧ (s1_4.blk.fld U.mon F.MON_STAT_ACT = 1 ∨ s1_4.blk.fld U.mon F.MON_STAT_ACT = 3 ∨ s1_4.blk.fld U.mon F.MON_STAT_ACT = 4)) ∧
    (Settled s1_3 ∧ (s1_3.blk.time.running = true) ∧ (s1_3.blk.monWants 4 = true ∧ ∀ (j : Nat), j < 4 → s1_3.blk.monWants j = false) ∧ (s1_3.blk.ownState U.mon = 2) ∧ (s1_3.blk.mon.urgentAt = some s1_3.blk.t)) :=
  ⟨by decide +kernel, by decide +kernel, by decide +kernel, by decide +kernel, by decide +kernel⟩

end W17b

namespace W18

def mo (act : Nat) (f : MonH → MonH) (b : Block) : Block := (((run b).setFld U.mon F.UNIT_STATE_STATE 2).setMonAct act).setMon f
def chs (c : Nat) (b : Block) : Block := (((List.range 16).foldl (fun b i => b.setFld U.mon (F.MON_REG_CH i) (c+i)) b).setFld U.mon (F.MON_INJ_CH 0) c).setFld U.mon (F.MON_INJ_CH 1) (c+1) |>.setFld U.mon F.MON_CFG_REG_LEN 2 |>.setFld U.mon F.MON_CFG_INJ_LEN 1
def cv0 (src : MonSrc) (cold : Bool) : MonCv := {src := src, chan := 5, start := 1000*3125-1228800-7, stamp := 55, cold := cold}
def wcs (e o : Nat) (rn cnt : Nat) (b : Block) : Block := ((((((b.setFld U.mon (F.MON_WC_CFG_EN 3) e).setFld U.mon (F.MON_WC_CFG_CH 3) 5).setFld U.mon (F.MON_WC_CFG_LO 3) 100).setFld U.mon (F.MON_WC_CFG_HI 3) 200).setFld U.mon (F.MON_WC_CFG_HYS 3) 10).setFld U.mon (F.MON_WC_CFG_CNT 3) cnt).setFld U.mon (F.MON_WC_STAT_OUT 3) o |>.setFld U.mon (F.MON_WC_STAT_RUN 3) rn
def sampMonSrc : List MonSrc := [.single, .reg 0, .reg 2, .inj 0, .inj 1, .loop 7, .burst 0, .burst 5]
def sts (src : MonSrc) : List State := [mk fun b => chs 5 (mo 2 (fun h => {h with cv := cv0 src false}) b), mk fun b => wcs 1 0 3 4 ((chs 5 (mo 2 (fun h => {h with cv := cv0 src false, held := true}) b)).setFlag U.mon F.MON_DATA_NEW true), mk fun b => wcs 1 1 2 4 (chs 5 (mo 2 (fun h => {h with cv := cv0 src false, waiting := [none]}) b)), mk fun b => wcs 1 1 3 4 (chs 5 (mo 3 (fun h => {h with cv := cv0 src false, suspended := some 2}) b)), mk fun b => wcs 1 0 0 4 (((chs 5 (mo 4 (fun h => {h with cv := cv0 src false}) b)).setFld U.mon F.MON_BURST_COUNT 6).setFlag U.mon F.MON_BURST_ILV true)]
def ws1 : List State := mk run :: sampMonSrc.flatMap sts
def s1_0 : State := ws1.getD 0 State.reset
def s1_1 : State := ws1.getD 1 State.reset
def s1_16 : State := ws1.getD 16 State.reset
def s1_2 : State := ws1.getD 2 State.reset
def s1_26 : State := ws1.getD 26 State.reset
def s1_3 : State := ws1.getD 3 State.reset
def s1_31 : State := ws1.getD 31 State.reset
def s1_4 : State := ws1.getD 4 State.reset
def s1_5 : State := ws1.getD 5 State.reset
def s1_6 : State := ws1.getD 6 State.reset

theorem meets_monitorResults :
    (Settled s1_0 ∧ (s1_0.blk.time.running = true) ∧ (s1_0.blk.mon.cv = none)) ∧
    (Settled s1_1 ∧ (s1_1.blk.time.running = true) ∧ (s1_1.blk.mon.cv = some (cv0 MonSrc.single false)) ∧ ((cv0 MonSrc.single false).chan < 35) ∧ DueNow s1_1 (tcAfter ((cv0 MonSrc.single false).start + 1228800)) ∧ ((cv0 MonSrc.single false).src = MonSrc.single)) ∧
    (Settled s1_6 ∧ (s1_6.blk.time.running = true) ∧ (s1_6.blk.mon.cv = some (cv0 (MonSrc.reg 0) false)) ∧ ((cv0 (MonSrc.reg 0) false).chan < 35) ∧ DueNow s1_6 (tcAfter ((cv0 (MonSrc.reg 0) false).start + 1228800)) ∧ ((cv0 (MonSrc.reg 0) false).src = MonSrc.reg 0)) ∧
    (Settled s1_16 ∧ (s1_16.blk.time.running = true) ∧ (s1_16.blk.mon.cv = some (cv0 (MonSrc.inj 0) false)) ∧ ((cv0 (MonSrc.inj 0) false).chan < 35) ∧ DueNow s1_16 (tcAfter ((cv0 (MonSrc.inj 0) false).start + 1228800)) ∧ ((cv0 (MonSrc.inj 0) false).src = MonSrc.inj 0)) ∧
    (Settled s1_26 ∧ (s1_26.blk.time.running = true) ∧ (s1_26.blk.mon.cv = some (cv0 (MonSrc.loop 7) false)) ∧ ((cv0 (MonSrc.loop 7) false).chan < 35) ∧ DueNow s1_26 (tcAfter ((cv0 (MonSrc.loop 7) false).start + 1228800)) ∧ ((cv0 (MonSrc.loop 7) false).src = MonSrc.loop 7)) ∧
    (Settled s1_31 ∧ (s1_31.blk.time.running = true) ∧ (s1_31.blk.mon.cv = some (cv0 (MonSrc.burst 0) false)) ∧ ((cv0 (MonSrc.burst 0) false).chan < 35) ∧ DueNow s1_31 (tcAfter ((cv0 (MonSrc.burst 0) false).start + 1228800)) ∧ ((cv0 (MonSrc.burst 0) false).src = MonSrc.burst 0)) ∧
    ((¬(s1_1.blk.flag U.mon (F.MON_WC_CFG_EN 3) = true ∧ s1_1.blk.fld U.mon (F.MON_WC_CFG_CH 3) = (cv0 MonSrc.single false).chan ∧ (cv0 MonSrc.single false).cold = false))) ∧
    (Settled s1_2 ∧ (s1_2.blk.time.running = true) ∧ (s1_2.blk.mon.cv = some (cv0 MonSrc.single false)) ∧ DueNow s1_2 (tcAfter ((cv0 MonSrc.single false).start + 1228800)) ∧ (s1_2.blk.flag U.mon (F.MON_WC_CFG_EN 3) = true ∧ s1_2.blk.fld U.mon (F.MON_WC_CFG_CH 3) = (cv0 MonSrc.single false).chan ∧ (cv0 MonSrc.single false).cold = false) ∧ (s1_2.blk.flag U.mon (F.MON_WC_STAT_OUT 3) = false) ∧ (¬(false = true ∨ false = false ∧ s1_2.blk.fld U.mon (F.MON_WC_CFG_HI 3) < if false = true then 4095 else if false = true then 0 else max 1 (min 4094 150))) ∧ (¬(false = false ∧ (false = true ∨ (if false = true then 4095 else if false = true then 0 else max 1 (min 4094 150)) < s1_2.blk.fld U.mon (F.MON_WC_CFG_LO 3))))) ∧
    (Settled s1_5 ∧ (s1_5.blk.time.running = true) ∧ (s1_5.blk.mon.cv = some (cv0 MonSrc.single false)) ∧ DueNow s1_5 (tcAfter ((cv0 MonSrc.single false).start + 1228800)) ∧ (s1_5.blk.flag U.mon (F.MON_WC_CFG_EN 3) = true ∧ s1_5.blk.fld U.mon (F.MON_WC_CFG_CH 3) = (cv0 MonSrc.single false).chan ∧ (cv0 MonSrc.single false).cold = false) ∧ (s1_5.blk.flag U.mon (F.MON_WC_STAT_OUT 3) = false) ∧ ((true = true ∨ true = false ∧ s1_5.blk.fld U.mon (F.MON_WC_CFG_HI 3) < if true = true then 4095 else if true = true then 0 else max 1 (min 4094 195)) ∨ true = false ∧ (true = true ∨ (if true = true then 4095 else if true = true then 0 else max 1 (min 4094 195)) < s1_5.blk.fld U.mon (F.MON_WC_CFG_LO 3))) ∧ (s1_5.blk.fld U.mon (F.MON_WC_STAT_RUN 3) + 1 < max 1 (s1_5.blk.fld U.mon (F.MON_WC_CFG_CNT 3)))) ∧
    (((true = true ∨ true = false ∧ s1_2.blk.fld U.mon (F.MON_WC_CFG_HI 3) < if true = true then 4095 else if true = true then 0 else max 1 (min 4094 195)) ∨ true = false ∧ (true = true ∨ (if true = true then 4095 else if true = true then 0 else max 1 (min 4094 195)) < s1_2.blk.fld U.mon (F.MON_WC_CFG_LO 3))) ∧ (max 1 (s1_2.blk.fld U.mon (F.MON_WC_CFG_CNT 3)) ≤ s1_2.blk.fld U.mon (F.MON_WC_STAT_RUN 3) + 1)) ∧
    (Settled s1_3 ∧ (s1_3.blk.time.running = true) ∧ (s1_3.blk.mon.cv = some (cv0 MonSrc.single false)) ∧ DueNow s1_3 (tcAfter ((cv0 MonSrc.single false).start + 1228800)) ∧ (s1_3.blk.flag U.mon (F.MON_WC_CFG_EN 3) = true ∧ s1_3.blk.fld U.mon (F.MON_WC_CFG_CH 3) = (cv0 MonSrc.single false).chan ∧ (cv0 MonSrc.single false).cold = false) ∧ (s1_3.blk.flag U.mon (F.MON_WC_STAT_OUT 3) = true) ∧ (¬(true = false ∧ true = false ∧ (s1_3.blk.fld U.mon (F.MON_WC_CFG_LO 3) + s1_3.blk.fld U.mon (F.MON_WC_CFG_HYS 3) ≤ if true = true then 4095 else if true = true then 0 else max 1 (min 4094 195)) ∧ (if true = true then 4095 else if true = true then 0 else max 1 (min 4094 195)) + s1_3.blk.fld U.mon (F.MON_WC_CFG_HYS 3) ≤ s1_3.blk.fld U.mon (F.MON_WC_CFG_HI 3))) ∧ (false = false ∧ false = false ∧ (s1_3.blk.fld U.mon (F.MON_WC_CFG_LO 3) + s1_3.blk.fld U.mon (F.MON_WC_CFG_HYS 3) ≤ if false = true then 4095 else if false = true then 0 else max 1 (min 4094 150)) ∧ (if false = true then 4095 else if false = true then 0 else max 1 (min 4094 150)) + s1_3.blk.fld U.mon (F.MON_WC_CFG_HYS 3) ≤ s1_3.blk.fld U.mon (F.MON_WC_CFG_HI 3)) ∧ (s1_3.blk.fld U.mon (F.MON_WC_STAT_RUN 3) + 1 < max 1 (s1_3.blk.fld U.mon (F.MON_WC_CFG_CNT 3)))) ∧
    (Settled s1_4 ∧ (s1_4.blk.time.running = true) ∧ (s1_4.blk.mon.cv = some (cv0 MonSrc.single false)) ∧ DueNow s1_4 (tcAfter ((cv0 MonSrc.single false).start + 1228800)) ∧ (s1_4.blk.flag U.mon (F.MON_WC_CFG_EN 3) = true ∧ s1_4.blk.fld U.mon (F.MON_WC_CFG_CH 3) = (cv0 MonSrc.single false).chan ∧ (cv0 MonSrc.single false).cold = false) ∧ (s1_4.blk.flag U.mon (F.MON_WC_STAT_OUT 3) = true) ∧ (false = false ∧ false = false ∧ (s1_4.blk.fld U.mon (F.MON_WC_CFG_LO 3) + s1_4.blk.fld U.mon (F.MON_WC_CFG_HYS 3) ≤ if false = true then 4095 else if false = true then 0 else max 1 (min 4094 150)) ∧ (if false = true then 4095 else if false = true then 0 else max 1 (min 4094 150)) + s1_4.blk.fld U.mon (F.MON_WC_CFG_HYS 3) ≤ s1_4.blk.fld U.mon (F.MON_WC_CFG_HI 3)) ∧ (max 1 (s1_4.blk.fld U.mon (F.MON_WC_CFG_CNT 3)) ≤ s1_4.blk.fld U.mon (F.MON_WC_STAT_RUN 3) + 1)) :=
  by refine ⟨?_, ?_, ?_, ?_, ?_, ?_, ?_, ?_, ?_, ?_, ?_, ?_⟩ <;> decide +kernel

end W18

namespace W19

def mo (act : Nat) (f : MonH → MonH) (b : Block) : Block := (((run b).setFld U.mon F.UNIT_STATE_STATE 2).setMonAct act).setMon f
def warm (sl : Nat) (b : Block) : Block := (at_ 196609000 (mo 2 (fun h => {h with rotateAt := 1000, cv := some {}}) b)).setFlag U.mon F.MON_REF_EN_WARM true |>.setFld U.mon F.MON_STAT_SLICE_FAIL sl
def s1_0 : State := mk run
def s1_1 : State := mk fun b => (mo 2 (fun h => {h with warmAt := some 1000}) b).setFlag U.mon F.MON_REF_EN_EN true
def s1_3 : State := endAt (10^9) (mk (warm 0))
def s1_5 : State := endAt (10^9) (mk (warm 2))
def s1_7 : State := endAt (10^9) (mk (warm 3))
def s1_8 : State := endAt (10^9) (mk fun b => (warm 0 b).setFlag U.mon F.MON_STAT_CAL_FROZEN true)

theorem meets_monitorService :
    (Settled s1_0 ∧ (s1_0.blk.inReset = false) ∧ NoGroups s1_0 ∧ Takes s1_0 Who.pf U.mon ∧ (s1_0.blk.time.coll = [])) ∧
    (Settled s1_1 ∧ (s1_1.blk.inReset = false) ∧ NoGroups s1_1 ∧ (s1_1.blk.mon.warmAt = some 1000) ∧ DueNow s1_1 1000) ∧
    ((s1_0.blk.mon.warmAt = none) ∧ (s1_0.blk.readOk Who.pf U.mon = true) ∧ (s1_0.blk.readOk (Who.vf 2) U.mon = false) ∧ (s1_0.blk.flag U.mon F.MON_REF_EN_WARM = false ∨ s1_0.blk.fld U.mon F.MON_STAT_ACT = 4)) ∧
    (Settled s1_3 ∧ (s1_3.blk.inReset = false) ∧ NoGroups s1_3 ∧ (s1_3.blk.flag U.mon F.MON_REF_EN_WARM = true) ∧ (s1_3.blk.fld U.mon F.MON_STAT_ACT ≠ 4) ∧ DueNow s1_3 (s1_3.blk.mon.rotateAt + 196608000) ∧ (s1_3.blk.flag U.mon F.MON_STAT_CAL_FROZEN = false)) ∧
    (Settled s1_8 ∧ (s1_8.blk.inReset = false) ∧ NoGroups s1_8 ∧ (s1_8.blk.flag U.mon F.MON_REF_EN_WARM = true) ∧ (s1_8.blk.fld U.mon F.MON_STAT_ACT ≠ 4) ∧ DueNow s1_8 (s1_8.blk.mon.rotateAt + 196608000) ∧ (s1_8.blk.flag U.mon F.MON_STAT_CAL_FROZEN = true)) ∧
    ((0 < 3 ∧ s1_3.blk.fld U.mon F.MON_STAT_SLICE_FAIL / 2 ^ 0 % 2 = 0 ∧ s1_3.blk.fld U.mon F.MON_STAT_SLICE_FAIL < 8) ∧ (s1_3.blk.fld U.mon F.MON_STAT_SLICE_FAIL % 2 + s1_3.blk.fld U.mon F.MON_STAT_SLICE_FAIL / 2 % 2 + s1_3.blk.fld U.mon F.MON_STAT_SLICE_FAIL / 4 % 2 = 0)) ∧
    (Settled s1_5 ∧ (s1_5.blk.inReset = false) ∧ NoGroups s1_5 ∧ (s1_5.blk.flag U.mon F.MON_REF_EN_WARM = true) ∧ (s1_5.blk.fld U.mon F.MON_STAT_ACT ≠ 4) ∧ DueNow s1_5 (s1_5.blk.mon.rotateAt + 196608000) ∧ (0 < 3 ∧ s1_5.blk.fld U.mon F.MON_STAT_SLICE_FAIL / 2 ^ 0 % 2 = 0 ∧ s1_5.blk.fld U.mon F.MON_STAT_SLICE_FAIL < 8) ∧ (s1_5.blk.fld U.mon F.MON_STAT_SLICE_FAIL % 2 + s1_5.blk.fld U.mon F.MON_STAT_SLICE_FAIL / 2 % 2 + s1_5.blk.fld U.mon F.MON_STAT_SLICE_FAIL / 4 % 2 = 1)) ∧
    (Settled s1_7 ∧ (s1_7.blk.inReset = false) ∧ NoGroups s1_7 ∧ (s1_7.blk.flag U.mon F.MON_REF_EN_WARM = true) ∧ (s1_7.blk.fld U.mon F.MON_STAT_ACT ≠ 4) ∧ DueNow s1_7 (s1_7.blk.mon.rotateAt + 196608000) ∧ (2 < 3 ∧ s1_7.blk.fld U.mon F.MON_STAT_SLICE_FAIL / 2 ^ 2 % 2 = 0 ∧ s1_7.blk.fld U.mon F.MON_STAT_SLICE_FAIL < 8) ∧ (s1_7.blk.fld U.mon F.MON_STAT_SLICE_FAIL % 2 + s1_7.blk.fld U.mon F.MON_STAT_SLICE_FAIL / 2 % 2 + s1_7.blk.fld U.mon F.MON_STAT_SLICE_FAIL / 4 % 2 = 2) ∧ (s1_7.blk.ownState U.mon ≠ 6)) :=
  by refine ⟨?_, ?_, ?_, ?_, ?_, ?_, ?_, ?_⟩ <;> decide +kernel

end W19

namespace W20

def rc (f : RecH → RecH) (b : Block) : Block := (run b).setRec fun h => f {h with incoming := []}
def ev (k : Nat) : RecEv := {typ := 2, uid := 0x105, words := [BitVec.ofNat 64 (k * 65536), 7], excl := [1]}
def nw : RecNewest := {typ := 2, uid := 0x105, flags := 0, digest := (ev 3).digest, arrival := 900, off := 64, rep := 9}
def nx (n : Nat) (b : Block) : Block := b.setFld U.rec F.REC_STAT_NEXT n
def inc (l : List RecEv) (f : RecH → RecH) : Block → Block := rc fun h => f {h with incoming := l}
def wr (w : RecWrite) (f : RecH → RecH) (b : Block) : Block := rc (fun h => f {h with writing := some w}) b
def hd (n : Nat) (b : Block) : Block := b.setFld U.rec F.REC_SEQ_HEAD_HEAD n
def ta (f : TallyH → TallyH) (b : Block) : Block := (run b).setTal f
def csel (blk ctr : Nat) (b : Block) : Block := (b.setFld U.tally F.TALLY_CSEL_BLOCK blk).setFld U.tally F.TALLY_CSEL_CTR ctr
def held (b : Block) : Block := b.setFlag U.tally F.TALLY_STAT_HELD true
def s1_0 : State := mk (rc id)
def s1_1 : State := mk (inc [ev 3] id)
def s1_7 : State := mk (inc [ev 4] fun h => {h with writing := some .increment})
def s1_8 : State := mk (inc [ev 4] fun h => {h with clearing := some (7,9)})
def s1_9 : State := mk (inc [ev 4] fun h => {h with writing := some .increment, staging := (List.range 64).map ev})
def s2_0 : State := mk (rc id)
def s2_1 : State := mk fun b => hd 7 (nx 64 (wr (.record (ev 3)) id b))
def s2_2 : State := mk fun b => hd 7 (nx 64 (wr (.record (ev 3)) (fun h => {h with staging := [ev 3, ev 4]}) b))
def s2_3 : State := mk fun b => hd 7 (nx 64 (wr (.record (ev 4)) (fun h => {h with staging := [ev 3], pendingLost := 5}) b))
def s2_4 : State := mk fun b => hd 7 (nx 64 (wr (.record (ev 4)) (fun h => {h with clearAsk := true}) b))
def s2_5 : State := {mk (wr .increment fun h => {h with newest := some nw}) with mem := ({} : Mem).wr .mram 10 0x123456789ABC0009}
def s2_6 : State := mk fun b => hd 9 (wr (.full (ev 3)) (fun h => {h with pendingLost := 5}) b)
def s2_7 : State := mk fun b => hd 9 (wr .afterFull id b)
def s2_8 : State := mk fun b => hd 9 (wr .afterFull (fun h => {h with afterFull := true}) b)
def s3_0 : State := mk (ta id)
def s3_1 : State := mk fun b => csel 35 9 (ta (fun h => {h with pos := some 100}) b)
def s3_4 : State := mk fun b => held (csel 33 2 (ta (fun h => {h with pos := some 512}) b))
def s3_6 : State := endAt (10^8) (mk fun b => (at_ (1000+3*1966080) (ta (fun h => {h with perAt := 1000}) b)).setFld U.tally F.TALLY_CFG_PERIOD 2)
def s3_7 : State := mk fun b => ((ta id b).setFld U.tally (F.TR_CTRL_RUN 1) 1).setReg U.tally (R.TR_STAT 1) 0x1234

theorem meets_recorderEvents :
    (Settled s1_0 ∧ (s1_0.blk.recd.incoming = [])) ∧
    (Settled s1_1 ∧ (s1_1.blk.recd.incoming = [ev 3]) ∧ (s1_1.blk.recd.writing = none ∧ s1_1.blk.recd.clearing = none ∧ s1_1.blk.recd.staging = [])) ∧
    (Settled s1_7 ∧ (s1_7.blk.recd.incoming = [ev 4]) ∧ (¬(s1_7.blk.recd.writing = none ∧ s1_7.blk.recd.clearing = none ∧ s1_7.blk.recd.staging = [])) ∧ (s1_7.blk.recd.staging.length < 64)) ∧
    (Settled s1_9 ∧ (s1_9.blk.recd.incoming = [ev 4]) ∧ (¬(s1_9.blk.recd.writing = none ∧ s1_9.blk.recd.clearing = none ∧ s1_9.blk.recd.staging = [])) ∧ (64 ≤ s1_9.blk.recd.staging.length)) ∧
    (Takes s1_0 Who.warden U.rec ∧ (s1_0.blk.time.coll = []) ∧ (whoWarden Who.warden = true) ∧ (s1_0.blk.recd.writing = none) ∧ (s1_0.blk.recd.clearing = none)) ∧
    (Takes s1_7 Who.warden U.rec ∧ (s1_7.blk.time.coll = []) ∧ (s1_7.blk.recd.writing ≠ none) ∧ (s1_7.blk.recd.clearing = none)) ∧
    (Takes s1_0 Who.pf U.rec ∧ (whoWarden Who.pf = false ∨ s1_0.blk.recd.clearing ≠ none)) ∧
    (Settled s1_8 ∧ (s1_8.blk.recd.clearing = some (7, 9))) :=
  by refine ⟨?_, ?_, ?_, ?_, ?_, ?_, ?_, ?_⟩ <;> decide +kernel

theorem meets_recorderWrites :
    (Settled s2_0 ∧ (s2_0.blk.recd.writing = none)) ∧
    (Settled s2_1 ∧ (s2_1.blk.recd.writing = some (RecWrite.record (ev 3))) ∧ ((ev 3).words.length < 31 ∧ s2_1.blk.fld U.rec F.REC_STAT_NEXT % 8 = 0 ∧ s2_1.blk.fld U.rec F.REC_STAT_NEXT + 16 + 8 * (ev 3).words.length ≤ 4186112 ∧ s2_1.blk.fld U.rec F.REC_SEQ_HEAD_HEAD < 2 ^ 31) ∧ (s2_1.blk.recd.staging = [] ∧ s2_1.blk.recd.clearAsk = false ∧ s2_1.blk.recd.clearing = none)) ∧
    (Settled s2_2 ∧ (s2_2.blk.recd.writing = some (RecWrite.record (ev 3))) ∧ ((ev 3).words.length < 31 ∧ s2_2.blk.fld U.rec F.REC_STAT_NEXT % 8 = 0 ∧ s2_2.blk.fld U.rec F.REC_STAT_NEXT + 16 + 8 * (ev 3).words.length ≤ 4186112 ∧ s2_2.blk.fld U.rec F.REC_SEQ_HEAD_HEAD < 2 ^ 31) ∧ (s2_2.blk.recd.staging ≠ []) ∧ (s2_2.blk.recd.clearAsk = false) ∧ (s2_2.blk.recd.clearing = none) ∧ (s2_2.blk.recd.pendingLost = 0)) ∧
    (Settled s2_3 ∧ (s2_3.blk.recd.writing = some (RecWrite.record (ev 4))) ∧ ((ev 4).words.length < 31 ∧ s2_3.blk.fld U.rec F.REC_STAT_NEXT % 8 = 0 ∧ s2_3.blk.fld U.rec F.REC_STAT_NEXT + 16 + 8 * (ev 4).words.length ≤ 4186112 ∧ s2_3.blk.fld U.rec F.REC_SEQ_HEAD_HEAD < 2 ^ 31) ∧ (s2_3.blk.recd.staging ≠ []) ∧ (s2_3.blk.recd.clearAsk = false) ∧ (s2_3.blk.recd.clearing = none) ∧ (0 < s2_3.blk.recd.pendingLost) ∧ (s2_3.blk.recd.pendingLost < 2 ^ 32)) ∧
    (Settled s2_4 ∧ (s2_4.blk.recd.writing = some (RecWrite.record (ev 4))) ∧ ((ev 4).words.length < 31 ∧ s2_4.blk.fld U.rec F.REC_STAT_NEXT % 8 = 0 ∧ s2_4.blk.fld U.rec F.REC_STAT_NEXT + 16 + 8 * (ev 4).words.length ≤ 4186112 ∧ s2_4.blk.fld U.rec F.REC_SEQ_HEAD_HEAD < 2 ^ 31) ∧ (s2_4.blk.recd.clearAsk = true) ∧ (s2_4.blk.recd.clearing = none)) ∧
    (Settled s2_5 ∧ (s2_5.blk.recd.writing = some RecWrite.increment) ∧ (s2_5.blk.recd.newest = some nw) ∧ (nw.rep < 65535) ∧ (s2_5.blk.recd.staging = [] ∧ s2_5.blk.recd.clearAsk = false ∧ s2_5.blk.recd.clearing = none)) ∧
    (Settled s2_6 ∧ (s2_6.blk.recd.writing = some (RecWrite.full (ev 3))) ∧ ((ev 3).typ ≠ 62) ∧ (s2_6.blk.fld U.rec F.REC_SEQ_HEAD_HEAD < 2 ^ 31)) ∧
    (Settled s2_7 ∧ (s2_7.blk.recd.writing = some RecWrite.afterFull) ∧ (s2_7.blk.recd.staging = [] ∧ s2_7.blk.recd.clearAsk = false ∧ s2_7.blk.recd.clearing = none) ∧ (s2_7.blk.fld U.rec F.REC_SEQ_HEAD_HEAD < 2 ^ 31) ∧ (s2_7.blk.recd.afterFull = false)) ∧
    (Settled s2_8 ∧ (s2_8.blk.recd.writing = some RecWrite.afterFull) ∧ (s2_8.blk.recd.staging = [] ∧ s2_8.blk.recd.clearAsk = false ∧ s2_8.blk.recd.clearing = none) ∧ (s2_8.blk.fld U.rec F.REC_SEQ_HEAD_HEAD < 2 ^ 31) ∧ (s2_8.blk.recd.afterFull = true)) :=
  by refine ⟨?_, ?_, ?_, ?_, ?_, ?_, ?_, ?_, ?_⟩ <;> decide +kernel

theorem meets_tallyCommands :
    (Settled s3_0 ∧ Takes s3_0 Who.pf U.tally ∧ (s3_0.blk.time.coll = []) ∧ (Half.both ≠ Half.hi) ∧ (s3_0.blk.fld U.tally F.TALLY_CSEL_BLOCK < (56 : Nat) ∧ (s3_0.blk.fld U.tally F.TALLY_CSEL_CTR < if s3_0.blk.fld U.tally F.TALLY_CSEL_BLOCK < (36 : Nat) then (12 : Nat) else (4 : Nat)) ∧ BitVec.toNat (2181038085 : Word) / (2 : Nat) ^ (24 : Nat) % (32 : Nat) < if s3_0.blk.fld U.tally F.TALLY_CSEL_CTR < (4 : Nat) then if s3_0.blk.fld U.tally F.TALLY_CSEL_BLOCK < (33 : Nat) then (4 : Nat) else if s3_0.blk.fld U.tally F.TALLY_CSEL_BLOCK = (33 : Nat) then (2 : Nat) else if s3_0.blk.fld U.tally F.TALLY_CSEL_BLOCK < (36 : Nat) then (4 : Nat) else if s3_0.blk.fld U.tally F.TALLY_CSEL_BLOCK < (44 : Nat) then (3 : Nat) else if s3_0.blk.fld U.tally F.TALLY_CSEL_BLOCK < (53 : Nat) then (2 : Nat) else (1 : Nat) else (10 : Nat)) ∧ (Half.lo ≠ Half.hi) ∧ (¬(s3_0.blk.fld U.tally F.TALLY_CSEL_BLOCK < (56 : Nat) ∧ (s3_0.blk.fld U.tally F.TALLY_CSEL_CTR < if s3_0.blk.fld U.tally F.TALLY_CSEL_BLOCK < (36 : Nat) then (12 : Nat) else (4 : Nat)) ∧ BitVec.toNat (2315255813 : Word) / (2 : Nat) ^ (24 : Nat) % (32 : Nat) < if s3_0.blk.fld U.tally F.TALLY_CSEL_CTR < (4 : Nat) then if s3_0.blk.fld U.tally F.TALLY_CSEL_BLOCK < (33 : Nat) then (4 : Nat) else if s3_0.blk.fld U.tally F.TALLY_CSEL_BLOCK = (33 : Nat) then (2 : Nat) else if s3_0.blk.fld U.tally F.TALLY_CSEL_BLOCK < (36 : Nat) then (4 : Nat) else if s3_0.blk.fld U.tally F.TALLY_CSEL_BLOCK < (44 : Nat) then (3 : Nat) else if s3_0.blk.fld U.tally F.TALLY_CSEL_BLOCK < (53 : Nat) then (2 : Nat) else (1 : Nat) else (10 : Nat))) ∧ (s3_0.blk.flag U.tally (F.TR_CTRL_RUN (1 : Nat)) = false)) ∧
    (Settled s3_7 ∧ Takes s3_7 Who.pf U.tally ∧ (s3_7.blk.time.coll = []) ∧ (s3_7.blk.flag U.tally (F.TR_CTRL_RUN (1 : Nat)) = true)) ∧
    ((s3_0.blk.fld U.tally F.TALLY_CFG_PERIOD = (0 : Nat) ∨ s3_0.blk.inReset = true)) ∧
    (Settled s3_6 ∧ (s3_6.blk.fld U.tally F.TALLY_CFG_PERIOD ≠ (0 : Nat)) ∧ (s3_6.blk.inReset = false) ∧ DueNow s3_6 (s3_6.blk.tally.perAt + max (3 : Nat) (s3_6.blk.fld U.tally F.TALLY_CFG_PERIOD) * (1966080 : Nat))) ∧
    (Settled s3_1 ∧ (s3_1.blk.tally.pos = some (100 : Nat)) ∧ (BitVec.toNat (Store.get (0 : Word) s3_1.blk.tally.ctrs (100 : Nat)) < (2 : Nat) ^ (48 : Nat))) ∧
    ((s3_0.blk.tally.pos = none ∨ s3_0.blk.tally.pos = some (512 : Nat))) ∧
    (Settled s3_4 ∧ (s3_4.blk.tally.pos = some (512 : Nat))) ∧
    ((s3_0.blk.tally.pos ≠ some (512 : Nat)) ∧ (s3_0.blk.readOk Who.pf U.tally = true)) ∧
    ((Who.pf = Who.pf ∨ Who.pf = Who.warden)) ∧
    ((Who.vf (2 : Nat) = Who.vf (2 : Nat))) :=
  ⟨by decide +kernel, by decide +kernel, by decide +kernel, by decide +kernel, by decide +kernel, by decide +kernel, by decide +kernel, by decide +kernel, Or.inl rfl, by decide +kernel⟩

end W20

namespace W22

def pubOf (r : Nat) : List Nat := (r+10) :: List.replicate 96 r
def keyOf (r : Nat) : Nat := Config.sha384 (pubOf r)
def hs2 (b : Block) : Block := ((run b).setFld (U.hs 0) F.UNIT_STATE_PWR 2).setFld (U.hs 1) F.UNIT_STATE_PWR 2
def base (f : Block → Block) : State := mk fun b => f ((hs2 b).setOtp (fun o => {o with lc := 2, vendor := [1, keyOf 1], owner := [keyOf 2], floor := 9}))
def ses (st ow : Nat) (b : Block) : Block := (b.setFld U.warden F.WDN_STG_STAT_STATE st).setFld U.warden F.WDN_STG_STAT_OWNER ow
def s1_0 : State := base (ses 2 1)
def s2_0 : State := base id
def s2_1 : State := base (ses 1 1)
def s2_2 : State := base (ses 1 2)
def s2_3 : State := base (ses 3 1)
def s2_9 : State := endAt (10^13) (base fun b => at_ (60*1966080000) (ses 1 2 b))

theorem meets_imageVerification :
    Settled s1_0 ∧ (s1_0.blk.inReset = false) ∧ (s1_0.blk.fld U.warden F.WDN_STG_STAT_STATE = 2) ∧ (s1_0.blk.fld U.warden F.WDN_STG_STAT_OWNER = 1) ∧ (¬genuine s1_0 (slotOf s1_0)) :=
  by decide +kernel

theorem meets_stagingSessions :
    (Settled s2_1 ∧ Commands s2_1 Who.pf ∧ (s2_1.blk.wdn.coast ≠ none ∨ s2_1.blk.wdn.probAt ≠ none ∨ s2_1.blk.fld U.warden F.WDN_STG_STAT_OWNER ≠ 0)) ∧
    (Settled s2_0 ∧ Commands s2_0 Who.pf ∧ (s2_0.blk.wdn.coast = none) ∧ (s2_0.blk.wdn.probAt = none) ∧ (s2_0.blk.fld U.warden F.WDN_STG_STAT_OWNER = 0)) ∧
    (Settled s2_2 ∧ Commands s2_2 Who.pf ∧ (s2_2.blk.wdn.coast = none) ∧ (s2_2.blk.fld U.warden F.WDN_STG_STAT_OWNER ≠ 0) ∧ (s2_2.blk.fld U.warden F.WDN_STG_STAT_OWNER ≠ srcCode Who.pf)) ∧
    ((s2_1.blk.wdn.coast = none) ∧ (s2_1.blk.fld U.warden F.WDN_STG_STAT_OWNER = srcCode Who.pf) ∧ (s2_1.blk.fld U.warden F.WDN_STG_STAT_STATE = 1 ∨ s2_1.blk.fld U.warden F.WDN_STG_STAT_STATE = 3) ∧ (s2_1.blk.fld U.warden F.WDN_STG_ADDR_OFFSET / 8 * 8 < 46137344) ∧ (s2_1.blk.fld U.warden F.WDN_STG_STAT_STATE = 1 ∨ s2_1.blk.fld U.warden F.WDN_STG_STAT_STATE = 2 ∨ s2_1.blk.fld U.warden F.WDN_STG_STAT_STATE = 3)) ∧
    (Settled s2_3 ∧ Commands s2_3 Who.pf ∧ (s2_3.blk.wdn.coast = none) ∧ (s2_3.blk.fld U.warden F.WDN_STG_STAT_OWNER = srcCode Who.pf) ∧ (s2_3.blk.fld U.warden F.WDN_STG_STAT_STATE = 3) ∧ ((if s2_3.blk.fld 0 F.HOST_BOOT_PHASE = 10 then 6 else 0) = 0)) ∧
    ((s2_1.blk.fld U.warden F.WDN_STG_STAT_STATE = 1 ∨ s2_1.blk.fld U.warden F.WDN_STG_STAT_STATE = 2)) ∧
    (Settled s2_9 ∧ (s2_9.blk.fld U.warden F.WDN_STG_STAT_OWNER ≠ 0) ∧ (s2_9.blk.fld U.warden F.WDN_STG_STAT_STATE = 1 ∨ s2_9.blk.fld U.warden F.WDN_STG_STAT_STATE = 3) ∧ (s2_9.blk.wdn.coast = none) ∧ DueNow s2_9 (s2_9.blk.wdn.stgAt + 60 * 1966080000)) ∧
    ((s2_0.blk.fld U.warden F.WDN_STG_STAT_OWNER = 0 ∨ s2_0.blk.wdn.coast ≠ none)) :=
  by refine ⟨?_, ?_, ?_, ?_, ?_, ?_, ?_, ?_⟩ <;> decide +kernel

end W22

namespace W23

def le (n v : Nat) : List Nat := (List.range n).map fun i => v / 256^i % 256
def pubOf (r : Nat) : List Nat := (r+10) :: List.replicate 96 r
def keyOf (r : Nat) : Nat := Config.sha384 (pubOf r)
def putImg (μ : Mem) (r : Ram) (l : List Nat) : Mem := (List.range (l.length/8+1)).foldl (fun μ i => let v := (((l.drop (8*i)).take 8).foldr (fun x a => a*256+x) 0); if v = 0 then μ else μ.wr r i (BitVec.ofNat 128 v)) μ
def hs2 (b : Block) : Block := ((run b).setFld (U.hs 0) F.UNIT_STATE_PWR 2).setFld (U.hs 1) F.UNIT_STATE_PWR 2
def base (f : Block → Block) : State := mk fun b => f ((hs2 b).setOtp (fun o => {o with lc := 2, vendor := [1, keyOf 1], owner := [keyOf 2], floor := 9}))
def ses (st ow : Nat) (b : Block) : Block := (b.setFld U.warden F.WDN_STG_STAT_STATE st).setFld U.warden F.WDN_STG_STAT_OWNER ow
def img8 : List Nat := [68,79,82,87,69,90,65,78] ++ le 2 1 ++ [11, 0] ++ le 4 0x03030000 ++ le 2 3 ++ le 2 5
def img (_ _ : Nat) (s : State) : State := {s with mem := putImg {} .slotB img8}
def wm (f : WdnH → WdnH) (b : Block) : Block := b.setWdn f
def co (c : CoastH) (b : Block) : Block := wm (fun w => {w with coast := some c}) (ses 4 1 (at_ 5000000 b))
def en (sys : Bool) (paused : Bool) (b : Block) : Block := b.setEng 3 {running := true, sys := sys, paused := paused, pc := 0x120}
def setb (n : Nat) (ok : Bool) (b : Block) : Block := b.setBoot fun x => {x with setOk := ok, setSchema := n}
def sampCoastH : List CoastH := [{phase := 0, start := 7},{phase := 1, start := 7},{phase := 2, start := 7},{phase := 3, start := 7},{phase := 3, start := 7, back := true},{phase := 4, start := 7},{phase := 4, start := 7, back := true},{phase := 4, start := 7, back := true, revert := true}]
def cst (f : Block → Block) (c : CoastH) : State := endAt (10^9) (img 11 9 (base fun b => f (co c b)))
def dm (s : State) : State := {s with mem := ((s.mem.wr .dmem (3*32768) 5).wr .dmem (3*32768+4095) 5).wr .dmem (3*32768+4096) 5}
def pr (f : WdnH → WdnH) (b : Block) : Block := wm (fun w => f {w with probAt := some 9}) (b.setBoot fun x => {x with running := 1, probation := true})
def rx (b : Block) : Block := ((b.setFld (U.rxc 3) F.UNIT_STATE_PWR 2).setRxcH 3 {b.rxcH 3 with corr := [(2, 99)]}).setFld (U.txc 3) F.UNIT_STATE_PWR 2 |> fun b => b.setTxcH 3 {b.txcH 3 with trim := 44}
def ws1 : List State := sampCoastH.flatMap fun c => [cst (fun b => setb 4 true (en true true b)) c, cst (fun b => setb 6 true (en false true b)) c, cst (fun b => (setb 4 false (en false false b)).setOtp fun o => {o with legacy := 3}) c, mk fat, dm (cst id c)]
def s1_0 : State := ws1.getD 0 State.reset
def s1_10 : State := ws1.getD 10 State.reset
def s1_15 : State := ws1.getD 15 State.reset
def s1_16 : State := ws1.getD 16 State.reset
def s1_20 : State := ws1.getD 20 State.reset
def s1_25 : State := ws1.getD 25 State.reset
def s1_3 : State := endAt (10^9) (img 11 9 (base fun b => co {start := 7} (fat b)))
def s1_30 : State := ws1.getD 30 State.reset
def s1_35 : State := ws1.getD 35 State.reset
def s1_5 : State := ws1.getD 5 State.reset
def s2_0 : State := base id
def s2_1 : State := img 11 9 (base (pr id))
def s2_2 : State := base (pr fun w => {w with coast := some {}})
def s2_3 : State := endAt (10^13) (img 8 9 (base fun b => at_ (600*1966080000+9) (pr id b)))
def s2_5 : State := img 11 9 (base fun b => (wm (fun w => {w with saves := [0,1]}) b).setBoot fun x => {x with setOk := true})
def s2_6 : State := base fun b => rx (wm (fun w => {w with saves := [1,0]}) b)

theorem meets_coastPhases :
    (Settled s1_3 ∧ (s1_3.blk.wdn.coast = some { start := 7 : CoastH }) ∧ (s1_3.blk.flag 0 F.FLT_MODE_FATAL = true)) ∧
    (Settled s1_0 ∧ (s1_0.blk.wdn.coast = some { start := 7 : CoastH }) ∧ (¬s1_0.blk.flag 0 F.FLT_MODE_FATAL = true) ∧ ({ start := 7 : CoastH }.phase = 0)) ∧
    (Settled s1_5 ∧ (s1_5.blk.wdn.coast = some { phase := 1, start := 7 : CoastH }) ∧ (¬s1_5.blk.flag 0 F.FLT_MODE_FATAL = true) ∧ ({ phase := 1, start := 7 : CoastH }.phase = 1)) ∧
    (Settled s1_10 ∧ (s1_10.blk.wdn.coast = some { phase := 2, start := 7 : CoastH }) ∧ (¬s1_10.blk.flag 0 F.FLT_MODE_FATAL = true) ∧ ({ phase := 2, start := 7 : CoastH }.phase = 2)) ∧
    (Settled s1_15 ∧ (s1_15.blk.wdn.coast = some { phase := 3, start := 7 : CoastH }) ∧ (¬s1_15.blk.flag 0 F.FLT_MODE_FATAL = true) ∧ ({ phase := 3, start := 7 : CoastH }.phase = 3) ∧ (true = true ∧ s1_15.blk.boot.setOk = true ∧ imgNum s1_15 (if { phase := 3, start := 7 : CoastH }.revert = true then s1_15.blk.boot.committed else if { phase := 3, start := 7 : CoastH }.back = true then s1_15.blk.boot.running else slotOf s1_15) 16 2 ≤ s1_15.blk.boot.setSchema ∧ s1_15.blk.boot.setSchema ≤ imgNum s1_15 (if { phase := 3, start := 7 : CoastH }.revert = true then s1_15.blk.boot.committed else if { phase := 3, start := 7 : CoastH }.back = true then s1_15.blk.boot.running else slotOf s1_15) 18 2)) ∧
    (Settled s1_20 ∧ (s1_20.blk.wdn.coast = some { phase := 3, start := 7, back := true : CoastH }) ∧ (¬s1_20.blk.flag 0 F.FLT_MODE_FATAL = true) ∧ ({ phase := 3, start := 7, back := true : CoastH }.phase = 3) ∧ (¬(true = true ∧ s1_20.blk.boot.setOk = true ∧ imgNum s1_20 (if { phase := 3, start := 7, back := true : CoastH }.revert = true then s1_20.blk.boot.committed else if { phase := 3, start := 7, back := true : CoastH }.back = true then s1_20.blk.boot.running else slotOf s1_20) 16 2 ≤ s1_20.blk.boot.setSchema ∧ s1_20.blk.boot.setSchema ≤ imgNum s1_20 (if { phase := 3, start := 7, back := true : CoastH }.revert = true then s1_20.blk.boot.committed else if { phase := 3, start := 7, back := true : CoastH }.back = true then s1_20.blk.boot.running else slotOf s1_20) 18 2)) ∧ ({ phase := 3, start := 7, back := true : CoastH }.back = true)) ∧
    (Settled s1_16 ∧ (s1_16.blk.wdn.coast = some { phase := 3, start := 7 : CoastH }) ∧ (¬s1_16.blk.flag 0 F.FLT_MODE_FATAL = true) ∧ (¬(true = true ∧ s1_16.blk.boot.setOk = true ∧ imgNum s1_16 (if { phase := 3, start := 7 : CoastH }.revert = true then s1_16.blk.boot.committed else if { phase := 3, start := 7 : CoastH }.back = true then s1_16.blk.boot.running else slotOf s1_16) 16 2 ≤ s1_16.blk.boot.setSchema ∧ s1_16.blk.boot.setSchema ≤ imgNum s1_16 (if { phase := 3, start := 7 : CoastH }.revert = true then s1_16.blk.boot.committed else if { phase := 3, start := 7 : CoastH }.back = true then s1_16.blk.boot.running else slotOf s1_16) 18 2)) ∧ ({ phase := 3, start := 7 : CoastH }.back = false)) ∧
    (Settled s1_25 ∧ (s1_25.blk.wdn.coast = some { phase := 4, start := 7 : CoastH }) ∧ (¬s1_25.blk.flag 0 F.FLT_MODE_FATAL = true) ∧ ({ phase := 4, start := 7 : CoastH }.phase = 4) ∧ ({ phase := 4, start := 7 : CoastH }.back = false)) ∧
    (Settled s1_30 ∧ (s1_30.blk.wdn.coast = some { phase := 4, start := 7, back := true : CoastH }) ∧ (¬s1_30.blk.flag 0 F.FLT_MODE_FATAL = true) ∧ ({ phase := 4, start := 7, back := true : CoastH }.phase = 4) ∧ ({ phase := 4, start := 7, back := true : CoastH }.back = true) ∧ ({ phase := 4, start := 7, back := true : CoastH }.revert = false)) ∧
    (Settled s1_35 ∧ (s1_35.blk.wdn.coast = some { phase := 4, start := 7, back := true, revert := true : CoastH }) ∧ (¬s1_35.blk.flag 0 F.FLT_MODE_FATAL = true) ∧ ({ phase := 4, start := 7, back := true, revert := true : CoastH }.phase = 4) ∧ ({ phase := 4, start := 7, back := true, revert := true : CoastH }.back = true) ∧ ({ phase := 4, start := 7, back := true, revert := true : CoastH }.revert = true)) :=
  by refine ⟨?_, ?_, ?_, ?_, ?_, ?_, ?_, ?_, ?_, ?_⟩ <;> decide +kernel

theorem meets_commitAndSaves :
    (Settled s2_1 ∧ Commands s2_1 Who.pf ∧ (s2_1.blk.wdn.probAt ≠ none) ∧ (s2_1.blk.wdn.coast = none)) ∧
    (Settled s2_0 ∧ Commands s2_0 Who.pf ∧ (s2_0.blk.wdn.probAt = none ∨ s2_0.blk.wdn.coast ≠ none) ∧ (s2_0.blk.wdn.probAt = none) ∧ (s2_0.blk.wdn.coast = none)) ∧
    (Settled s2_2 ∧ Commands s2_2 Who.pf ∧ (s2_2.blk.wdn.coast ≠ none)) ∧
    (Settled s2_3 ∧ (s2_3.blk.wdn.probAt = some 9) ∧ (s2_3.blk.wdn.coast = none) ∧ (s2_3.blk.inReset = false) ∧ DueNow s2_3 (9 + 600 * 1966080000)) ∧
    ((s2_0.blk.wdn.saves = [])) ∧
    (Settled s2_5 ∧ (s2_5.blk.wdn.saves = [0, 1])) ∧
    (Settled s2_6 ∧ (s2_6.blk.wdn.saves = [1, 0])) :=
  by refine ⟨?_, ?_, ?_, ?_, ?_, ?_, ?_⟩ <;> decide +kernel

end W23

namespace W24

def hst (f : HostH → HostH) (b : Block) : Block := (run b).setHost f
def rt (lo hi func vec v : Nat) : Word := BitVec.ofNat 64 (lo + hi*2^16 + func * 2^32 + vec * 2^48 + v*2^63)
def me : MsixEnt := {addr := 0x1122334455667788, data := 9, masked := false, pend := false}
def vec1 (b : Block) : Block := (b.setFld 0 F.HOST_VEC_PF_VECS 100).setFld 0 F.HOST_VEC_VF_VECS 10
def en (b : Block) : Block := b.setReg 0 R.UNIT_IRQ_EN 2
def st (u n : Nat) (b : Block) : Block := b.setFld u F.UNIT_STATE_STATE n
def dirty (u : Nat) (b : Block) : Block := [0x10,0x18,0x20,0x28,0x30,0x38,0x40,0x48,0x50,0x58,0x80,0x100,0x108].foldl (fun b o => b.setReg u o (b.reg u o ||| 0x0000000000030101)) b
def ux := [U.sy 0, U.ts 3, U.rxc 2, U.pc 4, U.hd 1, U.fh 0, U.lane 5]
def rgs : List (Nat × RingH) := [(1, {base := 0x1000, d1 := 0x8004, prod := 3}), (2, {base := 0x1000, d1 := 0x28024, prod := 3}), (5, {base := 0x1000, d1 := 0xFFFFFF, prod := 3})]
def dm (a b : Nat) : DmaH := {src := 0x1000, dst := 0x100000, len := 32, srcSp := a, dstSp := b, busy := true}
def eg (b : Block) : Block := b.setEng 1 {b.eng 1 with running := true, dma := [(0, dm 2 0), (1, dm 3 0), (2, dm 0 3)]}
def ws2 : List State := [mk run] ++ ux.map (fun u => mk fun b => dirty u (st u 1 (run b))) ++ ux.map (fun u => mk fun b => dirty u (st u 2 (run b))) ++ ux.map (fun u => mk fun b => dirty u (st u 4 (run b)))
def s1_0 : State := mk run
def s1_4 : State := mk fun b => en (vec1 (hst (fun h => {h with routes := [(1, rt 5 9 0 4 1), (2, rt 0 9 2 112 1), (3, rt 0 9 0 4 1)], msix := [(2*2048+2, me), (1, {me with masked := true, pend := true})]}) b))
def s1_6 : State := mk fun b => en (run b)
def s2_0 : State := ws2.getD 0 State.reset
def s2_8 : State := ws2.getD 8 State.reset
def s3_0 : State := mk run
def s3_4 : State := mk (hst fun h => {h with perstLow := true})
def s4_0 : State := mk run
def s4_2 : State := mk fun b => eg {run b with rings := rgs}
def s4_3 : State := mk fun b => eg {run b with rings := [(2, {base := 0x1000, d1 := BitVec.ofNat 64 (0x8004 + 0x40000 + 0x20), prod := 3}), (1, {base := 0x1000, d1 := 0x8084, prod := 3})]}

theorem meets_hostErrors :
    (Settled s4_0 ∧ (s4_0.blk.inReset = false)) ∧
    (Settled s4_2 ∧ ((Store.get DmaH.init (s4_2.blk.eng 1).dma 1).busy = true) ∧ ((Store.get DmaH.init (s4_2.blk.eng 1).dma 1).srcSp = 3)) ∧
    (((Store.get DmaH.init (s4_0.blk.eng 0).dma 0).busy = false ∨ (Store.get DmaH.init (s4_0.blk.eng 0).dma 0).srcSp ≠ 3)) ∧
    (Settled s4_3 ∧ (s4_3.blk.flag U.dsp F.DSP_STAT_CUE_FULL = false) ∧ (s4_3.blk.flag 0 F.FLT_MODE_FATAL = false) ∧ (s4_3.blk.coasting = false) ∧ (s4_3.blk.nextCueRing = some 2) ∧ (s4_3.blk.allocCtx = some 0) ∧ (s4_3.blk.t < s4_3.blk.time.tickEnd) ∧ (s4_3.blk.dsp.poppedAt = 0) ∧ ((s4_3.blk.ring 2).inHost = true)) :=
  ⟨by decide +kernel, by decide +kernel, by decide +kernel, by decide +kernel⟩

theorem meets_pcieResets :
    (Settled s3_0 ∧ (s3_0.blk.host.perstLow = false) ∧ (s3_0.blk.inReset = false)) ∧
    (Settled s3_4 ∧ (s3_4.blk.host.perstLow = true) ∧ (s3_4.blk.inReset = false)) ∧
    (reachable s3_0) :=
  ⟨by decide +kernel, by decide +kernel, by decide +kernel⟩

theorem meets_unitResets :
    (Takes s2_0 (Who.engine 3 false) 0 ∧ (s2_0.blk.time.coll = []) ∧ (¬(whoPf (Who.engine 3 false) = true ∨ whoSys (Who.engine 3 false) = true)) ∧ Takes s2_0 Who.pf 0 ∧ (whoPf Who.pf = true ∨ whoSys Who.pf = true) ∧ (0 = 0 ∨ 1248 ≤ 0 ∧ 0 ≤ 1256 ∨ kindOf 0 = 32 ∨ reservedUid 0 = true)) ∧
    (Takes s2_8 Who.pf 0 ∧ (s2_8.blk.time.coll = []) ∧ (¬(1172 = 0 ∨ 1248 ≤ 1172 ∧ 1172 ≤ 1256 ∨ kindOf 1172 = 32 ∨ reservedUid 1172 = true)) ∧ (¬s2_8.blk.state 1172 ∈ [0, 1, 4])) ∧
    ((s2_0.blk.state 1172 ∈ [0, 1, 4]) ∧ Single s2_0 1172 ∧ NoGroups s2_0 ∧ (s2_0.blk.t + 1 < s2_0.blk.time.tickEnd)) :=
  ⟨by decide +kernel, by decide +kernel, by decide +kernel⟩

theorem meets_vectorsAndRoutes :
    (Settled s1_0 ∧ Takes s1_0 Who.pf (0 : Nat) ∧ (s1_0.blk.time.coll = [])) ∧
    ((Who.pf = Who.pf ∨ Who.pf = Who.mspi)) ∧
    ((Word.fld (0 : Word) (23 : Nat) (16 : Nat) ≤ (128 : Nat))) ∧
    ((Word.fld (0 : Word) (36 : Nat) (32 : Nat) ≤ (16 : Nat) ∧ firstVec s1_0 (Word.fld (0 : Word) (36 : Nat) (32 : Nat)) ≤ Word.fld (0 : Word) (58 : Nat) (48 : Nat) ∧ Word.fld (0 : Word) (58 : Nat) (48 : Nat) < firstVec s1_0 (Word.fld (0 : Word) (36 : Nat) (32 : Nat)) + vecCount s1_0 (Word.fld (0 : Word) (36 : Nat) (32 : Nat))) ∧ (¬(Word.fld (rt (1 : Nat) (5 : Nat) (2 : Nat) (112 : Nat) (1 : Nat)) (36 : Nat) (32 : Nat) ≤ (16 : Nat) ∧ firstVec s1_0 (Word.fld (rt (1 : Nat) (5 : Nat) (2 : Nat) (112 : Nat) (1 : Nat)) (36 : Nat) (32 : Nat)) ≤ Word.fld (rt (1 : Nat) (5 : Nat) (2 : Nat) (112 : Nat) (1 : Nat)) (58 : Nat) (48 : Nat) ∧ Word.fld (rt (1 : Nat) (5 : Nat) (2 : Nat) (112 : Nat) (1 : Nat)) (58 : Nat) (48 : Nat) < firstVec s1_0 (Word.fld (rt (1 : Nat) (5 : Nat) (2 : Nat) (112 : Nat) (1 : Nat)) (36 : Nat) (32 : Nat)) + vecCount s1_0 (Word.fld (rt (1 : Nat) (5 : Nat) (2 : Nat) (112 : Nat) (1 : Nat)) (36 : Nat) (32 : Nat)))) ∧ Takes s1_0 (Who.engine (3 : Nat) true) (0 : Nat) ∧ (Who.engine (3 : Nat) true ≠ Who.pf) ∧ (Who.engine (3 : Nat) true ≠ Who.mspi) ∧ reachable s1_0 ∧ ((0 : Nat) < vecCount s1_0 (0 : Nat)) ∧ (¬((msixEntry s1_0 (0 : Nat) (0 : Nat)).pend = true ∧ (if (0 : Nat) = (0 : Nat) then { addr := (msixEntry s1_0 (0 : Nat) (0 : Nat)).addr &&& (18446744069414584320 : Word) ||| BitVec.setWidth (64 : Nat) (0 : BitVec (32 : Nat)), data := (msixEntry s1_0 (0 : Nat) (0 : Nat)).data, masked := (msixEntry s1_0 (0 : Nat) (0 : Nat)).masked, pend := (msixEntry s1_0 (0 : Nat) (0 : Nat)).pend : MsixEnt } else if (0 : Nat) = (1 : Nat) then { addr := (msixEntry s1_0 (0 : Nat) (0 : Nat)).addr &&& ↑(4294967295 : Nat) ||| BitVec.setWidth (64 : Nat) (0 : BitVec (32 : Nat)) <<< (32 : Nat), data := (msixEntry s1_0 (0 : Nat) (0 : Nat)).data, masked := (msixEntry s1_0 (0 : Nat) (0 : Nat)).masked, pend := (msixEntry s1_0 (0 : Nat) (0 : Nat)).pend : MsixEnt } else if (0 : Nat) = (2 : Nat) then { addr := (msixEntry s1_0 (0 : Nat) (0 : Nat)).addr, masked := (msixEntry s1_0 (0 : Nat) (0 : Nat)).masked, pend := (msixEntry s1_0 (0 : Nat) (0 : Nat)).pend : MsixEnt } else { addr := (msixEntry s1_0 (0 : Nat) (0 : Nat)).addr, data := (msixEntry s1_0 (0 : Nat) (0 : Nat)).data, masked := BitVec.getLsbD (0 : BitVec (32 : Nat)) (0 : Nat), pend := (msixEntry s1_0 (0 : Nat) (0 : Nat)).pend : MsixEnt }).masked = false))) ∧
    (Settled s1_4 ∧ reachable s1_4 ∧ ((1 : Nat) < vecCount s1_4 (0 : Nat)) ∧ ((msixEntry s1_4 (0 : Nat) (1 : Nat)).pend = true) ∧ ((if (3 : Nat) = (0 : Nat) then { addr := (msixEntry s1_4 (0 : Nat) (1 : Nat)).addr &&& (18446744069414584320 : Word) ||| BitVec.setWidth (64 : Nat) (0 : BitVec (32 : Nat)), data := (msixEntry s1_4 (0 : Nat) (1 : Nat)).data, masked := (msixEntry s1_4 (0 : Nat) (1 : Nat)).masked, pend := (msixEntry s1_4 (0 : Nat) (1 : Nat)).pend : MsixEnt } else if (3 : Nat) = (1 : Nat) then { addr := (msixEntry s1_4 (0 : Nat) (1 : Nat)).addr &&& ↑(4294967295 : Nat) ||| BitVec.setWidth (64 : Nat) (0 : BitVec (32 : Nat)) <<< (32 : Nat), data := (msixEntry s1_4 (0 : Nat) (1 : Nat)).data, masked := (msixEntry s1_4 (0 : Nat) (1 : Nat)).masked, pend := (msixEntry s1_4 (0 : Nat) (1 : Nat)).pend : MsixEnt } else if (3 : Nat) = (2 : Nat) then { addr := (msixEntry s1_4 (0 : Nat) (1 : Nat)).addr, masked := (msixEntry s1_4 (0 : Nat) (1 : Nat)).masked, pend := (msixEntry s1_4 (0 : Nat) (1 : Nat)).pend : MsixEnt } else { addr := (msixEntry s1_4 (0 : Nat) (1 : Nat)).addr, data := (msixEntry s1_4 (0 : Nat) (1 : Nat)).data, masked := BitVec.getLsbD (0 : BitVec (32 : Nat)) (0 : Nat), pend := (msixEntry s1_4 (0 : Nat) (1 : Nat)).pend : MsixEnt }).masked = false)) ∧
    ((vecCount s1_0 (1 : Nat) ≤ (0 : Nat))) ∧
    ((s1_4.blk.inReset = false) ∧ (s1_4.blk.irqReq (0 : Nat) = false) ∧ (BitVec.getLsbD (s1_4.blk.reg (0 : Nat) R.UNIT_IRQ_EN) (1 : Nat) = true) ∧ covers (route s1_4 (2 : Nat)) (0 : Nat) ∧ (∀ (i : Nat), i < (2 : Nat) → ¬covers (route s1_4 i) (0 : Nat)) ∧ (Word.fld (route s1_4 (2 : Nat)) (36 : Nat) (32 : Nat) ≤ (16 : Nat)) ∧ (firstVec s1_4 (Word.fld (route s1_4 (2 : Nat)) (36 : Nat) (32 : Nat)) ≤ Word.fld (route s1_4 (2 : Nat)) (58 : Nat) (48 : Nat)) ∧ (Word.fld (route s1_4 (2 : Nat)) (58 : Nat) (48 : Nat) < firstVec s1_4 (Word.fld (route s1_4 (2 : Nat)) (36 : Nat) (32 : Nat)) + vecCount s1_4 (Word.fld (route s1_4 (2 : Nat)) (36 : Nat) (32 : Nat)))) ∧
    (Settled s1_6 ∧ (s1_6.blk.inReset = false) ∧ (s1_6.blk.irqReq (0 : Nat) = false) ∧ (BitVec.getLsbD (s1_6.blk.reg (0 : Nat) R.UNIT_IRQ_EN) (1 : Nat) = true) ∧ (∀ (i : Nat), i < (64 : Nat) → ¬covers (route s1_6 i) (0 : Nat))) :=
  ⟨by decide +kernel, Or.inl rfl, by decide +kernel, by decide +kernel, by decide +kernel, by decide +kernel, by decide +kernel, by decide +kernel⟩

end W24

namespace W25

def md (n : Nat) (f : Block → Block) : State := endAt 10000000 (mk fun b => f (at_ n (run b)))
def lc (n : Nat) (b : Block) : Block := {b with otp := {b.otp with lc := n}}
def co (b : Block) : Block := b.setWdn fun w => {w with coast := some {phase := 1, start := 3}}
def s1_0 : State := md 3000000 id
def s1_1 : State := md 3000000 (ph 1)
def s1_2 : State := md 3000000 (lc 4)
def s1_3 : State := md 3000000 co

theorem meets_managementSpi :
    (Heard s1_0 ∧ (¬60 = requestCrc 1 0 8 []) ∧ (¬99 = requestCrc 2 0 8 (wordBytes 0)) ∧ (100 = requestCrc 1 0 9 []) ∧ (69 = requestCrc 2 0 9 (wordBytes 0))) ∧
    (Heard s1_1 ∧ (U.ts 3 < 65536) ∧ (¬(early (U.ts 3) ∨ afterSparge s1_1)) ∧ (65 = requestCrc 1 (U.ts 3) 72 []) ∧ (¬(early 3122 ∨ afterSparge s1_1)) ∧ (2 = requestCrc 2 3122 65528 (wordBytes 0))) ∧
    ((early 0 ∨ afterSparge s1_0) ∧ (55 = requestCrc 1 0 1032 []) ∧ (155 = requestCrc 2 0 1032 (wordBytes 0))) ∧
    (Heard s1_2 ∧ (early (U.ts 3) ∨ afterSparge s1_2) ∧ (s1_2.blk.otp.lc = 4) ∧ (U.ts 3 ≠ 0) ∧ (U.ts 3 ≠ U.warden) ∧ (U.sy 0 < 65536) ∧ (early (U.sy 0) ∨ afterSparge s1_2) ∧ (U.sy 0 ≠ 0) ∧ (U.sy 0 ≠ U.warden) ∧ (178 = requestCrc 2 (U.sy 0) 64 (wordBytes 0))) ∧
    ((early 0 ∨ afterSparge s1_2) ∧ (60 = requestCrc 2 0 8 (wordBytes 0))) ∧
    ((99 = requestCrc 1 0 8 []) ∧ (s1_0.blk.otp.lc ≠ 4 ∨ 0 = 0 ∨ 0 = U.warden) ∧ (reservedUid 0 = false) ∧ (¬kindOf 0 ∈ [6, 7, 15, 18, 21]) ∧ (early (U.sy 0) ∨ afterSparge s1_0) ∧ (s1_0.blk.otp.lc ≠ 4) ∧ (s1_0.blk.wdn.coast = none) ∧ (s1_0.blk.fld U.warden F.WDN_STG_STAT_OWNER ≠ 1)) ∧
    (Heard s1_3 ∧ (early (U.sy 0) ∨ afterSparge s1_3) ∧ (s1_3.blk.otp.lc ≠ 4) ∧ (s1_3.blk.wdn.coast ≠ none) ∧ (64 ≠ R.UNIT_CTRL) ∧ (kindOf (U.sy 0) ≠ 5) ∧ (167 = requestCrc 3 0 8 []) ∧ (113 = requestCrc 3 3122 65528 []) ∧ (99 ≠ requestCrc 3 0 8 []) ∧ (142 = requestCrc 4 0 8 [])) ∧
    ((99 ≠ requestCrc 4 0 8 [])) :=
  by refine ⟨?_, ?_, ?_, ?_, ?_, ?_, ?_, ?_⟩ <;> decide +kernel

end W25

namespace W30

def en (n : Nat) (f : EngH → EngH) (b : Block) : Block := b.setEng n (f {b.eng n with running := true, sys := false, pc := 0x10000})
def ce (n : Nat) (b : Block) : Block := (b.setFld (U.ce n) F.UNIT_STATE_STATE 2).setFld (U.ce n) F.UNIT_STATE_PWR 2
def w3 (h : EngH) : EngH := ((((h.wr 1 0x1122334455667788F00D123480007FFF).wr 2 0x00050007FFFFFFFE8000000000000003).wr 3 0x0000000000000000_0000000000000205).setPred 1 true).setPred 3 true
def S1 := mk fun b => en 3 w3 (ce 3 (run b))
def s1_0 : State := S1

theorem meets_zhovoScalarResults :
    (Issues s1_0 3 0 [0, 0, 0]) :=
  by decide +kernel

end W30

namespace W31

def en (n : Nat) (f : EngH → EngH) (b : Block) : Block := b.setEng n (f {b.eng n with running := true, sys := false, pc := 0x10000})
def ce (n : Nat) (b : Block) : Block := (b.setFld (U.ce n) F.UNIT_STATE_STATE 2).setFld (U.ce n) F.UNIT_STATE_PWR 2
def w3 (h : EngH) : EngH := ((((h.wr 1 0x1122334455667788F00D123480007FFF).wr 2 0x00050007FFFFFFFE8000000000000003).wr 3 0x0000000000000000_0000000000000205).setPred 1 true).setPred 3 true
def S1 := mk fun b => en 3 w3 (ce 3 (run b))
def stp (a b : Nat) : Word := BitVec.ofNat 64 (a * 2^25 + b)
def S2 := mk fun b => en 3 (fun h => ((h.wr64 1 (stp 5 19660799)).wr64 2 (stp 6 3)).wr64 3 (-5)) (ce 3 (run b))
def s2_0 : State := S1
def s2_1 : State := S2

theorem meets_zhovoFalsePredicate :
    Settled s2_1 ∧ (s2_1.blk.engLive 3 = true) ∧ (s2_1.blk.fetchOk 3 (s2_1.blk.eng 3).pc = true) ∧ ((s2_1.blk.eng 3).pred 1 = false) :=
  by decide +kernel

theorem meets_zhovoCompareResults :
    (Issues s2_0 3 0 [0, 0]) ∧ Issues s2_0 3 0 [] ∧ Issues s2_0 3 0 [0] :=
  by decide +kernel

theorem meets_zhovoImmediateResults :
    (0 < (Instr.addi, 8192, fun (a : Word) (i : BitVec 13) => a + BitVec.signExtend 64 i).snd.fst) ∧ (Issues s2_0 3 0 [0, 0]) :=
  by decide +kernel

theorem meets_zhovoUnaryAndAirResults :
    (Issues s2_0 3 0 [2, 0, 0]) ∧ (stampValid ((s2_0.blk.eng 3).rd64 0) = true) :=
  by decide +kernel

end W31

namespace W32

def en (n : Nat) (f : EngH → EngH) (b : Block) : Block := b.setEng n (f {b.eng n with running := true, sys := false, pc := 0x10000})
def ce (n : Nat) (b : Block) : Block := (b.setFld (U.ce n) F.UNIT_STATE_STATE 2).setFld (U.ce n) F.UNIT_STATE_PWR 2
def w3 (h : EngH) : EngH := ((((h.wr 1 0x1122334455667788F00D123480007FFF).wr 2 0x00050007FFFFFFFE8000000000000003).wr 3 0x0000000000000000_0000000000000205).setPred 1 true).setPred 3 true
def S1 := mk fun b => en 3 w3 (ce 3 (run b))
def S3 := mk fun b => en 3 (fun h => {w3 h with p := 0, pc := 0x100, sys := true, epc := 0x55, ecause := 0x66, evalue := 0x77, cur := [(1, cursorWord 5 1 2)]}) (ce 3 (run b))
def W1 := mk fun b => en 32 (fun h => {w3 h with p := 0, pc := 0x100, sys := true, epc := 0x55, ecause := 0x66, evalue := 0x77, cur := [(1, cursorWord 5 1 2)]}) (run b)
def s2_0 : State := S1
def s2_1 : State := S3
def s2_2 : State := W1

theorem meets_zhovoSpecialRegisters :
    (Issues s2_2 32 0 [1] ∧ (0 = 0 ∧ 256 = (s2_2.blk.eng 32).pc ∨ 0 = 1 ∧ hasBits 256 (statusBits (s2_2.blk.eng 32)) ∨ 0 = 2 ∧ s2_2.blk.time.running = true ∧ 256 = stampOf (s2_2.blk.time.air - s2_2.blk.time.air % engTc 32) ∨ 0 = 3 ∧ (s2_2.blk.eng 32).sys = true ∧ 256 = (s2_2.blk.eng 32).epc ∨ 0 = 4 ∧ (s2_2.blk.eng 32).sys = true ∧ 256 = (s2_2.blk.eng 32).ecause ∨ 0 = 5 ∧ (s2_2.blk.eng 32).sys = true ∧ 256 = (s2_2.blk.eng 32).evalue ∨ 0 = 6 ∧ 256 = BitVec.ofNat 64 ((s2_2.blk.t - s2_2.blk.host.releaseAt) / engTc 32) ∨ 0 = 7 ∧ 32 ≤ 32 ∧ 256 = BitVec.ofNat 64 (if 32 = 32 then 1248 + 2 ^ 24 else 1216 + 32 + 32 * 2 ^ 16) ∨ 8 ≤ 0 ∧ 0 < 16 ∧ 256 = Store.get 0 (s2_2.blk.eng 32).cur (0 - 8))) ∧
    (Issues s2_0 3 0 [2]) ∧
    (Issues s2_1 3 0 [2] ∧ ((s2_1.blk.eng 3).sys = true)) ∧
    ((BitVec.getLsbD ((s2_0.blk.eng 3).rd64 2) 16 = true → ringOwned 3 (s2_0.blk.eng 3).sys (s2_0.blk.ring (BitVec.toNat ((s2_0.blk.eng 3).rd64 2) % 2 ^ 14)).owner = true)) :=
  ⟨by decide +kernel, by decide +kernel, by decide +kernel, by decide +kernel⟩

end W32

namespace W33

def en (n : Nat) (f : EngH → EngH) (b : Block) : Block := b.setEng n (f {b.eng n with running := true, sys := false, pc := 0x10000})
def ce (n : Nat) (b : Block) : Block := (b.setFld (U.ce n) F.UNIT_STATE_STATE 2).setFld (U.ce n) F.UNIT_STATE_PWR 2
def w3 (h : EngH) : EngH := ((((h.wr 1 0x1122334455667788F00D123480007FFF).wr 2 0x00050007FFFFFFFE8000000000000003).wr 3 0x0000000000000000_0000000000000205).setPred 1 true).setPred 3 true
def S1 := mk fun b => en 3 w3 (ce 3 (run b))
def s2_0 : State := S1

theorem meets_zhovoLaneResults :
    ({ op := Instr.ladd, sat := false, one := false, f := fun (x : Nat) (a b x_1 : BitVec x) => ↑a.toNat + ↑b.toNat : LaneOp }.one = true → 0 = 0) ∧ (Issues s2_0 3 0 [2, 0, 0]) :=
  by decide +kernel

theorem meets_zhovoComplexResults :
    (Issues s2_0 3 0 [0, 0, 0]) :=
  by decide +kernel

end W33

namespace W34

def en (n : Nat) (f : EngH → EngH) (b : Block) : Block := b.setEng n (f {b.eng n with running := true, sys := false, pc := 0x10000})
def ce (n : Nat) (b : Block) : Block := (b.setFld (U.ce n) F.UNIT_STATE_STATE 2).setFld (U.ce n) F.UNIT_STATE_PWR 2
def w3 (h : EngH) : EngH := ((((h.wr 1 0x1122334455667788F00D123480007FFF).wr 2 0x00050007FFFFFFFE8000000000000003).wr 3 0x0000000000000000_0000000000000205).setPred 1 true).setPred 3 true
def S1 := mk fun b => en 3 w3 (ce 3 (run b))
def s2_0 : State := S1

theorem meets_zhovoBlockFloatResults :
    (Issues s2_0 3 0 [2, 0, 0]) :=
  by decide +kernel

end W34

namespace W36

def en (n : Nat) (f : EngH → EngH) (b : Block) : Block := b.setEng n (f {b.eng n with running := true, sys := false, pc := 0x10000})
def ce (n : Nat) (b : Block) : Block := (b.setFld (U.ce n) F.UNIT_STATE_STATE 2).setFld (U.ce n) F.UNIT_STATE_PWR 2
def w3 (h : EngH) : EngH := ((((h.wr 1 0x1122334455667788F00D123480007FFF).wr 2 0x00050007FFFFFFFE8000000000000003).wr 3 0x0000000000000000_0000000000000205).setPred 1 true).setPred 3 true
def m0 : Mem := ((({} : Mem).wr .imem (3*32768+2) 0x11112222333344445555666677778888).wr .dmem (3*32768+0x1000) 0x1234567890ABCDEF1122334455667788).wr .dmem (3*32768+0x1001) 0x99999999ABCD
def sys (h : EngH) : EngH := {h with sys := true, pc := 0x100}
def P (f : EngH → EngH) (g : Block → Block := id) : State := {(mk fun b => g (en 3 (fun h => f (w3 h)) (ce 3 (run b)))) with mem := m0}
def cx : Ctx := {Ctx.init with stamp := 0x1234567, target := 0x105, action := 3, ctrl := 1, tol := 77, origin := 16389, sys := false, period := 0x44444444, count := 0x1234, state := 1, result := 7, lateness := 0x99, occ := 0xABCD, args := 0x1111222233334444555566667777888899990000}
def ad (a : Nat) (h : EngH) : EngH := h.wr64 2 (BitVec.ofNat 64 a)
def cxs (b : Block) : Block := {b with ctxs := [(3, {cx with origin := b.fld (U.ce 3) F.CE_CFG_ORIGIN}), (4, {cx with origin := 7}), (5, {cx with state := 0, args := 0x123})]}
def CA (k j : Nat) := 0x1000000 + 64 * k + 16 * j
def ws2 : List State := [CA 3 0,CA 3 2,CA 4 1,CA 5 1,CA 5 2, CA 5 0].flatMap fun a => [P (ad a) cxs, P (fun h => sys (ad a h)) cxs]
def s1_0 : State := P (ad 0x110000)
def s2_0 : State := ws2.getD 0 State.reset
def s2_1 : State := ws2.getD 1 State.reset
def s2_7 : State := ws2.getD 7 State.reset
def s3_0 : State := P (ad 0x12340)
def s3_1 : State := P fun h => sys (ad 0x20 h)
def s3_3 : State := P (fun h => {sys (ad 0x20 h) with psys := false, epc := 0x12344, wdFrom := 7}) fun b => (b.setFlag U.tally (F.TR_CTRL_RUN 0) true).setFld U.tally (F.TR_CTRL_ENG 0) 8

theorem meets_contextImageFields :
    ((cx.target < 2 ^ 16) ∧ (cx.action < 2 ^ 8) ∧ (cx.ctrl < 2 ^ 8) ∧ (cx.tol < 2 ^ 16) ∧ (cx.origin < 2 ^ 15) ∧ (cx.period < 2 ^ 32) ∧ (cx.count < 2 ^ 16) ∧ (cx.state < 2 ^ 8)) ∧
    ((cx.result < 2 ^ 8) ∧ (cx.lateness < 2 ^ 32) ∧ (cx.occ < 2 ^ 32)) :=
  ⟨by decide +kernel, by decide +kernel⟩

theorem meets_zhovoSramAccess :
    (Issues s1_0 3 0 [1, 2]) ∧ inSram s1_0 3 1114112 Ram.dmem 65536 ∧ (1114112 = memAddr (s1_0.blk.eng 3) 2 0 16) ∧ (1114112 = memAddr (s1_0.blk.eng 3) 2 0 8) :=
  by decide +kernel

theorem meets_zhovoContextStoreAccess :
    ((Issues s2_0 3 0 [1, 2]) ∧ inCtx 3 16777408 3 0 ∧ (16777408 = memAddr (s2_0.blk.eng 3) 2 0 16) ∧ ((s2_0.blk.eng 3).sys = true ∨ (s2_0.blk.ctx 3).origin = s2_0.blk.fld (U.ce 3) F.CE_CFG_ORIGIN ∧ (s2_0.blk.ctx 3).sys = false)) ∧
    ((Issues s2_7 3 0 [1, 2]) ∧ inCtx 3 16777552 5 1 ∧ (16777552 = memAddr (s2_7.blk.eng 3) 2 0 16) ∧ ((s2_7.blk.eng 3).sys = true) ∧ ((s2_7.blk.ctx 5).state = Cue.free)) ∧
    ((Issues s2_1 3 0 [1, 2]) ∧ (16777408 = memAddr (s2_1.blk.eng 3) 2 0 16) ∧ ((s2_1.blk.eng 3).sys = true) ∧ ((s2_1.blk.ctx 3).state ≠ Cue.free)) :=
  ⟨by decide +kernel, by decide +kernel, by decide +kernel⟩

theorem meets_zhovoControlFlow :
    (Issues s3_0 3 0 [0, 31]) ∧ (BitVec.toNat ((s3_0.blk.eng 3).rd64 0) % 4 = 0) :=
  by decide +kernel

theorem meets_zhovoSystemInstructions :
    (Issues s3_0 3 0 [] ∧ ((s3_0.blk.eng 3).posts = []) ∧ (∀ (x : Nat × DmaH), x ∈ (s3_0.blk.eng 3).dma → x.snd.busy = false)) ∧
    (Issues s3_1 3 0 [] ∧ ((s3_1.blk.eng 3).sys = true) ∧ (3 = 32 → (s3_1.blk.eng 3).psys = true)) ∧
    (Issues s3_3 3 0 [] ∧ traceOn s3_3 3) ∧
    ((s3_0.blk.flag U.tally (F.TR_CTRL_RUN (3 / 8)) = false)) :=
  ⟨by decide +kernel, by decide +kernel, by decide +kernel, by decide +kernel⟩

end W36

namespace W37

def en (n : Nat) (f : EngH → EngH) (b : Block) : Block := b.setEng n (f {b.eng n with running := true, sys := false, pc := 0x10000})
def ce (n : Nat) (b : Block) : Block := (b.setFld (U.ce n) F.UNIT_STATE_STATE 2).setFld (U.ce n) F.UNIT_STATE_PWR 2
def w3 (h : EngH) : EngH := ((((h.wr 1 0x1122334455667788F00D123480007FFF).wr 2 0x00050007FFFFFFFE8000000000000003).wr 3 0x0000000000000000_0000000000000205).setPred 1 true).setPred 3 true
def m0 : Mem := ((({} : Mem).wr .imem (3*32768+2) 0x11112222333344445555666677778888).wr .dmem (3*32768+0x1000) 0x1234567890ABCDEF1122334455667788).wr .dmem (3*32768+0x1001) 0x99999999ABCD
def sys (h : EngH) : EngH := {h with sys := true, pc := 0x100}
def P (f : EngH → EngH) (g : Block → Block := id) : State := {(mk fun b => g (en 3 (fun h => f (w3 h)) (ce 3 (run b)))) with mem := m0}
def ad (a : Nat) (h : EngH) : EngH := h.wr64 2 (BitVec.ofNat 64 a)
def S5 := [P (fun h => h.wr64 1 0x1FFFFFF), P (ad 0x110004), P (ad 0x110010), P (ad 0x150000), P fun h => ad 0x20 {h with cur := [(0, cursorWord 5 1 1),(1, cursorWord 5 0 1)]}]
def ws1 : List State := S5
def ws2 : List State := [P (fun h => sys (ad 0x110004 h)), P (fun h => sys (ad 0x150000 h)), P (fun h => {(ad 0x110004 h) with inexc := true})] ++ S5.map fun s : State => {s with blk := s.blk.setEng 3 {s.blk.eng 3 with inexc := true}}
def s1_0 : State := ws1.getD 0 State.reset
def s1_1 : State := ws1.getD 1 State.reset
def s1_3 : State := ws1.getD 3 State.reset
def s1_4 : State := ws1.getD 4 State.reset
def s2_0 : State := ws2.getD 0 State.reset
def s2_1 : State := ws2.getD 1 State.reset
def s2_2 : State := ws2.getD 2 State.reset
def s2_3 : State := ws2.getD 3 State.reset
def s2_7 : State := ws2.getD 7 State.reset
def s4_0 : State := P (ad 0x110004)
def s4_1 : State := P fun h => {h with pc := 0x200}

theorem meets_zhovoSystemFaultsStop :
    (Fetches s2_0 3 1 ∧ ((s2_0.blk.eng 3).sys = true ∨ (s2_0.blk.eng 3).inexc = true) ∧ NoGets s2_0 3) ∧
    (Fetches s2_2 3 1 ∧ ((s2_2.blk.eng 3).sys = true ∨ (s2_2.blk.eng 3).inexc = true) ∧ ((s2_2.blk.eng 3).sys = false)) ∧
    (Fetches s2_3 3 1 ∧ ((s2_3.blk.eng 3).sys = true ∨ (s2_3.blk.eng 3).inexc = true) ∧ NoGets s2_3 3 ∧ (stampValid ((s2_3.blk.eng 3).rd64 1) = false)) ∧
    ((stampValid ((s2_0.blk.eng 3).rd64 0) = true) ∧ (¬kindOf (BitVec.toNat ((s2_0.blk.eng 3).rd64 0) % 2 ^ 16) ∈ [5, 7])) ∧
    (NoGets s2_2 3 ∧ (0 = BitVec.toNat ((s2_2.blk.eng 3).rd64 0) % 2 ^ 16) ∧ (s2_2.blk.maskMay 3 true 0 = false)) ∧
    (Fetches s2_1 3 1 ∧ ((s2_1.blk.eng 3).sys = true ∨ (s2_1.blk.eng 3).inexc = true) ∧ NoGets s2_1 3 ∧ (1376256 = memAddr (s2_1.blk.eng 3) 2 0 16)) ∧
    ((0 = memAddr (s2_2.blk.eng 3) 0 0 8)) ∧
    ((1114116 = memAddr (s2_0.blk.eng 3) 2 0 16) ∧ inSram s2_0 3 1114116 Ram.dmem 65540 ∧ (BitVec.toNat ((s2_0.blk.eng 3).rd64 1) % 4 ≠ 0) ∧ ((s2_0.blk.eng 3).sys = true ∨ s2_0.blk.maskMay 3 false (BitVec.toNat ((s2_0.blk.eng 3).rd64 0) % 2 ^ 16) = true) ∧ (BitVec.toNat ((s2_0.blk.eng 3).rd64 1) % 8 ≠ 0) ∧ (BitVec.getLsbD (Store.get 0 (s2_0.blk.eng 3).cur 0) 16 = false)) ∧
    (Fetches s2_7 3 1 ∧ ((s2_7.blk.eng 3).sys = true ∨ (s2_7.blk.eng 3).inexc = true) ∧ NoGets s2_7 3 ∧ (BitVec.getLsbD (Store.get 0 (s2_7.blk.eng 3).cur 0) 16 = true) ∧ ((BitVec.extractLsb' 17 2 (Store.get 0 (s2_7.blk.eng 3).cur 0)).toNat = 1)) :=
  by refine ⟨?_, ?_, ?_, ?_, ?_, ?_, ?_, ?_, ?_⟩ <;> decide +kernel

theorem meets_zhovoUserFaults :
    (Fetches s1_0 3 0 ∧ ((s1_0.blk.eng 3).sys = false) ∧ ((s1_0.blk.eng 3).inexc = false) ∧ NoGets s1_0 3 ∧ (stampValid ((s1_0.blk.eng 3).rd64 1) = false) ∧ (stampValid ((s1_0.blk.eng 3).rd64 0) = true) ∧ (¬kindOf (BitVec.toNat ((s1_0.blk.eng 3).rd64 0) % 2 ^ 16) ∈ [5, 7]) ∧ (0 = BitVec.toNat ((s1_0.blk.eng 3).rd64 0) % 2 ^ 16) ∧ (s1_0.blk.maskMay 3 true 0 = false)) ∧
    (Fetches s1_3 3 0 ∧ ((s1_3.blk.eng 3).sys = false) ∧ ((s1_3.blk.eng 3).inexc = false) ∧ NoGets s1_3 3 ∧ (1376256 = memAddr (s1_3.blk.eng 3) 2 0 16)) ∧
    ((0 = memAddr (s1_0.blk.eng 3) 0 0 8)) ∧
    (Fetches s1_1 3 0 ∧ ((s1_1.blk.eng 3).sys = false) ∧ ((s1_1.blk.eng 3).inexc = false) ∧ NoGets s1_1 3 ∧ (1114116 = memAddr (s1_1.blk.eng 3) 2 0 16) ∧ inSram s1_1 3 1114116 Ram.dmem 65540) ∧
    ((BitVec.toNat ((s1_0.blk.eng 3).rd64 1) % 4 ≠ 0) ∧ (BitVec.getLsbD (Store.get 0 (s1_0.blk.eng 3).cur 0) 16 = false)) ∧
    (Fetches s1_4 3 0 ∧ ((s1_4.blk.eng 3).sys = false) ∧ ((s1_4.blk.eng 3).inexc = false) ∧ NoGets s1_4 3 ∧ (BitVec.getLsbD (Store.get 0 (s1_4.blk.eng 3).cur 0) 16 = true) ∧ ((BitVec.extractLsb' 17 2 (Store.get 0 (s1_4.blk.eng 3).cur 0)).toNat = 1)) :=
  by refine ⟨?_, ?_, ?_, ?_, ?_, ?_⟩ <;> decide +kernel

theorem meets_zhovoTrapAndSyscall :
    Issues s4_0 3 0 [2] ∧ ((s4_0.blk.eng 3).inexc = false) :=
  by decide +kernel

theorem meets_zhovoFetchDenied :
    Settled s4_1 ∧ (s4_1.blk.engLive 3 = true) ∧ (s4_1.blk.fetchOk 3 (s4_1.blk.eng 3).pc = false) ∧ ((s4_1.blk.eng 3).inexc = false) ∧ ((s4_1.blk.eng 3).sys = false) :=
  by decide +kernel

end W37

namespace W38

def en (n : Nat) (f : EngH → EngH) (b : Block) : Block := b.setEng n (f {b.eng n with running := true, sys := false, pc := 0x10000})
def ce (n : Nat) (b : Block) : Block := (b.setFld (U.ce n) F.UNIT_STATE_STATE 2).setFld (U.ce n) F.UNIT_STATE_PWR 2
def w3 (h : EngH) : EngH := ((((h.wr 1 0x1122334455667788F00D123480007FFF).wr 2 0x00050007FFFFFFFE8000000000000003).wr 3 0x0000000000000000_0000000000000205).setPred 1 true).setPred 3 true
def m0 : Mem := ((({} : Mem).wr .imem (3*32768+2) 0x11112222333344445555666677778888).wr .dmem (3*32768+0x1000) 0x1234567890ABCDEF1122334455667788).wr .dmem (3*32768+0x1001) 0x99999999ABCD
def sys (h : EngH) : EngH := {h with sys := true, pc := 0x100}
def P (f : EngH → EngH) (g : Block → Block := id) : State := {(mk fun b => g (en 3 (fun h => f (w3 h)) (ce 3 (run b)))) with mem := m0}
def cx : Ctx := {Ctx.init with stamp := 0x1234567, target := 0x105, action := 3, ctrl := 1, tol := 77, origin := 16389, sys := false, period := 0x44444444, count := 0x1234, state := 1, result := 7, lateness := 0x99, occ := 0xABCD, args := 0x1111222233334444555566667777888899990000}
def ad (a : Nat) (h : EngH) : EngH := h.wr64 2 (BitVec.ofNat 64 a)
def stp (a b : Nat) : Word := BitVec.ofNat 64 (a * 2^25 + b)
def quad0 (stamp target action ctrl tol : Nat) : Quad := BitVec.ofNat 128 (stamp + target*2^64 + action * 2^80 + ctrl * 2^88 + tol * 2^96)
def mA (target action ctrl : Nat) : Mem := ((m0.wr .dmem (3*32768+0x1004) (quad0 5 target action ctrl 9)).wr .dmem (3*32768+0x1006) 0x1234).wr .dmem (3*32768+0x1005) 0
def A (ta ac ct : Nat) (f : EngH → EngH) (g : Block → Block := id) : State := {P (fun h => f ((ad 0x110040 h).wr 1 ((0xDEADBEEF:BitVec 64) ++ stp 0 6000000))) g with mem := mA ta ac ct}
def msk (b : Block) : Block := (((b.setFld (U.ce 3) (F.CE_UMASK_LO 0) 1).setFld (U.ce 3) (F.CE_UMASK_HI 0) 0x4D0).setFlag (U.ce 3) (F.CE_UMASK_WR 0) true).setFlag (U.ce 3) (F.CE_UMASK_V 0) true
def noc (b : Block) : Block := {b.setFld U.dsp F.DSP_CFG_RESV 262143 with ctxs := [(262143, {cx with state := 1})]}
def B (u sl : Nat) (st : Word) (f : EngH → EngH) (g : Block → Block) : State := P (fun h => f ((h.wr64 2 (BitVec.ofNat 64 (u + sl * 2^32))).wr64 1 st)) g
def rs (b : Block) : Block := {b.setFld U.dsp F.DSP_CFG_RESV 8 with ctxs := [(3,{cx with state := 0, ctrl := 1, action := 1, count := 3, target := U.pbd 2, stamp := 0, period := 16384})]}
def hel (h : EngH) (c : Ctx) : EngH := {h with blocked := some (.arm 2 c), blockAt := 900}
def ca : Ctx := {cx with state := 0, ctrl := 1, action := 1, count := 3, target := U.pbd 2, stamp := stp 5 0, period := 16384, sys := true}
def oc (st : Nat) (b : Block) : Block := {b with ctxs := [(3, {cx with state := st, origin := b.fld (U.ce 3) F.CE_CFG_ORIGIN}), (4, {cx with origin := 7}), (5, {cx with state := 0, args := 0x123, origin := b.fld (U.ce 3) F.CE_CFG_ORIGIN})]}
def ws4 : List State := [B 0 0 (stp 0 5001003) id id, B 0 0 (stp 0 5000003) id id, B 0 0 (stp 0 5001000) id id] ++ [5000900, 5000999,5001000,5001001].map (fun d => P fun h => {h with blocked := some (.waitat 2 d none)}) ++ [P fun h => {h with blocked := some (.waitat 2 5000900 (some 77))}]
def ws5 : List State := [3,4,5].flatMap fun x => [1,2,3,4].map fun st => B x 0 0 id (oc st)
def ws7 : List State := [(0x0000,0),(0x10004,0x10008),(0x10008,0x20),(0xFFFFC,0x3FFF8),(0x1FFFC,0x10000)].flatMap fun x => [P id fun b => (b.setFld (U.ce 3) F.CE_IMEM_ADDR_ADDR x.1).setFld (U.ce 3) F.CE_DMEM_ADDR_ADDR x.2, P id fun b => ((b.setFld (U.ce 3) F.CE_IMEM_ADDR_ADDR x.1).setFld (U.ce 3) F.CE_DMEM_ADDR_ADDR x.2).setFlag (U.ce 3) F.CE_USER_CTRL_RUN true]
def s1_0 : State := A (U.pbd 3) 1 1 id msk
def s2_0 : State := B (U.pbd 3) 77 (stp 0 6000000) id msk
def s2_2 : State := B 3 0 (stp 3 4) sys rs
def s3_0 : State := A (U.pbd 3) 1 1 id (fun b => noc (msk b))
def s3_2 : State := P (fun h => hel h ca)
def s4_0 : State := ws4.getD 0 State.reset
def s4_1 : State := ws4.getD 1 State.reset
def s4_3 : State := ws4.getD 3 State.reset
def s4_7 : State := ws4.getD 7 State.reset
def s4_4 : State := ws4.getD 4 State.reset
def s5_0 : State := ws5.getD 0 State.reset
def s5_1 : State := ws5.getD 1 State.reset
def s5_4 : State := ws5.getD 4 State.reset
def s6_0 : State := endAt 99999999999 (P (fun h => {h with wdFrom := 1000}) fun b => at_ (1000+2097152) b)
def s6_1 : State := P (fun h => {h with reqs := 3})
def s6_3 : State := P (fun h => {h with reqs := 2}) fun b => (b.setFlag U.sync F.SYNC_CFG_TRK_EN true).setFld U.sync F.SYNC_TRK_CFG_ENGINE 3
def s7_0 : State := ws7.getD 0 State.reset
def s7_2 : State := ws7.getD 2 State.reset

theorem meets_zhovoHostWindows :
    (Settled s7_2 ∧ (s7_2.blk.writeOk Who.pf (U.ce 3) = true) ∧ (s7_2.blk.hostHeld Who.pf = false) ∧ (s7_2.blk.time.coll = []) ∧ (s7_2.blk.flag (U.ce 3) F.CE_USER_CTRL_RUN = false) ∧ (s7_2.blk.fld (U.ce 3) F.CE_PART_ISPLIT * 4096 ≤ s7_2.blk.fld (U.ce 3) F.CE_IMEM_ADDR_ADDR / 4 * 4) ∧ (s7_2.blk.fld (U.ce 3) F.CE_PART_DSPLIT * 4096 ≤ s7_2.blk.fld (U.ce 3) F.CE_DMEM_ADDR_ADDR / 8 * 8)) ∧
    (Settled s7_0 ∧ (s7_0.blk.writeOk Who.pf (U.ce 3) = true) ∧ (s7_0.blk.hostHeld Who.pf = false) ∧ (s7_0.blk.time.coll = []) ∧ (s7_0.blk.flag (U.ce 3) F.CE_USER_CTRL_RUN = true ∨ s7_0.blk.fld (U.ce 3) F.CE_IMEM_ADDR_ADDR / 4 * 4 < s7_0.blk.fld (U.ce 3) F.CE_PART_ISPLIT * 4096) ∧ (s7_0.blk.readOk Who.pf (U.ce 3) = true)) :=
  ⟨by decide +kernel, by decide +kernel⟩

theorem meets_zhovoArming :
    (ArmsFrom s1_0 3 0 3 2 1 1114176) ∧
    ((s1_0.blk.allocCtx = some 0) ∧ (stampValid ((s1_0.blk.eng 3).rd64 1) = true) ∧ (mayArm s1_0 3 { stamp := (s1_0.blk.eng 3).rd64 1, target := (imageOf s1_0 3 1114176).target, action := (imageOf s1_0 3 1114176).action, ctrl := (imageOf s1_0 3 1114176).ctrl, tol := (imageOf s1_0 3 1114176).tol, origin := (imageOf s1_0 3 1114176).origin, sys := (imageOf s1_0 3 1114176).sys, period := (imageOf s1_0 3 1114176).period, count := (imageOf s1_0 3 1114176).count, state := (imageOf s1_0 3 1114176).state, result := (imageOf s1_0 3 1114176).result, lateness := (imageOf s1_0 3 1114176).lateness, occ := (imageOf s1_0 3 1114176).occ, args := (imageOf s1_0 3 1114176).args, seq := (imageOf s1_0 3 1114176).seq, e := (imageOf s1_0 3 1114176).e, ovf := (imageOf s1_0 3 1114176).ovf, slot := (imageOf s1_0 3 1114176).slot, effAt := (imageOf s1_0 3 1114176).effAt : Ctx } (s1_0.blk.eng 3).sys)) ∧
    (ArmsFrom s1_0 3 0 0 2 0 1114176) ∧
    ((stampValid s1_0.blk.now = true) ∧ (mayArm s1_0 3 { stamp := s1_0.blk.now, target := (imageOf s1_0 3 1114176).target, action := (imageOf s1_0 3 1114176).action, ctrl := (imageOf s1_0 3 1114176).ctrl, tol := (imageOf s1_0 3 1114176).tol, origin := (imageOf s1_0 3 1114176).origin, sys := (imageOf s1_0 3 1114176).sys, period := (imageOf s1_0 3 1114176).period, count := (imageOf s1_0 3 1114176).count, state := (imageOf s1_0 3 1114176).state, result := (imageOf s1_0 3 1114176).result, lateness := (imageOf s1_0 3 1114176).lateness, occ := (imageOf s1_0 3 1114176).occ, args := (imageOf s1_0 3 1114176).args, seq := (imageOf s1_0 3 1114176).seq, e := (imageOf s1_0 3 1114176).e, ovf := (imageOf s1_0 3 1114176).ovf, slot := (imageOf s1_0 3 1114176).slot, effAt := (imageOf s1_0 3 1114176).effAt : Ctx } (s1_0.blk.eng 3).sys)) :=
  ⟨⟨by decide +kernel, by decide +kernel, by decide +kernel, 65600, by decide +kernel, by decide +kernel⟩, by decide +kernel, ⟨by decide +kernel, by decide +kernel, by decide +kernel, 65600, by decide +kernel, by decide +kernel⟩, by decide +kernel⟩

theorem meets_zhovoArmingWithoutContext :
    (ArmsFrom s3_0 3 0 2 2 1 1114176) ∧
    ((s3_0.blk.allocCtx = none) ∧ (stampValid ((s3_0.blk.eng 3).rd64 1) = true) ∧ (mayArm s3_0 3 { stamp := (s3_0.blk.eng 3).rd64 1, target := (imageOf s3_0 3 1114176).target, action := (imageOf s3_0 3 1114176).action, ctrl := (imageOf s3_0 3 1114176).ctrl, tol := (imageOf s3_0 3 1114176).tol, origin := (imageOf s3_0 3 1114176).origin, sys := (imageOf s3_0 3 1114176).sys, period := (imageOf s3_0 3 1114176).period, count := (imageOf s3_0 3 1114176).count, state := (imageOf s3_0 3 1114176).state, result := (imageOf s3_0 3 1114176).result, lateness := (imageOf s3_0 3 1114176).lateness, occ := (imageOf s3_0 3 1114176).occ, args := (imageOf s3_0 3 1114176).args, seq := (imageOf s3_0 3 1114176).seq, e := (imageOf s3_0 3 1114176).e, ovf := (imageOf s3_0 3 1114176).ovf, slot := (imageOf s3_0 3 1114176).slot, effAt := (imageOf s3_0 3 1114176).effAt : Ctx } (s3_0.blk.eng 3).sys)) ∧
    (Held s3_2 3 (Blk.arm 2 ca) ∧ (s3_2.blk.allocCtx = some 0) ∧ (cueCheck ca ca.sys true = none)) :=
  ⟨⟨by decide +kernel, by decide +kernel, by decide +kernel, 65600, by decide +kernel, by decide +kernel⟩, by decide +kernel, by decide +kernel⟩

theorem meets_zhovoDisarm :
    ((Issues s5_0 3 0 [1, 2]) ∧ (3 = BitVec.toNat ((s5_0.blk.eng 3).rd64 2)) ∧ (3 < 262144 ∧ (s5_0.blk.ctx 3).origin = originOf s5_0 3 ∧ (s5_0.blk.ctx 3).sys = (s5_0.blk.eng 3).sys) ∧ ((s5_0.blk.ctx 3).state = 1) ∧ ((s5_0.blk.ctx 3).slot = false) ∧ ((s5_0.blk.ctx 3).action ≠ 32)) ∧
    ((Issues s5_1 3 0 [1, 2]) ∧ (3 = BitVec.toNat ((s5_1.blk.eng 3).rd64 2)) ∧ (3 < 262144 ∧ (s5_1.blk.ctx 3).origin = originOf s5_1 3 ∧ (s5_1.blk.ctx 3).sys = (s5_1.blk.eng 3).sys) ∧ (2 ≤ (s5_1.blk.ctx 3).state)) ∧
    ((Issues s5_4 3 0 [1, 2]) ∧ (4 = BitVec.toNat ((s5_4.blk.eng 3).rd64 2)) ∧ (¬(4 < 262144 ∧ (s5_4.blk.ctx 4).origin = originOf s5_4 3 ∧ (s5_4.blk.ctx 4).sys = (s5_4.blk.eng 3).sys) ∨ (s5_4.blk.ctx 4).state = 0)) :=
  ⟨by decide +kernel, by decide +kernel, by decide +kernel⟩

theorem meets_zhovoHostRequests :
    (Settled s6_0 ∧ (s6_0.blk.writeOk Who.pf (U.ce 3) = true) ∧ (s6_0.blk.hostHeld Who.pf = false) ∧ (s6_0.blk.userCtl Who.pf 3 = true) ∧ (s6_0.blk.trackerOn 3 = false)) ∧
    (Settled s6_3 ∧ (s6_3.blk.writeOk Who.pf (U.ce 3) = true) ∧ (s6_3.blk.hostHeld Who.pf = false) ∧ (s6_3.blk.userCtl Who.pf 3 = true) ∧ (s6_3.blk.trackerOn 3 = true)) ∧
    (Settled s6_1 ∧ (s6_1.blk.engLive 3 = true) ∧ ((s6_1.blk.eng 3).sys = false) ∧ ((s6_1.blk.eng 3).inexc = false) ∧ ((s6_1.blk.eng 3).reqs ≠ 0) ∧ (s6_1.blk.t < (s6_1.blk.eng 3).wdFrom + max 1 (s6_1.blk.fld (U.ce 3) F.CE_WDOG_LIMIT) * 1024 * 2)) :=
  ⟨by decide +kernel, by decide +kernel, by decide +kernel⟩

theorem meets_zhovoSwapmodelAndArmc :
    ((Issues s2_0 3 0 [2, 2, 1]) ∧ (stampValid ((s2_0.blk.eng 3).rd64 1) = true) ∧ (kindOf (BitVec.toNat ((s2_0.blk.eng 3).rd64 2) % 2 ^ 16) ∈ [5, 7]) ∧ ((s2_0.blk.eng 3).sys = true ∨ s2_0.blk.maskMay 3 true (BitVec.toNat ((s2_0.blk.eng 3).rd64 2) % 2 ^ 16) = true) ∧ (s2_0.blk.allocCtx = some 0)) ∧
    ((Issues s2_2 3 0 [2, 2, 1]) ∧ (stampValid ((s2_2.blk.eng 3).rd64 1) = true) ∧ ((s2_2.blk.eng 3).sys = true) ∧ (3 = BitVec.toNat ((s2_2.blk.eng 3).rd64 2)) ∧ (3 < s2_2.blk.fld U.dsp F.DSP_CFG_RESV) ∧ ((s2_2.blk.ctx 3).state = 0) ∧ (cueCheck { stamp := (s2_2.blk.eng 3).rd64 1, target := (s2_2.blk.ctx 3).target, action := (s2_2.blk.ctx 3).action, ctrl := (s2_2.blk.ctx 3).ctrl, tol := (s2_2.blk.ctx 3).tol, origin := (s2_2.blk.ctx 3).origin, sys := (s2_2.blk.ctx 3).sys, period := (s2_2.blk.ctx 3).period, count := (s2_2.blk.ctx 3).count, state := (s2_2.blk.ctx 3).state, result := (s2_2.blk.ctx 3).result, lateness := (s2_2.blk.ctx 3).lateness, occ := (s2_2.blk.ctx 3).occ, args := (s2_2.blk.ctx 3).args, seq := (s2_2.blk.ctx 3).seq, e := (s2_2.blk.ctx 3).e, ovf := (s2_2.blk.ctx 3).ovf, slot := (s2_2.blk.ctx 3).slot, effAt := (s2_2.blk.ctx 3).effAt : Ctx } true true = none)) :=
  ⟨by decide +kernel, by decide +kernel⟩

theorem meets_zhovoWaitat :
    ((Issues s4_0 3 0 [2, 1]) ∧ (stampValid ((s4_0.blk.eng 3).rd64 1) = true) ∧ (s4_0.blk.time.air < tcOf ((s4_0.blk.eng 3).rd64 1))) ∧
    ((Issues s4_1 3 0 [2, 1]) ∧ (stampValid ((s4_1.blk.eng 3).rd64 1) = true) ∧ (tcOf ((s4_1.blk.eng 3).rd64 1) ≤ s4_1.blk.time.air)) ∧
    (Held s4_4 3 (Blk.waitat 2 5000999 none) ∧ ((5000999 + engTc 3 - 1) / engTc 3 * engTc 3 ≤ s4_4.blk.time.air) ∧ (s4_4.blk.time.elapsed < s4_4.blk.time.tickEnd)) ∧
    (Held s4_7 3 (Blk.waitat 2 5000900 (some 77))) ∧
    ((s4_3.blk.eng 3).blocked = some (Blk.waitat 2 5000900 none) ∧ (5000899 < 5000900) ∧ (5000900 ≤ s4_3.blk.time.air)) :=
  ⟨by decide +kernel, by decide +kernel, by decide +kernel, by decide +kernel, by decide +kernel⟩

theorem meets_zhovoWatchdog :
    Settled s6_0 ∧ (s6_0.blk.engLive 3 = true) ∧ ((s6_0.blk.eng 3).sys = false) ∧ ((s6_0.blk.eng 3).inexc = false) ∧ (s6_0.blk.t = (s6_0.blk.eng 3).wdFrom + max 1 (s6_0.blk.fld (U.ce 3) F.CE_WDOG_LIMIT) * 1024 * 2) ∧ (s6_0.blk.t < s6_0.blk.time.tickEnd) :=
  by decide +kernel

end W38

namespace W39

def en (n : Nat) (f : EngH → EngH) (b : Block) : Block := b.setEng n (f {b.eng n with running := true, sys := false, pc := 0x10000})
def ce (n : Nat) (b : Block) : Block := (b.setFld (U.ce n) F.UNIT_STATE_STATE 2).setFld (U.ce n) F.UNIT_STATE_PWR 2
def w3 (h : EngH) : EngH := ((((h.wr 1 0x1122334455667788F00D123480007FFF).wr 2 0x00050007FFFFFFFE8000000000000003).wr 3 0x0000000000000000_0000000000000205).setPred 1 true).setPred 3 true
def m0 : Mem := ((({} : Mem).wr .imem (3*32768+2) 0x11112222333344445555666677778888).wr .dmem (3*32768+0x1000) 0x1234567890ABCDEF1122334455667788).wr .dmem (3*32768+0x1001) 0x99999999ABCD
def sys (h : EngH) : EngH := {h with sys := true, pc := 0x100}
def P (f : EngH → EngH) (g : Block → Block := id) : State := {(mk fun b => g (en 3 (fun h => f (w3 h)) (ce 3 (run b)))) with mem := m0}
def msk (b : Block) : Block := ((((b.setFld (U.ce 3) (F.CE_UMASK_LO 0) 1).setFld (U.ce 3) (F.CE_UMASK_HI 0) 0x4D0).setFlag (U.ce 3) (F.CE_UMASK_WR 0) true).setFlag (U.ce 3) (F.CE_UMASK_RD 0) true).setFlag (U.ce 3) (F.CE_UMASK_V 0) true
def pe (u off v k : Nat) : PostW := {uid := u, off := off, v := BitVec.ofNat 64 v, sys := true, seq := k}
def ge (u off wd k : Nat) : GetR := {uid := u, off := off, wd := wd, sys := true, seq := k}
def B (u off : Nat) (f : EngH → EngH) (g : Block → Block := id) : State := P (fun h => f ((h.wr64 2 (BitVec.ofNat 64 u)).wr64 3 (BitVec.ofNat 64 off))) g
def fl (k : Nat) (h : EngH) : EngH := {h with posts := (List.range k).map fun i => pe (U.ts 3) 0x48 (i+5) i, seq := k}
def hb (k : Blk) (h : EngH) : EngH := {h with blocked := some k, blockAt := 900}
def gg : List GetR := [ge (U.ts 3) 0x48 2 9, ge (U.ts 4) 0x48 1 10]
def s1_0 : State := B (U.ts 3) 0x48 id msk
def s1_2 : State := B (U.ts 3) 0x48 (fl 16) msk
def s2_0 : State := P fun h => hb (.uput (U.ts 3) 0x48 7) (fl 15 h)
def s2_1 : State := P fun h => {h with gets := gg}

theorem meets_zhovoUnitAccess :
    ((Issues s1_0 3 0 [1, 2, 3]) ∧ (1027 = unitOf (s1_0.blk.eng 3) 2) ∧ (72 = offsetOf (s1_0.blk.eng 3) 3) ∧ ((s1_0.blk.eng 3).sys = true ∨ s1_0.blk.maskMay 3 false 1027 = true) ∧ ((s1_0.blk.eng 3).sys = true ∨ s1_0.blk.maskMay 3 true 1027 = true) ∧ ((s1_0.blk.eng 3).posts.length < 16)) ∧
    ((Issues s1_2 3 0 [1, 2, 3]) ∧ (1027 = unitOf (s1_2.blk.eng 3) 2) ∧ (72 = offsetOf (s1_2.blk.eng 3) 3) ∧ ((s1_2.blk.eng 3).sys = true ∨ s1_2.blk.maskMay 3 true 1027 = true) ∧ (16 ≤ (s1_2.blk.eng 3).posts.length)) :=
  ⟨by decide +kernel, by decide +kernel⟩

theorem meets_zhovoUnitAccessArrives :
    (Settled s2_0 ∧ Held s2_0 3 (Blk.uput 1027 72 7) ∧ ((s2_0.blk.eng 3).posts.length < 16) ∧ ((s2_0.blk.eng 3).posts = pe (U.ts 3) 72 5 0 :: List.map (fun (i : Nat) => pe (U.ts 3) 72 (i + 6) (i + 1)) (List.range 14))) ∧
    (Settled s2_1 ∧ ((s2_1.blk.eng 3).gets = [ge (U.ts 3) 72 2 9, ge (U.ts 4) 72 1 10]) ∧ (∀ (p : PostW), p ∈ (s2_1.blk.eng 3).posts → p.uid = (ge (U.ts 3) 72 2 9).uid → (ge (U.ts 3) 72 2 9).seq ≤ p.seq) ∧ (∀ (x : GetR), x ∈ [ge (U.ts 4) 72 1 10] → x.seq ≠ (ge (U.ts 3) 72 2 9).seq) ∧ (¬kindOf (ge (U.ts 3) 72 2 9).uid ∈ [6, 7, 15, 18, 21])) :=
  ⟨by decide +kernel, by decide +kernel⟩

end W39

namespace W40

def en (n : Nat) (f : EngH → EngH) (b : Block) : Block := b.setEng n (f {b.eng n with running := true, sys := false, pc := 0x10000})
def ce (n : Nat) (b : Block) : Block := (b.setFld (U.ce n) F.UNIT_STATE_STATE 2).setFld (U.ce n) F.UNIT_STATE_PWR 2
def w3 (h : EngH) : EngH := ((((h.wr 1 0x1122334455667788F00D123480007FFF).wr 2 0x00050007FFFFFFFE8000000000000003).wr 3 0x0000000000000000_0000000000000205).setPred 1 true).setPred 3 true
def m0 : Mem := ((({} : Mem).wr .imem (3*32768+2) 0x11112222333344445555666677778888).wr .dmem (3*32768+0x1000) 0x1234567890ABCDEF1122334455667788).wr .dmem (3*32768+0x1001) 0x99999999ABCD
def sys (h : EngH) : EngH := {h with sys := true, pc := 0x100}
def P (f : EngH → EngH) (g : Block → Block := id) : State := {(mk fun b => g (en 3 (fun h => f (w3 h)) (ce 3 (run b)))) with mem := m0}
def ad (a : Nat) (h : EngH) : EngH := h.wr64 2 (BitVec.ofNat 64 a)
def dq0 (s d : Nat) : Quad := BitVec.ofNat 128 (s + d * 2^64)
def dq1 (l ss ds : Nat) : Quad := BitVec.ofNat 128 (l + ss * 2^32 + ds * 2^36)
def md (s d l ss ds : Nat) : Mem := (m0.wr .dmem (3*32768+0x1004) (dq0 s d)).wr .dmem (3*32768+0x1005) (dq1 l ss ds)
def dh (s d l ss ds : Nat) : DmaH := {src := s, dst := d, len := l, srcSp := ss, dstSp := ds, busy := true, result := 0, func := 0}
def full16 (h : EngH) : EngH := {h with dma := (List.range 16).map fun i => (i, dh 0 0 32 2 0)}
def D (s d l ss ds : Nat) (f : EngH → EngH) : State := {P fun h => f (sys (ad 0x110040 h)) with mem := md s d l ss ds}
def hb (k : Blk) (h : EngH) : EngH := {h with blocked := some k, blockAt := 900}
def hbm : Mem := (List.range 80).foldl (fun m i => m.wrByte (0x1000+i) (BitVec.ofNat 8 (i*7+1))) m0
def ws3 : List State := [dh 0x1000 0x120000 64 2 0, dh 0x110000 0x1000 64 0 3].map fun d => {P fun h => {h with dma := [(2,{d with busy := false}), (3,d)]} with mem := hbm}
def s1_0 : State := D 0x1000 0x120000 64 2 0 id
def s1_1 : State := D 0x1000 0x120000 64 2 0 full16
def s2_0 : State := D 0x1000 0x120000 64 2 0 (hb (.dmago 1 (dh 4096 1179648 64 2 0)))
def s2_1 : State := P fun h => hb (.dmawait 1 3) {h with dma := [(3, {dh 0x120000 0x1000 64 0 3 with busy := false, result := 2})]}
def s2_2 : State := P (hb .fence)
def s3_1 : State := ws3.getD 1 State.reset

theorem meets_zhovoDmaInstructions :
    ((Issues s1_0 3 0 [1, 2]) ∧ (1114176 = BitVec.toNat ((s1_0.blk.eng 3).rd64 2)) ∧ inSram s1_0 3 1114176 Ram.dmem 65600 ∧ (65600 + 32 ≤ if 3 < 32 then 262144 else 524288) ∧ descAt s1_0 3 1114176 (dh 4096 1179648 64 2 0) ∧ goodDma s1_0 3 (dh 4096 1179648 64 2 0) ∧ ((s1_0.blk.eng 3).dmaBusy < 16)) ∧
    ((Issues s1_1 3 0 [1, 2]) ∧ (1114176 = BitVec.toNat ((s1_1.blk.eng 3).rd64 2)) ∧ inSram s1_1 3 1114176 Ram.dmem 65600 ∧ descAt s1_1 3 1114176 (dh 4096 1179648 64 2 0) ∧ goodDma s1_1 3 (dh 4096 1179648 64 2 0) ∧ ((s1_1.blk.eng 3).dmaBusy = 16)) ∧
    (((Store.get DmaH.init (s1_0.blk.eng 3).dma (BitVec.toNat ((s1_0.blk.eng 3).rd64 2) % 16)).busy = false)) ∧
    (((Store.get DmaH.init (s1_1.blk.eng 3).dma (BitVec.toNat ((s1_1.blk.eng 3).rd64 2) % 16)).busy = true)) :=
  ⟨by decide +kernel, by decide +kernel, by decide +kernel, by decide +kernel⟩

theorem meets_zhovoDmaMovesData :
    Settled s3_1 ∧ (dh 1114112 4096 64 0 3 = Store.get DmaH.init (s3_1.blk.eng 3).dma 3) ∧ ((dh 1114112 4096 64 0 3).busy = true) ∧ ((dh 1114112 4096 64 0 3).srcSp = 0) ∧ ((dh 1114112 4096 64 0 3).dstSp = 3) ∧ ((dh 1114112 4096 64 0 3).src = 1048576 + 65536) ∧ (16 ≤ (dh 1114112 4096 64 0 3).len) :=
  by decide +kernel

theorem meets_zhovoDmaWakes :
    (Held s2_0 3 (Blk.dmago 1 (dh 4096 1179648 64 2 0)) ∧ ((s2_0.blk.eng 3).dmaBusy < 16)) ∧
    (Held s2_1 3 (Blk.dmawait 1 3) ∧ ((Store.get DmaH.init (s2_1.blk.eng 3).dma 3).busy = false)) ∧
    (Held s2_2 3 Blk.fence ∧ ((s2_2.blk.eng 3).posts = []) ∧ (∀ (x : Nat × DmaH), x ∈ (s2_2.blk.eng 3).dma → x.snd.busy = false)) :=
  ⟨by decide +kernel, by decide +kernel, by decide +kernel⟩

end W40

namespace W41

def en (n : Nat) (f : EngH → EngH) (b : Block) : Block := b.setEng n (f {b.eng n with running := true, sys := false, pc := 0x10000})
def ce (n : Nat) (b : Block) : Block := (b.setFld (U.ce n) F.UNIT_STATE_STATE 2).setFld (U.ce n) F.UNIT_STATE_PWR 2
def w3 (h : EngH) : EngH := ((((h.wr 1 0x1122334455667788F00D123480007FFF).wr 2 0x00050007FFFFFFFE8000000000000003).wr 3 0x0000000000000000_0000000000000205).setPred 1 true).setPred 3 true
def m0 : Mem := ((({} : Mem).wr .imem (3*32768+2) 0x11112222333344445555666677778888).wr .dmem (3*32768+0x1000) 0x1234567890ABCDEF1122334455667788).wr .dmem (3*32768+0x1001) 0x99999999ABCD
def sys (h : EngH) : EngH := {h with sys := true, pc := 0x100}
def P (f : EngH → EngH) (g : Block → Block := id) : State := {(mk fun b => g (en 3 (fun h => f (w3 h)) (ce 3 (run b)))) with mem := m0}
def dh (s d l ss ds : Nat) : DmaH := {src := s, dst := d, len := l, srcSp := ss, dstSp := ds, busy := true, result := 0, func := 0}
def hsOn (b : Block) : Block := (b.setFld (U.hs 0) F.UNIT_STATE_PWR 2).setFld (U.hs 1) F.UNIT_STATE_PWR 2
def hbm : Mem := (List.range 80).foldl (fun m i => m.wrByte (0x1000+i) (BitVec.ofNat 8 (i*7+1))) m0
def hostRing : RingH := {base := 0x1000, d1 := BitVec.ofNat 64 (0x8004 + 0x20 + 0x40000), prod := 5, cons := 2}
def rr (cls : Nat) : RingH := {base := 0x1000, d1 := BitVec.ofNat 64 (0x8004 + 64 * cls + 0x1F0000), prod := 7, cons := 2}
def fullr (cls : Nat) : RingH := {rr cls with prod := 18}
def empr (cls : Nat) : RingH := {rr cls with prod := 2}
def cu (h : EngH) : EngH := ((({h with cur := [(0, cursorWord 5 1 0),(1, cursorWord 6 1 1),(2, cursorWord 7 1 2),(3, cursorWord 8 1 0)]}.wr 4 0x1111).wr 5 0x2222).wr 6 0x3333).wr 7 0x4444
def ri (l : List (Nat × RingH)) (b : Block) : Block := {hsOn b with rings := l}
def hb (k : Blk) (h : EngH) : EngH := {h with blocked := some k, blockAt := 900}
def ws1 : List State := [dh 0x1000 0x120000 64 2 0, dh 0x110000 0x1000 64 0 3].map fun d => {P (g := hsOn) fun h => {h with dma := [(2,{d with busy := false}), (3,d)]} with mem := hbm}
def ws3 : List State := [(5,rr 1),(8,{hostRing with d1 := hostRing.d1}),(5, empr 1),(5,fullr 0),(5,rr 0),(5,rr 2)].flatMap fun x => [Blk.rpop 4 x.1 true false, .rpop 4 x.1 false true, .rpush x.1 0xFEEDBEEF].map fun k => {P (g := ri [x]) fun h => hb k (cu h) with mem := hbm}
def s1_0 : State := ws1.getD 0 State.reset
def s2_0 : State := P (g := ri [(5,rr 0),(6,rr 1),(7,rr 2),(8,{hostRing with d1 := hostRing.d1})]) cu
def s2_1 : State := P (g := ri [(5,fullr 0),(6,empr 1),(7,fullr 2)]) cu
def s3_0 : State := ws3.getD 0 State.reset
def s3_1 : State := ws3.getD 1 State.reset
def s3_2 : State := ws3.getD 2 State.reset

theorem meets_zhovoDmaMovesData_2 :
    Settled s1_0 ∧ (dh 4096 1179648 64 2 0 = Store.get DmaH.init (s1_0.blk.eng 3).dma 3) ∧ ((dh 4096 1179648 64 2 0).busy = true) ∧ ((dh 4096 1179648 64 2 0).srcSp = 2) ∧ ((dh 4096 1179648 64 2 0).dstSp = 0) ∧ ((dh 4096 1179648 64 2 0).dst = 1048576 + 131072) ∧ (131072 + (dh 4096 1179648 64 2 0).len ≤ 524288) ∧ (s1_0.blk.hbmBad (dh 4096 1179648 64 2 0).src (dh 4096 1179648 64 2 0).len = false) :=
  by decide +kernel

theorem meets_zhovoRingInstructions :
    ((Issues s2_0 3 0 [4, 4 + 1, 4 + 2, 4 + 3]) ∧ (Cursor s2_0 3 0 5 [0, 2, 3]) ∧ hasRoom s2_0 5) ∧
    ((Issues s2_1 3 0 [4, 4 + 1, 4 + 2, 4 + 3]) ∧ (Cursor s2_1 3 0 5 [0, 2, 3]) ∧ (¬hasRoom s2_1 5)) ∧
    (Cursor s2_0 3 1 6 [1] ∧ hasEntry s2_0 6) ∧
    (Cursor s2_1 3 1 6 [1] ∧ (¬hasEntry s2_1 6)) :=
  ⟨by decide +kernel, by decide +kernel, by decide +kernel, by decide +kernel⟩

theorem meets_zhovoRingWakes :
    (Held s3_0 3 (Blk.rpop 4 5 true false) ∧ hasEntry s3_0 5 ∧ (s3_0.blk.coasting = false) ∧ (s3_0.blk.entryBad (s3_0.blk.ring 5) (s3_0.blk.ring 5).cons = false) ∧ ((s3_0.blk.eng 3).sys = false) ∧ ((s3_0.blk.eng 3).inexc = false)) ∧
    (Held s3_1 3 (Blk.rpop 4 5 false true) ∧ hasEntry s3_1 5) ∧
    (Held s3_2 3 (Blk.rpush 5 4276993775) ∧ hasRoom s3_2 5) :=
  ⟨by decide +kernel, by decide +kernel, by decide +kernel⟩

end W41

namespace W42

def ft (c : Nat) (b : Block) : Block := (b.setReg (U.ts 3) R.UNIT_FAULT (BitVec.ofNat 64 (c + 5 * 2^32))).setReg (U.ts 3) R.UNIT_IRQ_EN 2
def ws2 : List State := [mk run] ++ [0x1FF070105, 0x10507, 0x20507, 0x30507, 0x40507, 0x70507].map fun c => mk fun b => ft c (run b)
def s1_0 : State := mk run
def s2_0 : State := ws2.getD 0 State.reset

theorem meets_faultRegisterWrites :
    (Settled s2_0 ∧ (s2_0.blk.inReset = false) ∧ (s2_0.blk.linkDown = false)) ∧
    ((Who.pf = Who.pf ∨ ∃ (k : Nat), Who.pf = Who.vf k)) ∧
    ((reservedUid 1027 = false) ∧ Takes s2_0 Who.pf 1027 ∧ (s2_0.blk.faultsNow 1027 = [])) :=
  ⟨by decide +kernel, Or.inl rfl, by decide +kernel⟩

theorem meets_registerWriteByAccessCode :
    (Takes s1_0 Who.pf 1027 ∧ (s1_0.blk.time.coll = []) ∧ (kindOf 1027 ∈ [8, 11]) ∧ (kindOf 1027 = 11 → 64 ≠ R.PC_STAT) ∧ (kindOf 1027 = 8 → 64 ≠ R.TS_NBR)) ∧
    ((∃ d i, regAt 1027 64 = some (d, i) ∧ rowsApart d)) ∧
    ((rowsApart ({ off := 64, n := 1, stride := 8, rows := [{ hi := 15, lo := 0, acc := Acc.ro, rst := fun (x x_1 : Nat) => 0, rng := Rng.any : Row }, { hi := 31, lo := 16, acc := Acc.ro, rst := fun (x x_1 : Nat) => 0, rng := Rng.any : Row }, { hi := 34, lo := 32, acc := Acc.ro, rst := fun (x x_1 : Nat) => 0, rng := Rng.any : Row }, { hi := 35, lo := 35, acc := Acc.ro, rst := fun (x x_1 : Nat) => 0, rng := Rng.any : Row }, { hi := 47, lo := 40, acc := Acc.ro, rst := fun (x x_1 : Nat) => 0, rng := Rng.any : Row }, { hi := 63, lo := 48, acc := Acc.ro, rst := fun (x x_1 : Nat) => 32768, rng := Rng.any : Row }] : RegDef }, (64 - { off := 64, n := 1, stride := 8, rows := [{ hi := 15, lo := 0, acc := Acc.ro, rst := fun (x x_1 : Nat) => 0, rng := Rng.any : Row }, { hi := 31, lo := 16, acc := Acc.ro, rst := fun (x x_1 : Nat) => 0, rng := Rng.any : Row }, { hi := 34, lo := 32, acc := Acc.ro, rst := fun (x x_1 : Nat) => 0, rng := Rng.any : Row }, { hi := 35, lo := 35, acc := Acc.ro, rst := fun (x x_1 : Nat) => 0, rng := Rng.any : Row }, { hi := 47, lo := 40, acc := Acc.ro, rst := fun (x x_1 : Nat) => 0, rng := Rng.any : Row }, { hi := 63, lo := 48, acc := Acc.ro, rst := fun (x x_1 : Nat) => 32768, rng := Rng.any : Row }] : RegDef }.off) / { off := 64, n := 1, stride := 8, rows := [{ hi := 15, lo := 0, acc := Acc.ro, rst := fun (x x_1 : Nat) => 0, rng := Rng.any : Row }, { hi := 31, lo := 16, acc := Acc.ro, rst := fun (x x_1 : Nat) => 0, rng := Rng.any : Row }, { hi := 34, lo := 32, acc := Acc.ro, rst := fun (x x_1 : Nat) => 0, rng := Rng.any : Row }, { hi := 35, lo := 35, acc := Acc.ro, rst := fun (x x_1 : Nat) => 0, rng := Rng.any : Row }, { hi := 47, lo := 40, acc := Acc.ro, rst := fun (x x_1 : Nat) => 0, rng := Rng.any : Row }, { hi := 63, lo := 48, acc := Acc.ro, rst := fun (x x_1 : Nat) => 32768, rng := Rng.any : Row }] : RegDef }.stride).fst)) :=
  ⟨by decide +kernel, ⟨_, _, rfl, by decide +kernel⟩, by decide +kernel⟩

end W42

namespace W43

def st (u n : Nat) (b : Block) : Block := (b.setFld u F.UNIT_STATE_STATE n).setFld u F.UNIT_STATE_PWR 2
def us := [U.ts 3, U.sy 1, U.pc 4, U.orx 1, U.rxc 2, U.txc 3, U.pbd 1, U.fh 2, U.mon, U.hd 3, U.ce 2, U.lane 4, U.mc 5]
def rmp (u n : Nat) (b : Block) : Block := {b with ramping := Store.set 0 b.ramping u (n+1)}
def tst (u n : Nat) (b : Block) : Block := {b with testing := Store.set 0 b.testing u (n+1)}
def ws1 : List State := us.flatMap fun u => [1,2,3,4,5,6,0].map fun k => mk fun b => (if k = 2 ∨ k = 3 then fun b => b.setFlag u F.UNIT_CTRL_ENABLE true else if k = 5 then fun b => b.setFlag u F.UNIT_CTRL_TEST_REQ true else id) (st u k (run b))
def ws2 : List State := ([mk fun b => rmp (U.pbd 1) 1000 (st (U.pbd 1) 2 (run b)), mk fun b => rmp (U.pbd 1) 1000 (st (U.pbd 1) 3 (run b))] : List State) ++ us.map fun u => mk fun b => tst u 1000 (st u 4 (run b))
def s1_0 : State := ws1.getD 0 State.reset
def s1_1 : State := ws1.getD 1 State.reset
def s1_3 : State := ws1.getD 3 State.reset
def s1_4 : State := ws1.getD 4 State.reset
def s2_0 : State := ws2.getD 0 State.reset
def s2_2 : State := ws2.getD 2 State.reset

theorem meets_unitControl :
    (Takes s1_0 Who.pf 1027 ∧ (s1_0.blk.time.coll = []) ∧ Single s1_0 1027 ∧ NoGroups s1_0 ∧ plainKind 1027 ∧ (s1_0.blk.ownState 1027 = 1) ∧ (s1_0.blk.flag 1027 F.UNIT_CTRL_TEST_REQ = false)) ∧
    (Takes s1_1 Who.pf 1027 ∧ (s1_1.blk.time.coll = []) ∧ Single s1_1 1027 ∧ NoGroups s1_1 ∧ (s1_1.blk.ownState 1027 = 2) ∧ (kindOf 1027 = 8) ∧ (s1_1.blk.flag 1027 F.UNIT_CTRL_TEST_REQ = false)) ∧
    (Takes s1_4 Who.pf 1027 ∧ (s1_4.blk.time.coll = []) ∧ Single s1_4 1027 ∧ NoGroups s1_4 ∧ (s1_4.blk.ownState 1027 = 5) ∧ (s1_4.blk.flag 1027 F.UNIT_CTRL_ENABLE = false)) ∧
    ((neverFenced 1027 = false) ∧ (s1_0.blk.ownState 1027 ≠ 4) ∧ (s1_0.blk.ownState 1027 ≠ 6) ∧ (kindOf 1027 ∈ [2, 8, 9, 11, 13, 14, 15, 18, 25, 26]) ∧ Takes s1_0 Who.pf 51 ∧ Single s1_0 51 ∧ (s1_0.blk.ownState 51 ≠ 6) ∧ (kindOf 51 ∈ [3, 5, 7])) ∧
    (Takes s1_3 Who.pf 1027 ∧ (s1_3.blk.time.coll = []) ∧ Single s1_3 1027 ∧ NoGroups s1_3 ∧ (kindOf 1027 = (8, 19660800).fst) ∧ (s1_3.blk.ownState 1027 = 4) ∧ (Store.get 0 s1_3.blk.testing 1027 = 0)) :=
  ⟨by decide +kernel, by decide +kernel, by decide +kernel, by decide +kernel, by decide +kernel⟩

theorem meets_unitMovesEnd :
    (Settled s2_0 ∧ Single s2_0 257 ∧ NoGroups s2_0 ∧ (kindOf 257 = 5) ∧ (Store.get 0 s2_0.blk.ramping 257 = 1000 + 1) ∧ DueNow s2_0 1000 ∧ (s2_0.blk.ownState 257 ∈ [2, 3]) ∧ (s2_0.blk.flag 257 F.UNIT_CTRL_TEST_REQ = false) ∧ (s2_0.blk.flag 257 F.UNIT_CTRL_ENABLE = false)) ∧
    (Settled s2_2 ∧ Single s2_2 1027 ∧ NoGroups s2_2 ∧ (Store.get 0 s2_2.blk.testing 1027 = 1000 + 1) ∧ DueNow s2_2 1000 ∧ (s2_2.blk.ownState 1027 = 4) ∧ (kindOf 1027 ∈ [8, 13, 14, 18]) ∧ (s2_2.blk.domainOn 1027 = true)) :=
  ⟨by decide +kernel, by decide +kernel⟩

end W43

namespace W44

def gr (l : List Nat) (b : Block) : Block := {b with groups := [(0x1003, l)], edits := []}
def ed (l : List Nat) (b : Block) : Block := {b with edits := [(0x1003, l)]}
def setPD (d v : Nat) (b : Block) : Block := b.setFld U.kiln (F.PWR_STAT_PD (d / 16) (d % 16)) v
def tr (l : List (Nat × Bool × Nat)) (b : Block) : Block := {b with power := {b.power with trans := l}}
def rq (l : List Nat) (b : Block) : Block := l.foldl (fun b q => b.setFlag (U.fh q) F.UNIT_CTRL_POWER_REQ true) b
def TT (d : Nat) (up : Bool) (k : Nat) (l : List Nat) : State := endAt (10^9) (mk fun b => setPD d (if up then 1 else 3) (rq l (tr [(d,up,1000)] (at_ (1000 + k * transitionTime d up) (run b)))))
def s2_0 : State := mk run
def s2_1 : State := mk fun b => gr [U.ts 3, U.pbd 4] (run b)
def s2_2 : State := mk fun b => ed [U.ts 3] (gr [U.ts 3, U.pbd 4] (run b))
def s2_3 : State := mk fun b => gr (List.range 255 |>.map (0x600 + ·)) (run b)
def s3_0 : State := mk run
def s3_2 : State := mk fun b => tr [(1,true,3),(2,true,4),(3,true,5),(4,false,7)] (run b)
def s4_0 : State := TT 74 true 1 [1]
def s4_4 : State := TT 74 true 4 [1]
def s4_6 : State := mk fun b => setPD 74 2 (run b)

theorem meets_groupEdits :
    (Takes s2_3 Who.pf 4099 ∧ (kindOf 4099 = 32) ∧ (s2_3.blk.editResult 4099 4099 true = 2)) ∧
    (Takes s2_0 Who.pf 4099 ∧ (reservedUid 65520 = true) ∧ (reservedUid 0 = false) ∧ (protectedUid 0 = true)) ∧
    (Takes s2_1 Who.pf 4099 ∧ (reservedUid 1027 = false) ∧ (protectedUid 1027 = false) ∧ 1027 ∈ s2_1.blk.edited 4099) ∧
    ((reservedUid 4099 = false) ∧ (protectedUid 4099 = false) ∧ (¬4099 ∈ s2_3.blk.edited 4099) ∧ (255 ≤ (s2_3.blk.edited 4099).length)) ∧
    (Takes s2_2 Who.pf 4099 ∧ (s2_2.blk.edits = [(4099, s2_2.blk.edited 4099)]) ∧ (s2_2.blk.time.running = true) ∧ (s2_2.blk.t + 1 < s2_2.blk.time.tickEnd) ∧ (s2_2.pending = [])) :=
  ⟨by decide +kernel, by decide +kernel, by decide +kernel, by decide +kernel, by decide +kernel⟩

theorem meets_powerRequests :
    (Takes s3_0 Who.pf (U.fh 0) ∧ (s3_0.blk.time.coll = []) ∧ (pdState s3_0 (74 + 0 / 4) = 0) ∧ (s3_0.blk.ownState (U.fh 0) = 0) ∧ (s3_0.blk.thermalOff = false) ∧ (s3_0.blk.runtimeUp = true) ∧ (s3_0.blk.flag 0 F.FLT_MODE_FATAL = false) ∧ (s3_0.blk.power.queue = []) ∧ (s3_0.blk.power.trans.length < 4)) ∧
    (Takes s3_2 Who.pf (U.fh 0) ∧ (s3_2.blk.time.coll = []) ∧ (pdState s3_2 (74 + 0 / 4) = 0) ∧ (s3_2.blk.ownState (U.fh 0) = 0) ∧ (s3_2.blk.thermalOff = false) ∧ (s3_2.blk.runtimeUp = true) ∧ (s3_2.blk.flag 0 F.FLT_MODE_FATAL = false) ∧ (s3_2.blk.power.queue = []) ∧ (4 ≤ s3_2.blk.power.trans.length)) :=
  ⟨by decide +kernel, by decide +kernel⟩

theorem meets_powerTransitions :
    (Settled s4_0 ∧ (s4_0.blk.power.queue = []) ∧ (s4_0.blk.power.trans = [(74, true, 1000)]) ∧ DueNow s4_0 (1000 + transitionTime 74 true) ∧ (true = true → ∃ (q : Nat), q < 4 ∧ s4_0.blk.flag (U.fh (4 * (74 - 74) + q)) F.UNIT_CTRL_POWER_REQ = true) ∧ (true = false → ∀ (q : Nat), q < 4 → s4_0.blk.flag (U.fh (4 * (74 - 74) + q)) F.UNIT_CTRL_POWER_REQ = false ∧ Store.get 0 s4_0.blk.ramping (U.fh (4 * (74 - 74) + q)) = 0)) ∧
    (Settled s4_4 ∧ (s4_4.blk.power.queue = []) ∧ (s4_4.blk.power.trans = [(74, true, 1000)]) ∧ DueNow s4_4 (1000 + 4 * transitionTime 74 true)) ∧
    (Settled s4_6 ∧ (s4_6.blk.power.queue = []) ∧ (pdState s4_6 74 = 2) ∧ (pdState s4_6 75 = 0)) :=
  ⟨by decide +kernel, by decide +kernel, by decide +kernel⟩

end W44

namespace W45

def en (n : Nat) (f : EngH → EngH) (b : Block) : Block := b.setEng n (f {b.eng n with running := true, sys := false, pc := 0x10000})
def ce (n : Nat) (b : Block) : Block := (b.setFld (U.ce n) F.UNIT_STATE_STATE 2).setFld (U.ce n) F.UNIT_STATE_PWR 2
def w3 (h : EngH) : EngH := ((((h.wr 1 0x1122334455667788F00D123480007FFF).wr 2 0x00050007FFFFFFFE8000000000000003).wr 3 0x0000000000000000_0000000000000205).setPred 1 true).setPred 3 true
def m0 : Mem := ((({} : Mem).wr .imem (3*32768+2) 0x11112222333344445555666677778888).wr .dmem (3*32768+0x1000) 0x1234567890ABCDEF1122334455667788).wr .dmem (3*32768+0x1001) 0x99999999ABCD
def sys (h : EngH) : EngH := {h with sys := true, pc := 0x100}
def P (f : EngH → EngH) (g : Block → Block := id) : State := {(mk fun b => g (en 3 (fun h => f (w3 h)) (ce 3 (run b)))) with mem := m0}
def cx : Ctx := {Ctx.init with stamp := 0x1234567, target := 0x105, action := 3, ctrl := 1, tol := 77, origin := 16389, sys := false, period := 0x44444444, count := 0x1234, state := 1, result := 7, lateness := 0x99, occ := 0xABCD, args := 0x1111222233334444555566667777888899990000}
def ad (a : Nat) (h : EngH) : EngH := h.wr64 2 (BitVec.ofNat 64 a)
def cxs (b : Block) : Block := {b with ctxs := [(3, {cx with origin := b.fld (U.ce 3) F.CE_CFG_ORIGIN}), (4, {cx with origin := 7}), (5, {cx with state := 0, args := 0x123})]}
def CA (k j : Nat) := 0x1000000 + 64 * k + 16 * j
def ws4 : List State := [CA 3 0,CA 3 2,CA 4 1,CA 5 1,CA 5 2, CA 5 0].flatMap fun a => [P (ad a) cxs, P (fun h => sys (ad a h)) cxs]
def s4_0 : State := ws4.getD 0 State.reset
def s4_4 : State := ws4.getD 4 State.reset
def s5_0 : State := P (ad 0x12341)
def s5_1 : State := P fun h => sys (ad 0x22 h)

theorem meets_zhovoContextStoreDenied :
    ((Issues s4_4 3 0 [1, 2]) ∧ inCtx 3 16777488 4 1 ∧ (16777488 = memAddr (s4_4.blk.eng 3) 2 0 16) ∧ ((s4_4.blk.eng 3).sys = false) ∧ ((s4_4.blk.eng 3).inexc = false) ∧ (¬((s4_4.blk.ctx 4).origin = s4_4.blk.fld (U.ce 3) F.CE_CFG_ORIGIN ∧ (s4_4.blk.ctx 4).sys = false))) ∧
    ((Issues s4_0 3 0 [1, 2]) ∧ inCtx 3 16777408 3 0 ∧ (16777408 = memAddr (s4_0.blk.eng 3) 2 0 16) ∧ ((s4_0.blk.eng 3).sys = false) ∧ ((s4_0.blk.eng 3).inexc = false)) :=
  ⟨by decide +kernel, by decide +kernel⟩

theorem meets_zhovoJumpFaults :
    (Settled s5_0 ∧ (s5_0.blk.engLive 3 = true) ∧ (s5_0.blk.fetchOk 3 (s5_0.blk.eng 3).pc = true) ∧ ((s5_0.blk.eng 3).pred 2 = false) ∧ Issues s5_0 3 0 [1] ∧ (BitVec.toNat ((s5_0.blk.eng 3).rd64 1) % 4 ≠ 0) ∧ ((s5_0.blk.eng 3).sys = false) ∧ ((s5_0.blk.eng 3).inexc = false)) ∧
    (Issues s5_1 3 0 [1] ∧ (BitVec.toNat ((s5_1.blk.eng 3).rd64 1) % 4 ≠ 0) ∧ ((s5_1.blk.eng 3).sys = true ∨ (s5_1.blk.eng 3).inexc = true)) :=
  ⟨by decide +kernel, by decide +kernel⟩

end W45

namespace W46

def en (n : Nat) (f : EngH → EngH) (b : Block) : Block := b.setEng n (f {b.eng n with running := true, sys := false, pc := 0x10000})
def ce (n : Nat) (b : Block) : Block := (b.setFld (U.ce n) F.UNIT_STATE_STATE 2).setFld (U.ce n) F.UNIT_STATE_PWR 2
def w3 (h : EngH) : EngH := ((((h.wr 1 0x1122334455667788F00D123480007FFF).wr 2 0x00050007FFFFFFFE8000000000000003).wr 3 0x0000000000000000_0000000000000205).setPred 1 true).setPred 3 true
def S1 := mk fun b => en 3 w3 (ce 3 (run b))
def s2_0 : State := S1

theorem meets_blockFloatInvalid :
    (Issues s2_0 3 0 [0, 0]) ∧ (bfCrc (BitVec.toNat ((s2_0.blk.eng 3).rd 0)) ≠ (BitVec.extractLsb' 112 8 ((s2_0.blk.eng 3).rd 0)).toNat ∨ 9 < (BitVec.extractLsb' 124 4 ((s2_0.blk.eng 3).rd 0)).toNat) :=
  by decide +kernel

end W46

end Sys2Proof.Tests
end

