-- ==== Sys2Proof/Tests/MoreWitnesses.lean ====
section
/-! SUPPORT. Tests. More states that meet the hypotheses of the obligations: the boundary cases of faults of one Tc, late and repeated requests, partial and passed instants,
and refusals. -/

open Sys2Proof Sys2Proof.Machine Sys2Proof.Spec

set_option Elab.async false
set_option linter.unusedVariables false

namespace Sys2Proof.Tests

namespace M1

def u1 : Nat := U.ts 3
def now1 (b : Block) : Block := { run b with flt := { b.flt with now := [{ uid := u1, code := C.clamp, cls := 1 }], nowAt := 1000 } }
def s1 : State := mk now1
def pbdFenced (c : Nat) (b : Block) : Block :=
  let b := ((run b).setFld (U.pbd 1) F.UNIT_STATE_STATE 4).setFld (U.pbd 1) F.UNIT_STATE_PWR 2
  b.setPbdH 1 { b.pbdH 1 with fencedBy := c }
def s2 : State := mk (pbdFenced C.restartLimit)
def s3 : State := mk (pbdFenced 0)
def s4 : State := mk fun b => (run b).setFld u1 F.UNIT_STATE_STATE 6
def s6 : State := mk run
def s7 : State := mk fun b => (run b).setFld 0 F.FLT_COLLECT_INFO_PHASE 2
def s8 : State := mk (ph 6)

theorem meets_faultRegisterWrites_now : Takes s1 .pf u1 ∧ s1.blk.faultsNow u1 ≠ [] ∧ ∀ e ∈ s1.blk.faultsNow u1, e.cls = 1 := by decide +kernel

theorem meets_unitControl_restartLimit :
    (Takes s2 (.engine 3 false) (U.pbd 1) ∧ s2.blk.time.coll = [] ∧ Single s2 (U.pbd 1) ∧ NoGroups s2 ∧ s2.blk.ownState (U.pbd 1) = 4 ∧
      Store.get 0 s2.blk.testing (U.pbd 1) = 0 ∧ (s2.blk.pbdH (unitIndex (U.pbd 1))).fencedBy = C.restartLimit) ∧
    (Takes s3 (.engine 3 false) (U.pbd 1) ∧ s3.blk.time.coll = [] ∧ Single s3 (U.pbd 1) ∧ NoGroups s3 ∧ s3.blk.ownState (U.pbd 1) = 4 ∧
      Store.get 0 s3.blk.testing (U.pbd 1) = 0 ∧ (s3.blk.pbdH (unitIndex (U.pbd 1))).fencedBy ≠ C.restartLimit) :=
  ⟨by decide +kernel, by decide +kernel⟩

theorem meets_unitControl_failed : Takes s4 .pf u1 ∧ s4.blk.time.coll = [] ∧ Single s4 u1 ∧ NoGroups s4 ∧ s4.blk.ownState u1 = 6 := by decide +kernel

theorem meets_groupEdits_add : NoGroups s6 ∧ s6.blk.edits = [] ∧ reservedUid u1 = false ∧ protectedUid u1 = false ∧ kindOf u1 ≠ 0x20 ∧ isBuiltinGroup u1 = false := by
  decide +kernel

theorem meets_startUpPhases_test : InPhase s7 8 ∧ s7.blk.fld 0 F.FLT_COLLECT_INFO_PHASE = 2 := by decide +kernel

theorem meets_faultsByClass_bist :
    (Settled s8 ∧ s8.blk.inReset = false ∧ loneKind (U.sy 3) ∧ kindOf (U.sy 3) ≠ 0x08 ∧ s8.blk.ownState (U.ts 5) ∉ [4, 6] ∧ s8.blk.ownState (U.ts 3) ≠ 6 ∧
      (40 ≤ 5 ↔ 40 ≤ 3)) ∧
    (reservedUid U.warden = false ∧ kindOf U.warden ∈ [0x10, 0x11, 0x14, 0x17] ∧ s8.blk.fld 0 F.HOST_BOOT_PHASE < 8) ∧
    (reservedUid (U.pb 3) = false ∧ classOf C.refLost = 3 ∧ kindOf (U.pb 3) = 0x04) :=
  ⟨by decide +kernel, by decide +kernel, by decide +kernel⟩

end M1

namespace M2

def step (st : DirStep) (tol : Nat) (shut : Bool) : State :=
  let s := W4.sd (W4.ds st 5000900 tol)
  { s with blk := s.blk.setPbH 5 { s.blk.pbH 5 with service := { (s.blk.pbH 5).service with shut := shut } } }
def expired (st : DirStep) (tol : Nat) (shut : Bool) : Bool :=
  let s := step st tol shut
  decide (Settled s ∧ (s.blk.pbH 5).steps = [W4.ds st 5000900 tol] ∧ DueNow s (s.blk.elapsedOfAir 5000900) ∧
    (tol < s.blk.time.air - 5000900 ∨ ((s.blk.pbH 5).side .service).shut = true))

theorem meets_directionSteps_expired : (∀ st ∈ [DirStep.rxGateSwTx, .txBegin, .paHigh, .txOn], expired st 99 false = true) ∧
    expired .txBegin 100 true = true ∧ expired .txBegin 100 false = false := by decide +kernel

theorem meets_channelEvents_steps : (∀ st ∈ [TxStep.silent, .swRx, .swTx, .paHigh, .rampUp, .full, .standby, .pass],
    Settled (W5.tx st) ∧ ((W5.tx st).blk.txcH 5).seq = [(1000, st)] ∧ DueNow (W5.tx st) 1000) := by decide +kernel

def passes : State := mk fun b =>
  let b := ((run b).setFld (U.pbd 11) F.UNIT_STATE_STATE 2).setTxcH 5 { b.txcH 5 with insts := [(11, 0)], seq := [(1000, .pass)], out := true }
  let b := (b.setFld (U.pb 5) F.PB_CFG_DUPLEX 0).setFld (U.txc 5) F.UNIT_STATE_STATE 2
  (b.setFlag U.sync F.SYNC_STAT_EVER_LOCKED true).setFlag (ccOf (U.txc 5)) F.CC_STAT_CLK_LOCK true
theorem meets_channelEvents_pass : Settled passes ∧ passes.blk.muteSrc 5 = 0 := by decide +kernel

def asked (c i e : Nat) : State := mk fun b =>
  let b := W5.sy (some (e, 1000, true)) b
  b.setSyH 3 { b.syH 3 with asks := [(c, i, e)], asksAt := 1000 }
theorem meets_synthesiserCommands_collision : ∀ c ∈ [0, 9], let s := asked c 0 6
    Takes s .pf (U.sy 3) ∧ s.blk.time.coll = [] ∧ s.blk.usable (U.sy 3) = true ∧ syWordOk (syEnt s 3 5).word = true ∧
      (s.blk.syH 3).asksAt = s.blk.t ∧ (s.blk.syH 3).asks = [(c, 0, 6)] ∧ (s.blk.syH 3).hop = some (6, s.blk.t, true) := by decide +kernel

def lateLock : State := endAt 3000000 (mk fun b => at_ 787389 (W5.sy (some (5, 700, true)) b))
theorem meets_synthesiserLocks_late : Settled lateLock ∧ (lateLock.blk.syH 3).hop = some (5, 700, true) ∧ (lateLock.blk.syH 3).queued = none ∧
    700 + 256 + 786432 < lateLock.blk.t := by decide +kernel

def planned : State := W6.wm (mk fun b => at_ 1001 (W6.pl b))
theorem meets_plannerAndObservation_passed : ∃ at0, Settled planned ∧ (planned.blk.pbdH 7).pendingEntry = some (4, at0, false) ∧
    planned.blk.planStart planned.mem 7 4 at0 < (planned.blk.t : Int) ∧ seqFrames planned.mem 1 (planned.blk.pathFld 7 (F.PBD_EXT_SEQ 4)) ≠ [] :=
  ⟨_, by decide +kernel, rfl, by decide +kernel, by decide +kernel⟩

def capLow : State := (W8.both 0x14 (U.pbd 7) 0x8000 id).getD 0 State.reset
def squallCue : State := (W8.both 0x16 (U.pbd 7) 0 id).getD 0 State.reset
theorem meets_cuesOfProtection_low :
    ((capLow.blk.ctx 7).target = U.pbd 7 ∧ Acting capLow 7 0x14 0 ∧ (capLow.blk.ctx 7).sys = true ∧ sext 16 ((capLow.blk.ctx 7).arg 0 2) = -32768) ∧
    ((squallCue.blk.ctx 7).target = U.pbd 7 ∧ Acting squallCue 7 0x16 0 ∧ squallCue.blk.squalled 7 = false ∧
      squallCue.blk.time.air ≤ tcOf (squallCue.blk.ctx 7).stamp) :=
  ⟨by decide +kernel, by decide +kernel⟩

def staged (at0 : Nat) : State := mk (W9.cx [(7, { W9.C0 with slot := true, slotAt := at0 })])
theorem meets_stagingAndWaiting_transport : ∀ at0 ∈ [744, 745], let s := staged at0
    Settled s ∧ Store.wf Ctx.init s.blk.ctxs = true ∧ (s.blk.ctx 7).state = 1 ∧ DueNow s (s.blk.elapsedOfAir (s.blk.ctx 7).e.toNat) ∧
      ((s.blk.ctx 7).slotAt + shadowTc (s.blk.ctx 7).target ≤ s.blk.t ↔ at0 = 744) := by decide +kernel

def parted : State := mk fun b =>
  let b := W9.cx [(7, { W9.C0 with state := 5, action := 0x10, target := U.pb 5 })] b
  b.setPbH 5 { b.pbH 5 with steps := [W4.ds .full 5002000 0] }
theorem meets_retirementAndCancel_parts : Settled parted ∧ parted.blk.flag U.dsp F.DSP_STAT_CUE_FULL = false ∧ 0 < parted.blk.freeCtxs ∧
    (parted.blk.ctx 7).state = 5 ∧ parted.blk.cueParts 7 = true := by decide +kernel

end M2

namespace M3

def cancelled (start : Nat) : State := mk fun b =>
  let b := W12.on b
  let b := b.setSlotH 7 6 { b.slotH 7 6 with cancelled := true }
  { b with time := { b.time with tickStart := start } }
theorem meets_loopEvents_cancelled : ∀ x ∈ [(1000, 5), (0, 0)], let s := cancelled x.1
    Settled s ∧ (s.blk.slotH 7 6).cancelled = true ∧ s.blk.tuneAbortReason 7 6 = x.2 := by decide +kernel

def loops : State := mk W12.on
def startBit : Word := BitVec.ofNat 64 (2 ^ F.LOOP_RAMP_START.lo)
def stopBit : Word := BitVec.ofNat 64 (2 ^ F.LOOP_RAMP_STOP.lo)
theorem meets_loopWrites_clampAndRamp :
    (loops.blk.time.coll = [] ∧ Takes loops .runtime (U.pbd 7) ∧ whoSys .runtime = true ∧ Takes loops .pf (U.pbd 7) ∧ whoSys .pf = false) ∧
    (loops.blk.sfld (U.pbd 7) F.PROT_CFG_M_SQUALL + 192 ≤ max 384 (min 1920 (sext 16 (Word.fld 2000 15 0))) ∧ sext 16 (Word.fld 2000 15 0) ≠ 1920) ∧
    (Word.fld startBit F.LOOP_RAMP_START.hi F.LOOP_RAMP_START.lo = 1 ∧ Word.fld stopBit F.LOOP_RAMP_STOP.hi F.LOOP_RAMP_STOP.lo = 1) :=
  ⟨by decide +kernel, by decide +kernel, by decide +kernel⟩

def off : Nat := 5 * 256 + 16384 * 9 + 40
def hbm (p : PcH) : State := W16.one (W16.ph5 p)
abbrev uncorrected (s : State) : Prop := Settled s ∧ noTally s ∧ s.blk.inReset = false ∧ 0 < Store.get 0 s.blk.hbm.outst (5 * 32 + 4) ∧ s.blk.hbm.waiting = [] ∧
  serves s 5 ∧ ((s.blk.pcH 5).ues.filter fun x => x.1 != 77 && decide (s.blk.t < x.2 + 1966080000)).length < 8
theorem meets_hbmErrors_underWay :
    (uncorrected (hbm { ueRows := [77] }) ∧ 77 ∈ ((hbm { ueRows := [77] }).blk.pcH 5).ueRows) ∧
    (uncorrected (hbm { repair := some (9, 5) }) ∧ 77 ∉ ((hbm { repair := some (9, 5) }).blk.pcH 5).ueRows) ∧
    (let s := hbm { repair := some (77, 5), want := [9] }
     Settled s ∧ noTally s ∧ s.blk.inReset = false ∧ (s.blk.pcH 5).want = [9] ∧ s.blk.hbm.waiting = [] ∧ 1 < s.blk.fld (U.pc 5) F.PC_REPAIR_SOFT_LEFT) ∧
    (let s := hbm { repair := some (77, 5) }
     Settled s ∧ noTally s ∧ s.blk.inReset = false ∧ (s.blk.pcH 5).repair = some (77, 5) ∧ (s.blk.pcH 5).want = []) :=
  ⟨by decide +kernel, by decide +kernel, by decide +kernel, by decide +kernel⟩

def repairing (n : Nat) : State := mk fun b => at_ 5000 ((W16.hsOn b).setPcH 5 { repair := some (77, n) })
theorem meets_hbmRequests_repair : ∀ x ∈ [(904, true), (905, false)], let s := repairing x.1
    Settled s ∧ noTally s ∧ serves s 5 ∧ s.blk.fld (U.pc 5) F.PC_STAT_OUTST < 64 ∧ outstanding s < 4096 ∧ (s.blk.pcH 5).repair = some (77, x.1) ∧
      decide (x.1 + 4096 ≤ s.blk.t) = x.2 := by decide +kernel

def begun (src : MonSrc) (act : Nat) : State := mk fun b => W17.sel 5 (W17.mo 2 act (fun h => { h with begun := some (1000, 7), cv := some { src := src } }) b)
theorem meets_monitorTriggers_oneTc : ∀ x ∈ [(MonSrc.reg 0, 2), (.single, 1), (.burst 0, 4)], let s := begun x.1 x.2
    Settled s ∧ s.blk.time.running = true ∧ Takes s .pf U.mon ∧ s.blk.time.coll = [] ∧ s.blk.ownState U.mon = 2 ∧ s.blk.mon.begun = some (s.blk.t, 7) ∧
      s.blk.mon.cv.map (·.src) = some x.1 ∧ s.blk.mon.urgentAt ≠ some s.blk.t ∧ s.blk.mon.requestAt = none ∧ s.blk.fld U.mon (F.MON_INJ_CH 0) < 35 ∧
      s.blk.fld U.mon F.MON_SEL_CH < 35 := by decide +kernel

def writing : State := { W7.s4_3 with blk := (W7.s4_3.blk.setFld (U.hs 0) (F.MEM_REGION_SIZE 0) 1).setLaneH 9 { W7.s4_3.blk.laneH 9 with writing := [(2, [])] } }
theorem meets_modelSwaps_writing : Settled writing ∧ (writing.blk.laneH 5).swaps = [W7.sw] ∧ writing.blk.slotWriting W7.sw.slot = true := by decide +kernel

theorem meets_bankAndTapAccess_high : Takes W7.s7_0 .pf (U.lane 5) ∧ W7.s7_0.blk.leaderOf 5 = none ∧ W7.s7_0.blk.time.coll = [] := by decide +kernel

end M3

namespace M4

def rootBist : List Nat := [0x04E3, 0x04E5, 0x04E6, 0x04E8]
theorem meets_faultsByClass_nonEssential : ∀ u ∈ rootBist, Settled M1.s8 ∧ M1.s8.blk.inReset = false ∧ reservedUid u = false := by decide +kernel

theorem meets_faultTests_pin : Takes W2.s3_0 .pf 0 ∧ W2.s3_0.blk.overridden 0 F.FLT_PIN_DRIVE = false := by decide +kernel

theorem meets_safeStates_strobes : Settled (W2.sq .strobes) ∧ (W2.sq .strobes).blk.flt.safeSeq = [(1000, .strobes)] ∧ DueNow (W2.sq .strobes) 1000 := by decide +kernel

def trk (ps run : Bool) : State :=
  let b := (W36.s3_3.blk.setFlag U.sync F.SYNC_CFG_TRK_EN true).setFld U.sync F.SYNC_TRK_CFG_ENGINE 3
  { W36.s3_3 with blk := (b.setEng 3 { b.eng 3 with psys := ps }).setFlag (U.ce 3) F.CE_USER_CTRL_RUN run }
theorem meets_zhovoSystemInstructions_tracker :
    (Issues (trk false true) 3 0 [] ∧ ((trk false true).blk.eng 3).sys = true ∧ ((trk false true).blk.eng 3).psys = false ∧ (trk false true).blk.trackerOn 3 = true) ∧
    (Issues (trk true false) 3 0 [] ∧ ((trk true false).blk.eng 3).sys = true ∧ ((trk true false).blk.eng 3).psys = true ∧ (trk true false).blk.trackerOn 3 = true ∧
      (trk true false).blk.flag (U.ce 3) F.CE_USER_CTRL_RUN = false) ∧
    W36.s3_3.blk.trackerOn 3 = false :=
  ⟨by decide +kernel, by decide +kernel, by decide +kernel⟩

/-- Passband 5 with a service port at head 7 and a staged BEAM that already holds there. -/
def beamAt (entry : Nat) : State := mk fun b =>
  let b := (W4.cbs 3 (W15.hdup 2 id b)).setFld (U.pb 5) F.PB_CB_ADDR_SIDE 1
  let b := (b.setFlag (U.pb 5) F.PB_CFG_BEAM_SV true).setReg (U.pb 5) R.PB_SV_TX0 (BitVec.ofNat 64 (0xC000 + 7 * 4))
  { b with ctxs := [(7, { state := Cue.staged, action := 0x11, target := U.pbd 10, stamp := stampOf 5001000, args := BitVec.ofNat 256 (entry * 65536) })] }
theorem meets_codebooksAndFilters_heads :
    (let s := beamAt 8
     s.blk.time.coll = [] ∧ Takes s .pf (U.pb 5) ∧ s.blk.fld (U.pb 5) F.PB_CB_ADDR_SIDE = 1 ∧ s.blk.pbHeads 5 = [7] ∧ s.blk.fld (U.pbd 10) F.PBD_BEAM_SV ≠ 9 ∧
      s.blk.fld (U.pbd 11) F.PBD_BEAM_SV ≠ 9 ∧ s.blk.fld (U.pb 5) F.PB_CB_ADDR_ENTRY = 9 ∧ Word.fld (s.blk.headBeam 10 7) 25 16 = 8 ∧ Word.fld (s.blk.headBeam 11 7) 25 16 ≠ 9) ∧
    (let s := beamAt 9
     s.blk.time.coll = [] ∧ Takes s .pf (U.pb 5) ∧ s.blk.fld (U.pb 5) F.PB_CB_ADDR_SIDE = 1 ∧ 7 ∈ s.blk.pbHeads 5 ∧ Word.fld (s.blk.headBeam 10 7) 25 16 = s.blk.fld (U.pb 5) F.PB_CB_ADDR_ENTRY) :=
  ⟨by decide +kernel, by decide +kernel⟩

def kept (s : State) : State := { s with blk := s.blk.setFlag 0 F.FLT_MODE_SAFE true }
def queued : State := W6.wm (mk (W6.c1 { cmdRunning := some (W6.fr, 1000), cmd := some W6.fr }))
def held (off : Bool) : State := W6.wm (mk fun b => let b := W6.c1 { waiting := some 9 } b; if off then b.setFlag (U.cc 1) (F.CC_RFFE_EN 1) false else b)
def framed : State := mk (W6.c1 { cmdRunning := some (W6.fr, 1200) })
theorem meets_frontEndBuses_waiting :
    (Takes (kept W6.s2_0) .pf (U.cc 1) ∧ (kept W6.s2_0).blk.time.coll = [] ∧ (kept W6.s2_0).blk.rffeStill = true ∧ Word.fld W6.fr 5 2 ≠ 0) ∧
    (Takes framed .pf (U.cc 1) ∧ framed.blk.time.coll = [] ∧ framed.blk.rffeStill = false ∧ (framed.blk.ccH 1).cmdRunning ≠ none ∧ (framed.blk.ccH 1).cmd = none ∧
      framed.blk.busOff 1 (Word.fld W6.fr 1 0) = false) ∧
    (Settled (held true) ∧ (held true).blk.rffeStill = false ∧ (∃ x ∈ seqBuses (held true).mem 9, (held true).blk.busOff x.1 x.2 = true) ∧ ((held true).blk.ccH 1).waiting = some 9) ∧
    (Settled (kept (held false)) ∧ (kept (held false)).blk.rffeStill = true) ∧
    (Settled queued ∧ (queued.blk.ccH 1).cmdRunning = some (W6.fr, 1000) ∧ (queued.blk.ccH 1).cmd = some W6.fr ∧ (queued.blk.ccH 1).running = [] ∧ queued.blk.rffeStill = false ∧
      queued.blk.busOff 1 (Word.fld W6.fr 1 0) = false ∧ DueNow queued 1000) :=
  ⟨by decide +kernel, by decide +kernel, by decide +kernel, by decide +kernel, by decide +kernel⟩

theorem meets_plannerAndObservation_still : (kept W6.s3_0).blk.rffeStill = true ∧ W6.s3_0.blk.rffeStill = false ∧ W6.s3_1.blk.rffeStill = false ∧
    ((kept W6.s3_0).blk.pbdH 7).pendingEntry = (W6.s3_0.blk.pbdH 7).pendingEntry ∧ Settled (kept W6.s3_0) := by decide +kernel

theorem meets_cuesAtFrontEnds_still : Acting (kept W8.s5_18) 7 0x32 0 ∧ ((kept W8.s5_18).blk.ctx 7).target = U.cc 3 ∧ (kept W8.s5_18).blk.rffeStill = true ∧
    W8.s5_18.blk.rffeStill = false ∧ W8.s5_21.blk.rffeStill = false := by decide +kernel

def behind : Swap := { W7.sw with ctx := 8, stamp := 5009000, started := false }
def two : State := mk fun b => W7.hbm (W7.ln 2 1 (fun h => { h with swaps := [W7.sw, behind] }) b)
def late : State := mk fun b => W7.hbm (W7.ln 2 1 (fun h => { h with swaps := [{ W7.sw with started := false }] }) b)
theorem meets_modelSwaps_next :
    (Settled two ∧ two.blk.lanePbd 5 < 128 ∧ two.blk.leaderOf 5 = none ∧ (two.blk.laneH 5).swaps = [W7.sw, behind] ∧ two.blk.slotWriting W7.sw.slot = false ∧
      (∀ y ∈ [behind], y.ctx ≠ W7.sw.ctx ∧ y.failed = false) ∧ behind.started = false) ∧
    (Settled late ∧ late.blk.lanePbd 5 < 128 ∧ late.blk.leaderOf 5 = none ∧ (late.blk.laneH 5).swaps = [{ W7.sw with started := false }] ∧ W7.sw.done = none ∧ W7.sw.late = false ∧
      DueNow late (late.blk.elapsedOfAir (W7.sw.stamp - 2048)) ∧ (∀ y ∈ late.blk.swapsDue 5, y.late = false → y.done = none → W7.sw.stamp ≤ y.stamp)) :=
  ⟨by decide +kernel, by decide +kernel⟩

theorem meets_adaptationBlocks_reference : W7.s1_1.blk.refMuted 5 = false := by decide +kernel

theorem meets_loopWrites_boundary : W12.s2_4.blk.flag 0 F.FLT_MODE_FATAL = false := by decide +kernel

abbrev fresh (s : State) : Prop := noRestart s 7
theorem meets_squalls_noRestart : fresh M2.squallCue ∧ fresh W8.s3_15 ∧ fresh W10.s1_1 ∧ fresh W10.s1_4 ∧ fresh W10.s1_6 ∧ fresh W10.s2_1 ∧ fresh W10.s3_0 ∧ fresh W10.s4_6 := by
  decide +kernel

def restarted : State := match execRestartAttempt 7 W10.s4_4 with | .next t => t | _ => State.reset
theorem meets_restartAndProbation_takenBack : restarted.blk.squalled 7 = false ∧ Takes restarted .pf (U.pbd 7) ∧ restarted.blk.time.coll = [] := by decide +kernel

end M4

namespace M4b

def head (st : Nat) (f : HdH → HdH) : State := mk fun b => (W15.dul (W15.bd 7 2 (W15.hdup st f b))).setFld (U.hd 7) F.HD_LAT_D_DL 42944
abbrev roomy (s : State) (h tp : Nat) : Prop := needs s h tp false + 64 ≤ s.blk.fld (U.hd h) F.HD_LAT_D_DL ∧ needs s h tp true + 64 ≤ s.blk.fld (U.hd h) F.HD_LAT_D_UL
theorem meets_headAdmission_admitted : let s := head 2 id
    Settled s ∧ s.blk.inReset = false ∧ NoGroups s ∧ ratesOk s 7 ∧ s.blk.fld (U.fh 2) F.FH_STAT_LINK = 2 ∧ s.blk.flag (U.hd 7) F.HD_BIND_V = true ∧ s.blk.reg (U.hd 7) R.HD_SERIAL = 77 ∧
      (∀ k, k < 512 → s.blk.flag (U.hd k) F.HD_BIND_V = true ∧ s.blk.reg (U.hd k) R.HD_SERIAL = 77 → k = 7) ∧ s.blk.fld (U.hd 7) F.HD_BIND_PORT = 2 ∧
      s.blk.ownState (U.hd 7) ∈ [1, 2, 5] ∧ s.blk.fld (U.hd 7) F.HD_HEAD_LAT_HEAD_DL = 3000 ∧ s.blk.fld (U.hd 7) F.HD_HEAD_LAT_HEAD_UL = 3500 ∧
      Reaches s 7 (s.blk.fld (U.hd 7) F.HD_PATH_TP) 100000 ∧ (s.blk.hdH 7).addDl = 0 ∧ (s.blk.hdH 7).addUl = 0 ∧ (s.blk.hdH 7).align = [] ∧ roomy s 7 (s.blk.fld (U.hd 7) F.HD_PATH_TP) := by
  decide +kernel

def asked (now : Nat) : State := endAt (5 * 10 ^ 9) (mk fun b => at_ now (W15.hdup 4 (fun x => { x with measuring := true, admitFrom := some 1000 }) b))
theorem meets_headLatency_bound : ∀ x ∈ [(1000 + 3932160000, true), (1001 + 3932160000, false)], let s := asked x.1
    Settled s ∧ s.blk.inReset = false ∧ NoGroups s ∧ ratesOk s 7 ∧ (s.blk.hdH 7).measuring = true ∧ s.blk.ownState (U.hd 7) = 4 ∧ (s.blk.hdH 7).admitFrom = some 1000 ∧
      decide (s.blk.t ≤ 1000 + 3932160000) = x.2 := by decide +kernel

theorem meets_headSupervision_notLive : (let s := head 0 id
    Settled s ∧ s.blk.inReset = false ∧ NoGroups s ∧ ratesOk s 7 ∧ s.blk.ownState (U.hd 7) ∉ [1, 2, 5] ∧ s.blk.ownState (U.hd 7) ≠ 3 ∧ (s.blk.hdH 7).port = some 2 ∧
      s.blk.fld (U.fh 2) F.FH_STAT_LINK = 2) ∧
    (W15.s5_0.blk.hdH 7).port = none :=
  ⟨by decide +kernel, by decide +kernel⟩

theorem meets_portLinks_idleLane : Settled W15.s1_1 ∧ W15.s1_1.blk.inReset = false ∧ ¬ W15.s1_1.blk.fld (U.fh 2) F.FH_LANE_FAILED / 2 ^ 8 % 2 = 1 ∧
    (∀ p, p < 8 → p / 4 = 0 → W15.s1_1.blk.fld (U.fh p) F.FH_LANE_FAILED = W15.s1_1.blk.fld (U.fh 2) F.FH_LANE_FAILED ∧ W15.s1_1.blk.fld (U.fh p) F.FH_LANE_PHY0 ≠ 8 ∧
      W15.s1_1.blk.fld (U.fh p) F.FH_LANE_PHY1 ≠ 8) := by decide +kernel

def off : Nat := W16.s1_1.blk.regionBase 4 + M3.off
def win : HbmBy := .window .pf
def winOut (f : Block → Block) : State := mk fun b => f (W16.ou 5 1 win 1 (W16.hsOn b))
def wrOut (l : List Nat) : State := mk fun b =>
  let b := W16.ue l (W16.ou 5 1 .writeBack 0 (W16.hsOn b))
  { b with hbm := { b.hbm with outst := Store.set 0 b.hbm.outst (hbmKey .writeBack 5 true) 1 } }
abbrev inWin (s : State) (o : Nat) : Prop := s.blk.regionBase 4 + s.blk.fld U.cel F.CEL_WIN_BASE * 2 ^ 24 ≤ o ∧ o < s.blk.regionBase 4 + s.blk.fld U.cel F.CEL_WIN_BASE * 2 ^ 24 + 2 ^ 24
theorem reaches_window (s : State) (o : Nat) (h : inWin s o) : reaches s win o := fun w e => by cases e; exact ⟨Or.inl rfl, h⟩
theorem reaches_other (s : State) (o : Nat) (r : HbmBy) (h : isWindow r = false) : reaches s r o := fun w e => by subst e; cases h
theorem reaches_not (s : State) (n o : Nat) : ¬ reaches s (.window (.vf n)) o := fun h => by
  rcases (h (.vf n) rfl).1 with e | e <;> cases e
theorem meets_hbmRequests_window :
    (off < 2 ^ 37 ∧ off / 256 % 64 = 5 ∧ inWin W16.s1_1 off ∧ serves W16.s1_1 5 ∧ ¬ inWin W16.s1_1 (off + 2 ^ 24)) ∧
    (Settled W16.s1_0 ∧ noTally W16.s1_0 ∧ inWin W16.s1_0 off ∧ ¬ serves W16.s1_0 5) ∧
    (let s := winOut id
     Settled s ∧ noTally s ∧ serves s 5 ∧ 0 < Store.get 0 s.blk.hbm.outst (hbmKey win 5 false) ∧ 0 < s.blk.fld (U.pc 5) F.PC_STAT_OUTST ∧ off / 32 ∉ s.blk.hbm.ue ∧ s.blk.hbm.waiting = []) ∧
    (let s := winOut (W16.ue [off / 32])
     Settled s ∧ noTally s ∧ serves s 5 ∧ 0 < Store.get 0 s.blk.hbm.outst (hbmKey win 5 false) ∧ off / 32 ∈ s.blk.hbm.ue) ∧
    (∀ l ∈ [[], [off / 32], [off / 32, 7]], Settled (wrOut l) ∧ noTally (wrOut l) ∧ serves (wrOut l) 5 ∧ 0 < Store.get 0 (wrOut l).blk.hbm.outst (hbmKey .writeBack 5 true) ∧
      0 < (wrOut l).blk.fld (U.pc 5) F.PC_STAT_OUTST ∧ (wrOut l).blk.hbm.waiting = []) :=
  ⟨by decide +kernel, by decide +kernel, by decide +kernel, by decide +kernel, by decide +kernel⟩

def scrubs (n : Nat) : State := W16.sc id fun b => b.setFld (U.pc 5) F.PC_STAT_OUTST n
theorem meets_hbmErrors_scrub : ∀ x ∈ [(63, true), (64, false)], let s := scrubs x.1
    Settled s ∧ noTally s ∧ s.blk.inReset = false ∧ 0 < s.blk.fld (U.hs 0) F.HS_SCRUB_HOURS ∧ serves s 5 ∧
      DueNow s ((s.blk.pcH 5).scrubAt + s.blk.fld (U.hs 0) F.HS_SCRUB_HOURS * 7077888000000 / 2 ^ 26) ∧ decide (s.blk.fld (U.pc 5) F.PC_STAT_OUTST < 64) = x.2 ∧ outstanding s < 4096 ∧
      (s.blk.pcH 5).repair = none ∧ s.blk.hbm.waiting = [] := by decide +kernel

def entry (n ix : Nat) : Word := BitVec.ofNat 64 (2 ^ 63 + 2 + ix * 256 + n * 2 ^ 24)
abbrev soundEntry (v : Word) : Prop := 1 ≤ v.toNat / 2 ^ 24 % 64 ∧ v.toNat / 2 ^ 24 % 64 ≤ 32 ∧ (v.toNat % 4 = 2 → v.toNat / 2 ^ 8 % 128 < 32)
theorem meets_cellarControl_entries : soundEntry (entry 1 31) ∧ soundEntry (entry 32 31) ∧ ¬ soundEntry (entry 0 31) ∧ ¬ soundEntry (entry 33 31) ∧ ¬ soundEntry (entry 1 32) := by
  decide +kernel

theorem meets_monitorTriggers_burst : let s := M3.begun (.reg 0) 2
    s.blk.fld U.mon F.MON_BURST_CH < 35 ∧ s.blk.flag U.mon F.MON_BURST_ILV = false := by decide +kernel

def loops (act : Nat) (f : MonH → MonH) : State := mk fun b => W17b.w1 4 5 (W17b.mo 2 act f b)
abbrev turn (s : State) : Prop := Settled s ∧ s.blk.time.running = true ∧ s.blk.monWants 4 = true ∧ (∀ j, j < 4 → s.blk.monWants j = false) ∧ s.blk.mon.urgentAt ≠ some s.blk.t ∧
  s.blk.actFld (U.pbd 4) F.LOOP_SUPV_MON_CH < 35 ∧ s.blk.ownState U.mon = 2
theorem meets_monitorTriggers_loops :
    (let s := loops 2 fun h => { h with begun := some (1000, 7), cv := some { src := .reg 3 } }
     turn s ∧ s.blk.mon.begun = some (s.blk.t, 7) ∧ s.blk.mon.cv.map (·.src) = some (.reg 3)) ∧
    (∀ l ∈ [[], [none]], let s := loops 2 fun h => { h with waiting := l }
     turn s ∧ s.blk.mon.begun = none ∧ s.blk.fld U.mon F.MON_STAT_ACT = 2 ∧ (∀ x ∈ s.blk.mon.waiting, x = none)) ∧
    (let s := loops 2 fun h => { h with waiting := [some 2] }
     turn s ∧ s.blk.mon.begun = none ∧ s.blk.fld U.mon F.MON_STAT_ACT = 2 ∧ ∃ x ∈ s.blk.mon.waiting, x ≠ none) ∧
    (∀ a ∈ [1, 3, 4], turn (loops a id) ∧ (loops a id).blk.mon.begun = none ∧ (loops a id).blk.fld U.mon F.MON_STAT_ACT = a) :=
  ⟨by decide +kernel, by decide +kernel, by decide +kernel, by decide +kernel⟩

def conv (src : MonSrc) (f : MonH → MonH) : State := mk fun b => W18.chs 5 (W18.mo 2 (fun h => f { h with cv := some (W18.cv0 src false) }) b)
abbrev ends (s : State) (src : MonSrc) : Prop := Settled s ∧ s.blk.time.running = true ∧ s.blk.mon.cv = some (W18.cv0 src false) ∧ (W18.cv0 src false).chan < 35 ∧
  DueNow s (tcAfter ((W18.cv0 src false).start + 1228800))
theorem meets_monitorResults_requests :
    (let s := conv (.loop 7) fun h => { h with reqs := [4, 9] }
     ends s (.loop 7) ∧ s.blk.mon.waiting = [] ∧ s.blk.mon.reqs = [4, 9]) ∧
    (let s := conv .single fun h => { h with held := true }
     ends s .single ∧ s.blk.mon.held = true ∧ s.blk.mon.waiting = [] ∧ s.blk.mon.reqs = [] ∧ s.blk.mon.suspended = none ∧ s.blk.fld U.mon (F.MON_REG_CH 0) < 35) ∧
    (∀ x ∈ [(MonSrc.single, true), (.burst 5, true), (.reg 0, false)], let s := conv x.1 fun h => { h with rotDue := x.2 }
     ends s x.1 ∧ s.blk.mon.rotDue = x.2 ∧ s.blk.flag U.mon F.MON_STAT_CAL_FROZEN = false ∧ max 1 (min 1024 (s.blk.fld U.mon F.MON_BURST_COUNT)) ≤ 6) :=
  ⟨by decide +kernel, by decide +kernel, by decide +kernel⟩

def free : State := endAt (10 ^ 9) (mk fun b => (W19.warm 0 b).setMon fun h => { h with cv := none })
theorem meets_monitorService_free : W19.s1_3.blk.mon.cv ≠ none ∧ Settled free ∧ free.blk.inReset = false ∧ NoGroups free ∧ free.blk.mon.cv = none ∧
    free.blk.flag U.mon F.MON_REF_EN_WARM = true ∧ DueNow free (free.blk.mon.rotateAt + 196608000) ∧ free.blk.flag U.mon F.MON_STAT_CAL_FROZEN = false := by decide +kernel

def fault (last : Nat) : State := endAt last (mk fun b =>
  let b := run b
  W20.inc [{ typ := 0x01, uid := 0x105, words := [0, b.cycleStamp], excl := [1] }] id b)
theorem meets_recorderEvents_open :
    (Settled (fault 1004) ∧ (fault 1004).blk.recOpen = true ∧ (fault 1004).blk.time.tickEnd ≤ (fault 1004).blk.t + 4 - (fault 1004).blk.time.air % 4) ∧
    W20.s1_1.blk.recOpen = false ∧ W20.s1_7.blk.recOpen = false ∧ W20.s1_9.blk.recOpen = false :=
  ⟨by decide +kernel, by decide +kernel, by decide +kernel, by decide +kernel⟩

def vecs : Word := BitVec.ofNat 64 (5 + 129 * 2 ^ 16)
theorem meets_vectorsAndRoutes_clamp : W24.s1_0.blk.flag 0 F.HOST_VEC_LOCKED = false ∧ Word.fld vecs 23 16 = 129 ∧ Word.fld vecs 25 25 = 0 ∧ Word.fld vecs 11 0 = 5 ∧
    5 + W24.s1_0.blk.fld 0 F.HOST_PCIE_NUM_VFS * 128 ≤ 2048 := by decide +kernel

end M4b

end Sys2Proof.Tests
end

