-- ==== Sys2Proof/WellFormed.lean ====
section
/-! DEFINITION.
Well-formed commands: every operand lies in the range that the spec gives it. -/
namespace Sys2Proof

/-- A writer that exists: a VF is 1 to 16, an engine 0 to 31 or the warden's 32. -/
def Who.wf (w : Who) : Bool :=
  match w with
  | .vf k => 1 ≤ k && k ≤ 16
  | .engine n _ => n < 33
  | .cue c r _ => c < 4 && r < 16384
  | _ => true

/-- A requester and its direction that exist (R287): prefetches, window reads and scrub reads read, write-backs write. -/
def HbmBy.wf (x : HbmBy) (wr : Bool) : Bool :=
  match x with
  | .model | .scrub => !wr
  | .window who => who.wf && !wr
  | .writeBack => wr
  | _ => true

/-- A PTP header whose domain and port identity fit. -/
def PtpHead.wf (x : PtpHead) : Bool := x.dom < 256 && decide (x.src < 2 ^ 80)

/-- An Announce whose fields fit. -/
def PtpAnnounce.wf (x : PtpAnnounce) : Bool :=
  x.cls < 256 && x.acc < 256 && x.var < 65536 && x.prio2 < 256 && decide (x.gm < 2 ^ 64) && x.steps < 65536

/-- A 16-bit UID. -/
def uidWf (u : Nat) : Bool := u < 65536

/-- Every operand of a command lies in its range. -/
def Instr.wf (i : Instr) : Bool :=
  match i with
  | .registerWrite who u off _ _ => who.wf && uidWf u && off < 1024
  | .regAlign who _ u => who.wf && uidWf u
  | .enable who u _ => who.wf && uidWf u
  | .fenceReq who u => who.wf && uidWf u
  | .unfenceReq who u => who.wf && uidWf u
  | .selftestDone u _ => uidWf u
  | .powerReq who u _ => who.wf && uidWf u
  | .testReq who u _ => who.wf && uidWf u
  | .rampDownDone u => uidWf u
  | .unitFaultClear who u _ => who.wf && uidWf u
  | .cntClr who u => who.wf && uidWf u
  | .grpAdd who g u => who.wf && uidWf g && uidWf u
  | .grpRemove who g u => who.wf && uidWf g && uidWf u
  | .grpRemoveAll who g u => who.wf && uidWf g && uidWf u
  | .tickBoundary => true
  | .refclkQualify => true
  | .refclkQualTimeout => true
  | .refLost _ => true
  | .trkBurstDecode back sfn _ pci ssb _ _ => back < 19660800 && sfn < 1024 && pci < 1024 && ssb < 64
  | .trkBurstMissed => true
  | .ppsEdge _ => true
  | .ppsTimeout => true
  | .syncTodWrite who _ _ => who.wf
  | .ptpSyncRx port head _ sec ns _ => port < 8 && head.wf && sec < 281474976710656 && ns < 1000000000
  | .ptpAnnounceRx port head told => port < 8 && head.wf && told.wf
  | .ptpAnnounceTimeout => true
  | .syncHoldoffExpiry => true
  | .resync who => who.wf
  | .syncCfgWrite who _ _ => who.wf
  | .timeStepApply => true
  | .opsecSecond => true
  | .syncWallWrite who _ _ => who.wf
  | .tddCommit who n _ => who.wf && n < 64
  | .tddPatternApply n => n < 64
  | .pbCbDataWrite who n _ _ => who.wf && n < 64
  | .beamWrite who m _ _ => who.wf && m < 128
  | .fbankWrite who m _ => who.wf && m < 128
  | .fcoefWrite who m _ _ => who.wf && m < 128
  | .ncoWrite who m _ _ _ => who.wf && m < 128
  | .retuneStart m => m < 128
  | .retuneNcoSwitch m => m < 128
  | .retuneRefilled m => m < 128
  | .retuneDone m => m < 128
  | .extInitSettled m => m < 128
  | .plannerSeqStart m => m < 128
  | .rxcOverrange k => k < 32
  | .rxcOvrEpisodeEnd k => k < 32
  | .directionSeqStep n => n < 64
  | .bgCalHandover k _ _ => k < 32
  | .calRestoreDone u bad _ => uidWf u && bad < 131072
  | .foregroundCalDone u _ bad => uidWf u && bad < 131072
  | .rxcPipelineFilled k => k < 32
  | .muteSeqStep k => k < 32
  | .ccClkLost c => c < 4
  | .syHopGo who k e => who.wf && k < 8 && e < 4096
  | .syHopSave who k => who.wf && k < 8
  | .syCalWrite who k _ _ _ => who.wf && k < 8
  | .syLockAcquired k band trim lf => k < 8 && band < 256 && trim < 64 && lf < 65536
  | .syCalTimeout k => k < 8
  | .syLockTimeout k => k < 8
  | .syUnlock k => k < 8
  | .stbCfgWrite who c i _ _ => who.wf && c < 4 && i < 32
  | .ccSeqGo who c seq => who.wf && c < 4 && seq < 256
  | .rffeHeldStart c => c < 4
  | .rffeSeqDone c => c < 4
  | .rffeCmd who c _ _ => who.wf && c < 4
  | .rffeFrameDone c data _ => c < 4 && data < 4294967296
  | .ccSeqDataWrite who c _ _ => who.wf && c < 4
  | .rffeDivWrite who c x d => who.wf && c < 4 && x < 4 && d < 2048
  | .orxRunWrite who o _ => who.wf && o < 8
  | .orxDwellAdvance o => o < 8
  | .orxSettleEnd o => o < 8
  | .laneBlockEnd i _ _ _ => i < 264
  | .laneTrackWindow i => i < 264
  | .laneDiverge i => i < 264
  | .modelPrefetchStart i x => i < 264 && x < 262144
  | .modelPrefetchDone i _ => i < 264
  | .modelSwapDeadline i => i < 264
  | .modelSwap i => i < 264
  | .modelDeferredSwap i => i < 264
  | .modelWriteDone i => i < 264
  | .laneResume who i => who.wf && i < 264
  | .laneZero who i => who.wf && i < 264
  | .laneSave who i => who.wf && i < 264
  | .mbDataWrite who k _ _ => who.wf && k < 8
  | .mbDataRead who k _ => who.wf && k < 8
  | .setValid who k slot => who.wf && k < 8 && slot < 262144
  | .clearValid who k slot => who.wf && k < 8 && slot < 262144
  | .clearAllValid who k => who.wf && k < 8
  | .mbAccessDone k => k < 8
  | .tapDataWrite who i _ _ => who.wf && i < 264
  | .tapDataRead who i => who.wf && i < 264
  | .dlyUnderrun i => i < 264
  | .probePublish m paths _ n => m < 128 && 0 < n && paths.all fun y => y.1 < 8 && y.2.1 < 8
  | .loopPoolClose => true
  | .loopDeadline m => m < 128
  | .plausibility m => m < 128
  | .lullDlClear m => m < 128
  | .clrPlaus who m => who.wf && m < 128
  | .rampStart who m => who.wf && m < 128
  | .rampStop who m => who.wf && m < 128
  | .clipBackoffStart m => m < 128
  | .clipBackoffEnd m => m < 128
  | .tuneReq who m l _ => who.wf && m < 128 && l < 8
  | .autotuneDone m l => m < 128 && l < 8
  | .autotuneAbort m l => m < 128 && l < 8
  | .loopRegWrite who m off _ _ => who.wf && m < 128 && off < 1024
  | .lutWrite who _ _ => who.wf
  | .lePeakClr who => who.wf
  | .mcOutput c _ _ _ => c < 320
  | .msyncNEdge => true
  | .mcSync who c => who.wf && c < 320
  | .decimResetApply => true
  | .peakClr who c => who.wf && c < 320
  | .mcConfigWrite who c off _ _ => who.wf && c < 320 && off < 1024
  | .oscBlock m slots delay => m < 128 && slots.all (fun x => x.length == 64) && delay ≤ 1024
  | .squallSeqStep m => m < 129
  | .emwBlock o bins full => o < 8 && bins.length ≤ 2048 && 0 < full
  | .overloadTrip m => m < 128
  | .squall who m => who.wf && m < 128
  | .unsquall who m => who.wf && m < 128
  | .restart who m => who.wf && m < 128
  | .flRedo who m => who.wf && m < 128
  | .moduleSquall who => who.wf
  | .moduleUnsquall who => who.wf
  | .muteNLow => true
  | .muteNRelease => true
  | .restartDue m => m < 128
  | .restartAttempt m => m < 128
  | .probationEnd m => m < 128
  | .nrgPlStale m => m < 128
  | .flMeasureTimeout m => m < 128
  | .flTrainEnd m => m < 128
  | .add n pr wd wa wb => n < 33 && pr < 8 && wd < 32 && wa < 32 && wb < 32
  | .sub n pr wd wa wb => n < 33 && pr < 8 && wd < 32 && wa < 32 && wb < 32
  | .and n pr wd wa wb => n < 33 && pr < 8 && wd < 32 && wa < 32 && wb < 32
  | .or n pr wd wa wb => n < 33 && pr < 8 && wd < 32 && wa < 32 && wb < 32
  | .xor n pr wd wa wb => n < 33 && pr < 8 && wd < 32 && wa < 32 && wb < 32
  | .andn n pr wd wa wb => n < 33 && pr < 8 && wd < 32 && wa < 32 && wb < 32
  | .shl n pr wd wa wb => n < 33 && pr < 8 && wd < 32 && wa < 32 && wb < 32
  | .shr n pr wd wa wb => n < 33 && pr < 8 && wd < 32 && wa < 32 && wb < 32
  | .sar n pr wd wa wb => n < 33 && pr < 8 && wd < 32 && wa < 32 && wb < 32
  | .mul n pr wd wa wb => n < 33 && pr < 8 && wd < 32 && wa < 32 && wb < 32
  | .mulh n pr wd wa wb => n < 33 && pr < 8 && wd < 32 && wa < 32 && wb < 32
  | .minS n pr wd wa wb => n < 33 && pr < 8 && wd < 32 && wa < 32 && wb < 32
  | .maxS n pr wd wa wb => n < 33 && pr < 8 && wd < 32 && wa < 32 && wb < 32
  | .minu n pr wd wa wb => n < 33 && pr < 8 && wd < 32 && wa < 32 && wb < 32
  | .maxu n pr wd wa wb => n < 33 && pr < 8 && wd < 32 && wa < 32 && wb < 32
  | .clz n pr wd wa wb => n < 33 && pr < 8 && wd < 32 && wa < 32 && wb < 32
  | .popc n pr wd wa wb => n < 33 && pr < 8 && wd < 32 && wa < 32 && wb < 32
  | .extr n pr wd wa wb => n < 33 && pr < 8 && wd < 32 && wa < 32 && wb < 32
  | .movq n pr wd wa wb => n < 33 && pr < 8 && wd < 32 && wa < 32 && wb < 32
  | .airadd n pr wd wa wb => n < 33 && pr < 8 && wd < 32 && wa < 32 && wb < 32
  | .airdif n pr wd wa wb => n < 33 && pr < 8 && wd < 32 && wa < 32 && wb < 32
  | .hiQ n pr wd wa wb => n < 33 && pr < 8 && wd < 32 && wa < 32 && wb < 32
  | .join n pr wd wa wb => n < 33 && pr < 8 && wd < 32 && wa < 32 && wb < 32
  | .cmpEq n pr wd wa wb => n < 33 && pr < 8 && wd < 32 && wa < 32 && wb < 32
  | .cmpNe n pr wd wa wb => n < 33 && pr < 8 && wd < 32 && wa < 32 && wb < 32
  | .cmpLt n pr wd wa wb => n < 33 && pr < 8 && wd < 32 && wa < 32 && wb < 32
  | .cmpLe n pr wd wa wb => n < 33 && pr < 8 && wd < 32 && wa < 32 && wb < 32
  | .cmpLtu n pr wd wa wb => n < 33 && pr < 8 && wd < 32 && wa < 32 && wb < 32
  | .cmpLeu n pr wd wa wb => n < 33 && pr < 8 && wd < 32 && wa < 32 && wb < 32
  | .pand n pr wd wa wb => n < 33 && pr < 8 && wd < 32 && wa < 32 && wb < 32
  | .por n pr wd wa wb => n < 33 && pr < 8 && wd < 32 && wa < 32 && wb < 32
  | .pxor n pr wd wa wb => n < 33 && pr < 8 && wd < 32 && wa < 32 && wb < 32
  | .pandn n pr wd wa wb => n < 33 && pr < 8 && wd < 32 && wa < 32 && wb < 32
  | .mfs n pr wd wa wb k => n < 33 && pr < 8 && wd < 32 && wa < 32 && wb < 32 && k < 32
  | .mts n pr wd wa wb k => n < 33 && pr < 8 && wd < 32 && wa < 32 && wb < 32 && k < 32
  | .addi n pr wd wa imm => n < 33 && pr < 8 && wd < 32 && wa < 32 && imm < 8192
  | .andi n pr wd wa imm => n < 33 && pr < 8 && wd < 32 && wa < 32 && imm < 8192
  | .ori n pr wd wa imm => n < 33 && pr < 8 && wd < 32 && wa < 32 && imm < 8192
  | .xori n pr wd wa imm => n < 33 && pr < 8 && wd < 32 && wa < 32 && imm < 8192
  | .shli n pr wd wa imm => n < 33 && pr < 8 && wd < 32 && wa < 32 && imm < 8192
  | .shri n pr wd wa imm => n < 33 && pr < 8 && wd < 32 && wa < 32 && imm < 8192
  | .sari n pr wd wa imm => n < 33 && pr < 8 && wd < 32 && wa < 32 && imm < 8192
  | .cati n pr wd wa imm => n < 33 && pr < 8 && wd < 32 && wa < 32 && imm < 8192
  | .cmpi n pr wd wa imm => n < 33 && pr < 8 && wd < 32 && wa < 32 && imm < 8192
  | .ladd n pr wd wa wb view => n < 33 && pr < 8 && wd < 32 && wa < 32 && wb < 32 && view < 4
  | .lsub n pr wd wa wb view => n < 33 && pr < 8 && wd < 32 && wa < 32 && wb < 32 && view < 4
  | .ladds n pr wd wa wb view => n < 33 && pr < 8 && wd < 32 && wa < 32 && wb < 32 && view < 4
  | .lsubs n pr wd wa wb view => n < 33 && pr < 8 && wd < 32 && wa < 32 && wb < 32 && view < 4
  | .lmul n pr wd wa wb view => n < 33 && pr < 8 && wd < 32 && wa < 32 && wb < 32 && view < 4
  | .lmulq n pr wd wa wb view => n < 33 && pr < 8 && wd < 32 && wa < 32 && wb < 32 && view < 4
  | .lmin n pr wd wa wb view => n < 33 && pr < 8 && wd < 32 && wa < 32 && wb < 32 && view < 4
  | .lmax n pr wd wa wb view => n < 33 && pr < 8 && wd < 32 && wa < 32 && wb < 32 && view < 4
  | .lshl n pr wd wa wb view => n < 33 && pr < 8 && wd < 32 && wa < 32 && wb < 32 && view < 4
  | .lshr n pr wd wa wb view => n < 33 && pr < 8 && wd < 32 && wa < 32 && wb < 32 && view < 4
  | .lsar n pr wd wa wb view => n < 33 && pr < 8 && wd < 32 && wa < 32 && wb < 32 && view < 4
  | .lbcst n pr wd wa wb view => n < 33 && pr < 8 && wd < 32 && wa < 32 && wb < 32 && view < 4
  | .labs n pr wd wa wb view => n < 33 && pr < 8 && wd < 32 && wa < 32 && wb < 32 && view < 4
  | .cmul n pr wd wa wb => n < 33 && pr < 8 && wd < 32 && wa < 32 && wb < 32
  | .cmac n pr wd wa wb => n < 33 && pr < 8 && wd < 32 && wa < 32 && wb < 32
  | .cmulj n pr wd wa wb => n < 33 && pr < 8 && wd < 32 && wa < 32 && wb < 32
  | .cmacj n pr wd wa wb => n < 33 && pr < 8 && wd < 32 && wa < 32 && wb < 32
  | .cscal n pr wd wa wb => n < 33 && pr < 8 && wd < 32 && wa < 32 && wb < 32
  | .cpow n pr wd wa wb => n < 33 && pr < 8 && wd < 32 && wa < 32 && wb < 32
  | .csum n pr wd wa wb => n < 33 && pr < 8 && wd < 32 && wa < 32 && wb < 32
  | .bfpack n pr wd wa wb => n < 33 && pr < 8 && wd < 32 && wa < 32 && wb < 32
  | .bfunlo n pr wd wa wb => n < 33 && pr < 8 && wd < 32 && wa < 32 && wb < 32
  | .bfunhi n pr wd wa wb => n < 33 && pr < 8 && wd < 32 && wa < 32 && wb < 32
  | .bfnorm n pr wd wa wb => n < 33 && pr < 8 && wd < 32 && wa < 32 && wb < 32
  | .bfchk n pr wd wa wb => n < 33 && pr < 8 && wd < 32 && wa < 32 && wb < 32
  | .bfflag n pr wd wa wb => n < 33 && pr < 8 && wd < 32 && wa < 32 && wb < 32
  | .ld n pr wd wa imm => n < 33 && pr < 8 && wd < 32 && wa < 32 && imm < 8192
  | .st n pr wd wa imm => n < 33 && pr < 8 && wd < 32 && wa < 32 && imm < 8192
  | .lds n pr wd wa imm => n < 33 && pr < 8 && wd < 32 && wa < 32 && imm < 8192
  | .sts n pr wd wa imm => n < 33 && pr < 8 && wd < 32 && wa < 32 && imm < 8192
  | .dmago n pr wd wa wb => n < 33 && pr < 8 && wd < 32 && wa < 32 && wb < 32
  | .dmagoWake n => n < 33
  | .dmaDone n tag _ _ => n < 33 && tag < 16
  | .dmawait n pr wd wa wb => n < 33 && pr < 8 && wd < 32 && wa < 32 && wb < 32
  | .dmawaitWake n => n < 33
  | .dmapoll n pr wd wa wb => n < 33 && pr < 8 && wd < 32 && wa < 32 && wb < 32
  | .uget n pr wd wa wb => n < 33 && pr < 8 && wd < 32 && wa < 32 && wb < 32
  | .ugetDone n => n < 33
  | .uput n pr wd wa wb => n < 33 && pr < 8 && wd < 32 && wa < 32 && wb < 32
  | .uputWake n => n < 33
  | .uputArrive n => n < 33
  | .rpopB n pr wd wa wb cur => n < 33 && pr < 8 && wd < 32 && wa < 32 && wb < 32 && cur < 8
  | .rpopN n pr wd wa wb cur => n < 33 && pr < 8 && wd < 32 && wa < 32 && wb < 32 && cur < 8
  | .rpopWake n _ _ => n < 33
  | .rpushB n pr wd wa wb cur => n < 33 && pr < 8 && wd < 32 && wa < 32 && wb < 32 && cur < 8
  | .rpushN n pr wd wa wb cur => n < 33 && pr < 8 && wd < 32 && wa < 32 && wb < 32 && cur < 8
  | .rpushWake n => n < 33
  | .br n pr off => n < 33 && pr < 8 && off < 8388608
  | .call n pr off => n < 33 && pr < 8 && off < 8388608
  | .jr n pr wd wa wb => n < 33 && pr < 8 && wd < 32 && wa < 32 && wb < 32
  | .jrl n pr wd wa wb => n < 33 && pr < 8 && wd < 32 && wa < 32 && wb < 32
  | .trap n pr wd wa wb => n < 33 && pr < 8 && wd < 32 && wa < 32 && wb < 32
  | .syscall n pr wd wa wb => n < 33 && pr < 8 && wd < 32 && wa < 32 && wb < 32
  | .eret n pr wd wa wb => n < 33 && pr < 8 && wd < 32 && wa < 32 && wb < 32
  | .fenceZ n pr wd wa wb => n < 33 && pr < 8 && wd < 32 && wa < 32 && wb < 32
  | .fenceWake n => n < 33
  | .kick n pr wd wa wb => n < 33 && pr < 8 && wd < 32 && wa < 32 && wb < 32
  | .halt n pr wd wa wb => n < 33 && pr < 8 && wd < 32 && wa < 32 && wb < 32
  | .trace n pr wd wa imm => n < 33 && pr < 8 && wd < 32 && wa < 32 && imm < 8192
  | .waitat n pr wd wa wb => n < 33 && pr < 8 && wd < 32 && wa < 32 && wb < 32
  | .waitatWake n => n < 33
  | .arm n pr wd wa wb => n < 33 && pr < 8 && wd < 32 && wa < 32 && wb < 32
  | .armWake n => n < 33
  | .armn n pr wd wa wb => n < 33 && pr < 8 && wd < 32 && wa < 32 && wb < 32
  | .armp n pr wd wa wb => n < 33 && pr < 8 && wd < 32 && wa < 32 && wb < 32
  | .fire n pr wd wa wb => n < 33 && pr < 8 && wd < 32 && wa < 32 && wb < 32
  | .swapmodel n pr wd wa wb => n < 33 && pr < 8 && wd < 32 && wa < 32 && wb < 32
  | .disarm n pr wd wa wb => n < 33 && pr < 8 && wd < 32 && wa < 32 && wb < 32
  | .armc n pr wd wa wb => n < 33 && pr < 8 && wd < 32 && wa < 32 && wb < 32
  | .watchdogExpiry n => n < 33
  | .hostReqTake n => n < 33
  | .userStart who n => who.wf && n < 32
  | .userStop who n => who.wf && n < 32
  | .imemWrite who n _ _ => who.wf && n < 32
  | .imemRead who n => who.wf && n < 32
  | .dmemWrite who n _ _ => who.wf && n < 32
  | .dmemRead who n _ => who.wf && n < 32
  | .cueRingPop _ _ => true
  | .cueStage => true
  | .cueShadowAck x => x < 262144
  | .cueWait x => x < 262144
  | .cueIssue => true
  | .cueEffect x => x < 262144
  | .cueRetire x => x < 262144
  | .cueMark x => x < 262144
  | .cueWrite x => x < 262144
  | .cueEnable x => x < 262144
  | .cuePower x => x < 262144
  | .cueFence x => x < 262144
  | .cueDirection x => x < 262144
  | .cueBeam x => x < 262144
  | .cueFbank x => x < 262144
  | .cueRetune x => x < 262144
  | .cueCap x => x < 262144
  | .cueLull x => x < 262144
  | .cueSquall x => x < 262144
  | .cueUnsquall x => x < 262144
  | .cueRestart x => x < 262144
  | .cueSwapmodel x => x < 262144
  | .cueMsync x => x < 262144
  | .cueHop x => x < 262144
  | .cueStrobe x => x < 262144
  | .cueRffe x => x < 262144
  | .cueModsquall x => x < 262144
  | .dspCancel who x => who.wf && x < 262144
  | .dspPeakClr who => who.wf
  | .doorbell who r v => who.wf && r < 16384 && v < 4294967296
  | .ringDescriptorWrite who off _ _ => who.wf && (off == 0x098 || off == 0x0A0 || off == 0x0B0)
  | .fhTrainingDone q => q < 8
  | .fhTrainTimeout q => q < 8
  | .fhFecLoss q => q < 8
  | .fhLaneFail g l => g < 2 && l < 9
  | .fhIqFrameRx q h _ _ _ _ _ _ => q < 8 && h < 512
  | .fhUlSampleMissing h f => h < 512 && f < 32
  | .fhOtherFrameRx q _ _ _ => q < 8
  | .helloRx q _ _ ports fmt rates dl ul dmax => q < 8 && ports < 8 && fmt < 4 && rates < 32 && dl < 16777216 && ul < 16777216 && dmax < 2097152
  | .statusRx h _ _ _ _ => h < 512
  | .beatSend => true
  | .hdLossTimeout h => h < 512
  | .hdAdmitTimeout h => h < 512
  | .hdRealignReq who h => who.wf && h < 512
  | .hdGpioWrite who hd _ _ => who.wf && hd < 512
  | .hbmRequest by_ o wr => by_.wf wr && o < 137438953472
  | .hbmComplete by_ o wr ecc => by_.wf wr && o < 137438953472 && ecc.err < 3 && ecc.row < 137438953472
  | .softRepairDone i => i < 64
  | .patrolScrub i err row => i < 64 && err < 3 && row < 137438953472
  | .pcPeakClr who i => who.wf && i < 64
  | .cellarRun who _ => who.wf
  | .celFreeze who => who.wf
  | .celRearm who => who.wf
  | .rplStart who => who.wf
  | .rplStop who => who.wf
  | .cellarIntervalEnd _ => true
  | .cellarRecordWritten => true
  | .replayBegin => true
  | .replayFeed => true
  | .celSdataWrite who _ _ => who.wf
  | .monGo who => who.wf
  | .monBurst who => who.wf
  | .monTrigSeq who => who.wf
  | .monTrigInj who => who.wf
  | .monTrigNFall => true
  | .monPeriodicTimer => true
  | .monSupvRequest m => m < 128
  | .monConversionDone code _ _ => code < 4096
  | .monRefEnWrite who _ => who.wf
  | .monRefWarm => true
  | .monDataRead who _ => who.wf
  | .monBufRead who _ => who.wf
  | .monSliceRotate f => f < 4
  | .monDropClr who => who.wf
  | .tsSample raws => (raws.length == 48)
  | .kilnStep => true
  | .thermCeilRise => true
  | .kilnOrderlyStep => true
  | .kilnResume who => who.wf
  | .domainTransitionDone d => d < 80
  | .domainTimeout d => d < 80
  | .switchedRailFail r => r < 3
  | .faultRaise u code path => uidWf u && code < 256 && path < 64
  | .safeStateStep => true
  | .safeClr who => who.wf
  | .firstClr who => who.wf
  | .bistRun who => who.wf
  | .faultPinDriveWrite who _ => who.wf
  | .faultPulseEnd => true
  | .fltInjGo who => who.wf
  | .recEvent => true
  | .recWriteDone => true
  | .recClear who => who.wf
  | .recClearDone => true
  | .tallySweep who => who.wf
  | .tallyPeriodic => true
  | .tallyCapture => true
  | .tallySweepDone => true
  | .tallyClr who => who.wf
  | .tallyCcfgWrite who _ _ => who.wf
  | .tallyBufRead who _ => who.wf
  | .tracerClr who t => who.wf && t < 4
  | .nonceReq who => who.wf
  | .tokenWrite who _ _ => who.wf
  | .debugUnlock who => who.wf
  | .keyVendor who => who.wf
  | .keyOwner who => who.wf
  | .keySite who => who.wf
  | .lifecycle mode => mode < 4
  | .legacyBit who => who.wf
  | .hardRepair who => who.wf
  | .stgOpen who => who.wf
  | .stgDataWrite who _ _ => who.wf
  | .stgClose who => who.wf
  | .stgVerifyDone => true
  | .stgAbort who => who.wf
  | .stgSessionExpiry => true
  | .stgActivate who => who.wf
  | .coastPhaseDone _ => true
  | .stgCommit who => who.wf
  | .autoCommit => true
  | .stgRevert who => who.wf
  | .saveSet who => who.wf
  | .saveCal who => who.wf
  | .saveDone => true
  | .perstNAssert => true
  | .perstNRelease speed width => (decide (1 ≤ speed) && decide (speed ≤ 5)) && ([1, 2, 4, 8].contains width)
  | .flrVf k => (decide (1 ≤ k) && decide (k ≤ 16))
  | .flrPf => true
  | .hostVecWrite who _ _ => who.wf
  | .hostRouteWrite who _ _ => who.wf
  | .msixTableWrite func j d _ => func < 17 && j < 2048 && d < 4
  | .hostUrst who u => who.wf && u < 65536
  | .hostReadTimeout n tag _ => n < 34 && tag < 17
  | .pcieErr => true
  | .mspiRead u off crc => u < 65536 && off < 65536 && crc < 256
  | .mspiWrite u off _ crc => u < 65536 && off < 65536 && crc < 256
  | .mspiReadWin u off crc => u < 65536 && off < 65536 && crc < 256
  | .mspiId u off crc => u < 65536 && off < 65536 && crc < 256
  | .porNAssert => true
  | .rstNAssert => true
  | .porNRelease mode => mode < 4
  | .rstNRelease mode => mode < 4
  | .vddAoPowerUp => true
  | .vddAoRemoval => true
  | .aoRailDrop => true
  | .startupPhaseDone fails va vb => (fails.all fun x => decide (x.1 < 65536) && decide (x.2.1 < 256) && decide (x.2.2 < 64)) && va < 3 && vb < 3
  | .aoRailReturn mode => mode < 4
  | .hdStatusStale h => h < 512
  | .hdLatencyMeasured h tp => h < 512 && tp < 16777216
  | .secApply who => who.wf
  | .mspiBadCmd cmd => (decide (cmd < 256) && (cmd == 0 || decide (5 ≤ cmd)))

end Sys2Proof
end

