-- ==== Sys2Proof/Tests/Slice0.lean ====
section
/-! SUPPORT. The model's own tests: worked examples and figures of the specification, ill-formed commands that `Instr.wf` refuses, the state after reset, and the witnesses of
hypotheses that `Tests/Witnesses.lean` does not hold (those over the opaque functions of `Config` assume what the functions answer). -/

open Sys2Proof Sys2Proof.Machine Sys2Proof.Spec

set_option Elab.async false

namespace Sys2Proof.Tests

/-! ## Worked examples of the specification -/

/-- The samples of R225's example. -/
def bfIn : List (Int × Int) := [(1000, -200), (-3000, 50), (0, 0), (2047, -2048), (100, 100), (100, 100), (100, 100), (100, 100)]

/-- R225: the exponent is 6 and the mantissa fields are those of the example's table. -/
theorem test_bfpack_example : (bfPack 0 bfIn).toNat >>> 120 = 0x60 ∧
    ((List.range 8).map fun k => (bfPack 0 bfIn).toNat >>> (14 * k) % 2 ^ 14) = [0x087D, 0x2881, 0, 0x1060, 0x0102, 0x0102, 0x0102, 0x0102] := by decide +kernel

/-- R225: the reconstructed samples of the example. -/
theorem test_bfunpack_example : ((List.range 5).map (bfSample (bfPack 0 bfIn))) = [(1024, -192), (-3008, 64), (0, 0), (2048, -2048), (128, 128)] := by decide +kernel

/-- R296: a block of zeros has CRC 0x90, and an all-zero word fails. -/
theorem test_bf_crc : bfPack 0 (List.replicate 8 (0, 0)) = 0x00900000000000000000000000000000 ∧ bfCrcOk 0 = false := by decide +kernel

/-- R17: the uplink of PB17, its parent, and the parent of its two chains. -/
theorem test_uid_example : U.pbd 0x23 = 0x0123 ∧ parentOf 0x0123 0 = 0x0091 ∧ U.mc 70 = 0x0646 ∧ parentOf 0x0646 0 = 0x0123 ∧ parentOf 0x0647 0 = 0x0123 := by decide

/-- R18: UNIT_ID of that page at block stepping 0. -/
theorem test_unit_id : State.reset.blk.readHdr 0x0123 R.UNIT_ID = 0x0000009100050123 := by decide +kernel

/-- R29: group 0x1000 with PB03, PBD 0x0107 and CL2. -/
theorem test_group_example : let b := { State.reset.blk with groups := [(0x1000, [0x0083, 0x0107, 0x0202])] }
    (b.flat 0x1000).length = 37 ∧ (b.flat 0x1000).take 5 = [0x0083, 0x0106, 0x0107, 0x0202, 0x024A] ∧ b.depthN 10 0x1000 = 1 := by decide +kernel

/-- R280: the delays of the example. -/
theorem test_head_delays : up64 42432 = 42432 ∧ up64 42932 = 42944 := by decide

/-- R301: the index position of the example. -/
theorem test_index_position : celIndexPos 0x0000001C0A960000 = 4307400 := by decide

/-- R452: the example's balls, and counts of its table. -/
theorem test_ball_example : ball 45 71 = .rxc 13 false ∧ ball 46 71 = .rxc 13 true ∧ ball 64 32 = .strobe 77 ∧ ball 65 13 = .lane .fhg1 2 false false ∧
    ball 65 12 = .lane .fhg1 2 false true := by decide
theorem test_ball_count : ballCount (· == .rail .core) = 616 ∧ ballCount (· == .reserved) = 27 := by decide +kernel

/-- R464: the reference and the diode at 25 °C. -/
theorem test_monitor_codes : monInCode 1000000 = 3413 ∧ monInCode 700000 = 2389 := by decide

/-- Memory is canonical after reset. -/
theorem reset_memory_wf : State.reset.mem.wf = true := by decide

/-! ## Ill-formed commands: one operand out of its range each -/

/-- Commands at the ends of their ranges are well formed. -/
theorem test_well_formed_taken : ([.registerWrite (.vf 16) 65535 1023 .hi 0, .add 32 7 31 31 31, .addi 32 7 31 31 8191, .br 32 7 8388607, .cueEffect 262143,
    .doorbell .pf 16383 4294967295, .mspiRead 65535 65535 255, .lifecycle 3] : List Instr).all Instr.wf = true := by decide +kernel

theorem test_ill_formed_refused_1 : ([.registerWrite (.vf 17) 0 0 .both 0, .registerWrite .pf 65536 0 .both 0, .registerWrite .pf 0 1024 .both 0, .regAlign (.vf 17) false 0,
    .regAlign .pf false 65536, .enable (.vf 17) 0 false, .enable .pf 65536 false, .fenceReq (.vf 17) 0,
    .fenceReq .pf 65536, .unfenceReq (.vf 17) 0, .unfenceReq .pf 65536, .selftestDone 65536 false,
    .powerReq (.vf 17) 0 false, .powerReq .pf 65536 false, .testReq (.vf 17) 0 false, .testReq .pf 65536 false,
    .rampDownDone 65536, .unitFaultClear (.vf 17) 0 0, .unitFaultClear .pf 65536 0, .cntClr (.vf 17) 0,
    .cntClr .pf 65536, .grpAdd (.vf 17) 0 0, .grpAdd .pf 65536 0, .grpAdd .pf 0 65536,
    .grpRemove (.vf 17) 0 0, .grpRemove .pf 65536 0, .grpRemove .pf 0 65536, .grpRemoveAll (.vf 17) 0 0,
    .grpRemoveAll .pf 65536 0, .grpRemoveAll .pf 0 65536, .trkBurstDecode 19660800 0 false 0 0 0 0, .trkBurstDecode 0 1024 false 0 0 0 0,
    .trkBurstDecode 0 0 false 1024 0 0 0, .trkBurstDecode 0 0 false 0 64 0 0, .syncTodWrite (.vf 17) .both 0, .ptpSyncRx 8 ⟨0, 0⟩ 0 0 0 0,
    .ptpSyncRx 0 ⟨256, 0⟩ 0 0 0 0, .ptpSyncRx 0 ⟨0, (2 ^ 80)⟩ 0 0 0 0, .ptpSyncRx 0 ⟨0, 0⟩ 0 281474976710656 0 0, .ptpSyncRx 0 ⟨0, 0⟩ 0 0 1000000000 0,
    .ptpAnnounceRx 8 ⟨0, 0⟩ ⟨0, 0, 0, 0, 0, 0, 0⟩] : List Instr).all (fun i => !i.wf) = true := by
  decide +kernel

theorem test_ill_formed_refused_2 : ([.ptpAnnounceRx 0 ⟨256, 0⟩ ⟨0, 0, 0, 0, 0, 0, 0⟩, .ptpAnnounceRx 0 ⟨0, (2 ^ 80)⟩ ⟨0, 0, 0, 0, 0, 0, 0⟩,
    .ptpAnnounceRx 0 ⟨0, 0⟩ ⟨0, 256, 0, 0, 0, 0, 0⟩, .ptpAnnounceRx 0 ⟨0, 0⟩ ⟨0, 0, 256, 0, 0, 0, 0⟩, .ptpAnnounceRx 0 ⟨0, 0⟩ ⟨0, 0, 0, 65536, 0, 0, 0⟩,
    .ptpAnnounceRx 0 ⟨0, 0⟩ ⟨0, 0, 0, 0, 256, 0, 0⟩, .ptpAnnounceRx 0 ⟨0, 0⟩ ⟨0, 0, 0, 0, 0, (2 ^ 64), 0⟩, .ptpAnnounceRx 0 ⟨0, 0⟩ ⟨0, 0, 0, 0, 0, 0, 65536⟩, .resync (.vf 17), .syncCfgWrite (.vf 17) .both 0, .syncWallWrite (.vf 17) .both 0,
    .tddCommit (.vf 17) 0 0, .tddCommit .pf 64 0, .tddPatternApply 64, .pbCbDataWrite (.vf 17) 0 .both 0,
    .pbCbDataWrite .pf 64 .both 0, .beamWrite (.vf 17) 0 .both 0, .beamWrite .pf 128 .both 0, .fbankWrite (.vf 17) 0 false,
    .fbankWrite .pf 128 false, .fcoefWrite (.vf 17) 0 .both 0, .fcoefWrite .pf 128 .both 0, .ncoWrite (.vf 17) 0 false .both 0,
    .ncoWrite .pf 128 false .both 0, .retuneStart 128, .retuneNcoSwitch 128, .retuneRefilled 128,
    .retuneDone 128, .extInitSettled 128, .plannerSeqStart 128, .rxcOverrange 32,
    .rxcOvrEpisodeEnd 32, .directionSeqStep 64, .bgCalHandover 32 0 false, .calRestoreDone 65536 0 false,
    .calRestoreDone 0 131072 false, .foregroundCalDone 65536 [] 0, .foregroundCalDone 0 [] 131072, .rxcPipelineFilled 32,
    .muteSeqStep 32, .ccClkLost 4, .syHopGo (.vf 17) 0 0, .syHopGo .pf 8 0,
    .syHopGo .pf 0 4096, .syHopSave (.vf 17) 0, .syHopSave .pf 8, .syCalWrite (.vf 17) 0 false .both 0] : List Instr).all (fun i => !i.wf) = true := by
  decide +kernel

theorem test_ill_formed_refused_3 : ([.syCalWrite .pf 8 false .both 0, .syLockAcquired 8 0 0 0, .syLockAcquired 0 256 0 0, .syLockAcquired 0 0 64 0,
    .syLockAcquired 0 0 0 65536, .syCalTimeout 8, .syLockTimeout 8, .syUnlock 8,
    .stbCfgWrite (.vf 17) 0 0 .both 0, .stbCfgWrite .pf 4 0 .both 0, .stbCfgWrite .pf 0 32 .both 0, .ccSeqGo (.vf 17) 0 0,
    .ccSeqGo .pf 4 0, .ccSeqGo .pf 0 256, .rffeHeldStart 4, .rffeSeqDone 4,
    .rffeCmd (.vf 17) 0 .both 0, .rffeCmd .pf 4 .both 0, .rffeFrameDone 4 0 false, .rffeFrameDone 0 4294967296 false,
    .ccSeqDataWrite (.vf 17) 0 .both 0, .ccSeqDataWrite .pf 4 .both 0, .rffeDivWrite (.vf 17) 0 0 0, .rffeDivWrite .pf 4 0 0,
    .rffeDivWrite .pf 0 4 0, .rffeDivWrite .pf 0 0 2048, .orxRunWrite (.vf 17) 0 false, .orxRunWrite .pf 8 false,
    .orxDwellAdvance 8, .orxSettleEnd 8, .laneBlockEnd 264 [] [] 0, .laneTrackWindow 264,
    .laneDiverge 264, .modelPrefetchStart 264 0, .modelPrefetchStart 0 262144, .modelPrefetchDone 264 false,
    .modelSwapDeadline 264, .modelSwap 264, .modelDeferredSwap 264, .modelWriteDone 264] : List Instr).all (fun i => !i.wf) = true := by
  decide +kernel

theorem test_ill_formed_refused_4 : ([.laneResume (.vf 17) 0, .laneResume .pf 264, .laneZero (.vf 17) 0, .laneZero .pf 264,
    .laneSave (.vf 17) 0, .laneSave .pf 264, .mbDataWrite (.vf 17) 0 .both 0, .mbDataWrite .pf 8 .both 0,
    .mbDataRead (.vf 17) 0 .both, .mbDataRead .pf 8 .both, .setValid (.vf 17) 0 0, .setValid .pf 8 0,
    .setValid .pf 0 262144, .clearValid (.vf 17) 0 0, .clearValid .pf 8 0, .clearValid .pf 0 262144,
    .clearAllValid (.vf 17) 0, .clearAllValid .pf 8, .mbAccessDone 8, .tapDataWrite (.vf 17) 0 .both 0,
    .tapDataWrite .pf 264 .both 0, .tapDataRead (.vf 17) 0, .tapDataRead .pf 264, .dlyUnderrun 264,
    .probePublish 128 [] 0 1, .probePublish 0 [] 0 0, .probePublish 0 [(8, 0, 0, 0)] 0 1, .probePublish 0 [(0, 8, 0, 0)] 0 1, .loopDeadline 128, .plausibility 128,
    .lullDlClear 128, .clrPlaus (.vf 17) 0, .clrPlaus .pf 128, .rampStart (.vf 17) 0,
    .rampStart .pf 128, .rampStop (.vf 17) 0, .rampStop .pf 128, .clipBackoffStart 128,
    .clipBackoffEnd 128, .tuneReq (.vf 17) 0 0 false, .tuneReq .pf 128 0 false, .tuneReq .pf 0 8 false] : List Instr).all (fun i => !i.wf) = true := by
  decide +kernel

theorem test_ill_formed_refused_5 : ([.autotuneDone 128 0, .autotuneDone 0 8, .autotuneAbort 128 0, .autotuneAbort 0 8,
    .loopRegWrite (.vf 17) 0 0 .both 0, .loopRegWrite .pf 128 0 .both 0, .loopRegWrite .pf 0 1024 .both 0, .lutWrite (.vf 17) .both 0,
    .lePeakClr (.vf 17), .mcOutput 320 [] [] [], .mcSync (.vf 17) 0, .mcSync .pf 320,
    .peakClr (.vf 17) 0, .peakClr .pf 320, .mcConfigWrite (.vf 17) 0 0 .both 0, .mcConfigWrite .pf 320 0 .both 0,
    .mcConfigWrite .pf 0 1024 .both 0, .oscBlock 128 [] 0, .oscBlock 0 [[]] 0, .oscBlock 0 [] 1025, .squallSeqStep 129,
    .emwBlock 8 [] 1, .emwBlock 0 [] 0, .emwBlock 0 (List.replicate 2049 0) 1, .overloadTrip 128, .squall (.vf 17) 0, .squall .pf 128,
    .unsquall (.vf 17) 0, .unsquall .pf 128, .restart (.vf 17) 0, .restart .pf 128,
    .flRedo (.vf 17) 0, .flRedo .pf 128, .moduleSquall (.vf 17), .moduleUnsquall (.vf 17),
    .restartDue 128, .restartAttempt 128, .probationEnd 128, .nrgPlStale 128,
    .flMeasureTimeout 128, .flTrainEnd 128, .add 33 0 0 0 0, .add 0 8 0 0 0] : List Instr).all (fun i => !i.wf) = true := by
  decide +kernel

theorem test_ill_formed_refused_6 : ([.add 0 0 32 0 0, .add 0 0 0 32 0, .add 0 0 0 0 32, .mfs 33 0 0 0 0 0,
    .mfs 0 8 0 0 0 0, .mfs 0 0 32 0 0 0, .mfs 0 0 0 32 0 0, .mfs 0 0 0 0 32 0,
    .mfs 0 0 0 0 0 32, .addi 33 0 0 0 0, .addi 0 8 0 0 0, .addi 0 0 32 0 0,
    .addi 0 0 0 32 0, .addi 0 0 0 0 8192, .ladd 33 0 0 0 0 0, .ladd 0 8 0 0 0 0,
    .ladd 0 0 32 0 0 0, .ladd 0 0 0 32 0 0, .ladd 0 0 0 0 32 0, .ladd 0 0 0 0 0 4,
    .dmagoWake 33, .dmaDone 33 0 0 false, .dmaDone 0 16 0 false, .dmawaitWake 33,
    .ugetDone 33, .uputWake 33, .uputArrive 33, .rpopB 33 0 0 0 0 0,
    .rpopB 0 8 0 0 0 0, .rpopB 0 0 32 0 0 0, .rpopB 0 0 0 32 0 0, .rpopB 0 0 0 0 32 0,
    .rpopB 0 0 0 0 0 8, .rpopWake 33 0 false, .rpushWake 33, .br 33 0 0,
    .br 0 8 0, .br 0 0 8388608, .fenceWake 33, .waitatWake 33] : List Instr).all (fun i => !i.wf) = true := by
  decide +kernel

theorem test_ill_formed_refused_7 : ([.armWake 33, .watchdogExpiry 33, .hostReqTake 33, .userStart (.vf 17) 0,
    .userStart .pf 32, .userStop (.vf 17) 0, .userStop .pf 32, .imemWrite (.vf 17) 0 .both 0,
    .imemWrite .pf 32 .both 0, .imemRead (.vf 17) 0, .imemRead .pf 32, .dmemWrite (.vf 17) 0 .both 0,
    .dmemWrite .pf 32 .both 0, .dmemRead (.vf 17) 0 .both, .dmemRead .pf 32 .both, .cueShadowAck 262144,
    .cueWait 262144, .cueEffect 262144, .cueRetire 262144, .cueMark 262144,
    .cueWrite 262144, .cueEnable 262144, .cuePower 262144, .cueFence 262144,
    .cueDirection 262144, .cueBeam 262144, .cueFbank 262144, .cueRetune 262144,
    .cueCap 262144, .cueLull 262144, .cueSquall 262144, .cueUnsquall 262144,
    .cueRestart 262144, .cueSwapmodel 262144, .cueMsync 262144, .cueHop 262144,
    .cueStrobe 262144, .cueRffe 262144, .cueModsquall 262144, .dspCancel (.vf 17) 0] : List Instr).all (fun i => !i.wf) = true := by
  decide +kernel

theorem test_ill_formed_refused_8 : ([.dspCancel .pf 262144, .dspPeakClr (.vf 17), .doorbell (.vf 17) 0 0, .doorbell .pf 16384 0,
    .doorbell .pf 0 4294967296, .ringDescriptorWrite (.vf 17) 0x098 .both 0, .ringDescriptorWrite .pf 0x0A8 .both 0, .fhTrainingDone 8,
    .fhTrainTimeout 8, .fhFecLoss 8, .fhLaneFail 2 0, .fhLaneFail 0 9,
    .fhIqFrameRx 8 0 0 false 0 false 0 0, .fhIqFrameRx 0 512 0 false 0 false 0 0, .fhUlSampleMissing 512 0, .fhUlSampleMissing 0 32,
    .fhOtherFrameRx 8 false 0 0, .helloRx 8 0 0 0 0 0 0 0 0, .helloRx 0 0 0 8 0 0 0 0 0, .helloRx 0 0 0 0 4 0 0 0 0,
    .helloRx 0 0 0 0 0 32 0 0 0, .helloRx 0 0 0 0 0 0 16777216 0 0, .helloRx 0 0 0 0 0 0 0 16777216 0, .helloRx 0 0 0 0 0 0 0 0 2097152,
    .statusRx 512 0 0 0 false, .hdLossTimeout 512, .hdAdmitTimeout 512, .hdRealignReq (.vf 17) 0,
    .hdRealignReq .pf 512, .hdGpioWrite (.vf 17) 0 .both 0, .hdGpioWrite .pf 512 .both 0, .hbmRequest .model 0 true,
    .hbmRequest (.window (.vf 17)) 0 false, .hbmRequest .delay 137438953472 false, .hbmComplete .writeBack 0 false ⟨0, 0⟩,
    .hbmComplete .delay 137438953472 false ⟨0, 0⟩, .hbmComplete .delay 0 false ⟨3, 0⟩, .hbmComplete .delay 0 false ⟨0, 137438953472⟩, .softRepairDone 64, .patrolScrub 64 0 0, .patrolScrub 0 3 0] : List Instr).all (fun i => !i.wf) = true := by
  decide +kernel

theorem test_ill_formed_refused_9 : ([.patrolScrub 0 0 137438953472, .pcPeakClr (.vf 17) 0, .pcPeakClr .pf 64, .cellarRun (.vf 17) false,
    .celFreeze (.vf 17), .celRearm (.vf 17), .rplStart (.vf 17), .rplStop (.vf 17),
    .celSdataWrite (.vf 17) .both 0, .monGo (.vf 17), .monBurst (.vf 17), .monTrigSeq (.vf 17),
    .monTrigInj (.vf 17), .monSupvRequest 128, .monConversionDone 4096 false false, .monRefEnWrite (.vf 17) false,
    .monDataRead (.vf 17) .both, .monBufRead (.vf 17) .both, .monSliceRotate 4, .monDropClr (.vf 17),
    .tsSample [], .kilnResume (.vf 17), .domainTransitionDone 80, .domainTimeout 80,
    .switchedRailFail 3, .faultRaise 65536 0 0, .faultRaise 0 256 0, .faultRaise 0 0 64,
    .safeClr (.vf 17), .firstClr (.vf 17), .bistRun (.vf 17), .faultPinDriveWrite (.vf 17) false,
    .fltInjGo (.vf 17), .recClear (.vf 17), .tallySweep (.vf 17), .tallyClr (.vf 17),
    .tallyCcfgWrite (.vf 17) .both 0, .tallyBufRead (.vf 17) .both, .tracerClr (.vf 17) 0, .tracerClr .pf 4] : List Instr).all (fun i => !i.wf) = true := by
  decide +kernel

theorem test_ill_formed_refused_10 : ([.nonceReq (.vf 17), .tokenWrite (.vf 17) .both 0, .debugUnlock (.vf 17), .keyVendor (.vf 17),
    .keyOwner (.vf 17), .keySite (.vf 17), .lifecycle 4, .legacyBit (.vf 17),
    .hardRepair (.vf 17), .stgOpen (.vf 17), .stgDataWrite (.vf 17) .both 0, .stgClose (.vf 17),
    .stgAbort (.vf 17), .stgActivate (.vf 17), .stgCommit (.vf 17), .stgRevert (.vf 17),
    .saveSet (.vf 17), .saveCal (.vf 17), .perstNRelease 6 1, .perstNRelease 1 3,
    .flrVf 17, .hostVecWrite (.vf 17) .both 0, .hostRouteWrite (.vf 17) .both 0, .msixTableWrite 17 0 0 0,
    .msixTableWrite 0 2048 0 0, .msixTableWrite 0 0 4 0, .hostUrst (.vf 17) 0, .hostUrst .pf 65536,
    .hostReadTimeout 34 0 0, .hostReadTimeout 0 17 0, .mspiRead 65536 0 0, .mspiRead 0 65536 0,
    .mspiRead 0 0 256, .mspiWrite 65536 0 0 0, .mspiWrite 0 65536 0 0, .mspiWrite 0 0 0 256,
    .mspiReadWin 65536 0 0, .mspiReadWin 0 65536 0, .mspiReadWin 0 0 256, .mspiId 65536 0 0] : List Instr).all (fun i => !i.wf) = true := by
  decide +kernel

theorem test_ill_formed_refused_11 : ([.mspiId 0 65536 0, .mspiId 0 0 256, .porNRelease 4, .rstNRelease 4,
    .startupPhaseDone [] 3 0, .startupPhaseDone [] 0 3, .aoRailReturn 4, .hdStatusStale 512,
    .hdLatencyMeasured 512 0, .hdLatencyMeasured 0 16777216, .secApply (.vf 17), .startupPhaseDone [(65536, 0, 0)] 0 0,
    .startupPhaseDone [(0, 256, 0)] 0 0, .startupPhaseDone [(0, 0, 64)] 0 0, .mspiBadCmd 256, .mspiBadCmd 4,
    .nonceReq (.vf 0), .nonceReq (.engine 33 false), .nonceReq (.cue 4 0 false), .nonceReq (.cue 0 16384 false)] : List Instr).all (fun i => !i.wf) = true := by
  decide +kernel

/-! ## Witnesses -/

/-- The states and operands of the general statements: a queue with a command in front, an empty queue before and at the last Tc before a boundary, canonical memory. -/
theorem meets_stepRunsTheCommandInFront : ({ State.reset with pending := [.resync .pf] } : State).pending = .resync .pf :: [] := rfl

theorem meets_emptyQueueLetsOneTcPass : State.reset.pending = [] ∧ State.reset.blk.time.running = false ∧ (mk run).pending = [] ∧ (mk run).blk.t + 1 < (mk run).blk.time.tickEnd ∧
    (endAt 1001 (mk run)).blk.time.running = true ∧ ¬ (endAt 1001 (mk run)).blk.t + 1 < (endAt 1001 (mk run)).blk.time.tickEnd := by decide +kernel

theorem meets_stepKeepsMemoryCanonical : (mk run).mem.wf = true ∧ ∃ t, step (mk run) = .next t := ⟨by decide +kernel, _, rfl⟩

/-- R224: 1 shifted right by 1 lies midway, and 0 is the even neighbour. -/
theorem meets_roundingIsNearestTiesToEven : (2 * ((1 : Int) - rneShift 1 1 * 2 ^ 1).natAbs = 2 ^ 1) ∧ (2 * ((1 : Int) - 0 * 2 ^ 1).natAbs = 2 ^ 1 ∧ (0 : Int) % 2 = 0) ∧
    (2 * ((5 : Int) - 1 * 2 ^ 2).natAbs < 2 ^ 2) := by decide

theorem meets_blockFloatCrc : ∀ y ∈ [0, 255] ++ [128], y < 256 := by decide

/-- R220: an illegal field of each privilege, and a fault of each cause. -/
theorem meets_faulting : Faulting W37.s1_0 3 1 (.clz 3 1 0 0 1) 1 2 (BitVec.ofNat 64 (insnA 0x00 0 0 1 1 0x0F)) ∧
    Faulting W37.s1_0 3 1 (.halt 3 1 0 0 0) 1 3 (BitVec.ofNat 64 (insnA 0x30 0 0 0 1 5)) ∧
    Faulting W37.s4_0 3 1 (.st 3 1 0 2 0) 3 1 (BitVec.ofNat 64 0x110004) ∧
    Faulting W37.s1_4 3 1 (.rpushN 3 1 4 0 0 5) 4 1 0 :=
  ⟨.unusedClz 0 0 1 (by decide), .privileged (by decide +kernel), .misaligned 0 2 0 0x110004 0x10004 (by decide +kernel) (by decide +kernel) (by decide +kernel) (by decide),
    .cursor 4 5 (by decide +kernel) (by decide) (by decide) (by decide) (by decide +kernel)⟩

/-- R37: a restore and a calibration at RXC 5 are due. -/
def calRun (f : RxcH → RxcH) (off : Nat) : State := mk fun b => let b := run b
  ((b.setRxcH 5 (f (b.rxcH 5))).setPwr (U.rxc 5) 2).setState (U.rxc 5) off

theorem meets_channelCalibration : let s := calRun (fun h => { h with restoreDue := some 1000 }) 0;
    Settled s ∧ Single s (U.rxc 5) ∧ NoGroups s ∧ s.blk.ownState (U.rxc 5) = 0 ∧ s.blk.flag (U.rxc 5) F.UNIT_CTRL_ENABLE = false ∧
      s.blk.restoreDue (U.rxc 5) = some 1000 ∧ DueNow s 1000 ∧ s.mem.rd .calStore (calEntry (U.rxc 5) 63) = 0 := by decide +kernel

theorem meets_channelCalibration_restored : let s := { calRun (fun h => { h with restoreDue := some 1000 }) 0 with mem := ({} : Mem).wr .calStore (calEntry (U.rxc 5) 63) 1 };
    s.blk.restoreDue (U.rxc 5) = some 1000 ∧ DueNow s 1000 ∧ s.mem.rd .calStore (calEntry (U.rxc 5) 63) ≠ 0 ∧
      ∀ j, j < 17 → withinLimits (s.mem.rd64 .calStore (calEntry (U.rxc 5) j)) := by decide +kernel

theorem meets_channelCalibration_foreground : let s := calRun (fun h => { h with calDue := some 1000 }) 0;
    Settled s ∧ Single s (U.rxc 5) ∧ NoGroups s ∧ s.blk.ownState (U.rxc 5) = 0 ∧ s.blk.calDue (U.rxc 5) = some 1000 ∧ DueNow s 1000 := by decide +kernel

/-! ### The warden's tokens and images -/

/-- `n` bytes of a number, the least significant first. -/
def leBytes (n v : Nat) : List Nat := (List.range n).map fun i => v / 256 ^ i % 256

/-- A public key for role `r`. -/
def pubOf (r : Nat) : List Nat := (r + 10) :: List.replicate 96 r

/-- A token of R395: role, change, serial number, nonce, argument, key and signature. -/
def token (fmt role change ser non arg : Nat) : List Nat :=
  leBytes 2 fmt ++ [role, change] ++ leBytes 4 296 ++ leBytes 8 ser ++ leBytes 32 non ++ leBytes 48 arg ++ pubOf role ++ List.replicate 7 0 ++ List.replicate 96 1

/-- The token buffer `buf` holding `l`. -/
def putTok (μ : Mem) (buf : Nat) (l : List Nat) : Mem :=
  { μ with words := μ.words ++ ((List.range 37).map fun i => (ramBase .token + buf * 1024 + i, (BitVec.ofNat 128 (((l.drop (8 * i)).take 8).foldr (fun x a => a * 256 + x) 0) : Quad))).filter fun x => x.2 != 0 }

/-- The OTP of a module in FIELD with one key of each role. -/
def otp0 : OtpH := { State.reset.blk.otp with lc := 2, vendor := [1, Config.sha384 (pubOf 1)], owner := [Config.sha384 (pubOf 2)], site := [Config.sha384 (pubOf 3)] }

/-- A module with OTP `o`, a nonce of 500 and serial number 77, and two tokens. -/
def tokState (o : OtpH) (a b : List Nat) (f : Block → Block) : State :=
  { mk (fun b => (f (((run b).setReg 0 R.ROOT_SERIAL 77).setWdn fun w => { w with nonce := some 500, nonceAt := 500 })).setOtp fun _ => o) with
    mem := putTok (putTok {} 0 a) 1 b }

theorem tokState_otp (o : OtpH) (a b : List Nat) (f : Block → Block) : (tokState o a b f).blk.otp = o := rfl

/-- The same change from two roles. -/
def pair (o : OtpH) (r q c a : Nat) : State := tokState o (token 1 r c 77 500 a) (token 1 q c 77 500 a) id

abbrev unbusy (s : State) : Prop := s.blk.wdn.coast = none ∧ s.blk.wdn.lcDue = none
abbrev formatOk (s : State) : Prop := ∀ k, k < 2 → tok s k 0 2 = 1 ∧ tok s k 4 4 = 296
abbrev serialOk (s : State) : Prop := ∀ k, k < 2 → tok s k 8 8 = (s.blk.reg 0 R.ROOT_SERIAL).toNat
abbrev nonceOk (s : State) : Prop := ∀ k, k < 2 → s.blk.wdn.nonce = some (tok s k 16 32)

/-- A token of role `r` whose key is that role's, with every signature accepted, passes the key and signature checks. -/
theorem keyed {s : State} {k r : Nat} {l : List Nat} (h : ∀ p d g, Config.ecdsaOk p d g = true) (hy : s.blk.otp.hybrid = false) (hr : tok s k 2 1 = r) (h4 : r ≠ 4)
    (hl : (if r = 1 then s.blk.otp.vendor else if r = 2 then s.blk.otp.owner else if r = 3 then s.blk.otp.site else []).getLast? = some (Config.sha384 l))
    (hp : tokBytes s.mem k 96 97 = l) : keyMatches s k = true ∧ signed s k = true := by
  simp [keyMatches, signed, h, hy, hr, h4, hl, hp]

/-- The checks before the keys, of one state and who commands. -/
theorem meets_tokenChecks : 
    (let s := tokState otp0 (token 1 1 2 77 500 5) (token 1 2 2 77 500 5) fun b => b.setWdn fun w => { w with lcDue := some (3, false) };
      Commands s .pf ∧ ¬ unbusy s) ∧
    (let s := tokState otp0 (token 2 1 2 77 500 5) (token 1 2 2 77 500 5) id;
      Commands s .pf ∧ unbusy s ∧ ¬ formatOk s) ∧
    (let s := tokState otp0 (token 1 1 2 77 500 5) (token 1 2 2 78 500 5) id;
      Commands s .mspi ∧ unbusy s ∧ formatOk s ∧ ¬ serialOk s) ∧
    (let s := tokState otp0 (token 1 1 2 77 500 5) (token 1 2 2 77 501 5) id;
      Commands s .pf ∧ unbusy s ∧ formatOk s ∧ serialOk s ∧ ¬ nonceOk s) ∧
    (let s := endAt (10 ^ 15) (tokState otp0 (token 1 1 2 77 500 5) (token 1 2 2 77 500 5) (at_ (600 * 1966080000 + 501)));
      Commands s .pf ∧ unbusy s ∧ formatOk s ∧ serialOk s ∧ nonceOk s ∧ ¬ s.blk.t ≤ s.blk.wdn.nonceAt + 600 * 1966080000) ∧
    (let s := pair otp0 1 2 2 5;
      Commands s .pf ∧ unbusy s ∧ formatOk s ∧ serialOk s ∧ nonceOk s ∧ s.blk.t ≤ s.blk.wdn.nonceAt + 600 * 1966080000 ∧ Takes s .runtime U.warden) :=
  by refine ⟨?_, ?_, ?_, ?_, ?_, ?_⟩ <;> decide +kernel

/-- Where no signature verifies, the key check fails. -/
theorem meets_tokenChecks_unsigned (h : ∀ p d g, Config.ecdsaOk p d g = false) : ∀ k, signed (pair otp0 1 2 2 5) k = false := by
  intro k; simp [signed, h]

/-- Two tokens that pass every check up to the keys' but differ in their change. -/
theorem meets_tokenChecks_changes (h : ∀ p d g, Config.ecdsaOk p d g = true) : let s := tokState otp0 (token 1 1 2 77 500 5) (token 1 2 3 77 500 5) id;
    unbusy s ∧ formatOk s ∧ serialOk s ∧ nonceOk s ∧ (∀ k, k < 2 → keyMatches s k = true ∧ signed s k = true) ∧ tok s 1 3 1 ≠ tok s 0 3 1 := by
  refine ⟨by decide +kernel, by decide +kernel, by decide +kernel, by decide +kernel, fun k hk => ?_, by decide +kernel⟩
  match k, hk with
  | 0, _ => exact keyed (r := 1) h rfl (by decide +kernel) (by decide) rfl (by decide +kernel)
  | 1, _ => exact keyed (r := 2) h rfl (by decide +kernel) (by decide) rfl (by decide +kernel)

/-- The two tokens of `pair` pass every check of `tokensGood`. -/
theorem pair_good {o : OtpH} {r q c a : Nat} (h : ∀ p d g, Config.ecdsaOk p d g = true) (hr : r = 1 ∨ r = 2 ∨ r = 3) (hq : q = 1 ∨ q = 2 ∨ q = 3)
    (hy : o.hybrid = false) (hv : o.vendor.getLast? = some (Config.sha384 (pubOf 1))) (ho : o.owner.getLast? = some (Config.sha384 (pubOf 2)))
    (hs : o.site.getLast? = some (Config.sha384 (pubOf 3)))
    (hp : formatOk (pair o r q c a) ∧ serialOk (pair o r q c a) ∧ nonceOk (pair o r q c a) ∧ (pair o r q c a).blk.t ≤ (pair o r q c a).blk.wdn.nonceAt + 600 * 1966080000 ∧
      tok (pair o r q c a) 1 3 1 = tok (pair o r q c a) 0 3 1 ∧ tok (pair o r q c a) 1 48 48 = tok (pair o r q c a) 0 48 48 ∧
      tok (pair o r q c a) 0 2 1 = r ∧ tok (pair o r q c a) 1 2 1 = q ∧ tokBytes (pair o r q c a).mem 0 96 97 = pubOf r ∧ tokBytes (pair o r q c a).mem 1 96 97 = pubOf q) :
    tokensGood (pair o r q c a) := by
  have e : (pair o r q c a).blk.otp = o := rfl
  have key : ∀ x, x = 1 ∨ x = 2 ∨ x = 3 → (if x = 1 then o.vendor else if x = 2 then o.owner else if x = 3 then o.site else []).getLast? = some (Config.sha384 (pubOf x)) := by
    intro x hx; rcases hx with rfl | rfl | rfl <;> simp [hv, ho, hs]
  have n4 : ∀ x, x = 1 ∨ x = 2 ∨ x = 3 → x ≠ 4 := by omega
  have both : ∀ k, k < 2 → keyMatches (pair o r q c a) k = true ∧ signed (pair o r q c a) k = true := by
    intro k hk
    match k, hk with
    | 0, _ => exact keyed h (by rw [e]; exact hy) hp.2.2.2.2.2.2.1 (n4 _ hr) (by rw [e]; exact key _ hr) hp.2.2.2.2.2.2.2.2.1
    | 1, _ => exact keyed h (by rw [e]; exact hy) hp.2.2.2.2.2.2.2.1 (n4 _ hq) (by rw [e]; exact key _ hq) hp.2.2.2.2.2.2.2.2.2
  refine ⟨fun k hk => ?_, hp.2.1, hp.2.2.1, hp.2.2.2.1, fun k hk => (both k hk).1, fun k hk => (both k hk).2, hp.2.2.2.2.1, hp.2.2.2.2.2.1⟩
  rw [e, hy]; exact hp.1 k hk

/-- Slots of VENDOR keys all used, and a returned module. -/
def otpFull : OtpH := { otp0 with vendor := [1, 2, 3, Config.sha384 (pubOf 1)] }
def otpReturned : OtpH := { otp0 with lc := 3 }

/-- Tokens that pass every check but that of the roles, of the change in this module, or of a free slot (named so), and those of each change that pass them all. -/
theorem meets_protectionChanges_roles (h : ∀ p d g, Config.ecdsaOk p d g = true) : let s := pair otp0 1 3 2 5;
    (Commands s .pf ∧ unbusy s ∧ tok s 0 3 1 = 2 ∧ ¬ rolesGood s) ∧ s.blk.otp = otp0 ∧ tokensGood s :=
  ⟨by decide +kernel, rfl, pair_good h (by decide) (by decide) rfl rfl rfl rfl (by decide +kernel)⟩

theorem meets_protectionChanges_change (h : ∀ p d g, Config.ecdsaOk p d g = true) : let s := pair otp0 1 2 1 0;
    (Commands s .pf ∧ unbusy s ∧ tok s 0 3 1 = 1 ∧ rolesGood s ∧ ¬ permitted otp0 1 (tok s 0 48 48)) ∧ s.blk.otp = otp0 ∧ tokensGood s :=
  ⟨by decide +kernel, rfl, pair_good h (by decide) (by decide) rfl rfl rfl rfl (by decide +kernel)⟩

theorem meets_protectionChanges_slot (h : ∀ p d g, Config.ecdsaOk p d g = true) : let s := pair otpFull 1 2 2 5;
    (Commands s .pf ∧ unbusy s ∧ tok s 0 3 1 = 2 ∧ rolesGood s ∧ permitted otpFull 2 (tok s 0 48 48) ∧ ¬ slotFree otpFull 2) ∧ s.blk.otp = otpFull ∧ tokensGood s :=
  ⟨by decide +kernel, rfl, pair_good h (by decide) (by decide) rfl rfl rfl rfl (by decide +kernel)⟩

theorem meets_protectionChanges_1 (h : ∀ p d g, Config.ecdsaOk p d g = true) : let s := pair otpReturned 1 2 1 0;
    (Commands s .pf ∧ unbusy s ∧ tok s 0 3 1 = 1 ∧ rolesGood s ∧ permitted otpReturned 1 (tok s 0 48 48) ∧ slotFree otpReturned 1) ∧ s.blk.otp = otpReturned ∧ tokensGood s :=
  ⟨by decide +kernel, rfl, pair_good h (by decide) (by decide) rfl rfl rfl rfl (by decide +kernel)⟩

theorem meets_protectionChanges_2 (h : ∀ p d g, Config.ecdsaOk p d g = true) : let s := pair otp0 1 2 2 5;
    (Commands s .mspi ∧ unbusy s ∧ tok s 0 3 1 = 2 ∧ rolesGood s ∧ permitted otp0 2 (tok s 0 48 48) ∧ slotFree otp0 2) ∧ s.blk.otp = otp0 ∧ tokensGood s :=
  ⟨by decide +kernel, rfl, pair_good h (by decide) (by decide) rfl rfl rfl rfl (by decide +kernel)⟩

theorem meets_protectionChanges_3 (h : ∀ p d g, Config.ecdsaOk p d g = true) : let s := pair otp0 2 3 3 5;
    (Commands s .pf ∧ unbusy s ∧ tok s 0 3 1 = 3 ∧ rolesGood s ∧ permitted otp0 3 (tok s 0 48 48) ∧ slotFree otp0 3) ∧ s.blk.otp = otp0 ∧ tokensGood s :=
  ⟨by decide +kernel, rfl, pair_good h (by decide) (by decide) rfl rfl rfl rfl (by decide +kernel)⟩

theorem meets_protectionChanges_4 (h : ∀ p d g, Config.ecdsaOk p d g = true) : let s := pair otp0 3 2 4 9;
    (Commands s .pf ∧ unbusy s ∧ tok s 0 3 1 = 4 ∧ rolesGood s ∧ permitted otp0 4 (tok s 0 48 48) ∧ slotFree otp0 4) ∧ s.blk.otp = otp0 ∧ tokensGood s :=
  ⟨by decide +kernel, rfl, pair_good h (by decide) (by decide) rfl rfl rfl rfl (by decide +kernel)⟩

theorem meets_protectionChanges_5 (h : ∀ p d g, Config.ecdsaOk p d g = true) : let s := pair otp0 1 2 5 3;
    (Commands s .pf ∧ unbusy s ∧ tok s 0 3 1 = 5 ∧ rolesGood s ∧ permitted otp0 5 (tok s 0 48 48) ∧ slotFree otp0 5) ∧ s.blk.otp = otp0 ∧ tokensGood s :=
  ⟨by decide +kernel, rfl, pair_good h (by decide) (by decide) rfl rfl rfl rfl (by decide +kernel)⟩

theorem meets_protectionChanges_6 (h : ∀ p d g, Config.ecdsaOk p d g = true) : let s := pair otp0 2 3 6 1;
    (Commands s .pf ∧ unbusy s ∧ tok s 0 3 1 = 6 ∧ rolesGood s ∧ permitted otp0 6 (tok s 0 48 48) ∧ slotFree otp0 6) ∧ s.blk.otp = otp0 ∧ tokensGood s :=
  ⟨by decide +kernel, rfl, pair_good h (by decide) (by decide) rfl rfl rfl rfl (by decide +kernel)⟩

theorem meets_protectionChanges_7 (h : ∀ p d g, Config.ecdsaOk p d g = true) : let s := pair otp0 2 1 7 (2 ^ 5 + 2 ^ 63);
    (Commands s .pf ∧ unbusy s ∧ tok s 0 3 1 = 7 ∧ rolesGood s ∧ permitted otp0 7 (tok s 0 48 48) ∧ slotFree otp0 7) ∧ s.blk.otp = otp0 ∧ tokensGood s :=
  ⟨by decide +kernel, rfl, pair_good h (by decide) (by decide) rfl rfl rfl rfl (by decide +kernel)⟩

/-- An image in slot B of version 11.1 whose four components are empty: its words where they are not zero, with digests of zero. -/
def slotImage : Mem :=
  { words := [(0, 0x4E415A4557524F44), (1, 0x10B0001), (2, 0x400000000), (3, 0x400001000), (8, 1), (16, 2), (24, 3), (32, 4)].map fun x => (ramBase .slotB + x.1, x.2) }

/-- A session in VERIFY of that image, with `floor` as the least SVN. -/
def verify (floor : Nat) (f : Block → Block) : State :=
  { mk (fun b => (f (((run b).setFld U.warden F.WDN_STG_STAT_STATE 2).setFld U.warden F.WDN_STG_STAT_OWNER 1)).setOtp fun _ => { otp0 with floor := floor }) with mem := slotImage }

/-- The image is genuine where every digest is 0 and every signature verifies. -/
theorem verify_genuine (floor : Nat) (f : Block → Block) (h0 : ∀ l, Config.sha384 l = 0) (h : ∀ p d g, Config.ecdsaOk p d g = true) : genuine (verify floor f) 1 := by
  have hm : (verify floor f).mem = slotImage := rfl
  have ho : (verify floor f).blk.otp = { otp0 with floor := floor } := rfl
  unfold genuine imgSigned imgNum
  rw [hm, ho]
  have n : slotNum slotImage 1 28 4 = 4 := by decide +kernel
  refine ⟨by decide +kernel, by decide +kernel, by decide +kernel, by decide +kernel, by decide +kernel, by rw [n]; decide +kernel, ?_, ?_, ?_⟩
  · simp [otp0, h0, h]; exact Or.inl rfl
  · intro _; simp [otp0, h0, h]; exact Or.inl rfl
  · rw [n]
    have d : ∀ c, c < 4 → slotNum slotImage 1 (68 + 64 * c) 4 + slotNum slotImage 1 (72 + 64 * c) 4 ≤ slotNum slotImage 1 20 4 ∧ slotNum slotImage 1 (80 + 64 * c) 48 = 0 := by
      decide +kernel
    intro c hc
    exact ⟨(d c hc).1, by rw [h0]; exact (d c hc).2⟩

/-- R405 to R409: a genuine image below the floor, one marked rejected, one accepted, and one in RECOVERY. -/
theorem meets_imageVerification (h0 : ∀ l, Config.sha384 l = 0) (h : ∀ p d g, Config.ecdsaOk p d g = true) :
    (∀ floor f, genuine (verify floor f) 1) ∧
    (let s := verify 12 id; Settled s ∧ s.blk.inReset = false ∧ slotOf s = 1 ∧ imgNum s 1 10 1 < 12 ∧ s.blk.fld U.warden F.WDN_STG_STAT_STATE = 2 ∧
      s.blk.fld U.warden F.WDN_STG_STAT_OWNER = 1) ∧
    (let s := verify 11 fun b => b.setBoot fun x => { x with rejected := [(1, 1)] }; Settled s ∧ slotOf s = 1 ∧ 11 ≤ imgNum s 1 10 1 ∧
      Store.get 0 s.blk.boot.rejected 1 = imgNum s 1 12 4 + 1) ∧
    (let s := verify 11 id; Settled s ∧ slotOf s = 1 ∧ 11 ≤ imgNum s 1 10 1 ∧ Store.get 0 s.blk.boot.rejected 1 ≠ imgNum s 1 12 4 + 1 ∧ s.blk.fld 0 F.HOST_BOOT_PHASE ≠ 10) ∧
    (let s := verify 11 fun b => b.setFld 0 F.HOST_BOOT_PHASE 10; Settled s ∧ slotOf s = 1 ∧ Store.get 0 s.blk.boot.rejected 1 ≠ imgNum s 1 12 4 + 1 ∧
      s.blk.fld 0 F.HOST_BOOT_PHASE = 10) :=
  ⟨fun _ _ => verify_genuine _ _ h0 h, by decide +kernel, by decide +kernel, by decide +kernel, by decide +kernel⟩


/-- R245: each code of an action, and every other code. -/
theorem meets_cueEffects : Settled W8.s1_0 ∧ (W8.s1_0.blk.ctx 7).action = 0x00 ∧ (W8.s1_0.blk.ctx 7).action ≠ 0x01 ∧
    Settled (mk run) ∧ (((mk run).blk.ctx 7).state ≠ 2 ∧ ((mk run).blk.ctx 7).state ≠ 4) := by decide +kernel

theorem meets_cuesAtUnits_write : NoGroups (W8.ws1.getD 3 State.reset) ∧ Acting (W8.ws1.getD 3 State.reset) 7 0x01 0 ∧ ((W8.ws1.getD 3 State.reset).blk.ctx 7).target = U.ts 3 ∧ ((W8.ws1.getD 3 State.reset).blk.ctx 7).arg 0 2 = 0x048 ∧
    ∃ d i, regAt (U.ts 3) 0x048 = some (d, i) ∧ rowsApart d := ⟨by decide +kernel, by decide +kernel, by decide +kernel, by decide +kernel, _, _, rfl, by decide +kernel⟩

/-- R299: an engine's own code in user privilege writes no stream entry. -/
theorem meets_cellarControl_user : Takes W16.s4_0 (.engine 3 false) U.cel ∧ W16.s4_0.blk.time.coll = [] ∧ whoPfSys (.engine 3 false) = false := by decide +kernel

/-- R273: two pages bind one serial number. -/
def twoBound : State := mk fun b => W15.bd 8 2 (W15.bd 7 2 (W15.ln 2 2 (run b)))
theorem meets_headAdmission_twice : Settled twoBound ∧ twoBound.blk.fld (U.fh 2) F.FH_STAT_LINK = 2 ∧
    (twoBound.blk.flag (U.hd 8) F.HD_BIND_V = true ∧ twoBound.blk.reg (U.hd 8) R.HD_SERIAL = 77) ∧
    twoBound.blk.flag (U.hd 7) F.HD_BIND_V = true ∧ twoBound.blk.reg (U.hd 7) R.HD_SERIAL = 77 := by decide +kernel

end Sys2Proof.Tests
end

/-! # Scope (00_scope.md): the passing of a Tc, the reset state, and the access to registers

The lemmas speak of a write in the order in which the model makes it: the bits of a word, the frame of what a write books, the
collisions of its Tc, UNIT_FAULT, the report of a fault, and the rows of a plain register. -/

/-! ## Bits of words and fields -/

namespace Sys2Proof.Machine

/-- A field is told by its bits. -/
theorem Word.fld_congr {v w : Word} {hi lo : Nat} (h : ∀ i, lo ≤ i → i ≤ hi → v.getLsbD i = w.getLsbD i) :
    Word.fld v hi lo = Word.fld w hi lo := by
  apply Nat.eq_of_testBit_eq
  intro i
  rw [Word.testBit_fld, Word.testBit_fld]
  by_cases hi' : i < hi + 1 - lo
  · rw [h (lo + i) (by omega) (by omega)]
  · simp [hi']

/-- A bit of a word beside a field that is replaced. -/
theorem Word.getLsbD_setFld_ne (v : Word) {hi lo i : Nat} (n : Nat) (h : hi < 64) (hd : i < lo ∨ hi < i) :
    (Word.setFld v hi lo n).getLsbD i = v.getLsbD i := by
  rw [Word.getLsbD_setFld _ _ _ _ _ h, if_neg (by omega)]

/-- A bit of a word inside a field that is replaced by another word's. -/
theorem Word.getLsbD_setFld_fld (v w : Word) {hi lo i : Nat} (h : hi < 64) (h1 : lo ≤ i) (h2 : i ≤ hi) :
    (Word.setFld v hi lo (Word.fld w hi lo)).getLsbD i = w.getLsbD i := by
  rw [Word.getLsbD_setFld _ _ _ _ _ h, if_pos (by omega), Word.testBit_fld]
  have hw : i - lo < hi + 1 - lo := by omega
  simp [hw, Nat.add_sub_cancel' h1]

/-- A bit of the mask of a field. -/
theorem getLsbD_fldMask {hi lo i : Nat} (h : i < 64) :
    (fldMask hi lo).getLsbD i = (decide (lo ≤ i) && decide (i - lo < hi + 1 - lo)) := by
  rw [fldMask, BitVec.getLsbD_ofNat, Nat.testBit_shiftLeft, Nat.testBit_two_pow_sub_one]
  simp [h]

/-- A half that leaves a field out has no bit of it (R11). -/
theorem getLsbD_halfMask_of_not_has {h : Half} {f : Fld} (hn : halfHas h f = false) {i : Nat} (h1 : f.lo ≤ i) (h2 : i ≤ f.hi) :
    (halfMask h).getLsbD i = false := by
  cases h with
  | both => cases hn
  | lo =>
    have : ∀ j, j < 64 → 32 ≤ j → (0xFFFFFFFF#64).getLsbD j = false := by decide
    by_cases hi : i < 64
    · exact this i hi (by simp [halfHas] at hn; omega)
    · exact BitVec.getLsbD_of_ge _ _ (by omega)
  | hi =>
    have : ∀ j, j < 32 → (0xFFFFFFFF00000000#64).getLsbD j = false := by decide
    exact this i (by simp [halfHas] at hn; omega)

end Sys2Proof.Machine

/-! ## What a write of registers leaves: the frame that the writes, the collisions and the fault reports share -/

namespace Sys2Proof.Machine

/-- `c` differs from `b` in registers that `free` names and in what books them alone: the host side, the collector, the recorder's
input and the tally. -/
def Block.booked (b : Block) (free : Nat → Nat → Bool) (c : Block) : Prop :=
  (∃ r h f d t, c = { b with regs := r, host := h, flt := f, recd := d, tally := t }) ∧
    ∀ v off, off < 1024 → free v off = false → c.reg v off = b.reg v off

section Booked
variable {a b c : Block} {free : Nat → Nat → Bool}

theorem Block.booked_refl : b.booked free b := ⟨⟨_, _, _, _, _, rfl⟩, fun _ _ _ _ => rfl⟩

theorem Block.booked_trans (h1 : a.booked free b) (h2 : b.booked free c) : a.booked free c := by
  obtain ⟨⟨r, h, f, d, t, rfl⟩, k1⟩ := h1
  obtain ⟨⟨r', h', f', d', t', rfl⟩, k2⟩ := h2
  exact ⟨⟨r', h', f', d', t', rfl⟩, fun v off ho hf => (k2 v off ho hf).trans (k1 v off ho hf)⟩

theorem Block.booked_mono {free' : Nat → Nat → Bool} (h : b.booked free c) (hf : ∀ v off, free' v off = false → free v off = false) :
    b.booked free' c :=
  ⟨h.1, fun v off ho hn => h.2 v off ho (hf v off hn)⟩

theorem Block.booked_setReg {u off : Nat} (w : Word) (ho : off < 1024) (hf : free u off = true) : b.booked free (b.setReg u off w) := by
  refine ⟨⟨_, _, _, _, _, rfl⟩, fun v o ho' hn => Block.reg_setReg_ne _ _ (regKey_ne ho ho' ?_)⟩
  by_cases hsame : v = u ∧ o = off
  · obtain ⟨rfl, rfl⟩ := hsame
    rw [hf] at hn
    contradiction
  · omega

theorem Block.booked_setFld {u : Nat} {f : Fld} (n : Nat) (ho : f.off < 1024) (hf : free u f.off = true) :
    b.booked free (b.setFld u f n) := Block.booked_setReg _ ho hf

theorem Block.booked_irq {u : Nat} (n : Nat) (hf : free u R.UNIT_IRQ_STAT = true) : b.booked free (b.irq u n) := by
  obtain ⟨h, e⟩ := b.irq_frame u n
  rw [e]
  exact Block.booked_trans (Block.booked_setReg _ (by decide) hf) ⟨⟨_, h, _, _, _, rfl⟩, fun _ _ _ _ => rfl⟩

theorem Block.booked_ite {p : Prop} [Decidable p] (hb : a.booked free b) (hc : a.booked free c) :
    a.booked free (if p then b else c) := by split <;> assumption

theorem Block.booked_when {p : Bool} {f : Block → Block} (h : b.booked free (f b)) : b.booked free (b.when p f) :=
  Block.booked_ite h Block.booked_refl

theorem Block.booked_side (h : HostH) (f : FltH) (d : RecH) (t : TallyH) :
    b.booked free { b with host := h, flt := f, recd := d, tally := t } := ⟨⟨_, _, _, _, _, rfl⟩, fun _ _ _ _ => rfl⟩

theorem Block.booked_note (blk ev n : Nat) : b.booked free (b.note blk ev n) := by
  obtain ⟨t, e⟩ := b.note_frame blk ev n
  rw [e]
  exact Block.booked_side b.host b.flt b.recd t

/-- A fault's frame as one of this kind. -/
theorem Block.reported.booked {u : Nat} (h : b.reported u c) (hf : ∀ off, free u off = true ∧ free 0 off = true) : b.booked free c := by
  obtain ⟨⟨r, x, f, d, rfl⟩, k⟩ := h
  refine ⟨⟨r, x, f, d, _, rfl⟩, fun v off ho hn => k v off ho ?_ ?_⟩
  · rintro rfl; simp [hf] at hn
  · rintro rfl; simp [hf] at hn

end Booked

/-- With no lane that waits and no memory write, a command that books registers alone leaves the block as its effect does, and all of
memory. -/
theorem State.eff_of_booked {s : State} {f : Mem → Block → Block} {b : Block} {free : Nat → Nat → Bool}
    (hs : Spec.Settled s) (hb : b.lanes = s.blk.lanes) (hm : b.memOps = s.blk.memOps) (h : b.booked free (f s.mem s.blk)) :
    s.eff f = { s with blk := f s.mem s.blk } := by
  obtain ⟨hl, hops⟩ := hs
  obtain ⟨⟨r, x, fl, d, t, e⟩, -⟩ := h
  have hlanes : (f s.mem s.blk).lanes = s.blk.lanes := by rw [e, ← hb]
  have hmem : (f s.mem s.blk).memOps = [] := by rw [e]; exact hm.trans hops
  have hidle : ((f s.mem s.blk).lanes.filter fun x => x.2.loadDue) = [] := by
    rw [hlanes, List.filter_eq_nil_iff]
    simpa using hl
  have hkeep : { f s.mem s.blk with memOps := [] } = f s.mem s.blk := hmem ▸ rfl
  calc s.eff f = { blk := (s.eff f).blk, mem := (s.eff f).mem, pending := s.pending } := rfl
    _ = { s with blk := f s.mem s.blk } := by rw [s.eff_blk f hidle, s.eff_mem_same f hmem, hkeep]

end Sys2Proof.Machine

namespace Sys2Proof.Spec

open Sys2Proof.Machine

/-- What holds of the block that such a command's effect leaves, with all of memory as before, holds after the command. -/
theorem ends_of_booked {c : Instr} {s : State} {f : Mem → Block → Block} {P : State → Prop} {b : Block} {free : Nat → Nat → Bool}
    (hx : exec c s = s.done f) (hs : Settled s) (hb : b.lanes = s.blk.lanes) (hm : b.memOps = s.blk.memOps)
    (h : b.booked free (f s.mem s.blk)) (hP : P { s with blk := f s.mem s.blk }) : Ends c s P :=
  ⟨_, hx, by rwa [State.eff_of_booked hs hb hm h]⟩

end Sys2Proof.Spec

/-! ## Interrupt causes and collisions (R20, R253, R255) -/

namespace Sys2Proof.Machine

theorem Block.reg_irq (b : Block) {u v off : Nat} (n : Nat) (h : regKey v off ≠ regKey u R.UNIT_IRQ_STAT) :
    (b.irq u n).reg v off = b.reg v off := by
  obtain ⟨h', e⟩ := b.irq_frame u n
  rw [e]
  exact b.reg_setReg_ne _ h

/-- A cause sets its bit of UNIT_IRQ_STAT and no other (R20). -/
theorem Block.reg_irq_stat (b : Block) (u n : Nat) :
    (b.irq u n).reg u R.UNIT_IRQ_STAT = b.reg u R.UNIT_IRQ_STAT ||| BitVec.ofNat 64 (1 <<< n) := by
  obtain ⟨h', e⟩ := b.irq_frame u n
  rw [e]
  exact b.reg_setReg_same u _ _

/-- What a collision at a register changes of the unit's page (R255). -/
def collisionRegs (u : Nat) : Nat → Nat → Bool := fun v off => v == u && (off == R.UNIT_COLLIDE || off == R.UNIT_IRQ_STAT)

theorem Block.note_flt (b : Block) (blk ev n : Nat) : (b.note blk ev n).flt = b.flt := by
  obtain ⟨t, e⟩ := b.note_frame blk ev n
  rw [e]

theorem Block.irq_flt (b : Block) (u n : Nat) : (b.irq u n).flt = b.flt := by
  obtain ⟨h, e⟩ := b.irq_frame u n
  rw [e]
  rfl

/-- A collision is counted in UNIT_COLLIDE and sets its cause. -/
theorem Block.collided_booked (b : Block) (u : Nat) {off : Nat} (ho : off < 0x400) :
    b.booked (collisionRegs u) (b.collided u off) := by
  have hc : collisionRegs u u R.UNIT_COLLIDE = true := by simp [collisionRegs]
  have hi : collisionRegs u u R.UNIT_IRQ_STAT = true := by simp [collisionRegs]
  unfold Block.collided
  rw [if_pos ho]
  refine Block.booked_trans (Block.booked_note 32 6 1) (Block.booked_trans ?_ (Block.booked_irq 4 hi))
  exact Block.booked_trans (Block.booked_setFld _ (by decide) hc) (Block.booked_setFld _ (by decide) hc)

theorem Block.collided_flt (b : Block) (u : Nat) {off : Nat} (ho : off < 0x400) : (b.collided u off).flt = b.flt := by
  unfold Block.collided
  rw [if_pos ho]
  exact (Block.irq_flt _ u 4).trans (b.note_flt 32 6 1)

/-- A block whose list of what acted in the present Tc is another. -/
def Block.withColl (b : Block) (l : List CollRec) : Block := { b with time := { b.time with coll := l } }

theorem Block.booked_withColl {b c : Block} {free : Nat → Nat → Bool} (h : b.booked free c) (l : List CollRec) :
    (b.withColl l).booked free (c.withColl l) := by
  obtain ⟨⟨r, x, f, d, t, rfl⟩, k⟩ := h
  exact ⟨⟨r, x, f, d, t, rfl⟩, k⟩

/-- A write that reaches bits of one register joins the list of its Tc; beside that it may count a collision. -/
theorem Block.hitMask_cases (b : Block) (who : Who) (u off : Nat) (mask : Word) :
    ∃ l, b.hitMask who u off mask = b.withColl l ∨ b.hitMask who u off mask = (b.collided u off).withColl l := by
  unfold Block.hitMask Block.hitMasks
  dsimp only
  split
  next x hx =>
    obtain rfl : x = (off, fieldsOf u off mask) := by simpa using List.mem_of_find?_eq_some hx
    exact ⟨_, .inr rfl⟩
  next => exact ⟨_, .inl rfl⟩

/-- What such a write may change of registers is the collision's count alone. -/
theorem Block.hitMask_booked (b : Block) (who : Who) (u : Nat) {off : Nat} (mask : Word) (ho : off < 0x400) :
    ∃ l, (b.withColl l).booked (collisionRegs u) (b.hitMask who u off mask) := by
  obtain ⟨l, e | e⟩ := b.hitMask_cases who u off mask
  · exact ⟨l, e ▸ Block.booked_refl⟩
  · exact ⟨l, e ▸ Block.booked_withColl (b.collided_booked u ho) l⟩

/-- The faults of the present Tc are as before such a write. -/
theorem Block.hitMask_faultsNow (b : Block) (who : Who) (u : Nat) {off : Nat} (mask : Word) (ho : off < 0x400) (v : Nat) :
    (b.hitMask who u off mask).faultsNow v = b.faultsNow v := by
  obtain ⟨l, e | e⟩ := b.hitMask_cases who u off mask
  · rw [e]; rfl
  · obtain ⟨⟨r, h, f, d, t, e'⟩, -⟩ := b.collided_booked u ho
    have ht : (b.collided u off).time = b.time := by rw [e']
    rw [e]
    simp only [Block.faultsNow, Block.withColl, b.collided_flt u ho, ht]

/-- Where nothing has acted in the Tc, a write changes nothing but the list of what did. -/
theorem Block.hitMask_first {b : Block} (h : b.time.coll = []) (who : Who) (u off : Nat) (mask : Word) :
    b.hitMask who u off mask = b.withColl [{ uid := u, off := off, mask := fieldsOf u off mask, cls := whoClass who, idx := b.whoIdx who }] := by
  simp [Block.hitMask, Block.hitMasks, Block.met, Block.withColl, h]

/-- A write prevails over no bit of its own rank (R255). -/
theorem Block.heldBits_own {b : Block} {who : Who} {r : CollRec} (h : b.time.coll = [r]) (hc : r.cls = whoClass who)
    (hi : r.idx = b.whoIdx who) (u off : Nat) : b.heldBits who u off = 0 := by
  simp [Block.heldBits, h, hc, hi, rankedBefore]

end Sys2Proof.Machine

/-! ## UNIT_FAULT (R18, R19) -/

namespace Sys2Proof.Machine

/-- One register of unit `u`. -/
def oneReg (u off : Nat) : Nat → Nat → Bool := fun v o => v == u && o == off

theorem oneReg_self (u off : Nat) : oneReg u off u off = true := by simp [oneReg]

theorem Block.holdCode_booked (b : Block) (e : FltEnt) (k : Bool) : b.booked (oneReg e.uid R.UNIT_FAULT) (b.holdCode e k) :=
  Block.booked_ite (Block.booked_trans (Block.booked_setFld _ (by decide) (oneReg_self _ _))
    (Block.booked_setFld _ (by decide) (oneReg_self _ _))) Block.booked_refl

/-- Beside CODE and CLASS every field of UNIT_FAULT stays as a fault is held. -/
theorem Block.holdCode_fld (b : Block) (e : FltEnt) (k : Bool) {g : Fld} (ho : g.off = R.UNIT_FAULT) (hl : 9 < g.lo) :
    (b.holdCode e k).fld e.uid g = b.fld e.uid g := by
  unfold Block.holdCode
  dsimp only
  split
  · rw [Block.fld_setFld_reg _ _ F.UNIT_FAULT_CLASS g _ (by decide) ho (.inr hl),
      Block.fld_setFld_reg _ _ F.UNIT_FAULT_CODE g _ (by decide) ho (.inr (Nat.lt_trans (by decide) hl))]
  · rfl

theorem Block.flag_setFlag_reg (b : Block) (u : Nat) (f g : Fld) (v : Bool) (h : f.hi < 64) (ho : g.off = f.off)
    (hd : g.hi < f.lo ∨ f.hi < g.lo) : (b.setFlag u f v).flag u g = b.flag u g := by
  simp only [Block.flag, Block.setFlag, Block.fld_setFld_reg _ _ _ _ _ h ho hd]

theorem Block.holdFault_booked (b : Block) (e : FltEnt) : b.booked (oneReg e.uid R.UNIT_FAULT) (b.holdFault e) := by
  unfold Block.holdFault
  have hset (f : Fld) (n : Nat) (hf : f.off = R.UNIT_FAULT) :
      b.booked (oneReg e.uid R.UNIT_FAULT) ((b.holdCode e (b.realPeer e)).setFld e.uid f n) :=
    Block.booked_trans (b.holdCode_booked e _) (Block.booked_setFld n (hf ▸ by decide) (hf ▸ oneReg_self _ _))
  exact Block.booked_ite (hset _ _ rfl) (Block.booked_ite (hset _ _ rfl) (b.holdCode_booked e _))

/-- A CORRECTED fault that is held sets its class bit, any other leaves it. -/
theorem Block.holdFault_corrected (b : Block) (e : FltEnt) :
    (b.holdFault e).flag e.uid F.UNIT_FAULT_CORRECTED = (decide (e.cls = 1) || b.flag e.uid F.UNIT_FAULT_CORRECTED) := by
  have hk : ∀ k, (b.holdCode e k).flag e.uid F.UNIT_FAULT_CORRECTED = b.flag e.uid F.UNIT_FAULT_CORRECTED := fun k => by
    rw [Block.flag, b.holdCode_fld e k rfl (by decide), Block.flag]
  unfold Block.holdFault
  dsimp only
  split
  next h1 => rw [Block.flag_setFlag_same _ _ _ _ (by decide) (by decide)]; simp [h1]
  next h1 =>
    split
    · rw [Block.flag_setFlag_reg _ _ F.UNIT_FAULT_CONTAINED F.UNIT_FAULT_CORRECTED _ (by decide) rfl (by decide), hk]; simp [h1]
    · rw [hk]; simp [h1]

/-- A CONTAINED fault that is held sets its class bit, any other leaves it. -/
theorem Block.holdFault_contained (b : Block) (e : FltEnt) :
    (b.holdFault e).flag e.uid F.UNIT_FAULT_CONTAINED = (decide (e.cls = 2) || b.flag e.uid F.UNIT_FAULT_CONTAINED) := by
  have hk : ∀ k, (b.holdCode e k).flag e.uid F.UNIT_FAULT_CONTAINED = b.flag e.uid F.UNIT_FAULT_CONTAINED := fun k => by
    rw [Block.flag, b.holdCode_fld e k rfl (by decide), Block.flag]
  unfold Block.holdFault
  dsimp only
  split
  next h1 =>
    rw [Block.flag_setFlag_reg _ _ F.UNIT_FAULT_CORRECTED F.UNIT_FAULT_CONTAINED _ (by decide) rfl (by decide), hk]; simp [h1]
  next h1 =>
    split
    next h2 => rw [Block.flag_setFlag_same _ _ _ _ (by decide) (by decide)]; simp [h2]
    next h2 => rw [hk]; simp [h2]

/-- Faults of one unit that are held one after the other: UNIT_FAULT alone changes, and the class bit of each is set. -/
theorem Block.holdFaults {u : Nat} {l : List FltEnt} (hl : ∀ e ∈ l, e.uid = u) (b : Block) :
    b.booked (oneReg u R.UNIT_FAULT) (b.each l Block.holdFault) ∧
      (b.each l Block.holdFault).flag u F.UNIT_FAULT_CORRECTED = (l.any (·.cls = 1) || b.flag u F.UNIT_FAULT_CORRECTED) ∧
      (b.each l Block.holdFault).flag u F.UNIT_FAULT_CONTAINED = (l.any (·.cls = 2) || b.flag u F.UNIT_FAULT_CONTAINED) := by
  induction l generalizing b with
  | nil => exact ⟨Block.booked_refl, rfl, rfl⟩
  | cons e t ih =>
    obtain rfl : e.uid = u := hl e (by simp)
    obtain ⟨hb, h1, h2⟩ := ih (fun x hx => hl x (by simp [hx])) (b.holdFault e)
    refine ⟨Block.booked_trans (b.holdFault_booked e) hb, h1.trans ?_, h2.trans ?_⟩
    · rw [b.holdFault_corrected, List.any_cons, Bool.or_left_comm, Bool.or_assoc]
    · rw [b.holdFault_contained, List.any_cons, Bool.or_left_comm, Bool.or_assoc]

theorem Block.faultsNow_uid (b : Block) {u : Nat} {e : FltEnt} (h : e ∈ b.faultsNow u) : e.uid = u := by
  unfold Block.faultsNow at h
  split at h
  · simpa using (List.mem_filter.mp h).2
  · cases h

theorem Block.faultClear_booked (b : Block) (u : Nat) (v : Word) : b.booked (oneReg u R.UNIT_FAULT) (b.faultClear u v) :=
  Block.booked_trans (Block.booked_setReg _ (by decide) (oneReg_self u _)) (Block.holdFaults (fun _ h => b.faultsNow_uid h) _).1

/-- The faults of a clearing write's own Tc come after it, and keep their class bits (R19). -/
theorem Block.faultClear_keeps (b : Block) (v : Word) {u : Nat} {e : FltEnt} (he : e ∈ b.faultsNow u) :
    (e.cls = 1 → (b.faultClear u v).flag u F.UNIT_FAULT_CORRECTED = true) ∧
      (e.cls = 2 → (b.faultClear u v).flag u F.UNIT_FAULT_CONTAINED = true) := by
  unfold Block.faultClear
  dsimp only
  obtain ⟨-, h1, h2⟩ := Block.holdFaults (fun _ h => b.faultsNow_uid h) (b.setReg u R.UNIT_FAULT _)
  rw [h1, h2]
  have hany : ∀ c, e.cls = c → (b.faultsNow u).any (·.cls = c) = true := fun c hc =>
    List.any_eq_true.mpr ⟨e, he, by simpa using hc⟩
  exact ⟨fun h => by rw [hany 1 h]; rfl, fun h => by rw [hany 2 h]; rfl⟩

/-- A field inside a range of bits that is set to zero. -/
theorem Word.fld_setFld_zero (v : Word) {hi lo hi' lo' : Nat} (h : hi < 64) (h1 : lo ≤ lo') (h2 : hi' ≤ hi) :
    Word.fld (Word.setFld v hi lo 0) hi' lo' = 0 := by
  apply Nat.eq_of_testBit_eq
  intro i
  rw [Word.testBit_fld, Word.getLsbD_setFld _ _ _ _ _ h]
  by_cases hw : i < hi' + 1 - lo'
  · rw [if_pos (by omega)]; simp
  · simp [hw]

/-- UNIT_FAULT with the class bits cleared that a write of `v` names, never FATAL. -/
def faultCleared (w v : Word) : Word := w &&& ~~~(v &&& 0x30000)

/-- CODE and CLASS go with the last class bit. -/
def faultShown (w : Word) : Word := if w.extractLsb' 16 3 = 0 then Word.setFld w 9 0 0 else w

theorem getLsbD_faultCleared (w v : Word) {i : Nat} (hi : i < 16 ∨ 18 ≤ i) : (faultCleared w v).getLsbD i = w.getLsbD i := by
  have hm : ∀ j, j < 64 → j < 16 ∨ 18 ≤ j → (0x30000#64).getLsbD j = false := by decide
  by_cases h : i < 64
  · rw [faultCleared, BitVec.getLsbD_and, BitVec.getLsbD_not, BitVec.getLsbD_and]
    have := hm i h hi
    simp only [BitVec.ofNat_eq_ofNat, this]
    simp [h]
  · rw [BitVec.getLsbD_of_ge _ _ (by omega), BitVec.getLsbD_of_ge _ _ (by omega)]

theorem getLsbD_faultShown (w : Word) {i : Nat} (hi : 9 < i) : (faultShown w).getLsbD i = w.getLsbD i := by
  unfold faultShown
  split
  · exact Word.getLsbD_setFld_ne _ _ (by decide) (.inr hi)
  · rfl

/-- CODE, CLASS and any other field of UNIT_FAULT below them. -/
theorem fld_faultShown (w : Word) {hi lo : Nat} (h : hi ≤ 9) :
    Word.fld (faultShown w) hi lo = if w.extractLsb' 16 3 = 0 then 0 else Word.fld w hi lo := by
  unfold faultShown
  split
  · exact Word.fld_setFld_zero _ (by decide) (Nat.zero_le _) h
  · rfl

/-- UNIT_FAULT after a clearing write with no fault in its Tc (R19). -/
theorem Block.faultClear_reg (b : Block) {u : Nat} (v : Word) (h : b.faultsNow u = []) :
    (b.faultClear u v).reg u R.UNIT_FAULT = faultShown (faultCleared (b.reg u R.UNIT_FAULT) v) := by
  have hbits : ∀ w : Word, Word.fld w 18 16 = 0 ↔ w.extractLsb' 16 3 = 0 := fun w => by
    rw [BitVec.toNat_eq, BitVec.extractLsb'_toNat]; rfl
  unfold Block.faultClear
  simp only [h, Block.each, List.foldl_nil, Block.reg_setReg_same, hbits]
  rfl

theorem Block.fld_eq_fld {b c : Block} {u : Nat} {f : Fld} (h : c.reg u f.off = b.reg u f.off) : c.fld u f = b.fld u f := by
  rw [Block.fld, h, Block.fld]

/-- CNT_CLR leaves CORR_CNT with the CORRECTED faults of its own Tc (R19). -/
theorem Block.cntClear_fld (b : Block) (u : Nat) : (b.cntClear u).fld u F.UNIT_FAULT_CORR_CNT =
    min 65535 ((b.faultsNow u).filter fun e => e.cls == 1).length := by
  rw [Block.cntClear, Block.fld_setFld_same _ _ _ _ (by decide)]
  exact Nat.mod_eq_of_lt (Nat.lt_of_le_of_lt (Nat.min_le_left _ _) (by decide))

theorem Block.cntClear_booked (b : Block) (u : Nat) : b.booked (oneReg u R.UNIT_FAULT) (b.cntClear u) :=
  Block.booked_setFld _ (by decide) (oneReg_self u _)

/-- CNT_CLR leaves every bit beside CORR_CNT. -/
theorem Block.cntClear_rest (b : Block) (u : Nat) : (b.cntClear u).reg u R.UNIT_FAULT &&& ~~~0x0000FFFF00000000 =
    b.reg u R.UNIT_FAULT &&& ~~~0x0000FFFF00000000 := by
  have hm : ∀ i, i < 64 → 32 ≤ i → i < 48 → (0x0000FFFF00000000#64).getLsbD i = true := by decide
  apply BitVec.eq_of_getLsbD_eq
  intro i hi
  have hreg : (b.cntClear u).reg u R.UNIT_FAULT = Word.setFld (b.reg u R.UNIT_FAULT) 47 32
      (min 65535 ((b.faultsNow u).filter fun e => e.cls == 1).length) := Block.reg_setReg_same ..
  rw [hreg, BitVec.getLsbD_and, BitVec.getLsbD_and, BitVec.getLsbD_not]
  by_cases hc : 32 ≤ i ∧ i < 48
  · have := hm i hi hc.1 hc.2
    simp only [BitVec.ofNat_eq_ofNat, this]
    simp
  · rw [Word.getLsbD_setFld_ne _ _ (by decide) (by omega)]

end Sys2Proof.Machine

/-! ## The commands on UNIT_FAULT -/

namespace Sys2Proof.Spec

open Sys2Proof.Machine

theorem exec_unitFaultClear (who : Who) (u : Nat) (v : Word) (s : State) : exec (.unitFaultClear who u v) s = execUnitFaultClear who u v s := rfl
theorem exec_cntClr (who : Who) (u : Nat) (s : State) : exec (.cntClr who u) s = execCntClr who u s := rfl

/-- A writer that reaches the page has its write taken. -/
theorem wrMask_of_takes {s : State} {who : Who} {u : Nat} (h : Takes s who u) (off : Nat) (mask : Word) (eff : Block → Block) :
    s.blk.wrMask who u off mask eff = eff (s.blk.hitMask who u off mask) := by
  obtain ⟨-, hok, hheld⟩ := h
  simp [Block.wrMask, hok, hheld]

/-- The registers of unit `u` that a write of UNIT_FAULT may change: beside it the count of collisions. -/
abbrev faultWriteRegs (u : Nat) : Nat → Nat → Bool := fun u' off => u' == u && (off == R.UNIT_FAULT || off == R.UNIT_COLLIDE || off == R.UNIT_IRQ_STAT)

/-- A write of some bits of UNIT_FAULT that is taken: what its effect on UNIT_FAULT leaves, with no other register changed but the
count of collisions, and no memory. -/
theorem ends_faultWrite {c : Instr} {s : State} {who : Who} {u : Nat} {mask : Word} {eff : Block → Block} {P : State → Prop}
    (hx : exec c s = s.did fun b => b.wrMask who u R.UNIT_FAULT mask eff) (ht : Takes s who u)
    (heff : ∀ b : Block, b.booked (oneReg u R.UNIT_FAULT) (eff b))
    (hP : ∀ b : Block, b.reg u R.UNIT_FAULT = s.blk.reg u R.UNIT_FAULT → b.faultsNow u = s.blk.faultsNow u →
      ∀ t : State, t.blk = eff b → RegsKept s t (faultWriteRegs u) → MemSame s t → P t) : Ends c s P := by
  obtain ⟨l, hhit⟩ := s.blk.hitMask_booked who u mask (off := R.UNIT_FAULT) (by decide)
  have hfaults := s.blk.hitMask_faultsNow who u mask (off := R.UNIT_FAULT) (by decide) u
  generalize hb : s.blk.hitMask who u R.UNIT_FAULT mask = b at hhit hfaults
  have hwr : s.blk.wrMask who u R.UNIT_FAULT mask eff = eff b := by rw [wrMask_of_takes ht, hb]
  have hall : (s.blk.withColl l).booked (faultWriteRegs u) (s.blk.wrMask who u R.UNIT_FAULT mask eff) := by
    rw [hwr]
    refine Block.booked_trans (Block.booked_mono hhit ?_) (Block.booked_mono (heff b) ?_)
    · simp only [collisionRegs]; grind
    · simp only [oneReg]; grind
  refine ends_of_booked (b := s.blk.withColl l) hx ht.1 rfl rfl hall (hP b ?_ hfaults _ hwr hall.2 rfl)
  exact hhit.2 u R.UNIT_FAULT (by decide) (by simp [collisionRegs, R.UNIT_FAULT, R.UNIT_COLLIDE, R.UNIT_IRQ_STAT])

end Sys2Proof.Spec

/-! ## What a fault's report leaves of the header registers (R18, R19, R20) -/

namespace Sys2Proof.Machine

/-- `c` differs from `b` in the root's own registers alone: of the root's header no more than causes that set their bits. -/
def Block.noted (b c : Block) : Prop :=
  b.booked (fun v off => v == 0 && (decide (0x040 ≤ off) || off == R.UNIT_IRQ_STAT)) c ∧
    ∀ i, (b.reg 0 R.UNIT_IRQ_STAT).getLsbD i = true → (c.reg 0 R.UNIT_IRQ_STAT).getLsbD i = true

section Noted
variable {a b c : Block}

theorem Block.noted_refl : b.noted b := ⟨Block.booked_refl, fun _ h => h⟩

theorem Block.noted_trans (h1 : a.noted b) (h2 : b.noted c) : a.noted c :=
  ⟨Block.booked_trans h1.1 h2.1, fun i h => h2.2 i (h1.2 i h)⟩

theorem Block.noted_setReg {off : Nat} (w : Word) (h1 : 0x040 ≤ off) (h2 : off < 1024) : b.noted (b.setReg 0 off w) := by
  refine ⟨Block.booked_setReg w h2 (by simp [h1]), fun i h => ?_⟩
  rwa [b.reg_setReg_ne w (regKey_ne h2 (by decide) (.inr (Nat.ne_of_lt (Nat.lt_of_lt_of_le (by decide) h1))))]

theorem Block.noted_setFld {f : Fld} (n : Nat) (h1 : 0x040 ≤ f.off) (h2 : f.off < 1024) : b.noted (b.setFld 0 f n) :=
  Block.noted_setReg _ h1 h2

theorem Block.noted_side (h : HostH) (f : FltH) (d : RecH) (t : TallyH) :
    b.noted { b with host := h, flt := f, recd := d, tally := t } := ⟨Block.booked_side h f d t, fun _ h => h⟩

theorem Block.noted_irq (n : Nat) : b.noted (b.irq 0 n) := by
  refine ⟨Block.booked_irq n (by decide), fun i h => ?_⟩
  rw [b.reg_irq_stat, BitVec.getLsbD_or, h, Bool.true_or]

theorem Block.noted_when {p : Bool} {f : Block → Block} (h : a.noted b) (hf : ∀ c : Block, c.noted (f c)) : a.noted (b.when p f) := by
  unfold Block.when
  split
  · exact Block.noted_trans h (hf b)
  · exact h

theorem Block.noted_each {α : Type} {l : List α} {f : Block → α → Block} (h : a.noted b)
    (hf : ∀ c : Block, ∀ x ∈ l, c.noted (f c x)) : a.noted (b.each l f) :=
  Block.each_induct l f b h fun c x hx hc => Block.noted_trans hc (hf c x hx)

end Noted

theorem Block.noted_nextReg (b : Block) {j : Nat} (h : j ∈ List.range 16) (w : Word) : b.noted (b.setReg 0 (R.FLT_NEXT j) w) := by
  have := List.mem_range.mp h
  exact Block.noted_setReg w (by unfold R.FLT_NEXT; omega) (by unfold R.FLT_NEXT; omega)

theorem Block.showCaptured_noted (b : Block) : b.noted b.showCaptured := by
  have hfirst (w w' : Word) : b.noted ((b.setReg 0 R.FLT_FIRST w).setReg 0 R.FLT_FIRST_STAMP w') :=
    Block.noted_trans (Block.noted_setReg w (by decide) (by decide)) (Block.noted_setReg w' (by decide) (by decide))
  unfold Block.showCaptured
  split
  · refine Block.noted_trans (Block.noted_each (hfirst _ _) fun c j hj => ?_) (Block.noted_setFld _ (by decide) (by decide))
    exact c.noted_nextReg hj 0
  · dsimp only
    refine Block.noted_trans (Block.noted_each (hfirst _ _) fun c j hj => ?_) (Block.noted_setFld _ (by decide) (by decide))
    split
    · exact Block.noted_refl
    · exact c.noted_nextReg hj _

theorem Block.capture_noted (b : Block) (e : FltEnt) : b.noted (b.capture e) := by
  unfold Block.capture
  dsimp only
  split
  · refine Block.noted_when (Block.noted_when ?_ fun c => ?_) fun c => Block.noted_irq _
    · exact Block.noted_trans (Block.noted_side b.host _ b.recd b.tally) (Block.showCaptured_noted _)
    · exact Block.noted_trans (Block.noted_setFld _ (by decide) (by decide)) (Block.noted_irq _)
  · exact Block.noted_refl

theorem Block.collect_noted (b : Block) (line : Nat) : b.noted (b.collect line) := by
  unfold Block.collect
  dsimp only
  split
  · exact Block.noted_refl
  have hline : b.noted (b.setReg 0 R.FLT_COLLECT (b.reg 0 R.FLT_COLLECT ||| BitVec.ofNat 64 (1 <<< line))) :=
    Block.noted_setReg _ (by decide) (by decide)
  generalize b.setReg 0 R.FLT_COLLECT (b.reg 0 R.FLT_COLLECT ||| BitVec.ofNat 64 (1 <<< line)) = c at hline ⊢
  refine Block.noted_trans hline ?_
  split
  · split
    · exact Block.noted_setFld _ (by decide) (by decide)
    · exact Block.noted_refl
  · refine Block.noted_trans ?_ (Block.noted_setFld _ (by decide) (by decide))
    refine Block.noted_trans ?_ (Block.noted_setReg _ (by decide) (by decide))
    refine Block.noted_trans ?_ (Block.noted_setFld _ (by decide) (by decide))
    refine Block.noted_trans ?_ (Block.noted_setFld _ (by decide) (by decide))
    exact Block.noted_side _ _ _ _

theorem Block.markCoincident_noted (b : Block) (u : Nat) : b.noted (b.markCoincident u) := by
  unfold Block.markCoincident
  dsimp only
  refine Block.noted_trans ?_ (Block.noted_irq _)
  refine Block.noted_trans (Block.noted_trans ?_ (Block.showCaptured_noted _)) (Block.noted_setFld _ (by decide) (by decide))
  exact Block.noted_when (Block.noted_side b.host _ _ b.tally) fun c => Block.noted_setFld _ (by decide) (by decide)

theorem Block.noteFault_noted (b : Block) (e : FltEnt) : b.noted (b.noteFault e) := Block.noted_side b.host _ b.recd b.tally

/-- The report of a fault is UNIT_FAULT at its unit, and then what the root notes of it. -/
theorem Block.faultReport_noted (b : Block) (u code cls : Nat) (inj fatalBit : Bool) (path : Nat) :
    ∃ c e k, (∃ f, c = { b with flt := f }) ∧ e.uid = u ∧ e.cls = cls ∧
      (Block.unitFault c e fatalBit k).noted (b.faultReport u code cls inj fatalBit path) := by
  generalize hr : b.faultReport u code cls inj fatalBit path = r
  unfold Block.faultReport at hr
  extract_lets cyc flt c metReal metInj e higher c1 c2 c3 c4 rec? c5 c6 at hr
  have hcycle : ∃ f, c = { b with flt := f } := by
    unfold c
    split
    · exact ⟨b.flt, rfl⟩
    · exact ⟨_, rfl⟩
  have hcaptured : c1.noted c4 :=
    Block.noted_trans (Block.noted_trans (c1.capture_noted e) (c2.collect_noted _)) (c3.noteFault_noted e)
  have hrecorded : c1.noted c5 := Block.noted_when hcaptured fun x => Block.noted_side x.host x.flt _ x.tally
  have hmet : c1.noted c6 := Block.noted_when hrecorded fun x =>
    Block.noted_trans (Block.noted_setFld _ (by decide) (by decide)) (Block.noted_irq 25)
  exact ⟨c, e, c.realPeer e, hcycle, rfl, rfl, hr ▸ Block.noted_when hmet fun x => x.markCoincident_noted u⟩

/-- The header registers of a unit that a fault there changes. -/
def faultRegs (u : Nat) : Nat → Nat → Bool := fun v off => v == u && (off == R.UNIT_FAULT || off == R.UNIT_IRQ_STAT)

theorem Block.unitFault_booked (b : Block) (e : FltEnt) (p k : Bool) : b.booked (faultRegs e.uid) (b.unitFault e p k) := by
  have hc : b.booked (faultRegs e.uid) (b.holdCode e k) :=
    Block.booked_mono (b.holdCode_booked e k) fun v off h => by simp only [faultRegs, oneReg] at *; grind
  have hf : faultRegs e.uid e.uid R.UNIT_FAULT = true := by simp [faultRegs]
  have hi : faultRegs e.uid e.uid R.UNIT_IRQ_STAT = true := by simp [faultRegs]
  unfold Block.unitFault
  refine Block.booked_trans hc (Block.booked_ite ?_ (Block.booked_ite ?_ ?_))
  · exact Block.booked_trans (Block.booked_trans (Block.booked_setFld _ (by decide) hf) (Block.booked_setFld _ (by decide) hf)) (Block.booked_irq _ hi)
  · exact Block.booked_trans (Block.booked_setFld _ (by decide) hf) (Block.booked_irq _ hi)
  · exact Block.booked_trans (Block.booked_when (Block.booked_setFld _ (by decide) hf)) (Block.booked_irq _ hi)

/-- A fault reported at a unit changes of its page UNIT_FAULT and UNIT_IRQ_STAT alone, and beside it the root's page. -/
theorem Block.faultReport_booked (b : Block) (u code cls : Nat) (inj fatalBit : Bool) (path : Nat) :
    b.booked (fun v off => faultRegs u v off || v == 0) (b.faultReport u code cls inj fatalBit path) := by
  obtain ⟨c, e, k, ⟨f, rfl⟩, rfl, -, h⟩ := b.faultReport_noted u code cls inj fatalBit path
  refine Block.booked_trans (Block.booked_side b.host f b.recd b.tally) (Block.booked_trans ?_ (Block.booked_mono h.1 ?_))
  · exact Block.booked_mono (Block.unitFault_booked _ e fatalBit k) fun v off => by simp only [Bool.or_eq_false_iff]; exact And.left
  · intro v off; simp only [Bool.or_eq_false_iff, Bool.and_eq_false_imp]; grind

end Sys2Proof.Machine

/-! ## A CORRECTED fault (R18, R347) -/

namespace Sys2Proof.Machine

/-- A counter field that saturates, after it has counted. -/
theorem Block.fld_incSat_same (b : Block) (u : Nat) (f : Fld) (n : Nat) (h : f.hi < 64) :
    (b.incSat u f n).fld u f = min (2 ^ (f.hi + 1 - f.lo) - 1) (b.fld u f + n) := by
  rw [Block.incSat, Block.fld_setFld_same _ _ _ _ h]
  exact Nat.mod_eq_of_lt (Nat.lt_of_le_of_lt (Nat.min_le_left _ _) (Nat.sub_lt (Nat.two_pow_pos _) Nat.one_pos))

/-- UNIT_FAULT and the cause after a CORRECTED fault at its unit. -/
theorem Block.unitFault_corrected (b : Block) {e : FltEnt} (h : e.cls = 1) (p k : Bool) :
    (b.unitFault e p k).flag e.uid F.UNIT_FAULT_CORRECTED = true ∧
      (b.unitFault e p k).fld e.uid F.UNIT_FAULT_CORR_CNT =
        min (2 ^ (F.UNIT_FAULT_CORR_CNT.hi + 1 - F.UNIT_FAULT_CORR_CNT.lo) - 1) (b.fld e.uid F.UNIT_FAULT_CORR_CNT + 1) ∧
      ((b.unitFault e p k).reg e.uid R.UNIT_IRQ_STAT).getLsbD 1 = true := by
  have he : b.unitFault e p k =
      (((b.holdCode e k).setFlag e.uid F.UNIT_FAULT_CORRECTED true).incSat e.uid F.UNIT_FAULT_CORR_CNT 1).irq e.uid 1 := by
    simp only [Block.unitFault, h, if_true]
  have hirq (f : Fld) (hf : f.off = R.UNIT_FAULT) (c : Block) : (c.irq e.uid 1).fld e.uid f = c.fld e.uid f :=
    Block.fld_eq_fld (c.reg_irq 1 (regKey_ne (by decide) (hf ▸ by decide) (.inr (hf ▸ by decide))))
  rw [he]
  refine ⟨?_, ?_, ?_⟩
  · rw [Block.flag, hirq _ rfl, Block.incSat, Block.fld_setFld_reg _ _ F.UNIT_FAULT_CORR_CNT F.UNIT_FAULT_CORRECTED _ (by decide) rfl (by decide)]
    exact Block.flag_setFlag_same _ _ _ _ (by decide) (by decide)
  · rw [hirq _ rfl, Block.fld_incSat_same _ _ _ _ (by decide), Block.setFlag,
      Block.fld_setFld_reg _ _ F.UNIT_FAULT_CORRECTED F.UNIT_FAULT_CORR_CNT _ (by decide) rfl (by decide), b.holdCode_fld e k rfl (by decide)]
  · rw [Block.reg_irq_stat, BitVec.getLsbD_or]
    simp

end Sys2Proof.Machine

namespace Sys2Proof.Spec

open Sys2Proof.Machine

/-- A block with the report of a CORRECTED fault: the class bit, CORR_CNT and the cause. -/
theorem corrected_of_faultReport {s t : State} (u code : Nat) (inj fatalBit : Bool) (path : Nat)
    (ht : t.blk = s.blk.faultReport u code 1 inj fatalBit path) : Corrected s t u := by
  obtain ⟨c, e, k, ⟨f, rfl⟩, rfl, hcls, hnoted, hstat⟩ := s.blk.faultReport_noted u code 1 inj fatalBit path
  obtain ⟨hflag, hcnt, hirq⟩ := Block.unitFault_corrected { s.blk with flt := f } hcls fatalBit k
  rw [← ht] at hnoted hstat
  have hreg : t.blk.reg e.uid R.UNIT_FAULT = _ := hnoted.2 e.uid R.UNIT_FAULT (by decide) (by simp [R.UNIT_FAULT, R.UNIT_IRQ_STAT])
  refine ⟨?_, ?_, ?_⟩
  · rw [Block.flag, Block.fld_eq_fld hreg]; exact hflag
  · rw [Block.fld_eq_fld hreg]; exact hcnt
  · by_cases h0 : e.uid = 0
    · rw [h0] at hirq ⊢; exact hstat 1 hirq
    · rw [hnoted.2 e.uid R.UNIT_IRQ_STAT (by decide) (by simp [h0])]; exact hirq

theorem exec_regAlign (who : Who) (write : Bool) (u : Nat) (s : State) : exec (.regAlign who write u) s = execRegAlign who write u s := rfl

/-- What a PCIe access of illegal width comes to where the link and the device are up (R11). -/
theorem exec_regAlign_up {who : Who} {s : State} (h1 : s.blk.inReset = false) (h2 : s.blk.linkDown = false)
    (hw : who = .pf ∨ ∃ k, who = .vf k) (write : Bool) (u : Nat) :
    exec (.regAlign who write u) s = s.done fun _ _ =>
      if write then s.blk.correctedBy who 0 C.regAlign else { s.blk.correctedBy who 0 C.regAlign with rdata := 0 } := by
  rw [exec_regAlign, execRegAlign, State.did_eq, State.done_eq]
  obtain rfl | ⟨k, rfl⟩ := hw <;> simp [State.eff, whoFunc, h1, h2]

theorem booked_rdata {b c : Block} {free : Nat → Nat → Bool} (h : b.booked free c) (v : Word) :
    ({ b with rdata := v } : Block).booked free { c with rdata := v } := by
  obtain ⟨⟨r, x, f, d, t, rfl⟩, k⟩ := h
  exact ⟨⟨r, x, f, d, t, rfl⟩, k⟩

/-- R11: a PCIe access of illegal width raises REG_ALIGN at the root, and a read of this kind answers zero. -/
theorem ends_regAlign {who : Who} {s : State} (hs : Settled s) (h1 : s.blk.inReset = false) (h2 : s.blk.linkDown = false)
    (hw : who = .pf ∨ ∃ k, who = .vf k) (u : Nat) :
    (Ends (.regAlign who true u) s fun t => Corrected s t 0 ∧ RegsKept s t (fun u' _ => u' == 0) ∧ MemSame s t) ∧
      Ends (.regAlign who false u) s fun t => Corrected s t 0 ∧ t.blk.rdata = 0 ∧ RegsKept s t (fun u' _ => u' == 0) ∧ MemSame s t := by
  have hroot : s.blk.booked (fun u' _ => u' == 0) (s.blk.correctedBy who 0 C.regAlign) :=
    (s.blk.faultReport_frame 0 C.regAlign 1 false false (pathClass who)).booked fun _ => ⟨rfl, rfl⟩
  have hfault : Corrected s { s with blk := s.blk.correctedBy who 0 C.regAlign } 0 :=
    corrected_of_faultReport 0 C.regAlign false false (pathClass who) rfl
  constructor
  · exact ends_of_booked (exec_regAlign_up h1 h2 hw true u) hs rfl rfl hroot ⟨hfault, hroot.2, rfl⟩
  · exact ends_of_booked (b := { s.blk with rdata := 0 }) (exec_regAlign_up h1 h2 hw false u) hs rfl rfl (booked_rdata hroot 0) ⟨hfault, rfl, hroot.2, rfl⟩

/-- A field after UNIT_FAULT has been cleared, where its bits are above CLASS. -/
theorem fld_faultClear {b : Block} {u : Nat} (v : Word) (h : b.faultsNow u = []) {f : Fld} (ho : f.off = R.UNIT_FAULT) (hl : 18 ≤ f.lo) :
    (b.faultClear u v).fld u f = b.fld u f := by
  rw [Block.fld, Block.fld, ho, b.faultClear_reg v h]
  refine Word.fld_congr fun i h1 _ => ?_
  rw [getLsbD_faultShown _ (by omega), getLsbD_faultCleared _ _ (.inr (by omega))]

/-- R19: a W1C write of UNIT_FAULT, with the faults of its own Tc after it. -/
theorem ends_unitFaultClear {who : Who} {u : Nat} (v : Word) {s : State} (hu : reservedUid u = false) (ht : Takes s who u)
    {P : State → Prop} (hP : ∀ b : Block, b.reg u R.UNIT_FAULT = s.blk.reg u R.UNIT_FAULT → b.faultsNow u = s.blk.faultsNow u →
      ∀ t : State, t.blk = b.faultClear u v → RegsKept s t (faultWriteRegs u) → MemSame s t → P t) :
    Ends (.unitFaultClear who u v) s P :=
  ends_faultWrite (by simp only [exec_unitFaultClear, execUnitFaultClear, hu]; rfl) ht (fun b => b.faultClear_booked u v) hP

/-- R19: CNT_CLR, with the CORRECTED faults of its own Tc after it. -/
theorem ends_cntClr {who : Who} {u : Nat} {s : State} (hu : reservedUid u = false) (ht : Takes s who u)
    {P : State → Prop} (hP : ∀ b : Block, b.reg u R.UNIT_FAULT = s.blk.reg u R.UNIT_FAULT → b.faultsNow u = s.blk.faultsNow u →
      ∀ t : State, t.blk = b.cntClear u → RegsKept s t (faultWriteRegs u) → MemSame s t → P t) :
    Ends (.cntClr who u) s P :=
  ends_faultWrite (by simp only [exec_cntClr, execCntClr, hu]; rfl) ht (fun b => b.cntClear_booked u) hP

/-- R11, R18, R19: illegal accesses and the writes of UNIT_FAULT. -/
theorem faultRegisterWrites : FaultRegisterWrites := by
  intro who u v s hs
  refine ⟨fun h1 h2 hw => ends_regAlign hs h1 h2 hw u, fun hu ht => ⟨?_, fun hnone => ?_, ?_⟩⟩
  · refine ends_unitFaultClear v hu ht fun b _ hfaults t hblk _ _ e he => ?_
    rw [hblk]
    exact b.faultClear_keeps v (hfaults ▸ he)
  · refine ends_unitFaultClear v hu ht fun b hreg hfaults t hblk hkept hmem => ?_
    have hnow : b.faultsNow u = [] := hfaults.trans hnone
    have hw : t.blk.reg u R.UNIT_FAULT = faultShown (faultCleared (s.blk.reg u R.UNIT_FAULT) v) := by
      rw [hblk, b.faultClear_reg v hnow, hreg]
    have hlow (f : Fld) (ho : f.off = R.UNIT_FAULT) (hf : f.hi ≤ 9) : t.blk.fld u f =
        if (faultCleared (s.blk.reg u R.UNIT_FAULT) v).extractLsb' 16 3 = 0 then 0 else s.blk.fld u f := by
      rw [Block.fld, ho, hw, fld_faultShown _ hf, Block.fld, ho,
        Word.fld_congr fun i _ h2 => getLsbD_faultCleared _ _ (.inl (by omega))]
    refine ⟨?_, fun i h1 _ => ?_, hlow _ rfl (by decide), hlow _ rfl (by decide), hkept, hmem⟩
    · rw [hblk, fld_faultClear v hnow rfl (by decide), Block.fld_eq_fld hreg]
    · rw [hw, getLsbD_faultShown _ (by omega)]; rfl
  · refine ends_cntClr hu ht fun b hreg hfaults t hblk hkept hmem => ⟨?_, ?_, hkept, hmem⟩
    · rw [hblk, b.cntClear_fld, hfaults]
    · rw [hblk, b.cntClear_rest, hreg]

end Sys2Proof.Spec

/-! ## A plain write of a register, row by row (R11, R12, R470) -/

namespace Sys2Proof.Machine

section PutRow
variable (b : Block) (who : Who) (u off : Nat) (half : Half) (v : Word) (r : Row)

theorem Block.putRow_booked (ho : off < 1024) : b.booked (oneReg u off) (b.putRow who u off half v r).1 := by
  have hset (w : Word) : b.booked (oneReg u off) (b.setReg u off w) := Block.booked_setReg w ho (oneReg_self u off)
  unfold Block.putRow
  dsimp only
  split
  · exact Block.booked_refl
  split
  · exact Block.booked_refl
  · exact Block.booked_refl
  · exact hset _
  · split
    · exact Block.booked_refl
    · exact hset _
  · exact hset _

/-- A write of one row leaves every bit beside the row. -/
theorem Block.putRow_getLsbD_ne {i : Nat} (hr : r.hi < 64) (h64 : i < 64) (hi : i < r.lo ∨ r.hi < i) :
    ((b.putRow who u off half v r).1.reg u off).getLsbD i = (b.reg u off).getLsbD i := by
  have hfld (n : Nat) : (Word.setFld (b.reg u off) r.hi r.lo n).getLsbD i = (b.reg u off).getLsbD i :=
    Word.getLsbD_setFld_ne _ n hr hi
  have hmask : (fldMask r.hi r.lo).getLsbD i = false := by
    rw [getLsbD_fldMask h64, Bool.and_eq_false_iff, decide_eq_false_iff_not, decide_eq_false_iff_not]
    omega
  unfold Block.putRow
  dsimp only
  split
  · rfl
  split
  · rfl
  · rfl
  · simp only [Block.reg_setReg_same, BitVec.getLsbD_and, BitVec.getLsbD_not, hmask]
    simp [h64]
  · split
    · rfl
    · rw [Block.setFld, Row.at, Block.reg_setReg_same, hfld]
  · simp only [Block.reg_setReg_same, BitVec.getLsbD_or, BitVec.getLsbD_and, BitVec.getLsbD_not, hfld]
    cases (b.reg u off).getLsbD i <;> simp [h64]

/-- RO and WO rows stay. -/
theorem Block.putRow_ro_wo (h : r.acc = .ro ∨ r.acc = .wo) : (b.putRow who u off half v r).1 = b := by
  unfold Block.putRow
  dsimp only
  split
  · rfl
  · rcases h with h | h <;> rw [h]

/-- Inside a W1C row a written one clears its bit. -/
theorem Block.putRow_w1c {i : Nat} (h : r.acc = .w1c) (h64 : i < 64) (h1 : r.lo ≤ i) (h2 : i ≤ r.hi) :
    ((b.putRow who u off half v r).1.reg u off).getLsbD i = (b.reg u off &&& ~~~(v &&& halfMask half)).getLsbD i := by
  have hmask : (fldMask r.hi r.lo).getLsbD i = true := by
    rw [getLsbD_fldMask h64, Bool.and_eq_true, decide_eq_true_iff, decide_eq_true_iff]
    omega
  unfold Block.putRow
  dsimp only
  split
  next hn =>
    simp only [BitVec.getLsbD_and, BitVec.getLsbD_not, getLsbD_halfMask_of_not_has hn (i := i) h1 h2]
    simp [h64]
  next =>
    rw [h]
    simp only [Block.reg_setReg_same, BitVec.getLsbD_and, BitVec.getLsbD_not, hmask, Bool.and_true]

/-- Inside an RW row that no range clamps, and where no other write of the Tc prevails, the written half's bits are taken. -/
theorem Block.putRow_rw {i : Nat} (h : r.acc = .rw) (hrng : r.rng = .any ∨ r.rng = .code8000) (hheld : b.heldBits who u off = 0)
    (hr : r.hi < 64) (h1 : r.lo ≤ i) (h2 : i ≤ r.hi) :
    ((b.putRow who u off half v r).1.reg u off).getLsbD i = (halfMerge half (b.reg u off) v).getLsbD i := by
  have hclamp (n : Nat) : clampRow r n = (n, false) := by
    rcases hrng with hrng | hrng <;> rw [clampRow, hrng]
  have h64 : i < 64 := by omega
  unfold Block.putRow
  dsimp only
  split
  next hn =>
    simp only [halfMerge, BitVec.getLsbD_or, BitVec.getLsbD_and, BitVec.getLsbD_not, getLsbD_halfMask_of_not_has hn (i := i) h1 h2]
    simp [h64]
  next =>
    rw [h]
    simp only [hclamp, hheld, Block.reg_setReg_same, BitVec.getLsbD_or, BitVec.getLsbD_and, BitVec.getLsbD_not,
      Word.getLsbD_setFld_fld _ _ hr h1 h2]
    simp [h64]

end PutRow

/-- The rows of a register written in their order, with the count of those that a range clamped. -/
def Block.putRows (b : Block) (who : Who) (u off : Nat) (half : Half) (v : Word) (l : List Row) (n : Nat) : Block × Nat :=
  l.foldl (fun x r => ((x.1.putRow who u off half v r).1, x.2 + bit (x.1.putRow who u off half v r).2)) (b, n)

section PutRows
variable (who : Who) (u off : Nat) (half : Half) (v : Word)

theorem Block.putReg_eq (b : Block) {d : RegDef} {i : Nat} (h : regAt u off = some (d, i)) :
    b.putReg who u off half v [] = (b.putRows who u off half v d.rows 0).1.each
      (List.range (b.putRows who u off half v d.rows 0).2) fun b _ => b.correctedBy who u C.clamp := by
  have hall : (d.rows.filter fun r => !([].any fun f : Fld => f.hi == r.hi && f.lo == r.lo)) = d.rows :=
    List.filter_eq_self.mpr fun _ _ => rfl
  unfold Block.putReg
  rw [h]
  dsimp only
  rw [hall]
  rfl

theorem Block.putRows_booked (ho : off < 1024) (b : Block) (l : List Row) (n : Nat) :
    b.booked (oneReg u off) (b.putRows who u off half v l n).1 := by
  induction l generalizing b n with
  | nil => exact Block.booked_refl
  | cons r t ih => exact Block.booked_trans (b.putRow_booked who u off half v r ho) (ih _ _)

theorem Block.putRows_getLsbD_ne (b : Block) (l : List Row) (n : Nat) {i : Nat} (h64 : i < 64)
    (hl : ∀ r ∈ l, r.hi < 64 ∧ (i < r.lo ∨ r.hi < i)) :
    ((b.putRows who u off half v l n).1.reg u off).getLsbD i = (b.reg u off).getLsbD i := by
  induction l generalizing b n with
  | nil => rfl
  | cons r t ih =>
    obtain ⟨hr, hi⟩ := hl r (by simp)
    exact (ih _ _ fun x hx => hl x (by simp [hx])).trans (b.putRow_getLsbD_ne who u off half v r hr h64 hi)

/-- Where rows share no bit, each is as its own write leaves it, made of a block whose bits of the row are still the first ones. -/
theorem Block.putRows_own (ho : off < 1024) (b : Block) {l : List Row} (n : Nat) {r : Row} (hr : r ∈ l)
    (hpair : l.Pairwise fun a b => a.hi < b.lo ∨ b.hi < a.lo) (hl : ∀ r ∈ l, r.lo ≤ r.hi ∧ r.hi < 64) :
    ∃ c, b.booked (oneReg u off) c ∧ ∀ i, r.lo ≤ i → i ≤ r.hi → (c.reg u off).getLsbD i = (b.reg u off).getLsbD i ∧
      ((b.putRows who u off half v l n).1.reg u off).getLsbD i = ((c.putRow who u off half v r).1.reg u off).getLsbD i := by
  induction l generalizing b n with
  | nil => cases hr
  | cons a t ih =>
    obtain ⟨hapart, htail⟩ := List.pairwise_cons.mp hpair
    have hlt : ∀ x ∈ t, x.lo ≤ x.hi ∧ x.hi < 64 := fun x hx => hl x (by simp [hx])
    rcases List.mem_cons.mp hr with rfl | hmem
    · refine ⟨b, Block.booked_refl, fun i h1 h2 => ⟨rfl, ?_⟩⟩
      refine Block.putRows_getLsbD_ne who u off half v _ t _ ?_ fun x hx => ⟨(hlt x hx).2, ?_⟩
      · have := (hl r (by simp)).2
        omega
      · have := hapart x hx
        omega
    · obtain ⟨c, hbooked, hbits⟩ := ih (b.putRow who u off half v a).1 (n + bit (b.putRow who u off half v a).2) hmem htail hlt
      refine ⟨c, Block.booked_trans (b.putRow_booked who u off half v a ho) hbooked, fun i h1 h2 => ?_⟩
      obtain ⟨hsame, hown⟩ := hbits i h1 h2
      refine ⟨hsame.trans (b.putRow_getLsbD_ne who u off half v a (hl a (by simp)).2 ?_ ?_), hown⟩
      · have := (hlt r hmem).2
        omega
      · have := hapart r hmem
        omega

end PutRows

end Sys2Proof.Machine

/-! ## The write of a plain register -/

namespace Sys2Proof.Machine

/-- A writer's place in the order of R255 rests on CE_CFG.ORIGIN alone. -/
theorem Block.whoIdx_congr {b c : Block} (h : ∀ n, n < 32 → c.reg (U.ce n) F.CE_CFG_ORIGIN.off = b.reg (U.ce n) F.CE_CFG_ORIGIN.off)
    (who : Who) : c.whoIdx who = b.whoIdx who := by
  cases who with
  | engine n _ =>
    simp only [Block.whoIdx]
    split
    next hn => exact Block.fld_eq_fld (h n hn)
    next => rfl
  | _ => rfl

theorem kindOf_ce {n : Nat} (h : n < 32) : kindOf (U.ce n) = 0x0F := by
  have : ∀ n, n < 32 → kindOf (U.ce n) = 0x0F := by decide
  exact this n h

/-- The first write of a Tc at a page that is no engine's finds no bit held against it, also between its rows. -/
theorem Block.heldBits_first {b c : Block} {who : Who} {u off : Nat} {mask : Word} (hcoll : b.time.coll = []) (hu : kindOf u ≠ 0x0F)
    (hc : (b.hitMask who u off mask).booked (oneReg u off) c) : c.heldBits who u off = 0 := by
  rw [Block.hitMask_first hcoll] at hc
  obtain ⟨⟨r, h, f, d, t, rfl⟩, hkept⟩ := hc
  refine Block.heldBits_own rfl rfl ?_ u off
  refine (Block.whoIdx_congr (fun n hn => hkept _ _ (by decide) ?_) who).symm
  simp only [oneReg, Bool.and_eq_false_iff, beq_eq_false_iff_ne]
  exact .inl fun hce => hu (hce ▸ kindOf_ce hn)

/-- The CLAMP faults of a write leave every register of a kind's page (R470). -/
theorem Block.clamps_booked (b : Block) (who : Who) (u n : Nat) :
    b.booked (fun v off => faultRegs u v off || v == 0) (b.each (List.range n) fun b _ => b.correctedBy who u C.clamp) :=
  Block.each_induct _ _ b Block.booked_refl fun c _ _ hc => Block.booked_trans hc (c.faultReport_booked u C.clamp 1 false false _)

/-- A plain write of a register of rows that share no bit, where no other write of the Tc prevails: what each row reads after it, by
its access code (R12). -/
theorem Block.putReg_rows {b : Block} {who : Who} {u off i : Nat} {d : RegDef} (half : Half) (v : Word) (hd : regAt u off = some (d, i))
    (ho : off < 1024) (hu : u ≠ 0) (hkind : 0x040 ≤ off) (hapart : Spec.rowsApart d)
    (hheld : ∀ c, b.booked (oneReg u off) c → c.heldBits who u off = 0) {r : Row} (hr : r ∈ d.rows) :
    let w := (b.putReg who u off half v []).reg u off
    let old := b.reg u off
    ((r.acc = .ro ∨ r.acc = .wo) → Word.fld w r.hi r.lo = Word.fld old r.hi r.lo) ∧
      (r.acc = .w1c → Word.fld w r.hi r.lo = Word.fld (old &&& ~~~(v &&& halfMask half)) r.hi r.lo) ∧
      (r.acc = .rw → (r.rng = .any ∨ r.rng = .code8000) → Word.fld w r.hi r.lo = Word.fld (halfMerge half old v) r.hi r.lo) := by
  obtain ⟨hpair, hrange⟩ := hapart
  have hhi := (hrange r hr).2
  obtain ⟨c, hbooked, hbits⟩ := Block.putRows_own who u off half v ho b 0 hr hpair hrange
  have hw : (b.putReg who u off half v []).reg u off = (b.putRows who u off half v d.rows 0).1.reg u off := by
    rw [Block.putReg_eq who u off half v b hd]
    refine (Block.clamps_booked _ who u _).2 u off ho ?_
    have hne : off ≠ 0x018 ∧ off ≠ 0x028 := by omega
    simp [faultRegs, hu, R.UNIT_FAULT, R.UNIT_IRQ_STAT, hne]
  rw [hw]
  refine ⟨fun h => Word.fld_congr fun i h1 h2 => ?_, fun h => Word.fld_congr fun i h1 h2 => ?_,
    fun h hrng => Word.fld_congr fun i h1 h2 => ?_⟩ <;> obtain ⟨hsame, hown⟩ := hbits i h1 h2 <;> rw [hown]
  · rw [c.putRow_ro_wo who u off half v r h, hsame]
  · rw [c.putRow_w1c who u off half v r h (by omega) h1 h2]
    simp only [BitVec.getLsbD_and, hsame]
  · rw [c.putRow_rw who u off half v r h hrng (hheld c hbooked) hhi h1 h2]
    simp only [halfMerge, BitVec.getLsbD_or, BitVec.getLsbD_and, hsame]

/-- A plain write changes its register alone, and with a CLAMP the header of its unit and the root's page. -/
theorem Block.putReg_booked (b : Block) (who : Who) {u off i : Nat} {d : RegDef} (half : Half) (v : Word) (hd : regAt u off = some (d, i))
    (ho : off < 1024) : b.booked (fun u' off' => oneReg u off u' off' || faultRegs u u' off' || u' == 0) (b.putReg who u off half v []) := by
  rw [Block.putReg_eq who u off half v b hd]
  refine Block.booked_trans (Block.booked_mono (Block.putRows_booked who u off half v ho b d.rows 0) ?_)
    (Block.booked_mono (Block.clamps_booked _ who u _) ?_) <;> intro v o <;> simp only [Bool.or_eq_false_iff]
  · exact fun h => h.1.1
  · exact fun h => ⟨h.1.2, h.2⟩

/-- The registers of a sensor or a pseudo-channel that a write has no other effect on than to store it. -/
theorem Block.writeEff_plain (b : Block) (μ : Mem) (who : Who) {u off : Nat} (half : Half) (v : Word) (hk : kindOf u ∈ [0x08, 0x0B])
    (ho : 0x040 ≤ off) (hpc : kindOf u = 0x0B → off ≠ R.PC_STAT) (hts : kindOf u = 0x08 → off ≠ R.TS_NBR) :
    b.writeEff μ who u off half v = b.putReg who u off half v [] := by
  unfold Block.writeEff
  dsimp only
  rw [if_neg (by omega)]
  obtain hk | hk : kindOf u = 0x08 ∨ kindOf u = 0x0B := by simpa using hk
  · rw [hk]
    simp [Block.when, hts hk]
  · rw [hk]
    simp [hpc hk]

end Sys2Proof.Machine

namespace Sys2Proof.Spec

open Sys2Proof.Machine

theorem exec_registerWrite (who : Who) (u off : Nat) (half : Half) (v : Word) (s : State) :
    exec (.registerWrite who u off half v) s = s.done fun μ b => b.writeFull μ who u off half v := rfl

/-- A write that is taken, of a register that is neither UNIT_CTRL nor of the recorder, has its effect (R11). -/
theorem writeFull_of_takes {s : State} {who : Who} {u : Nat} (h : Takes s who u) (μ : Mem) {off : Nat} (half : Half) (v : Word)
    (hu : reservedUid u = false) (ho : off % 8 = 0) (hoff : off < 0x400) (hctrl : off ≠ R.UNIT_CTRL) (hrec : u ≠ U.rec) :
    s.blk.writeFull μ who u off half v = (s.blk.hitMask who u off (halfMask half)).writeEff μ who u off half v := by
  unfold Block.writeFull
  rw [if_neg (by simp [hu, ho, hoff]), if_neg hctrl, if_neg (by simp [hrec]), h.2.2]
  exact wrMask_of_takes h off (halfMask half) _

/-- R11, R12: a write of a plain register of a sensor or a pseudo-channel, whole or of one half. -/
theorem registerWriteByAccessCode : RegisterWriteByAccessCode := by
  intro who u off i half v d s ht hcoll hk h1 h2 h8 hpc hts hd hapart
  obtain ⟨hkinds, hrec⟩ : (kindOf u ≠ 0 ∧ kindOf u ≠ 0x01 ∧ kindOf u ≠ 0x0F) ∧ kindOf u ≠ 0x13 := by
    obtain hk | hk : kindOf u = 0x08 ∨ kindOf u = 0x0B := by simpa using hk
    all_goals simp [hk]
  obtain ⟨hlisted, hroot, hce⟩ := hkinds
  have hu0 : u ≠ 0 := fun h => hroot (h ▸ rfl)
  have heff : s.blk.writeFull s.mem who u off half v =
      (s.blk.hitMask who u off (halfMask half)).putReg who u off half v [] := by
    rw [writeFull_of_takes ht s.mem half v (by simp [reservedUid, hlisted]) h8 h2 (fun h => absurd (h ▸ h1) (by decide))
      (fun h => hrec (h ▸ rfl)), Block.writeEff_plain _ s.mem who half v hk h1 hpc hts]
  have hheld : ∀ c, (s.blk.hitMask who u off (halfMask half)).booked (oneReg u off) c → c.heldBits who u off = 0 :=
    fun _ => Block.heldBits_first hcoll hce
  obtain ⟨l, hfirst⟩ : ∃ l, s.blk.hitMask who u off (halfMask half) = s.blk.withColl l := ⟨_, Block.hitMask_first hcoll ..⟩
  have hbooked := Block.putReg_booked (s.blk.hitMask who u off (halfMask half)) who half v hd h2
  have hrows := fun r hr => Block.putReg_rows half v hd h2 hu0 h1 hapart hheld (r := r) hr
  rw [← heff, hfirst] at hbooked hrows
  refine ends_of_booked (b := s.blk.withColl l) (exec_registerWrite who u off half v s) ht.1 rfl rfl hbooked
    ⟨hrows, fun u' off' ho hf => hbooked.2 u' off' ho ?_, rfl⟩
  simp only [faultRegs, oneReg, R.UNIT_FAULT, R.UNIT_IRQ_STAT] at hf ⊢
  grind

end Sys2Proof.Spec

/-! ## The passing of a Tc -/

namespace Sys2Proof.Machine

/-- On an empty queue a step lets time pass. -/
theorem step_of_pending_nil {s : State} (h : s.pending = []) : step s = .next s.idle := by
  unfold step
  rw [h]

/-- Otherwise as reset left it, 4,095 Tc after a soft repair of pseudo-channel 0 began: the next Tc is the repair's last (R292). -/
def State.repairEnding : State :=
  { State.reset with blk := ((Block.reset.setFld (U.pc 0) F.PC_REPAIR_SOFT_LEFT 1).rowRepair 0 5).setElapsed 4095 }

/-- The Tc that passes ends the repair, with no group edit waiting. -/
theorem State.repairEnding_idle : State.repairEnding.blk.edits = [] ∧
    (State.repairEnding.blk.pcH 0).repair = some (5, 0) ∧ (State.repairEnding.idle.blk.pcH 0).repair = none := by
  decide +kernel

end Sys2Proof.Machine

/-! ## The obligations -/

namespace Sys2Proof.Proofs

open Sys2Proof Sys2Proof.Machine Sys2Proof.Spec

/-- Refutes O29: with no group edit waiting, one Tc changes more than the clock and the tally where it is the last of a soft
repair (R292), which then ends and leaves the state of its pseudo-channel. -/
theorem not_emptyQueueLetsOneTcPass : ¬ Obligations.EmptyQueueLetsOneTcPass := by
  unfold Obligations.EmptyQueueLetsOneTcPass
  intro h
  obtain ⟨hedits, hbefore, hafter⟩ := State.repairEnding_idle
  obtain ⟨t, ht, -, -, hpass, -⟩ := h State.repairEnding rfl
  obtain rfl : State.repairEnding.idle = t :=
    Host.Outcome.next.inj ((step_of_pending_nil (s := State.repairEnding) rfl).symm.trans ht)
  obtain ⟨-, -, -, hsame⟩ := hpass (by decide +kernel)
  have hpc : State.repairEnding.idle.blk.pcH 0 = State.repairEnding.blk.pcH 0 := congrArg (·.pcH 0) (hsame hedits)
  rw [hpc, hbefore] at hafter
  contradiction

/-- Settles O30: no store of the reset state lists anything, and a register that nothing has written reads as its table's reset value. -/
theorem resetState : Obligations.ResetState := by
  unfold Obligations.ResetState
  refine ⟨rfl, rfl, rfl, ⟨rfl, rfl⟩, rfl, rfl, rfl, ?_⟩
  decide +kernel

/-- Settles O31, from the row-by-row write of a plain register and the laws of UNIT_FAULT. -/
theorem registerAccess : Obligations.RegisterAccess := ⟨registerWriteByAccessCode, faultRegisterWrites⟩

end Sys2Proof.Proofs

/-! # Passbands, the front end and the cue actions (03_passbands.md) -/

/-! ## A DIRECTION cue at a passband with head ports (R70, R271) -/

namespace Sys2Proof.Machine

/-- Otherwise as reset left it: a duplex passband with a service port at an admitted head on fronthaul port 0, whose DIR has not been
sent yet, and a DIRECTION cue at the passband that was issued and acts now. -/
def State.directionAtHead : State :=
  let b := (State.reset.blk.setFlag (U.pb 0) F.PB_CFG_DUPLEX true).setReg (U.pb 0) R.PB_SV_TX0 0xC000
  let b := (b.setFld (U.hd 0) F.UNIT_STATE_STATE St.ready).setHdH 0 { HdH.init with port := some 0 }
  { State.reset with blk := b.setCtx 0 { Ctx.init with action := 0x10, target := U.pb 0, state := Cue.issued } }

/-- The cue sends the head DIR, and the fronthaul port counts the frame (R271). -/
theorem State.directionAtHead_frames :
    State.directionAtHead.blk.fld (U.fh 0) F.FH_TX_CNT_FRAMES = 0 ∧
      (State.directionAtHead.eff fun μ b => b.cueOf μ 0 0x10).blk.fld (U.fh 0) F.FH_TX_CNT_FRAMES = 1 := by
  decide +kernel

end Sys2Proof.Machine

namespace Sys2Proof.Spec

open Sys2Proof.Machine

theorem exec_cueDirection (x : Nat) (s : State) : exec (.cueDirection x) s = s.done fun μ b => b.cueOf μ x 0x10 := rfl

theorem acting_directionAtHead : Acting State.directionAtHead 0 0x10 0 := by
  decide +kernel

end Sys2Proof.Spec

namespace Sys2Proof.Proofs

open Sys2Proof Sys2Proof.Machine Sys2Proof.Spec

/-- Refutes O48: a DIRECTION cue sends the heads of its passband DIR, and the frame counts in FH_TX_CNT of the head's port, where the
statement has every register as before. -/
theorem not_cueActions : ¬ Obligations.CueActions := by
  unfold Obligations.CueActions
  rintro ⟨-, -, hpassbands, -⟩
  obtain ⟨hdirection, -⟩ := hpassbands 0 0 0 State.directionAtHead (by decide)
  obtain ⟨hduplex, -⟩ := hdirection acting_directionAtHead (by decide +kernel)
  obtain ⟨t, ht, -, -, -, -, -, hregs, -⟩ := hduplex (by decide +kernel)
  obtain rfl : State.directionAtHead.eff (fun μ b => b.cueOf μ 0 0x10) = t :=
    Host.Outcome.next.inj ((exec_cueDirection 0 _).symm.trans ht)
  obtain ⟨hbefore, hafter⟩ := State.directionAtHead_frames
  rw [Block.fld_congr hregs, hbefore] at hafter
  contradiction

end Sys2Proof.Proofs

/-! ## A filter bank at a tick boundary at which a squall takes a restart back (R61, R189, R194) -/

namespace Sys2Proof.Machine

/-- `c` reads the registers of the units below UID 0x400 as `b` does. -/
def Block.lowKept (b c : Block) : Prop := ∀ v off, v < 0x400 → off < 1024 → c.reg v off = b.reg v off

section LowKept
variable {a b c : Block}

theorem Block.lowKept_refl : b.lowKept b := fun _ _ _ _ => rfl

theorem Block.lowKept.trans (h1 : a.lowKept b) (h2 : b.lowKept c) : a.lowKept c :=
  fun v off hv ho => (h2 v off hv ho).trans (h1 v off hv ho)

theorem Block.lowKept.of_regs (h : a.lowKept b) (e : c.regs = b.regs) : a.lowKept c :=
  fun v off hv ho => (Block.reg_congr e v off).trans (h v off hv ho)

theorem Block.lowKept.setReg (h : a.lowKept b) {u off : Nat} (w : Word) (hu : 0x400 ≤ u) (ho : off < 1024) : a.lowKept (b.setReg u off w) :=
  fun v o hv ho' => (b.reg_setReg_ne w (regKey_ne ho ho' (.inl (by omega)))).trans (h v o hv ho')

theorem Block.lowKept.setFld (h : a.lowKept b) {u : Nat} {f : Fld} {n : Nat} (hu : 0x400 ≤ u) (ho : f.off < 1024) :
    a.lowKept (b.setFld u f n) := h.setReg _ hu ho

theorem Block.lowKept.setFlag (h : a.lowKept b) {u : Nat} {f : Fld} {v : Bool} (hu : 0x400 ≤ u) (ho : f.off < 1024) :
    a.lowKept (b.setFlag u f v) := h.setFld hu ho

theorem Block.lowKept.irq (h : a.lowKept b) {u n : Nat} (hu : 0x400 ≤ u) : a.lowKept (b.irq u n) := by
  obtain ⟨x, e⟩ := b.irq_frame u n
  rw [e]
  exact (h.setReg _ hu (by decide)).of_regs rfl

theorem Block.lowKept_ite {p : Prop} [Decidable p] (hb : a.lowKept b) (hc : a.lowKept c) : a.lowKept (if p then b else c) := by
  split <;> assumption

theorem Block.lowKept_each {α : Type} {l : List α} {f : Block → α → Block} (h : ∀ b x, Block.lowKept b (f b x)) :
    b.lowKept (b.each l f) :=
  Block.each_induct l f b Block.lowKept_refl fun c x _ hc => hc.trans (h c x)

end LowKept

theorem U.orx_high (o : Nat) : 0x400 ≤ U.orx o := Nat.le_add_right_of_le (by decide)
theorem U.mc_high (c : Nat) : 0x400 ≤ U.mc c := Nat.le_add_right_of_le (by decide)

theorem Block.turnTick_lowKept (b : Block) (k : Nat) : b.lowKept (b.turnTick k) :=
  Block.lowKept_ite (Block.lowKept_refl.of_regs rfl) Block.lowKept_refl

theorem Block.gateTick_lowKept (b : Block) (k : Nat) : b.lowKept (b.gateTick k) := Block.lowKept_refl.of_regs rfl

theorem Block.steadyTick_lowKept (b : Block) (o : Nat) : b.lowKept (b.steadyTick o) :=
  Block.lowKept_ite Block.lowKept_refl (Block.lowKept_refl.of_regs rfl)

theorem Block.setTxOff_lowKept (b : Block) (o : Nat) (v : Bool) : b.lowKept (b.setTxOff o v) := by
  have hset : b.lowKept (b.setFlag (U.orx o) F.ORX_STAT_TX_OFF v) := Block.lowKept_refl.setFlag (U.orx_high o) (by decide)
  unfold Block.setTxOff Block.when
  dsimp only
  split <;> split
  · exact (hset.of_regs (Block.setOrxH_regs ..)).irq (U.orx_high o)
  · split
    · exact (hset.of_regs (Block.setOrxH_regs ..)).irq (U.orx_high o)
    · exact hset.irq (U.orx_high o)
  · exact hset.of_regs (Block.setOrxH_regs ..)
  · split
    · exact hset.of_regs (Block.setOrxH_regs ..)
    · exact hset

theorem Block.dwellEntry_lowKept (b : Block) (o e : Nat) : b.lowKept (b.dwellEntry o e) := by
  have hu := U.orx_high o
  unfold Block.dwellEntry
  dsimp only
  refine Block.lowKept.trans ?_ (Block.setTxOff_lowKept _ o _)
  refine Block.lowKept.of_regs ?_ (Block.setOrxH_regs ..)
  refine Block.lowKept.setFlag (Block.lowKept.setFld (Block.lowKept.setFld ?_ hu (by decide)) hu (by decide)) hu (by decide)
  exact Block.lowKept_ite Block.lowKept_refl (Block.lowKept_refl.setFld hu (by decide))

theorem Block.orxTick_lowKept (b : Block) (o : Nat) : b.lowKept (b.orxTick o) := by
  unfold Block.orxTick
  dsimp only
  refine Block.lowKept_ite Block.lowKept_refl (Block.lowKept_ite ?_ (Block.lowKept_ite ?_ (Block.lowKept_ite Block.lowKept_refl ?_)))
  · exact (Block.lowKept_refl.of_regs (Block.setOrxH_regs ..)).setFlag (U.orx_high o) (by decide)
  · exact (Block.lowKept_refl.of_regs (Block.setOrxH_regs ..)).trans (Block.dwellEntry_lowKept _ o 0)
  · exact Block.lowKept_ite (Block.lowKept_refl.of_regs (Block.setOrxH_regs ..)) (Block.lowKept_refl.of_regs (Block.setOrxH_regs ..))

theorem Block.mcShow_lowKept (b : Block) (c : Nat) : b.lowKept (b.mcShow c) := by
  have hu := U.mc_high c
  unfold Block.mcShow
  dsimp only
  refine Block.lowKept.of_regs ?_ (Block.setMcH_regs ..)
  exact ((Block.lowKept_refl.setFld hu (by decide)).setFld hu (by decide)).setFld hu (by decide)

theorem Block.mcStart_lowKept (b : Block) (c : Nat) : b.lowKept (b.mcStart c) := by
  have hu := U.mc_high c
  have hshow := (Block.lowKept_refl.of_regs (b.setMcH_regs c _)).trans (Block.mcShow_lowKept (b.setMcH c { McH.init with origin := b.t }) c)
  unfold Block.mcStart
  dsimp only
  refine Block.lowKept.setFld (Block.lowKept.setFld (Block.lowKept.setFld (Block.lowKept.setFld ?_ hu (by decide)) hu (by decide))
    hu (by decide)) hu (by decide)
  exact (hshow.setFlag hu (by decide)).setFlag hu (by decide)

theorem Block.celState_lowKept (b : Block) (st : Nat) : b.lowKept (b.celState st) := by
  have hset : b.lowKept (b.setFld U.cel F.CEL_STAT_STATE st) := Block.lowKept_refl.setFld (by decide) (by decide)
  exact Block.lowKept_ite (hset.irq (by decide)) hset

theorem Block.celGeom_regs (b : Block) : b.celGeom.regs = (((b.setFld U.cel F.CEL_GEOM_RECSIZE (64 + 512 * b.celUnits)).setFld U.cel
    F.CEL_GEOM_RECORDS ((b.regionSize 4 - celIndexBytes) / (64 + 512 * b.celUnits))).setFld U.cel F.CEL_STAT_UNITS b.celUnits).regs := by
  unfold Block.celGeom
  dsimp only

theorem Block.celGeom_lowKept (b : Block) : b.lowKept b.celGeom :=
  (((Block.lowKept_refl.setFld (by decide) (by decide)).setFld (by decide) (by decide)).setFld (by decide) (by decide)).of_regs b.celGeom_regs

theorem Block.celBegin_lowKept (b : Block) : b.lowKept b.celBegin := Block.lowKept_refl.of_regs rfl

/-- A state that the cellar enters, and an interval that begins in it. -/
theorem Block.celRuns_lowKept (b : Block) (st : Nat) : b.lowKept (b.celState st).celBegin :=
  (b.celState_lowKept st).trans (Block.celBegin_lowKept _)

theorem Block.celTick_lowKept (b : Block) : b.lowKept b.celTick := by
  have hcel (c : CelH) : b.lowKept { b with cel := c } := Block.lowKept_refl.of_regs rfl
  unfold Block.celTick
  dsimp only
  split
  · exact Block.lowKept.trans (hcel _) (Block.celState_lowKept _ 0)
  · split
    · refine Block.lowKept.trans (Block.lowKept.trans (hcel _) (Block.celGeom_lowKept _)) (Block.celRuns_lowKept _ 1)
    · split
      · refine Block.lowKept.trans ?_ (Block.celRuns_lowKept _ 1)
        split
        · exact hcel _
        · exact Block.lowKept.trans (hcel _) (Block.celGeom_lowKept _)
      · split
        · split
          · exact Block.lowKept.trans (hcel _) (Block.celState_lowKept _ 3)
          · exact Block.lowKept.trans (hcel _) (Block.celRuns_lowKept _ _)
        · exact Block.lowKept_refl

/-- What the receivers, the gates, the observation receivers, the chains and the cellar do at a boundary. -/
def Block.tickRest (b : Block) : Block :=
  ((b.each (List.range 32) fun b k => (b.turnTick k).gateTick k).each (List.range 8) fun b o => (b.orxTick o).steadyTick o).chainTick.celTick

/-- It changes no register of a PBD. -/
theorem Block.tickRest_lowKept (b : Block) : b.lowKept b.tickRest := by
  have hgates := Block.lowKept_each (b := b) (l := List.range 32) fun b k => (b.turnTick_lowKept k).trans (Block.gateTick_lowKept _ k)
  refine hgates.trans (Block.lowKept.trans ?_ (Block.celTick_lowKept _))
  exact (Block.lowKept_each fun b o => (b.orxTick_lowKept o).trans (Block.steadyTick_lowKept _ o)).trans
    (Block.lowKept_each fun b c => b.mcStart_lowKept c)

/-- A bank that PBD `m` has in use and asks for stays in use as other PBDs, and it, switch. -/
theorem Block.fbankTick_keeps {b : Block} {m : Nat} (j : Nat) (hasked : b.flag (U.pbd m) F.PBD_CTRL_FBANK = true)
    (hact : b.flag (U.pbd m) F.PBD_STAT_FBANK_ACT = true) :
    (b.fbankTick j).flag (U.pbd m) F.PBD_CTRL_FBANK = true ∧ (b.fbankTick j).flag (U.pbd m) F.PBD_STAT_FBANK_ACT = true := by
  unfold Block.fbankTick Block.fbankSwitch
  split
  · exact ⟨hasked, hact⟩
  · refine ⟨(Block.flag_setFld_ne _ _ (regKey_ne (by decide) (by decide) (.inr (by decide)))).trans hasked, ?_⟩
    by_cases hj : j = m
    · rw [hj, hasked]
      exact Block.flag_setFlag_same _ _ _ _ (by decide) (by decide)
    · refine (Block.flag_setFld_ne _ _ (regKey_ne (by decide) (by decide) (.inl ?_))).trans hact
      unfold U.pbd
      omega

/-- The switches of a boundary take PBD 0 to the bank that it asks for. -/
theorem Block.fbankTicks (b : Block) (hasked : b.flag (U.pbd 0) F.PBD_CTRL_FBANK = true) :
    (b.each (List.range 128) fun b m => b.fbankTick m).flag (U.pbd 0) F.PBD_STAT_FBANK_ACT = true := by
  have hfirst : (b.fbankTick 0).flag (U.pbd 0) F.PBD_CTRL_FBANK = true ∧ (b.fbankTick 0).flag (U.pbd 0) F.PBD_STAT_FBANK_ACT = true := by
    unfold Block.fbankTick Block.fbankSwitch
    split
    next h => exact ⟨hasked, h.symm.trans hasked⟩
    next =>
      rw [hasked]
      exact ⟨(Block.flag_setFld_ne _ _ (regKey_ne (by decide) (by decide) (.inr (by decide)))).trans hasked,
        Block.flag_setFlag_same _ _ _ _ (by decide) (by decide)⟩
  have hsplit : b.each (List.range 128) (fun b m => b.fbankTick m) =
      (b.fbankTick 0).each ((List.range 127).map Nat.succ) fun b m => b.fbankTick m := by
    rw [List.range_succ_eq_map, Block.each, List.foldl_cons, Block.each]
  rw [hsplit]
  refine (Block.each_induct (P := fun c => c.flag (U.pbd 0) F.PBD_CTRL_FBANK = true ∧ c.flag (U.pbd 0) F.PBD_STAT_FBANK_ACT = true)
    _ _ _ hfirst fun c m _ hc => ?_).2
  exact Block.fbankTick_keeps m hc.1 hc.2

/-- The switches leave the fault mode. -/
theorem Block.fbankTicks_mode (b : Block) :
    (b.each (List.range 128) fun b m => b.fbankTick m).flag 0 F.FLT_MODE_FATAL = b.flag 0 F.FLT_MODE_FATAL := by
  refine Block.each_induct (P := fun c => c.flag 0 F.FLT_MODE_FATAL = b.flag 0 F.FLT_MODE_FATAL) _ _ b rfl fun c m _ hc => ?_
  unfold Block.fbankTick Block.fbankSwitch
  split
  · exact hc
  · exact (Block.flag_setFld_ne _ _ (regKey_ne (by decide) (by decide) (.inr (by decide)))).trans hc

theorem Block.lowKept.flag {b c : Block} (h : b.lowKept c) {u : Nat} {f : Fld} (hu : u < 0x400) (ho : f.off < 1024) :
    c.flag u f = b.flag u f := by rw [Block.flag, Block.fld_eq_fld (h u f.off hu ho), Block.flag]

/-- With the FATAL latch neither the loop engine nor the runtime has a boundary (R358). -/
theorem Block.tickEnd_latched {b : Block} (μ : Mem) (h : b.flag 0 F.FLT_MODE_FATAL = true) : (b.tickLoop μ).tickCues = b := by
  have hloop : b.tickLoop μ = b := by unfold Block.tickLoop; rw [if_pos h]
  rw [hloop]
  unfold Block.tickCues
  rw [if_pos h]

/-- Otherwise as reset left it: air time runs, the FATAL latch is set, the sync unit has been locked and is no longer, and passband 0 is
TDD. The loop engine holds a note of a restart of PBD 0 in the coming boundary's Tc, in which PBD_CTRL stands with FBANK set. -/
def State.restartNoted : State :=
  let b := (State.reset.blk.setFlag (U.pb 0) F.PB_CFG_DUPLEX true).setFlag U.sync F.SYNC_STAT_EVER_LOCKED true
  let b := b.setFlag 0 F.FLT_MODE_FATAL true
  let note : Restarted := { pbd := 0, at_ := tickTc, was := PbdH.init, regs := [(R.PBD_CTRL, 2)], running := [] }
  { State.reset with blk := { b with time := { b.time with running := true }, loop := { b.loop with restarted := [note] } } }

theorem State.restartNoted_runs : Spec.Settled State.restartNoted ∧ State.restartNoted.blk.time.coll = [] ∧
    State.restartNoted.blk.time.running = true ∧ State.restartNoted.blk.inReset = false ∧
    State.restartNoted.blk.flag (U.pbd 0) F.PBD_CTRL_FBANK = false := by
  decide +kernel

/-- The block when its boundary comes to the lanes' head windows. -/
def State.restartNoted.heads : Block :=
  (State.restartNoted.blk.tickPool State.restartNoted.mem).tickMove.tickFigures.syncTick.muteTick.safeTick.kilnTick.headTick

/-- The HOLDOVER squall of the boundary has put the noted PBD_CTRL back. -/
theorem State.restartNoted.heads_asks :
    (State.restartNoted.heads.each State.restartNoted.heads.lanesOn fun b i => b.headTrack i).flag (U.pbd 0) F.PBD_CTRL_FBANK = true := by
  decide +kernel

theorem State.restartNoted.heads_latched :
    (State.restartNoted.heads.each State.restartNoted.heads.lanesOn fun b i => b.headTrack i).flag 0 F.FLT_MODE_FATAL = true := by
  decide +kernel

/-- So the bank that no register asked for before the boundary is in use after it. -/
theorem State.restartNoted_switches :
    (State.restartNoted.eff fun μ b => b.tickBoundary μ).blk.flag (U.pbd 0) F.PBD_STAT_FBANK_ACT = true := by
  obtain ⟨-, -, hruns, hreset, -⟩ := State.restartNoted_runs
  generalize hc : State.restartNoted.heads.each State.restartNoted.heads.lanesOn (fun b i => b.headTrack i) = c
  have hasks : c.flag (U.pbd 0) F.PBD_CTRL_FBANK = true := hc ▸ State.restartNoted.heads_asks
  have hlatch : c.flag 0 F.FLT_MODE_FATAL = true := hc ▸ State.restartNoted.heads_latched
  have hrest := (c.each (List.range 128) fun b m => b.fbankTick m).tickRest_lowKept
  have htick : State.restartNoted.blk.tickBoundary State.restartNoted.mem = (c.each (List.range 128) fun b m => b.fbankTick m).tickRest := by
    have hunits : State.restartNoted.blk.tickBoundary State.restartNoted.mem =
        (((c.each (List.range 128) fun b m => b.fbankTick m).tickRest).tickLoop State.restartNoted.mem).tickCues := by
      unfold Block.tickBoundary
      rw [if_neg (by simp [hruns, hreset]), ← hc]
      rfl
    rw [hunits, Block.tickEnd_latched]
    rw [hrest.flag (by decide) (by decide), Block.fbankTicks_mode, hlatch]
  have hreg := State.eff_reg State.restartNoted (fun μ b => b.tickBoundary μ) (u := U.pbd 0) (off := F.PBD_STAT_FBANK_ACT.off)
    (by decide) (by decide)
  rw [Block.flag, Block.fld_eq_fld hreg, ← Block.flag, htick, hrest.flag (by decide) (by decide)]
  exact Block.fbankTicks c hasks

end Sys2Proof.Machine

namespace Sys2Proof.Spec

open Sys2Proof.Machine

theorem exec_tickBoundary (s : State) : exec .tickBoundary s = s.done fun μ b => b.tickBoundary μ := rfl

end Sys2Proof.Spec

namespace Sys2Proof.Proofs

open Sys2Proof Sys2Proof.Machine Sys2Proof.Spec

/-- Refutes O42, at a boundary whose HOLDOVER squall takes a restart back (R194): PBD_CTRL as the restart found it stands again before the
banks switch, and the bank in use after the boundary is that register's, not the one asked for before the boundary. The note that the
block holds names PBD_CTRL; the statement is over all blocks, those with a note that no restart writes among them. -/
theorem not_passbands : ¬ Obligations.Passbands := by
  unfold Obligations.Passbands
  rintro ⟨-, -, hbanks, -⟩
  obtain ⟨hsettled, hcoll, hruns, hreset, hasked⟩ := State.restartNoted_runs
  obtain ⟨-, -, htick⟩ := hbanks .pf 0 0 .both false 0 State.restartNoted (by decide) (by decide) hcoll
  obtain ⟨t, ht, hact⟩ := htick hsettled hruns hreset
  obtain rfl : State.restartNoted.eff (fun μ b => b.tickBoundary μ) = t :=
    Host.Outcome.next.inj ((exec_tickBoundary _).symm.trans ht)
  rw [hasked, State.restartNoted_switches] at hact
  contradiction

end Sys2Proof.Proofs

/-! ## The frame of the front end's commands (R99 to R113)

Every command of the front end changes registers, the chiplets, the PBDs and the observation receivers, with what books a fault, and
nothing else: `Block.fronted`. The lemmas go from that frame to the parts of a chiplet, and then command by command. -/

namespace Sys2Proof.Machine

/-- A part that a loop changes at one element alone is after the loop as that turn leaves it. -/
theorem Block.each_at {α : Type} {P Q : Block → Prop} {f : Block → α → Block} {k : α} {l : List α} {b : Block} (hk : k ∈ l) (hl : l.Nodup)
    (h0 : P b) (hP : ∀ b x, x ≠ k → P b → P (f b x)) (hPQ : ∀ b, P b → Q (f b k)) (hQ : ∀ b x, x ≠ k → Q b → Q (f b x)) :
    Q (b.each l f) := by
  induction l generalizing b with
  | nil => cases hk
  | cons x t ih =>
    obtain ⟨hx, ht⟩ := List.nodup_cons.mp hl
    by_cases hxk : x = k
    · subst hxk
      exact Block.each_induct t f (f b x) (hPQ b h0) fun c y hy hc => hQ c y (fun e => hx (e ▸ hy)) hc
    · exact ih ((List.mem_cons.mp hk).resolve_left (Ne.symm hxk)) ht (hP b x hxk h0)

/-- What the front end changes beside registers: the books of a fault, chiplets, PBDs and observation receivers. -/
def Block.fronted (b : Block) (free : Nat → Nat → Bool) (c : Block) : Prop :=
  (∃ r h f d t cs ps os, c = { b with regs := r, host := h, flt := f, recd := d, tally := t, ccs := cs, pbds := ps, orxs := os }) ∧
    ∀ v off, off < 1024 → free v off = false → c.reg v off = b.reg v off

section Fronted
variable {a b c : Block} {free : Nat → Nat → Bool}

theorem Block.booked.fronted (h : b.booked free c) : b.fronted free c := by
  obtain ⟨⟨r, x, f, d, t, rfl⟩, hregs⟩ := h
  exact ⟨⟨r, x, f, d, t, _, _, _, rfl⟩, hregs⟩

theorem Block.fronted_refl : b.fronted free b := Block.booked_refl.fronted

theorem Block.fronted.trans (h1 : a.fronted free b) (h2 : b.fronted free c) : a.fronted free c := by
  obtain ⟨⟨r, x, f, d, t, cs, ps, os, rfl⟩, k1⟩ := h1
  obtain ⟨⟨r', x', f', d', t', cs', ps', os', rfl⟩, k2⟩ := h2
  exact ⟨⟨r', x', f', d', t', cs', ps', os', rfl⟩, fun v off ho hf => (k2 v off ho hf).trans (k1 v off ho hf)⟩

theorem Block.fronted.mono {free' : Nat → Nat → Bool} (h : b.fronted free c) (hf : ∀ v off, free' v off = false → free v off = false) :
    b.fronted free' c := ⟨h.1, fun v off ho hn => h.2 v off ho (hf v off hn)⟩

theorem Block.fronted.setFld (h : a.fronted free b) {u : Nat} {f : Fld} {n : Nat} (ho : f.off < 1024) (hf : free u f.off = true) :
    a.fronted free (b.setFld u f n) := h.trans (Block.booked_setFld n ho hf).fronted

theorem Block.fronted.setFlag (h : a.fronted free b) {u : Nat} {f : Fld} {v : Bool} (ho : f.off < 1024) (hf : free u f.off = true) :
    a.fronted free (b.setFlag u f v) := h.setFld ho hf

theorem Block.fronted.irq (h : a.fronted free b) {u n : Nat} (hf : free u R.UNIT_IRQ_STAT = true) : a.fronted free (b.irq u n) :=
  h.trans (Block.booked_irq n hf).fronted

theorem Block.fronted.setCcH (h : a.fronted free b) (k : Nat) (x : CcH) : a.fronted free (b.setCcH k x) :=
  h.trans ⟨⟨_, _, _, _, _, _, _, _, rfl⟩, fun _ _ _ _ => rfl⟩

theorem Block.fronted.setPbdH (h : a.fronted free b) (k : Nat) (x : PbdH) : a.fronted free (b.setPbdH k x) :=
  h.trans ⟨⟨_, _, _, _, _, _, _, _, rfl⟩, fun _ _ _ _ => rfl⟩

theorem Block.fronted.setOrxH (h : a.fronted free b) (k : Nat) (x : OrxH) : a.fronted free (b.setOrxH k x) :=
  h.trans ⟨⟨_, _, _, _, _, _, _, _, rfl⟩, fun _ _ _ _ => rfl⟩

theorem Block.fronted_ite {p : Prop} [Decidable p] (hb : a.fronted free b) (hc : a.fronted free c) : a.fronted free (if p then b else c) := by
  split <;> assumption

theorem Block.fronted_each {α : Type} {l : List α} {f : Block → α → Block} (h : ∀ b, ∀ x ∈ l, Block.fronted b free (f b x)) :
    b.fronted free (b.each l f) :=
  Block.each_induct l f b Block.fronted_refl fun c x hx hc => hc.trans (h c x hx)

theorem Block.fronted.lanes (h : b.fronted free c) : c.lanes = b.lanes := by obtain ⟨⟨_, _, _, _, _, _, _, _, rfl⟩, -⟩ := h; rfl
theorem Block.fronted.memOps (h : b.fronted free c) : c.memOps = b.memOps := by obtain ⟨⟨_, _, _, _, _, _, _, _, rfl⟩, -⟩ := h; rfl
theorem Block.fronted.time (h : b.fronted free c) : c.time = b.time := by obtain ⟨⟨_, _, _, _, _, _, _, _, rfl⟩, -⟩ := h; rfl
theorem Block.fronted.root (h : b.fronted free c) : c.root = b.root := by obtain ⟨⟨_, _, _, _, _, _, _, _, rfl⟩, -⟩ := h; rfl

/-- The books of a fault leave chiplets, PBDs and observation receivers. -/
theorem Block.booked.ccH (h : b.booked free c) (k : Nat) : c.ccH k = b.ccH k := by obtain ⟨⟨_, _, _, _, _, rfl⟩, -⟩ := h; rfl
theorem Block.booked.orxH (h : b.booked free c) (k : Nat) : c.orxH k = b.orxH k := by obtain ⟨⟨_, _, _, _, _, rfl⟩, -⟩ := h; rfl

end Fronted

/-- With no lane that waits and no memory write, a command of the front end leaves the block as its effect does, and all of memory. -/
theorem State.eff_of_fronted {s : State} {f : Mem → Block → Block} {b : Block} {free : Nat → Nat → Bool} (hs : Spec.Settled s)
    (hb : b.lanes = s.blk.lanes) (hm : b.memOps = s.blk.memOps) (h : b.fronted free (f s.mem s.blk)) :
    s.eff f = { s with blk := f s.mem s.blk } := by
  obtain ⟨hl, hops⟩ := hs
  have hmem : (f s.mem s.blk).memOps = [] := (h.memOps.trans hm).trans hops
  have hidle : ((f s.mem s.blk).lanes.filter fun x => x.2.loadDue) = [] := by
    rw [h.lanes, hb, List.filter_eq_nil_iff]
    simpa using hl
  have hkeep : { f s.mem s.blk with memOps := [] } = f s.mem s.blk := hmem ▸ rfl
  calc s.eff f = { blk := (s.eff f).blk, mem := (s.eff f).mem, pending := s.pending } := rfl
    _ = { s with blk := f s.mem s.blk } := by rw [s.eff_blk f hidle, s.eff_mem_same f hmem, hkeep]

end Sys2Proof.Machine

namespace Sys2Proof.Spec

open Sys2Proof.Machine

theorem ends_of_fronted {c : Instr} {s : State} {f : Mem → Block → Block} {P : State → Prop} {b : Block} {free : Nat → Nat → Bool}
    (hx : exec c s = s.done f) (hs : Settled s) (hb : b.lanes = s.blk.lanes) (hm : b.memOps = s.blk.memOps)
    (h : b.fronted free (f s.mem s.blk)) (hP : P { s with blk := f s.mem s.blk }) : Ends c s P :=
  ⟨_, hx, by rwa [State.eff_of_fronted hs hb hm h]⟩

/-- The first write of a Tc at a page, with its effect on the block whose list of the Tc holds the write. -/
theorem ends_of_write {c : Instr} {s : State} {who : Who} {u off : Nat} {mask : Word} {eff : Mem → Block → Block} {P : State → Prop}
    {free : Nat → Nat → Bool} (hx : exec c s = s.done fun μ b => b.wrMask who u off mask (eff μ)) (ht : Takes s who u)
    (hcoll : s.blk.time.coll = []) (h : ∀ l, (s.blk.withColl l).fronted free (eff s.mem (s.blk.withColl l)))
    (hP : ∀ l, P { s with blk := eff s.mem (s.blk.withColl l) }) : Ends c s P := by
  have hwr := wrMask_of_takes ht off mask (eff s.mem)
  rw [Block.hitMask_first hcoll] at hwr
  generalize [_] = l at hwr
  exact ends_of_fronted (b := s.blk.withColl l) (free := free) hx ht.1 rfl rfl (hwr ▸ h l) (hwr ▸ hP l)

/-- A CORRECTED fault counts from what the unit's page held before the command. -/
theorem Corrected.of_reg {s s' t : State} {u : Nat} (h : Corrected s' t u) (hr : s'.blk.reg u R.UNIT_FAULT = s.blk.reg u R.UNIT_FAULT) :
    Corrected s t u := by
  obtain ⟨hflag, hcnt, hirq⟩ := h
  exact ⟨hflag, by rw [hcnt, Block.fld_eq_fld hr], hirq⟩

end Sys2Proof.Spec

/-! ## A CORRECTED fault among the registers of a page -/

namespace Sys2Proof.Machine

/-- A fault at `u` leaves every register of another unit's page, and of its own the kind's registers. -/
theorem Block.faultReport_reg (b : Block) {u v off : Nat} (code cls : Nat) (inj fatalBit : Bool) (path : Nat) (ho : off < 1024) (hv : v ≠ 0)
    (h : v ≠ u ∨ 0x040 ≤ off) : (b.faultReport u code cls inj fatalBit path).reg v off = b.reg v off := by
  refine (b.faultReport_booked u code cls inj fatalBit path).2 v off ho ?_
  simp only [faultRegs, R.UNIT_FAULT, R.UNIT_IRQ_STAT, Bool.or_eq_false_iff, Bool.and_eq_false_iff, beq_eq_false_iff_ne]
  omega

theorem Block.faultReport_fld (b : Block) {u v : Nat} {f : Fld} (code cls : Nat) (inj fatalBit : Bool) (path : Nat) (ho : f.off < 1024)
    (hv : v ≠ 0) (h : v ≠ u ∨ 0x040 ≤ f.off) : (b.faultReport u code cls inj fatalBit path).fld v f = b.fld v f :=
  Block.fld_eq_fld (b.faultReport_reg code cls inj fatalBit path ho hv h)

theorem Block.faultReport_flag (b : Block) {u v : Nat} {f : Fld} (code cls : Nat) (inj fatalBit : Bool) (path : Nat) (ho : f.off < 1024)
    (hv : v ≠ 0) (h : v ≠ u ∨ 0x040 ≤ f.off) : (b.faultReport u code cls inj fatalBit path).flag v f = b.flag v f := by
  rw [Block.flag, Block.faultReport_fld _ _ _ _ _ _ ho hv h, Block.flag]

theorem Block.faultReport_corrected (b : Block) (u code : Nat) (inj fatalBit : Bool) (path : Nat) :
    (b.faultReport u code 1 inj fatalBit path).flag u F.UNIT_FAULT_CORRECTED = true :=
  (Spec.corrected_of_faultReport (s := { State.reset with blk := b }) (t := { State.reset with blk := _ }) u code inj fatalBit path rfl).1

/-- An interrupt cause that is set stays as another sets (R20). -/
theorem Block.irq_keeps (b : Block) (u n i : Nat) (h : (b.reg u R.UNIT_IRQ_STAT).getLsbD i = true) :
    ((b.irq u n).reg u R.UNIT_IRQ_STAT).getLsbD i = true := by rw [b.reg_irq_stat, BitVec.getLsbD_or, h, Bool.true_or]

theorem Block.irq_sets (b : Block) (u : Nat) {n : Nat} (h : n < 64) : ((b.irq u n).reg u R.UNIT_IRQ_STAT).getLsbD n = true := by
  have hbit : (BitVec.ofNat 64 (1 <<< n)).getLsbD n = true := by
    rw [BitVec.getLsbD_ofNat, Nat.one_shiftLeft, Nat.testBit_two_pow_self]
    simp [h]
  rw [b.reg_irq_stat, BitVec.getLsbD_or, hbit, Bool.or_true]

/-- A CORRECTED fault leaves the causes of its unit that are set. -/
theorem Block.faultReport_keeps (b : Block) (u code : Nat) (inj fatalBit : Bool) (path : Nat) {i : Nat}
    (h : (b.reg u R.UNIT_IRQ_STAT).getLsbD i = true) :
    ((b.faultReport u code 1 inj fatalBit path).reg u R.UNIT_IRQ_STAT).getLsbD i = true := by
  obtain ⟨c, e, k, ⟨f, rfl⟩, rfl, hcls, hnoted, hstat⟩ := b.faultReport_noted u code 1 inj fatalBit path
  generalize b.faultReport e.uid code 1 inj fatalBit path = r at hnoted hstat ⊢
  have hunit : ((Block.unitFault { b with flt := f } e fatalBit k).reg e.uid R.UNIT_IRQ_STAT).getLsbD i = true := by
    have hhold := (Block.holdCode_booked { b with flt := f } e k).2 e.uid R.UNIT_IRQ_STAT (by decide)
      (by simp [oneReg, R.UNIT_IRQ_STAT, R.UNIT_FAULT])
    have hcount : ∀ c : Block, ((c.setFlag e.uid F.UNIT_FAULT_CORRECTED true).incSat e.uid F.UNIT_FAULT_CORR_CNT 1).reg e.uid R.UNIT_IRQ_STAT =
        c.reg e.uid R.UNIT_IRQ_STAT := fun c => by
      have hother (f : Fld) (hf : f.off = R.UNIT_FAULT) : regKey e.uid R.UNIT_IRQ_STAT ≠ regKey e.uid f.off :=
        regKey_ne (hf ▸ by decide) (by decide) (.inr (hf ▸ by decide))
      rw [Block.incSat, Block.reg_setFld_ne _ _ (hother F.UNIT_FAULT_CORR_CNT rfl), Block.setFlag,
        Block.reg_setFld_ne _ _ (hother F.UNIT_FAULT_CORRECTED rfl)]
    unfold Block.unitFault
    dsimp only
    rw [if_pos hcls]
    refine Block.irq_keeps _ _ _ _ ?_
    rw [hcount, hhold]
    exact h
  by_cases h0 : e.uid = 0
  · rw [h0] at hunit ⊢; exact hstat i hunit
  · rwa [hnoted.2 e.uid R.UNIT_IRQ_STAT (by decide) (by simp [h0])]

end Sys2Proof.Machine

/-! ## Strobes and dividers (R99, R101, R103) -/

namespace Sys2Proof.Machine

theorem U.cc_ne_zero (c : Nat) : U.cc c ≠ 0 := by unfold U.cc; omega
theorem U.cc_injective {c k : Nat} (h : k ≠ c) : U.cc k ≠ U.cc c := by unfold U.cc; omega

@[simp] theorem Block.ccH_setCcH_same (b : Block) (k : Nat) (h : CcH) : (b.setCcH k h).ccH k = h := by simp [Block.ccH, Block.setCcH]
theorem Block.ccH_setCcH_ne (b : Block) {k j : Nat} (h : CcH) (hj : j ≠ k) : (b.setCcH k h).ccH j = b.ccH j := by
  simp [Block.ccH, Block.setCcH, Store.get_set_ne _ _ _ hj]

/-- A bus is busy by what runs at its chiplet. -/
theorem Block.busBusy_congr {b b' : Block} {c : Nat} (hr : (b'.ccH c).running = (b.ccH c).running)
    (hc : (b'.ccH c).cmdRunning = (b.ccH c).cmdRunning) (x : Nat) : b'.busBusy c x = b.busBusy c x := by
  rw [Block.busBusy, hr, hc, Block.busBusy]

/-- Taking dividers changes no register. -/
theorem Block.takeDivs_fronted (b : Block) (c : Nat) : b.fronted (fun _ _ => false) (b.takeDivs c) :=
  Block.fronted_each fun _ _ _ => Block.fronted_ite Block.fronted_refl (Block.fronted_refl.setCcH _ _)

theorem Block.takeDivs_fld (b : Block) (c u : Nat) {f : Fld} (ho : f.off < 1024) : (b.takeDivs c).fld u f = b.fld u f :=
  Block.fld_eq_fld ((b.takeDivs_fronted c).2 u f.off ho rfl)

theorem Block.takeDivs_ccH (b : Block) (c : Nat) : ∃ ds, (b.takeDivs c).ccH c = { b.ccH c with divs := ds } := by
  refine Block.each_induct (P := fun d => ∃ ds, d.ccH c = { b.ccH c with divs := ds }) _ _ b ⟨_, rfl⟩ ?_
  rintro d x - ⟨ds, hd⟩
  dsimp only
  split
  · exact ⟨ds, hd⟩
  · exact ⟨_, by rw [Block.ccH_setCcH_same, hd]⟩

/-- An idle bus takes the divider that its register holds, a busy one keeps the one in effect (R103). -/
theorem Block.takeDivs_divOf (b : Block) (c : Nat) {x : Nat} (hx : x < 4) :
    (b.takeDivs c).divOf c x = if b.busBusy c x then b.divOf c x else b.fld (U.cc c) (F.CC_RFFE_DIV x) := by
  let P := fun d : Block => d.busBusy c x = b.busBusy c x ∧ d.divOf c x = b.divOf c x ∧ d.fld (U.cc c) (F.CC_RFFE_DIV x) = b.fld (U.cc c) (F.CC_RFFE_DIV x)
  unfold Block.takeDivs
  refine Block.each_at (k := x) (P := P) (Q := fun d => d.divOf c x = _) (List.mem_range.mpr hx) List.nodup_range ⟨rfl, rfl, rfl⟩ ?_ ?_ ?_
  · rintro d y hy ⟨hbusy, hdiv, hfld⟩
    split
    · exact ⟨hbusy, hdiv, hfld⟩
    · refine ⟨(Block.busBusy_congr ?_ ?_ x).trans hbusy, ?_, hfld⟩
      · rw [Block.ccH_setCcH_same]
      · rw [Block.ccH_setCcH_same]
      · rw [Block.divOf, Block.ccH_setCcH_same, Store.get_set_ne _ _ _ (Ne.symm hy)]
        exact hdiv
  · rintro d ⟨hbusy, hdiv, hfld⟩
    rw [hbusy]
    split
    · exact hdiv
    · rw [Block.divOf, Block.ccH_setCcH_same, Store.get_set_same]
      exact hfld
  · rintro d y hy hdiv
    split
    · exact hdiv
    · rw [← hdiv, Block.divOf, Block.ccH_setCcH_same, Store.get_set_ne _ _ _ (Ne.symm hy), Block.divOf]

/-- The divider that a write of DIV leaves: the next even one, in its range. -/
def evenDiv (d : Nat) : Nat := max 38 (min 2046 (d + d % 2))

/-- DIV, its clamp and the dividers in effect after a write (R103). -/
theorem Block.rffeDiv_fronted (b : Block) (who : Who) (c x d : Nat) (hx : x < 4) : b.fronted (fun _ _ => true) (b.rffeDiv who c x d) := by
  have hset : b.fronted (fun _ _ => true) (b.setFld (U.cc c) (F.CC_RFFE_DIV x) (evenDiv d)) :=
    Block.fronted_refl.setFld (by simp only [F.CC_RFFE_DIV]; omega) rfl
  unfold Block.rffeDiv
  refine Block.fronted.trans ?_ ((Block.takeDivs_fronted _ c).mono fun _ _ _ => rfl)
  exact Block.fronted_ite hset (hset.trans ((Block.faultReport_booked _ _ _ 1 false false _).fronted.mono fun _ _ h => by cases h))

theorem Block.rffeDiv_spec (b : Block) (who : Who) (c : Nat) {x d : Nat} (hx : x < 4) :
    (b.rffeDiv who c x d).fld (U.cc c) (F.CC_RFFE_DIV x) = evenDiv d ∧
      (evenDiv d ≠ d → (b.rffeDiv who c x d).flag (U.cc c) F.UNIT_FAULT_CORRECTED = true) ∧
      (b.rffeDiv who c x d).divOf c x = if b.busBusy c x then b.divOf c x else evenDiv d := by
  have hoff : (F.CC_RFFE_DIV x).off < 1024 ∧ 0x040 ≤ (F.CC_RFFE_DIV x).off := by simp only [F.CC_RFFE_DIV]; omega
  generalize hw : b.setFld (U.cc c) (F.CC_RFFE_DIV x) (evenDiv d) = w
  have hfld : w.fld (U.cc c) (F.CC_RFFE_DIV x) = evenDiv d := by
    rw [← hw, Block.fld_setFld_same _ _ _ _ (show 10 < 64 by decide)]
    exact Nat.mod_eq_of_lt (by unfold evenDiv; change _ < 2048; omega)
  have hcc : w.ccH c = b.ccH c := by rw [← hw]; rfl
  generalize hr : (if evenDiv d = d then w else w.correctedBy who (U.cc c) C.clamp) = r
  have hfld' : r.fld (U.cc c) (F.CC_RFFE_DIV x) = evenDiv d := by
    rw [← hr]
    split
    · exact hfld
    · exact (Block.faultReport_fld _ _ _ _ _ _ hoff.1 (U.cc_ne_zero c) (.inr hoff.2)).trans hfld
  have hcc' : r.ccH c = b.ccH c := by
    rw [← hr]
    split
    · exact hcc
    · exact ((Block.faultReport_booked _ _ _ _ _ _ _).ccH c).trans hcc
  have hdone : b.rffeDiv who c x d = r.takeDivs c := by rw [← hr, ← hw]; rfl
  rw [hdone]
  refine ⟨(r.takeDivs_fld c _ hoff.1).trans hfld', fun hne => ?_, ?_⟩
  · rw [Block.flag, r.takeDivs_fld c _ (by decide), ← hr, if_neg hne]
    exact Block.faultReport_corrected ..
  · have hbusy : r.busBusy c x = b.busBusy c x := Block.busBusy_congr (by rw [hcc']) (by rw [hcc']) x
    rw [r.takeDivs_divOf c hx, hbusy, hfld', Block.divOf, hcc', Block.divOf]

end Sys2Proof.Machine

/-! ## The sequence store (R105, R113) -/

namespace Sys2Proof.Machine

/-- Places of the sequence store and of another RAM, or two places of the store, are apart. -/
theorem ramBase_ccSeq_ne {r : Ram} {k i : Nat} (hk : k < 2 ^ 40) (hi : i < 2 ^ 40) (h : (r == .ccSeq && k == i) = false) :
    ramBase r + k ≠ ramBase .ccSeq + i := by
  cases r
  case ccSeq =>
    have hki : k ≠ i := by simpa using h
    omega
  all_goals
    simp only [ramBase]
    omega

/-- A whole write takes every bit (R11). -/
theorem halfMerge_both (old v : Word) : halfMerge .both old v = v := by
  rw [halfMerge, halfMask, BitVec.not_allOnes, BitVec.and_zero, BitVec.zero_or, BitVec.and_allOnes]

section Strobe
variable (b : Block) (who : Who) (c i : Nat) (half : Half) (v : Word)

/-- The strobe is bound to a transmitting channel (R99). -/
def Block.stbLocked : Prop :=
  (b.fld (U.cc c) (F.CC_STB_CFG_FUNC i) = 2 ∨ b.fld (U.cc c) (F.CC_STB_CFG_FUNC i) = 3) ∧
    (b.fld (U.txc (b.fld (U.cc c) (F.CC_STB_CFG_TXC i))) F.TXC_STAT_CH_STATE = 3 ∨
      b.fld (U.txc (b.fld (U.cc c) (F.CC_STB_CFG_TXC i))) F.TXC_STAT_CH_STATE = 4)

theorem Block.stbCfg_locked (h : b.stbLocked c i) : b.stbCfg who c i half v = b.correctedBy who (U.cc c) C.cfgLocked := if_pos h

/-- The function of a word of CC_STB_CFG: 6 and 7 are none (R99). -/
def stbFunc (v : Word) : Nat := if 5 < Word.fld v 2 0 then 0 else Word.fld v 2 0

theorem Block.stbCfg_free (h : ¬ b.stbLocked c i) :
    b.stbCfg who c i .both v = (b.setFld (U.cc c) (F.CC_STB_CFG_FUNC i) (stbFunc v)).setFld (U.cc c) (F.CC_STB_CFG_TXC i) (Word.fld v 12 8) :=
  (if_neg h).trans (if_neg (by decide))

theorem Block.stbCfg_flds (h : ¬ b.stbLocked c i) :
    (b.stbCfg who c i .both v).fld (U.cc c) (F.CC_STB_CFG_FUNC i) = stbFunc v ∧
      (b.stbCfg who c i .both v).fld (U.cc c) (F.CC_STB_CFG_TXC i) = Word.fld v 12 8 := by
  rw [b.stbCfg_free who c i v h]
  constructor
  · rw [Block.fld_setFld_reg _ _ (F.CC_STB_CFG_TXC i) (F.CC_STB_CFG_FUNC i) _ (show 12 < 64 by decide) rfl (show 2 < 8 ∨ 12 < 0 by decide),
      Block.fld_setFld_same _ _ _ _ (show 2 < 64 by decide)]
    exact Nat.mod_eq_of_lt (by unfold stbFunc; change _ < 8; split <;> have := Word.fld_lt v 2 0 <;> omega)
  · rw [Block.fld_setFld_same _ _ _ _ (show 12 < 64 by decide)]
    exact Nat.mod_eq_of_lt (Word.fld_lt v 12 8)

theorem Block.stbCfg_fronted (hi : i < 32) (h : ¬ b.stbLocked c i) :
    b.fronted (oneReg (U.cc c) (R.CC_STB_CFG i)) (b.stbCfg who c i .both v) := by
  have hoff : R.CC_STB_CFG i < 1024 := by unfold R.CC_STB_CFG; omega
  rw [b.stbCfg_free who c i v h]
  exact (Block.fronted_refl.setFld hoff (oneReg_self _ _)).setFld hoff (oneReg_self _ _)

end Strobe

section SeqWrite
variable (b : Block) (μ : Mem) (c : Nat) (v : Word)

/-- The place that a write of CC_SEQ_DATA reaches. -/
def Block.seqPlace (b : Block) (c : Nat) : Nat := Spec.seqWord c (b.fld (U.cc c) F.CC_SEQ_ADDR_SLOT) (b.fld (U.cc c) F.CC_SEQ_ADDR_FRAME)

theorem Block.seqPlace_lt (hc : c < 4) : b.seqPlace c < 2 ^ 40 := by
  have hslot : b.fld (U.cc c) F.CC_SEQ_ADDR_SLOT < 256 := Word.fld_lt ..
  have hframe : b.fld (U.cc c) F.CC_SEQ_ADDR_FRAME < 8 := Word.fld_lt ..
  unfold Block.seqPlace Spec.seqWord
  omega

/-- A slot that runs is not written (R105). -/
theorem Block.seqWrite_running (half : Half) (h : ∃ r ∈ (b.ccH c).running, r.slot = b.fld (U.cc c) F.CC_SEQ_ADDR_SLOT) :
    b.seqWrite μ c half v = b.setFlag (U.cc c) F.CC_RFFE_STAT_SEQ_BUSY true := by
  have hany : ((b.ccH c).running.any fun r => r.slot == b.fld (U.cc c) F.CC_SEQ_ADDR_SLOT) = true := by simpa using h
  exact if_pos hany

variable (hidle : ∀ r ∈ (b.ccH c).running, r.slot ≠ b.fld (U.cc c) F.CC_SEQ_ADDR_SLOT)
include hidle

/-- A whole frame of an unsupported type is refused (R113). -/
theorem Block.seqWrite_badType (h : 5 < Word.fld v 5 2) : b.seqWrite μ c .both v = b.corrected (U.cc c) C.cfgRffe := by
  have hany : ¬ ((b.ccH c).running.any fun r => r.slot == b.fld (U.cc c) F.CC_SEQ_ADDR_SLOT) = true := by simpa using hidle
  unfold Block.seqWrite
  dsimp only
  rw [if_neg hany, halfMerge_both, if_pos h]

/-- Any other whole frame goes to its place, and the address on. -/
theorem Block.seqWrite_fronted (h : Word.fld v 5 2 ≤ 5) :
    (b.put64 .ccSeq (b.seqPlace c) (v &&& 0xFFFFFFFFFFFF3F3F)).fronted (oneReg (U.cc c) R.CC_SEQ_ADDR) (b.seqWrite μ c .both v) := by
  have hany : ¬ ((b.ccH c).running.any fun r => r.slot == b.fld (U.cc c) F.CC_SEQ_ADDR_SLOT) = true := by simpa using hidle
  have hone : oneReg (U.cc c) R.CC_SEQ_ADDR (U.cc c) R.CC_SEQ_ADDR = true := oneReg_self _ _
  unfold Block.seqWrite
  dsimp only
  rw [if_neg hany, halfMerge_both, if_neg (Nat.not_lt.mpr h)]
  refine Block.fronted_ite ?_ Block.fronted_refl
  have hframe := Block.fronted.setFld (f := F.CC_SEQ_ADDR_FRAME) (n := b.fld (U.cc c) F.CC_SEQ_ADDR_FRAME + 1)
    (Block.fronted_refl (b := b.put64 .ccSeq (b.seqPlace c) (v &&& 0xFFFFFFFFFFFF3F3F))) (by decide) hone
  exact Block.fronted_ite (hframe.setFld (by decide) hone) hframe

end SeqWrite

end Sys2Proof.Machine

namespace Sys2Proof.Spec

open Sys2Proof.Machine

/-- A command that writes one word of the sequence store. -/
theorem ends_of_seqPut {c : Instr} {s : State} {who : Who} {u off : Nat} {mask : Word} {eff : Mem → Block → Block} {P : State → Prop}
    {free : Nat → Nat → Bool} {i : Nat} {v : Word} (hx : exec c s = s.done fun μ b => b.wrMask who u off mask (eff μ)) (ht : Takes s who u)
    (hcoll : s.blk.time.coll = []) (hi : i < 2 ^ 40)
    (h : ∀ l, ((s.blk.withColl l).put64 .ccSeq i v).fronted free (eff s.mem (s.blk.withColl l)))
    (hP : ∀ t : State, t.mem.rd64 .ccSeq i = v → MemKept s t (fun r k => r == .ccSeq && k == i) → RegsKept s t free → P t) : Ends c s P := by
  have hwr := wrMask_of_takes ht off mask (eff s.mem)
  rw [Block.hitMask_first hcoll] at hwr
  generalize [_] = l at hwr
  obtain ⟨hl, hops⟩ := ht.1
  have hfront := hwr ▸ h l
  generalize hf : (fun (μ : Mem) (b : Block) => b.wrMask who u off mask (eff μ)) = f at hx
  have hblk : f s.mem s.blk = s.blk.wrMask who u off mask (eff s.mem) := by rw [← hf]
  rw [← hblk] at hfront
  have hmemOps : (f s.mem s.blk).memOps = [.word .ccSeq i (v.setWidth 128)] := by
    rw [hfront.memOps]
    change s.blk.memOps ++ _ = _
    rw [hops, List.nil_append]
  have hidle : ((f s.mem s.blk).lanes.filter fun x => x.2.loadDue) = [] := by
    rw [hfront.lanes, List.filter_eq_nil_iff]
    change ∀ x ∈ s.blk.lanes, _
    simpa using hl
  have hmem : (s.eff f).mem = s.mem.wr .ccSeq i (v.setWidth 128) := by rw [State.eff_mem, hmemOps]; rfl
  refine ⟨_, hx, hP _ ?_ ⟨fun a => by rw [hmem]; rfl, fun r k hk hfree => ?_⟩ fun w o ho hfree => ?_⟩
  · rw [hmem, Mem.rd64, Mem.rd_wr_same]
    exact BitVec.setWidth_setWidth_of_le _ (by decide)
  · rw [hmem, Mem.rd_wr_ne _ _ _ _ _ _ (ramBase_ccSeq_ne hk hi hfree)]
  · rw [s.eff_blk f hidle]
    exact hfront.2 w o ho hfree

theorem exec_stbCfgWrite (who : Who) (c i : Nat) (half : Half) (v : Word) (s : State) : exec (.stbCfgWrite who c i half v) s =
    s.done fun _ b => b.wrMask who (U.cc c) (R.CC_STB_CFG i) (halfMask half) fun b => b.stbCfg who c i half v := rfl

theorem exec_rffeDivWrite (who : Who) (c x d : Nat) (s : State) : exec (.rffeDivWrite who c x d) s =
    s.done fun _ b => b.wrMask who (U.cc c) (F.CC_RFFE_DIV x).off (fldMask 10 0) fun b => b.rffeDiv who c x (d % 2048) := rfl

theorem exec_ccSeqDataWrite (who : Who) (c : Nat) (half : Half) (v : Word) (s : State) : exec (.ccSeqDataWrite who c half v) s =
    s.done fun μ b => b.wrMask who (U.cc c) R.CC_SEQ_DATA (halfMask half) fun b => b.seqWrite μ c half v := rfl

/-- What a refused write leaves: a CORRECTED fault at the page, the chiplets as before, and no memory. -/
theorem ends_refused {c : Instr} {s : State} {who : Who} {u off code path : Nat} {mask : Word} {eff : Mem → Block → Block} {P : State → Prop}
    (hx : exec c s = s.done fun μ b => b.wrMask who u off mask (eff μ)) (ht : Takes s who u) (hcoll : s.blk.time.coll = [])
    (he : ∀ l, eff s.mem (s.blk.withColl l) = (s.blk.withColl l).faultReport u code 1 false false path)
    (hP : ∀ t : State, Corrected s t u → (∀ k, t.blk.ccH k = s.blk.ccH k) → (∀ k, t.blk.orxH k = s.blk.orxH k) →
      (∀ v o, o < 1024 → v ≠ 0 → (v ≠ u ∨ 0x040 ≤ o) → t.blk.reg v o = s.blk.reg v o) → MemSame s t → P t) : Ends c s P := by
  have hbooked : ∀ l, (s.blk.withColl l).booked _ (eff s.mem (s.blk.withColl l)) := fun l => by
    rw [he]; exact Block.faultReport_booked _ u code 1 false false path
  refine ends_of_write hx ht hcoll (fun l => (hbooked l).fronted) fun l => hP _ ?_ (hbooked l).ccH (hbooked l).orxH ?_ rfl
  · refine Corrected.of_reg (s' := { s with blk := s.blk.withColl l }) ?_ rfl
    exact corrected_of_faultReport u code false false path (he l)
  · intro v o ho hv hn
    change (eff s.mem (s.blk.withColl l)).reg v o = _
    rw [he, Block.faultReport_reg _ _ _ _ _ _ ho hv hn]
    rfl

/-- R99: a strobe that is not bound to a transmitting channel takes its function and its channel. -/
theorem ends_stbCfgWrite {who : Who} {c i : Nat} (v : Word) {s : State} (hi : i < 32) (ht : Takes s who (U.cc c)) (hcoll : s.blk.time.coll = [])
    (hfree : ¬ s.blk.stbLocked c i) : Ends (.stbCfgWrite who c i .both v) s fun t =>
      t.blk.fld (U.cc c) (F.CC_STB_CFG_FUNC i) = stbFunc v ∧ t.blk.fld (U.cc c) (F.CC_STB_CFG_TXC i) = Word.fld v 12 8 ∧
        RegsKept s t (oneReg (U.cc c) (R.CC_STB_CFG i)) ∧ MemSame s t := by
  have hfree' : ∀ l, ¬ (s.blk.withColl l).stbLocked c i := fun _ => hfree
  have hfront := fun l => (s.blk.withColl l).stbCfg_fronted who c i v hi (hfree' l)
  refine ends_of_write (exec_stbCfgWrite who c i .both v s) ht hcoll hfront fun l => ?_
  obtain ⟨hfunc, htxc⟩ := (s.blk.withColl l).stbCfg_flds who c i v (hfree' l)
  exact ⟨hfunc, htxc, (hfront l).2, rfl⟩

/-- R101: a strobe that is bound to a transmitting channel refuses. -/
theorem ends_stbCfgWrite_locked {who : Who} {c i : Nat} (v : Word) {s : State} (hi : i < 32) (ht : Takes s who (U.cc c))
    (hcoll : s.blk.time.coll = []) (hlocked : s.blk.stbLocked c i) : Ends (.stbCfgWrite who c i .both v) s fun t =>
      t.blk.fld (U.cc c) (F.CC_STB_CFG_FUNC i) = s.blk.fld (U.cc c) (F.CC_STB_CFG_FUNC i) ∧ Corrected s t (U.cc c) ∧ MemSame s t := by
  have hlocked' : ∀ l, (s.blk.withColl l).stbLocked c i := fun _ => hlocked
  refine ends_refused (exec_stbCfgWrite who c i .both v s) ht hcoll (fun l => Block.stbCfg_locked _ who c i .both v (hlocked' l)) ?_
  intro t hfault _ _ hregs hmem
  have hoff : R.CC_STB_CFG i < 1024 ∧ 0x040 ≤ R.CC_STB_CFG i := by unfold R.CC_STB_CFG; omega
  exact ⟨Block.fld_eq_fld (hregs _ _ hoff.1 (U.cc_ne_zero c) (.inr hoff.2)), hfault, hmem⟩

/-- R103: DIV takes the next even divider in its range, with CLAMP where that is another, and an idle bus has it in effect. -/
theorem ends_rffeDivWrite {who : Who} {c x d : Nat} {s : State} (hx : x < 4) (hd : d < 2048) (ht : Takes s who (U.cc c))
    (hcoll : s.blk.time.coll = []) : Ends (.rffeDivWrite who c x d) s fun t =>
      t.blk.fld (U.cc c) (F.CC_RFFE_DIV x) = evenDiv d ∧ (evenDiv d ≠ d → t.blk.flag (U.cc c) F.UNIT_FAULT_CORRECTED = true) ∧
        t.blk.divOf c x = (if s.blk.busBusy c x then s.blk.divOf c x else evenDiv d) ∧ MemSame s t := by
  have hexec := exec_rffeDivWrite who c x d s
  rw [Nat.mod_eq_of_lt hd] at hexec
  refine ends_of_write hexec ht hcoll (fun l => (s.blk.withColl l).rffeDiv_fronted who c x d hx) fun l => ?_
  obtain ⟨hfld, hclamp, hdiv⟩ := (s.blk.withColl l).rffeDiv_spec who c (d := d) hx
  dsimp only
  exact ⟨hfld, hclamp, hdiv, rfl⟩

/-- R105: a write to a slot that runs is ignored, with SEQ_BUSY. -/
theorem ends_ccSeqDataWrite_running {who : Who} {c : Nat} (v : Word) {s : State} (ht : Takes s who (U.cc c)) (hcoll : s.blk.time.coll = [])
    (hrun : ∃ r ∈ (s.blk.ccH c).running, r.slot = s.blk.fld (U.cc c) F.CC_SEQ_ADDR_SLOT) : Ends (.ccSeqDataWrite who c .both v) s fun t =>
      t.blk.flag (U.cc c) F.CC_RFFE_STAT_SEQ_BUSY = true ∧ RegsKept s t (oneReg (U.cc c) R.CC_RFFE_STAT) ∧ MemSame s t := by
  have hset : ∀ l, (s.blk.withColl l).seqWrite s.mem c .both v = (s.blk.withColl l).setFlag (U.cc c) F.CC_RFFE_STAT_SEQ_BUSY true :=
    fun l => Block.seqWrite_running _ s.mem c v .both hrun
  have hfront : ∀ l, (s.blk.withColl l).fronted (oneReg (U.cc c) R.CC_RFFE_STAT) ((s.blk.withColl l).seqWrite s.mem c .both v) := fun l => by
    rw [hset]
    exact Block.fronted_refl.setFlag (by decide) (oneReg_self _ _)
  refine ends_of_write (exec_ccSeqDataWrite who c .both v s) ht hcoll hfront fun l => ⟨?_, (hfront l).2, rfl⟩
  rw [hset]
  exact Block.flag_setFlag_same _ _ _ _ (by decide) (by decide)

/-- R99, R101, R103, R105, R113: the writes of strobes, frames and dividers. -/
theorem frontEndWrites : FrontEndWrites := by
  intro who c i x d v s hc hi hx hd ht hcoll
  obtain ⟨t, hdiv, hfld, hclamp, hof, hmem⟩ := ends_rffeDivWrite hx hd ht hcoll
  refine ⟨fun hfree => ends_stbCfgWrite v hi ht hcoll hfree, fun hlocked => ends_stbCfgWrite_locked v hi ht hcoll hlocked, ?_,
    fun hidle => ⟨fun htype => ?_, fun htype => ?_⟩, fun hrun => ends_ccSeqDataWrite_running v ht hcoll hrun⟩
  · exact ⟨t, hdiv, hfld, hclamp, fun h => hof.trans (if_neg (by simp [h])), fun h => hof.trans (if_pos h), hmem⟩
  · exact ends_of_seqPut (exec_ccSeqDataWrite who c .both v s) ht hcoll (s.blk.seqPlace_lt c hc)
      (fun l => Block.seqWrite_fronted _ s.mem c v hidle htype) fun t hrd hmem hregs => ⟨hrd, hmem, hregs⟩
  · exact ends_refused (exec_ccSeqDataWrite who c .both v s) ht hcoll (fun l => Block.seqWrite_badType _ s.mem c v hidle htype)
      fun t hfault _ _ _ hmem => ⟨hfault, hmem⟩

end Sys2Proof.Spec

/-! ## The fault mode beside a fault (R350, R355) -/

namespace Sys2Proof.Machine

/-- `c` reads FLT_MODE as `b` does. -/
def Block.modeKept (b c : Block) : Prop := c.reg 0 R.FLT_MODE = b.reg 0 R.FLT_MODE

section ModeKept
variable {a b c : Block}

theorem Block.modeKept_refl : b.modeKept b := rfl

theorem Block.modeKept.trans (h1 : a.modeKept b) (h2 : b.modeKept c) : a.modeKept c := Eq.trans h2 h1

theorem Block.modeKept.setReg (h : a.modeKept b) {off : Nat} {w : Word} (ho : off < 1024) (hn : off ≠ R.FLT_MODE) :
    a.modeKept (b.setReg 0 off w) := (b.reg_setReg_ne w (regKey_ne ho (by decide) (.inr (Ne.symm hn)))).trans h

theorem Block.modeKept.setFld (h : a.modeKept b) {f : Fld} {n : Nat} (ho : f.off < 1024) (hn : f.off ≠ R.FLT_MODE) :
    a.modeKept (b.setFld 0 f n) := h.setReg ho hn

theorem Block.modeKept.setFlag (h : a.modeKept b) {f : Fld} {v : Bool} (ho : f.off < 1024) (hn : f.off ≠ R.FLT_MODE) :
    a.modeKept (b.setFlag 0 f v) := h.setReg ho hn

theorem Block.modeKept.irq (h : a.modeKept b) (n : Nat) : a.modeKept (b.irq 0 n) :=
  (b.reg_irq n (regKey_ne (by decide) (by decide) (.inr (by decide)))).trans h

theorem Block.modeKept.of_regs (h : a.modeKept b) (e : c.regs = b.regs) : a.modeKept c := (Block.reg_congr e 0 _).trans h

theorem Block.modeKept.of_booked {free : Nat → Nat → Bool} (h : a.modeKept b) (hb : b.booked free c) (hf : free 0 R.FLT_MODE = false) :
    a.modeKept c := (hb.2 0 R.FLT_MODE (by decide) hf).trans h

theorem Block.modeKept.when (h : a.modeKept b) {p : Bool} {f : Block → Block} (hf : b.modeKept (f b)) : a.modeKept (b.when p f) := by
  unfold Block.when
  split
  · exact h.trans hf
  · exact h

theorem Block.modeKept.each {α : Type} (h : a.modeKept b) {l : List α} {f : Block → α → Block} (hf : ∀ c : Block, ∀ x ∈ l, c.modeKept (f c x)) :
    a.modeKept (b.each l f) :=
  Block.each_induct l f b h fun c x hx hc => hc.trans (hf c x hx)

end ModeKept

theorem Block.showCaptured_modeKept (b : Block) : b.modeKept b.showCaptured := by
  have hnext {c : Block} {j : Nat} (h : j ∈ List.range 16) (w : Word) : c.modeKept (c.setReg 0 (R.FLT_NEXT j) w) := by
    have := List.mem_range.mp h
    exact Block.modeKept_refl.setReg (by unfold R.FLT_NEXT; omega) (by unfold R.FLT_NEXT R.FLT_MODE; omega)
  have hfirst (w w' : Word) : b.modeKept ((b.setReg 0 R.FLT_FIRST w).setReg 0 R.FLT_FIRST_STAMP w') :=
    (Block.modeKept_refl.setReg (by decide) (by decide)).setReg (by decide) (by decide)
  unfold Block.showCaptured
  split
  · exact ((hfirst _ _).each fun c j hj => hnext hj 0).setFld (by decide) (by decide)
  · refine ((hfirst _ _).each fun c j hj => ?_).setFld (by decide) (by decide)
    split
    · exact Block.modeKept_refl
    · exact hnext hj _

theorem Block.capture_modeKept (b : Block) (e : FltEnt) : b.modeKept (b.capture e) := by
  have hlost {c : Block} (n : Nat) : c.modeKept ((c.incSat 0 F.FLT_NEXT_CNT_LOST n).irq 0 24) :=
    (Block.modeKept_refl.setFld (by decide) (by decide)).irq 24
  unfold Block.capture
  dsimp only
  split
  · refine Block.modeKept.when (Block.modeKept.when ?_ (hlost _)) (Block.modeKept_refl.irq 22)
    exact Block.modeKept.trans (Block.modeKept_refl.of_regs rfl) (Block.showCaptured_modeKept _)
  · exact Block.modeKept_refl

theorem Block.collect_modeKept (b : Block) (line : Nat) : b.modeKept (b.collect line) := by
  have hline : b.modeKept (b.setReg 0 R.FLT_COLLECT (b.reg 0 R.FLT_COLLECT ||| BitVec.ofNat 64 (1 <<< line))) :=
    Block.modeKept_refl.setReg (by decide) (by decide)
  unfold Block.collect
  dsimp only
  split
  · exact Block.modeKept_refl
  generalize b.setReg 0 R.FLT_COLLECT (b.reg 0 R.FLT_COLLECT ||| BitVec.ofNat 64 (1 <<< line)) = c at hline ⊢
  split
  · split
    · exact hline.setFld (by decide) (by decide)
    · exact hline
  · refine Block.modeKept.setFlag ?_ (by decide) (by decide)
    refine Block.modeKept.setReg ?_ (by decide) (by decide)
    exact Block.modeKept.setFlag (Block.modeKept.setFld (hline.of_regs rfl) (by decide) (by decide)) (by decide) (by decide)

theorem Block.markCoincident_modeKept (b : Block) (u : Nat) : b.modeKept (b.markCoincident u) := by
  unfold Block.markCoincident
  dsimp only
  refine Block.modeKept.irq (Block.modeKept.setFlag (Block.modeKept.trans ?_ (Block.showCaptured_modeKept _)) (by decide) (by decide)) 25
  exact Block.modeKept.when (Block.modeKept_refl.of_regs rfl) (Block.modeKept_refl.setFlag (by decide) (by decide))

/-- A fault of a unit leaves the fault mode: the reaction that its class may ask for is another's. -/
theorem Block.faultReport_modeKept (b : Block) {u : Nat} (code cls : Nat) (inj fatalBit : Bool) (path : Nat) (hu : u ≠ 0) :
    b.modeKept (b.faultReport u code cls inj fatalBit path) := by
  generalize hr : b.faultReport u code cls inj fatalBit path = r
  unfold Block.faultReport at hr
  extract_lets cyc flt c metReal metInj e higher c1 c2 c3 c4 rec? c5 c6 at hr
  have hcycle : b.modeKept c := by
    unfold c
    split
    · exact Block.modeKept_refl
    · exact Block.modeKept_refl.of_regs rfl
  have hunit : b.modeKept c1 := hcycle.of_booked (Block.unitFault_booked c e fatalBit _) (by simp [faultRegs, e, Ne.symm hu])
  have hcaptured : b.modeKept c4 :=
    ((hunit.trans (c1.capture_modeKept e)).trans (c2.collect_modeKept _)).of_regs rfl
  have hmet : b.modeKept c6 := (hcaptured.when (Block.modeKept_refl.of_regs rfl)).when ((Block.modeKept_refl.setFlag (by decide) (by decide)).irq 25)
  exact hr ▸ hmet.when (Block.markCoincident_modeKept _ u)

/-- The buses are still in a safe state and under its command (R355). -/
theorem Block.rffeStill_congr {b c : Block} (h : b.modeKept c) (hroot : c.root = b.root) : c.rffeStill = b.rffeStill := by
  have hflag (f : Fld) (hf : f.off = R.FLT_MODE) : c.flag 0 f = b.flag 0 f := by
    have hreg : c.reg 0 f.off = b.reg 0 f.off := hf ▸ h
    rw [Block.flag, Block.fld_eq_fld hreg, Block.flag]
  rw [Block.rffeStill, Block.safeState, hflag _ rfl, hflag _ rfl, hroot, Block.rffeStill, Block.safeState]

end Sys2Proof.Machine

/-! ## Sequences (R104, R105) -/

namespace Sys2Proof.Machine

/-- Every register. -/
def anyReg : Nat → Nat → Bool := fun _ _ => true

theorem Block.fronted.any {b c : Block} {free : Nat → Nat → Bool} (h : b.fronted free c) : b.fronted anyReg c :=
  h.mono fun _ _ hn => Bool.noConfusion hn

theorem Block.showBusy_fronted (b : Block) (c : Nat) : b.fronted (oneReg (U.cc c) R.CC_RFFE_STAT) (b.showBusy c) :=
  Block.fronted_refl.setFld (by decide) (oneReg_self _ _)

@[simp] theorem Block.showBusy_ccH (b : Block) (c k : Nat) : (b.showBusy c).ccH k = b.ccH k := rfl

/-- A slot's time goes by the chiplet's dividers alone. -/
theorem Block.slotTime_congr {b b' : Block} {c : Nat} (h : (b'.ccH c).divs = (b.ccH c).divs) (fs : List Word) :
    b'.slotTime c fs = b.slotTime c fs := by
  simp only [Block.slotTime, Block.divOf, h]

/-- The slot of a sequence at a chiplet, from now on. -/
def Block.runOf (b : Block) (μ : Mem) (c seq : Nat) : RffeRun :=
  { slot := seq, buses := slotBuses (seqFrames μ c seq), due := b.t + b.slotTime c (seqFrames μ c seq) }

/-- A chiplet once a sequence has started: with a frame in its slot it runs that, else it stays. -/
def Block.ccStarted (b : Block) (μ : Mem) (c seq : Nat) : CcH :=
  if seqFrames μ c seq = [] then b.ccH c else { b.ccH c with running := (b.ccH c).running ++ [b.runOf μ c seq] }

theorem Block.seqStart_fronted (b : Block) (μ : Mem) (seq : Nat) : b.fronted anyReg (b.seqStart μ seq) :=
  Block.fronted_each fun _ _ _ => Block.fronted_ite Block.fronted_refl ((Block.fronted_refl.setCcH _ _).trans (Block.showBusy_fronted _ _).any)

/-- A sequence starts at every chiplet with a frame in it (R104). -/
theorem Block.seqStart_ccH (b : Block) (μ : Mem) (seq : Nat) {c : Nat} (hc : c < 4) : (b.seqStart μ seq).ccH c = b.ccStarted μ c seq := by
  let P := fun d : Block => d.ccH c = b.ccH c ∧ d.t = b.t
  refine Block.each_at (k := c) (P := P) (Q := fun d => d.ccH c = b.ccStarted μ c seq) (List.mem_range.mpr hc) List.nodup_range ⟨rfl, rfl⟩
    ?_ ?_ ?_
  · rintro d x hx ⟨hcc, ht⟩
    dsimp only
    split
    · exact ⟨hcc, ht⟩
    · exact ⟨by rw [Block.showBusy_ccH, Block.ccH_setCcH_ne _ _ (Ne.symm hx), hcc], ht⟩
  · rintro d ⟨hcc, ht⟩
    unfold Block.ccStarted Block.runOf
    simp only [List.isEmpty_iff]
    split
    · exact hcc
    · rw [Block.showBusy_ccH, Block.ccH_setCcH_same, Block.slotTime_congr (b := b) (b' := d) (by rw [hcc]), hcc, ht]
  · intro d x hx hcc
    dsimp only
    split
    · exact hcc
    · rw [Block.showBusy_ccH, Block.ccH_setCcH_ne _ _ (Ne.symm hx), hcc]

/-- A refusal changes no chiplet: it counts, sets its cause and raises RFFE_BUSY (R105). -/
theorem Block.rffeRefuse_fronted (b : Block) (c : Nat) : b.fronted anyReg (b.rffeRefuse c) :=
  ((Block.fronted_refl.setFld (f := F.CC_RFFE_STAT_DROP) (by decide) rfl).irq rfl).trans (Block.faultReport_booked _ _ _ 1 false false 16).fronted.any

theorem Block.rffeRefuse_ccH (b : Block) (c k : Nat) : (b.rffeRefuse c).ccH k = b.ccH k := by
  have hbooked : b.booked anyReg ((b.incSat (U.cc c) F.CC_RFFE_STAT_DROP 1).irq (U.cc c) 18) :=
    Block.booked_trans (Block.booked_setFld _ (by decide) rfl) (Block.booked_irq 18 rfl)
  exact ((Block.faultReport_booked _ _ _ 1 false false 16).ccH k).trans (hbooked.ccH k)

theorem Block.rffeRefuse_cause (b : Block) (c : Nat) : ((b.rffeRefuse c).reg (U.cc c) R.UNIT_IRQ_STAT).getLsbD 18 = true :=
  Block.faultReport_keeps _ _ _ false false 16 (Block.irq_sets _ _ (by decide))

theorem Block.rffeRefuse_drop (b : Block) (c : Nat) :
    (b.rffeRefuse c).fld (U.cc c) F.CC_RFFE_STAT_DROP = min 65535 (b.fld (U.cc c) F.CC_RFFE_STAT_DROP + 1) := by
  have hirq := (b.incSat (U.cc c) F.CC_RFFE_STAT_DROP 1).reg_irq (u := U.cc c) (v := U.cc c) (off := F.CC_RFFE_STAT_DROP.off) 18
    (regKey_ne (by decide) (by decide) (.inr (by decide)))
  unfold Block.rffeRefuse Block.corrected
  rw [Block.faultReport_fld _ _ _ _ _ _ (by decide) (U.cc_ne_zero c) (.inr (by decide)), Block.fld_eq_fld hirq,
    Block.fld_incSat_same _ _ _ _ (by decide)]
  rfl

/-- Buses of a sequence are four at each of four chiplets. -/
theorem seqBuses_lt {μ : Mem} {seq : Nat} {x : Nat × Nat} (h : x ∈ seqBuses μ seq) : x.1 < 4 ∧ x.2 < 4 := by
  unfold seqBuses slotBuses at h
  simp only [List.mem_flatMap, List.mem_map, List.mem_filter, List.mem_range] at h
  obtain ⟨c, hc, y, ⟨hy, -⟩, rfl⟩ := h
  exact ⟨hc, hy⟩

section Buses
variable {b : Block} {l : List (Nat × Nat)}

theorem Block.all_busesOn (h : ∀ x ∈ l, b.busOff x.1 x.2 = false) : ¬ (l.any fun x => b.busOff x.1 x.2) = true := by simpa using h

theorem Block.any_busOff (h : ∃ x ∈ l, b.busOff x.1 x.2 = true) : (l.any fun x => b.busOff x.1 x.2) = true := List.any_eq_true.mpr h

theorem Block.all_busesIdle (h : ∀ x ∈ l, b.busBusy x.1 x.2 = false) : (l.all fun x => !b.busBusy x.1 x.2) = true := by simpa using h

theorem Block.any_busBusy (h : ∃ x ∈ l, b.busBusy x.1 x.2 = true) : ¬ (l.all fun x => !b.busBusy x.1 x.2) = true := by simpa using h

end Buses

section SeqAsk
variable {b : Block} {μ : Mem} {c seq : Nat}

theorem Block.seqAsk_still (h : b.rffeStill = true) : (b.seqAsk μ c seq).1 = b := by
  unfold Block.seqAsk
  dsimp only
  rw [if_pos h]

theorem Block.heldStart_still (h : b.rffeStill = true) : b.heldStart μ c = b := by
  unfold Block.heldStart
  split
  · rfl
  · rw [if_pos h]

variable (hs : ¬ b.rffeStill = true)
include hs

/-- A bus that is off refuses a sequence (R105). -/
theorem Block.seqAsk_off (h : ∃ x ∈ seqBuses μ seq, b.busOff x.1 x.2 = true) : (b.seqAsk μ c seq).1 = b.rffeRefuse c := by
  unfold Block.seqAsk
  dsimp only
  rw [if_neg hs, if_pos (Block.any_busOff h)]

/-- A sequence with a busy bus waits where none waits at its chiplet (R105). -/
theorem Block.seqAsk_waits (hon : ∀ x ∈ seqBuses μ seq, b.busOff x.1 x.2 = false) (hbusy : ∃ x ∈ seqBuses μ seq, b.busBusy x.1 x.2 = true)
    (hw : (b.ccH c).waiting = none) : (b.seqAsk μ c seq).1 = b.setCcH c { b.ccH c with waiting := some seq } := by
  unfold Block.seqAsk
  dsimp only
  rw [if_neg hs, if_neg (Block.all_busesOn hon), if_neg (Block.any_busBusy hbusy), if_pos (by rw [hw]; rfl)]

/-- A bus that is off refuses the start that waited (R105, R113). -/
theorem Block.heldStart_off (hw : (b.ccH c).waiting = some seq) (h : ∃ x ∈ seqBuses μ seq, b.busOff x.1 x.2 = true) :
    b.heldStart μ c = (b.setCcH c { b.ccH c with waiting := none }).rffeRefuse c := by
  unfold Block.heldStart
  rw [hw]
  dsimp only
  rw [if_neg hs, if_pos (Block.any_busOff h)]

variable (hidle : ∀ x ∈ seqBuses μ seq, b.busBusy x.1 x.2 = false ∧ b.busOff x.1 x.2 = false)
include hidle

/-- A sequence whose buses are on and idle starts (R104). -/
theorem Block.seqAsk_idle : (b.seqAsk μ c seq).1 = b.seqStart μ seq := by
  unfold Block.seqAsk
  dsimp only
  rw [if_neg hs, if_neg (Block.all_busesOn fun x hx => (hidle x hx).2), if_pos (Block.all_busesIdle fun x hx => (hidle x hx).1)]

theorem Block.heldStart_idle (hw : (b.ccH c).waiting = some seq) :
    b.heldStart μ c = (b.setCcH c { b.ccH c with waiting := none }).seqStart μ seq := by
  unfold Block.heldStart
  rw [hw]
  dsimp only
  rw [if_neg hs, if_neg (Block.all_busesOn fun x hx => (hidle x hx).2), if_pos (Block.all_busesIdle fun x hx => (hidle x hx).1)]

end SeqAsk

end Sys2Proof.Machine

/-! ## Host frames (R106) -/

namespace Sys2Proof.Machine

section RffeCmd
variable {b : Block} {c : Nat} {v : Word}

theorem Block.rffeCmd_still (h : b.rffeStill = true) : b.rffeCmd c v = b := if_pos h

variable (hs : ¬ b.rffeStill = true)
include hs

/-- A frame of an unsupported type is refused (R113). -/
theorem Block.rffeCmd_badType (h : cmdTypeOk (Word.fld v 5 2) = false) : b.rffeCmd c v = b.corrected (U.cc c) C.cfgRffe := by
  unfold Block.rffeCmd
  dsimp only
  rw [if_neg hs, if_pos h]

variable (ht : cmdTypeOk (Word.fld v 5 2) = true) (hn : Word.fld v 5 2 ≠ 0) (hon : b.busOff c (Word.fld v 1 0) = false)
include ht hn hon

/-- A frame for an idle bus of a chiplet that carries none starts. -/
theorem Block.rffeCmd_idle (hb : b.busBusy c (Word.fld v 1 0) = false) (hr : (b.ccH c).cmdRunning = none) : b.rffeCmd c v = b.frameStart c v := by
  unfold Block.rffeCmd
  dsimp only
  rw [if_neg hs, if_neg (by simp [ht]), if_neg hn, if_neg (by simp [hon]), if_neg (by simp [hb, hr])]

/-- Any other waits where none waits, and DONE falls. -/
theorem Block.rffeCmd_waits (hb : b.busBusy c (Word.fld v 1 0) = true ∨ (b.ccH c).cmdRunning ≠ none) (hw : (b.ccH c).cmd = none) :
    b.rffeCmd c v = (b.setCcH c { b.ccH c with cmd := some v }).setFlag (U.cc c) F.CC_RFFE_RESP_DONE false := by
  have hbusy : (b.busBusy c (Word.fld v 1 0) || (b.ccH c).cmdRunning.isSome) = true := by
    rcases hb with hb | hb
    · rw [hb, Bool.true_or]
    · rw [Option.isSome_iff_ne_none.mpr hb, Bool.or_true]
  unfold Block.rffeCmd
  dsimp only
  rw [if_neg hs, if_neg (by simp [ht]), if_neg hn, if_neg (by simp [hon]), if_pos hbusy, if_neg (by simp [hw])]

end RffeCmd

/-- The registers of a chiplet's page that a host frame changes as it starts. -/
def frameRegs (c : Nat) : Nat → Nat → Bool := fun v off => v == U.cc c && (off == R.CC_RFFE_RESP || off == R.CC_RFFE_STAT)

/-- End of frame `f` at chiplet `c` when it starts now: a read may run at half the clock (R103). -/
def Block.frameDue (b : Block) (c : Nat) (f : Word) : Nat :=
  b.t + frameBits f * b.divOf c (Word.fld f 1 0) *
    (if 8 ≤ Word.fld f 5 2 && b.flag (U.cc c) (F.CC_RFFE_RD_HALF (Word.fld f 1 0)) then 2 else 1)

theorem Block.frameDue_write (b : Block) (c : Nat) {f : Word} (h : Word.fld f 5 2 < 8) :
    b.frameDue c f = b.t + frameBits f * b.divOf c (Word.fld f 1 0) := by
  have hslow : ¬ 8 ≤ Word.fld f 5 2 := by omega
  unfold Block.frameDue
  rw [if_neg (by simp [hslow]), Nat.mul_one]

section FrameStart
variable (b : Block) (c : Nat) (f : Word)

theorem Block.frameStart_fronted : b.fronted (frameRegs c) (b.frameStart c f) := by
  refine Block.fronted.trans ((Block.fronted_refl.setCcH c _).setFlag (by decide) (by simp [frameRegs, R.CC_RFFE_RESP, F.CC_RFFE_RESP_DONE]))
    ((Block.showBusy_fronted _ c).mono fun v off h => ?_)
  simp only [frameRegs, oneReg] at *
  grind

theorem Block.frameStart_ccH : (b.frameStart c f).ccH c = { b.ccH c with cmd := none, cmdRunning := some (f, b.frameDue c f) } :=
  Block.ccH_setCcH_same b c _

theorem Block.frameStart_done : (b.frameStart c f).flag (U.cc c) F.CC_RFFE_RESP_DONE = false :=
  (Block.flag_setFld_ne _ _ (regKey_ne (by decide) (by decide) (.inr (by decide)))).trans
    (Block.flag_setFlag_same _ _ _ _ (by decide) (by decide))

end FrameStart

/-- The bytes and the parity of a frame that has ended stand in RESP and STAT, under the cause of its end (R106). -/
def Block.frameTold (c data : Nat) (perr : Bool) (f : Word) (b : Block) : Prop :=
  (b.reg (U.cc c) R.UNIT_IRQ_STAT).getLsbD 19 = true ∧ (Word.fld f 5 2 = 8 → b.fld (U.cc c) F.CC_RFFE_RESP_DATA = data % 256 ∧
    b.flag (U.cc c) F.CC_RFFE_RESP_PERR = perr ∧
    (perr = true → b.flag (U.cc c) F.CC_RFFE_STAT_PERR = true ∧ b.flag (U.cc c) F.UNIT_FAULT_CORRECTED = true))

/-- They stand as long as their fields do. -/
theorem Block.frameTold.of_flds {c data : Nat} {perr : Bool} {f : Word} {b b' : Block} (h : b.frameTold c data perr f)
    (hirq : b'.reg (U.cc c) R.UNIT_IRQ_STAT = b.reg (U.cc c) R.UNIT_IRQ_STAT) (hfault : b'.reg (U.cc c) R.UNIT_FAULT = b.reg (U.cc c) R.UNIT_FAULT)
    (hdata : b'.fld (U.cc c) F.CC_RFFE_RESP_DATA = b.fld (U.cc c) F.CC_RFFE_RESP_DATA)
    (hperr : b'.flag (U.cc c) F.CC_RFFE_RESP_PERR = b.flag (U.cc c) F.CC_RFFE_RESP_PERR)
    (hstat : b'.flag (U.cc c) F.CC_RFFE_STAT_PERR = b.flag (U.cc c) F.CC_RFFE_STAT_PERR) : b'.frameTold c data perr f := by
  have hcorr : b'.flag (U.cc c) F.UNIT_FAULT_CORRECTED = b.flag (U.cc c) F.UNIT_FAULT_CORRECTED := by
    rw [Block.flag, Block.fld_eq_fld hfault, Block.flag]
  unfold Block.frameTold
  rw [hirq, hdata, hperr, hstat, hcorr]
  exact h

/-- BUSY moves beside PERR. -/
theorem Block.showBusy_told {c data : Nat} {perr : Bool} {f : Word} {b : Block} (h : b.frameTold c data perr f) :
    (b.showBusy c).frameTold c data perr f := by
  have hreg := (b.showBusy_fronted c).2 (U.cc c)
  have hresp := hreg R.CC_RFFE_RESP (by decide) (by simp [oneReg, R.CC_RFFE_RESP, R.CC_RFFE_STAT])
  refine h.of_flds (hreg _ (by decide) (by simp [oneReg, R.UNIT_IRQ_STAT, R.CC_RFFE_STAT]))
    (hreg _ (by decide) (by simp [oneReg, R.UNIT_FAULT, R.CC_RFFE_STAT])) (Block.fld_eq_fld hresp) ?_ ?_
  · rw [Block.flag, Block.fld_eq_fld hresp, Block.flag]
  · unfold Block.showBusy Block.flag
    rw [Block.fld_setFld_reg _ _ F.CC_RFFE_STAT_BUSY F.CC_RFFE_STAT_PERR _ (by decide) rfl (by decide)]

/-- DONE moves beside the bytes and the parity. -/
theorem Block.setDone_told {c data : Nat} {perr v : Bool} {f : Word} {b : Block} (h : b.frameTold c data perr f) :
    (b.setFlag (U.cc c) F.CC_RFFE_RESP_DONE v).frameTold c data perr f := by
  have hreg : ∀ off, off < 1024 → off ≠ R.CC_RFFE_RESP → (b.setFlag (U.cc c) F.CC_RFFE_RESP_DONE v).reg (U.cc c) off = b.reg (U.cc c) off :=
    fun off ho hn => Block.reg_setFld_ne _ _ (regKey_ne (by decide) ho (.inr hn))
  refine h.of_flds (hreg _ (by decide) (by decide)) (hreg _ (by decide) (by decide)) ?_ ?_ ?_
  · exact Block.fld_setFld_reg _ _ F.CC_RFFE_RESP_DONE F.CC_RFFE_RESP_DATA _ (by decide) rfl (by decide)
  · exact Block.flag_setFlag_reg _ _ F.CC_RFFE_RESP_DONE F.CC_RFFE_RESP_PERR _ (by decide) rfl (by decide)
  · rw [Block.flag, Block.fld_eq_fld (hreg _ (by decide) (by decide)), Block.flag]

theorem Block.frameStart_told {c data : Nat} {perr : Bool} {f g : Word} {b : Block} (h : b.frameTold c data perr f) :
    (b.frameStart c g).frameTold c data perr f := by
  have hset : (b.setCcH c { b.ccH c with cmd := none, cmdRunning := some (g, b.frameDue c g) }).frameTold c data perr f :=
    h.of_flds rfl rfl rfl rfl rfl
  exact Block.showBusy_told (Block.setDone_told hset)

/-- The end of frame `f`: DONE unless another waits, the parity of a read, and the cause (R106). -/
def Block.frameShown (b : Block) (c : Nat) (perr : Bool) (f : Word) : Block :=
  (((b.setCcH c { b.ccH c with cmdRunning := none }).setFlag (U.cc c) F.CC_RFFE_RESP_DONE (b.ccH c).cmd.isNone).setFlag (U.cc c)
    F.CC_RFFE_RESP_PERR (decide (8 ≤ Word.fld f 5 2) && perr)).irq (U.cc c) 19

/-- The bytes of a read. -/
def Block.frameRead (b : Block) (c data : Nat) (f : Word) : Block :=
  b.when (decide (8 ≤ Word.fld f 5 2)) fun b =>
    b.setFld (U.cc c) F.CC_RFFE_RESP_DATA (data % 256 ^ (if Word.fld f 5 2 = 8 then 1 else Word.fld f 13 12 + 1))

/-- The parity error of a read. -/
def Block.frameParity (b : Block) (c : Nat) (perr : Bool) (f : Word) : Block :=
  b.when (decide (8 ≤ Word.fld f 5 2) && perr) fun b => (b.setFlag (U.cc c) F.CC_RFFE_STAT_PERR true).corrected (U.cc c) C.rffeParity

/-- What the end of frame `f` leaves before the buses go on. -/
def Block.frameEnds (b : Block) (c data : Nat) (perr : Bool) (f : Word) : Block := ((b.frameShown c perr f).frameRead c data f).frameParity c perr f

section FrameEnds
variable (b : Block) (c data : Nat) (perr : Bool) (f : Word)

theorem Block.frameShown_flags : (b.frameShown c perr f).flag (U.cc c) F.CC_RFFE_RESP_DONE = (b.ccH c).cmd.isNone ∧
    (b.frameShown c perr f).flag (U.cc c) F.CC_RFFE_RESP_PERR = (decide (8 ≤ Word.fld f 5 2) && perr) ∧
    ((b.frameShown c perr f).reg (U.cc c) R.UNIT_IRQ_STAT).getLsbD 19 = true := by
  have hirq (d : Block) (g : Fld) (hg : g.off = R.CC_RFFE_RESP) : (d.irq (U.cc c) 19).flag (U.cc c) g = d.flag (U.cc c) g := by
    rw [Block.flag, Block.fld_eq_fld (d.reg_irq 19 (regKey_ne (by decide) (hg ▸ by decide) (.inr (hg ▸ by decide)))), Block.flag]
  unfold Block.frameShown
  refine ⟨?_, ?_, Block.irq_sets _ _ (by decide)⟩
  · rw [hirq _ _ rfl, Block.flag_setFlag_reg _ _ F.CC_RFFE_RESP_PERR F.CC_RFFE_RESP_DONE _ (by decide) rfl (by decide)]
    exact Block.flag_setFlag_same _ _ _ _ (by decide) (by decide)
  · rw [hirq _ _ rfl]
    exact Block.flag_setFlag_same _ _ _ _ (by decide) (by decide)

/-- The bytes stand beside DONE and the parity, in RESP alone. -/
theorem Block.frameRead_keeps : (b.frameRead c data f).flag (U.cc c) F.CC_RFFE_RESP_DONE = b.flag (U.cc c) F.CC_RFFE_RESP_DONE ∧
    (b.frameRead c data f).flag (U.cc c) F.CC_RFFE_RESP_PERR = b.flag (U.cc c) F.CC_RFFE_RESP_PERR ∧
    (b.frameRead c data f).reg (U.cc c) R.UNIT_IRQ_STAT = b.reg (U.cc c) R.UNIT_IRQ_STAT := by
  unfold Block.frameRead Block.when
  split
  · refine ⟨?_, ?_, Block.reg_setFld_ne _ _ (regKey_ne (by decide) (by decide) (.inr (by decide)))⟩
    · rw [Block.flag, Block.fld_setFld_reg _ _ F.CC_RFFE_RESP_DATA F.CC_RFFE_RESP_DONE _ (by decide) rfl (by decide), Block.flag]
    · rw [Block.flag, Block.fld_setFld_reg _ _ F.CC_RFFE_RESP_DATA F.CC_RFFE_RESP_PERR _ (by decide) rfl (by decide), Block.flag]
  · exact ⟨rfl, rfl, rfl⟩

/-- A read of one byte leaves it in DATA. -/
theorem Block.frameRead_byte (h : Word.fld f 5 2 = 8) : (b.frameRead c data f).fld (U.cc c) F.CC_RFFE_RESP_DATA = data % 256 := by
  have hlt : data % 256 < 2 ^ (F.CC_RFFE_RESP_DATA.hi + 1 - F.CC_RFFE_RESP_DATA.lo) :=
    Nat.lt_of_lt_of_le (Nat.mod_lt _ (by decide)) (by decide)
  unfold Block.frameRead Block.when
  rw [h, if_pos (by decide), if_pos rfl, Block.fld_setFld_same _ _ _ _ (by decide), Nat.pow_one, Nat.mod_eq_of_lt hlt]

/-- A parity error stands in STAT, under a CORRECTED fault, beside RESP. -/
theorem Block.frameParity_reg {v off : Nat} (ho : off < 1024) (hv : v ≠ 0) (h : v ≠ U.cc c ∨ 0x040 ≤ off ∧ off ≠ R.CC_RFFE_STAT) :
    (b.frameParity c perr f).reg v off = b.reg v off := by
  unfold Block.frameParity Block.when
  split
  · refine (Block.faultReport_reg _ _ 1 false false 16 ho hv (by omega)).trans (Block.reg_setFld_ne _ _ (regKey_ne (by decide) ho ?_))
    simp only [F.CC_RFFE_STAT_PERR, R.CC_RFFE_STAT] at h ⊢
    omega
  · rfl

theorem Block.frameParity_cause {i : Nat} (h : (b.reg (U.cc c) R.UNIT_IRQ_STAT).getLsbD i = true) :
    ((b.frameParity c perr f).reg (U.cc c) R.UNIT_IRQ_STAT).getLsbD i = true := by
  unfold Block.frameParity Block.when
  split
  · refine Block.faultReport_keeps _ _ _ false false 16 ?_
    rwa [Block.setFlag, Block.reg_setFld_ne _ _ (regKey_ne (by decide) (by decide) (.inr (by decide)))]
  · exact h

theorem Block.frameParity_error (h : Word.fld f 5 2 = 8) : (b.frameParity c true f).flag (U.cc c) F.CC_RFFE_STAT_PERR = true ∧
    (b.frameParity c true f).flag (U.cc c) F.UNIT_FAULT_CORRECTED = true := by
  unfold Block.frameParity Block.when
  rw [h, if_pos (by decide)]
  refine ⟨?_, Block.faultReport_corrected ..⟩
  exact (Block.faultReport_flag _ _ 1 false false 16 (by decide) (U.cc_ne_zero c) (.inr (by decide))).trans
    (Block.flag_setFlag_same _ _ _ _ (by decide) (by decide))

/-- Of the chiplet's own registers a frame's end changes RESP and STAT alone. -/
theorem Block.frameEnds_reg {off : Nat} (ho : off < 1024) (h : 0x040 ≤ off) (hresp : off ≠ R.CC_RFFE_RESP) (hstat : off ≠ R.CC_RFFE_STAT) :
    (b.frameEnds c data perr f).reg (U.cc c) off = b.reg (U.cc c) off := by
  have hset (d : Block) (g : Fld) (n : Nat) (hg : g.off = R.CC_RFFE_RESP) : (d.setFld (U.cc c) g n).reg (U.cc c) off = d.reg (U.cc c) off :=
    d.reg_setFld_ne n (regKey_ne (hg ▸ by decide) ho (.inr (hg ▸ hresp)))
  have hread (d : Block) : (d.frameRead c data f).reg (U.cc c) off = d.reg (U.cc c) off := by
    unfold Block.frameRead Block.when
    split
    · exact hset _ _ _ rfl
    · rfl
  have hirq : off ≠ R.UNIT_IRQ_STAT := by
    unfold R.UNIT_IRQ_STAT
    omega
  unfold Block.frameEnds
  rw [Block.frameParity_reg _ c perr f ho (U.cc_ne_zero c) (.inr ⟨h, hstat⟩), hread, Block.frameShown,
    Block.reg_irq _ 19 (regKey_ne (by decide) ho (.inr hirq)), Block.setFlag, hset _ _ _ rfl, Block.setFlag, hset _ _ _ rfl]
  rfl

theorem Block.frameEnds_done : (b.frameEnds c data perr f).flag (U.cc c) F.CC_RFFE_RESP_DONE = (b.ccH c).cmd.isNone := by
  have hreg := Block.frameParity_reg ((b.frameShown c perr f).frameRead c data f) c perr f (v := U.cc c) (off := R.CC_RFFE_RESP) (by decide)
    (U.cc_ne_zero c) (.inr (by decide))
  unfold Block.frameEnds
  rw [Block.flag, Block.fld_eq_fld (f := F.CC_RFFE_RESP_DONE) hreg, ← Block.flag, (Block.frameRead_keeps _ c data f).1]
  exact (b.frameShown_flags c perr f).1

theorem Block.frameEnds_told : (b.frameEnds c data perr f).frameTold c data perr f := by
  obtain ⟨-, hperr, hirq⟩ := b.frameShown_flags c perr f
  obtain ⟨-, hread, hreadIrq⟩ := (b.frameShown c perr f).frameRead_keeps c data f
  have hreg := Block.frameParity_reg ((b.frameShown c perr f).frameRead c data f) c perr f (v := U.cc c) (off := R.CC_RFFE_RESP) (by decide)
    (U.cc_ne_zero c) (.inr (by decide))
  refine ⟨Block.frameParity_cause _ c perr f (hreadIrq ▸ hirq), fun h8 => ⟨?_, ?_, ?_⟩⟩
  · exact (Block.fld_eq_fld (f := F.CC_RFFE_RESP_DATA) hreg).trans (Block.frameRead_byte _ c data f h8)
  · rw [Block.flag, Block.frameEnds, Block.fld_eq_fld (f := F.CC_RFFE_RESP_PERR) hreg, ← Block.flag, hread, hperr, h8]
    rfl
  · rintro rfl
    exact Block.frameParity_error _ c f h8

theorem Block.frameEnds_fronted : b.fronted anyReg (b.frameEnds c data perr f) := by
  have hshown : b.fronted anyReg (b.frameShown c perr f) :=
    Block.fronted.irq (Block.fronted.setFlag (Block.fronted.setFlag (Block.fronted_refl.setCcH c _) (by decide) rfl) (by decide) rfl) rfl
  refine hshown.trans (Block.fronted.trans (b := (b.frameShown c perr f).frameRead c data f) ?_ ?_)
  · exact Block.fronted_ite (Block.fronted_refl.setFld (by decide) rfl) Block.fronted_refl
  · have hflag {d : Block} : d.fronted anyReg (d.setFlag (U.cc c) F.CC_RFFE_STAT_PERR true) := Block.fronted_refl.setFlag (by decide) rfl
    refine Block.fronted_ite (hflag.trans ?_) Block.fronted_refl
    exact (Block.faultReport_booked _ _ _ 1 false false 16).fronted.any

theorem Block.frameEnds_ccH : (b.frameEnds c data perr f).ccH c = { b.ccH c with cmdRunning := none } := by
  have hshown : (b.frameShown c perr f).ccH c = { b.ccH c with cmdRunning := none } := by
    have hbooked := Block.booked_irq (free := anyReg) (u := U.cc c) (b := ((b.setCcH c { b.ccH c with cmdRunning := none }).setFlag (U.cc c)
      F.CC_RFFE_RESP_DONE (b.ccH c).cmd.isNone).setFlag (U.cc c) F.CC_RFFE_RESP_PERR (decide (8 ≤ Word.fld f 5 2) && perr)) 19 rfl
    exact (hbooked.ccH c).trans (Block.ccH_setCcH_same b c _)
  have hread : ((b.frameShown c perr f).frameRead c data f).ccH c = (b.frameShown c perr f).ccH c := by
    unfold Block.frameRead Block.when
    split <;> rfl
  refine Eq.trans ?_ (hread.trans hshown)
  unfold Block.frameEnds Block.frameParity Block.when
  split
  · exact (Block.faultReport_booked _ _ _ 1 false false 16).ccH c
  · rfl

/-- A frame's end leaves the mode of the root. -/
theorem Block.frameEnds_modeKept : b.modeKept (b.frameEnds c data perr f) := by
  have hset {d : Block} (g : Fld) (n : Nat) (hg : g.off < 1024) : d.modeKept (d.setFld (U.cc c) g n) :=
    d.reg_setFld_ne n (regKey_ne hg (by decide) (.inl (Ne.symm (U.cc_ne_zero c))))
  have hshown : b.modeKept (b.frameShown c perr f) := by
    have hflags := ((Block.modeKept_refl.of_regs (b.setCcH_regs c { b.ccH c with cmdRunning := none })).trans
      (hset F.CC_RFFE_RESP_DONE (bit (b.ccH c).cmd.isNone) (by decide))).trans
      (hset F.CC_RFFE_RESP_PERR (bit (decide (8 ≤ Word.fld f 5 2) && perr)) (by decide))
    exact hflags.trans (Block.reg_irq _ 19 (regKey_ne (by decide) (by decide) (.inl (Ne.symm (U.cc_ne_zero c)))))
  refine (hshown.when (hset _ _ (by decide))).when ?_
  exact (hset F.CC_RFFE_STAT_PERR _ (by decide)).trans (Block.faultReport_modeKept _ _ 1 false false 16 (U.cc_ne_zero c))

end FrameEnds

end Sys2Proof.Machine

/-! ## The buses go on (R104, R106) -/

namespace Sys2Proof.Machine

section Goes
variable (b : Block) (c : Nat)

/-- Buses that end a frame or a slot take their dividers, and BUSY shows it. -/
def Block.busesFreed (b : Block) (c : Nat) : Block := (b.takeDivs c).showBusy c

theorem Block.busesFreed_fronted : b.fronted (oneReg (U.cc c) R.CC_RFFE_STAT) (b.busesFreed c) :=
  ((b.takeDivs_fronted c).mono fun _ _ _ => rfl).trans (Block.showBusy_fronted _ c)

theorem Block.busesFreed_ccH : ∃ ds, (b.busesFreed c).ccH c = { b.ccH c with divs := ds } := b.takeDivs_ccH c

/-- With nothing running no bus shows busy. -/
theorem Block.busesFreed_busy (hr : (b.ccH c).running = []) (hc : (b.ccH c).cmdRunning = none) :
    (b.busesFreed c).fld (U.cc c) F.CC_RFFE_STAT_BUSY = 0 := by
  obtain ⟨ds, hds⟩ := b.takeDivs_ccH c
  have hidle : ∀ x, (b.takeDivs c).busBusy c x = false := fun x => by
    unfold Block.busBusy
    rw [hds]
    simp [hr, hc]
  unfold Block.busesFreed Block.showBusy
  rw [Block.fld_setFld_same _ _ _ _ (by decide)]
  simp [hidle, List.range_succ]

theorem Block.frameNext_none (h : (b.ccH c).cmd = none) : b.frameNext c = b := by
  unfold Block.frameNext
  rw [h]

/-- The frame that waited starts on its idle bus (R106). -/
theorem Block.frameNext_starts {g : Word} (h : (b.ccH c).cmd = some g) (hr : (b.ccH c).running = []) (hc : (b.ccH c).cmdRunning = none)
    (hs : ¬ b.rffeStill = true) (hon : b.busOff c (Word.fld g 1 0) = false) : b.frameNext c = b.frameStart c g := by
  have hidle : ¬ (b.busBusy c (Word.fld g 1 0) || (b.ccH c).cmdRunning.isSome || b.rffeStill) = true := by
    simp [Block.busBusy, hr, hc, hs]
  unfold Block.frameNext
  rw [h]
  dsimp only
  rw [if_neg hidle, if_neg (by simp [hon])]

/-- Freed buses leave the frame that has been told, and where the chiplet's buses stand. -/
theorem Block.busesFreed_told {data : Nat} {perr : Bool} {f : Word} {b : Block} (h : b.frameTold c data perr f) :
    (b.busesFreed c).frameTold c data perr f := by
  have hreg := (b.takeDivs_fronted c).2 (U.cc c)
  refine Block.showBusy_told (h.of_flds (hreg _ (by decide) rfl) (hreg _ (by decide) rfl) (Block.fld_eq_fld (hreg _ (by decide) rfl)) ?_ ?_)
  · rw [Block.flag, Block.fld_eq_fld (hreg _ (by decide) rfl), Block.flag]
  · rw [Block.flag, Block.fld_eq_fld (hreg _ (by decide) rfl), Block.flag]

end Goes

/-- An event that is due now acts on the block as it stands. -/
theorem Block.atElapsed_now {b : Block} (f : Block → Block) (h : b.t < b.time.tickEnd) : b.atElapsed b.t f = f b := by
  have hnow : b.advanceTo b.t = b := if_pos (Nat.le_refl _)
  unfold Block.atElapsed
  rw [if_pos (.inl h), hnow]

end Sys2Proof.Machine

/-! ## The commands on the buses (R104 to R106) -/

namespace Sys2Proof.Spec

open Sys2Proof.Machine

/-- A command of the front end, by what its effect comes to. -/
theorem ends_of_eq {c : Instr} {s : State} {f : Mem → Block → Block} {P : State → Prop} {X : Block} {free : Nat → Nat → Bool}
    (hx : exec c s = s.done f) (hs : Settled s) (he : f s.mem s.blk = X) (h : s.blk.fronted free X) (hP : P { s with blk := X }) :
    Ends c s P := ends_of_fronted hx hs rfl rfl (he ▸ h) (he ▸ hP)

/-- The first write of a Tc at a page, by what its effect comes to. -/
theorem ends_of_write_eq {c : Instr} {s : State} {who : Who} {u off : Nat} {mask : Word} {eff : Mem → Block → Block} {P : State → Prop}
    {free : Nat → Nat → Bool} {g : Block → Block} (hx : exec c s = s.done fun μ b => b.wrMask who u off mask (eff μ)) (ht : Takes s who u)
    (hcoll : s.blk.time.coll = []) (he : ∀ l, eff s.mem (s.blk.withColl l) = g (s.blk.withColl l))
    (h : ∀ b : Block, b.fronted free (g b)) (hP : ∀ l, P { s with blk := g (s.blk.withColl l) }) : Ends c s P :=
  ends_of_write hx ht hcoll (fun l => he l ▸ h _) fun l => he l ▸ hP l

/-- A refusal is a CORRECTED fault at the chiplet's page. -/
theorem corrected_of_rffeRefuse {s t : State} {c : Nat} (b : Block) (ht : t.blk = b.rffeRefuse c)
    (hr : b.reg (U.cc c) R.UNIT_FAULT = s.blk.reg (U.cc c) R.UNIT_FAULT) : Corrected s t (U.cc c) := by
  generalize hd : (b.incSat (U.cc c) F.CC_RFFE_STAT_DROP 1).irq (U.cc c) 18 = d
  have hreg : d.reg (U.cc c) R.UNIT_FAULT = b.reg (U.cc c) R.UNIT_FAULT := by
    rw [← hd, Block.reg_irq _ 18 (regKey_ne (by decide) (by decide) (.inr (by decide)))]
    exact Block.reg_setFld_ne _ _ (regKey_ne (by decide) (by decide) (.inr (by decide)))
  refine Corrected.of_reg (s' := { s with blk := d }) (corrected_of_faultReport (U.cc c) C.rffeBusy false false 16 ?_) (hreg.trans hr)
  rw [ht, ← hd]
  rfl

section Commands
variable {s : State} {who : Who} {c seq : Nat} {v : Word}

theorem exec_ccSeqGo (h : seq < 256) : exec (.ccSeqGo who c seq) s =
    s.done fun μ b => b.wrMask who (U.cc c) R.CC_SEQ_GO (fldMask 7 0) fun b => (b.seqAsk μ c seq).1 := by
  have hgo : exec (.ccSeqGo who c seq) s =
      s.done fun μ b => b.wrMask who (U.cc c) R.CC_SEQ_GO (fldMask 7 0) fun b => (b.seqAsk μ c (seq % 256)).1 := rfl
  rw [hgo, Nat.mod_eq_of_lt h]

theorem exec_rffeCmd : exec (.rffeCmd who c .both v) s =
    s.done fun _ b => b.wrMask who (U.cc c) R.CC_RFFE_CMD (halfMask .both) fun b => b.rffeCmd c v := by
  have hcmd : exec (.rffeCmd who c .both v) s =
      s.done fun _ b => b.wrMask who (U.cc c) R.CC_RFFE_CMD (halfMask .both) fun b => b.rffeCmd c (halfMerge .both 0 v) := rfl
  rw [hcmd, halfMerge_both]

theorem exec_rffeHeldStart : exec (.rffeHeldStart c) s = s.done fun μ b => b.heldStart μ c := rfl

theorem exec_rffeSeqDone : exec (.rffeSeqDone c) s = s.done fun _ b =>
    match firstDue (b.ccH c).running with
    | none => b
    | some r => b.atElapsed r.due fun b =>
      ((b.setCcH c { b.ccH c with running := (b.ccH c).running.erase r }).busesFreed c).frameNext c := rfl

theorem exec_rffeFrameDone {data : Nat} {perr : Bool} : exec (.rffeFrameDone c data perr) s = s.done fun _ b =>
    match (b.ccH c).cmdRunning with
    | none => b
    | some (f, due) => b.atElapsed due fun b => ((b.frameEnds c data perr f).busesFreed c).frameNext c := rfl

/-- Idle buses are so at every place of a sequence. -/
theorem busesIdle_seqBuses (h : busesIdle s) (l : List CollRec) : ∀ x ∈ seqBuses s.mem seq,
    (s.blk.withColl l).busBusy x.1 x.2 = false ∧ (s.blk.withColl l).busOff x.1 x.2 = false := fun x hx =>
  h x.1 (seqBuses_lt hx).1 x.2 (seqBuses_lt hx).2

/-- R356: a safe state overrides a start and a frame. -/
theorem ends_still {cmd : Instr} {u off : Nat} {mask : Word} {eff : Mem → Block → Block} (ht : Takes s who u)
    (hcoll : s.blk.time.coll = []) (hx : exec cmd s = s.done fun μ b => b.wrMask who u off mask (eff μ))
    (he : ∀ l, eff s.mem (s.blk.withColl l) = s.blk.withColl l) :
    Ends cmd s fun t => t.blk.ccH c = s.blk.ccH c ∧ t.blk.regs = s.blk.regs ∧ MemSame s t :=
  ends_of_write_eq (g := id) (free := anyReg) hx ht hcoll he (fun _ => Block.fronted_refl) fun _ => ⟨rfl, rfl, rfl⟩

/-- R104: with every bus idle a sequence starts at once. -/
theorem ends_ccSeqGo_idle (hc : c < 4) (hq : seq < 256) (ht : Takes s who (U.cc c)) (hcoll : s.blk.time.coll = [])
    (hs : ¬ s.blk.rffeStill = true) (hidle : busesIdle s) :
    Ends (.ccSeqGo who c seq) s fun t => t.blk.ccH c = s.blk.ccStarted s.mem c seq ∧ MemSame s t := by
  have hask : ∀ l, ((s.blk.withColl l).seqAsk s.mem c seq).1 = (s.blk.withColl l).seqStart s.mem seq := fun l =>
    Block.seqAsk_idle hs (busesIdle_seqBuses hidle l)
  refine ends_of_write_eq (g := fun b => b.seqStart s.mem seq) (exec_ccSeqGo hq) ht hcoll hask (fun b => b.seqStart_fronted s.mem seq)
    fun l => ⟨?_, rfl⟩
  exact Block.seqStart_ccH _ s.mem seq hc

/-- R105: with a busy bus a sequence waits. -/
theorem ends_ccSeqGo_busy (hq : seq < 256) (ht : Takes s who (U.cc c)) (hcoll : s.blk.time.coll = []) (hs : ¬ s.blk.rffeStill = true)
    (hon : ∀ x ∈ seqBuses s.mem seq, s.blk.busOff x.1 x.2 = false) (hbusy : ∃ x ∈ seqBuses s.mem seq, s.blk.busBusy x.1 x.2 = true)
    (hw : (s.blk.ccH c).waiting = none) : Ends (.ccSeqGo who c seq) s fun t =>
      (t.blk.ccH c).waiting = some seq ∧ (t.blk.ccH c).running = (s.blk.ccH c).running ∧ t.blk.regs = s.blk.regs ∧ MemSame s t := by
  have hask : ∀ l, ((s.blk.withColl l).seqAsk s.mem c seq).1 =
      (s.blk.withColl l).setCcH c { (s.blk.withColl l).ccH c with waiting := some seq } := fun l => Block.seqAsk_waits hs hon hbusy hw
  refine ends_of_write_eq (g := fun b => b.setCcH c { b.ccH c with waiting := some seq }) (free := anyReg) (exec_ccSeqGo hq) ht hcoll hask
    (fun b => Block.fronted_refl.setCcH c _) fun l => ?_
  dsimp only
  rw [Block.ccH_setCcH_same]
  exact ⟨rfl, rfl, rfl, rfl⟩

/-- R105: with a bus off a sequence is refused. -/
theorem ends_ccSeqGo_off (hq : seq < 256) (ht : Takes s who (U.cc c)) (hcoll : s.blk.time.coll = []) (hs : ¬ s.blk.rffeStill = true)
    (hoff : ∃ x ∈ seqBuses s.mem seq, s.blk.busOff x.1 x.2 = true) : Ends (.ccSeqGo who c seq) s fun t =>
      Corrected s t (U.cc c) ∧ Cause t (U.cc c) 18 ∧
        t.blk.fld (U.cc c) F.CC_RFFE_STAT_DROP = min 65535 (s.blk.fld (U.cc c) F.CC_RFFE_STAT_DROP + 1) ∧
        t.blk.ccH c = s.blk.ccH c ∧ MemSame s t := by
  have hask : ∀ l, ((s.blk.withColl l).seqAsk s.mem c seq).1 = (s.blk.withColl l).rffeRefuse c := fun l => Block.seqAsk_off hs hoff
  refine ends_of_write_eq (g := fun b => b.rffeRefuse c) (exec_ccSeqGo hq) ht hcoll hask (fun b => b.rffeRefuse_fronted c) fun l => ?_
  exact ⟨corrected_of_rffeRefuse (s.blk.withColl l) rfl rfl, Block.rffeRefuse_cause _ c, Block.rffeRefuse_drop _ c, Block.rffeRefuse_ccH _ c c, rfl⟩

/-- R106: a frame for an idle bus starts. -/
theorem ends_rffeCmd_idle (hc : c < 4) (ht : Takes s who (U.cc c)) (hcoll : s.blk.time.coll = []) (hs : ¬ s.blk.rffeStill = true)
    (hidle : busesIdle s) (hr : (s.blk.ccH c).cmdRunning = none) (h1 : 1 ≤ Word.fld v 5 2) (h5 : Word.fld v 5 2 ≤ 5) :
    Ends (.rffeCmd who c .both v) s fun t => t.blk.flag (U.cc c) F.CC_RFFE_RESP_DONE = false ∧
      (t.blk.ccH c).cmdRunning = some (v, s.blk.t + frameBits v * s.blk.divOf c (Word.fld v 1 0)) ∧ MemSame s t := by
  obtain ⟨hbusy, hoff⟩ := hidle c hc (Word.fld v 1 0) (Word.fld_lt v 1 0)
  have htype : cmdTypeOk (Word.fld v 5 2) = true := by simp [cmdTypeOk, h5]
  have hcmd : ∀ l, (s.blk.withColl l).rffeCmd c v = (s.blk.withColl l).frameStart c v := fun l =>
    Block.rffeCmd_idle hs htype (by omega) hoff hbusy hr
  refine ends_of_write_eq (g := fun b => b.frameStart c v) exec_rffeCmd ht hcoll hcmd (fun b => b.frameStart_fronted c v) fun l =>
    ⟨Block.frameStart_done _ c v, ?_, rfl⟩
  dsimp only
  rw [Block.frameStart_ccH, Block.frameDue_write _ c (by omega)]
  rfl

/-- R106: a frame for a busy bus, or beside another, waits. -/
theorem ends_rffeCmd_busy (ht : Takes s who (U.cc c)) (hcoll : s.blk.time.coll = []) (hs : ¬ s.blk.rffeStill = true)
    (hbusy : s.blk.busBusy c (Word.fld v 1 0) = true ∨ (s.blk.ccH c).cmdRunning ≠ none) (hon : s.blk.busOff c (Word.fld v 1 0) = false)
    (hw : (s.blk.ccH c).cmd = none) (h1 : 1 ≤ Word.fld v 5 2) (h5 : Word.fld v 5 2 ≤ 5) :
    Ends (.rffeCmd who c .both v) s fun t => (t.blk.ccH c).cmd = some v ∧ (t.blk.ccH c).cmdRunning = (s.blk.ccH c).cmdRunning ∧
      t.blk.flag (U.cc c) F.CC_RFFE_RESP_DONE = false ∧ MemSame s t := by
  have htype : cmdTypeOk (Word.fld v 5 2) = true := by simp [cmdTypeOk, h5]
  have hcmd : ∀ l, (s.blk.withColl l).rffeCmd c v = ((s.blk.withColl l).setCcH c { (s.blk.withColl l).ccH c with cmd := some v }).setFlag
      (U.cc c) F.CC_RFFE_RESP_DONE false := fun l => Block.rffeCmd_waits hs htype (by omega) hon hbusy hw
  refine ends_of_write_eq (g := fun b => (b.setCcH c { b.ccH c with cmd := some v }).setFlag (U.cc c) F.CC_RFFE_RESP_DONE false)
    (free := anyReg) exec_rffeCmd ht hcoll hcmd (fun b => (Block.fronted_refl.setCcH c _).setFlag (by decide) rfl) fun l => ?_
  have hcc : (((s.blk.withColl l).setCcH c { (s.blk.withColl l).ccH c with cmd := some v }).setFlag (U.cc c) F.CC_RFFE_RESP_DONE false).ccH c =
      { s.blk.ccH c with cmd := some v } := Block.ccH_setCcH_same ..
  dsimp only
  rw [hcc]
  exact ⟨rfl, rfl, Block.flag_setFlag_same _ _ _ _ (by decide) (by decide), rfl⟩

/-- R113: a frame of an unsupported type is refused. -/
theorem ends_rffeCmd_badType (ht : Takes s who (U.cc c)) (hcoll : s.blk.time.coll = []) (hs : ¬ s.blk.rffeStill = true)
    (htype : cmdTypeOk (Word.fld v 5 2) = false) : Ends (.rffeCmd who c .both v) s fun t =>
      Corrected s t (U.cc c) ∧ t.blk.ccH c = s.blk.ccH c ∧ MemSame s t :=
  ends_refused exec_rffeCmd ht hcoll (fun _ => Block.rffeCmd_badType hs htype) fun _ hfault hcc _ _ hmem => ⟨hfault, hcc c, hmem⟩

/-- R105, R113: the start that waited is refused where a bus has been disabled meanwhile. -/
theorem ends_rffeHeldStart_off (hset : Settled s) (hs : ¬ s.blk.rffeStill = true) (hoff : ∃ x ∈ seqBuses s.mem seq, s.blk.busOff x.1 x.2 = true)
    (hw : (s.blk.ccH c).waiting = some seq) : Ends (.rffeHeldStart c) s fun t => (t.blk.ccH c).waiting = none ∧
      (t.blk.ccH c).running = (s.blk.ccH c).running ∧ Corrected s t (U.cc c) ∧ Cause t (U.cc c) 18 ∧ MemSame s t := by
  refine ends_of_eq exec_rffeHeldStart hset (Block.heldStart_off hs hw hoff)
    ((Block.fronted_refl.setCcH c _).trans (Block.rffeRefuse_fronted _ c)) ?_
  dsimp only
  rw [Block.rffeRefuse_ccH, Block.ccH_setCcH_same]
  exact ⟨rfl, rfl, corrected_of_rffeRefuse (s.blk.setCcH c _) rfl rfl, Block.rffeRefuse_cause _ c, rfl⟩

/-- R105: it begins once every bus is idle. -/
theorem ends_rffeHeldStart_idle (hc : c < 4) (hset : Settled s) (hs : ¬ s.blk.rffeStill = true) (hidle : busesIdle s)
    (hw : (s.blk.ccH c).waiting = some seq) : Ends (.rffeHeldStart c) s fun t => (t.blk.ccH c).waiting = none ∧ MemSame s t ∧
      (seqFrames s.mem c seq ≠ [] → (t.blk.ccH c).running = (s.blk.ccH c).running ++ [s.blk.runOf s.mem c seq]) := by
  have hheld := Block.heldStart_idle (μ := s.mem) (c := c) hs (fun x hx => hidle x.1 (seqBuses_lt hx).1 x.2 (seqBuses_lt hx).2) hw
  refine ends_of_eq exec_rffeHeldStart hset hheld ((Block.fronted_refl.setCcH c _).trans (Block.seqStart_fronted _ s.mem seq)) ?_
  have htime : (s.blk.setCcH c { s.blk.ccH c with waiting := none }).slotTime c (seqFrames s.mem c seq) =
      s.blk.slotTime c (seqFrames s.mem c seq) := Block.slotTime_congr (by rw [Block.ccH_setCcH_same]) _
  dsimp only
  rw [Block.seqStart_ccH _ s.mem seq hc, Block.ccStarted, Block.runOf, Block.ccH_setCcH_same, htime]
  split
  next h => exact ⟨rfl, rfl, fun hn => absurd h hn⟩
  next => exact ⟨rfl, rfl, fun _ => rfl⟩

/-- R104: a slot ends with its buses idle. -/
theorem ends_rffeSeqDone (hset : Settled s) {r : RffeRun} (hr : (s.blk.ccH c).running = [r]) (hcmd : (s.blk.ccH c).cmd = none)
    (hdue : DueNow s r.due) : Ends (.rffeSeqDone c) s fun t => (t.blk.ccH c).running = [] ∧
      ((s.blk.ccH c).cmdRunning = none → t.blk.fld (U.cc c) F.CC_RFFE_STAT_BUSY = 0) ∧ RegsKept s t (oneReg (U.cc c) R.CC_RFFE_STAT) ∧
      MemSame s t := by
  obtain ⟨hnow, hend⟩ := hdue
  generalize hb : s.blk.setCcH c { s.blk.ccH c with running := [] } = b
  have hcc : b.ccH c = { s.blk.ccH c with running := [] } := by rw [← hb, Block.ccH_setCcH_same]
  obtain ⟨ds, hds⟩ := b.busesFreed_ccH c
  have hfront : s.blk.fronted (oneReg (U.cc c) R.CC_RFFE_STAT) (b.busesFreed c) :=
    (hb ▸ Block.fronted_refl.setCcH c _).trans (b.busesFreed_fronted c)
  refine ends_of_eq (X := b.busesFreed c) exec_rffeSeqDone hset ?_ hfront ⟨?_, fun hrun => ?_, hfront.2, rfl⟩
  · have hnext : (b.busesFreed c).frameNext c = b.busesFreed c := Block.frameNext_none _ c (by rw [hds, hcc, hcmd])
    simp only [hr, firstDue]
    rw [hnow, Block.atElapsed_now _ hend, hr, List.erase_cons_head, hb, hnext]
  · dsimp only
    rw [hds, hcc]
  · exact b.busesFreed_busy c (by rw [hcc]) (by rw [hcc, hrun])

section FrameDone
variable {data : Nat} {perr : Bool} {f : Word} {d : Nat}

/-- What the end of a host frame comes to, before the frame that waits. -/
theorem rffeFrameDone_freed (hr : (s.blk.ccH c).cmdRunning = some (f, d)) (hdue : DueNow s d) :
    (match (s.blk.ccH c).cmdRunning with
      | none => s.blk
      | some (f, due) => s.blk.atElapsed due fun b => ((b.frameEnds c data perr f).busesFreed c).frameNext c) =
      ((s.blk.frameEnds c data perr f).busesFreed c).frameNext c := by
  obtain ⟨hnow, hend⟩ := hdue
  rw [hr]
  dsimp only
  rw [hnow, Block.atElapsed_now _ hend]

/-- R106: DONE tells the end of the last host frame, with what it read. -/
theorem ends_rffeFrameDone (hset : Settled s) (hr : (s.blk.ccH c).cmdRunning = some (f, d)) (hcmd : (s.blk.ccH c).cmd = none)
    (hdue : DueNow s d) : Ends (.rffeFrameDone c data perr) s fun t => t.blk.flag (U.cc c) F.CC_RFFE_RESP_DONE = true ∧
      (t.blk.ccH c).cmdRunning = none ∧ t.blk.frameTold c data perr f ∧ MemSame s t := by
  obtain ⟨ds, hds⟩ := (s.blk.frameEnds c data perr f).busesFreed_ccH c
  rw [Block.frameEnds_ccH] at hds
  have hnext : ((s.blk.frameEnds c data perr f).busesFreed c).frameNext c = (s.blk.frameEnds c data perr f).busesFreed c :=
    Block.frameNext_none _ c (by rw [hds, hcmd])
  refine ends_of_eq exec_rffeFrameDone hset ((rffeFrameDone_freed hr hdue).trans hnext)
    ((s.blk.frameEnds_fronted c data perr f).trans (Block.busesFreed_fronted _ c).any) ⟨?_, ?_, ?_, rfl⟩
  · have hreg := ((s.blk.frameEnds c data perr f).busesFreed_fronted c).2 (U.cc c) R.CC_RFFE_RESP (by decide)
      (by simp [oneReg, R.CC_RFFE_RESP, R.CC_RFFE_STAT])
    dsimp only
    rw [Block.flag, Block.fld_eq_fld (f := F.CC_RFFE_RESP_DONE) hreg, ← Block.flag, Block.frameEnds_done, hcmd]
    rfl
  · dsimp only
    rw [hds]
  · exact Block.busesFreed_told c (s.blk.frameEnds_told c data perr f)

/-- R106: the frame that waits starts, and DONE speaks of it. -/
theorem ends_rffeFrameDone_next (hset : Settled s) {g : Word} (hr : (s.blk.ccH c).cmdRunning = some (f, d)) (hcmd : (s.blk.ccH c).cmd = some g)
    (hrun : (s.blk.ccH c).running = []) (hs : ¬ s.blk.rffeStill = true) (hon : s.blk.busOff c (Word.fld g 1 0) = false) (hdue : DueNow s d) :
    Ends (.rffeFrameDone c data perr) s fun t => t.blk.flag (U.cc c) F.CC_RFFE_RESP_DONE = false ∧
      (t.blk.ccH c).cmdRunning.map Prod.fst = some g ∧ (t.blk.ccH c).cmd = none ∧ t.blk.frameTold c data perr f ∧ MemSame s t := by
  have hends := s.blk.frameEnds_fronted c data perr f
  have hfreed := (s.blk.frameEnds c data perr f).busesFreed_fronted c
  obtain ⟨ds, hds⟩ := (s.blk.frameEnds c data perr f).busesFreed_ccH c
  rw [Block.frameEnds_ccH] at hds
  have hstill : ((s.blk.frameEnds c data perr f).busesFreed c).rffeStill = s.blk.rffeStill := by
    refine Block.rffeStill_congr ((s.blk.frameEnds_modeKept c data perr f).trans ?_) (hfreed.root.trans hends.root)
    exact hfreed.2 0 R.FLT_MODE (by decide) (by simp [oneReg, Ne.symm (U.cc_ne_zero c)])
  have hbus : ((s.blk.frameEnds c data perr f).busesFreed c).busOff c (Word.fld g 1 0) = false := by
    have hx : Word.fld g 1 0 < 4 := Word.fld_lt g 1 0
    generalize Word.fld g 1 0 = x at hon hx ⊢
    have hoff : (F.CC_RFFE_EN x).off = 0x048 + 0x8 * x := rfl
    have hreg : ((s.blk.frameEnds c data perr f).busesFreed c).reg (U.cc c) (F.CC_RFFE_EN x).off = s.blk.reg (U.cc c) (F.CC_RFFE_EN x).off := by
      rw [hfreed.2 _ _ (by omega) (by simp [oneReg, hoff, R.CC_RFFE_STAT]; omega)]
      refine Block.frameEnds_reg _ c data perr f ?_ ?_ ?_ ?_ <;> simp only [hoff, R.CC_RFFE_RESP, R.CC_RFFE_STAT] <;> omega
    rw [Block.busOff, Block.flag, Block.fld_eq_fld hreg]
    exact hon
  have hnext := Block.frameNext_starts _ c (by rw [hds, hcmd]) (by rw [hds, hrun]) (by rw [hds]) (by rwa [hstill]) hbus
  refine ends_of_eq exec_rffeFrameDone hset ((rffeFrameDone_freed hr hdue).trans hnext)
    ((hends.trans hfreed.any).trans (Block.frameStart_fronted _ c g).any) ⟨Block.frameStart_done _ c g, ?_, ?_, ?_, rfl⟩
  · dsimp only
    rw [Block.frameStart_ccH]
    rfl
  · dsimp only
    rw [Block.frameStart_ccH]
  · exact Block.frameStart_told (Block.busesFreed_told c (s.blk.frameEnds_told c data perr f))

end FrameDone

/-- What is said of a chiplet at which a sequence has started. -/
theorem ccStarted_running (b : Block) (μ : Mem) (c seq : Nat) :
    (seqFrames μ c seq = [] → (b.ccStarted μ c seq).running = (b.ccH c).running) ∧
      (seqFrames μ c seq ≠ [] → (b.ccStarted μ c seq).running = (b.ccH c).running ++ [b.runOf μ c seq]) := by
  unfold Block.ccStarted
  exact ⟨fun h => by rw [if_pos h], fun h => by rw [if_neg h]⟩

end Commands

/-- R104, R105, R106: sequences and host frames on the buses. -/
theorem frontEndBuses : FrontEndBuses := by
  intro who c seq data perr v s hc hq
  refine ⟨fun ht hcoll hs _ => ⟨?_, ?_⟩, fun ht hcoll hs => ⟨fun hidle => ?_, ?_, ?_, ?_, ?_, ?_⟩,
    fun hset => ⟨fun hs => ?_, ?_, ?_, ?_, ?_, ?_⟩⟩
  · exact ends_still ht hcoll (exec_ccSeqGo hq) fun _ => Block.seqAsk_still hs
  · exact ends_still ht hcoll exec_rffeCmd fun _ => Block.rffeCmd_still hs
  · obtain ⟨t, hgo, hcc, hmem⟩ := ends_ccSeqGo_idle hc hq ht hcoll hs hidle
    obtain ⟨hnone, hsome⟩ := ccStarted_running s.blk s.mem c seq
    exact ⟨t, hgo, hmem, fun h => by rw [hcc, hnone h], fun h => by rw [hcc, hsome h]; rfl⟩
  · exact fun hon hbusy hw => ends_ccSeqGo_busy hq ht hcoll hs hon hbusy hw
  · intro hoff
    obtain ⟨t, hgo, hfault, hcause, hdrop, hcc, hmem⟩ := ends_ccSeqGo_off hq ht hcoll hs hoff
    exact ⟨t, hgo, hfault, hcause, hdrop, by rw [hcc], hmem⟩
  · exact fun hidle hr h1 h5 => ends_rffeCmd_idle hc ht hcoll hs hidle hr h1 h5
  · exact fun hbusy hon hw h1 h5 => ends_rffeCmd_busy ht hcoll hs hbusy hon hw h1 h5
  · exact ends_rffeCmd_badType ht hcoll hs
  · exact ends_of_eq exec_rffeHeldStart hset (Block.heldStart_still hs) (free := anyReg) Block.fronted_refl rfl
  · exact fun hs hoff hw => ends_rffeHeldStart_off hset hs hoff hw
  · exact fun hs hidle hw => ends_rffeHeldStart_idle hc hset hs hidle hw
  · exact fun r hr hcmd hdue => ends_rffeSeqDone hset hr hcmd hdue
  · intro f d hr hcmd hdue
    obtain ⟨t, hend, hdone, hrun, ⟨hcause, hread⟩, hmem⟩ := ends_rffeFrameDone (data := data) (perr := perr) hset hr hcmd hdue
    exact ⟨t, hend, hdone, hrun, hcause, hmem, hread⟩
  · intro f d g hr hcmd hrun hs hon hdue
    obtain ⟨t, hend, hdone, hnext, hwait, ⟨hcause, hread⟩, hmem⟩ :=
      ends_rffeFrameDone_next (data := data) (perr := perr) hset hr hcmd hrun hs hon hdue
    exact ⟨t, hend, hdone, hnext, hwait, hcause, hmem, hread⟩

end Sys2Proof.Spec

/-! ## The planner's sequences (R67, R105) -/

namespace Sys2Proof.Machine

@[simp] theorem Block.pbdH_setPbdH_same (b : Block) (k : Nat) (h : PbdH) : (b.setPbdH k h).pbdH k = h := by simp [Block.pbdH, Block.setPbdH]
@[simp] theorem Block.orxH_setOrxH_same (b : Block) (k : Nat) (h : OrxH) : (b.setOrxH k h).orxH k = h := by simp [Block.orxH, Block.setOrxH]

/-- The planner is late at a chiplet. -/
def Block.lateAt (b : Block) (c : Nat) : Block :=
  (if b.flag (U.cc c) F.CC_RFFE_STAT_SEQ_LATE then b else (b.setFlag (U.cc c) F.CC_RFFE_STAT_SEQ_LATE true).irq (U.cc c) 17).corrected
    (U.cc c) C.rffeLate

theorem Block.planLate_eq (b : Block) (l : List Nat) : b.planLate l = b.each l Block.lateAt := rfl

theorem Block.lateAt_fronted (b : Block) (c : Nat) : b.fronted (fun v _ => v == U.cc c || v == 0) (b.lateAt c) := by
  have hpage : ∀ off, (fun v (_ : Nat) => v == U.cc c || v == 0) (U.cc c) off = true := fun _ => by simp
  unfold Block.lateAt Block.corrected
  refine Block.fronted.trans ?_ ((Block.faultReport_booked _ _ _ 1 false false 16).fronted.mono fun v off h => ?_)
  · exact Block.fronted_ite Block.fronted_refl ((Block.fronted_refl.setFlag (by decide) (hpage F.CC_RFFE_STAT_SEQ_LATE.off)).irq (hpage R.UNIT_IRQ_STAT))
  · simp only [faultRegs] at *
    grind

/-- It shows so, with a CORRECTED fault (R105). -/
def Block.showsLate (c : Nat) (b : Block) : Prop :=
  b.flag (U.cc c) F.CC_RFFE_STAT_SEQ_LATE = true ∧ b.flag (U.cc c) F.UNIT_FAULT_CORRECTED = true

theorem Block.lateAt_shows (b : Block) (c : Nat) : (b.lateAt c).showsLate c := by
  refine ⟨?_, Block.faultReport_corrected ..⟩
  refine (Block.faultReport_flag _ _ 1 false false 16 (by decide) (U.cc_ne_zero c) (.inr (by decide))).trans ?_
  split
  next h => exact h
  next =>
    have hirq := (b.setFlag (U.cc c) F.CC_RFFE_STAT_SEQ_LATE true).reg_irq (u := U.cc c) (v := U.cc c) (off := F.CC_RFFE_STAT_SEQ_LATE.off) 17
      (regKey_ne (by decide) (by decide) (.inr (by decide)))
    rw [Block.flag, Block.fld_eq_fld hirq]
    exact Block.flag_setFlag_same _ _ _ _ (by decide) (by decide)

theorem Block.lateAt_keeps {b : Block} {c x : Nat} (hx : x ≠ c) (h : b.showsLate c) : (b.lateAt x).showsLate c := by
  have hreg (f : Fld) (hf : f.off < 1024) : (b.lateAt x).flag (U.cc c) f = b.flag (U.cc c) f := by
    rw [Block.flag, Block.fld_eq_fld ((b.lateAt_fronted x).2 _ _ hf (by simp [U.cc_injective (Ne.symm hx), U.cc_ne_zero])), Block.flag]
  exact ⟨(hreg _ (by decide)).trans h.1, (hreg _ (by decide)).trans h.2⟩

theorem Block.planLate_fronted (b : Block) (l : List Nat) : b.fronted anyReg (b.planLate l) :=
  Block.fronted_each fun b c _ => (b.lateAt_fronted c).any

/-- The planner that gives an entry up shows so at every chiplet that could not start. -/
theorem Block.planLate_shows (b : Block) {p : Nat → Bool} {c : Nat} (h : c ∈ (List.range 4).filter p) :
    (b.planLate ((List.range 4).filter p)).showsLate c :=
  Block.each_at (P := fun _ => True) h (List.nodup_range.filter p) trivial (fun _ _ _ _ => trivial) (fun b _ => b.lateAt_shows c)
    fun _ _ hx hb => Block.lateAt_keeps hx hb

end Sys2Proof.Machine

namespace Sys2Proof.Spec

open Sys2Proof.Machine

section Planner
variable {s : State} {m e at_ : Nat}

theorem exec_plannerSeqStart : exec (.plannerSeqStart m) s = s.done fun μ b =>
    match (b.pbdH m).pendingEntry with
    | none => b
    | some (e, at_, started) =>
      if started then b
      else if b.planStart μ m e at_ < b.t then b.planPassed μ m e
      else b.atElapsed (b.planStart μ m e at_).toNat fun b => b.planSeq μ m e := rfl

variable (hset : Settled s) (hp : (s.blk.pbdH m).pendingEntry = some (e, at_, false))
include hset hp

/-- At its instant the planner's sequence acts. -/
theorem ends_plannerSeqStart (ht : s.blk.planStart s.mem m e at_ = (s.blk.t : Int)) (hend : s.blk.t < s.blk.time.tickEnd) {X : Block}
    {P : State → Prop} (hX : s.blk.planSeq s.mem m e = X) (hfront : s.blk.fronted anyReg X) (hP : P { s with blk := X }) :
    Ends (.plannerSeqStart m) s P := by
  refine ends_of_eq exec_plannerSeqStart hset ?_ hfront hP
  rw [hp]
  dsimp only
  rw [if_neg (by decide), ht, if_neg (Int.lt_irrefl _), Int.toNat_natCast, Block.atElapsed_now _ hend, hX]

/-- An instant that has passed gives the entry up (R105). -/
theorem ends_plannerSeqStart_passed (ht : s.blk.planStart s.mem m e at_ < (s.blk.t : Int)) : Ends (.plannerSeqStart m) s fun t =>
    (t.blk.pbdH m).pendingEntry = none ∧ MemSame s t ∧
      ∀ c, c < 4 → seqFrames s.mem c (s.blk.pathFld m (F.PBD_EXT_SEQ e)) ≠ [] → t.blk.showsLate c := by
  refine ends_of_eq (X := s.blk.planPassed s.mem m e) exec_plannerSeqStart hset ?_ ((s.blk.planLate_fronted _).setPbdH m _) ?_
  · rw [hp]
    dsimp only
    rw [if_neg (by decide), if_pos ht]
  · refine ⟨congrArg PbdH.pendingEntry (Block.pbdH_setPbdH_same ..), rfl, fun c hc hfs => ?_⟩
    have hmem : c ∈ (List.range 4).filter fun c => !(seqFrames s.mem c (s.blk.pathFld m (F.PBD_EXT_SEQ e))).isEmpty := by
      simpa using ⟨hc, hfs⟩
    exact s.blk.planLate_shows hmem

end Planner

/-- R67, R105, R356: what the planner does at its instant. -/
theorem plannerSequences {m e at_ : Nat} {s : State} (hset : Settled s) (hp : (s.blk.pbdH m).pendingEntry = some (e, at_, false))
    (ht : s.blk.planStart s.mem m e at_ = (s.blk.t : Int)) (hdue : DueNow s s.blk.t) :
    let seq := s.blk.pathFld m (F.PBD_EXT_SEQ e)
    (s.blk.rffeStill = true → Ends (.plannerSeqStart m) s fun t => (t.blk.pbdH m).pendingEntry = none ∧ t.blk.ccs = s.blk.ccs ∧
        t.blk.regs = s.blk.regs ∧ MemSame s t) ∧
      (s.blk.rffeStill = false → s.blk.seqBlocked s.mem seq = [] → Ends (.plannerSeqStart m) s fun t =>
        (t.blk.pbdH m).pendingEntry = some (e, at_, true) ∧ MemSame s t ∧ ∀ c, c < 4 → t.blk.ccH c = s.blk.ccStarted s.mem c seq) ∧
      (s.blk.rffeStill = false → s.blk.seqBlocked s.mem seq ≠ [] → Ends (.plannerSeqStart m) s fun t =>
        (t.blk.pbdH m).pendingEntry = none ∧ MemSame s t ∧ ∀ c ∈ s.blk.seqBlocked s.mem seq, t.blk.showsLate c) := by
  intro seq
  refine ⟨fun hs => ?_, fun hs hfree => ?_, fun hs hblocked => ?_⟩
  · refine ends_plannerSeqStart hset hp ht hdue.2 (X := s.blk.setPbdH m { s.blk.pbdH m with pendingEntry := none }) ?_
      (Block.fronted_refl.setPbdH m _) ⟨congrArg PbdH.pendingEntry (Block.pbdH_setPbdH_same ..), rfl, rfl, rfl⟩
    unfold Block.planSeq
    dsimp only
    rw [if_pos hs]
  · refine ends_plannerSeqStart hset hp ht hdue.2
      (X := (s.blk.seqStart s.mem seq).setPbdH m { s.blk.pbdH m with pendingEntry := some (e, at_, true) }) ?_
      ((s.blk.seqStart_fronted s.mem seq).setPbdH m _) ⟨congrArg PbdH.pendingEntry (Block.pbdH_setPbdH_same ..), rfl, fun c hc => ?_⟩
    · unfold Block.planSeq
      dsimp only
      rw [if_neg (by simp [hs]), hfree]
      dsimp only
      rw [hp]
      rfl
    · exact s.blk.seqStart_ccH s.mem seq hc
  · refine ends_plannerSeqStart hset hp ht hdue.2
      (X := (s.blk.planLate (s.blk.seqBlocked s.mem seq)).setPbdH m { s.blk.pbdH m with pendingEntry := none }) ?_
      ((s.blk.planLate_fronted _).setPbdH m _) ⟨congrArg PbdH.pendingEntry (Block.pbdH_setPbdH_same ..), rfl, fun c hc => ?_⟩
    · unfold Block.planSeq
      dsimp only
      rw [if_neg (by simp [hs])]
      split
      next h => exact absurd h hblocked
      next => rfl
    · exact s.blk.planLate_shows hc

end Sys2Proof.Spec

/-! ## Observation receivers (R107, R108, R112) -/

namespace Sys2Proof.Machine

/-- The entry that observation receiver `o` shows, its channel, and of its dwell the position, the ticks left and the end of settling. -/
def Block.entryShown (b : Block) (o : Nat) : Nat × Nat × Nat × Nat × Option Nat :=
  (b.fld (U.orx o) F.ORX_STAT_ENTRY, b.fld (U.orx o) F.ORX_STAT_TXC, (b.orxH o).pos, (b.orxH o).ticksLeft, (b.orxH o).settleEnd)

theorem Block.irq_entryShown (b : Block) (o n : Nat) : (b.irq (U.orx o) n).entryShown o = b.entryShown o := by
  have hreg (f : Fld) (hf : f.off = R.ORX_STAT) : (b.irq (U.orx o) n).fld (U.orx o) f = b.fld (U.orx o) f :=
    Block.fld_eq_fld (b.reg_irq n (regKey_ne (by decide) (hf ▸ by decide) (.inr (hf ▸ by decide))))
  unfold Block.entryShown
  rw [hreg _ rfl, hreg _ rfl, (Block.booked_irq (free := anyReg) n rfl).orxH]

theorem Block.setOrxH_entryShown (b : Block) (o : Nat) {h : OrxH} (hpos : h.pos = (b.orxH o).pos) (hticks : h.ticksLeft = (b.orxH o).ticksLeft)
    (hsettle : h.settleEnd = (b.orxH o).settleEnd) : (b.setOrxH o h).entryShown o = b.entryShown o := by
  unfold Block.entryShown
  rw [Block.orxH_setOrxH_same, hpos, hticks, hsettle]
  rfl

/-- TX_OFF moves beside the entry. -/
theorem Block.setTxOff_entryShown (b : Block) (o : Nat) (v : Bool) : (b.setTxOff o v).entryShown o = b.entryShown o := by
  generalize hd : b.setFlag (U.orx o) F.ORX_STAT_TX_OFF v = d
  have hset : d.entryShown o = b.entryShown o := by
    rw [← hd, Block.entryShown, Block.setFlag, Block.fld_setFld_reg _ _ F.ORX_STAT_TX_OFF F.ORX_STAT_ENTRY _ (by decide) rfl (by decide),
      Block.fld_setFld_reg _ _ F.ORX_STAT_TX_OFF F.ORX_STAT_TXC _ (by decide) rfl (by decide)]
    rfl
  have hirq {x : Block} (p : Bool) (hx : x.entryShown o = b.entryShown o) : (x.when p fun b => b.irq (U.orx o) 17).entryShown o = b.entryShown o := by
    unfold Block.when
    split
    · exact (x.irq_entryShown o 17).trans hx
    · exact hx
  unfold Block.setTxOff
  rw [hd]
  refine hirq _ ?_
  split
  · refine (Block.setOrxH_entryShown _ _ ?_ ?_ ?_).trans hset <;> rfl
  · split
    · refine (Block.setOrxH_entryShown _ _ ?_ ?_ ?_).trans hset <;> rfl
    · exact hset

theorem Block.setTxOff_fronted (b : Block) (o : Nat) (v : Bool) : b.fronted anyReg (b.setTxOff o v) := by
  have hset : b.fronted anyReg (b.setFlag (U.orx o) F.ORX_STAT_TX_OFF v) := Block.fronted_refl.setFlag (by decide) rfl
  generalize b.setFlag (U.orx o) F.ORX_STAT_TX_OFF v = d at hset
  have hirq {x : Block} (p : Bool) (hx : b.fronted anyReg x) : b.fronted anyReg (x.when p fun b => b.irq (U.orx o) 17) :=
    hx.trans (Block.fronted_ite (Block.fronted_refl.irq rfl) Block.fronted_refl)
  unfold Block.setTxOff
  refine hirq _ ?_
  split
  · exact Block.fronted.setOrxH (Block.fronted_refl.setFlag (by decide) rfl) o _
  · split
    · exact Block.fronted.setOrxH (Block.fronted_refl.setFlag (by decide) rfl) o _
    · exact Block.fronted_refl.setFlag (by decide) rfl

/-- The entry of its table that an observation receiver moves to (R107, R108). -/
theorem Block.dwellEntry_entryShown (b : Block) (o : Nat) {e : Nat} (he : e < 16) :
    let w := ((b.orxH o).table)[e]?.getD 0
    (b.dwellEntry o e).entryShown o = (e, Word.fld w 4 0, Word.fld w 10 8, max 1 (Word.fld w 23 16),
      if Word.fld w 44 32 = 0 then none else some (b.t + Word.fld w 44 32)) := by
  intro w
  unfold Block.dwellEntry
  dsimp only
  rw [Block.setTxOff_entryShown]
  have ht : (if b.fld (U.orx o) F.ORX_STAT_ENTRY = e then b else b.setFld (U.orx o) F.ORX_EMW_STAT_RUN 0).t = b.t := by
    split <;> rfl
  generalize (if b.fld (U.orx o) F.ORX_STAT_ENTRY = e then b else b.setFld (U.orx o) F.ORX_EMW_STAT_RUN 0) = d at ht ⊢
  have hentry (p : Bool) (n : Nat) : (((d.setFld (U.orx o) F.ORX_STAT_ENTRY e).setFld (U.orx o) F.ORX_STAT_TXC n).setFlag (U.orx o)
      F.ORX_STAT_SETTLING p).fld (U.orx o) F.ORX_STAT_ENTRY = e := by
    rw [Block.setFlag, Block.fld_setFld_reg _ _ F.ORX_STAT_SETTLING F.ORX_STAT_ENTRY _ (by decide) rfl (by decide),
      Block.fld_setFld_reg _ _ F.ORX_STAT_TXC F.ORX_STAT_ENTRY _ (by decide) rfl (by decide), Block.fld_setFld_same _ _ _ _ (by decide)]
    exact Nat.mod_eq_of_lt he
  have htxc (p : Bool) : (((d.setFld (U.orx o) F.ORX_STAT_ENTRY e).setFld (U.orx o) F.ORX_STAT_TXC (Word.fld w 4 0)).setFlag (U.orx o)
      F.ORX_STAT_SETTLING p).fld (U.orx o) F.ORX_STAT_TXC = Word.fld w 4 0 := by
    rw [Block.setFlag, Block.fld_setFld_reg _ _ F.ORX_STAT_SETTLING F.ORX_STAT_TXC _ (by decide) rfl (by decide),
      Block.fld_setFld_same _ _ _ _ (by decide)]
    exact Nat.mod_eq_of_lt (Word.fld_lt w 4 0)
  have hfld (x : Block) (h : OrxH) (f : Fld) : (x.setOrxH o h).fld (U.orx o) f = x.fld (U.orx o) f := rfl
  unfold Block.entryShown
  rw [hfld, hfld, hentry, htxc, Block.orxH_setOrxH_same]
  dsimp only
  exact congrArg (fun t => (e, Word.fld w 4 0, Word.fld w 10 8, max 1 (Word.fld w 23 16),
    if Word.fld w 44 32 = 0 then none else some (t + Word.fld w 44 32))) ht

theorem Block.dwellEntry_fronted (b : Block) (o e : Nat) : b.fronted anyReg (b.dwellEntry o e) := by
  unfold Block.dwellEntry
  refine Block.fronted.trans ?_ (Block.setTxOff_fronted _ o _)
  refine Block.fronted.setOrxH (Block.fronted.setFlag (Block.fronted.setFld (Block.fronted.setFld ?_ ?_ rfl) ?_ rfl) ?_ rfl) o _
  · exact Block.fronted_ite Block.fronted_refl (Block.fronted_refl.setFld (by decide) rfl)
  all_goals decide

/-- RUN with an empty or outlying table is refused (R108). -/
theorem Block.orxRun_refused {b : Block} {o : Nat} (who : Who) (hn : b.fld (U.orx o) F.ORX_CTRL_N_ENT = 0 ∨ 16 < b.fld (U.orx o) F.ORX_CTRL_N_ENT) :
    b.orxRun who o true = b.correctedBy who (U.orx o) C.cfgPorts := if_pos (by simpa using hn)

/-- Another RUN is due at the boundary (R112). -/
theorem Block.orxRun_due {b : Block} {o : Nat} {on : Bool} (who : Who)
    (hn : on = true → 1 ≤ b.fld (U.orx o) F.ORX_CTRL_N_ENT ∧ b.fld (U.orx o) F.ORX_CTRL_N_ENT ≤ 16)
    (hne : b.flag (U.orx o) F.ORX_CTRL_RUN ≠ on) :
    b.orxRun who o on = (b.setFlag (U.orx o) F.ORX_CTRL_RUN on).setOrxH o { b.orxH o with startDue := on, stopDue := !on } := by
  have hvalid : ¬ (on && (b.fld (U.orx o) F.ORX_CTRL_N_ENT == 0 || decide (16 < b.fld (U.orx o) F.ORX_CTRL_N_ENT))) = true := by
    cases on with
    | false => exact Bool.false_ne_true
    | true =>
      have hrange : ¬ (b.fld (U.orx o) F.ORX_CTRL_N_ENT = 0 ∨ 16 < b.fld (U.orx o) F.ORX_CTRL_N_ENT) := by
        have := hn rfl
        omega
      simpa using hrange
  have hchange : ¬ (on == b.flag (U.orx o) F.ORX_CTRL_RUN) = true := by simpa using Ne.symm hne
  exact (if_neg hvalid).trans (if_neg hchange)

/-- A move to the next entry (R107). -/
theorem Block.dwellAdvance_next {b : Block} {o : Nat} (h : b.fld (U.orx o) F.ORX_STAT_ENTRY + 1 < (b.orxH o).table.length) :
    b.dwellAdvance o = (b.setOrxH o { b.orxH o with adv := false }).dwellEntry o (b.fld (U.orx o) F.ORX_STAT_ENTRY + 1) := if_pos h

/-- The loop engine samples again at the new entry, in the PBDs alone. -/
theorem Block.loopResample_keeps (b : Block) (o : Nat) : b.fronted anyReg b.loopResample ∧ b.loopResample.entryShown o = b.entryShown o := by
  unfold Block.loopResample
  split
  · exact ⟨Block.fronted_refl, rfl⟩
  · refine ⟨Block.fronted_each fun d m _ => Block.fronted_refl.setPbdH m _, ?_⟩
    exact Block.each_induct (P := fun d => d.entryShown o = b.entryShown o) _ _ b rfl fun d m _ hd => hd

end Sys2Proof.Machine

namespace Sys2Proof.Spec

open Sys2Proof.Machine

section Observation
variable {s : State} {who : Who} {o : Nat}

theorem exec_orxRunWrite {on : Bool} : exec (.orxRunWrite who o on) s =
    s.done fun _ b => b.wrMask who (U.orx o) R.ORX_CTRL (fldMask 0 0) fun b => b.orxRun who o on := rfl

theorem exec_orxDwellAdvance : exec (.orxDwellAdvance o) s =
    s.done fun _ b => if (b.orxH o).adv then (b.dwellAdvance o).loopResample else b := rfl

theorem exec_orxSettleEnd : exec (.orxSettleEnd o) s = s.done fun _ b =>
    match (b.orxH o).settleEnd with
    | none => b
    | some t => b.atElapsed t fun b => (b.setOrxH o { b.orxH o with settleEnd := none }).setFlag (U.orx o) F.ORX_STAT_SETTLING false := rfl

theorem U.orx_ne_zero (o : Nat) : U.orx o ≠ 0 := by unfold U.orx; omega

/-- R108: RUN with an empty or outlying table is refused. -/
theorem ends_orxRunWrite_refused (ht : Takes s who (U.orx o)) (hcoll : s.blk.time.coll = [])
    (hn : s.blk.fld (U.orx o) F.ORX_CTRL_N_ENT = 0 ∨ 16 < s.blk.fld (U.orx o) F.ORX_CTRL_N_ENT) : Ends (.orxRunWrite who o true) s fun t =>
      t.blk.flag (U.orx o) F.ORX_CTRL_RUN = s.blk.flag (U.orx o) F.ORX_CTRL_RUN ∧ t.blk.flag (U.orx o) F.UNIT_FAULT_CORRECTED = true ∧
        t.blk.orxH o = s.blk.orxH o ∧ MemSame s t := by
  refine ends_refused exec_orxRunWrite ht hcoll (fun _ => Block.orxRun_refused who hn) fun t hfault _ horx hregs hmem => ⟨?_, hfault.1, horx o, hmem⟩
  rw [Block.flag, Block.fld_eq_fld (hregs _ _ (by decide) (U.orx_ne_zero o) (.inr (by decide))), Block.flag]

/-- R108, R112: another RUN asks for the start or the stop at the boundary. -/
theorem ends_orxRunWrite {on : Bool} (ht : Takes s who (U.orx o)) (hcoll : s.blk.time.coll = [])
    (hn : on = true → 1 ≤ s.blk.fld (U.orx o) F.ORX_CTRL_N_ENT ∧ s.blk.fld (U.orx o) F.ORX_CTRL_N_ENT ≤ 16)
    (hne : s.blk.flag (U.orx o) F.ORX_CTRL_RUN ≠ on) : Ends (.orxRunWrite who o on) s fun t => t.blk.flag (U.orx o) F.ORX_CTRL_RUN = on ∧
      (t.blk.orxH o).startDue = on ∧ (t.blk.orxH o).stopDue = !on ∧ RegsKept s t (oneReg (U.orx o) R.ORX_CTRL) ∧ MemSame s t := by
  have hfront (b : Block) : b.fronted (oneReg (U.orx o) R.ORX_CTRL)
      ((b.setFlag (U.orx o) F.ORX_CTRL_RUN on).setOrxH o { b.orxH o with startDue := on, stopDue := !on }) :=
    (Block.fronted_refl.setFlag (by decide) (oneReg_self _ _)).setOrxH o _
  refine ends_of_write_eq (g := fun b => (b.setFlag (U.orx o) F.ORX_CTRL_RUN on).setOrxH o { b.orxH o with startDue := on, stopDue := !on })
    exec_orxRunWrite ht hcoll (fun _ => Block.orxRun_due who hn hne) hfront fun l => ?_
  have hflag (b : Block) (h : OrxH) : ((b.setFlag (U.orx o) F.ORX_CTRL_RUN on).setOrxH o h).flag (U.orx o) F.ORX_CTRL_RUN = on :=
    b.flag_setFlag_same (U.orx o) F.ORX_CTRL_RUN on (by decide) (by decide)
  dsimp only
  rw [Block.orxH_setOrxH_same, hflag]
  exact ⟨rfl, rfl, rfl, (hfront (s.blk.withColl l)).2, rfl⟩

/-- R107: the receiver moves to the next entry of its table. -/
theorem ends_orxDwellAdvance (hset : Settled s) (hadv : (s.blk.orxH o).adv = true)
    (hnext : s.blk.fld (U.orx o) F.ORX_STAT_ENTRY + 1 < (s.blk.orxH o).table.length) (hlen : (s.blk.orxH o).table.length ≤ 16) :
    let w := (s.blk.orxH o).table[s.blk.fld (U.orx o) F.ORX_STAT_ENTRY + 1]?.getD 0
    Ends (.orxDwellAdvance o) s fun t => t.blk.entryShown o = (s.blk.fld (U.orx o) F.ORX_STAT_ENTRY + 1, Word.fld w 4 0, Word.fld w 10 8,
      max 1 (Word.fld w 23 16), if Word.fld w 44 32 = 0 then none else some (s.blk.t + Word.fld w 44 32)) ∧ MemSame s t := by
  intro w
  generalize hb : s.blk.setOrxH o { s.blk.orxH o with adv := false } = b
  have hbt : b.t = s.blk.t := by rw [← hb]; rfl
  have htable : (b.orxH o).table = (s.blk.orxH o).table := by rw [← hb, Block.orxH_setOrxH_same]
  have hfront : s.blk.fronted anyReg b := hb ▸ Block.fronted_refl.setOrxH o _
  obtain ⟨hresample, hshown⟩ := (b.dwellEntry o (s.blk.fld (U.orx o) F.ORX_STAT_ENTRY + 1)).loopResample_keeps o
  refine ends_of_eq (free := anyReg) exec_orxDwellAdvance hset (if_pos hadv) (X := (s.blk.dwellAdvance o).loopResample) ?_ ?_
  all_goals rw [Block.dwellAdvance_next hnext, hb]
  · exact (hfront.trans (b.dwellEntry_fronted o _)).trans hresample
  · refine ⟨hshown.trans ((b.dwellEntry_entryShown o (by omega)).trans ?_), rfl⟩
    rw [htable, hbt]

/-- R107: settling ends at its instant. -/
theorem ends_orxSettleEnd (hset : Settled s) {d : Nat} (hsettle : (s.blk.orxH o).settleEnd = some d) (hdue : DueNow s d) :
    Ends (.orxSettleEnd o) s fun t => (t.blk.orxH o).settleEnd = none ∧ t.blk.flag (U.orx o) F.ORX_STAT_SETTLING = false ∧
      RegsKept s t (oneReg (U.orx o) R.ORX_STAT) ∧ MemSame s t := by
  obtain ⟨hnow, hend⟩ := hdue
  have hfront : s.blk.fronted (oneReg (U.orx o) R.ORX_STAT)
      ((s.blk.setOrxH o { s.blk.orxH o with settleEnd := none }).setFlag (U.orx o) F.ORX_STAT_SETTLING false) :=
    (Block.fronted_refl.setOrxH o _).setFlag (by decide) (oneReg_self _ _)
  refine ends_of_eq exec_orxSettleEnd hset ?_ hfront ⟨?_, Block.flag_setFlag_same _ _ _ _ (by decide) (by decide), hfront.2, rfl⟩
  · rw [hsettle]
    dsimp only
    rw [hnow, Block.atElapsed_now _ hend]
  · exact congrArg OrxH.settleEnd (s.blk.orxH_setOrxH_same o _)

end Observation

/-- R67, R105, R107, R108, R112: the planner and the observation receivers. -/
theorem plannerAndObservation : PlannerAndObservation := by
  intro who m o e at_ on s hm ho
  refine ⟨fun hset hp ht hdue => ?_, fun hset hp ht => ends_plannerSeqStart_passed hset hp ht, fun ht hcoll => ⟨?_, ?_⟩, ?_, ?_⟩
  · obtain ⟨hstill, hstarts, hlate⟩ := plannerSequences hset hp ht hdue
    refine ⟨hstill, fun hs hfree => ?_, hlate⟩
    obtain ⟨t, hstart, hentry, hmem, hcc⟩ := hstarts hs hfree
    refine ⟨t, hstart, hentry, hmem, fun c hc hfs => ?_⟩
    rw [hcc c hc, (ccStarted_running s.blk s.mem c _).2 hfs]
    rfl
  · rintro rfl hn
    exact ends_orxRunWrite_refused ht hcoll hn
  · exact fun hn hne => ends_orxRunWrite ht hcoll hn hne
  · intro hset hadv hnext hlen
    obtain ⟨t, hmove, hshown, hmem⟩ := ends_orxDwellAdvance hset hadv hnext hlen
    unfold Block.entryShown at hshown
    simp only [Prod.mk.injEq] at hshown
    obtain ⟨hentry, htxc, hpos, hticks, hsettle⟩ := hshown
    exact ⟨t, hmove, hentry, htxc, hpos, hticks, hsettle, hmem⟩
  · exact fun d hset hsettle hdue => ends_orxSettleEnd hset hsettle hdue

end Sys2Proof.Spec

namespace Sys2Proof.Proofs

open Sys2Proof Sys2Proof.Spec

/-- Settles O45, from the writes of the front end, the commands on its buses, and the planner with the observation receivers. -/
theorem frontEnd : Obligations.FrontEnd := ⟨frontEndWrites, frontEndBuses, plannerAndObservation⟩

end Sys2Proof.Proofs

/-! # Feedback cancellation (05_feedback_cancellation.md) -/

/-! ## A lane that diverges while DIVERGED still shows an earlier divergence (R134, R144) -/

namespace Sys2Proof.Machine

/-- Otherwise as reset left it: lane 0 cancels for PBD 0, ACTIVE and in TRACK, and its fourth excess tick has ended. It diverged at
elapsed 0 as well and was resumed: software cleared cause 17 of its UNIT_IRQ_STAT, and not yet LANE_STAT.DIVERGED. -/
def State.divergesAgain : State :=
  let u := U.lane 0
  let b := ((State.reset.blk.setFld u F.UNIT_STATE_STATE St.active).setFld u F.LANE_CFG_PBD (U.pbd 0)).setFld u F.LANE_STAT_ADAPT 2
  let b := (b.setFld u F.LANE_RESID_EXCESS 4).setFlag u F.LANE_STAT_DIVERGED true
  { State.reset with blk := b.setLaneH 0 { LaneH.init with divs := [0] } }

/-- The guard acts on it, for the second time in 10 s. -/
theorem State.divergesAgain_guarded : Spec.Settled State.divergesAgain ∧ State.divergesAgain.blk.adapt 0 = 2 ∧
    State.divergesAgain.blk.fld (U.lane 0) F.LANE_RESID_EXCESS = 4 ∧ State.divergesAgain.blk.ownState (U.lane 0) = 2 ∧
    State.divergesAgain.blk.lanePbd 0 < 128 ∧ (State.divergesAgain.blk.divsRecent 0).length < 3 := by
  decide +kernel

/-- It freezes the lane; DIVERGED, which was set, is not set anew, and so cause 17 stays clear. -/
theorem State.divergesAgain_silent :
    (State.divergesAgain.eff fun _ b => b.diverge 0).blk.adapt 0 = 4 ∧
      ((State.divergesAgain.eff fun _ b => b.diverge 0).blk.reg (U.lane 0) R.UNIT_IRQ_STAT).getLsbD 17 = false := by
  decide +kernel

end Sys2Proof.Machine

namespace Sys2Proof.Spec

open Sys2Proof.Machine

theorem exec_laneDiverge (i : Nat) (s : State) : exec (.laneDiverge i) s = s.done fun _ b => b.diverge i := rfl

end Sys2Proof.Spec

namespace Sys2Proof.Proofs

open Sys2Proof Sys2Proof.Machine Sys2Proof.Spec

/-- Refutes O46, in `TrackAndDiverge`: cause 17 comes as DIVERGED is set (R144), and the statement has it of every divergence that does
not fence. Where software has cleared the cause of an earlier divergence and DIVERGED still stands, the lane freezes without it. -/
theorem not_laneAdaptation : ¬ Obligations.LaneAdaptation := by
  unfold Obligations.LaneAdaptation
  rintro ⟨-, hguard, -⟩
  obtain ⟨hsettled, htrack, hexcess, hactive, hpbd, hrecent⟩ := State.divergesAgain_guarded
  obtain ⟨-, hdiverge⟩ := hguard 0 State.divergesAgain (by decide) hsettled
  obtain ⟨-, hfreezes⟩ := hdiverge htrack hexcess hactive hpbd
  obtain ⟨t, ht, -, -, -, -, hcause, -⟩ := hfreezes hrecent
  obtain rfl : State.divergesAgain.eff (fun _ b => b.diverge 0) = t :=
    Host.Outcome.next.inj ((exec_laneDiverge 0 _).symm.trans ht)
  obtain ⟨-, hsilent⟩ := State.divergesAgain_silent
  rw [Cause, hsilent] at hcause
  contradiction

end Sys2Proof.Proofs

/-! # The gain loop engine (06_gain_loop_engine.md) -/

/-! ## A clamped write of LOOP_SETPT in the START-UP phase (R10, R351, R352, R470) -/

namespace Sys2Proof.Machine

/-- A value for LOOP_SETPT of L3: SETPT and all else zero, UMIN the code 0x8000, which lies below UMIN's range (R10). -/
def setptUminBelow : Word := 0x80000000

/-- The state after reset, in which the host has written that value at PBD 0. -/
def State.uminClamped : State :=
  State.reset.eff fun _ b => b.wrReg .pf (U.pbd 0) (R.LOOP_SETPT 3) .both fun b => b.loopWrite .pf 0 (R.LOOP_SETPT 3) .both setptUminBelow

/-- UMIN is clamped, and in its START-UP phase the collector takes the CLAMP: the line of the PBDs' block class sets its bit of FLT_COLLECT. -/
theorem State.uminClamped_collected : State.reset.blk.reg 0 R.FLT_COLLECT = 0 ∧ State.uminClamped.blk.reg 0 R.FLT_COLLECT = 1 <<< 16 := by
  decide +kernel

end Sys2Proof.Machine

namespace Sys2Proof.Spec

open Sys2Proof.Machine

theorem exec_loopRegWrite (who : Who) (m : Nat) {off : Nat} (half : Half) (v : Word) (s : State) (h : loopOff off = true) :
    exec (.loopRegWrite who m off half v) s = s.did fun b => b.wrReg who (U.pbd m) off half fun b => b.loopWrite who m off half v := by
  change execLoopRegWrite who m off half v s = _
  simp only [execLoopRegWrite, h, if_true]

/-- After reset the host's writes at PBD 0 are taken. -/
theorem takes_reset_pbd : Takes State.reset .pf (U.pbd 0) := by
  decide +kernel

end Sys2Proof.Spec

namespace Sys2Proof.Proofs

open Sys2Proof Sys2Proof.Machine Sys2Proof.Spec

/-- Refutes O51, in `LoopWrites`: a write of LOOP_SETPT keeps every register beside the PBD's page only where no field of it is clamped. The
statement has SETPT in range and leaves the rest of the word open; a UMIN of 0x8000 is clamped (R10, R470), and while collector mode is
in force, as after reset, the CLAMP sets its line in FLT_COLLECT of the root (R352). -/
theorem not_loopEngine : ¬ Obligations.LoopEngine := by
  unfold Obligations.LoopEngine
  rintro ⟨-, -, -, hwrites⟩
  obtain ⟨hpbd, -⟩ := hwrites .pf 0 3 false setptUminBelow State.reset (by decide) (by decide) rfl
  obtain ⟨hsetpt, -⟩ := hpbd takes_reset_pbd
  obtain ⟨t, ht, -, -, -, hkept, -⟩ := hsetpt (by decide) (by decide)
  obtain rfl : State.uminClamped = t := Host.Outcome.next.inj ((exec_loopRegWrite .pf 0 .both setptUminBelow State.reset rfl).symm.trans ht)
  obtain ⟨hbefore, hafter⟩ := State.uminClamped_collected
  have hroot := hkept 0 R.FLT_COLLECT (by decide) (by decide)
  rw [hbefore, hafter] at hroot
  contradiction

end Sys2Proof.Proofs

/-! # The measurement chains and kiln (07_measurement_chains.md, 14_kiln_and_power_domains.md) -/

/-! ## SHUTDOWN entered while a thermal stop is under way (R326, R327, R336) -/

namespace Sys2Proof.Machine

/-- The samples of one millisecond: sensor 0 reads 113 °C, 1 °C above its SHUTDOWN threshold, every other sensor 0 °C. -/
def hotSamples : List (BitVec 16) := 1808 :: List.replicate 47 0

/-- Otherwise as reset left it, a millisecond on: sensor 0 and with it the module stand at CRIT, with seven readings above SHUTDOWN behind
them, and a thermal stop is under way although LEVEL has not come to SHUTDOWN. -/
def State.stopsAtCrit : State :=
  let b := (State.reset.blk.setFld U.kiln F.KILN_STAT_LEVEL 3).setFld (U.ts 0) F.TS_READ_LEVEL 3
  let b := (b.setTsH 0 { TsH.init with run4 := 7 }).setKiln fun k => { k with stopping := true }
  { State.reset with blk := { b with time := { b.time with elapsed := 1966080, tickStart := 1966080, tickEnd := 1982464 } } }

theorem hotSamples_range : ∀ r ∈ hotSamples, -800 ≤ r.toInt ∧ r.toInt ≤ 2400 := by
  simp [hotSamples]

/-- A sample of every sensor is due, and none fails at it. -/
theorem State.stopsAtCrit_samples : Spec.Settled State.stopsAtCrit ∧ State.stopsAtCrit.blk.inReset = false ∧
    Spec.DueNow State.stopsAtCrit (State.stopsAtCrit.blk.kiln.sampleAt + 1966080) ∧ Spec.sound State.stopsAtCrit hotSamples ∧
    State.stopsAtCrit.blk.kiln.forced = false ∧ State.stopsAtCrit.blk.fld U.kiln F.KILN_STAT_LEVEL < 4 := by
  have hlive : ∀ n, n < 48 → State.stopsAtCrit.blk.tsLive n = true ∧ (State.stopsAtCrit.blk.tsH n).filts.length < 63 := by
    decide +kernel
  exact ⟨by decide +kernel, by decide +kernel, by decide +kernel, ⟨rfl, hotSamples_range, hlive⟩, by decide +kernel, by decide +kernel⟩

/-- That state after its sample. -/
def State.shutdownAgain : State :=
  State.stopsAtCrit.eff fun _ b =>
    if b.inReset then b else b.atElapsed (b.kiln.sampleAt + msTc) fun b => b.kilnSample hotSamples

/-- Sensor 0 enters SHUTDOWN; kiln, which stops already, starts no stop, and no KILN_SHUTDOWN is raised. -/
theorem State.shutdownAgain_silent :
    ((List.range 48).map fun k => State.shutdownAgain.blk.fld (U.ts k) F.TS_READ_LEVEL).foldl max 0 = 4 ∧
      State.shutdownAgain.blk.flag U.kiln F.UNIT_FAULT_CONTAINED = false := by
  decide +kernel

end Sys2Proof.Machine

namespace Sys2Proof.Spec

open Sys2Proof.Machine

theorem exec_tsSample (raws : List (BitVec 16)) (s : State) :
    exec (.tsSample raws) s = s.did fun b => if b.inReset then b else b.atElapsed (b.kiln.sampleAt + msTc) fun b => b.kilnSample raws := rfl

end Sys2Proof.Spec

namespace Sys2Proof.Proofs

open Sys2Proof Sys2Proof.Machine Sys2Proof.Spec

/-- Refutes O52, in `KilnSamples`: the statement has KILN_SHUTDOWN raised at every sample that takes LEVEL from below SHUTDOWN to it. The
stop raises it as it starts (R336), and where a stop is already under way none starts; the hypotheses put LEVEL below SHUTDOWN and
leave it open whether kiln stops. The statement is over all states, those that stop below SHUTDOWN among them. -/
theorem not_chainsAndKiln : ¬ Obligations.ChainsAndKiln := by
  unfold Obligations.ChainsAndKiln
  rintro ⟨-, hsamples, -⟩
  obtain ⟨hsettled, hreset, hdue, hsound, hforced, hlevel⟩ := State.stopsAtCrit_samples
  obtain ⟨hsample, -⟩ := hsamples 0 hotSamples State.stopsAtCrit (by decide) hsettled hreset hdue
  obtain ⟨t, ht, -, -, -, -, -, -, -, -, -, hshutdown, -⟩ := hsample hsound hforced hlevel
  obtain rfl : State.shutdownAgain = t := Host.Outcome.next.inj ((exec_tsSample hotSamples _).symm.trans ht)
  obtain ⟨htop, hsilent⟩ := State.shutdownAgain_silent
  obtain ⟨hraised, -⟩ := hshutdown htop
  exact Bool.false_ne_true (hsilent.symm.trans hraised)

end Sys2Proof.Proofs
